-- ==== Sys2Proof/Word.lean ====
section
/-! DEFINITION. Word widths, sparse tables and sparse memories: the types that the syntax and the state are made of. -/

namespace Sys2Proof

/-- A 32-bit word: mailbox words, registers of the control page, endpoints (R5, R7). -/
abbrev Word := BitVec 32

/-- A byte of the Host Window, the Sound Store or a serial line. -/
abbrev Byte := BitVec 8

/-- A 24-bit word of a voice core (R205), and a Q1.23 sample (R149). -/
abbrev Word24 := BitVec 24

/-- A 56-bit accumulator (R210). -/
abbrev Acc := BitVec 56

/-- A sparse table: keys strictly rising; a key that is not listed holds the table's default. -/
abbrev Tab (α : Type) := List (Nat × α)

/-- A sparse memory of `w`-bit cells: addresses strictly rising, no entry equal to what an unlisted
address reads as (`Machine.Mem.fill`). -/
abbrev Mem (w : Nat) := List (Nat × BitVec w)

end Sys2Proof
end

