-- ==== Sys2Proof/Syntax.lean ====
section
/-! DEFINITION. The commands of the block: one constructor of `Instr` for each row of spec/opcode_table.json,
with the operands the row needs. Mailbox commands carry their whole entry; voice core instructions carry
their core and their fields; events carry what the world outside the block decides (a measured value, a
received character, the moment). -/

namespace Sys2Proof

/-- A mailbox command entry (R66). The opcode is the constructor's; LENGTH is the length of `payload`. -/
structure Entry where
  /-- channel 0 to 15 (R57) -/
  ch : Nat := 0
  /-- header word 0 [31:28] -/
  version : BitVec 4 := 1
  /-- header word 0 [15:0] -/
  seq : BitVec 16 := 0
  /-- header word 1 [31] -/
  stage : Bool := false
  /-- header word 1 [30] -/
  stamped : Bool := false
  /-- header word 1 [29] -/
  quiet : Bool := false
  /-- header word 1 [28:24], reserved -/
  rsv : BitVec 5 := 0
  /-- header word 1 [23:16] -/
  target : Byte := 0xFF
  /-- header word 2, present when `stamped` -/
  stamp : Word := 0
  /-- payload words -/
  payload : List Word := []
deriving DecidableEq, Repr

/-- Who makes a Sound Store access (R321, R323, R325). -/
inductive Initiator where
  /-- Oscillator Array reads through the Course port of Course `c` -/
  | array (c : Nat)
  /-- a voice core's fetch through its Course port -/
  | core (k : Nat)
  /-- service core -/
  | service (n : Nat)
  /-- copy engine on behalf of the owner code `o` -/
  | copy (o : BitVec 4)
  /-- active Conductor -/
  | conductor
  /-- host bridge, through SS_APERTURE -/
  | host
  /-- background test -/
  | test
  /-- the Vault, in its own map -/
  | vault
deriving DecidableEq, Repr

/-- A plain access to one word: a read, or a write with its byte strobes. -/
structure WordAcc where
  /-- word index -/
  word : Nat := 0
  /-- the value written, `none` for a read -/
  wr : Option Word := none
  /-- byte strobes, lane 0 in bit 0 -/
  strobes : BitVec 4 := 0xF
deriving DecidableEq, Repr

/-- One request at a Sound Store bank: its initiator and its access (R323, R324). -/
structure BankReq where
  who : Initiator
  acc : WordAcc := {}
  /-- the word read has a double-bit error (R321) -/
  dbe : Bool := false
deriving DecidableEq, Repr

/-- Whose register space a register access goes through (R60, R260). -/
inductive RegSpace where
  /-- the control page, from the host port -/
  | host
  /-- the control page, from the inside -/
  | inner
  /-- the work registers of service core 0 to 3 or Conductor 4 (A), 5 (B) -/
  | work (n : Nat)
deriving DecidableEq, Repr

/-- What the active Conductor does at a boundary's self-check (R287). -/
inductive CondCheck where
  /-- both checks pass; it reports -/
  | pass
  /-- a check fails; it gives up control -/
  | fail
  /-- it is hung and reports nothing -/
  | silent
deriving DecidableEq, Repr

/-- What the fuses hold (R422, R431, R436 to R438). -/
structure Fuses where
  /-- LIFE (R438) -/
  life : BitVec 2 := 0
  /-- image key, all-zero in BLANK (R422) -/
  ik : BitVec 256 := 0
  /-- device root key, unique per unit (R422) -/
  drk : BitVec 256 := 0
  /-- GRADE (R23) -/
  grade : BitVec 1 := 0
  /-- serial number (R446) -/
  serial : BitVec 64 := 0
  /-- levels assigned to the tamper sources, fused at the move to FIELD (R431) -/
  levels : BitVec 12 := 0x555
  /-- TIN_EN, fused with them (R431) -/
  tinEn : BitVec 2 := 0
deriving DecidableEq, Repr

/-- What happens in the boot phase under way (R475, R476). -/
inductive BootEvent where
  /-- phase 0: the straps and the fuses are read (R475) -/
  | straps (host : BitVec 2) (fuses : Fuses)
  /-- phase 1 completes -/
  | clocks
  /-- phase 2: both header copies are read (R474) -/
  | header (copy0 copy1 : List Word)
  /-- phase 3: the images of the chosen and of the other slot, with their tags, and what the two Conductors' self-checks give (R425, R475) -/
  | image (chosen other : List Word) (aOk bOk : Bool)
  /-- phase 4: every populated channel trained -/
  | trained (ok : Bool)
  /-- phase 5: firmware started; VBAT_VAULT present, and the core regulator's VOUT_MODE (R454, R475) -/
  | firmware (vbat : Bool) (vout : Byte)
  /-- phase 6: the cores that fail the start-up self-test -/
  | selfTest (failed : List Nat)
  /-- the boot flash does not respond -/
  | noFlash
deriving DecidableEq, Repr

/-- gPTP event messages (R41, R45). -/
inductive PtpEvent where
  /-- a Sync received: one-step with its origin time, or two-step -/
  | sync (origin : Option (BitVec 64))
  | pdelayReq
  | pdelayResp
  /-- an event message the device sent -/
  | sent
deriving DecidableEq, Repr

/-- The results a step of a SERVICE cycle hands to the ledger (R450). -/
inductive ServiceResult where
  /-- step 1: cores of the Course (0 to 7) that fail their known-answer test -/
  | knownAnswer (failed : List Nat)
  /-- step 2: residue test, with the lanes that fail: oscillators 0 to 7, CIC lanes 8 to 11 -/
  | residue (failed : List Nat)
  /-- step 3: least local margin of each core, mV -/
  | margins (mv : List Nat)
  /-- step 4: one bank's margin, mV -/
  | bank (b : Nat) (mv : Nat)
  /-- step 4: a 4 KB window and group borrowed for test -/
  | borrow (b : Nat) (window : Nat) (group : Nat)
  /-- the cycle ends -/
  | finish
deriving DecidableEq, Repr

/-- What the inputs of the Bridge have taken since the last frame tick (R353, R361). -/
structure Inputs where
  /-- words of the TDM slots, key 32 x code + sample -/
  words : List (Nat × Word24) := []
  /-- what each PDM pin carried at the rising and at the falling edge of every PDM clock, oldest first -/
  pdm : List (Nat × List (Bool × Bool)) := []
deriving DecidableEq, Repr

/-- One drift of a slave TDM port against the audio clock (R360). -/
structure Slip where
  port : Nat
  /-- an input port, else an output port -/
  input : Bool := false
  /-- input: two TDM frames ended in sample period `n`, else none did; output: samples `n` and `n + 1` fell in one TDM frame, else a TDM
  frame found no new sample after `n` -/
  extra : Bool := false
  n : Nat := 0
deriving DecidableEq, Repr

/-- What a UART's receiver has seen of a character's data bits on UART_RXD (R402, R408). -/
inductive CharLine where
  /-- their levels at sample 7, bit 0 the first -/
  | levels (data : BitVec 8)
  /-- the pulses of a SIR line: clk from sample 0 of the start bit to the rising edge, and how many clk high; the parity and the stop bit follow from
  them too -/
  | pulses (ps : List (Nat × Nat))
deriving DecidableEq, Repr

/-- What the Health Monitor has measured in a 100 ms period (R449, R455). -/
structure HealthReading where
  /-- worst slack of each core over the period, ps -/
  slacks : List Int := []
  /-- ring oscillators, four of each Course, ppm from the factory value -/
  rings : List Int := []
  /-- junction temperatures in 0.25 degrees: Courses 0 to 7, then the central sensor -/
  temps : List Int := []
deriving DecidableEq, Repr

/-- A Course clock alarm and the period that it ends (R456): what has been measured in that period, and whether a write is acknowledged. -/
structure ClockAlarm where
  course : Nat
  reading : HealthReading := {}
  /-- VDD_CORE at each Course, mV -/
  vdd : List Nat := []
  /-- the Course's VDD_CORE differed from the setpoint by more than 25 mV over the whole period -/
  off25 : List Bool := []
  ack : Bool := true
deriving DecidableEq, Repr

/-- Tamper sources that become active (R430): the sources, and of TIN0 and TIN1 the levels at TAMP_IN in the last two periods, the older first. -/
structure TamperSeen where
  sources : BitVec 6
  tin : List (Bool × Bool) := []
deriving DecidableEq, Repr

/-- One UMP packet of a partner: its words (R303). -/
abbrev Ump := List Word

/-- The source operand of an arithmetic instruction (R216): W(d XOR 1), or U0 placed as a write of the F view. -/
inductive ArithSrc where
  | pairW
  | u0
deriving DecidableEq, Repr

/-- A port field of 7 bits (R214), laid out as the table Port fields. -/
inductive PortOp where
  | none
  | load
  | store
  | storeAcc
deriving DecidableEq, Repr

/-- A port: its operation, register and pointer (R214). -/
structure Port where
  op : PortOp := .none
  reg : BitVec 3 := 0
  ptr : BitVec 2 := 0
deriving DecidableEq, Repr

/-- The two ports of an instruction. -/
structure Ports where
  x : Port := {}
  y : Port := {}
deriving DecidableEq, Repr

/-- A register code of a transfer (R209). -/
abbrev RegCode := BitVec 7

/-- Address modes of MOVM (R218). -/
inductive MovMode where
  | absolute (a : BitVec 16)
  | indexed (ptr : BitVec 3) (d : BitVec 16)
deriving DecidableEq, Repr

/-- Which local memory an error strikes (R205, R233). -/
inductive LocalMem where
  | x
  | y
  | prog
deriving DecidableEq, Repr

/-- The commands of the MTY6480 modelled as a block: one constructor per row of the opcode table. -/
inductive Instr where
  -- mailbox commands of time and configuration (R53 to R56, R92 to R96)
  | timeGet (e : Entry)
  | timeRateSet (e : Entry)
  | rateChangeComplete
  | timeClockSelect (e : Entry)
  | timeDomainSet (e : Entry)
  | sysNop (e : Entry)
  | configCommit (e : Entry)
  | configDiscard (e : Entry)
  | configEpoch (e : Entry)
  | journalQuery (e : Entry)
  | commandDesync (e : Entry)
  | responseReleased (ch : Nat)
  -- voices (R129 to R134, R162, R163)
  | voiceStart (e : Entry)
  | voiceRelease (e : Entry)
  | voiceEnd (e : Entry)
  | voiceQuery (e : Entry)
  | partCounters (e : Entry)
  | placeLoad (e : Entry)
  | decimSet (e : Entry)
  | decimStatus (e : Entry)
  -- parameters and banks (R199 to R204, R238)
  | paramSet (e : Entry)
  | paramGet (e : Entry)
  | envWrite (e : Entry)
  | coefLoad (e : Entry)
  | coefSwap (e : Entry)
  | coefStatus (e : Entry)
  | swapScarfEnd (bank : Nat)
  | vprogLoad (e : Entry)
  | dispatchSet (e : Entry)
  | dispatchStatus (e : Entry)
  | traceSet (e : Entry)
  | traceStatus (e : Entry)
  -- Bays and Conductors (R272, R291 to R298)
  | bayForm (e : Entry)
  | bayMode (e : Entry)
  | bayModeDrainEnd (bay : Nat)
  | bayStatus (e : Entry)
  | bayRecover (e : Entry)
  | condSwitch (e : Entry)
  | plannedSwitch
  | fwUpdate (e : Entry)
  -- sessions (R316 to R320)
  | sessionList (e : Entry)
  | sessionQuery (e : Entry)
  | sessionSet (e : Entry)
  | sessionClose (e : Entry)
  | eventSend (e : Entry)
  -- memory (R347 to R350)
  | bankGive (e : Entry)
  | bankStatus (e : Entry)
  | hwRegionSet (e : Entry)
  | contentPin (e : Entry)
  -- audio and streams (R372 to R377)
  | routeSet (e : Entry)
  | tdmSet (e : Entry)
  | audioClockSet (e : Entry)
  | streamSet (e : Entry)
  | renderSet (e : Entry)
  | audioStatus (e : Entry)
  -- DAC, UART, timers (R397 to R399, R417 to R421)
  | dacSet (e : Entry)
  | dacWrite (e : Entry)
  | dacStatus (e : Entry)
  | uartSet (e : Entry)
  | uartSend (e : Entry)
  | uartRecv (e : Entry)
  | timerSet (e : Entry)
  | timerRead (e : Entry)
  -- packages and Vault (R439 to R447)
  | pkgWrite (e : Entry)
  | pkgCommit (e : Entry)
  | pkgDrop (e : Entry)
  | vaultStatus (e : Entry)
  | vaultKeyWrap (e : Entry)
  | vaultKeyLoad (e : Entry)
  | tamperSet (e : Entry)
  | tamperClear (e : Entry)
  | lifeAdvance (e : Entry)
  -- health and system (R463 to R465, R480, R484)
  | healthStatus (e : Entry)
  | healthLedger (e : Entry)
  | healthSet (e : Entry)
  | sysReset (e : Entry)
  | sysPower (e : Entry)
  -- register and memory accesses
  | registerWrite (sp : RegSpace) (off : BitVec 16) (v : Word)
  | hwDbCmd (v : Word)
  | hwMbxReset (v : Word)
  | tmDtimeLo
  | setAliasWrite (who : Initiator) (bank word : Nat) (v : Word) (strobes : BitVec 4)
  | clearAliasWrite (who : Initiator) (bank word : Nat) (v : Word) (strobes : BitVec 4)
  | soundStoreAccess (bank : Nat) (reqs : List BankReq)
  | hostWindowAccess (inner : Option WordAcc) (outer : Option WordAcc)
  | lowerHalfRead (word : Nat) (inner : Option WordAcc)
  | upperHalfRead
  | lowerHalfWrite (word : Nat) (v : BitVec 16)
  | upperHalfWrite (word : Nat) (v : BitVec 16) (inner : Option WordAcc)
  | qspiRead (word : Nat) (n : Nat) (inner : List WordAcc)
  | qspiWrite (word : Nat) (ws : List Word) (inner : List WordAcc)
  | qspiUnknownCommand (cmd : Byte)
  | uartHold (u : Nat)
  | tmrCapq (host : Bool) (t : Nat)
  | dspAsk (who : Nat)
  | dspPostGo (who : Nat)
  | stallTimeout (who : Nat)
  | dspFlag (who : Nat) (v : Word)
  | sysBootCtl (v : Word)
  -- voice core: arithmetic (R216)
  | hold (k : Nat) (pt : Ports)
  | add (k : Nat) (wd : BitVec 2) (src : ArithSrc) (pt : Ports)
  | sub (k : Nat) (wd : BitVec 2) (src : ArithSrc) (pt : Ports)
  | cmp (k : Nat) (wd : BitVec 2) (src : ArithSrc) (pt : Ports)
  | neg (k : Nat) (wd : BitVec 2) (src : ArithSrc) (pt : Ports)
  | abs (k : Nat) (wd : BitVec 2) (src : ArithSrc) (pt : Ports)
  | clr (k : Nat) (wd : BitVec 2) (src : ArithSrc) (pt : Ports)
  | copy (k : Nat) (wd : BitVec 2) (src : ArithSrc) (pt : Ports)
  | andW (k : Nat) (wd : BitVec 2) (src : ArithSrc) (pt : Ports)
  | orW (k : Nat) (wd : BitVec 2) (src : ArithSrc) (pt : Ports)
  | xorW (k : Nat) (wd : BitVec 2) (src : ArithSrc) (pt : Ports)
  | shl1 (k : Nat) (wd : BitVec 2) (src : ArithSrc) (pt : Ports)
  | shr1 (k : Nat) (wd : BitVec 2) (src : ArithSrc) (pt : Ports)
  | rndf (k : Nat) (wd : BitVec 2) (src : ArithSrc) (pt : Ports)
  | satf (k : Nat) (wd : BitVec 2) (src : ArithSrc) (pt : Ports)
  -- multiplies (R215)
  | mac (k : Nat) (wd : BitVec 2) (sign : Bool) (ui : BitVec 1) (vj : BitVec 2) (pt : Ports)
  | mul (k : Nat) (wd : BitVec 2) (sign : Bool) (ui : BitVec 1) (vj : BitVec 2) (pt : Ports)
  | qmac (k : Nat) (sign z : Bool) (ui : BitVec 2) (quad : BitVec 1) (pt : Ports)
  | qmacx (k : Nat) (sign z : Bool) (ui : BitVec 2) (quad : BitVec 1) (pt : Ports)
  | xmac (k : Nat) (sign z : Bool) (pt : Ports)
  -- search and extended (R221, R222)
  | min (k : Nat) (wd : BitVec 2) (ui : BitVec 2) (pt : Ports)
  | max (k : Nat) (wd : BitVec 2) (ui : BitVec 2) (pt : Ports)
  | minuw (k : Nat) (wd : BitVec 2) (ui : BitVec 2) (pt : Ports)
  | maxuw (k : Nat) (wd : BitVec 2) (ui : BitVec 2) (pt : Ports)
  | addc (k : Nat) (wd : BitVec 2) (pt : Ports)
  | subc (k : Nat) (wd : BitVec 2) (pt : Ports)
  | mulsu (k : Nat) (wd : BitVec 2) (ui : BitVec 2) (pt : Ports)
  | muluu (k : Nat) (wd : BitVec 2) (ui : BitVec 2) (pt : Ports)
  -- transfers (R209, R218)
  | move (k : Nat) (dst src : RegCode)
  | ldk (k : Nat) (dst : RegCode) (c : Word24)
  | movm (k : Nat) (reg : RegCode) (store : Bool) (y : Bool) (mode : MovMode)
  -- flow (R216, R217, R223, R224)
  | nop (k : Nat)
  | endTask (k : Nat)
  | fwait (k : Nat)
  | jmp (k : Nat) (target : BitVec 13)
  | call (k : Nat) (target : BitVec 13)
  | ret (k : Nat)
  | brCc (k : Nat) (cond : BitVec 4) (off : BitVec 12)
  | loop (k : Nat) (count : Byte) (body : Byte)
  | loopv (k : Nat) (ui : BitVec 2) (body : Byte)
  | leave (k : Nat)
  | rpt (k : Nat) (n : BitVec 7)
  -- address and shift (R216, R228)
  | fetch (k : Nat) (y : Bool) (ptr : BitVec 3) (ui : BitVec 2) (words : BitVec 6)
  | fetchComplete (k : Nat) (dbe : List Nat)
  | fifthFetchStart (k : Nat)
  | padd (k : Nat) (ptr : BitVec 3) (imm : BitVec 12)
  | sra (k : Nat) (wd : BitVec 2) (sh : BitVec 6)
  | sla (k : Nat) (wd : BitVec 2) (sh : BitVec 6)
  | srl (k : Nat) (wd : BitVec 2) (sh : BitVec 6)
  | cls (k : Nat) (wd : BitVec 2)
  | dstep (k : Nat) (wd : BitVec 2) (ui : BitVec 2)
  | clrcnt (k : Nat)
  | reservedEncoding (k : Nat)
  -- tasks and cores
  | taskDispatch (k : Nat)
  | preemption (k : Nat)
  | localMemoryError (k : Nat) (m : LocalMem) (addr : Nat) (double : Bool)
  -- frame, Conductors, engines
  | frameTick (check : CondCheck) (inputs : Inputs) (slips : List Slip)
  | watchdogTakeover
  | conductorFailover
  | conductorRestart
  | takeControlBack
  | oscillatorBlockFlag (course : Nat) (pos : Nat)
  | decimatedBlockFlag (course : Nat) (pos : Nat)
  | inputBufferCopy (slot : Nat)
  | onset (slot : Nat)
  | envelopeSegmentEnd (slot : Nat) (env : Nat)
  | scarfEnd (slot : Nat)
  | quarantineEnd (slot : Nat)
  | groupRelease (g : Nat)
  | templateResident (k : Nat) (template : Nat)
  | contentResident (bay : Nat) (object : Nat)
  | promotion
  | kerfStart
  -- pairs (R278 to R283, R461)
  | frameCheck (bay : Nat) (fails : List Nat)
  | frameCheckDecision (bay : Nat)
  | outputPathFault (bay : Nat)
  | residueCheckFailure (course : Nat) (lane : Nat)
  | resynchronisationEnd (bay : Nat)
  | selfTestEnd (bay : Nat) (pass : Bool) (failed : List Nat)
  | returnHome (bay : Nat)
  | renderFrameStart (bay : Nat)
  | renderFrameEnd (bay : Nat)
  -- partners (R300 to R312)
  | networkMidiPacket (sid : Nat) (umpSeq : BitVec 16) (r : BitVec 64) (ps : List Ump)
  | invitation (port : Nat) (identity : BitVec 64) (auth : Bool)
  | bye (sid : Nat)
  | jrClock (sid : Nat) (r : BitVec 64) (c : BitVec 16)
  | endpointDiscovery (sid : Nat)
  | streamConfigurationRequest (sid : Nat) (midi2 : Bool)
  | functionBlockDiscovery (sid : Nat)
  | ping (sid : Nat)
  | keepaliveTimeout (sid : Nat)
  | intakeFifoExit
  -- UARTs (R402 to R410)
  | uartCharacterComplete (u : Nat) (line : CharLine) (parity stop : Bool) (r : BitVec 64)
  | rawCharacterTaken (u : Nat)
  | uartStampedSend (j : Word)
  -- gPTP and launch (R41 to R49)
  | gptpEventMessage (dom port : Nat) (m : PtpEvent) (entry : BitVec 64)
  | domainLock (dom : Nat) (offset : BitVec 64) (ratePpt : Int)
  | domainUnlock (dom : Nat)
  | rampEnd
  | frameLaunch (port : Nat) (classB : Bool)
  -- streams and AVDECC (R362 to R366)
  | listenerPacket (t : Nat) (streamId format : BitVec 64) (seq : Byte) (ts : Word) (samples : List (List Word24))
  | acmpConnect (t : Nat) (streamId : BitVec 64)
  | acmpDisconnect (t : Nat)
  | entityAvailable (ctl : BitVec 64)
  | readDescriptor (ctl : BitVec 64) (type index : Nat)
  | acquireEntity (ctl : BitVec 64) (release : Bool)
  | lockEntity (ctl : BitVec 64) (unlock : Bool)
  | getStreamFormat (ctl : BitVec 64) (t : Nat)
  | setStreamFormat (ctl : BitVec 64) (t : Nat) (format : BitVec 64)
  | getStreamInfo (ctl : BitVec 64) (t : Nat)
  | getCounters (ctl : BitVec 64) (t : Nat)
  | listenerReady (t : Nat)
  | referenceLost
  | referenceReturn
  -- banks (R330, R332)
  | bankRetention (b : Nat)
  | bankWake (b : Nat)
  | zeroiseDone (b : Nat)
  -- DAC events (R381 to R393, R460)
  | cvWriteEffect
  | dacShort (d : Nat)
  | shortToFault (d : Nat)
  | vddaDacLow
  | dacClockAbsent
  | rampComplete (d : Nat)
  | settleEnd (d : Nat)
  | recalibrationPass (d : Nat)
  -- timers
  | periodEvent (t : Nat)
  | capture (t : Nat) (rising : Bool)
  -- health (R449 to R465)
  | healthPeriodEnd (r : HealthReading) (vdd : List Nat) (off25 : List Bool) (ack : Bool)
  | pmbusRetry (ack : Bool)
  | courseClockAlarm (alarm : ClockAlarm)
  | courseSupplyAlarm (course : Nat)
  | ledgerWrite
  | serviceCycle (course : Nat) (res : ServiceResult)
  | stale (course : Nat)
  | vmaxStep
  | tamperRaised (seen : TamperSeen) (mainPower : Bool) (time : BitVec 64)
  -- resets and boot (R467 to R482)
  | powerOnReset
  | porN (low : Bool)
  | wrstN (low : Bool)
  | deviceWatchdog
  | pcieHotReset
  | bootPhase (ev : BootEvent)
  | ready
  | wake (sources : Byte) (n : Nat)
  | stepEffectsComplete (j : Word) (err : BitVec 16) (data : List Word)
  | standbyReady
  | restartAloneDone
  | plannedSwitchTimeout
  | audioPllLock
  | startBit (u : Nat)
  | receiverReturnsToIdle (u : Nat)
  | lineIdleTenBitTimes (u : Nat)
  | uartCharacterSent (u : Nat)
  | dacShortEnd (d : Nat)
  | tamperSourceInactive (source : Nat)
  | listenerReadyWithdrawn (t : Nat)
  | acmpGetState (t : Nat)
  | adpDiscover
  | announce (dom : Nat) (vec : List Word)
  | followUp (dom : Nat) (origin : BitVec 64)
  | pdelayRespFollowUp (dom : Nat) (delay : Word)
  | signaling (dom : Nat) (interval : Byte)
  | peerDelayInterval (dom : Nat)
deriving DecidableEq, Repr

end Sys2Proof
end

