-- ==== Sys2Proof/Decode.lean ====
section
/-! DEFINITION. Words of the opcode table (no row of spec/opcode_table.json gives its command bits, so no word spells one), and the
instruction words of a voice core (R213 to R217): which row of the table an instruction word stands for, and the words of a row. -/

namespace Sys2Proof

/-- The command that a word spells by the table's bits: none, since no row gives any. -/
def decodeTableWord (_nbits _w : Nat) : Option Instr := none

-- voice core words: fields (R213, R214) ------------------------------------------------------------------------------------

/-- Field of `n` bits from bit `lo` on of an instruction word. -/
def fieldOf (w : Word24) (lo n : Nat) : BitVec n := w.extractLsb' lo n

/-- The operation of a port field (R214). -/
def decodePortOp (b : BitVec 2) : PortOp :=
  if b = 0 then .none else if b = 1 then .load else if b = 2 then .store else .storeAcc

/-- The code of a port operation (R214). -/
def encodePortOp (o : PortOp) : BitVec 2 :=
  match o with
  | .none => 0
  | .load => 1
  | .store => 2
  | .storeAcc => 3

/-- The two ports of an instruction word: X in bits [13:7], Y in bits [6:0] (R214). -/
def decodePorts (w : Word24) : Ports :=
  { x := { op := decodePortOp (fieldOf w 12 2), reg := fieldOf w 9 3, ptr := fieldOf w 7 2 },
    y := { op := decodePortOp (fieldOf w 5 2), reg := fieldOf w 2 3, ptr := fieldOf w 0 2 } }

/-- A port field of 7 bits (R214). -/
def encodePort (p : Port) : BitVec 7 := encodePortOp p.op ++ p.reg ++ p.ptr

/-- The two port fields, bits [13:0] (R214). -/
def encodePorts (pt : Ports) : BitVec 14 := encodePort pt.x ++ encodePort pt.y

/-- The source bit [14] of an arithmetic word (R216). -/
def decodeSrc (b : BitVec 1) : ArithSrc := if b = 0 then .pairW else .u0

/-- The source bit of an arithmetic operand (R216). -/
def encodeSrc (x : ArithSrc) : BitVec 1 := match x with | .pairW => 0 | .u0 => 1

/-- A bit as a flag. -/
def flagOf (b : BitVec 1) : Bool := b = 1

/-- A flag as a bit. -/
def bitOf (b : Bool) : BitVec 1 := if b then 1 else 0

-- voice core words: classes (R213, R215, R216) ---------------------------------------------------------------------------------

/-- Class 0b001, arithmetic: op in [20:17], Wd in [16:15], source in [14]; op 15 is not allowed (R216). -/
def decodeArith (k : Nat) (w : Word24) : Instr :=
  let wd := fieldOf w 15 2
  let src := decodeSrc (fieldOf w 14 1)
  let pt := decodePorts w
  match (fieldOf w 17 4).toNat with
  | 0 => .hold k pt
  | 1 => .add k wd src pt
  | 2 => .sub k wd src pt
  | 3 => .cmp k wd src pt
  | 4 => .neg k wd src pt
  | 5 => .abs k wd src pt
  | 6 => .clr k wd src pt
  | 7 => .copy k wd src pt
  | 8 => .andW k wd src pt
  | 9 => .orW k wd src pt
  | 10 => .xorW k wd src pt
  | 11 => .shl1 k wd src pt
  | 12 => .shr1 k wd src pt
  | 13 => .rndf k wd src pt
  | 14 => .satf k wd src pt
  | _ => .reservedEncoding k

/-- Class 0b010, single multiply: Z = 1 is MUL (R215, R216). -/
def decodeMul (k : Nat) (w : Word24) : Instr :=
  let wd := fieldOf w 19 2
  let sign := flagOf (fieldOf w 18 1)
  let ui := fieldOf w 16 1
  let vj := fieldOf w 14 2
  if flagOf (fieldOf w 17 1) then .mul k wd sign ui vj (decodePorts w) else .mac k wd sign ui vj (decodePorts w)

/-- Class 0b011, quad multiply: form 3, and Ui or quad of XMAC other than 0, are not allowed (R215). -/
def decodeQuad (k : Nat) (w : Word24) : Instr :=
  let sign := flagOf (fieldOf w 18 1)
  let z := flagOf (fieldOf w 17 1)
  let ui := fieldOf w 15 2
  let quad := fieldOf w 14 1
  match (fieldOf w 19 2).toNat with
  | 0 => .qmac k sign z ui quad (decodePorts w)
  | 1 => .qmacx k sign z ui quad (decodePorts w)
  | 2 => if ui = 0 ∧ quad = 0 then .xmac k sign z (decodePorts w) else .reservedEncoding k
  | _ => .reservedEncoding k

/-- Class 0b100, search and extended: i of ADDC and SUBC must be 0 (R216). -/
def decodeSearch (k : Nat) (w : Word24) : Instr :=
  let wd := fieldOf w 16 2
  let i := fieldOf w 14 2
  let pt := decodePorts w
  match (fieldOf w 18 3).toNat with
  | 0 => .min k wd i pt
  | 1 => .max k wd i pt
  | 2 => .minuw k wd i pt
  | 3 => .maxuw k wd i pt
  | 4 => if i = 0 then .addc k wd pt else .reservedEncoding k
  | 5 => if i = 0 then .subc k wd pt else .reservedEncoding k
  | 6 => .mulsu k wd i pt
  | _ => .muluu k wd i pt

/-- Class 0b101, transfer: the form in [6:5], [4:0] at 0; `x` is the extension word (R213). -/
def decodeTransfer (k : Nat) (w x : Word24) : Instr :=
  let dst := fieldOf w 14 7
  if fieldOf w 0 5 = 0 then
    match (fieldOf w 5 2).toNat with
    | 0 => .move k dst (fieldOf w 7 7)
    | 1 => .ldk k dst x
    | 2 =>
      .movm k dst (flagOf (fieldOf w 13 1)) (flagOf (fieldOf w 12 1))
        (if flagOf (fieldOf w 11 1) then .indexed (fieldOf w 8 3) (fieldOf x 0 16) else .absolute (fieldOf x 0 16))
    | _ => .reservedEncoding k
  else .reservedEncoding k

/-- Class 0b110, flow (R216). -/
def decodeFlow (k : Nat) (w : Word24) : Instr :=
  match (fieldOf w 16 5).toNat with
  | 0 => .nop k
  | 1 => .endTask k
  | 2 => .fwait k
  | 3 => .jmp k (fieldOf w 0 13)
  | 4 => .call k (fieldOf w 0 13)
  | 5 => .ret k
  | 6 => .brCc k (fieldOf w 12 4) (fieldOf w 0 12)
  | 7 => .loop k (fieldOf w 8 8) (fieldOf w 0 8)
  | 8 => .loopv k (fieldOf w 8 2) (fieldOf w 0 8)
  | 9 => .leave k
  | 10 => .rpt k (fieldOf w 0 7)
  | _ => .reservedEncoding k

/-- Class 0b000, address and shift (R216). -/
def decodeAddress (k : Nat) (w : Word24) : Instr :=
  match (fieldOf w 16 5).toNat with
  | 0 => .fetch k (flagOf (fieldOf w 15 1)) (fieldOf w 12 3) (fieldOf w 10 2) (fieldOf w 0 6)
  | 1 => .padd k (fieldOf w 12 3) (fieldOf w 0 12)
  | 2 => .sra k (fieldOf w 14 2) (fieldOf w 0 6)
  | 3 => .sla k (fieldOf w 14 2) (fieldOf w 0 6)
  | 4 => .srl k (fieldOf w 14 2) (fieldOf w 0 6)
  | 5 => .cls k (fieldOf w 14 2)
  | 6 => .dstep k (fieldOf w 14 2) (fieldOf w 10 2)
  | 7 => .clrcnt k
  | _ => .reservedEncoding k

/-- The row that an instruction word of voice core `k` stands for, `x` being the word after it (R213). -/
def decodeCore (k : Nat) (w x : Word24) : Instr :=
  match (fieldOf w 21 3).toNat with
  | 0 => decodeAddress k w
  | 1 => decodeArith k w
  | 2 => decodeMul k w
  | 3 => decodeQuad k w
  | 4 => decodeSearch k w
  | 5 => decodeTransfer k w x
  | 6 => decodeFlow k w
  | _ => .reservedEncoding k

-- voice core words: the encoder (R213 to R217) ----------------------------------------------------------------------------------

/-- An arithmetic word (R213, R216). -/
def arithWord (op : BitVec 4) (wd : BitVec 2) (src : ArithSrc) (pt : Ports) : Word24 :=
  (1 : BitVec 3) ++ op ++ wd ++ encodeSrc src ++ encodePorts pt

/-- A single-multiply word (R213, R215). -/
def mulWord (wd : BitVec 2) (sign z : Bool) (ui : BitVec 1) (vj : BitVec 2) (pt : Ports) : Word24 :=
  (2 : BitVec 3) ++ wd ++ bitOf sign ++ bitOf z ++ ui ++ vj ++ encodePorts pt

/-- A quad-multiply word (R213, R215). -/
def quadWord (form : BitVec 2) (sign z : Bool) (ui : BitVec 2) (quad : BitVec 1) (pt : Ports) : Word24 :=
  (3 : BitVec 3) ++ form ++ bitOf sign ++ bitOf z ++ ui ++ quad ++ encodePorts pt

/-- A search or extended word (R213, R216). -/
def searchWord (sub : BitVec 3) (wd i : BitVec 2) (pt : Ports) : Word24 := (4 : BitVec 3) ++ sub ++ wd ++ i ++ encodePorts pt

/-- A transfer word: MOVE, and the first word of LDK and MOVM (R213). -/
def transferWord (dst mid : BitVec 7) (form : BitVec 2) : Word24 := (5 : BitVec 3) ++ dst ++ mid ++ form ++ (0 : BitVec 5)

/-- A flow word (R213, R216). -/
def flowWord (sub : BitVec 5) (operand : BitVec 16) : Word24 := (6 : BitVec 3) ++ sub ++ operand

/-- An address or shift word (R213, R216). -/
def addressWord (sub : BitVec 5) (operand : BitVec 16) : Word24 := (0 : BitVec 3) ++ sub ++ operand

/-- The words of a voice core instruction: the word, and the extension word when it has one; bits that the formats give no meaning
are 0 (R213 to R217). No other row is an instruction word. -/
def encodeCore (i : Instr) : Option (Word24 × Option Word24) :=
  match i with
  | .hold _ pt => some (arithWord 0 0 .pairW pt, none)
  | .add _ wd src pt => some (arithWord 1 wd src pt, none)
  | .sub _ wd src pt => some (arithWord 2 wd src pt, none)
  | .cmp _ wd src pt => some (arithWord 3 wd src pt, none)
  | .neg _ wd src pt => some (arithWord 4 wd src pt, none)
  | .abs _ wd src pt => some (arithWord 5 wd src pt, none)
  | .clr _ wd src pt => some (arithWord 6 wd src pt, none)
  | .copy _ wd src pt => some (arithWord 7 wd src pt, none)
  | .andW _ wd src pt => some (arithWord 8 wd src pt, none)
  | .orW _ wd src pt => some (arithWord 9 wd src pt, none)
  | .xorW _ wd src pt => some (arithWord 10 wd src pt, none)
  | .shl1 _ wd src pt => some (arithWord 11 wd src pt, none)
  | .shr1 _ wd src pt => some (arithWord 12 wd src pt, none)
  | .rndf _ wd src pt => some (arithWord 13 wd src pt, none)
  | .satf _ wd src pt => some (arithWord 14 wd src pt, none)
  | .mac _ wd sign ui vj pt => some (mulWord wd sign false ui vj pt, none)
  | .mul _ wd sign ui vj pt => some (mulWord wd sign true ui vj pt, none)
  | .qmac _ sign z ui quad pt => some (quadWord 0 sign z ui quad pt, none)
  | .qmacx _ sign z ui quad pt => some (quadWord 1 sign z ui quad pt, none)
  | .xmac _ sign z pt => some (quadWord 2 sign z 0 0 pt, none)
  | .min _ wd ui pt => some (searchWord 0 wd ui pt, none)
  | .max _ wd ui pt => some (searchWord 1 wd ui pt, none)
  | .minuw _ wd ui pt => some (searchWord 2 wd ui pt, none)
  | .maxuw _ wd ui pt => some (searchWord 3 wd ui pt, none)
  | .addc _ wd pt => some (searchWord 4 wd 0 pt, none)
  | .subc _ wd pt => some (searchWord 5 wd 0 pt, none)
  | .mulsu _ wd ui pt => some (searchWord 6 wd ui pt, none)
  | .muluu _ wd ui pt => some (searchWord 7 wd ui pt, none)
  | .move _ dst src => some (transferWord dst src 0, none)
  | .ldk _ dst c => some (transferWord dst 0 1, some c)
  | .movm _ reg store y (.absolute a) => some (transferWord reg (bitOf store ++ bitOf y ++ (0 : BitVec 5)) 2, some ((0 : BitVec 8) ++ a))
  | .movm _ reg store y (.indexed p d) =>
    some (transferWord reg (bitOf store ++ bitOf y ++ (1 : BitVec 1) ++ p ++ (0 : BitVec 1)) 2, some ((0 : BitVec 8) ++ d))
  | .nop _ => some (flowWord 0 0, none)
  | .endTask _ => some (flowWord 1 0, none)
  | .fwait _ => some (flowWord 2 0, none)
  | .jmp _ target => some (flowWord 3 ((0 : BitVec 3) ++ target), none)
  | .call _ target => some (flowWord 4 ((0 : BitVec 3) ++ target), none)
  | .ret _ => some (flowWord 5 0, none)
  | .brCc _ cond off => some (flowWord 6 (cond ++ off), none)
  | .loop _ count body => some (flowWord 7 (count ++ body), none)
  | .loopv _ ui body => some (flowWord 8 ((0 : BitVec 6) ++ ui ++ body), none)
  | .leave _ => some (flowWord 9 0, none)
  | .rpt _ n => some (flowWord 10 ((0 : BitVec 9) ++ n), none)
  | .fetch _ y ptr ui words => some (addressWord 0 (bitOf y ++ ptr ++ ui ++ (0 : BitVec 4) ++ words), none)
  | .padd _ ptr imm => some (addressWord 1 ((0 : BitVec 1) ++ ptr ++ imm), none)
  | .sra _ wd sh => some (addressWord 2 (wd ++ (0 : BitVec 8) ++ sh), none)
  | .sla _ wd sh => some (addressWord 3 (wd ++ (0 : BitVec 8) ++ sh), none)
  | .srl _ wd sh => some (addressWord 4 (wd ++ (0 : BitVec 8) ++ sh), none)
  | .cls _ wd => some (addressWord 5 (wd ++ (0 : BitVec 14)), none)
  | .dstep _ wd ui => some (addressWord 6 (wd ++ (0 : BitVec 2) ++ ui ++ (0 : BitVec 10)), none)
  | .clrcnt _ => some (addressWord 7 0, none)
  | _ => none

/-- The core that a voice core row names. -/
def Instr.coreOf (i : Instr) : Nat :=
  match i with
  | .hold k _ | .add k _ _ _ | .sub k _ _ _ | .cmp k _ _ _ | .neg k _ _ _ | .abs k _ _ _ | .clr k _ _ _ | .copy k _ _ _
  | .andW k _ _ _ | .orW k _ _ _ | .xorW k _ _ _ | .shl1 k _ _ _ | .shr1 k _ _ _ | .rndf k _ _ _ | .satf k _ _ _
  | .mac k _ _ _ _ _ | .mul k _ _ _ _ _ | .qmac k _ _ _ _ _ | .qmacx k _ _ _ _ _ | .xmac k _ _ _
  | .min k _ _ _ | .max k _ _ _ | .minuw k _ _ _ | .maxuw k _ _ _ | .addc k _ _ | .subc k _ _ | .mulsu k _ _ _ | .muluu k _ _ _
  | .move k _ _ | .ldk k _ _ | .movm k _ _ _ _ | .nop k | .endTask k | .fwait k | .jmp k _ | .call k _ | .ret k | .brCc k _ _
  | .loop k _ _ | .loopv k _ _ | .leave k | .rpt k _ | .fetch k _ _ _ _ | .padd k _ _ | .sra k _ _ | .sla k _ _ | .srl k _ _
  | .cls k _ | .dstep k _ _ | .clrcnt k => k
  | _ => 0

end Sys2Proof
end

