-- ==== Sys2Proof/Config.lean ====
section
/-! DEFINITION. What an implementation fixes and what the spec leaves open: opaque constants without a body. A claim
holds whatever they are. Each is named in the assumption log. -/

namespace Sys2Proof.Config

/-- One endpoint of an effect program's descriptor table (R185, R186): type, class, range, reset value, smoothing time in us. -/
structure EffectParam where
  typ : Nat
  cls : Nat
  lo : BitVec 32
  hi : BitVec 32
  reset : BitVec 32
  smooth : Nat
deriving DecidableEq, Repr

/-- The effect task that a slot's endpoints describe: its Bay, entry address, declared cost, input and output bus pairs (R110, R239). -/
structure EffectDef where
  bay : Nat
  entry : BitVec 13
  cost : BitVec 16
  ins : List Nat
  outs : List Nat
deriving DecidableEq, Repr

/-- Endpoint 0x40 and up of an effect slot, by the descriptor table of the effect program in the slot (R185; the table is not in the
spec, log entry 22). -/
opaque effectParam : Nat → Nat → Option EffectParam

/-- The effect that the 192 endpoints of a slot describe, none when they describe none (R185; log entry 22). -/
opaque effectDef : Nat → List (BitVec 32) → Option EffectDef

/-- The `n`-th free value of 24 bits (log entry 10). -/
opaque free24 : Nat → BitVec 24

/-- The `n`-th free value of 32 bits (log entry 10). -/
opaque free32 : Nat → BitVec 32

/-- The `n`-th free value of 56 bits (log entry 10). -/
opaque free56 : Nat → BitVec 56

/-- Whether a value whose rounding the spec does not state is rounded up: number of the formula, numerator, denominator (log entry
125). -/
opaque roundsUp : Nat → Int → Nat → Bool

/-- What the rounding of the four interpolation coefficients does to the result: the samples and the fraction (R141; log entry 125). -/
opaque hermiteSlack : BitVec 24 → BitVec 24 → BitVec 24 → BitVec 24 → BitVec 16 → Nat

/-- Whether a level crossfade ends, and not begins, with one level alone (R142; log entry 125). -/
opaque fadeEndsAlone : Bool

/-- An increment of 2^47 or more (R140 forbids it and does not say what a pitch that asks for it gives; log entry 125). -/
opaque overIncrement : Int → BitVec 48

/-- Step residual of hard sync: jump, table index u[15:10], sample 0 to 3 (R146); the table is not given. -/
opaque stepResidual : BitVec 24 → BitVec 6 → Nat → BitVec 24

/-- Compensator tap `k` of a preset at an oversampling ratio (R150); the taps are not given. -/
opaque tap : BitVec 2 → Nat → Nat → BitVec 24

/-- Word `i` of standard bank `b` at a base-rate code (R194); the responses have no stated coefficients. -/
opaque standardBank : Nat → Nat → Nat → BitVec 32

/-- Tap `i` of the interpolator of an AUDIO channel at a base rate, 23 fraction bits, up to its middle (R384: the taps are not given). -/
opaque dacTap : BitVec 3 → Nat → Int

/-- Tap `i` of the response of the PDM decimator, its fourth-order CIC and FIR together, in PDM clocks, 46 fraction bits, at a base rate (R361: the
taps are not given). -/
opaque pdmTap : BitVec 3 → Nat → Int

/-- 802.1AS time of a domain in stamp ticks, from its offset and Device Time (R38: 128-bit intermediate) is computed by
the model; this is the Best Master comparison of two priority vectors (R41: as the standard specifies). -/
opaque betterMaster : List (BitVec 32) → List (BitVec 32) → Bool

/-- What follows priority1 in the device's own priority vector (R41: clock quality, priority2 and identity are not stated). -/
opaque clockIdentity : List (BitVec 32)

/-- New domain offset and rate from the servo, from the message's origin time, the Device Time taken, the peer delay
and the offset so far (R41, R45: the standard's servo is not given). -/
opaque servo : BitVec 64 → BitVec 64 → BitVec 32 → BitVec 64 → BitVec 64 × Int

/-- The descriptor an AECP READ_DESCRIPTOR returns, as words (R362: as the standard specifies). -/
opaque descriptor : Nat → Nat → List Nat

/-- The MAC address of a port (R363 names it; its value is not stated). -/
opaque mac : Nat → BitVec 48

/-- What a recalibration measures at a cell, in 1/64 LSB: index of the free value, channel, cell (R393, R449, R460). -/
opaque cellError : Nat → Nat → Nat → Int

/-- How a recalibration trims a cell: index of the free value, channel, cell, old trim; the new trim, and whether it is held at
its limit (R393, R460: no formula is stated). -/
opaque pegTrim : Nat → Nat → Nat → BitVec 8 → BitVec 8 × Bool

/-- Rate of the 25 MHz reference against itself is 0; the slow clock's period, in units of 10^-6 ns (R481). -/
opaque slowPeriod : Nat

/-- Bit of the accumulator at which DSTEP lines up bit 0 of the divisor (R216 leaves the alignment open; log entry 12). -/
opaque divAlign : Nat
/-- Program word `i` of the firmware kernel of core `k` (R14, R206: firmware, no word is stated; log entry 137). -/
opaque kernelProgram : Nat → Nat → BitVec 24
/-- Word `i` of the Y kernel area of core `k` as the Conductor writes it at start-up (R14, R206: firmware; log entry 137). -/
opaque kernelData : Nat → Nat → BitVec 24
/-- Address of the kernel's Kerf code, in program words 0x0000 to 0x00FF (R206, R232: firmware, no address is stated). -/
opaque kerfEntry : BitVec 8
/-- Address of the lane test's code (R450: firmware, no address is stated). -/
opaque testEntry : BitVec 13

/-- Whether the life-cycle state, or KEYLOCK, locks an image load by its opcode (R238, R298: E_LOCKED is listed, its condition is not given). -/
opaque imageLocked : Nat → BitVec 2 → Bool → Bool

/-- What Device Identity Notification carries (R301: not given). -/
opaque deviceIdentity : List Nat

/-- A filter state beyond 48 bits (R166: what such a state holds is not stated). -/
opaque over48 : Int → BitVec 48

/-- Banks in which the service cores place a copy of an object: index of the free value, Bay, object (R331, R343: the device
places data within each user's banks by itself). The model keeps only banks that the rules permit. -/
opaque placement : Nat → Nat → Nat → List Nat

/-- Address that MAAP has allocated to talker stream `t`, counted from the start of the dynamic range (R362). -/
opaque maap : Nat → Nat

/-- Pseudo-random bit that the Vault drives on TAMP_OUT `k` in period `n` of the slow clock (R430). -/
opaque tampBit : Nat → Nat → Bool

/-- VOUT_COMMAND for a VOUT_MODE and a setpoint in mV (R454: in the format that VOUT_MODE gives, which is PMBus's). -/
opaque voutCode : BitVec 8 → Nat → BitVec 16

end Sys2Proof.Config
end

