-- ==== Sys2Proof/Machine/Reals.lean ====
section
/-! DEFINITION. Values that the spec gives by a formula over real numbers, computed with fixed-point numbers of 192 fraction bits,
and how they are rounded: as R149 states on the voice path, else to one of the two neighbours, which of them is left open (log entry
125). -/

namespace Sys2Proof.Machine

-- rounding ------------------------------------------------------------------------------------------------------------------------------

/-- A value that is no Q1.23 fraction saturates (R149): the fraction, and whether it saturated. -/
def satQ23 (x : Int) : Word24 × Bool :=
  if x < -(2 ^ 23) then (0x800000, true) else if 2 ^ 23 ≤ x then (0x7FFFFF, true) else (BitVec.ofInt 24 x, false)

/-- A quotient rounded as R149 states: half of the lowest kept bit is added, then the rest is dropped. -/
def nearest (num : Int) (den : Nat) : Int := (2 * num + den) / (2 * den)

/-- A quotient whose rounding is not stated: itself where it is whole, else one of its two neighbours (log entry 125). `site` numbers
the formula. -/
def faithful (site : Nat) (num : Int) (den : Nat) : Int :=
  num / den + (if num % den = 0 then 0 else if Config.roundsUp site num den then 1 else 0)

/-- A fixed-point number rounded as R149 states; within 2^-96 of a half it is taken as the half. -/
def nearFx (x : Int) : Int := (x + 2 ^ 191 + 2 ^ 96) / 2 ^ 192

/-- The whole part of a fixed-point number; within 2^-96 below a whole number it is taken as that number. -/
def floorFx (x : Int) : Int := (x + 2 ^ 96) / 2 ^ 192

/-- A fixed-point number rounded to one of its two neighbours (log entry 125); within 2^-96 of a whole number it is that number. -/
def faithfulFx (site : Nat) (x : Int) : Int :=
  floorFx x + (if (x + 2 ^ 96) % 2 ^ 192 ≤ 2 ^ 97 then 0 else if Config.roundsUp site x (2 ^ 192) then 1 else 0)

-- elementary functions, with 192 fraction bits ------------------------------------------------------------------------------------------

/-- Pi / 2. -/
def halfPiFx : Int := 9860048348863269281198066682114134445731725432595044866280

/-- The natural logarithm of 2. -/
def ln2Fx : Int := 4350955369971217654477563090224794165364344896676135745069

/-- The natural logarithm of 10. -/
def ln10Fx : Int := 14453560883108425870374435737727394665043423914827363902522

/-- A power series: each term is the one before it times `x`, divided by `d k`. -/
def powerSeries (x : Int) (d : Nat → Int) (first : Int) (terms : Nat) : Int :=
  ((List.range terms).foldl (fun (a : Int × Int) k => let t := a.1 * x / 2 ^ 192 / d k; (t, a.2 + t)) (first, first)).2

/-- Sine of an angle from 0 to pi / 2. -/
def sinFx (x : Int) : Int := powerSeries (-(x * x / 2 ^ 192)) (fun k => (2 * k + 2) * (2 * k + 3)) x 32

/-- Cosine of an angle from 0 to pi / 2. -/
def cosFx (x : Int) : Int := powerSeries (-(x * x / 2 ^ 192)) (fun k => (2 * k + 1) * (2 * k + 2)) (2 ^ 192) 32

/-- Sine of `num / den` turns. -/
def sinTurn (num : Int) (den : Nat) : Int :=
  let x := halfPiFx * (4 * num % den) / den
  match (4 * num / den % 4).toNat with
  | 0 => sinFx x
  | 1 => cosFx x
  | 2 => -sinFx x
  | _ => -cosFx x

/-- A number from 0 to ln 2 as an exponent of e. -/
def expSeries (x : Int) : Int := powerSeries x (fun k => k + 1) (2 ^ 192) 48

/-- A fixed-point number times 2^k. -/
def scale2 (x k : Int) : Int := if 0 ≤ k then x * 2 ^ k.toNat else x / 2 ^ (-k).toNat

/-- e to the power of a fixed-point number. -/
def expFx (x : Int) : Int := scale2 (expSeries (x % ln2Fx)) (x / ln2Fx)

/-- 2 to the power of `num / den`. -/
def exp2Fx (num : Int) (den : Nat) : Int := scale2 (expSeries (ln2Fx * (num % den) / den)) (num / den)

/-- Natural logarithm of `num / den`, both above 0. -/
def lnFx (num den : Nat) : Int :=
  let k : Int := (Nat.log2 num : Int) - Nat.log2 den
  let a : Int := num * 2 ^ (-k).toNat
  let b : Int := den * 2 ^ k.toNat
  let z := (a - b) * 2 ^ 192 / (a + b)
  let s := ((List.range 64).foldl (fun (p : Int × Int) j => (p.1 * z / 2 ^ 192 * z / 2 ^ 192, p.2 + p.1 / (2 * j + 1))) (z, 0)).2
  2 * s + k * ln2Fx

/-- The whole part of the square root of a number below 4^26. -/
def rootOf (x : Nat) : Nat := (List.range 26).foldl (fun r j => let y := r + 2 ^ (25 - j); if y * y ≤ x then y else r) 0

-- base rates (R13, R135) -----------------------------------------------------------------------------------------------------------------

/-- fosc of a base-rate code's family, Hz (R135). -/
def foscOf (fs : Nat) : Nat := if fs % 48000 = 0 then 768000 else 705600

-- oscillators (R139 to R146, R154, R170) ----------------------------------------------------------------------------------------------------

/-- Sine of a 48-bit phase as Q1.23 (R139, R149). -/
def sine (phase : BitVec 48) : Word24 := (satQ23 (nearFx (sinTurn phase.toNat (2 ^ 48) * 2 ^ 23))).1

/-- 4-point, third-order Hermite interpolation of four samples at a 16-bit fraction (R141). The coefficients are held to 24 bits, and
how each is rounded is not stated: the result lies within what four such roundings allow (log entry 125). -/
def hermite (a b c d : Word24) (f : BitVec 16) : Word24 :=
  let x : Int := f.toNat
  let one : Int := 65536
  let w0 := -(x ^ 3) + 2 * x ^ 2 * one - x * one ^ 2
  let w1 := 3 * x ^ 3 - 5 * x ^ 2 * one + 2 * one ^ 3
  let w2 := -3 * x ^ 3 + 4 * x ^ 2 * one + x * one ^ 2
  let w3 := x ^ 3 - x ^ 2 * one
  let y := (w0 * a.toInt + w1 * b.toInt + w2 * c.toInt + w3 * d.toInt) / (2 * one ^ 3)
  (satQ23 (y - 2 + (Config.hermiteSlack a b c d f % 6 : Nat))).1

/-- Crossfade of two wavetable levels at sample `n` of 16 (R142): linear, rounded as R149 states; at which end of the 16 samples one of
the two stands alone is not stated. -/
def levelFade (old new : Word24) (n : Nat) : Word24 :=
  (satQ23 (nearest (old.toInt * 16 + (new.toInt - old.toInt) * (n + (if Config.fadeEndsAlone then 1 else 0) : Nat)) 16)).1

/-- The depth that R144 allows a sine operator: form, MOD_DEPTH, carrier and modulator increments; and whether it was exceeded. With
increments for frequencies the bound is fc + beta x fm + 4 fm, at most 2^47; beta x fm is the peak deviation of FM. -/
def depthLimit (form : Nat) (d : Word24) (fc fm : Nat) : Word24 × Bool :=
  let room : Int := 2 ^ 47 - fc - 4 * fm
  let m : Int := d.toInt.natAbs
  let fits (x : Int) : Bool := if form = 1 then decide (x * 2 ^ 21 ≤ room) else decide (x * (2 * halfPiFx) * fm ≤ room * 2 ^ 23 * 2 ^ 192)
  let most : Int :=
    if room < 0 then 0
    else if form = 1 then room / 2 ^ 21
    else if fm = 0 then m
    else room * 2 ^ 23 * 2 ^ 192 / (2 * halfPiFx * fm)
  if fits m && decide (0 ≤ room) then (d, false)
  else
    let y := if m ≤ most then m else most
    (BitVec.ofInt 24 (if d.toInt < 0 then -y else y), true)

/-- Fraction u, 16 bits, at which a phase wraps within a sample (R146): phase before, increment. -/
def wrapFraction (phase : BitVec 48) (inc : Int) : BitVec 16 :=
  let left : Int := if 0 ≤ inc then 2 ^ 48 - phase.toNat else phase.toNat
  let u := faithful 1 (left * 65536) inc.natAbs
  if u < 65536 then BitVec.ofInt 16 u else 0xFFFF

/-- Phase travelled in `d` ticks, `step` of them an oscillator sample (R154). -/
def phaseBack (inc : BitVec 48) (d : Int) (step : Nat) : BitVec 48 := BitVec.ofInt 48 (faithful 2 (inc.toInt * d) step)

/-- Increment for a pitch of `num / den` semitones above 440 Hz (R170); it must be below 2^47 (R140). -/
def pitchIncrement (num : Int) (den fs : Nat) : BitVec 48 :=
  let x := nearFx (440 * 2 ^ 48 * exp2Fx num (12 * den) / foscOf fs)
  if x < 2 ^ 47 then BitVec.ofInt 48 x else Config.overIncrement x

/-- Increment of a sample reader for a pitch of `num / den` semitones above 440 Hz, a root note and a recorded rate (R170, rounded as
R149 states), within the range that the clamp of R143 leaves. -/
def readerIncrement (num : Int) (den root recorded fs : Nat) : BitVec 48 :=
  BitVec.ofInt 48 (min (2 ^ 47 - 1) (nearFx (2 ^ 16 * (recorded : Int) * exp2Fx (num - ((root : Int) - 69) * den) (12 * den) / foscOf fs)))

-- detectors (R117, R159, R160) ----------------------------------------------------------------------------------------------------------------

/-- The decay factor of the peak detector, held to 32 bits (R159): PEAK_DECAY in dB/s, base rate. -/
def decayFactor (decay fs : Nat) : Int := faithfulFx 10 (expFx (-(ln10Fx * decay) / (20 * fs)) * 2 ^ 32)

/-- One decay step of the peak detector (R159); how the product is rounded is not stated (log entry 125). -/
def peakDecay (factor : Int) (pk : Word24) : Word24 := BitVec.ofInt 24 (min (pk.toNat : Int) (faithful 11 (pk.toNat * factor) (2 ^ 32)))

/-- a of the envelope detector, held to 32 bits (R159): time constant in us, base rate. -/
def envFactor (tau fs : Nat) : Int := faithfulFx 12 ((2 ^ 192 - expFx (-(2 ^ 192 * 1000000) / (tau * fs))) * 2 ^ 32)

/-- One step of the envelope detector (R159): e moves toward |x| by a of the way; how the product is rounded is not stated (log entry
125). -/
def envStep (a : Int) (e x : Word24) : Word24 :=
  let y := (e.toNat : Int) + faithful 13 (a * ((x.toNat : Int) - e.toNat)) (2 ^ 32)
  BitVec.ofInt 24 (max (min (e.toNat : Int) x.toNat) (min y (max (e.toNat : Int) x.toNat)))

/-- RMS_LIN of a window from its sum of squares and its length (R160): the square root, rounded; full scale is the largest fraction. PEAK,
RMS_LIN and ENV keep 23 fraction bits, with 0x7FFFFF as full scale: the rule gives them 24 unsigned bits and no binary point (DESIGN CHOICE, log
entry 136). -/
def rmsLin (sum w : Nat) : Word24 := BitVec.ofNat 24 (Nat.min 0x7FFFFF ((rootOf (4 * sum / w) + 1) / 2))

/-- RMS_DB of a window in 1/256 dBFS (R160). -/
def rmsDb (sum w : Nat) : Int :=
  if sum = 0 then -32768 else max (-32768) (min 0 (floorFx (2560 * (lnFx sum (w * 2 ^ 46) * 2 ^ 192 / ln10Fx))))

/-- LEVEL of a steal key (R117): the detector level of a window in dBFS times the amplifier gain, 23 fraction bits. -/
def stealLevel (sum w : Nat) (gain : Int) : BitVec 8 :=
  if gain ≤ 0 then 0
  else
    let v256 := rmsDb sum w * 2 ^ 192 + 5120 * (lnFx gain.toNat (2 ^ 23) * 2 ^ 192 / ln10Fx)
    BitVec.ofInt 8 (max 0 (min 255 (nearFx (v256 / 128 + 255 * 2 ^ 192))))

-- Scarfs (R118) ---------------------------------------------------------------------------------------------------------------------------------

/-- The gain g(n) of a Scarf of N as a signed 24-bit fraction (R118, rounded as R149 states). -/
def scarfGain (N n : Nat) : Word24 :=
  (satQ23 (nearFx ((2 ^ 192 + sinTurn (2 * (n : Int) + N) (4 * N)) * 2 ^ 22))).1

-- parameters and pitch (R177, R180 to R182, R190) --------------------------------------------------------------------------------------------------

/-- Value inside a linear ramp (R190): start, end, sample, length. -/
def rampValue (a b : Word) (n len : Nat) : Word := BitVec.ofInt 32 (faithful 3 (a.toInt * len + (b.toInt - a.toInt) * n) len)

/-- Phase advance per stamp tick of a part LFO, of 2^32 (R177): rate in 1/65,536 semitone above 440 Hz, base rate. -/
def lfoIncrement (rate : Word) (fs : Nat) : Word := BitVec.ofInt 32 (faithfulFx 4 (440 * 2 ^ 28 * exp2Fx rate.toInt (12 * 65536) / fs))

/-- Phase advance per sample of a voice LFO, of 2^32 (R176). -/
def voiceLfoStep (rate : Word) (fs : Nat) : Nat := (faithfulFx 5 (440 * 2 ^ 32 * exp2Fx rate.toInt (12 * 65536) / fs)).toNat

/-- Shape value of an LFO as Q1.23 (R176, rounded as R149 states): shape code, 32-bit phase, random values r_j and r_(j+1). -/
def lfoShape (shape : Nat) (phase : Word) (r0 r1 : Word24) : Word24 :=
  let p : Int := phase.toNat
  (satQ23 <| match shape with
    | 0 => nearFx (sinTurn p (2 ^ 32) * 2 ^ 23)
    | 1 => if p < 2 ^ 31 then nearest (4 * p - 2 ^ 32) (2 ^ 9) else nearest (3 * 2 ^ 32 - 4 * p) (2 ^ 9)
    | 2 => nearest (2 * p - 2 ^ 32) (2 ^ 9)
    | 3 => nearest (2 ^ 32 - 2 * p) (2 ^ 9)
    | 4 => if p < 2 ^ 31 then 2 ^ 23 else -(2 ^ 23)
    | 5 => r0.toInt
    | _ => nearest (r0.toInt * 2 ^ 32 + (r1.toInt - r0.toInt) * p) (2 ^ 32)).1

/-- Delay and fade of a voice LFO (R176, rounded as R149 states): value, ticks since the stamp, VLFO_DELAY and VLFO_FADE in us, base
rate. -/
def lfoFade (y : Word24) (ticks delay fade fs : Nat) : Word24 :=
  let passed : Int := ticks * 1000000 - delay * (16 * fs)
  let full : Nat := fade * (16 * fs)
  if passed < 0 then 0 else if (full : Int) ≤ passed then y else (satQ23 (nearest (y.toInt * passed) full)).1

-- envelopes (R173) ------------------------------------------------------------------------------------------------------------------------------

/-- Ns of a segment (R173): TIME in us, TSCALE, base rate. -/
def segSamples (time : Nat) (tscale : Word) (fs : Nat) : Nat :=
  let t := (time : Int) * exp2Fx tscale.toInt (2 ^ 20)
  let u := max (100 * 2 ^ 192) (min (1000000000 * 2 ^ 192) t)
  Nat.max 1 (nearFx (u * fs / 1000000)).toNat

/-- The curve c of a segment at x = num / den (R173), with 192 fraction bits. -/
def curveFx (curve num den : Nat) : Int :=
  if den ≤ num then 2 ^ 192
  else if curve = 15 then 0
  else if curve = 7 then (num : Int) * 2 ^ 192 / den
  else
    let a : Int := (curve : Int) - 7
    (2 ^ 192 - expFx (-a * num * 2 ^ 192 / den)) * 2 ^ 192 / (2 ^ 192 - expFx (-a * 2 ^ 192))

/-- Level of an envelope segment past its origin, with 23 fraction bits (R173, rounded as R149 states): CURVE, TARGET, LSCALE, L0, and
x = num / den. -/
def envLevel (curve : Nat) (target : BitVec 23) (lscale : Word) (l0 : Int) (num den : Nat) : Int :=
  let goal : Int := target.toNat * lscale.toInt
  nearFx (l0 * 2 ^ 192 + (goal - l0 * 2 ^ 23) * curveFx curve num den / 2 ^ 23)

-- the voice chain (R167, R168, R178, R180) ------------------------------------------------------------------------------------------------------------

/-- Row position of a cutoff in units of 2^-64 row (R167): the cutoff in 2^-23 semitone above 440 Hz; 440 Hz stands 12 log2(22)
semitones above row 0. -/
def rowPos (fc : Int) : Nat := (max 0 (min (127 * 2 ^ 64) (fc * 2 ^ 41 + 987143925398526676907))).toNat

/-- Bilinear interpolation of four coefficients (R167, rounded as R149 states): fractions of row in 2^-64 and of column in 2^-23. -/
def bilinear (c00 c01 c10 c11 : Word24) (fr fc : Nat) : Word24 :=
  let top := c00.toInt * (2 ^ 23 - fc) + c01.toInt * fc
  let bottom := c10.toInt * (2 ^ 23 - fc) + c11.toInt * fc
  BitVec.ofInt 24 (nearest (top * (2 ^ 64 - fr) + bottom * fr) (2 ^ 87))

/-- cos((p + 1) x pi / 4) to 24 bits, p a signed 24-bit fraction (R168, rounded as R149 states). -/
def panCos (p : Word24) : Word24 := (satQ23 (nearFx (sinTurn (p.toInt + 3 * 2 ^ 23) (2 ^ 26) * 2 ^ 23))).1

/-- sin((p + 1) x pi / 4) to 24 bits (R168, rounded as R149 states). -/
def panSin (p : Word24) : Word24 := (satQ23 (nearFx (sinTurn (p.toInt + 2 ^ 23) (2 ^ 26) * 2 ^ 23))).1

/-- A 16-bit velocity divided by 65,535, as a source (R178, rounded as R149 states). -/
def velocitySource (v : BitVec 16) : Word24 := (satQ23 (nearest (v.toNat * 2 ^ 23) 65535)).1

/-- M of a destination, in its unit (R180, rounded as R149 states): terms DEPTH x source, and SPAN in the unit of which the sum is
made. -/
def routeSum (terms : List (BitVec 16 × Word24)) (span : Nat) : Word :=
  BitVec.ofInt 32 (nearest (terms.foldl (fun a t => a + t.1.toInt * t.2.toInt) 0 * span) (2 ^ 38))

/-- The amplifier gain with 23 fraction bits (R168): ENV0, LSCALE0, AMP_LEVEL, VEL_SENS, the start's velocity. -/
def ampGain (env : Int) (lscale amp sens : Word) (v : BitVec 16) : Int :=
  faithful 6 (env * lscale.toInt * amp.toInt * (65535 * 2 ^ 23 - 65535 * sens.toInt + sens.toInt * v.toNat)) (65535 * 2 ^ 69)

-- elsewhere ----------------------------------------------------------------------------------------------------------------------------------------

/-- A rate in kbit/s from tenths of a kbit/s (R375). -/
def kbitOf (tenths : Nat) : Nat := (faithful 7 tenths 10).toNat

/-- Cents of a bend range as 1/65,536 semitone (R307). -/
def centsOf (c : Nat) : Nat := (faithful 8 (c * 65536) 100).toNat

/-- A bus gain while its MUTE ramp runs (R352): GAIN and the factor with 23 fraction bits. -/
def mutedGain (gain factor : Word) : Int := faithful 9 (gain.toInt * factor.toInt) (2 ^ 23)

/-- Heat after one frame's decay (R126): half after the frames of 8 s, 48,000 or 44,100; its rounding is not stated (log entry 125). -/
def heatDecay (is48 : Bool) (heat : Nat) : Nat := (faithfulFx 14 (heat * exp2Fx (-1) (if is48 then 48000 else 44100))).toNat

end Sys2Proof.Machine
end

