-- ==== Sys2Proof/Machine/State.lean ====
section
/-! DEFINITION. The state of the block as plain data: every register, FIFO, buffer, counter, mode and pin the spec
gives it, the queue of waiting commands, and the machine right after reset. A sparse table's unlisted key holds the
record of default values below; a default is the reset value of the field. -/

namespace Sys2Proof.Machine

/-- Modes of a Bay (R21, coded as BAY_STATE.MODE, R270). -/
inductive Mode where
  | play | follow | render | mirror | service | load
deriving DecidableEq, Repr

/-- Voice states (R104). -/
inductive VState where
  | pending | preRoll | held | releasing | scarf | free
deriving DecidableEq, Repr

/-- Journal states (R86); NOT_SEEN is no entry. -/
inductive JState where
  | queued | step | done | rolledBack
deriving DecidableEq, Repr

/-- What a validated atomic command waits for (R75, R78, R83, R197). -/
inductive JobPhase where
  /-- the next device frame boundary -/
  | boundary
  /-- its stamp -/
  | timeline
  /-- the commit of the staged set -/
  | staged
  /-- a running swap Scarf -/
  | held
  /-- a boundary that meets R291 (COND.SWITCH) -/
  | planned
  /-- content to become resident (CONTENT.PIN, R350) -/
  | content
  /-- the copy into the old FRONT slots (COEF.LOAD, R329) -/
  | copy
deriving DecidableEq, Repr

/-- A configuration field that can hold a staged value (R80). -/
inductive FieldKey where
  /-- an endpoint by its 18-bit address -/
  | endpoint (addr : Nat)
  /-- a route by its destination code -/
  | route (dest : Nat)
  /-- field `n` of TIME.DOMAIN.SET -/
  | timeDom (n : Nat)
  /-- DSP_CFG.BACKPRESSURE -/
  | backpressure
  /-- HW_REGION_MODE.FAST -/
  | hwRegion
  /-- field `n` of the session with this ID and TAG -/
  | session (id tag n : Nat)
  /-- envelope `e` of template `t` -/
  | env (t e : Nat)
deriving DecidableEq, Repr

/-- What an item on the timeline does (R307, R311). -/
inductive Action where
  /-- a note start that has taken voice slot `slot` -/
  | start (slot : Nat)
  /-- a note event that retriggers voice `slot` to note `note` (R182); velocity `vel` -/
  | retrigger (slot note : Nat) (vel : BitVec 16)
  /-- a note event that only glides voice `slot` to `note` (R181) -/
  | glide (slot note : Nat) (vel : BitVec 16)
  /-- the start of voice `slot` pushes `note` on the note stack of a part in a MONO mode (R183); no item of its own (R311) -/
  | push (slot part note : Nat)
  /-- a note start that has not entered the Session Engine: part, note, velocity (R310, R313) -/
  | noteOn (part note : Nat) (vel : BitVec 16)
  /-- a Note Off for part and note -/
  | noteOff (part note : Nat)
  /-- an endpoint write -/
  | write (addr : Nat) (v : Word)
  /-- a per-note write to parameter `param` of the group of (part, note) -/
  | perNote (part note param : Nat) (v : Word)
  /-- Per-Note Management with S = 1 -/
  | pnReset (part note : Nat)
  /-- sustain pedal of a part -/
  | sustain (part : Nat) (down : Bool)
  /-- Control Change 120 -/
  | soundOff (part : Nat)
  /-- Control Change 123 -/
  | notesOff (part : Nat)
  /-- a stamped mailbox command, by journal index -/
  | cmd (j : Word)
deriving DecidableEq, Repr

/-- An item queued on the timeline (R309, R311). -/
structure TEvent where
  /-- stamp at which it acts -/
  stamp : Word := 0
  /-- stamp that fixes the frame in which it is released (the release key of a start, R154) -/
  key : Word := 0
  /-- Bay whose timeline it uses, 255 for the device -/
  bay : Nat := 0
  /-- order of entry (R309) -/
  order : Nat := 0
  /-- its session -/
  session : Option Nat := none
  /-- its session's late counter counts it already, or no session's does (R34, R155) -/
  counted : Bool := false
  /-- voice whose synchronising reset a Note Off in MONO_RETRIG armed when it entered (R158, R183) -/
  armed : Option Nat := none
  /-- what it does -/
  act : Action := .cmd 0
deriving DecidableEq, Repr

/-- What waits for a post that the Dispatcher keeps (R257). -/
inductive KeptWork where
  /-- a STREAM post: the request for an object that a start of the Bay missed (R127) -/
  | fetch (bay object : Nat)
  /-- a PLACE post: the heat that a start adds to its objects (R126) -/
  | heat (bay : Nat) (objects : List Nat)
deriving DecidableEq, Repr

/-- A gPTP event message that the device has sent (R41, R45). -/
inductive PtpSent where
  | pdelayReq | pdelayResp | sync
deriving DecidableEq, Repr

/-- Kinds of message the device sends at its ports (host signals, network answers, bus writes). -/
inductive MsgKind where
  | msi | bye | invitationAccepted | ping | endpointInfo | deviceIdentity | endpointName | productInstance
  | streamConfigNotify | functionBlock | retransmitRequest
  | aemResponse | acmpResponse | adpAdvertise
  | pdelayReq | pdelayResp | pdelayRespFollowUp | sync | followUp | announce | signaling | frameSent | frameDropped
  | vout | condIrq | coreReset | mdnsAdvertise | msrpTalker | msrpListener | mvrpJoin
deriving DecidableEq, Repr

/-- A network message that waits in an Ethernet receive buffer (R288); the operands are those of its command. -/
inductive NetMsg where
  | networkMidiPacket (sid : Nat) (umpSeq : BitVec 16) (ps : List Ump)
  | jrClock (sid : Nat) (c : BitVec 16)
  | invitation (port : Nat) (identity : BitVec 64) (auth : Bool)
  | bye (sid : Nat)
  | endpointDiscovery (sid : Nat)
  | streamConfigurationRequest (sid : Nat) (midi2 : Bool)
  | functionBlockDiscovery (sid : Nat)
  | announce (dom : Nat) (vec : List Word)
  | followUp (dom : Nat) (origin : BitVec 64)
  | pdelayRespFollowUp (dom : Nat) (delay : Word)
  | signaling (dom : Nat) (interval : Byte)
  | acmpConnect (t : Nat) (streamId : BitVec 64)
  | acmpDisconnect (t : Nat)
  | acmpGetState (t : Nat)
  | adpDiscover
  | entityAvailable (ctl : BitVec 64)
  | readDescriptor (ctl : BitVec 64) (type index : Nat)
  | acquireEntity (ctl : BitVec 64) (release : Bool)
  | lockEntity (ctl : BitVec 64) (unlock : Bool)
  | getStreamFormat (ctl : BitVec 64) (t : Nat)
  | setStreamFormat (ctl : BitVec 64) (t : Nat) (format : BitVec 64)
  | getStreamInfo (ctl : BitVec 64) (t : Nat)
  | getCounters (ctl : BitVec 64) (t : Nat)
deriving DecidableEq, Repr

/-- One message sent: its kind and its contents. -/
structure Msg where
  kind : MsgKind
  data : List Nat := []
deriving DecidableEq, Repr

/-- Faults: none of the rules of the spec leaves the block stopped by a fault in the model but the one below. -/
inductive Fault where
  /-- An access to a Host Window or Sound Store address outside the memory the spec lays out (R10, R321); raised by
  the memory access commands. Safe: the model stops where the spec gives the access no meaning. -/
  | noSuchAddress
deriving DecidableEq, Repr

/-- Refusals. -/
inductive Refusal where
  /-- An instruction whose arm has no meaning yet. Safe. -/
  | notModelled (mnemonic : String)
  /-- The command names a unit that the device does not have (a voice core above 63, a UART above 7, a quad-SPI transfer
  of more than 64 words, ...), so it is no command of this hardware; raised by the meanings through `Sys2Proof.Machine.withUnit`. Safe. -/
  | noSuchUnit
deriving DecidableEq, Repr

/-- One tracked gPTP domain (DOM0 is key 0, DOM2 is key 2). -/
structure Dom where
  /-- DOMn_LOCK: the domain is locked (R41 R52) -/
  locked : Bool := false
  /-- the domain has locked since reset (R366) -/
  everLocked : Bool := false
  /-- domain offset from Device Time, signed ns (R38 R53) -/
  offset : BitVec 64 := 0
  /-- media offset M, stamp ticks (R38 R53) -/
  media : BitVec 32 := 0
  /-- priority1; default 255 (R41 R56) -/
  priority1 : BitVec 8 := 255
  /-- rate of the domain against the reference, parts per 10^12 (R42) -/
  ratePpt : Int := 0
  /-- consecutive Sync intervals with the offset within 100 ns (R41) -/
  inBand : Nat := 0
  /-- Device Time taken for the last Sync used by the servo (R41 R46) -/
  lastSync : BitVec 64 := 0
  /-- a two-step Sync awaits its Follow_Up (R41) -/
  syncWait : Bool := false
  /-- a peer-delay exchange awaits its Pdelay_Resp_Follow_Up (R41 R46) -/
  pdelayWait : Bool := false
  /-- the exchange under way was discarded and is repeated at the next interval (R46) -/
  pdelayBad : Bool := false
  /-- measured peer delay, ns (R41) -/
  pdelay : BitVec 32 := 0
  /-- priority vector of the best master announced, empty when none (R41) -/
  best : List (BitVec 32) := []
  /-- Sync interval in force, as Signaling last requested it: log2 of seconds, two's complement (R41) -/
  msgInterval : BitVec 8 := 0xFD
  /-- event messages sent whose timestamp point has not come, oldest first (R41 R45) -/
  sent : List PtpSent := []
  /-- timestamp of the last Pdelay_Req sent, none before its timestamp point (R41 R45) -/
  reqAt : Option (BitVec 64) := none
  /-- timestamp of the Pdelay_Resp received (R41 R45) -/
  respAt : BitVec 64 := 0
  /-- Device Time at which the grandmaster sends its next Sync (R41) -/
  nextSync : BitVec 64 := 0
  /-- Device Time at which the port sends its next Announce and Signaling (R41) -/
  nextAnnounce : BitVec 64 := 0
  /-- the servo's running estimate of the offset, which the offset follows while the domain is locked, signed ns (R41 R44) -/
  estimate : BitVec 64 := 0
  /-- part of a nanosecond of the offset that a ramp has gathered, in units of 10^-12 ns (R42) -/
  offFrac : Int := 0
deriving DecidableEq, Repr

/-- Frames, stamps and the clock of record. -/
structure Time where
  /-- Device Time, ns (R28) -/
  deviceTime : BitVec 64 := 0
  /-- part of a nanosecond below Device Time, in units of 10^-12 ns (the model's own granularity) (R28) -/
  dtFrac : Nat := 0
  /-- clk since reset (R6 R262) -/
  clkCount : Nat := 0
  /-- Frame Count (R28) -/
  frameCount : BitVec 48 := 0
  /-- device Stamp32 at the last device frame tick (R28) -/
  stamp : BitVec 32 := 0
  /-- reach point of the device timeline (R32) -/
  reach : BitVec 32 := 0
  /-- Device Time at the last device frame tick (R28 R303) -/
  tickDt : BitVec 64 := 0
  /-- Device Time up to which the phase of a ramp is in the domain offsets (R42) -/
  phaseDt : BitVec 64 := 0
  /-- main-clock cycles since the last tick (R6 R28) -/
  clk : Nat := 0
  /-- the frame tick runs (R472 R25) -/
  ticking : Bool := false
  /-- the next tick is the first one, Frame Count 0 (R472) -/
  countHold : Bool := true
  /-- the next tick reads Stamp32 as it stands (first tick, restart) (R25 R482) -/
  stampHold : Bool := true
  /-- read buffer of TM_DTIME_HI (R30) -/
  bufDtHi : BitVec 32 := 0
  /-- read buffer of TM_FCOUNT_LO (R30) -/
  bufFcLo : BitVec 32 := 0
  /-- read buffer of TM_FCOUNT_HI (R30) -/
  bufFcHi : BitVec 32 := 0
  /-- read buffer of TM_STAMP (R30) -/
  bufStamp : BitVec 32 := 0
  /-- TM_CFG.DOM2_NUM (R51) -/
  dom2Num : BitVec 8 := 1
  /-- TM_CFG.DOM2_PORT (R51) -/
  dom2Port : BitVec 2 := 0
  /-- TM_CFG.DOM0_PORT (R51) -/
  dom0Port : BitVec 2 := 0
  /-- TM_CFG.AUTO_SWITCH (R51) -/
  autoSwitch : Bool := false
  /-- TM_CFG.COR (R51) -/
  cor : BitVec 2 := 0
  /-- TM_CFG.RATE (R51) -/
  rate : BitVec 3 := 1
  /-- the rate a running change of base rate will set (R25) -/
  newRate : BitVec 3 := 1
  /-- TM_STATUS.LAUNCH_DROP (R52) -/
  launchDrop : BitVec 8 := 0
  /-- TM_STATUS.LAUNCH_LATE (R52) -/
  launchLate : BitVec 8 := 0
  /-- TM_STATUS.TS_COLLIDE (R52) -/
  tsCollide : BitVec 8 := 0
  /-- TM_STATUS.HOLDOVER (R52) -/
  holdover : Bool := false
  /-- the source an automatic switch takes at the next boundary (R44) -/
  switchTo : Option (BitVec 2) := none
  /-- COR was written in TM_CFG and takes effect at the next boundary (R51 R78) -/
  corDue : Bool := false
  /-- TM_STATUS.SWITCHING (R52) -/
  switching : Bool := false
  /-- TM_STATUS.ACTIVE_COR (R52) -/
  activeCor : BitVec 2 := 0
  /-- the two tracked domains (R41) -/
  doms : Tab Dom := []
  /-- Ethernet 0 ingress PHY latency, ns (R56) -/
  phyIn0 : BitVec 16 := 0
  /-- Ethernet 0 egress PHY latency, ns (R56) -/
  phyOut0 : BitVec 16 := 0
  /-- Ethernet 1 ingress PHY latency, ns (R56) -/
  phyIn1 : BitVec 16 := 0
  /-- Ethernet 1 egress PHY latency, ns (R56) -/
  phyOut1 : BitVec 16 := 0
  /-- present rate of Device Time against the reference, parts per 10^12 (R40 R42) -/
  ratePpt : Int := 0
  /-- rate a ramp is moving to (R42) -/
  targetPpt : Int := 0
  /-- rate from which the running ramp started (R42 R43) -/
  rampFrom : Int := 0
  /-- device frames for which the ramp has run (R42) -/
  rampFrames : Nat := 0
  /-- the domain that unlocked last, 0 or 2: the one a listener without a locked domain uses (R366) -/
  lastUnlock : BitVec 2 := 0
  /-- Device Time of the last event message's timestamp point (R46) -/
  lastTs : Option (BitVec 64) := none
deriving DecidableEq, Repr

/-- A response entry (held, or about to be written). -/
structure Resp where
  /-- status code (R67) -/
  status : BitVec 16 := 0
  /-- sequence answered (R67) -/
  seq : BitVec 16 := 0
  /-- journal index (R67) -/
  jindex : BitVec 32 := 0
  /-- result words (R67) -/
  words : List (BitVec 32) := []
  /-- the command's final response (R64 R88) -/
  final : Bool := true
deriving DecidableEq, Repr

/-- One mailbox channel. -/
structure Chan where
  /-- HW_MBX_CMD_PI (R61) -/
  cmdPi : BitVec 11 := 0
  /-- HW_MBX_CMD_CI (R61) -/
  cmdCi : BitVec 11 := 0
  /-- HW_MBX_RSP_PI (R61) -/
  rspPi : BitVec 11 := 0
  /-- HW_MBX_RSP_CI (R61) -/
  rspCi : BitVec 11 := 0
  /-- EXPECT_SEQ (R64) -/
  expectSeq : BitVec 16 := 0
  /-- SEQ_FREE (R64) -/
  seqFree : Bool := true
  /-- RSP_FULL (R64) -/
  rspFull : Bool := false
  /-- DESYNC (R64) -/
  desync : Bool := false
  /-- responses held for lack of ring space (R64) -/
  held : List Resp := []
  /-- a channel reset is requested (R65) -/
  resetReq : Bool := false
  /-- the doorbell interrupt of the channel is raised (R62) -/
  doorbell : Bool := false
  /-- journal index of the channel's last journalled command (R73) -/
  lastJ : BitVec 32 := 0
deriving DecidableEq, Repr

/-- One journal entry. -/
structure JEntry where
  /-- journal index (R85) -/
  idx : BitVec 32 := 0
  /-- channel (R85) -/
  ch : Nat := 0
  /-- sequence (R85) -/
  seq : BitVec 16 := 0
  /-- opcode (R85) -/
  opcode : BitVec 12 := 0
  /-- target (R85) -/
  target : BitVec 8 := 0
  /-- STAGE flag (R85) -/
  stage : Bool := false
  /-- STAMPED flag (R85) -/
  stamped : Bool := false
  /-- QUIET flag (R85) -/
  quiet : Bool := false
  /-- journal state (R86) -/
  st : JState := .done
  /-- steps completed (R85) -/
  stepsDone : BitVec 8 := 0
  /-- steps n, 0 for an atomic command (R85) -/
  steps : BitVec 8 := 0
  /-- final status (R85) -/
  status : BitVec 16 := 0
  /-- Frame Count [31:0] of the last state change (R85) -/
  frame : BitVec 32 := 0
  /-- configuration epoch of the last state change (R85) -/
  epoch : BitVec 32 := 0
  /-- already answered ACCEPTED or STAGED (R88) -/
  answered : Bool := false
  /-- a final response is owed (R88) -/
  owed : Bool := false
  /-- its owed final response is written as F_FAILOVER (R88 R89) -/
  failover : Bool := false
  /-- a final step is recorded (R77) -/
  finalStep : Bool := false
  /-- result words of the outcome (R89) -/
  words : List (BitVec 32) := []
deriving DecidableEq, Repr

/-- A validated atomic command that waits for its boundary, stamp, commit or running Scarf. -/
structure Job where
  /-- journal index (R86) -/
  j : BitVec 32 := 0
  /-- opcode (R86) -/
  opcode : Nat := 0
  /-- the command entry (R66) -/
  e : Entry := {}
  /-- what it waits for (R86) -/
  phase : JobPhase := .boundary
  /-- stamp at which it acts, after the late policy (R31) -/
  stamp : BitVec 32 := 0
  /-- timeline: a Bay, or 255 for the device (R29) -/
  bay : Nat := 255
  /-- voice slot a waiting start has taken (R102) -/
  slot : Nat := 0
  /-- result words gathered so far (R67) -/
  words : List (BitVec 32) := []
deriving DecidableEq, Repr

/-- One staged field value. -/
structure Staged where
  /-- the field (R80) -/
  field : FieldKey := .backpressure
  /-- its staged value (R80) -/
  value : List (BitVec 32) := []
  /-- journal index of the command that staged it (R80) -/
  j : BitVec 32 := 0
  /-- the Bay whose field it is, or 255 (R83) -/
  bay : Nat := 255
  /-- smoothing time the command overrides, in ms (R190) -/
  ramp : Option Nat := none
deriving DecidableEq, Repr

/-- A running stepped command. -/
structure Stepped where
  /-- journal index (R76) -/
  j : BitVec 32 := 0
  /-- opcode (R76) -/
  opcode : Nat := 0
  /-- the command entry (R66) -/
  e : Entry := {}
  /-- steps (R76) -/
  n : Nat := 2
  /-- steps recorded (R77) -/
  done : Nat := 0
  /-- the first step that is final (R77) -/
  finalAt : Nat := 2
  /-- result words gathered so far (R76) -/
  words : List (BitVec 32) := []
  /-- what undoing needs (R77 R88) -/
  undo : List (BitVec 32) := []
  /-- status of a failing step, 0 while none failed (R77) -/
  stop : BitVec 16 := 0
deriving DecidableEq, Repr

/-- Mailboxes, journal, staged set and Conductors. -/
structure Mbx where
  /-- channels 0 to 15 (R57) -/
  chans : Tab Chan := []
  /-- HW_DB_RSP (R63) -/
  dbRsp : BitVec 17 := 0
  /-- HW_DB_RSP_EN (R63) -/
  dbRspEn : BitVec 17 := 0
  /-- HW_EPOCH (R65 R84) -/
  epoch : BitVec 32 := 1
  /-- HW_COND_STATUS.SWITCHES (R65) -/
  switches : BitVec 16 := 0
  /-- HW_COND_STATUS.STANDBY_READY (R65) -/
  standbyReady : Bool := false
  /-- HW_COND_STATUS.ACTIVE: false A, true B (R65 R11) -/
  activeB : Bool := false
  /-- channel served last, for the rotation (R72) -/
  lastServed : Nat := 15
  /-- held entries, newest first, at most 4,096 (R85) -/
  journal : List JEntry := []
  /-- next journal index (R85 R90) -/
  nextJ : BitVec 32 := 1
  /-- waiting atomic commands in journal order (R86) -/
  jobs : List Job := []
  /-- staged set, at most 1,024 values (R80) -/
  staged : List Staged := []
  /-- journal indices of the staging commands in the set (R80 R82) -/
  stagedCmds : List (BitVec 32) := []
  /-- running stepped commands, at most 8 (R76) -/
  running : List Stepped := []
  /-- no Conductor serves the mailboxes (a switch or a lone restart runs) (R287 R289) -/
  fenced : Bool := false
  /-- consecutive boundaries without a report to the watchdog (R287) -/
  missed : Nat := 0
  /-- the active Conductor passed its last self-check (R287) -/
  reported : Bool := true
  /-- frames since a Conductor last reported as active (R289 R469) -/
  silentFrames : Nat := 0
  /-- losses of control in the last 60 s: the Conductor (B true), Frame Count (R290) -/
  lost : List (Bool × BitVec 48) := []
  /-- a Conductor that gave up waits to take control back (R290) -/
  gaveUp : Bool := false
  /-- frames for which STANDBY_READY has been 1 (R290) -/
  readyFrames : Nat := 0
deriving DecidableEq, Repr

/-- Placement counters of a part. -/
structure PartCtr where
  /-- STARTS (R133) -/
  starts : BitVec 32 := 0
  /-- STEALS (R133) -/
  steals : BitVec 32 := 0
  /-- STOLEN (R133) -/
  stolen : BitVec 32 := 0
  /-- REFUSED (R133) -/
  refused : BitVec 32 := 0
  /-- DEFERRED (R133) -/
  deferred : BitVec 32 := 0
  /-- SHED (R133) -/
  shed : BitVec 32 := 0
  /-- CUT (R133) -/
  cut : BitVec 32 := 0
  /-- CONTENT_MISS (R133) -/
  contentMiss : BitVec 32 := 0
deriving DecidableEq, Repr

/-- One running envelope of a voice. -/
structure Env where
  /-- segment (R173) -/
  seg : Nat := 0
  /-- origin of the segment, stamp ticks (R173) -/
  origin : BitVec 32 := 0
  /-- length of the segment in samples; 0 while the segment has not started (R173) -/
  ns : Nat := 1
  /-- level at the origin, Q1.23 (R173) -/
  l0 : Int := 0
  /-- holding at sustain or after the last segment (R174) -/
  hold : Bool := false
  /-- the last segment has completed (R174) -/
  done : Bool := false
  /-- a release has acted on it since it last entered segment 0 (R174) -/
  rel : Bool := false
  /-- releases (true) and retriggers (false) of the voice that have not yet acted on it, with their stamps, oldest first (R173 R174 R182) -/
  pend : List (BitVec 32 × Bool) := []
deriving DecidableEq, Repr

/-- One oscillator of a voice. -/
structure Osc where
  /-- phase accumulator (R140) -/
  phase : BitVec 48 := 0
  /-- noise register (R145) -/
  lfsr : BitVec 64 := 0
  /-- output of the sample before, after its level (R144) -/
  out : BitVec 24 := 0
  /-- wavetable level in use, none before the first sample (R142) -/
  level : Option Nat := none
  /-- INC_START in force (R147) -/
  incStart : BitVec 48 := 0
  /-- INC_END in force (R147) -/
  incEnd : BitVec 48 := 0
  /-- LEVEL_START in force (R147) -/
  levStart : BitVec 24 := 0
  /-- LEVEL_END in force (R147) -/
  levEnd : BitVec 24 := 0
  /-- INC_END written by the task, in force one block later (R148) -/
  nextInc : BitVec 48 := 0
  /-- LEVEL_END written by the task, in force one block later (R148) -/
  nextLev : BitVec 24 := 0
  /-- running step residuals after hard syncs: jump, place in the table (u [15:10]), oscillator samples left (R146) -/
  steps : List (BitVec 24 × BitVec 6 × Nat) := []
  /-- TYPE, BUS, MOD_FORM, MOD_SRC and SYNC_SRC in force (R147) -/
  cfg : BitVec 32 := 0
  /-- the same as the task last wrote them, in force one block later (R148) -/
  nextCfg : BitVec 32 := 0
  /-- MOD_DEPTH in force (R147) -/
  depth : BitVec 24 := 0
  /-- MOD_DEPTH as the task last wrote it (R148) -/
  nextDepth : BitVec 24 := 0
  /-- the phase has once reached the loop start (R342) -/
  looped : Bool := false
deriving DecidableEq, Repr

/-- One decimation stream of a voice. -/
structure Stream where
  /-- oscillator bus sums of the block rendered last, 128 samples (R138 R149) -/
  block : List (BitVec 28) := []
  /-- CIC integrators (R149 R150) -/
  integ : List (BitVec 40) := []
  /-- CIC comb memories (R149 R150) -/
  combs : List (BitVec 40) := []
  /-- compensator history, newest first (R150) -/
  fir : List (BitVec 28) := []
  /-- bus sums in the pipeline alignment, newest first (R150) -/
  delay : List (BitVec 28) := []
  /-- peak detector (R159) -/
  peak : BitVec 24 := 0
  /-- peak hold count (R159) -/
  hold : Nat := 0
  /-- last 4,096 output samples, newest first, for the three RMS windows (R159) -/
  hist : List (BitVec 24) := []
  /-- envelope detector (R159) -/
  env : BitVec 24 := 0
  /-- decimated block of the coming frame (R149 R153) -/
  out : List (BitVec 24) := []
deriving DecidableEq, Repr

/-- What a fault's cut took from a voice. -/
structure CutUndo where
  /-- state (R281) -/
  st : VState := .free
  /-- it was to go to FREE (R281) -/
  toFree : Bool := false
  /-- it produced nothing more (R281) -/
  silent : Bool := false
  /-- end cause (R281) -/
  cause : Nat := 0
  /-- cuts counted (R281) -/
  cuts : Nat := 0
deriving DecidableEq, Repr

/-- What a voice played before a glide of the present frame. -/
structure WasNote where
  /-- stamp of the glide, up to which the rest held (R182) -/
  until_ : BitVec 32 := 0
  /-- note (R182) -/
  note : Nat := 0
  /-- override group (R184) -/
  group : Option Nat := none
  /-- note from which an earlier glide ran (R182) -/
  glideFrom : Nat := 0
  /-- stamp at which it began (R182) -/
  glideAt : BitVec 32 := 0
  /-- its length in us, 0 for none (R182) -/
  glideUs : Nat := 0
deriving DecidableEq, Repr

/-- One half of a stream buffer. -/
structure Half where
  /-- source index of its first word (R344) -/
  first : Int := 0
  /-- indexes below the loop start wrap in it (R342) -/
  low : Bool := false
  /-- it holds its 512 source samples (R344) -/
  filled : Bool := false
deriving DecidableEq, Repr

/-- The stream buffer of one sample reader. -/
structure StreamBuf where
  /-- runs of Sound Store words that it takes (R344) -/
  at_ : List (Nat × Nat) := []
  /-- its halves 0 and 1, once asked for (R344) -/
  halves : Tab Half := []
deriving DecidableEq, Repr

/-- One voice slot. -/
structure Voice where
  /-- generation (R102) -/
  gen : BitVec 16 := 0
  /-- state (R104) -/
  st : VState := .free
  /-- the slot is held (by a voice or by quarantine) (R102) -/
  inUse : Bool := false
  /-- device frames of quarantine left (R102) -/
  quarLeft : Nat := 0
  /-- goes to FREE at the next frame boundary (R105) -/
  toFree : Bool := false
  /-- cancelled or cut: produces nothing more (R105) -/
  silent : Bool := false
  /-- cancelled at a stamp inside the present frame: FREE at the boundary after it (R105 R106) -/
  cancelLater : Bool := false
  /-- what a cut of the present frame took from it (a yield makes the cut void) (R281) -/
  cutFrom : Option CutUndo := none
  /-- end cause code (R132) -/
  cause : Nat := 0
  /-- part (R129) -/
  part : Nat := 0
  /-- template (R129) -/
  template : Nat := 0
  /-- priority (R129) -/
  priority : Nat := 0
  /-- note number (R129) -/
  note : Nat := 0
  /-- velocity (R129) -/
  velocity : BitVec 16 := 0
  /-- Bay to which the start belongs (R99) -/
  bay : Nat := 0
  /-- session whose event started it (R312) -/
  session : Option Nat := none
  /-- started by VOICE.START (R312) -/
  byCommand : Bool := false
  /-- voice core, 255 for none (R132) -/
  core : Nat := 255
  /-- context slot (R206) -/
  ctx : Nat := 0
  /-- slot pair of its Course (R136) -/
  pair : Nat := 0
  /-- Frame Count at placement (R132) -/
  placedFrame : BitVec 48 := 0
  /-- LEVEL as the task last wrote it (R116) -/
  level : BitVec 8 := 0
  /-- HELD of the steal key as the task last wrote it (R116) -/
  keyHeld : Bool := true
  /-- age of the steal key as the task last wrote it, in frames (R116) -/
  keyAge : Nat := 0
  /-- cost charged, clk per frame (R107) -/
  cost : Nat := 0
  /-- charged the non-resident cost (R107) -/
  nonResident : Bool := false
  /-- program path it is charged for (R120 R234) -/
  path : Nat := 0
  /-- stamp s (R154) -/
  stamp : BitVec 32 := 0
  /-- reset point tr (R154) -/
  resetPoint : BitVec 32 := 0
  /-- onset (R155) -/
  onset : BitVec 32 := 0
  /-- its lead was too short (R155) -/
  shortLead : Bool := false
  /-- an unstamped VOICE.START (R129) -/
  unstamped : Bool := false
  /-- deferred (R113) -/
  deferred : Bool := false
  /-- ticks retried so far (R262) -/
  tries : Nat := 0
  /-- waits on the sample-data flag (R127) -/
  waitContent : Bool := false
  /-- victims taken for it (R115) -/
  victims : Nat := 0
  /-- released (R105) -/
  released : Bool := false
  /-- a release is recorded under sustain (R308) -/
  relRecorded : Bool := false
  /-- stamp at which its Scarf ends (R118) -/
  scarfEnd : BitVec 32 := 0
  /-- N of its Scarf (R118) -/
  scarfLen : Nat := 0
  /-- its Scarf is a GUARD Scarf (R433) -/
  guard : Bool := false
  /-- override group (R184) -/
  group : Option Nat := none
  /-- the template's envelope table at placement, 6 x 33 words (R175) -/
  envTable : List (BitVec 32) := []
  /-- envelopes 0 to 5 (R173) -/
  envs : List Env := []
  /-- per envelope, the segments it has left in the present frame, newest first (R173 R189) -/
  envsWas : List (List Env) := []
  /-- parameters marked placement, as read there: 8 OSC_CONTENT, 8 OSC_PHASE, VEL_SENS, 4 VLFO_DELAY, 4 VLFO_FADE (R188 R191) -/
  fixed : List (BitVec 32) := []
  /-- OSC_CFG 0 to 7 of the program path it is charged for (R120 R169) -/
  cfgs : List (BitVec 32) := []
  /-- voice LFOs 0 to 3 at the frame's first sample: whole cycles and phase, in units of 2^-36 cycle (R176) -/
  lfos : List Nat := []
  /-- Bridge stores of its present instance (bus, sample, value), once its task has computed them (R164 R169) -/
  mix : Option (List (Nat × Nat × BitVec 24)) := none
  /-- amplifier gain at the end of the frame its task last computed, 23 fraction bits (R117 R168) -/
  ampEnd : Int := 0
  /-- states s1 and s2 of two sections of filters 0 and 1 (R166) -/
  filt : List (BitVec 48 × BitVec 48) := []
  /-- per filter, the states of the outgoing set while a swap Scarf runs (R196) -/
  filtOld : List (Option (List (BitVec 48 × BitVec 48))) := []
  /-- detector values of the present frame: PEAK, RMS_LIN, ENV of stream A, then B (R159) -/
  detNow : List (BitVec 24) := []
  /-- detector values as the task last read them (R159 R178) -/
  det : List (BitVec 24) := []
  /-- sum of squares of the 5.3 ms window of the louder stream, for the present frame (R117 R159) -/
  loudSq : Nat := 0
  /-- M of the previous frame, one per destination 0x00 to 0x7F (R180) -/
  mPrev : List (BitVec 32) := []
  /-- note a glide started from (R182) -/
  glideFrom : Nat := 0
  /-- notes that a glide of the present frame replaced, oldest first (R182) -/
  notesWas : List WasNote := []
  /-- stamp at which the glide started (R182) -/
  glideAt : BitVec 32 := 0
  /-- GLIDE in force when the glide started, us (R182 R192) -/
  glideUs : Nat := 0
  /-- oscillators 0 to 7 (R139) -/
  oscs : List Osc := []
  /-- stream buffers, by oscillator (R344) -/
  bufs : Tab StreamBuf := []
  /-- synchronising resets to come: stamp of the retrigger, stamp of the reset (R158) -/
  resyncs : List (BitVec 32 × BitVec 32) := []
  /-- stamp until which its streams are suppressed after a synchronising reset (R158) -/
  quietTo : Option (BitVec 32) := none
  /-- core, context and pair it moves from, until the boundary of the move (R152 R153) -/
  moveFrom : Option (Nat × Nat × Nat) := none
  /-- stream of bus A (R136) -/
  strA : Stream := {}
  /-- stream of bus B (R136) -/
  strB : Stream := {}
  /-- order of acceptance (oldest first) (R105) -/
  start : BitVec 48 := 0
deriving DecidableEq, Repr

/-- One override group. -/
structure Group where
  /-- BINDING [31] (R184) -/
  bound : Bool := false
  /-- part (R184) -/
  part : Nat := 0
  /-- note (R184) -/
  note : Nat := 0
  /-- frames without a voice or a write (R184) -/
  idle : Nat := 0
deriving DecidableEq, Repr

/-- One coefficient set. -/
structure CoefSet where
  /-- holds a valid set (R195) -/
  valid : Bool := false
  /-- sections minus 1 (R193) -/
  sections : BitVec 1 := 0
  /-- entries (R193) -/
  words : List (BitVec 32) := []
deriving DecidableEq, Repr

/-- One coefficient bank. -/
structure CoefBank where
  /-- FRONT (R195) -/
  front : CoefSet := {}
  /-- BACK (R195) -/
  back : CoefSet := {}
  /-- FRONT lies in the second of the bank's two slots (R328 R329) -/
  frontHigh : Bool := false
  /-- the set a running swap Scarf fades out (R196) -/
  outgoing : CoefSet := {}
  /-- Scarf samples remaining (R196) -/
  scarfLeft : Nat := 0
  /-- N of the Scarf under way (R196) -/
  scarfLen : Nat := 0
  /-- the Scarf has reached its sample N within the present frame (R196) -/
  ended : Bool := false
  /-- journal index of the held swap (R197) -/
  held : Option (BitVec 32) := none
  /-- Scarf length of the held swap, units of 100 us (R197) -/
  heldLen : Nat := 0
  /-- requests superseded since reset (R204) -/
  superseded : BitVec 32 := 0
deriving DecidableEq, Repr

/-- A running smoothing ramp of an endpoint. -/
structure Ramp where
  /-- endpoint address (R190) -/
  addr : Nat := 0
  /-- timeline of its stamps: that of RENDER Bay n, or 255 for the device's (R29 R190) -/
  line : Nat := 255
  /-- value at its start (R190) -/
  fromV : BitVec 32 := 0
  /-- value written (R190) -/
  toV : BitVec 32 := 0
  /-- stamp at which it starts (R190) -/
  start : BitVec 32 := 0
  /-- length in samples (R190) -/
  len : Nat := 0
deriving DecidableEq, Repr

/-- An endpoint as it was before a write of the present frame. -/
structure Recent where
  /-- endpoint address (R189) -/
  addr : Nat := 0
  /-- timeline of its stamp: that of RENDER Bay n, or 255 for the device's (R29 R189) -/
  line : Nat := 255
  /-- stamp of the write (R189) -/
  stamp : BitVec 32 := 0
  /-- stored base value before it (R189) -/
  value : BitVec 32 := 0
  /-- ramp that ran before it (R190) -/
  ramp : Option Ramp := none
deriving DecidableEq, Repr

/-- The parameter space and what hangs on it. -/
structure Params where
  /-- stored base values; an endpoint not listed holds its reset value (R185) -/
  endpoints : Tab (BitVec 32) := []
  /-- envelope descriptors, key 8 x template + envelope, 33 words; reset contents not given (R171) -/
  envs : Tab (List (BitVec 32)) := []
  /-- part LFO anchors (ta, phi a), key 8 x part + LFO (R177) -/
  anchors : Tab (BitVec 32 × BitVec 32) := []
  /-- note stacks of parts, top first (R183) -/
  noteStacks : Tab (List Nat) := []
  /-- override groups 0 to 255 (R184) -/
  groups : Tab Group := []
  /-- running ramps (R190) -/
  ramps : List Ramp := []
  /-- endpoints changed in the present frame, as they were before, oldest first (R189) -/
  recent : List Recent := []
  /-- coefficient banks 0 to 63 (R194) -/
  banks : Tab CoefBank := []
  /-- PN_MISS of each part (R192) -/
  pnMiss : Tab (BitVec 32) := []
deriving DecidableEq, Repr

/-- A taken branch whose delay slots run. -/
structure Delay where
  /-- delay slots left (R226) -/
  left : Nat := 2
  /-- where flow goes after them (R226) -/
  target : BitVec 13 := 0
  /-- a CALL: the address after the second slot goes on the return stack (R209) -/
  call : Bool := false
  /-- the branch is taken; the slots of one that is not execute all the same (R217) -/
  taken : Bool := true
deriving DecidableEq, Repr

/-- One level of the loop stack. -/
structure LoopFrame where
  /-- first word of the body (R209) -/
  start : BitVec 13 := 0
  /-- last word of the body (R209) -/
  last : BitVec 13 := 0
  /-- iterations left (R209) -/
  count : BitVec 16 := 0
  /-- the body runs from the repeat cache (R225) -/
  cached : Bool := false
deriving DecidableEq, Repr

/-- The pointer registers as address generation sees them. -/
structure PtrView where
  /-- P0 to P7 (R226) -/
  p : Tab (BitVec 16) := []
  /-- N0 to N7 (R226) -/
  n : Tab (BitVec 16) := []
  /-- ST0 to ST7 (R226) -/
  st : Tab (BitVec 16) := []
  /-- EN0 to EN7 (R226) -/
  en : Tab (BitVec 16) := []
deriving DecidableEq, Repr

/-- One complete copy of a core's registers. -/
structure RegSet where
  /-- U0 to U3 (R209) -/
  u : Tab (BitVec 24) := []
  /-- V0 to V7 (R209) -/
  v : Tab (BitVec 24) := []
  /-- W0 to W3 (R209 R210) -/
  w : Tab (BitVec 56) := []
  /-- P0 to P7 (R209) -/
  p : Tab (BitVec 16) := []
  /-- N0 to N7, reset 1 at task entry (R212) (R209) -/
  n : Tab (BitVec 16) := []
  /-- ST0 to ST7 (R209) -/
  st : Tab (BitVec 16) := []
  /-- EN0 to EN7 (R209) -/
  en : Tab (BitVec 16) := []
  /-- IX0 to IX3 (R209) -/
  ix : Tab (BitVec 16) := []
  /-- ECNT (R209) -/
  ecnt : BitVec 16 := 0
  /-- CSR (SHD is read from the set in use) (R211) -/
  csr : BitVec 24 := 0x048000
  /-- PC (R209) -/
  pc : BitVec 13 := 0
  /-- loop stack, innermost first, 4 levels (R209) -/
  loops : List LoopFrame := []
  /-- return stack, newest first, 8 levels (R209) -/
  rets : List (BitVec 13) := []
  /-- the branch whose delay slots run (R226 R217) -/
  delay : Option Delay := none
  /-- repetitions the next instruction gets (R223) -/
  rpt : Option Nat := none
  /-- P, N, ST and EN as address generation still sees them (R226) -/
  agOld : Option PtrView := none
  /-- CSR as the next instruction still sees its PSH, OSH, SATO and TRN (R226) -/
  csrOld : Option (BitVec 24) := none
  /-- an FWAIT waits (R216 R231) -/
  waitFetch : Bool := false
  /-- local words just stored (Y?, address, old value) as the next load still sees them (R226) -/
  stOld : List (Bool × Nat × BitVec 24) := []
deriving DecidableEq, Repr

/-- One outstanding or waiting fetch. -/
structure Fetch where
  /-- Sound Store word address (R228) -/
  src : Nat := 0
  /-- words (R228) -/
  words : Nat := 0
  /-- destination space (R228) -/
  isY : Bool := false
  /-- destination address (R228) -/
  dst : BitVec 16 := 0
  /-- ring length of the destination pointer, 0 linear (R218) -/
  len : BitVec 16 := 0
  /-- ring start of the destination pointer (R218) -/
  ring : BitVec 16 := 0
  /-- waits for a free fetch slot (R228) -/
  waiting : Bool := false
  /-- issued in the shadow set (R230) -/
  shadow : Bool := false
deriving DecidableEq, Repr

/-- One task descriptor (voice or effect task) of a core. -/
structure Task where
  /-- KIND: 0 voice, 1 effect (R239) -/
  kind : BitVec 2 := 0
  /-- BAY (R239) -/
  bay : Nat := 0
  /-- RANK (R239) -/
  rank : BitVec 8 := 0
  /-- MASK (R239) -/
  mask : BitVec 8 := 0
  /-- FLAGS (R239) -/
  flags : BitVec 8 := 0
  /-- NEXT (R239) -/
  next : BitVec 8 := 0
  /-- ENTRY (R239) -/
  entry : BitVec 13 := 0
  /-- COST (R239) -/
  cost : BitVec 16 := 0
  /-- SLOT (R239) -/
  slot : BitVec 13 := 0
  /-- OBJ (R239) -/
  obj : BitVec 8 := 0
  /-- PART (R239) -/
  part : BitVec 8 := 0
  /-- IN0 to IN3 (R239) -/
  ins : BitVec 32 := 0
  /-- OUT0 to OUT7 (R239) -/
  outs : BitVec 64 := 0
  /-- SKIPS (R239) -/
  skips : BitVec 16 := 0
  /-- LASTRUN (R239) -/
  lastRun : BitVec 16 := 0
  /-- its present instance has run (R242) -/
  ran : Bool := false
  /-- its present instance is skipped (R244) -/
  skipped : Bool := false
  /-- its first instance is a later frame (R244) -/
  fresh : Bool := true
  /-- count of clk at which its tick or an input made it ready (R250 R262) -/
  raisedClk : Nat := 0
  /-- it waits for the primary set: no preemption serves it (R249 R250) -/
  passed : Bool := false
deriving DecidableEq, Repr

/-- One template's tables in a core's residency area. -/
structure Resident where
  /-- template (R236) -/
  template : Nat := 0
  /-- first X word (R236) -/
  addr : Nat := 0
  /-- table words (R236) -/
  words : Nat := 0
  /-- Frame Count of the boundary from which it is resident (R236) -/
  ready : BitVec 48 := 0
  /-- resident (R236) -/
  isReady : Bool := false
  /-- Frame Count at which the template last ran (R236) -/
  lastRun : BitVec 48 := 0
  /-- its tables are replaced: residency ends at the next frame boundary (R236) -/
  replaced : Bool := false
  /-- Frame Count of the boundary at which residency ends, once replaced (R236) -/
  lostAt : BitVec 48 := 0
deriving DecidableEq, Repr

/-- One voice core. -/
structure VCore where
  /-- primary set (R209) -/
  prim : RegSet := {}
  /-- shadow set (R209) -/
  shad : RegSet := {}
  /-- runs in the shadow set (CSR.SHD) (R211 R230) -/
  inShadow : Bool := false
  /-- X memory (R205) -/
  x : Mem 24 := []
  /-- Y memory (R205) -/
  y : Mem 24 := []
  /-- program memory (R205) -/
  prog : Mem 24 := []
  /-- tasks by context slot (R239 R251) -/
  tasks : Tab Task := []
  /-- context slot of the task in the primary set (R248) -/
  current : Option Nat := none
  /-- context slot of the task in the shadow set (R230) -/
  shCurrent : Option Nat := none
  /-- preemptions made in the frame (R249) -/
  preempts : Nat := 0
  /-- a preemption request is held (R230) -/
  preemptReq : Bool := false
  /-- fetches, oldest first, at most 4 outstanding (R228) -/
  fetches : List Fetch := []
  /-- Bridge stores held for the primary task (bus, sample, value) (R229) -/
  staging : List (Nat × Nat × BitVec 24) := []
  /-- Bridge stores held for the shadow task (R229) -/
  shStaging : List (Nat × Nat × BitVec 24) := []
  /-- residency area (R236) -/
  resid : List Resident := []
  /-- marked for retirement (R122) -/
  retire : Bool := false
  /-- retired (R122) -/
  retired : Bool := false
  /-- retired by failure, until reset (R285) -/
  failed : Bool := false
  /-- the ledger retires it at the next device frame boundary (R458) -/
  retireDue : Bool := false
  /-- retirement cause of the ledger (R464) -/
  retireCause : Nat := 0
  /-- single-bit errors corrected (R233) -/
  corrected : BitVec 32 := 0
  /-- words of free context slots struck by a double-bit error (Y?, address), until the kernel rewrites them (R233) -/
  struck : List (Bool × Nat) := []
deriving DecidableEq, Repr

/-- Work registers of a service core (0 to 3) or Conductor (4 A, 5 B). -/
structure ServiceCore where
  /-- DSP_TASK0 to DSP_TASK3; empty reads 0 (R260) -/
  task : List (BitVec 32) := []
  /-- DSP_POST0 to DSP_POST3; empty reads 0 (R260) -/
  post : List (BitVec 32) := []
  /-- DSP_ASKMASK (R260) -/
  mask : BitVec 4 := 0xF
  /-- its DSP_ASK read is blocked (R253) -/
  waiting : Bool := false
  /-- clk it has waited (R262) -/
  waited : Nat := 0
  /-- DSP_ASK: queue of the entry given (R260) -/
  lastAsk : BitVec 3 := 0
  /-- queue at which its post is stalled (R258) -/
  stall : Option Nat := none
  /-- clk its post has been stalled (R258 R262) -/
  stalledFor : Nat := 0
  /-- result of the last DSP_POST_GO read (R256) -/
  goResult : BitVec 1 := 0
  /-- private memory: 64 KB of a service core, 512 KB of a Conductor (R10 R13) -/
  priv : Mem 8 := []
deriving DecidableEq, Repr

/-- The Dispatcher. -/
structure Dsp where
  /-- work queues 0 to 4, oldest first (R252) -/
  queues : Tab (List (List (BitVec 32))) := []
  /-- work registers of each service core and Conductor (R260) -/
  sc : Tab ServiceCore := []
  /-- stalled producers in the order in which their stalls began (R258) -/
  stalls : List Nat := []
  /-- posts a hardware producer keeps (producer, queue, entry) (R257) -/
  repost : List (Nat × Nat × List (BitVec 32)) := []
  /-- DSP_CFG.BACKPRESSURE (R259) -/
  backpressure : Bool := false
  /-- DSP_CFG.TRACE_EN (R259) -/
  traceEn : Bool := false
  /-- DSP_STATUS.REFUSED (R259) -/
  refused : BitVec 8 := 0
  /-- DSP_STATUS.STALLED (R259) -/
  stalled : BitVec 8 := 0
  /-- DSP_STATUS.SKIPPED (R259) -/
  skipped : BitVec 8 := 0
  /-- DSP_STATUS.PREEMPT_HELD (R259) -/
  preemptHeld : BitVec 8 := 0
  /-- DSP_TR_WI (R259) -/
  trWi : BitVec 15 := 0
  /-- DSP_TR_RI (R259) -/
  trRi : BitVec 15 := 0
  /-- trace ring byte offset (R266) -/
  trBase : BitVec 32 := 0
  /-- trace ring of 2^k records (R266) -/
  trK : BitVec 4 := 0
  /-- trace type mask (R266) -/
  trMask : BitVec 32 := 0
  /-- records lost since TRACE.SET (R267) -/
  trLost : BitVec 32 := 0
  /-- records lost and not yet written as a Records lost record (R263) -/
  trGap : BitVec 32 := 0
deriving DecidableEq, Repr

/-- Buses and routes. -/
structure Bridge where
  /-- bus accumulators, key 32 x bus + sample (R351) -/
  acc : Tab (BitVec 40) := []
  /-- bus values of the last closed frame, key 32 x bus + sample (R351) -/
  values : Tab (BitVec 24) := []
  /-- writer counts of the bus pairs (R246) -/
  writers : Tab Nat := []
  /-- PEAK of each bus (R352) -/
  peaks : Tab (BitVec 32) := []
  /-- bus of each destination code; no entry is no route (R355) -/
  routes : Tab Nat := []
  /-- old bus and Scarf samples left of a destination (R356) -/
  fades : Tab (Option Nat × Nat) := []
  /-- contribution buffers of paired Bays for the frame being summed, key 8,192 x Bay + 32 x bus + sample (R275 R282) -/
  contrib : Tab (BitVec 40) := []
  /-- accumulators of the frame that leaves, without the paired Bays, key 32 x bus + sample (R351 R282) -/
  closed : Tab (BitVec 40) := []
  /-- contributions of the paired Bays in control in the frame that leaves, keys as contrib (R282) -/
  leaving : Tab (BitVec 40) := []
  /-- first stamp of the device frame that the closed tables hold (R282) -/
  closedStamp : BitVec 32 := 0
  /-- accumulators of the device frame that leaves the outputs now, keys as closed (R282) -/
  outClosed : Tab (BitVec 40) := []
  /-- contributions of the paired Bays in it, keys as leaving (R282) -/
  outLeaving : Tab (BitVec 40) := []
  /-- routes of the frame that leaves the outputs now (R282 R355) -/
  outRoutes : Tab Nat := []
  /-- crossfades of that frame (R282 R356) -/
  outFades : Tab (Option Nat × Nat) := []
  /-- slot words that a slave output port which slipped sent in the frame that ended, key 32 x port + slot (R360) -/
  sent : Tab (List (BitVec 32)) := []
  /-- bus values that leave the outputs now, keys as values (R282 R351) -/
  outValues : Tab (BitVec 24) := []
  /-- first stamp of the device frame that they are of (R282) -/
  outStamp : BitVec 32 := 0
  /-- input samples of the frame to come, key 32 x input source code + sample (R353 R365) -/
  inputs : Tab (BitVec 24) := []
deriving DecidableEq, Repr

/-- One template of a program image. -/
structure ImgTemplate where
  /-- template (R235) -/
  template : Nat := 0
  /-- entry address (R235) -/
  entry : BitVec 13 := 0
  /-- table words (R235) -/
  tableWords : Nat := 0
  /-- content object holding the tables (R235) -/
  object : BitVec 32 := 0
  /-- 486 declared costs (R235) -/
  costs : List Nat := []
deriving DecidableEq, Repr

/-- A bound program image. -/
structure Image where
  /-- templates (R235) -/
  templates : List ImgTemplate := []
  /-- program words (R235) -/
  words : List (BitVec 24) := []
deriving DecidableEq, Repr

/-- One coefficient bank as a RENDER Bay takes its swaps. -/
structure RSwap where
  /-- the set its voices read (R198) -/
  front : CoefSet := {}
  /-- the set its own swap Scarf fades out (R198) -/
  outgoing : CoefSet := {}
  /-- samples left of its own swap Scarf (R198) -/
  left : Nat := 0
  /-- N of that Scarf (R198) -/
  len : Nat := 0
  /-- the swap it takes next, with its Scarf length in units of 100 us (R198) -/
  want : Option (CoefSet × Nat) := none
deriving DecidableEq, Repr

/-- One Bay. -/
structure Bay where
  /-- COUNT (B0: 8) (R270) -/
  count : BitVec 4 := 0
  /-- FIRST (R270) -/
  first : BitVec 3 := 0
  /-- RETURN_HOME (R270) -/
  returnHome : Bool := true
  /-- PARTNER (R270) -/
  partner : BitVec 3 := 0
  /-- ROLE (R270) -/
  role : BitVec 3 := 0
  /-- MODE (R270) -/
  mode : Mode := .load
  /-- program image (R237) -/
  image : Option Image := none
  /-- Frame Count of a RENDER Bay's own timeline (R29) -/
  frameCount : BitVec 48 := 0
  /-- Stamp32 of a RENDER Bay's own timeline (R29) -/
  stamp : BitVec 32 := 0
  /-- reach point of a RENDER Bay's own timeline (R32) -/
  reach : BitVec 32 := 0
  /-- a RENDER frame is under way (R357) -/
  inFrame : Bool := false
  /-- clk count at the start of its present RENDER frame (R262) -/
  startClk : Nat := 0
  /-- starts are refused: a drain runs (R272) -/
  refuseStarts : Bool := false
  /-- holds a coefficient area (R328) -/
  coefArea : Bool := false
  /-- hash mismatches (R295) -/
  mismatches : BitVec 32 := 0
  /-- unresolved mismatches (R295) -/
  unresolved : BitVec 32 := 0
  /-- yields (R295) -/
  yields : BitVec 32 := 0
  /-- the Bay in control has yielded; control changes at the boundary (R281) -/
  yieldDue : Bool := false
  /-- mirror drops (R295) -/
  drops : BitVec 32 := 0
  /-- late output-path faults (R295) -/
  lateOut : BitVec 32 := 0
  /-- returns home (R295) -/
  returns : BitVec 32 := 0
  /-- frames of resynchronisation remaining (R295) -/
  resyncLeft : BitVec 32 := 0
  /-- Frame Counts of its yields in the last 60 s (R283) -/
  yieldFrames : List (BitVec 48) := []
  /-- Frame Counts of unresolved mismatches in the last 10 s (R280) -/
  unresFrames : List (BitVec 48) := []
  /-- self-diagnosis events of the frame (kind, core position) (R278) -/
  events : List (Nat × Nat) := []
  /-- a frame matched without a fault: control passes at the next tick (R283) -/
  goHome : Bool := false
  /-- holds every task of its partner (R276) -/
  lockstep : Bool := false
  /-- samples left of the Scarf in of its contribution (R282) -/
  fadeIn : Nat := 0
  /-- its last task has been cloned; lockstep from the next boundary (R276) -/
  joined : Bool := false
  /-- steps of 1,024 words per core that the image and residency copy has made; none before its first boundary (R276) -/
  copied : Option Nat := none
  /-- its pair has ended: it enters LOAD at the frame boundary (R273) -/
  toLoad : Bool := false
  /-- a post-yield self-test runs (R281) -/
  selfTest : Bool := false
  /-- committed values that wait for a RENDER Bay's own boundary (R81) -/
  waiting : List Staged := []
  /-- voices ended by the drain under way (R294) -/
  ended : Nat := 0
  /-- render ring byte offset, 0 for none (R357) -/
  ringBase : BitVec 32 := 0
  /-- channels of the render ring (R357) -/
  ringC : Nat := 0
  /-- records of the render ring (R357) -/
  ringF : Nat := 0
  /-- coefficient banks whose swaps it takes at its own boundaries (RENDER) (R198) -/
  rswaps : Tab RSwap := []
  /-- mode the home had when it yielded (R281) -/
  homeMode : Mode := .load
  /-- a closed RENDER frame of a pair waits for its decision before its record is written (R279 R357) -/
  recordDue : Bool := false
deriving DecidableEq, Repr

/-- One Course. -/
structure Course where
  /-- DE_CFG.PRESET (R151) -/
  preset : BitVec 2 := 1
  /-- DE_STATUS.SAT (R151) -/
  sat : BitVec 8 := 0
  /-- DE_STATUS.CLAMP (R151) -/
  clamp : BitVec 8 := 0
  /-- hash of the frame's merged stores (R277) -/
  hash : BitVec 64 := 0
  /-- moves counted in the frame (R121) -/
  moves : Nat := 0
  /-- moved voices whose blocks have been written here, in order, and whose buffers are not yet copied (R153) -/
  copies : List Nat := []
  /-- capacity steps s, from the ledger (R457) -/
  steps : Nat := 0
  /-- step floor, from the ledger (R457 R465) -/
  floor : Nat := 0
  /-- steps that apply at the next boundary (R457) -/
  nextSteps : Nat := 0
  /-- worst slack of the last period, ps (HM_COURSE.SLACK) (R449 R462) -/
  slack : Int := 0
  /-- worst slack of each core over life (R452) -/
  slackLife : Tab Int := []
  /-- what can still be the worst slack of each core over the last hour, with its Device Time (R452) -/
  slackHour : Tab (List (BitVec 64 × Int)) := []
  /-- junction temperature, 0.25 degrees (HM_COURSE.TEMP) (R449 R462) -/
  temp : Int := 0
  /-- VDD_CORE at the Course, mV (R449) -/
  vdd : Nat := 0
  /-- ring-oscillator deviations, ppm (R452) -/
  ringOsc : Tab Int := []
  /-- least local margin of each core, mV (R452) -/
  margins : Tab Nat := []
  /-- margin of each bank tested, mV (R452 R464) -/
  bankMargins : Tab Nat := []
  /-- powered hours in the six Tj bands; empty is all 0 (R452) -/
  hours : List (BitVec 32) := []
  /-- powered hours at the last SERVICE cycle (R452) -/
  lastCycle : BitVec 32 := 0
  /-- HM_COURSE.STALE (R451 R462) -/
  stale : Bool := false
  /-- Device Time of the last raise of its steps (R457) -/
  lastRaise : Option (BitVec 64) := none
  /-- Device Time since which its slack has been above 100 ps and its steps have not changed (R457) -/
  goodFrom : Option (BitVec 64) := none
  /-- known-answer test failures of each core over SERVICE cycles (R458) -/
  katFails : Tab Nat := []
  /-- Device Time since which a core has been below 60 ps at s = 16 and VMAX (R458) -/
  lowFrom : Tab (BitVec 64) := []
  /-- last SERVICE cycle step completed, 0 for none (R450) -/
  cycleStep : Nat := 0
  /-- cores that failed their known-answer test in this cycle (R450) -/
  katNow : List Nat := []
  /-- bank under test (R450) -/
  testBank : Option Nat := none
  /-- banks of its Bay tested since this cycle began (R450) -/
  tested : List Nat := []
deriving DecidableEq, Repr

/-- One session. -/
structure Session where
  /-- open (R299) -/
  isOpen : Bool := false
  /-- TAG (R299) -/
  tag : BitVec 8 := 0
  /-- SLOT, 255 when parked (R299) -/
  slot : Nat := 255
  /-- TRANSPORT (R299) -/
  transport : Nat := 0
  /-- PORT (R299) -/
  port : Nat := 0
  /-- IDENTITY (R299) -/
  identity : BitVec 64 := 0
  /-- OFFSET (R299) -/
  offset : BitVec 64 := 0
  /-- JITTER (R299) -/
  jitter : BitVec 32 := 0
  /-- LATE_POLICY: DROP_LATE (R299) -/
  dropLate : Bool := false
  /-- RANK (R299) -/
  rank : BitVec 8 := 128
  /-- LEAD, us (R299) -/
  lead : Nat := 1000
  /-- KEEPALIVE, ms (R299) -/
  keepalive : Nat := 3000
  /-- PART_OFFSET (R299) -/
  partOffset : BitVec 8 := 0
  /-- CLOSE_RELEASE (R299) -/
  closeRelease : Bool := true
  /-- QUEUE_LIMIT (R299) -/
  queueLimit : Nat := 1024
  /-- EVENTS (R317) -/
  events : BitVec 32 := 0
  /-- LATE (R317) -/
  late : BitVec 32 := 0
  /-- greatest lateness (R317) -/
  maxLate : BitVec 32 := 0
  /-- DROPPED_LATE (R317) -/
  droppedLate : BitVec 32 := 0
  /-- RANGE (R317) -/
  range : BitVec 32 := 0
  /-- OVERFLOW (R317) -/
  overflow : BitVec 32 := 0
  /-- IGNORED (R317) -/
  ignored : BitVec 32 := 0
  /-- a close is due at the next boundary, with its release setting (R312 R319) -/
  closing : Option Bool := none
  /-- order in which sessions opened (R314) -/
  openOrder : Nat := 0
  /-- events held while parked (R313) -/
  parkedEvents : List TEvent := []
  /-- parts whose sustain this session holds down (R308) -/
  sustain : List Nat := []
  /-- Bank MSB held, key 16 x group + channel (R307) -/
  bankMsb : Tab Nat := []
  /-- Bank LSB held, key 16 x group + channel (R307) -/
  bankLsb : Tab Nat := []
  /-- RPN assembly: CC 101, 100, 6, 38 in 7 bits each, key 16 x group + channel (R307) -/
  rpn : Tab (BitVec 28) := []
  /-- JR Clock samples (o, r), newest first, at most 16 (R304) -/
  jr : List (BitVec 64 × BitVec 64) := []
  /-- previous unwrapped sender time C (R304) -/
  jrLast : BitVec 64 := 0
  /-- JR Timestamp that precedes the next event (R303) -/
  jrPending : Option (BitVec 16) := none
  /-- last UMP command sequence number, none before the first packet (R301) -/
  umpSeq : Option (BitVec 16) := none
  /-- Active Sensing has been seen (R300) -/
  activeSense : Bool := false
  /-- protocol accepted by Stream Configuration (R301) -/
  midi2 : Bool := true
deriving DecidableEq, Repr

/-- The standby Conductor's mirror, beyond the journal and the staged set. -/
structure CondMirror where
  /-- time servo state (R47 R286) -/
  doms : Tab Dom := []
  /-- parked sessions, and the software fields of each session (R286) -/
  sessions : Tab Session := []
  /-- configuration values: the stored base values of endpoints (R286) -/
  endpoints : Tab (BitVec 32) := []
  /-- configuration values: the envelope descriptors (R286) -/
  envs : Tab (List (BitVec 32)) := []
deriving DecidableEq, Repr

/-- The Session Engine. -/
structure Se where
  /-- sessions 0 to 255 (R299) -/
  sessions : Tab Session := []
  /-- queued items, in merge order within a Bay (R309 R311) -/
  timeline : List TEvent := []
  /-- intake FIFO, oldest first (R310) -/
  fifo : List TEvent := []
  /-- entry counter, for the third merge key (R309) -/
  order : Nat := 0
  /-- SE_STATUS.INTAKE_DROP (R315) -/
  intakeDrop : BitVec 8 := 0
  /-- network messages in the Ethernet receive buffers while no Conductor takes them, oldest first (R287 R288) -/
  rxHeld : List NetMsg := []
  /-- what the standby holds of the sessions and of the time servo, as of the last boundary (R47 R286) -/
  mirror : CondMirror := {}
  /-- SE_STATUS.REFUSED (R315) -/
  refused : BitVec 8 := 0
  /-- sessions opened so far (R314) -/
  opened : Nat := 0
  /-- events taken in during the present device frame (R310) -/
  intakeTaken : Nat := 0
deriving DecidableEq, Repr

/-- One Sound Store bank. -/
structure BankRec where
  /-- OWNER, as the table Owners after reset (R327 R346) -/
  owner : BitVec 4 := 0
  /-- NOBORROW (R346) -/
  noBorrow : Bool := false
  /-- RETAIN (R346) -/
  retain : Bool := false
  /-- COEF (R346) -/
  coef : Bool := false
  /-- PROTECTED (R346) -/
  prot : Bool := false
  /-- STATE (R346) -/
  state : BitVec 2 := 0
  /-- recorded below 30 mV: never retains (R459) -/
  weak : Bool := false
  /-- 4 KB window borrowed (R333) -/
  window : Nat := 0
  /-- group under test in the window (R333) -/
  group : Nat := 0
  /-- save register (R333) -/
  saved : List (BitVec 32) := []
  /-- a suspended test waits for a boundary (R334) -/
  suspended : Bool := false
  /-- a suspended test starts its window again (R334) -/
  again : Bool := false
  /-- requests that stall here, with the clk they have stalled (R323 R324) -/
  waiting : List (BankReq × Nat) := []
deriving DecidableEq, Repr

/-- One content object of the store. -/
structure Content where
  /-- package (R426) -/
  pkg : BitVec 32 := 0
  /-- header words 0 to 6 (R341) -/
  header : List (BitVec 32) := []
  /-- protected (R426) -/
  prot : Bool := false
  /-- sample data (ciphertext when protected) (R341) -/
  data : List (BitVec 32) := []
  /-- content key slot of its package, when protected (R424 R428) -/
  slot : Nat := 0
  /-- word offset of the object in its package's payload (R426 R428) -/
  base : Nat := 0
deriving DecidableEq, Repr

/-- Residency of one object in one Bay. -/
structure Residency where
  /-- heat, in units of 2^-32 (R126 R343) -/
  heat : Nat := 0
  /-- resident (R343) -/
  resident : Bool := false
  /-- pinned (R345) -/
  pinned : Bool := false
  /-- being fetched (R127) -/
  loading : Bool := false
  /-- runs of Sound Store words that its copy takes, first word and length (R328 R343) -/
  at_ : List (Nat × Nat) := []
deriving DecidableEq, Repr

/-- A request for an object from external memory that waits or is served (R340). -/
structure MemReq where
  /-- its class, 1 to 5 (R340) -/
  cls : Nat := 1
  /-- Bay it is for (R340) -/
  bay : Nat := 0
  /-- a content-miss fetch or a refill, else a promotion or a pin (R340) -/
  stream : Bool := false
  /-- object it copies (R340) -/
  object : Nat := 0
  /-- the refill of a stream buffer: voice slot, oscillator, half (R344) -/
  refill : Option (Nat × Nat × Nat) := none
deriving DecidableEq, Repr

/-- Sound Store, Host Window and external memory. -/
structure MemSys where
  /-- Sound Store bytes, address 0x4_0000 x bank + byte (R321) -/
  store : Mem 8 := []
  /-- Host Window bytes (R10 R57) -/
  win : Mem 8 := []
  /-- banks 0 to 63 (R321 R346) -/
  banks : Tab BankRec := []
  /-- SS_STATUS.DENIED (R346) -/
  denied : BitVec 8 := 0
  /-- SS_STATUS.DBE (R346) -/
  dbe : BitVec 8 := 0
  /-- SS_STATUS.SUSPEND (R346) -/
  suspend : BitVec 8 := 0
  /-- SS_STATUS.WAKE (R346) -/
  wake : BitVec 8 := 0
  /-- SS_APERTURE.BANK (R346) -/
  apBank : BitVec 6 := 0x3E
  /-- SS_APERTURE.ALIAS (R346) -/
  apAlias : BitVec 2 := 0
  /-- SS_APERTURE.PAGE (R346) -/
  apPage : BitVec 3 := 0
  /-- HW_REGION_MODE.FAST (R346) -/
  fast : BitVec 12 := 0
  /-- HW_STATUS.BUSY (R346) -/
  hwBusy : BitVec 8 := 0
  /-- HW_STATUS.SAFE (R346) -/
  hwSafe : BitVec 8 := 0
  /-- parallel-port upper-half read latch (R338) -/
  rdLatch : BitVec 16 := 0
  /-- parallel-port lower-half write latch (R338) -/
  wrLatch : BitVec 16 := 0
  /-- word the write latch belongs to (R338) -/
  wrAddr : Nat := 0
  /-- data the last host or internal read returned (R336 R494) -/
  lastRead : List (BitVec 32) := []
  /-- status byte of the last quad-SPI transaction (R494) -/
  qspiStatus : BitVec 8 := 0
  /-- BSY_N (R337 R479) -/
  bsyN : Bool := true
  /-- content store objects (R340 R427) -/
  content : Tab Content := []
  /-- residency, key 2^32 x Bay + object (R343) -/
  resid : Tab Residency := []
  /-- requests to external memory, the one in service first (R340) -/
  requests : List MemReq := []
  /-- what waits for the Dispatcher's kept posts to STREAM and PLACE, oldest first (R257) -/
  kept : List KeptWork := []
  /-- Sound Store words that hold a double-bit error (R321) -/
  bad : List Nat := []
  /-- the 100 ms before a promotion have passed (R126) -/
  promoteDue : Bool := false
  /-- LPDDR4X capacities, channel 1 in [7:4] and channel 0 in [3:0] (R339 R474) -/
  ddr : BitVec 8 := 0
  /-- previous images kept while a VPROG.LOAD runs (R238) -/
  prevImages : Tab Image := []
  /-- staged package words (R427) -/
  stage : List (BitVec 32) := []
  /-- a package is staged or being staged (R427) -/
  stageOpen : Bool := false
  /-- packages held, by number: protected (R427 R442) -/
  pkgs : Tab Bool := []
deriving DecidableEq, Repr

/-- One network stream t. -/
structure Stm where
  /-- ENABLE (R375) -/
  enable : Bool := false
  /-- LISTENER (R375) -/
  listener : Bool := false
  /-- port (R375) -/
  port : BitVec 2 := 0
  /-- CLASS_B (R375) -/
  classB : Bool := false
  /-- channels (R375) -/
  channels : Nat := 1
  /-- listener stream_id (R375) -/
  streamId : BitVec 64 := 0
  /-- MAX_TRANSIT, ns (R375) -/
  transit : Nat := 0
  /-- MSRP holds a Listener Ready or Ready Failed declaration (R363) -/
  ready : Bool := false
  /-- sequence_num of the previous packet (R363) -/
  seqNum : BitVec 8 := 255
  /-- LATE (R377) -/
  late : BitVec 8 := 0
  /-- EARLY (R377) -/
  early : BitVec 8 := 0
  /-- MISSING (R377) -/
  missing : BitVec 8 := 0
  /-- sequence_num of the last packet received (R365) -/
  rxSeq : Option (BitVec 8) := none
  /-- stamp at which the next sample is placed by arrival (R366) -/
  byArrival : Option (BitVec 32) := none
  /-- frames without a packet (R368) -/
  idleFrames : Nat := 0
  /-- bound by ACMP (R362) -/
  connected : Bool := false
  /-- samples placed ahead: stamp, channel, value; 4,096 per channel (R365) -/
  buf : List (BitVec 32 × Nat × BitVec 24) := []
  /-- sample format set by SET_STREAM_FORMAT: INT_24BIT or INT_32BIT, none for either (R362) -/
  int24 : Option Bool := none
  /-- session, with its TAG, that opened when the listener stream was bound (R300) -/
  sess : Option (Nat × BitVec 8) := none
  /-- stream_id that ACMP bound it to (R362) -/
  bound : Option (BitVec 64) := none
deriving DecidableEq, Repr

/-- One queued network frame. -/
structure Launch where
  /-- Ethernet port (R48) -/
  port : Nat := 0
  /-- class (R48) -/
  classB : Bool := false
  /-- launch time (R48) -/
  launch : BitVec 32 := 0
  /-- talker stream (R363) -/
  stm : Nat := 0
  /-- sequence_num (R363) -/
  seq : BitVec 8 := 0
  /-- avtp_timestamp (R363) -/
  avtpTs : BitVec 32 := 0
  /-- samples (R363) -/
  samples : List (BitVec 24) := []
  /-- at the head of its queue: it was compared and not dropped (R49) -/
  judged : Bool := false
  /-- found late there: it is sent at once (R49) -/
  late : Bool := false
  /-- built in a Kerf; its times are taken at the coming tick (R363) -/
  due : Bool := false
deriving DecidableEq, Repr

/-- TDM, PDM, streams and the audio PLL. -/
structure Audio where
  /-- TDM_CFG of units 0 to 15; default 0x0801_0000 (R358 R370) -/
  tdm : Tab (BitVec 32) := []
  /-- PDM ENABLE bits (R373) -/
  pdm : BitVec 8 := 0
  /-- PDM EDGE bits (R361) -/
  pdmEdge : BitVec 8 := 0
  /-- last bits of each enabled PDM pin, newest first (R361) -/
  pdmBits : Tab (List Bool) := []
  /-- AUD_STATUS.SLIP (R371) -/
  slip : BitVec 8 := 0
  /-- AUD_STATUS.BUS_SAT (R371) -/
  busSat : BitVec 8 := 0
  /-- AUD_STATUS.STREAM_ERR (R371) -/
  streamErr : BitVec 8 := 0
  /-- AUD_STATUS.HOLDOVER (R371) -/
  holdover : Bool := false
  /-- AUD_STATUS.LOCK (R371) -/
  lock : Bool := false
  /-- AUD_STATUS.REF (R371) -/
  ref : BitVec 2 := 0
  /-- the PLL's reference is lost (R368) -/
  refLost : Bool := false
  /-- listener stream of the STREAM reference (R374) -/
  refStream : Nat := 0
  /-- MCLK_IN form (R374) -/
  mclkForm : BitVec 2 := 0
  /-- streams 0 to 31 (R375) -/
  streams : Tab Stm := []
  /-- queued frames, oldest first (R48) -/
  launch : List Launch := []
  /-- controller that has acquired the entity (R362) -/
  acquired : Option (BitVec 64) := none
  /-- controller that has locked the entity (R362) -/
  lockedBy : Option (BitVec 64) := none
deriving DecidableEq, Repr

/-- One DAC channel. -/
structure DacCh where
  /-- DAC_CFG.ENABLE (R396) -/
  enable : Bool := false
  /-- DAC_CFG.MODE: true CV (R396) -/
  mode : Bool := false
  /-- DAC_CFG.SPAN (R396) -/
  span : BitVec 2 := 0
  /-- DAC_CFG.STATE (R396 R380) -/
  state : BitVec 3 := 0
  /-- DAC_CODE (R396) -/
  code : BitVec 16 := 0
  /-- span the legs carry (R388) -/
  legSpan : BitVec 2 := 0
  /-- a leg is at its limit now (R391) -/
  shorted : Bool := false
  /-- the running ramp changes the span (R381) -/
  rampSpan : Bool := false
  /-- code at the boundary the ramp started (R388) -/
  rampFrom : BitVec 16 := 0
  /-- a write was applied since it entered SAFE (R385) -/
  written : Bool := false
  /-- samples left of the AUDIO entry Scarf (R383) -/
  scarfLeft : Nat := 0
  /-- SAFE since before the boundary under way (AUDIO) (R383) -/
  rested : Bool := false
  /-- codes in the interpolator: those of earlier frames, newest first, and those of the frame that leaves (R383 R384) -/
  feed : Option (List (BitVec 16) × List (BitVec 16)) := none
  /-- Device Time at which the ramp started (R388) -/
  rampAt : BitVec 64 := 0
  /-- its Course's temperature at the last recalibration, 0.25 degrees (R460) -/
  recalTemp : Int := 0
  /-- next frame of a recalibration pass, 0 to 65 (R460) -/
  recalCell : Nat := 0
  /-- a recalibration pass runs or waits (R460) -/
  recalOn : Bool := false
  /-- frames since the last pass (R460) -/
  sinceRecal : Nat := 0
  /-- marked DEGRADED in the ledger (R460 R463) -/
  degraded : Bool := false
  /-- measured error of its unary cells, 1/64 LSB (R449) -/
  mismatch : Tab Int := []
  /-- trims of its 64 unary cells, from factory fuses (R393) -/
  pegs : Tab (BitVec 8) := []
  /-- gain trim of each span, from factory fuses (R393) -/
  spanTrim : Tab (BitVec 12) := []
  /-- offset trim of the P leg (0) and the N leg (1), from factory fuses (R393) -/
  offTrim : Tab (BitVec 10) := []
deriving DecidableEq, Repr

/-- One entry of the CV queue. -/
structure CvWrite where
  /-- channel (R386) -/
  ch : Nat := 0
  /-- code (R386) -/
  code : BitVec 16 := 0
  /-- stamp (R386) -/
  stamp : BitVec 32 := 0
  /-- journal index (R386) -/
  j : BitVec 32 := 0
deriving DecidableEq, Repr

/-- The current-steering outputs. -/
structure Dac where
  /-- channels 0 to 31 (R378) -/
  chs : Tab DacCh := []
  /-- DAC_STATUS.SHORT (R396) -/
  short : BitVec 32 := 0
  /-- DAC_FAULTS.FAULT (R396) -/
  fault : BitVec 32 := 0
  /-- DROPPED (R396) -/
  dropped : BitVec 32 := 0
  /-- CV queue, in stamp order, at most 256 (R386) -/
  queue : List CvWrite := []
deriving DecidableEq, Repr

/-- One UART. -/
structure Uart where
  /-- UART_CFG (R409) -/
  cfg : BitVec 32 := 0x02000000
  /-- UART_DIV.DIV (R409) -/
  div : BitVec 24 := 0x019000
  /-- OVERRUNS (R409) -/
  overruns : BitVec 8 := 0
  /-- FRAMING (R409) -/
  framing : BitVec 8 := 0
  /-- PARITY_ERR (R409) -/
  parityErr : BitVec 8 := 0
  /-- BREAK (R409) -/
  brk : Bool := false
  /-- OVERRUN (R409) -/
  overrun : Bool := false
  /-- UART_HOLD.DATA (R409) -/
  holdData : BitVec 8 := 0
  /-- UART_HOLD.VALID (R409) -/
  holdValid : Bool := false
  /-- UART_HOLD.FERR (R409) -/
  holdFerr : Bool := false
  /-- UART_HOLD.PERR (R409) -/
  holdPerr : Bool := false
  /-- RX_BUSY: a character in the receive shifter (R409) -/
  rxBusy : Bool := false
  /-- divider the receive shifter runs at (R407) -/
  rxDiv : BitVec 24 := 0x019000
  /-- divider the transmit shifter runs at (R407) -/
  txDiv : BitVec 24 := 0x019000
  /-- byte in the transmit shifter (R406) -/
  txShift : Option (BitVec 8) := none
  /-- clk count at which the start bit of that byte began (R400 R406) -/
  txClk : Nat := 0
  /-- transmit FIFO, at most 256 (R406) -/
  fifo : List (BitVec 8) := []
  /-- RAW ring, at most 1,024 (R405) -/
  ring : List (BitVec 8) := []
  /-- LATE_TX (R419) -/
  lateTx : BitVec 16 := 0
  /-- accepts no start bit until 10 idle bit times (R410) -/
  idleWait : Bool := true
  /-- running status of the MIDI intake (R302) -/
  status : BitVec 8 := 0
  /-- data bytes of the message being parsed (R302) -/
  args : List (BitVec 8) := []
  /-- intake buffer of a parked UART session, 64 events (R313) -/
  buf : List TEvent := []
  /-- Active Sensing has been seen since the UART was enabled (R300) -/
  sensed : Bool := false
  /-- bytes the transmitter has sent (R406) -/
  sent : List (BitVec 8) := []
deriving DecidableEq, Repr

/-- One capture entry. -/
structure Cap where
  /-- count (R413) -/
  count : BitVec 32 := 0
  /-- Device Time (R413) -/
  time : BitVec 64 := 0
deriving DecidableEq, Repr

/-- One timer. -/
structure Timer where
  /-- TMR_CFG (R416) -/
  cfg : BitVec 32 := 0x200000C7
  /-- TMR_PERIOD (R416) -/
  period : BitVec 32 := 0xFFFFFFFF
  /-- TMR_COUNT (R416) -/
  count : BitVec 32 := 0
  /-- prescaler (R411) -/
  presc : Nat := 0
  /-- MISSED (R416) -/
  missed : BitVec 16 := 0
  /-- LOST (R416) -/
  lost : BitVec 8 := 0
  /-- OVERFLOW (R416) -/
  overflow : Bool := false
  /-- PENDING (R416) -/
  irq : Bool := false
  /-- clk count of the last selected edge (R413) -/
  capClk : Option Nat := none
  /-- capture queue, oldest first, at most 4 (R413) -/
  queue : List Cap := []
  /-- TMR_CAPV_CNT (R416) -/
  capCnt : BitVec 32 := 0
  /-- TMR_CAPV_DTLO (R416) -/
  capLo : BitVec 32 := 0
  /-- TMR_CAPV_DTHI (R416) -/
  capHi : BitVec 32 := 0
  /-- value the last TMR_CAPQ read returned (R414) -/
  capqRead : BitVec 9 := 0
  /-- TMR_OUT level (R411 R479) -/
  out : Bool := false
deriving DecidableEq, Repr

/-- One content key slot. -/
structure CKey where
  /-- content key (R424) -/
  key : BitVec 256 := 0
  /-- GCM IV (R424 R426) -/
  iv : List (BitVec 32) := []
  /-- package number; 0 until its package is installed (R424) -/
  pkg : BitVec 32 := 0
deriving DecidableEq, Repr

/-- One alarm log entry. -/
structure AlarmEnt where
  /-- source (R442) -/
  source : Nat := 0
  /-- level (R442) -/
  level : BitVec 2 := 0
  /-- the time is a slow-clock count (R442) -/
  slow : Bool := false
  /-- time (R442) -/
  time : BitVec 64 := 0
deriving DecidableEq, Repr

/-- The Vault. -/
structure Vault where
  /-- LIFE, from fuse (BLANK on an unfused unit) (R438) -/
  life : BitVec 2 := 0
  /-- LEVEL (battery domain) (R438) -/
  level : BitVec 2 := 0
  /-- KEYLOCK (battery domain) (R438) -/
  keylock : Bool := false
  /-- VBAT_OK (R438) -/
  vbatOk : Bool := true
  /-- device root key, fused per unit (R422) -/
  drk : BitVec 256 := 0
  /-- DRK disabled (RETURN) (R436) -/
  drkOff : Bool := false
  /-- image key, all-zero while BLANK (R422) -/
  ik : BitVec 256 := 0
  /-- fused serial number (R446) -/
  serial : BitVec 64 := 0
  /-- GRADE fuse (R23) -/
  grade : BitVec 1 := 0
  /-- maker key slots loaded (R424) -/
  mks : Tab (BitVec 256) := []
  /-- content key slots held (R424) -/
  cks : Tab CKey := []
  /-- VLT_TAMPER_CFG.LEVELS (R438) -/
  levels : BitVec 12 := 0x555
  /-- VLT_TAMPER_CFG.TIN_EN (R438) -/
  tinEn : BitVec 2 := 0
  /-- VLT_ALARM.ACTIVE (R438) -/
  active : BitVec 6 := 0
  /-- VLT_ALARM.RAISED (battery domain) (R438) -/
  raised : BitVec 6 := 0
  /-- count of ERASE alarms (R434) -/
  erases : BitVec 32 := 0
  /-- alarm log, newest first, at most 128 (R431) -/
  log : List AlarmEnt := []
  /-- Vault working area, 188 KB (R424) -/
  work : Mem 8 := []
  /-- a GUARD acts at the next boundary (R433) -/
  guardFrame : Bool := false
  /-- a GUARD Scarf may still run (R433) -/
  guardScarf : Bool := false
  /-- part of the present slow-clock period, in 1/64 clk (R415 R430) -/
  slowAcc : Nat := 0
  /-- slow-clock periods, which number the bits of TAMP_OUT (R430) -/
  slowTicks : Nat := 0
  /-- every decryption is refused (R433) -/
  refuseAll : Bool := false
  /-- voices an ERASE cuts at the next device frame boundary (R434) -/
  eraseVoices : List Nat := []
deriving DecidableEq, Repr

/-- What a ledger copy holds of one Course. -/
structure LedgerCourse where
  /-- ring-oscillator deviations, ppm (R452) -/
  ringOsc : Tab Int := []
  /-- worst slack of each core over life (R452) -/
  slackLife : Tab Int := []
  /-- worst slack of each core over the last hour (R452) -/
  slackHour : Tab Int := []
  /-- least local margin of each core, mV (R452) -/
  margins : Tab Nat := []
  /-- margin of each bank tested, mV (R452) -/
  bankMargins : Tab Nat := []
  /-- capacity steps (R452) -/
  steps : Nat := 0
  /-- step floor (R452) -/
  floor : Nat := 0
  /-- powered time of the last SERVICE cycle, hours (R452) -/
  lastCycle : BitVec 32 := 0
  /-- powered hours in the six Tj bands (R452) -/
  hours : List (BitVec 32) := []
deriving DecidableEq, Repr

/-- One copy of the margin ledger. -/
structure Ledger where
  /-- its Courses (R452) -/
  courses : Tab LedgerCourse := []
  /-- retired cores with their causes (R452) -/
  retired : Tab Nat := []
  /-- DAC channels marked DEGRADED (R452) -/
  degraded : List Nat := []
  /-- banks whose margin fell below 30 mV (R459) -/
  weak : List Nat := []
  /-- VDD_CORE setpoint, mV (R452) -/
  setpoint : Nat := 750
  /-- total powered hours (R452) -/
  poweredHours : BitVec 32 := 0
deriving DecidableEq, Repr

/-- The Health Monitor. -/
structure Health where
  /-- CLK_ALARMS (R462) -/
  clkAlarms : BitVec 8 := 0
  /-- SUPPLY_ALARMS (R462) -/
  supplyAlarms : BitVec 8 := 0
  /-- SUPPLY_DEV (R462) -/
  supplyDev : Bool := false
  /-- PMBUS_FAIL (R462) -/
  pmbusFail : Bool := false
  /-- AVS_EN (R462) -/
  avsEn : Bool := true
  /-- VMAX, mV (R462) -/
  vmax : Nat := 850
  /-- SETPOINT, mV (no ledger) (R462) -/
  setpoint : Nat := 750
  /-- setpoint whose write over PMBus is retried (R455) -/
  wanted : Nat := 750
  /-- VOUT_MODE of the core regulator, read at start-up (R454) -/
  voutMode : BitVec 8 := 0
  /-- temperature of the central sensor, 0.25 degrees (R449) -/
  central : Int := 0
  /-- Device Time at which the present 100 ms period began (R454) -/
  periodAt : BitVec 64 := 0
  /-- Device Time of the last measurement of the ring oscillators (R449) -/
  ringAt : Option (BitVec 64) := none
  /-- double-bit errors reported from each bank's words (R321) -/
  storeDbe : Tab Nat := []
  /-- a ledger write waits for an active Conductor (R453) -/
  ledgerDue : Bool := false
  /-- the newer copy is still being written (R453) -/
  ledgerOpen : Bool := false
  /-- total powered hours (R452) -/
  poweredHours : BitVec 32 := 0
  /-- which ledger copy is the newer (R453) -/
  ledgerCopy : Bool := false
  /-- ledger writes made (R453) -/
  ledgerSeq : Nat := 0
  /-- the two copies in the boot flash; none written on a new unit (R453) -/
  ledgers : Tab Ledger := []
deriving DecidableEq, Repr

/-- The boot flash; its ledger area is Health.ledgers. -/
structure Flash where
  /-- boot header copies, as read at the last boot or written since (R473 R474) -/
  headers : Tab (List (BitVec 32)) := []
  /-- images of the firmware slots that FW.UPDATE has written (R473) -/
  slots : Tab (List (BitVec 32)) := []
  /-- header copy in force (R474) -/
  copy : Bool := false
  /-- the ROM reads in 8D-8D-8D (R473) -/
  octal : Bool := false
  /-- clock of the reads, MHz (R473 R474) -/
  clock : BitVec 8 := 25
  /-- dummy cycles of the 8D read (R474) -/
  dummy : BitVec 8 := 0
deriving DecidableEq, Repr

/-- Power, reset and start-up. -/
structure Power where
  /-- SYS_BOOT.PHASE (R478) -/
  phase : BitVec 4 := 0
  /-- SYS_BOOT.HOST, from the straps (R478) -/
  host : BitVec 2 := 0
  /-- SYS_BOOT.SLOT (R478) -/
  slot : Bool := false
  /-- SYS_BOOT.FALLBACK (R478) -/
  fallback : Bool := false
  /-- SYS_BOOT.RECOVERY (R478) -/
  recovery : Bool := false
  /-- SYS_BOOT.ERROR (R478) -/
  error : BitVec 8 := 0
  /-- SYS_RSTC.RESETS (R478) -/
  resets : BitVec 16 := 0
  /-- SYS_RSTC.CAUSE after first power-up (R478) -/
  cause : BitVec 5 := 0x18
  /-- SYS_PWR.WAKE_SRC (R478) -/
  wakeSrc : BitVec 8 := 0
  /-- SYS_PWR.STATE (R478) -/
  state : BitVec 2 := 0
  /-- a SYS.RESET was answered; the warm reset is due (R484) -/
  resetDue : Bool := false
  /-- SLEEP was answered; entry is due at the next boundary (R485) -/
  sleepDue : Bool := false
  /-- POR_N or the power-on monitor holds reset (R467 R469) -/
  holdPor : Bool := false
  /-- WRST_N holds reset (R469) -/
  holdWrst : Bool := false
  /-- Device Time at which the reset of a SYS.RESET begins (R484) -/
  resetAt : BitVec 64 := 0
  /-- device frame ticks since it was answered (R484) -/
  resetTicks : Nat := 0
  /-- the first frame tick after a wake has not come (R483) -/
  wakeHold : Bool := false
  /-- life cycle, IK, GRADE and serial number have been loaded once (R475) -/
  fusesRead : Bool := false
  /-- the start-up self-test and the standard banks are done (R475) -/
  tested : Bool := false
  /-- the boot flash (R473) -/
  flash : Flash := {}
  /-- boot slot of the newer boot header (R474) -/
  bootSlot : Bool := false
  /-- SEQ of the newer boot header (R474) -/
  headerSeq : BitVec 32 := 0
  /-- firmware version of the boot slot (R298) -/
  fwVersion : BitVec 32 := 0
  /-- firmware version of the alternate slot (R292) -/
  altVersion : BitVec 32 := 0
  /-- probation of an updated Conductor runs (R292) -/
  probation : Bool := false
  /-- pins DDR0_RST_N and DDR1_RST_N, released in phase 4 (R479) -/
  ddrRstN : Bool := false
  /-- pin ETH_PHYRST_N, released in phase 5 (R498 R479) -/
  phyRstN : Bool := false
deriving DecidableEq, Repr

/-- The whole state of the MTY6480. -/
structure State where
  /-- frames, stamps and the clock of record (chapter 02) -/
  time : Time := {}
  /-- mailboxes, journal, staged set, Conductors (chapters 03 and 09) -/
  mbx : Mbx := {}
  /-- the parameter space (chapter 06) -/
  params : Params := {}
  /-- voice slots 0 to 8,191 (chapter 04) -/
  voices : Tab Voice := []
  /-- slots that have become free, longest free first (R102) -/
  freed : List Nat := []
  /-- first slot never taken since reset; those above it follow (R102, log entry 6) -/
  nextFresh : Nat := 0
  /-- starts accepted so far (order of acceptance; the model's own field, log entry 6) -/
  startCtr : BitVec 48 := 0
  /-- placement counters of the parts (R133) -/
  parts : Tab PartCtr := []
  /-- voice cores 0 to 63 (chapter 07) -/
  cores : Tab VCore := []
  /-- Courses 0 to 7 (chapters 05 and 16) -/
  courses : Tab Course := []
  /-- Bays 0 to 7 (chapter 09) -/
  bays : Tab Bay := []
  /-- the Dispatcher (chapter 08) -/
  dsp : Dsp := {}
  /-- the Bridge (chapter 12) -/
  bridge : Bridge := {}
  /-- the Session Engine (chapter 10) -/
  se : Se := {}
  /-- Sound Store, Host Window, external memory (chapter 11) -/
  mem : MemSys := {}
  /-- TDM, PDM, streams, audio PLL (chapter 12) -/
  audio : Audio := {}
  /-- current-steering outputs (chapter 13) -/
  dac : Dac := {}
  /-- UARTs 0 to 7 (chapter 14) -/
  uarts : Tab Uart := []
  /-- timers 0 to 15 (chapter 14) -/
  timers : Tab Timer := []
  /-- the Vault (chapter 15) -/
  vault : Vault := {}
  /-- the Health Monitor (chapter 16) -/
  health : Health := {}
  /-- power, reset and start-up (chapter 17) -/
  power : Power := {}
  /-- messages sent at the ports since reset, newest first (the model's own field, log entry 8) -/
  out : List Msg := []
  /-- index of the next free value (the model's own field, log entry 10) -/
  freeCtr : Nat := 0
  /-- commands that wait, first in, first out -/
  pending : List Instr := []
deriving DecidableEq, Repr

/-- Owner of bank `n` after reset (R327). -/
def ownerAfterReset (n : Nat) : BitVec 4 :=
  if n < 56 then 0 else if n < 60 then BitVec.ofNat 4 (8 + (n - 56)) else if n < 62 then 0xC else 0xD

/-- Bank owners after reset (R327). -/
def banksAfterReset : Tab BankRec := (List.range 64).map fun n => (n, { owner := ownerAfterReset n })

/-- Bays after reset (R268): B0 holds C0 to C7 in LOAD. -/
def baysAfterReset : Tab Bay := [(0, { count := 8 })]

/-- The machine right after a cold reset, before the boot ROM runs (R467 to R470, R478): every field at its reset
value; every rule's table of values is the records' defaults above. -/
def State.reset : State where
  bays := baysAfterReset
  mem := { banks := banksAfterReset }

end Sys2Proof.Machine
end

