-- ==== Sys2Proof/Machine/Tab.lean ====
section
/-! DEFINITION. Operations on sparse tables and sparse memories, and the bit-field helpers every family uses. -/

namespace Sys2Proof

/-- The record at key `k`, or the default. -/
def Tab.look {α : Type} (t : Tab α) (k : Nat) (d : α) : α :=
  match t with
  | [] => d
  | (j, v) :: r => if j = k then v else Tab.look r k d

/-- Write the record at key `k`, keys rising. -/
def Tab.put {α : Type} (t : Tab α) (k : Nat) (v : α) : Tab α :=
  match t with
  | [] => [(k, v)]
  | (j, w) :: r => if k = j then (k, v) :: r else if k < j then (k, v) :: (j, w) :: r else (j, w) :: Tab.put r k v

/-- Remove key `k`. -/
def Tab.del {α : Type} (t : Tab α) (k : Nat) : Tab α :=
  match t with
  | [] => []
  | (j, w) :: r => if k = j then r else (j, w) :: Tab.del r k

/-- The entry at key `k`, if listed. -/
def Tab.find {α : Type} (t : Tab α) (k : Nat) : Option α :=
  match t with
  | [] => none
  | (j, v) :: r => if j = k then some v else Tab.find r k

/-- Apply `f` to every listed record. -/
def Tab.mapVals {α : Type} (f : Nat → α → α) (t : Tab α) : Tab α := t.map fun p => (p.1, f p.1 p.2)

/-- What an address that is not listed reads as (DESIGN CHOICE, log entry 3). -/
def Mem.fill (w : Nat) : BitVec w := 0

/-- Read one cell. -/
def Mem.read {w : Nat} (m : Mem w) (a : Nat) : BitVec w := Tab.look m a (Mem.fill w)

/-- Write one cell, keeping the canonical form. -/
def Mem.write {w : Nat} (m : Mem w) (a : Nat) (v : BitVec w) : Mem w :=
  if v = Mem.fill w then Tab.del m a else Tab.put m a v

/-- Addresses strictly rise from `lo` and no entry equals the fill value. -/
def Mem.wfFrom {w : Nat} (lo : Nat) (m : Mem w) : Bool :=
  match m with
  | [] => true
  | (a, v) :: r => decide (lo ≤ a) && decide (v ≠ Mem.fill w) && Mem.wfFrom (a + 1) r

/-- The canonical form of a memory. -/
def Mem.wf {w : Nat} (m : Mem w) : Bool := Mem.wfFrom 0 m

/-- Read the 32-bit word `i` of a byte memory; lane 0 at the lowest address (DEDUCED, log entry 13). -/
def Mem.word (m : Mem 8) (i : Nat) : Word :=
  Mem.read m (4 * i + 3) ++ Mem.read m (4 * i + 2) ++ Mem.read m (4 * i + 1) ++ Mem.read m (4 * i)

/-- Byte lane `l` of a word. -/
def lane (v : Word) (l : Nat) : Byte := (v >>> (8 * l)).setWidth 8

/-- Write the strobed lanes of word `i`. -/
def Mem.putWord (m : Mem 8) (i : Nat) (v : Word) (strobes : BitVec 4) : Mem 8 :=
  (List.range 4).foldl (fun m l => if strobes.getLsbD l then Mem.write m (4 * i + l) (lane v l) else m) m

/-- Write whole words from word `i` on. -/
def Mem.putWords (m : Mem 8) (i : Nat) (ws : List Word) : Mem 8 :=
  match ws with
  | [] => m
  | w :: r => Mem.putWords (Mem.putWord m i w 0xF) (i + 1) r

/-- `n` words from word `i` on. -/
def Mem.words (m : Mem 8) (i n : Nat) : List Word := (List.range n).map fun k => Mem.word m (i + k)

/-- Bits [hi:lo] of a word as a number (R5). -/
def bits (v : Word) (hi lo : Nat) : Nat := (v.toNat / 2 ^ lo) % 2 ^ (hi - lo + 1)

/-- Bit [n] of a word. -/
def bit (v : Word) (n : Nat) : Bool := v.getLsbD n

/-- A word made of fields (value, lowest bit); fields do not overlap. -/
def pack (fs : List (Nat × Nat)) : Word := BitVec.ofNat 32 (fs.foldl (fun a f => a + f.1 * 2 ^ f.2) 0)

/-- A Boolean as 0 or 1. -/
def b2n (b : Bool) : Nat := if b then 1 else 0

/-- Add 1, saturating at the register's maximum. -/
def satInc {w : Nat} (x : BitVec w) : BitVec w := if x = BitVec.allOnes w then x else x + 1

/-- Add `n`, saturating at the register's maximum. -/
def satAdd {w : Nat} (x : BitVec w) (n : Nat) : BitVec w :=
  if x.toNat + n < 2 ^ w then BitVec.ofNat w (x.toNat + n) else BitVec.allOnes w

/-- Set or clear bit `n`. -/
def setBit {w : Nat} (x : BitVec w) (n : Nat) (b : Bool) : BitVec w :=
  if b then x ||| (BitVec.ofNat w 1 <<< n) else x &&& ~~~(BitVec.ofNat w 1 <<< n)

/-- Payload word `i`, 0 when absent. -/
def Entry.pw (e : Entry) (i : Nat) : Word := e.payload.getD i 0

end Sys2Proof
end

