-- ==== Sys2Proof/Machine/Ops.lean ====
section
/-! DEFINITION. Named operations over the state: one accessor and one update per unit, the time base, the Bays, the
messages sent and the free values. -/

namespace Sys2Proof.Machine

/-- The outcome of a step or a meaning. -/
abbrev Outcome := Host.Outcome State Fault Refusal

/-- A meaning that names unit `n` of `limit`: refused when the device has no such unit. -/
def withUnit (n limit : Nat) (o : Outcome) : Outcome := if n < limit then o else .refused .noSuchUnit

-- accessors -------------------------------------------------------------------------------------------------------

/-- Mailbox channel `n`. -/
def State.chan (s : State) (n : Nat) : Chan := s.mbx.chans.look n {}
/-- Replace mailbox channel `n`. -/
def State.setChan (s : State) (n : Nat) (c : Chan) : State := { s with mbx := { s.mbx with chans := s.mbx.chans.put n c } }
/-- Bay `b`. -/
def State.bay (s : State) (b : Nat) : Bay := s.bays.look b {}
/-- Replace Bay `b`. -/
def State.setBay (s : State) (b : Nat) (x : Bay) : State := { s with bays := s.bays.put b x }
/-- Course `c`. -/
def State.course (s : State) (c : Nat) : Course := s.courses.look c {}
/-- Replace Course `c`. -/
def State.setCourse (s : State) (c : Nat) (x : Course) : State := { s with courses := s.courses.put c x }
/-- Voice core `k`. -/
def State.core (s : State) (k : Nat) : VCore := s.cores.look k {}
/-- Replace voice core `k`. -/
def State.setCore (s : State) (k : Nat) (x : VCore) : State := { s with cores := s.cores.put k x }
/-- Voice slot `i`. -/
def State.voice (s : State) (i : Nat) : Voice := s.voices.look i {}
/-- Replace voice slot `i`. -/
def State.setVoice (s : State) (i : Nat) (v : Voice) : State := { s with voices := s.voices.put i v }
/-- Placement counters of part `p`. -/
def State.partCtr (s : State) (p : Nat) : PartCtr := s.parts.look p {}
/-- Replace the placement counters of part `p`. -/
def State.setPartCtr (s : State) (p : Nat) (c : PartCtr) : State := { s with parts := s.parts.put p c }
/-- Session `i`. -/
def State.session (s : State) (i : Nat) : Session := s.se.sessions.look i {}
/-- Replace session `i`. -/
def State.setSession (s : State) (i : Nat) (x : Session) : State :=
  { s with se := { s.se with sessions := s.se.sessions.put i x } }
/-- Sound Store bank record `n`. -/
def State.bank (s : State) (n : Nat) : BankRec := s.mem.banks.look n {}
/-- Replace Sound Store bank record `n`. -/
def State.setBank (s : State) (n : Nat) (x : BankRec) : State := { s with mem := { s.mem with banks := s.mem.banks.put n x } }
/-- DAC channel `d`. -/
def State.dacCh (s : State) (d : Nat) : DacCh := s.dac.chs.look d {}
/-- Replace DAC channel `d`. -/
def State.setDacCh (s : State) (d : Nat) (x : DacCh) : State := { s with dac := { s.dac with chs := s.dac.chs.put d x } }
/-- UART `u`. -/
def State.uart (s : State) (u : Nat) : Uart := s.uarts.look u {}
/-- Replace UART `u`. -/
def State.setUart (s : State) (u : Nat) (x : Uart) : State := { s with uarts := s.uarts.put u x }
/-- Timer `t`. -/
def State.timer (s : State) (t : Nat) : Timer := s.timers.look t {}
/-- Replace timer `t`. -/
def State.setTimer (s : State) (t : Nat) (x : Timer) : State := { s with timers := s.timers.put t x }
/-- gPTP domain `d` (0 or 2). -/
def State.dom (s : State) (d : Nat) : Dom := s.time.doms.look d {}
/-- Replace gPTP domain `d`. -/
def State.setDom (s : State) (d : Nat) (x : Dom) : State := { s with time := { s.time with doms := s.time.doms.put d x } }
/-- Network stream `t`. -/
def State.stm (s : State) (t : Nat) : Stm := s.audio.streams.look t {}
/-- Replace network stream `t`. -/
def State.setStm (s : State) (t : Nat) (x : Stm) : State := { s with audio := { s.audio with streams := s.audio.streams.put t x } }
/-- Coefficient bank `b`. -/
def State.coef (s : State) (b : Nat) : CoefBank := s.params.banks.look b {}
/-- Replace coefficient bank `b`. -/
def State.setCoef (s : State) (b : Nat) (x : CoefBank) : State := { s with params := { s.params with banks := s.params.banks.put b x } }
/-- Override group `g`. -/
def State.group (s : State) (g : Nat) : Group := s.params.groups.look g {}
/-- Replace override group `g`. -/
def State.setGroup (s : State) (g : Nat) (x : Group) : State := { s with params := { s.params with groups := s.params.groups.put g x } }
/-- Work registers of service core or Conductor `i`. -/
def State.svc (s : State) (i : Nat) : ServiceCore := s.dsp.sc.look i {}
/-- Replace the work registers of service core or Conductor `i`. -/
def State.setSvc (s : State) (i : Nat) (x : ServiceCore) : State := { s with dsp := { s.dsp with sc := s.dsp.sc.put i x } }

/-- Send a message at a port. -/
def State.send (s : State) (k : MsgKind) (data : List Nat := []) : State := { s with out := ⟨k, data⟩ :: s.out }

/-- Take the next free value's index (log entry 10). -/
def State.fresh (s : State) : State := { s with freeCtr := s.freeCtr + 1 }

/-- The entry of least rank. -/
def leastRank (xs : List (Nat × Nat)) : Option Nat :=
  match xs with
  | [] => none
  | x :: r => some (r.foldl (fun b y => if y.1 < b.1 then y else b) x).2

/-- The word that a double-bit error strikes holds a free value (log entry 10). -/
def spoilWord (k : Nat) (m : LocalMem) (a : Nat) (s : State) : State :=
  let c := s.core k
  let x := Config.free24 s.freeCtr
  s.fresh.setCore k (match m with
    | .x => { c with x := Mem.write c.x a x }
    | .y => { c with y := Mem.write c.y a x }
    | .prog => { c with prog := Mem.write c.prog a x })

/-- The kernel rewrites a struck context slot before a task takes it (R233); what it writes is not stated: free values (log entry 10). -/
def rewriteSlot (k ctx : Nat) (s : State) : State :=
  let mine := fun (p : Bool × Nat) => p.2 / 192 == ctx
  let s1 := ((s.core k).struck.filter mine).foldl (fun s p => spoilWord k (if p.1 then .y else .x) p.2 s) s
  s1.setCore k { s1.core k with struck := (s1.core k).struck.filter fun p => !mine p }

/-- A task whose present instance may run (R242, R244). -/
def Task.ready (t : Task) : Bool := !t.ran && !t.skipped && !t.fresh && (t.flags &&& t.mask == t.mask)

-- time base --------------------------------------------------------------------------------------------------------

/-- Samples per frame at a base-rate code (R24). -/
def samplesPerFrame (rate : BitVec 3) : Nat := if rate.toNat < 2 then 8 else if rate.toNat < 4 then 16 else 32

/-- Stamp ticks per frame, TPF (R24). -/
def ticksPerFrame (rate : BitVec 3) : Nat := 16 * samplesPerFrame rate

/-- The 48 kHz family (R24): odd codes. -/
def family48 (rate : BitVec 3) : Bool := rate.getLsbD 0

/-- The base rate in Hz (R24). -/
def baseRate (rate : BitVec 3) : Nat :=
  match rate.toNat with
  | 0 => 44100
  | 1 => 48000
  | 2 => 88200
  | 3 => 96000
  | 4 => 176400
  | _ => 192000

/-- Oversampling ratio (R135). -/
def osr (rate : BitVec 3) : Nat := 128 / samplesPerFrame rate

/-- Frames that a number of 48 kHz-family frames stands for in the rate's family: 1,500 / 1,379, 6,000 / 5,513 and so on. -/
def famFrames (rate : BitVec 3) (f48 f44 : Nat) : Nat := if family48 rate then f48 else f44

/-- S (R24). -/
def State.spf (s : State) : Nat := samplesPerFrame s.time.rate

/-- Signed distance from reference point `p` to stamp `s` (R31). -/
def stampDist (s p : Word) : Int := (s - p).toInt

/-- Stamp classes (R31). -/
inductive StampClass where
  | future | range | late
deriving DecidableEq, Repr

/-- Classify a stamp against a reference point (R31). -/
def classify (s p : Word) : StampClass :=
  if stampDist s p < 0 then .late else if stampDist s p ≤ 2 ^ 30 then .future else .range

/-- The next multiple of 0x200 at or after a stamp (R25, R482). -/
def alignStamp (s : Word) : Word := (s + 0x1FF) &&& ~~~(0x1FF : Word)

/-- round(T x fs) for T in units of 100 us (R118, R196). -/
def samples100us (rate : BitVec 3) (t : Nat) : Nat := (2 * t * baseRate rate + 10000) / 20000

/-- round(T x fs) for T in us. -/
def samplesUs (rate : BitVec 3) (t : Nat) : Nat := (2 * t * baseRate rate + 1000000) / 2000000

-- Bays -------------------------------------------------------------------------------------------------------------

/-- A formed Bay (R270). -/
def State.formed (s : State) (b : Nat) : Bool := decide (b < 8) && decide ((s.bay b).count ≠ 0)

/-- The Courses of Bay `b` (R268). -/
def State.bayCourses (s : State) (b : Nat) : List Nat := (List.range (s.bay b).count.toNat).map fun i => (s.bay b).first.toNat + i

/-- The cores of Bay `b`, ascending (R11). -/
def State.bayCores (s : State) (b : Nat) : List Nat := (s.bayCourses b).flatMap fun c => (List.range 8).map fun k => 8 * c + k

/-- The Bay that holds Course `c` (R12). -/
def State.courseBay (s : State) (c : Nat) : Nat :=
  ((List.range 8).find? fun b => (s.bayCourses b).contains c).getD 0

/-- The modes that run voices (R21). -/
def Mode.runsVoices (m : Mode) : Bool := m == .play || m == .follow || m == .render

/-- A real-time mode (R17). -/
def Mode.realTime (m : Mode) : Bool := m == .play || m == .follow || m == .mirror

/-- MODE codes (R270). -/
def Mode.code (m : Mode) : Nat :=
  match m with
  | .play => 0
  | .follow => 1
  | .render => 2
  | .mirror => 3
  | .service => 4
  | .load => 5

/-- The mode of a code 0 to 5. -/
def Mode.ofCode (n : Nat) : Mode :=
  match n with
  | 0 => .play
  | 1 => .follow
  | 2 => .render
  | 3 => .mirror
  | 4 => .service
  | _ => .load

/-- BAY_STATE of Bay `b` (R270). -/
def State.bayState (s : State) (b : Nat) : Word :=
  pack [((s.bay b).count.toNat, 28), ((s.bay b).first.toNat, 24), (b2n (s.bay b).returnHome, 23),
        ((s.bay b).partner.toNat, 20), ((s.bay b).role.toNat, 16), ((s.bay b).mode.code, 0)]

/-- The partner of a paired Bay. -/
def State.partnerOf (s : State) (b : Nat) : Nat := (s.bay b).partner.toNat

/-- The home Bay of a pair that is failed over: its mirror is in control (R281, R284). -/
def State.yielded (s : State) (b : Nat) : Bool := (s.bay b).role != 0 && (s.bay (s.partnerOf b)).role == 4

/-- The Bay that acts for Bay `b`: while a pair is failed over, the Bay in control (R284). -/
def State.acting (s : State) (b : Nat) : Nat := if s.yielded b then s.partnerOf b else b

/-- A Bay of a pair that runs or receives tasks: in control, in lockstep, or resynchronising since a boundary (R275, R276). -/
def State.shares (s : State) (b : Nat) : Bool :=
  decide (1 ≤ (s.bay b).role.toNat) && decide ((s.bay b).role.toNat ≤ 4) && ((s.bay b).role != 3 || (s.bay b).copied.isSome)

/-- Bay `b` holds tasks of its home as the mirror of the pair: in lockstep, joining, or in control (R274 to R276). -/
def State.asMirror (s : State) (b : Nat) : Bool :=
  (s.bay b).role == 2 || (s.bay b).role == 4 || ((s.bay b).role == 3 && !s.yielded b)

/-- The Bay whose mode and timeline Bay `b` goes by (R29, R276): a mirror's is the Bay it mirrors, also while it joins, a yielded home's the Bay in
control. -/
def State.timelineBay (s : State) (b : Nat) : Nat :=
  if s.yielded b || (s.bay b).mode == .mirror || (s.bay b).role == 3 then s.partnerOf b else b

/-- Whether Bay `b` uses its own (render) timeline (R29). -/
def State.ownTimeline (s : State) (b : Nat) : Bool := (s.bay (s.timelineBay b)).mode == .render

/-- Reach point of a timeline: a Bay, or 255 for the device (R32). -/
def State.reachOf (s : State) (b : Nat) : Word :=
  if b < 8 ∧ s.ownTimeline b then (s.bay (s.timelineBay b)).reach else s.time.reach

/-- The home Bay of the pair that Bay `b` belongs to (R274): the Bay in control by right, or the one that has yielded. -/
def State.homeOf (s : State) (b : Nat) : Nat :=
  if (s.bay b).role = 1 ∨ (s.bay b).role = 5 ∨ (s.bay b).role = 6 ∨ s.yielded b then b else s.partnerOf b

/-- The timeline of Bay `b` by its number: that of a RENDER Bay, in a pair its home's, or 255 for the device's (R29). -/
def State.lineOf (s : State) (b : Nat) : Nat :=
  if b < 8 ∧ s.ownTimeline b then (if (s.bay b).role = 0 then b else s.homeOf b) else 255

/-- Every timeline: the device's, and one for each RENDER Bay (R29). -/
def State.lines (s : State) : List Nat := 255 :: (List.range 8).filter fun b => s.formed b && s.lineOf b == b

/-- Stamp32 of a timeline (R29). -/
def State.stampOf (s : State) (b : Nat) : Word :=
  if b < 8 ∧ s.ownTimeline b then (s.bay (s.timelineBay b)).stamp else s.time.stamp

/-- Frame Count of a timeline (R29). -/
def State.frameOf (s : State) (b : Nat) : BitVec 48 :=
  if b < 8 ∧ s.ownTimeline b then (s.bay (s.timelineBay b)).frameCount else s.time.frameCount

/-- A FOLLOW Bay exists (R39). -/
def State.followExists (s : State) : Bool := (List.range 8).any fun b => s.formed b && (s.bay b).mode == .follow

/-- A FOLLOW Bay exists, or a running BAY.MODE takes a Bay there: the rule names the existing Bay only (R39; DESIGN CHOICE, log entry 136). -/
def State.followHeld (s : State) : Bool :=
  s.followExists || s.mbx.running.any fun st => st.opcode == 0x601 && Mode.ofCode (bits (st.e.pw 0) 2 0) == .follow

/-- Every formed Bay is in LOAD (R25). -/
def State.allLoad (s : State) : Bool := (List.range 8).all fun b => !s.formed b || (s.bay b).mode == .load

/-- HW_COND_STATUS (R65). -/
def State.condStatus (s : State) : Word :=
  pack [(s.mbx.switches.toNat, 16), (b2n s.mbx.standbyReady, 1), (b2n s.mbx.activeB, 0)]

/-- TM_CFG (R51). -/
def State.tmCfg (s : State) : Word :=
  pack [(s.time.dom2Num.toNat, 24), (s.time.dom2Port.toNat, 18), (s.time.dom0Port.toNat, 16), (b2n s.time.autoSwitch, 11),
        (s.time.cor.toNat, 8), (s.time.rate.toNat, 0)]

/-- TM_STATUS (R52). -/
def State.tmStatus (s : State) : Word :=
  pack [(s.time.launchDrop.toNat, 24), (s.time.launchLate.toNat, 16), (s.time.tsCollide.toNat, 8), (b2n s.time.holdover, 7),
        (b2n s.time.switching, 6), (s.time.activeCor.toNat, 4), (b2n (s.dom 2).locked, 3), (b2n (s.dom 0).locked, 2)]

/-- SYS_PWR (R478). -/
def State.sysPwr (s : State) : Word := pack [(s.power.wakeSrc.toNat, 8), (s.power.state.toNat, 0)]

/-- POR_N, the power-on monitor or WRST_N holds reset (R467, R469). -/
def State.inReset (s : State) : Bool := s.power.holdPor || s.power.holdWrst

/-- The device has no host port: in reset, or with the reserved value of the host straps (R22, R471). -/
def State.hostOff (s : State) : Bool := s.inReset || s.power.host == 3

/-- No Conductor acts: the active one is fenced, or it hangs and has not reported at the last boundary (R287, R288). -/
def State.condDown (s : State) : Bool := s.mbx.fenced || decide (0 < s.mbx.missed)

/-- Bytes of a network message in a receive buffer: the payload of a Network MIDI packet under Ethernet, IP, UDP and UMP headers, at least 64
(PRESUMED, log entry 133). -/
def frameBytes (i : NetMsg) : Nat :=
  match i with
  | .networkMidiPacket _ _ ps => Nat.max 64 (58 + 4 * (ps.map List.length).foldl (· + ·) 0)
  | _ => 64

/-- Ethernet port of a network message; what names none is counted with port 0 (DESIGN CHOICE, log entry 133). -/
def State.framePort (s : State) (i : NetMsg) : Nat :=
  match i with
  | .networkMidiPacket sid _ _ | .bye sid | .jrClock sid _ | .endpointDiscovery sid | .streamConfigurationRequest sid _ | .functionBlockDiscovery sid =>
    (s.session sid).port
  | .invitation port _ _ => port
  | .announce d _ | .followUp d _ | .pdelayRespFollowUp d _ | .signaling d _ => if d = 0 then s.time.dom0Port.toNat % 2 else s.time.dom2Port.toNat % 2
  | .acmpConnect t _ | .acmpDisconnect t | .acmpGetState t => (s.stm t).port.toNat
  | _ => 0

/-- A message that arrives while no Conductor acts stays in its port's receive buffer of 64 KB; one that finds it full is lost (R288). -/
def holdFrame (i : NetMsg) (s : State) : State :=
  let used := ((s.se.rxHeld.filter fun j => s.framePort j == s.framePort i).map frameBytes).foldl (· + ·) 0
  if used + frameBytes i ≤ 65536 then { s with se := { s.se with rxHeld := s.se.rxHeld ++ [i] } } else s

/-- The Ethernet MAC runs: started in phase 5 (R479), stopped in reset and in SLEEP (R480). -/
def State.macUp (s : State) : Bool := decide (6 ≤ s.power.phase.toNat) && s.power.phase != 15 && s.power.state != 2 && !s.inReset

/-- A network message `i`, which the active Conductor takes by `f` (R288, R302); none arrives while the MAC stands. -/
def taken (i : NetMsg) (f : State → State) (s : State) : State := if !s.macUp then s else if s.condDown then holdFrame i s else f s

/-- An image load may be locked: the cards of FW.UPDATE and VPROG.LOAD list E_LOCKED, and no rule names the life-cycle state or alarm that locks
them, so in FIELD, in RETURN and under KEYLOCK it is left open (R73, R238, R298; log entry 133). -/
def State.imageLocked (s : State) (op : Nat) : Bool :=
  (decide (2 ≤ s.vault.life.toNat) || s.vault.keylock) && Config.imageLocked op s.vault.life s.vault.keylock

/-- The Conductor serves the mailboxes: READY, awake since a frame tick, not on its way to SLEEP, and no switch or lone
restart under way (R287, R475, R477, R483). -/
def State.serving (s : State) : Bool :=
  s.power.phase == 7 && !s.condDown && s.power.state != 2 && !s.power.sleepDue && !s.power.wakeHold && !s.hostOff

/-- The domain number a COR code names: 1 is DOM0, 2 is DOM2 (R51). -/
def corDom (c : Nat) : Nat := if c = 1 then 0 else 2

end Sys2Proof.Machine
end

