-- ==== Sys2Proof/Machine/MemOps.lean ====
section
/-! DEFINITION. The Sound Store as its initiators meet it (chapter 11): owners, retention, borrowed windows, plain reads and
writes and the aliases; the address space of LPDDR4X. -/

namespace Sys2Proof.Machine

/-- Bank of a Sound Store word address (R321). -/
def bankOf (w : Nat) : Nat := w / 65536

/-- Whether the Course port of Course `c` reaches bank `b`: its Bay's banks, or those of the home that its Bay mirrors, also while the mirror joins or
is in control (R275, R276, R281, R325). -/
def portReaches (c b : Nat) (s : State) : Bool :=
  let bay := s.courseBay c
  let o := (s.bank b).owner.toNat
  decide (o < 8) && (o == bay || (s.asMirror bay && o == s.partnerOf bay))

/-- Whether an initiator reaches bank `b`, to read or to write (R14, R325, R333): the copy engine works for Bays, service cores and the active
Conductor, and a test reaches a bank that has lent it a window. -/
def reaches (who : Initiator) (b : Nat) (write : Bool) (s : State) : Bool :=
  let o := (s.bank b).owner.toNat
  match who with
  | .array c => !write && portReaches c b s
  | .core k => !write && portReaches (k / 8) b s
  | .service n => decide (n < 4) && o == 8 + n
  | .copy w => decide (o < 0xD) && o == w.toNat
  | .conductor => o == 0xC
  | .host => o == 0xD
  | .test => decide (o < 8) && (s.bank b).state == 2 && !(s.bank b).noBorrow
  | .vault => o == 0xE

/-- Whether an initiator reaches store word `w` (R325): a test only the window that its bank has lent it, to write only the group that is saved (R333). -/
def reachesWord (who : Initiator) (w : Nat) (write : Bool) (s : State) : Bool :=
  reaches who (bankOf w) write s && (match who with
    | .test => let r := s.bank (bankOf w); w % 65536 / 1024 == r.window && (!write || w % 1024 / 64 == r.group)
    | _ => true)

/-- Banks that Bay `b` owns, ascending. -/
def State.bayBanks (s : State) (b : Nat) : List Nat := (List.range 64).filter fun n => (s.bank n).owner.toNat == b

/-- Words of a bank set: a header and the entries (R193). -/
def setLen (two : Bool) : Nat := if two then 5121 else 2561

/-- A standard bank has two sections (R194). -/
def standardTwo (b : Nat) : Bool := b == 1 || b == 3 || b == 5

/-- Word `i` of a bank set of a base rate (R193). -/
def setWord (rate : BitVec 3) (two : Bool) (entry : Nat → Word) (i : Nat) : Word :=
  if i = 0 then pack [(rate.toNat, 25), (b2n two, 24)] else entry (i - 1)

/-- Word `i` of a stored set; none beyond it, and none of a set that is not valid (R193, R195). -/
def CoefSet.wordAt (x : CoefSet) (rate : BitVec 3) (i : Nat) : Option Word :=
  if x.valid && decide (i < setLen (x.sections == 1)) then some (setWord rate (x.sections == 1) (fun j => x.words.getD j 0) i) else none

/-- The FRONT set of bank `b` and what its other slot holds, in the coefficient area of Bay `o` (R198, R328, R329): the outgoing set while a
swap Scarf runs, then BACK. -/
def State.slotSets (s : State) (o b : Nat) : CoefSet × CoefSet :=
  let x := s.coef b
  match (if (s.bay o).mode = .render then (s.bay o).rswaps.find b else none) with
  | some y => (y.front, if y.left = 0 then x.back else y.outgoing)
  | none => (x.front, if x.scarfLeft = 0 then x.back else x.outgoing)

/-- Where a standard bank starts in a coefficient area (R328; the order is the banks', DESIGN CHOICE, log entry 132). -/
def standardStart (b : Nat) : Nat := (List.range b).foldl (fun a k => a + setLen (standardTwo k)) 0

/-- Word `i` of the coefficient area of Bay `o` (R328, R329): the FRONT sets of the standard banks, then two slots for each of banks 8 to 63. -/
def State.areaWord (s : State) (o i : Nat) : Option Word :=
  if i < standardStart 8 then
    ((List.range 8).find? fun b => decide (standardStart b ≤ i) && decide (i < standardStart (b + 1))).map fun b =>
      setWord s.time.rate (standardTwo b) (Config.standardBank b s.time.rate.toNat) (i - standardStart b)
  else
    let k := (i - standardStart 8) / 5121
    if k < 112 then
      let b := 8 + k / 2
      let x := s.slotSets o b
      (if decide (k % 2 = 1) == (s.coef b).frontHigh then x.1 else x.2).wordAt s.time.rate ((i - standardStart 8) % 5121)
    else none

/-- The word of a coefficient area that store word `w` shows: the active Conductor keeps every area equal to the banks (R329). -/
def State.coefAt (s : State) (w : Nat) : Option Word :=
  let o := (s.bank (bankOf w)).owner.toNat
  if o < 8 ∧ (s.bay o).coefArea = true then
    match (s.bayBanks o).idxOf? (bankOf w) with
    | some k => s.areaWord o (65536 * k + w % 65536)
    | none => none
  else none

/-- The word `w` as it is stored. -/
def storeWord (w : Nat) (s : State) : Word := Mem.word s.mem.store w

/-- The word `w` as it reads: a word of a coefficient area shows its set. -/
def shownWord (w : Nat) (s : State) : Word := (s.coefAt w).getD (storeWord w s)

/-- Write the strobed lanes of store word `w`. -/
def putStore (w : Nat) (v : Word) (strobes : BitVec 4) (s : State) : State :=
  { s with mem := { s.mem with store := Mem.putWord s.mem.store w v strobes, bad := s.mem.bad.filter fun x => x != w } }

/-- Word address of the group under test of bank `b` (R333): 4 KB windows, groups of 64 words. -/
def groupWord (b : Nat) (r : BankRec) : Nat := 65536 * b + 1024 * r.window + 64 * r.group

/-- Write the save register of a borrowed bank back (R334). -/
def restoreGroup (b : Nat) (s : State) : State :=
  let r := s.bank b
  let s1 := { s with mem := { s.mem with store := Mem.putWords s.mem.store (groupWord b r) r.saved } }
  s1.setBank b { r with state := 0, saved := [] }

/-- A retained bank wakes and is counted (R332). -/
def wakeBank (b : Nat) (s : State) : State :=
  if (s.bank b).state = 1 then
    let s1 := s.setBank b { s.bank b with state := 0 }
    { s1 with mem := { s1.mem with wake := satInc s1.mem.wake } }
  else s

/-- What any access but the test's does to a bank first: a retained bank wakes (R332); a borrowed window that the access
meets suspends its test (R334). -/
def touchBank (w : Nat) (s : State) : State :=
  let b := bankOf w
  let r := s.bank b
  if r.state = 1 then wakeBank b s
  else if r.state = 2 ∧ (w % 65536) / 1024 = r.window then
    let s1 := restoreGroup b s
    let s2 := s1.setBank b { s1.bank b with suspended := true, again := true }
    { s2 with mem := { s2.mem with suspend := satInc s2.mem.suspend } }
  else s

/-- Count a refused access (R326). -/
def countDenied (s : State) : State := { s with mem := { s.mem with denied := satInc s.mem.denied } }

/-- Whether a refused access of this initiator is counted in DENIED (R326); a Course port's is not. -/
def deniedCounted (who : Initiator) : Bool :=
  match who with
  | .service _ | .copy _ | .conductor | .host => true
  | _ => false

/-- Count a double-bit error of a word and report it to Health, which keeps the reports by bank (R321; how is not stated: DESIGN CHOICE, log entry
139). -/
def countDbe (w : Nat) (s : State) : State :=
  { s with
    health := { s.health with storeDbe := s.health.storeDbe.put (bankOf w) (s.health.storeDbe.look (bankOf w) 0 + 1) },
    mem := { s.mem with dbe := satInc s.mem.dbe, bad := if s.mem.bad.contains w then s.mem.bad else w :: s.mem.bad } }

/-- A read of store word `w`: the word, whether it was refused, and the state (R321, R325, R326, R330). A word with a double-bit error delivers 0 and counts
in DBE, now and until it is written again (log entry 139); a bank being zeroised reads 0. -/
def readStore (who : Initiator) (w : Nat) (dbe : Bool) (s : State) : Word × Bool × State :=
  if reachesWord who w false s then
    let s1 := match who with | .test => s | _ => touchBank w s
    if (s.bank (bankOf w)).state = 3 then (0, false, s1)
    else if dbe || s.mem.bad.contains w then (0, false, countDbe w s1)
    else (shownWord w s1, false, s1)
  else (0, true, if deniedCounted who then countDenied s else s)

/-- Kinds of write (R322). -/
inductive WriteKind where
  | plain | set | clear
deriving DecidableEq, Repr

/-- The value a write leaves in a word: lanes not strobed keep theirs (R322: an alias takes them as 0). -/
def aliasValue (kind : WriteKind) (old v : Word) (strobes : BitVec 4) : Word :=
  let m : Word := (if strobes.getLsbD 0 then 0xFF else 0) ||| (if strobes.getLsbD 1 then 0xFF00 else 0)
    ||| (if strobes.getLsbD 2 then 0xFF0000 else 0) ||| (if strobes.getLsbD 3 then 0xFF000000 else 0)
  match kind with
  | .plain => (old &&& ~~~m) ||| (v &&& m)
  | .set => old ||| (v &&& m)
  | .clear => old &&& ~~~(v &&& m)

/-- An initiator's map holds the aliases and byte strobes (R321): the Vault's holds neither. -/
def hasAlias (who : Initiator) : Bool := match who with | .vault => false | _ => true

/-- A write of store word `w` (R321, R322, R325, R326, R330): ignored where the initiator does not reach the bank or has no such path, and while the bank
is being zeroised. -/
def writeStore (who : Initiator) (kind : WriteKind) (w : Nat) (v : Word) (strobes : BitVec 4) (s : State) : State :=
  if reachesWord who w true s && (hasAlias who || kind = .plain) then
    let s1 := match who with | .test => s | _ => touchBank w s
    if (s.bank (bankOf w)).state = 3 then s1
    else putStore w (aliasValue kind (storeWord w s1) v (if hasAlias who then strobes else 0xF)) 0xF s1
  else if deniedCounted who then countDenied s else s

/-- Zero every byte of bank `b` (R330). -/
def wipeBank (b : Nat) (s : State) : State :=
  { s with mem := { s.mem with store := s.mem.store.filter fun p => !(decide (0x40000 * b ≤ p.1) && decide (p.1 < 0x40000 * (b + 1))),
                               bad := s.mem.bad.filter fun w => bankOf w != b } }

/-- Start zeroising bank `b`: a retained one wakes (R332); it reads 0 and writes nothing until ZEROISE_DONE (R330). -/
def zeroise (b : Nat) (s : State) : State :=
  let s1 := wipeBank b (wakeBank b s)
  s1.setBank b { s1.bank b with state := 3, saved := [], suspended := false, again := false }

-- the address space of LPDDR4X (R339) --------------------------------------------------------------------------------------------------------------

/-- Bytes of a channel by its capacity code in the boot header: 0 none, 1 to 4 for 1, 2, 4, 8 GB (R339, R474). -/
def channelBytes (code : Nat) : Nat := if code = 0 then 0 else 2 ^ (29 + code)

/-- Channel and byte in it of an LPDDR4X address: with both populated alike, 4 KB blocks alternate on bit 12; otherwise channel 0 lies below channel 1
(R339). -/
def ddrPlace (c0 c1 a : Nat) : Option (Nat × Nat) :=
  if c0 = c1 then (if a < 2 * c0 then some (a / 4096 % 2, 4096 * (a / 8192) + a % 4096) else none)
  else if a < c0 then some (0, a)
  else if a < c0 + c1 then some (1, a - c0)
  else none

/-- Initiators that reach LPDDR4X, through the copy engine or directly (R14, R339). -/
def reachesDdr (who : Initiator) : Bool := match who with | .service n => decide (n < 4) | .conductor | .copy _ => true | _ => false

/-- The place of an LPDDR4X address on this device, for an initiator. -/
def State.ddrAt (s : State) (who : Initiator) (a : Nat) : Option (Nat × Nat) :=
  if reachesDdr who then ddrPlace (channelBytes (s.mem.ddr.toNat % 16)) (channelBytes (s.mem.ddr.toNat / 16)) a else none

-- registers (R346) ------------------------------------------------------------------------------------------------------------------------

/-- SS_OWNER of bank `b` (R346). -/
def State.ssOwner (s : State) (b : Nat) : Word :=
  let r := s.bank b
  pack [(r.state.toNat, 14), (b2n r.prot, 13), (b2n r.coef, 12), (b2n r.retain, 9), (b2n r.noBorrow, 8), (r.owner.toNat, 0)]

/-- SS_STATUS (R346). -/
def State.ssStatus (s : State) : Word :=
  pack [(s.mem.denied.toNat, 24), (s.mem.dbe.toNat, 16), (s.mem.suspend.toNat, 8), (s.mem.wake.toNat, 0)]

/-- HW_STATUS (R346). -/
def State.hwStatus (s : State) : Word := pack [(s.mem.hwBusy.toNat, 24), (s.mem.hwSafe.toNat, 16)]

/-- HW_REGION_MODE (R346). -/
def State.hwRegionMode (s : State) : Word := pack [(s.mem.fast.toNat, 1)]

end Sys2Proof.Machine
end

