-- ==== Sys2Proof/Machine/Mailbox.lean ====
section
/-! DEFINITION. The mailbox path (chapter 03): rings, responses, the journal, validation in the order of R70, and the
ways a command is carried out: at once, at a boundary, at its stamp, staged, or in steps. -/

namespace Sys2Proof.Machine

-- status codes (R73) -------------------------------------------------------------------------------------------------

abbrev Status := BitVec 16
def stDone : Status := 0x0000
def stAccepted : Status := 0x0001
def stStaged : Status := 0x0002
def eOpcode : Status := 0x0100
def eLength : Status := 0x0101
def eRange : Status := 0x0102
def eConflict : Status := 0x0103
def eState : Status := 0x0104
def eBusy : Status := 0x0105
def eNoslot : Status := 0x0106
def eStampRange : Status := 0x0107
def eLate : Status := 0x0108
def eHandleStale : Status := 0x0109
def eOwner : Status := 0x010A
def eAuth : Status := 0x010B
def eLocked : Status := 0x010C
def eSequence : Status := 0x010D
def pPartial : Status := 0x0300
def pRolledBack : Status := 0x0301
def fFailover : Status := 0x0400

/-- A failed check: its status and result words. -/
abbrev Fail := Status × List Word

/-- `none` when the check holds, else the status with no result words. -/
def need (ok : Bool) (st : Status) : Option Fail := if ok then none else some (st, [])

/-- The first failing check. -/
def firstFail (cs : List (Option Fail)) : Option Fail :=
  match cs with
  | [] => none
  | some f :: _ => some f
  | none :: r => firstFail r

-- rings ----------------------------------------------------------------------------------------------------------------

/-- The two-word or three-word header and the payload of an entry (R66). -/
def entryWords (op : Nat) (e : Entry) : List Word :=
  [pack [(e.version.toNat, 28), (op, 16), (e.seq.toNat, 0)],
   pack [(b2n e.stage, 31), (b2n e.stamped, 30), (b2n e.quiet, 29), (e.rsv.toNat, 24), (e.target.toNat, 16), (e.payload.length, 0)]]
  ++ (if e.stamped then [e.stamp] else []) ++ e.payload

/-- Words of an entry. -/
def entryLen (e : Entry) : Nat := 2 + b2n e.stamped + e.payload.length

/-- Word index in the Host Window of word `i` of the command ring of channel `ch` (R57). -/
def cmdRingWord (ch i : Nat) : Nat := 0x1000 * ch + i % 2048

/-- Word index in the Host Window of word `i` of the response ring of channel `ch` (R57). -/
def rspRingWord (ch i : Nat) : Nat := 0x800 + 0x1000 * ch + i % 2048

/-- Free words of a ring (R58). -/
def ringFree (prod cons : BitVec 11) : Nat := (cons.toNat + 2047 - prod.toNat) % 2048

/-- Words between the consumer and the producer index (R58). -/
def ringUsed (prod cons : BitVec 11) : Nat := (prod.toNat + 2048 - cons.toNat) % 2048

/-- Write words into a ring from ring index `i` on; `at` gives the Host Window word of a ring index. -/
def ringPut (pos : Nat → Nat) (i : Nat) (ws : List Word) (m : Mem 8) : Mem 8 :=
  match ws with
  | [] => m
  | w :: r => ringPut pos (i + 1) r (Mem.putWord m (pos i) w 0xF)

/-- The host writes an entry at the command producer index and advances it (R58). An entry that does not fit is not
written: the host must not write it (R59; log entry 11). -/
def hostPut (op : Nat) (e : Entry) (s : State) : State :=
  let c := s.chan e.ch
  if entryLen e ≤ ringFree c.cmdPi c.cmdCi then
    let s1 := { s with mem := { s.mem with win := ringPut (cmdRingWord e.ch) c.cmdPi.toNat (entryWords op e) s.mem.win } }
    s1.setChan e.ch { c with cmdPi := c.cmdPi + BitVec.ofNat 11 (entryLen e), doorbell := true }
  else s

-- responses -------------------------------------------------------------------------------------------------------------

/-- The host is signalled for a bit of HW_DB_RSP that is set and enabled (R63): MSI on PCIe; on the other forms
HOST_IRQ_N follows the bits (`State.hostIrqN`). -/
def signalHost (n : Nat) (s : State) : State :=
  if s.power.host = 0 ∧ s.mbx.dbRspEn.getLsbD n then s.send .msi [n] else s

/-- Set bit `n` of HW_DB_RSP (R63). -/
def setDbRsp (n : Nat) (s : State) : State :=
  signalHost n { s with mbx := { s.mbx with dbRsp := setBit s.mbx.dbRsp n true } }

/-- HOST_IRQ_N on the parallel and SPI forms: low while an enabled bit is set (R63). -/
def State.hostIrqN (s : State) : Bool := s.mbx.dbRsp &&& s.mbx.dbRspEn == 0

/-- Words of a response entry (R67). -/
def respWords (r : Resp) : List Word := pack [(r.status.toNat, 16), (r.seq.toNat, 0)] :: r.jindex :: r.words

/-- Write a response into the response ring of channel `ch` (R58, R63). -/
def writeResp (ch : Nat) (r : Resp) (s : State) : State :=
  let c := s.chan ch
  let s1 := { s with mem := { s.mem with win := ringPut (rspRingWord ch) c.rspPi.toNat (respWords r) s.mem.win } }
  setDbRsp ch (s1.setChan ch { c with rspPi := c.rspPi + BitVec.ofNat 11 (respWords r).length })

/-- Answer on channel `ch`: the response is written, or held while the ring lacks room or earlier ones wait (R64). -/
def respond (ch : Nat) (r : Resp) (s : State) : State :=
  let c := s.chan ch
  if c.held = [] ∧ (respWords r).length ≤ ringFree c.rspPi c.rspCi then writeResp ch r s
  else s.setChan ch { c with held := c.held ++ [r], rspFull := true }

/-- Write the first held response once room has appeared; RSP_FULL clears with the last one (R64). -/
def releaseHeld (ch : Nat) (s : State) : State :=
  let c := s.chan ch
  match c.held with
  | [] => s
  | r :: rest =>
    if (respWords r).length ≤ ringFree c.rspPi c.rspCi then
      writeResp ch r (s.setChan ch { c with held := rest, rspFull := decide (rest ≠ []) })
    else s

/-- The response of an entry, suppressed by QUIET when the status is DONE, ACCEPTED or STAGED (R66). -/
def answer (e : Entry) (st : Status) (j : Word) (ws : List Word) (final : Bool) (s : State) : State :=
  if e.quiet ∧ st.toNat ≤ 2 then s
  else respond e.ch { status := st, seq := e.seq, jindex := j, words := ws, final := final } s

-- the journal -------------------------------------------------------------------------------------------------------------

/-- The index after `j`, skipping 0 (R85). -/
def nextIndex (j : Word) : Word := if j = BitVec.allOnes 32 then 1 else j + 1

/-- The next configuration epoch: never 0 (R84). -/
def nextEpoch (e : Word) : Word := if e = BitVec.allOnes 32 then 1 else e + 1

/-- Advance the configuration epoch by 1 (R84). -/
def bumpEpoch (s : State) : State := { s with mbx := { s.mbx with epoch := nextEpoch s.mbx.epoch } }

/-- An unfinished journal entry: QUEUED or in a STEP state (R85). -/
def JEntry.unfinished (x : JEntry) : Bool := x.st == .queued || x.st == .step

/-- No journal slot is free: 4,096 entries are held and the oldest is unfinished (R85). -/
def journalFull (s : State) : Bool :=
  decide (4096 ≤ s.mbx.journal.length) && (match s.mbx.journal.getLast? with | some x => x.unfinished | none => false)

/-- Create the journal entry of a command at validation (R85, R86); its index is `s.mbx.nextJ`. -/
def journalAdd (op : Nat) (e : Entry) (st : JState) (status : Status) (steps : Nat) (s : State) : State :=
  let x : JEntry :=
    { idx := s.mbx.nextJ, ch := e.ch, seq := e.seq, opcode := BitVec.ofNat 12 op, target := e.target, stage := e.stage,
      stamped := e.stamped, quiet := e.quiet, st := st, steps := BitVec.ofNat 8 steps, status := status,
      frame := s.time.frameCount.setWidth 32, epoch := s.mbx.epoch, owed := st != .done }
  let s1 := { s with mbx := { s.mbx with journal := x :: s.mbx.journal.take 4095, nextJ := nextIndex s.mbx.nextJ } }
  s1.setChan e.ch { s1.chan e.ch with lastJ := s.mbx.nextJ }

/-- Change the journal entry of index `j`; the change carries the present Frame Count and epoch (R85). -/
def journalSet (j : Word) (f : JEntry → JEntry) (s : State) : State :=
  { s with mbx := { s.mbx with journal := s.mbx.journal.map fun x =>
      if x.idx = j then { f x with frame := s.time.frameCount.setWidth 32, epoch := s.mbx.epoch } else x } }

/-- The journal entry of index `j`. -/
def journalFind (j : Word) (s : State) : Option JEntry := s.mbx.journal.find? fun x => x.idx == j

-- ways to carry a command out --------------------------------------------------------------------------------------------

/-- Completes at validation: DONE in the journal and in the response (R75, R86). -/
def finishNow (op : Nat) (e : Entry) (ws : List Word) (s : State) : State :=
  answer e stDone s.mbx.nextJ ws true (journalAdd op e .done stDone 0 s)

/-- Refused at validation with a journalled error (R70, R86). -/
def rejectNow (op : Nat) (e : Entry) (f : Fail) (s : State) : State :=
  answer e f.1 s.mbx.nextJ f.2 true (journalAdd op e .done f.1 0 s)

/-- Add a waiting job. -/
def addJob (jb : Job) (s : State) : State := { s with mbx := { s.mbx with jobs := s.mbx.jobs ++ [jb] } }

/-- Waits for the next device frame boundary (R75, R78, R86). -/
def queueBoundary (op : Nat) (e : Entry) (jb : Job) (s : State) : State :=
  addJob { jb with j := s.mbx.nextJ, opcode := op, e := e, phase := .boundary } (journalAdd op e .queued 0 0 s)

/-- Mark a journal entry as answered ACCEPTED or STAGED, with no final response owed (R88). -/
def markAnswered (j : Word) (s : State) : State :=
  { s with mbx := { s.mbx with journal := s.mbx.journal.map fun x => if x.idx = j then { x with answered := true, owed := false } else x } }

/-- Replace the staged value of a field, or add it (R80). -/
def putStaged (x : Staged) (st : List Staged) : List Staged :=
  if st.any (fun y => y.field == x.field) then st.map (fun y => if y.field = x.field then x else y) else st ++ [x]

/-- Whether staging these fields keeps the set within 1,024 (R80). -/
def stagedRoom (fs : List FieldKey) (s : State) : Bool :=
  let new := (fs.filter fun f => !s.mbx.staged.any fun y => y.field == f).eraseDups
  decide (s.mbx.staged.length + new.length ≤ 1024)

/-- A commit waits for its boundary (R83). -/
def commitWaits (s : State) : Bool := s.mbx.jobs.any fun jb => jb.opcode == 0x010

/-- The checks every staging command makes at steps 11 and 13 (R74, R80, R83). -/
def stageChecks (fs : List FieldKey) (s : State) : Option Fail :=
  firstFail [need (!commitWaits s) eBusy, need (stagedRoom fs s) eNoslot]

/-- Joins the staged set: STAGED now, DONE at the commit (R75, R80). -/
def stageFields (op : Nat) (e : Entry) (fs : List Staged) (s : State) : State :=
  let j := s.mbx.nextJ
  let s1 := journalAdd op e .queued 0 0 s
  let s2 := { s1 with mbx := { s1.mbx with staged := fs.foldl (fun st x => putStaged { x with j := j } st) s1.mbx.staged,
                                           stagedCmds := s1.mbx.stagedCmds ++ [j] } }
  answer e stStaged j [] false (markAnswered j s2)

/-- Starts a stepped command of n steps, of which step `finalAt` is the first final one (R76, R77, R86). -/
def startStepped (op : Nat) (e : Entry) (n finalAt : Nat) (undo : List Word) (s : State) : State :=
  let j := s.mbx.nextJ
  let s1 := journalAdd op e .step 0 n s
  let s2 := { s1 with mbx := { s1.mbx with running := s1.mbx.running ++
    [{ j := j, opcode := op, e := e, n := n, finalAt := finalAt, undo := undo }] } }
  answer e stAccepted j [BitVec.ofNat 32 n] false s2

/-- State codes of the journal (R86). -/
def JState.code (x : JState) : Nat :=
  match x with
  | .queued => 1
  | .step => 2
  | .done => 3
  | .rolledBack => 4

/-- Word 0 of an F_FAILOVER response and of JOURNAL.QUERY (R89, R96). -/
def JEntry.stateWord (x : JEntry) : Word := pack [(x.st.code, 24), (x.stepsDone.toNat, 16), (x.steps.toNat, 8)]

/-- The owed final response of a finished command (R66, R88, R89): after a Conductor switch it is F_FAILOVER. -/
def finalAnswer (j : Word) (e : Entry) (st : Status) (ws : List Word) (s : State) : State :=
  match journalFind j s with
  | none => s
  | some x =>
    if x.failover then
      if e.quiet ∧ st.toNat ≤ 2 then s
      else respond e.ch { status := fFailover, seq := e.seq, jindex := j,
                          words := [x.stateWord, st.setWidth 32] ++ (if st = stDone then ws else []) } s
    else answer e st j ws true s

/-- Whether the final response of entry `j` is owed (R88). -/
def owes (j : Word) (s : State) : Bool := match journalFind j s with | some x => x.owed | none => false

/-- Ends a journalled command in state `js` with a final status, and answers it when that is owed (R75, R86, R88); while no Conductor
acts the answer stays owed (R287). -/
def endCommand (js : JState) (j : Word) (e : Entry) (st : Status) (ws : List Word) (s : State) : State :=
  let s1 := journalSet j (fun x => { x with st := js, status := st, owed := x.owed && s.condDown, words := ws }) s
  if owes j s && !s.condDown then finalAnswer j e st ws s1 else s1

/-- The answer that a finished journal entry owes is written (R88, R89). -/
def answerEntry (s : State) (x : JEntry) : State :=
  finalAnswer x.idx { ch := x.ch, seq := x.seq, quiet := x.quiet } x.status x.words
    { s with mbx := { s.mbx with journal := s.mbx.journal.map fun y => if y.idx = x.idx then { y with owed := false } else y } }

/-- The answers owed by commands that have ended, oldest first (R88). -/
def answerOwed (s : State) : State := (s.mbx.journal.filter fun x => x.owed && !x.unfinished).reverse.foldl answerEntry s

/-- Completes a waiting command: DONE in the journal with the present Frame Count and epoch, and its response when one
is owed (R75, R88). -/
def completeJob (jb : Job) (st : Status) (ws : List Word) (s : State) : State := endCommand .done jb.j jb.e st ws s

/-- Take a job off the list of waiting ones. -/
def dropJob (j : Word) (s : State) : State := { s with mbx := { s.mbx with jobs := s.mbx.jobs.filter fun x => x.j != j } }

-- stepped commands (R76, R77) ---------------------------------------------------------------------------------------------

/-- Change a running stepped command. -/
def onRunning (j : Word) (f : Stepped → Stepped) (s : State) : State :=
  { s with mbx := { s.mbx with running := s.mbx.running.map fun x => if x.j = j then f x else x } }

/-- Step `k` is recorded in the journal once its effects are complete (R77). -/
def recordStep (st : Stepped) (k : Nat) (s : State) : State :=
  onRunning st.j (fun x => { x with done := k })
    (journalSet st.j (fun x => { x with stepsDone := BitVec.ofNat 8 k, finalStep := decide (st.finalAt ≤ k) }) s)

/-- A stepped command ends (R76). -/
def endStepped (js : JState) (st : Stepped) (status : Status) (ws : List Word) (s : State) : State :=
  endCommand js st.j st.e status ws { s with mbx := { s.mbx with running := s.mbx.running.filter fun x => x.j != st.j } }

/-- Step `k` fails: P_PARTIAL with the failing step and its status (R73, R77). -/
def failStep (st : Stepped) (k : Nat) (err : Status) (s : State) : State :=
  endStepped .done st pPartial [pack [(k, 16), (st.n, 0)], err.setWidth 32] s

/-- Room for one more stepped command (R76). -/
def steppedRoom (s : State) : Option Fail := need (decide (s.mbx.running.length < 8)) eNoslot

/-- A stepped command with one of these opcodes runs. -/
def stepping (ops : List Nat) (s : State) : Bool := s.mbx.running.any fun x => ops.contains x.opcode

/-- Rolls a waiting command back: ROLLED_BACK with P_ROLLED_BACK; `second` writes the second response with result word 0
= 0, which QUIET does not suppress (R26). -/
def rollBack (j : Word) (e : Entry) (second : Bool) (s : State) : State :=
  let s1 := journalSet j (fun x => { x with st := .rolledBack, status := pRolledBack, owed := false }) s
  if second then respond e.ch { status := pRolledBack, seq := e.seq, jindex := j, words := [0] } s1 else s1

-- sessions of mailbox channels (R36, R299, R300) --------------------------------------------------------------------------

/-- The open sessions' IDs, ascending. -/
def openSessions (s : State) : List Nat := (List.range 256).filter fun i => (s.session i).isOpen

/-- The mailbox session of channel `ch`, if open (R300). -/
def mailboxSession (ch : Nat) (s : State) : Option Nat :=
  (openSessions s).find? fun i => (s.session i).transport == 3 && (s.session i).port == ch

/-- The lowest free hardware slot, or 255 (R299, R313). -/
def freeSlot (s : State) : Nat :=
  ((List.range 160).find? fun k => !(openSessions s).any fun i => (s.session i).slot == k).getD 255

/-- The TAG after `t`: 1 to 255 (R299). -/
def nextTag (t : Byte) : Byte := if t = 255 then 1 else t + 1

/-- Open a session on the lowest free ID; `none` when 256 are open, or all slots and the 96 parked places are taken
(R299, R300, R313). -/
def openSession (transport port : Nat) (identity : BitVec 64) (s : State) : Option (Nat × State) :=
  match (List.range 256).find? fun i => !(s.session i).isOpen with
  | none => none
  | some i =>
    let x : Session :=
      { isOpen := true, tag := nextTag (s.session i).tag, slot := freeSlot s, transport := transport, port := port, identity := identity,
        partOffset := if transport = 2 then BitVec.ofNat 8 (16 * port) else 0, openOrder := s.se.opened }
    some (i, { s.setSession i x with se := { (s.setSession i x).se with opened := s.se.opened + 1 } })

/-- Count a refused open (R300). -/
def refuseOpen (s : State) : State := { s with se := { s.se with refused := satInc s.se.refused } }

/-- Open the mailbox session of a channel when none is open (R36, R300). A stamped command that cannot open one is
still judged, under PLAY_LATE. -/
def ensureMailboxSession (ch : Nat) (s : State) : State :=
  match mailboxSession ch s with
  | some _ => s
  | none => match openSession 3 ch 0 s with
    | some (_, s1) => s1
    | none => refuseOpen s

/-- Count a late item played late in its session (R34). -/
def countLate (sid : Option Nat) (lateness : Nat) (s : State) : State :=
  match sid with
  | none => s
  | some i =>
    let x := s.session i
    s.setSession i { x with late := satInc x.late, maxLate := if x.maxLate.toNat < lateness then BitVec.ofNat 32 lateness else x.maxLate }

/-- An item that takes an entry of its own (R311): the push that a released start leaves behind is none. -/
def TEvent.isItem (t : TEvent) : Bool := match t.act with | .push _ _ _ => false | _ => true

/-- Items of session `i` on the timeline or in its parked buffers (R311, R313); one in the intake FIFO has not entered (R310). -/
def queuedOf (i : Nat) (s : State) : Nat :=
  let mine := fun (l : List TEvent) => (l.filter fun t => t.session == some i && t.isItem).length
  mine s.se.timeline + (s.session i).parkedEvents.length + s.uarts.foldl (fun a u => a + mine u.2.buf) 0

/-- A parked session (R313). -/
def State.parked (s : State) (i : Nat) : Bool := (s.session i).isOpen && (s.session i).slot == 255

/-- Whether an item takes one of the Conductor's entries: its session is parked (R311). -/
def State.conductorItem (s : State) (t : TEvent) : Bool := match t.session with | some i => s.parked i | none => false

/-- Pool entries in use: items of sessions held in hardware, and of no session (R311). -/
def State.poolUsed (s : State) : Nat := (s.se.timeline.filter fun t => t.isItem && !s.conductorItem t).length

/-- Conductor entries in use: items of parked sessions, those of UART intake buffers apart (R311, R313). -/
def State.conductorUsed (s : State) : Nat :=
  (s.se.timeline.filter fun t => t.isItem && s.conductorItem t).length + (openSessions s).foldl (fun a k => a + (s.session k).parkedEvents.length) 0

/-- Room for `n` more items of a session, or of none (R311, R313). -/
def State.roomFor (s : State) (sid : Option Nat) (n : Nat) : Bool :=
  match sid with
  | none => decide (s.poolUsed + n ≤ 32768)
  | some i =>
    (if s.parked i then decide (s.conductorUsed + n ≤ 4096) else decide (s.poolUsed + n ≤ 32768))
    && decide (queuedOf i s + n ≤ (s.session i).queueLimit)

/-- Room for `n` items of a session that they open: it opens parked when all 160 slots are held, and not at all when 256 are open (R300, R313). -/
def State.roomForNew (s : State) (n : Nat) : Bool :=
  if (openSessions s).length < 256 ∧ freeSlot s = 255 then decide (s.conductorUsed + n ≤ 4096) else decide (s.poolUsed + n ≤ 32768)

/-- Room for `n` mailbox items on channel `ch`: the pool of 32,768 entries (4,096 when parked) and QUEUE_LIMIT (R311, R313). -/
def poolRoom (ch n : Nat) (s : State) : Bool := match mailboxSession ch s with | some i => s.roomFor (some i) n | none => s.roomForNew n

/-- Put an item on the timeline; it takes the next entry number (R309, R311). -/
def enterTimeline (t : TEvent) (s : State) : State :=
  { s with se := { s.se with timeline := s.se.timeline ++ [{ t with order := s.se.order }], order := s.se.order + 1 } }

/-- RANK of a session, or the default (R299, R309). -/
def State.rankOf (s : State) (sid : Option Nat) : Byte := match sid with | some i => (s.session i).rank | none => 128

/-- Waits for its stamp: ACCEPTED now (R75); it takes a place on the timeline with its release key (R309, R311). `ws` are the
card's words under ACCEPTED. -/
def queueStamped (op : Nat) (e : Entry) (jb : Job) (key : Word) (ws : List Word) (s : State) : State :=
  let j := s.mbx.nextJ
  let sid := mailboxSession e.ch s
  let s1 := addJob { jb with j := j, opcode := op, e := e, phase := .timeline } (journalAdd op e .queued 0 0 s)
  let s2 := enterTimeline { stamp := jb.stamp, key := key, bay := jb.bay, session := sid, act := .cmd j } s1
  answer e stAccepted j ws false (markAnswered j s2)

-- cards and validation -------------------------------------------------------------------------------------------------

/-- A command card (R9): what validation needs and how the command is carried out. -/
structure Card where
  opcode : Nat
  /-- JOURNAL.QUERY, SYS.NOP and CONFIG.EPOCH are not journalled (R91) -/
  journalled : Bool := true
  /-- "device" stands in the Modes allowed row -/
  device : Bool := true
  /-- Bay modes listed -/
  modes : List Mode := []
  /-- step 4 -/
  len : Entry → Bool
  /-- step 5, beyond the header and TARGET -/
  range : Entry → State → Bool := fun _ _ => true
  /-- step 6 -/
  flags : Entry → State → Bool := fun e _ => !e.stage && !e.stamped
  /-- the timeline a stamp is read on: a Bay, or 255 (R29) -/
  timeline : Entry → State → Nat := fun e _ => if e.target.toNat < 8 then e.target.toNat else 255
  /-- whether a stamped command waits as an item of the event pool (R311) -/
  pooled : Bool := true
  /-- steps 8 to 10 -/
  pre : Entry → State → Option Fail := fun _ _ => none
  /-- steps 11 to 14 in their order, after the mode check -/
  post : Entry → State → Option Fail := fun _ _ => none
  /-- step 14: fields that must agree -/
  agree : Entry → State → Bool := fun _ _ => true
  /-- step 14: a conflict that carries words of its own (R81) -/
  conflict : Entry → State → Option Fail := fun _ _ => none
  /-- what a refused command does besides its answer -/
  onFail : Entry → Fail → State → State := fun _ _ s => s
  /-- what is done once every check has passed; the journal index is `s.mbx.nextJ` -/
  run : Entry → State → State

/-- TARGET allowed by the card (step 5, R69). -/
def targetOk (c : Card) (e : Entry) (s : State) : Bool :=
  if e.target = 0xFF then c.device
  else s.formed e.target.toNat && !c.modes.isEmpty

/-- The mode of the Bay that TARGET names is one the card lists (step 11, R69, R284). -/
def modeOk (c : Card) (e : Entry) (s : State) : Bool :=
  e.target == 0xFF || c.modes.contains (s.bay (s.acting e.target.toNat)).mode

/-- The late policy that governs a channel's stamped commands (R36). -/
def dropLate (ch : Nat) (s : State) : Bool :=
  match mailboxSession ch s with
  | none => false
  | some i => (s.session i).dropLate

/-- Lateness of a stamped command in ticks (R34). -/
def lateness (c : Card) (e : Entry) (s : State) : Nat := (-(stampDist e.stamp (s.reachOf (c.timeline e s)))).toNat

/-- Whether a stamped command is late (R31). -/
def isLate (c : Card) (e : Entry) (s : State) : Bool :=
  e.stamped && classify e.stamp (s.reachOf (c.timeline e s)) == .late

/-- Steps 4 to 15 of the table Validation order: the first check that fails (R70). -/
def validate (c : Card) (e : Entry) (s : State) : Option Fail :=
  firstFail
    [ need (c.len e) eLength,
      need (decide (e.rsv = 0) && targetOk c e s && c.range e s) eRange,
      need (c.flags e s) eConflict,
      need (!(e.stamped && classify e.stamp (s.reachOf (c.timeline e s)) == .range)) eStampRange,
      c.pre e s,
      need (modeOk c e s) eState,
      c.post e s,
      need (!(e.stamped && c.pooled) || poolRoom e.ch 1 s) eNoslot,
      need (c.agree e s) eConflict,
      c.conflict e s,
      (if isLate c e s && dropLate e.ch s then some (eLate, [BitVec.ofNat 32 (lateness c e s)]) else none) ]

/-- The stamp at which a stamped command acts: its stamp, or the reach point when it is late (R34). -/
def effStamp (c : Card) (e : Entry) (s : State) : Word :=
  if isLate c e s then s.reachOf (c.timeline e s) else e.stamp

/-- Opens the session of a stamped command and counts its lateness (R34, R36). A stamped command that validation refuses opens none: the rule says
"the first stamped command" only (DESIGN CHOICE, log entry 136). -/
def stampAdmit (c : Card) (e : Entry) (s : State) : State :=
  if e.stamped then
    let s1 := ensureMailboxSession e.ch s
    if isLate c e s then countLate (mailboxSession e.ch s1) (lateness c e s) s1 else s1
  else s

/-- Consume the sequence of a command that passed the sequence check (R68). -/
def consumeSeq (e : Entry) (s : State) : State :=
  s.setChan e.ch { s.chan e.ch with expectSeq := e.seq + 1, seqFree := false }

/-- Advance the command consumer index past an entry (R58); a doorbell covers every entry up to the producer index (R72). -/
def advanceCi (e : Entry) (s : State) : State :=
  let c := s.chan e.ch
  let ci := c.cmdCi + BitVec.ofNat 11 (entryLen e)
  s.setChan e.ch { c with cmdCi := ci, doorbell := c.doorbell && ci != c.cmdPi }

/-- Answer a command that is not journalled (R70). -/
def answerUnjournalled (e : Entry) (f : Fail) (s : State) : State := answer e f.1 0 f.2 true s

/-- A command entry that cannot be framed (R71): answered E_LENGTH, unjournalled; the ring is discarded up to the
producer index, DESYNC and SEQ_FREE set; the rotation goes on after its channel (R72). -/
def desync (e : Entry) (s : State) : State :=
  let s1 := respond e.ch { status := eLength, seq := e.seq, jindex := 0 } s
  let s2 := s1.setChan e.ch { s1.chan e.ch with cmdCi := (s1.chan e.ch).cmdPi, desync := true, seqFree := true, doorbell := false }
  { s2 with mbx := { s2.mbx with lastServed := e.ch } }

/-- Steps 1 and 2 and the journal slot (R70, R85): why the command is refused unjournalled, and whether its sequence is
consumed. -/
def admission (_c : Card) (e : Entry) (s : State) : Option (Fail × Bool) :=
  if e.version ≠ 1 then some ((eOpcode, []), false)
  else if !(s.chan e.ch).seqFree && e.seq != (s.chan e.ch).expectSeq then
    some ((eSequence, [BitVec.ofNat 32 (s.chan e.ch).expectSeq.toNat, (s.chan e.ch).lastJ]), false)
  else if journalFull s then some ((eNoslot, []), true)
  else none

/-- The Conductor takes one entry that can be framed: admission, validation, and the card's own run (R70 to R72). -/
def takeEntry (c : Card) (e : Entry) (s0 : State) : State :=
  let s := { advanceCi e s0 with mbx := { (advanceCi e s0).mbx with lastServed := e.ch } }
  match admission c e s with
  | some (f, consumed) => answerUnjournalled e f (if consumed then consumeSeq e s else s)
  | none =>
    let s1 := consumeSeq e s
    match validate c e s1 with
    | some f => if c.journalled then rejectNow c.opcode e f (c.onFail e f s1) else answerUnjournalled e f (c.onFail e f s1)
    | none => c.run e (stampAdmit c e s1)

/-- Reads the fields an entry's two header words spell (R66). -/
def parseHeader (w0 w1 : Word) (ch : Nat) : Entry :=
  { ch := ch, version := BitVec.ofNat 4 (bits w0 31 28), seq := BitVec.ofNat 16 (bits w0 15 0), stage := bit w1 31, stamped := bit w1 30,
    quiet := bit w1 29, rsv := BitVec.ofNat 5 (bits w1 28 24), target := BitVec.ofNat 8 (bits w1 23 16) }

/-- The entry at the consumer index of a channel: its opcode, the entry, and whether it can be framed (R58, R66, R71). -/
def readEntry (ch : Nat) (s : State) : Nat × Entry × Bool :=
  let c := s.chan ch
  let rd := fun k => Mem.word s.mem.win (cmdRingWord ch (c.cmdCi.toNat + k))
  let h := parseHeader (rd 0) (rd 1) ch
  let len := bits (rd 1) 15 0
  let hw := 2 + b2n h.stamped
  let e := { h with stamp := if h.stamped then rd 2 else 0,
                    payload := if hw + len ≤ 1024 then (List.range len).map fun i => rd (hw + i) else [] }
  (bits (rd 0) 27 16, e, decide (hw + len ≤ 1024) && decide (hw + len ≤ ringUsed c.cmdPi c.cmdCi))

/-- A card for an opcode that is not assigned: E_OPCODE, journalled (steps 3, R70). -/
def unassigned (op : Nat) (e : Entry) (s0 : State) : State :=
  let s := advanceCi e s0
  let c : Card := { opcode := op, len := fun _ => true, run := fun _ t => t }
  match admission c e s with
  | some (f, consumed) => answerUnjournalled e f (if consumed then consumeSeq e s else s)
  | none => rejectNow op e (eOpcode, []) (consumeSeq e s)

end Sys2Proof.Machine
end

