-- ==== Sys2Proof/Machine/Dispatcher.lean ====
section
/-! DEFINITION. The Dispatcher's work queues, its trace, and the commands of the two (chapter 08, R252 to R267). -/

namespace Sys2Proof.Machine

-- the trace (R261 to R263) ---------------------------------------------------------------------------------------------------

/-- Records of the trace ring: 2^k (R266). -/
def traceSize (s : State) : Nat := 2 ^ s.dsp.trK.toNat

/-- Records the trace ring has room for; one always stays unused (R261). -/
def traceFree (s : State) : Nat :=
  let n := traceSize s
  (s.dsp.trRi.toNat % n + n - 1 - s.dsp.trWi.toNat % n + n) % n

/-- Write a record at the write index and advance it (R261). -/
def traceWrite (rec : List Word) (s : State) : State :=
  { s with mem := { s.mem with win := Mem.putWords s.mem.win (s.dsp.trBase.toNat / 4 + 4 * s.dsp.trWi.toNat) rec },
           dsp := { s.dsp with trWi := BitVec.ofNat 15 ((s.dsp.trWi.toNat + 1) % traceSize s) } }

/-- The four words of a record (R262). -/
def traceRec (ty unit : Nat) (frame : BitVec 48) (clk bay slot : Nat) (w2 w3 : Word) : List Word :=
  [pack [(ty, 26), (unit, 16), (frame.toNat % 65536, 0)], pack [(Nat.min clk 0xFFFF, 16), (bay, 13), (slot, 0)], w2, w3]

/-- Put a record into the ring, or drop and count it; the first that fits again follows a Records lost record (R263). -/
def tracePut (rec : List Word) (s : State) : State :=
  if s.dsp.trGap = 0 then
    if 1 ≤ traceFree s then traceWrite rec s
    else { s with dsp := { s.dsp with trLost := satInc s.dsp.trLost, trGap := satInc s.dsp.trGap } }
  else if 2 ≤ traceFree s then
    let s1 := traceWrite (traceRec 0x0E 0xFF s.time.frameCount s.time.clk 0 0 0 s.dsp.trGap) s
    traceWrite rec { s1 with dsp := { s1.dsp with trGap := 0 } }
  else { s with dsp := { s.dsp with trLost := satInc s.dsp.trLost, trGap := satInc s.dsp.trGap } }

/-- A decision on the device timeline: types 0x0B to 0x0E (R262). -/
def traceDevice (ty unit : Nat) (w2 w3 : Word) (s : State) : State :=
  if s.dsp.traceEn && s.dsp.trMask.getLsbD ty then
    tracePut (traceRec ty unit s.time.frameCount s.time.clk 0 0 w2 w3) s
  else s

/-- clk since the tick of the frame of Bay `b`'s timeline: of the device frame, or of a RENDER Bay's own (R262). -/
def State.frameClk (s : State) (b : Nat) : Nat :=
  if s.ownTimeline b then s.time.clkCount - (s.bay (s.timelineBay b)).startClk else s.time.clk

/-- A decision of Bay `b`; those of a MIRROR Bay are not traced (R261). -/
def traceBay (ty unit b slot : Nat) (w2 w3 : Word) (s : State) : State :=
  if s.dsp.traceEn && s.dsp.trMask.getLsbD ty && (s.bay b).mode != .mirror then
    tracePut (traceRec ty unit (s.frameOf b) (s.frameClk b) b slot w2 w3) s
  else s

-- work queues (R252 to R258) -----------------------------------------------------------------------------------------------------

/-- Depth of a work queue (R252). -/
def queueDepth (q : Nat) : Nat :=
  match q with
  | 0 => 512
  | 3 => 16
  | 4 => 128
  | _ => 64

/-- A work queue, oldest first. -/
def State.queue (s : State) (q : Nat) : List (List Word) := s.dsp.queues.look q []

/-- Replace a work queue. -/
def State.setQueue (s : State) (q : Nat) (es : List (List Word)) : State := { s with dsp := { s.dsp with queues := s.dsp.queues.put q es } }

/-- UNIT code of an asker or software producer: service cores 0 to 3, Conductors A and B (R262). -/
def unitCode (who : Nat) : Nat := if who < 4 then 0x80 + who else 0xC0 + (who - 4)

/-- Producer order (R255): 1 Dispatcher, 2 Session Engine, 3 Vault, 4 Health Monitor, 5 active Conductor, 6 service cores. -/
def producerOf (who : Nat) : Nat := if who < 4 then 6 else 5

/-- The active Conductor's work-register index. -/
def State.activeCond (s : State) : Nat := 4 + b2n s.mbx.activeB

/-- Give entry `e` of queue `q` to `who` (R253): the preferred-core bits are cleared, and the decision is traced. -/
def giveEntry (who q : Nat) (e : List Word) (s : State) : State :=
  let c := s.svc who
  let w0 := (e.getD 0 0) &&& ~~~(if q < 4 then 0x00F80000 else 0 : Word)
  let s1 := s.setSvc who { c with task := w0 :: (e.drop 1).take 3, lastAsk := BitVec.ofNat 3 q, waiting := false, waited := 0 }
  traceDevice 0x0D (unitCode who) (BitVec.ofNat 32 q) (BitVec.ofNat 32 (Nat.min c.waited 0xFFFFFFFF)) s1

/-- DSP_ASKMASK as unit `who` reads it: 0x0 on a Conductor (R260). -/
def State.askMask (s : State) (who : Nat) : BitVec 4 := if who < 4 then (s.svc who).mask else 0

/-- Service cores that wait with queue `q` in their mask (R253). -/
def waitersFor (q : Nat) (s : State) : List Nat :=
  if q < 4 then (List.range 4).filter fun i => (s.svc i).waiting && (s.askMask i).getLsbD q
  else if (s.svc s.activeCond).waiting then [s.activeCond] else []

/-- The asker an entry goes to: its preferred core when that waits, else the lowest-numbered (R253). -/
def pickWaiter (q : Nat) (e : List Word) (s : State) : Option Nat :=
  let ws := waitersFor q s
  let pref := bits (e.getD 0 0) 23 19
  if q < 4 ∧ 0 < pref ∧ ws.contains (pref - 1) then some (pref - 1) else ws.head?

/-- The asker that takes a post at once: one that waits over an empty queue (R252, R253). -/
def directAsker (q : Nat) (e : List Word) (s : State) : Option Nat := if (s.queue q).isEmpty then pickWaiter q e s else none

/-- Enter an entry into its queue, or give it at once; `none` when the queue is full (R253, R256). -/
def enterQueue (q : Nat) (e : List Word) (s : State) : Option State :=
  match directAsker q e s with
  | some w => some (giveEntry w q e s)
  | none => if (s.queue q).length < queueDepth q then some (s.setQueue q (s.queue q ++ [e])) else none

/-- Count and trace a refused post (R256). -/
def countRefused (unit producer q : Nat) (s : State) : State :=
  traceDevice 0x0B unit (pack [(producer, 8), (q, 0)]) 0 { s with dsp := { s.dsp with refused := satInc s.dsp.refused } }

/-- A hardware producer keeps a post (R257). -/
def keepPost (p : Nat × Nat × List Word) (s : State) : State := { s with dsp := { s.dsp with repost := s.dsp.repost ++ [p] } }

/-- A try of a hardware producer's post: a refused one is counted and kept (R256, R257). -/
def tryPost (p : Nat × Nat × List Word) (s : State) : State :=
  match enterQueue p.2.1 p.2.2 s with
  | some t => t
  | none => keepPost p (countRefused 0xFF p.1 p.2.1 s)

/-- Producer `p` (1 to 4) keeps a refused post. -/
def State.keeps (s : State) (p : Nat) : Bool := s.dsp.repost.any fun x => x.1 == p

/-- A post of a hardware producer (1 to 4); behind posts that it keeps, a new one waits with them (R257). -/
def hwPost (producer q : Nat) (e : List Word) (s : State) : State :=
  if s.keeps producer then keepPost (producer, q, e) s else tryPost (producer, q, e) s

/-- The kept posts are posted again, in order (R257). -/
def repostAll (ps : List (Nat × Nat × List Word)) (s : State) : State :=
  match ps with
  | [] => s
  | p :: r => repostAll r (tryPost p s)

/-- HARDWARE_REPOST of a frame tick (R257): in producer order (R255), each producer's oldest first. -/
def hardwareRepost (s : State) : State :=
  repostAll ([1, 2, 3, 4].flatMap fun p => s.dsp.repost.filter fun x => x.1 == p) { s with dsp := { s.dsp with repost := [] } }

/-- An entry of a hardware producer: KIND 2 with its queue, or KIND 3; its argument words are not given by the spec and
are free values (log entry 10). -/
def hwEntry (q : Nat) (s : State) : List Word :=
  [if q = 4 then pack [(3, 30), (1, 28), (0xFF, 16)] else pack [(2, 30), (1, 28), (q, 16)], 0,
   Config.free32 s.freeCtr, Config.free32 (s.freeCtr + 1)]

/-- Post an entry of a hardware producer. -/
def hwPostNew (producer q : Nat) (s : State) : State := hwPost producer q (hwEntry q s) s.fresh.fresh

/-- Hardware posts to COND with an argument, in word 3 of the entry. -/
def condPost (producer : Nat) (arg : Word) (s : State) : State :=
  hwPost producer 4 [pack [(3, 30), (1, 28), (0xFF, 16)], 0, Config.free32 s.freeCtr, arg] s.fresh

/-- The queue an entry names: COND for a Conductor task, else word 0 [18:16] (R239). -/
def entryQueue (e : List Word) : Nat := if bits (e.getD 0 0) 31 30 = 3 then 4 else bits (e.getD 0 0) 18 16

/-- End a stall with the value its DSP_POST_GO read returns (R258); the stall is traced. -/
def endStall (who : Nat) (result : BitVec 1) (s : State) : State :=
  let c := s.svc who
  let s1 := s.setSvc who { c with stall := none, stalledFor := 0, goResult := result }
  traceDevice 0x0C (unitCode who) (pack [(producerOf who, 8), (c.stall.getD 0, 0)]) (BitVec.ofNat 32 c.stalledFor)
    { s1 with dsp := { s1.dsp with stalls := s1.dsp.stalls.filter fun w => w != who } }

/-- A slot of queue `q` has become free: the producer stalled longest at it completes its post (R258). -/
def releaseStall (q : Nat) (s : State) : State :=
  match s.dsp.stalls.find? fun w => (s.svc w).stall == some q with
  | none => s
  | some w => endStall w 0 (s.setQueue q (s.queue q ++ [(s.svc w).post]))

/-- The oldest entry of queue `q` goes to `who` (R252, R253). -/
def giveOldest (who q : Nat) (s : State) : State :=
  match s.queue q with
  | [] => s
  | e :: r => releaseStall q (giveEntry who q e (s.setQueue q r))

/-- DSP_ASK of `who`: the lowest-numbered queue it may take from that holds an entry, else it blocks (R253, R254). -/
def askWork (who : Nat) (s : State) : State :=
  let c := s.svc who
  let qs := if who < 4 then (List.range 4).filter fun q => (s.askMask who).getLsbD q else if who = s.activeCond then [4] else []
  match qs.find? fun q => !(s.queue q).isEmpty with
  | some q => giveOldest who q s
  | none => s.setSvc who { c with waiting := true, waited := 0 }

/-- The read that a Conductor blocked on completes when it becomes active: it takes the oldest entry left (R254). -/
def answerActive (s : State) : State := if (s.svc s.activeCond).waiting then giveOldest s.activeCond 4 s else s

/-- DSP_ASK (R253 to R255). -/
def execDspAsk (who : Nat) (s : State) : Outcome := withUnit who 6 (.next (askWork who s))

/-- DSP_POST_GO of `who` (R256, R258). An entry that names no queue enters none and is refused (DEDUCED, log entry 21). -/
def postGo (who : Nat) (s : State) : State :=
  let c := s.svc who
  let e := (List.range 4).map fun i => c.post.getD i 0
  let q := entryQueue e
  let refuse := countRefused (unitCode who) (producerOf who) q (s.setSvc who { c with goResult := 1 })
  if 5 ≤ q then refuse
  else match enterQueue q e s with
    | some t => t.setSvc who { t.svc who with goResult := 0 }
    | none =>
      if s.dsp.backpressure then
        let s1 := s.setSvc who { c with stall := some q, stalledFor := 0, post := e }
        { s1 with dsp := { s1.dsp with stalls := s1.dsp.stalls ++ [who], stalled := satInc s1.dsp.stalled } }
      else refuse

/-- DSP_POST_GO (R256). A producer whose post is stalled waits for its read to return (R258). -/
def execDspPostGo (who : Nat) (s : State) : Outcome :=
  withUnit who 6 (.next (if (s.svc who).stall.isSome then s else postGo who s))

/-- STALL_TIMEOUT: a stall that reaches 2,000 clk returns 1 and counts as a refusal (R258). -/
def execStallTimeout (who : Nat) (s : State) : Outcome :=
  withUnit who 6 <| .next <|
    match (s.svc who).stall with
    | none => s
    | some q => countRefused (unitCode who) (producerOf who) q (endStall who 1 s)

/-- DSP_FLAG: sets or clears S of a task; a write that names no task, or a FLAG other than 3, is ignored and counted
(R260). Every core is within the reach of a service core and of the Conductor. -/
def setTaskFlag (v : Word) (s : State) : State :=
  let k := bits v 21 16
  let ctx := bits v 13 8
  match (s.core k).tasks.find ctx with
  | some t =>
    if bits v 3 0 = 3 then s.setCore k { s.core k with tasks := (s.core k).tasks.put ctx { t with flags := setBit t.flags 3 (bit v 24) } }
    else { s with dsp := { s.dsp with refused := satInc s.dsp.refused } }
  | none => { s with dsp := { s.dsp with refused := satInc s.dsp.refused } }

/-- DSP_FLAG (R260). -/
def execDspFlag (who : Nat) (v : Word) (s : State) : Outcome := withUnit who 6 (.next (setTaskFlag v s))

-- registers and commands ------------------------------------------------------------------------------------------------------------

/-- DSP_STATUS (R259). -/
def State.dspStatus (s : State) : Word :=
  pack [(s.dsp.refused.toNat, 24), (s.dsp.stalled.toNat, 16), (s.dsp.skipped.toNat, 8), (s.dsp.preemptHeld.toNat, 0)]

/-- DISPATCH.SET (R264): stages BACKPRESSURE. -/
def cardDispatchSet : Card where
  opcode := 0x030
  len := fun e => e.payload.length == 1
  range := fun e _ => bits (e.pw 0) 31 1 == 0
  flags := fun e _ => !e.stamped
  post := fun _ s => stageChecks [.backpressure] s
  run := fun e s => stageFields 0x030 e [{ field := .backpressure, value := [e.pw 0] }] s

/-- Result words of DISPATCH.STATUS (R265). -/
def dispatchWords (s : State) : List Word :=
  let n := fun q => (s.queue q).length
  [s.dspStatus, pack [(n 0, 16), (n 1, 0)], pack [(n 2, 16), (n 3, 0)], pack [(n 4, 0)],
   pack ((List.range 4).map fun i => (b2n (s.svc i).waiting, i))]

/-- DISPATCH.STATUS (R265). -/
def cardDispatchStatus : Card where
  opcode := 0x031
  len := fun e => e.payload.length == 1
  range := fun e _ => bits (e.pw 0) 31 1 == 0
  run := fun e s =>
    finishNow 0x031 e (dispatchWords s)
      (if bit (e.pw 0) 0 then { s with dsp := { s.dsp with refused := 0, stalled := 0, skipped := 0, preemptHeld := 0 } } else s)

/-- The whole ring lies within 0x0004_0000 to 0x000F_FFFF (R266). -/
def dataRegion (off len : Nat) : Bool := decide (0x40000 ≤ off) && decide (off + len ≤ 0x100000)

/-- TRACE.SET (R266): LIVE, at the next device frame boundary. -/
def cardTraceSet : Card where
  opcode := 0xC00
  len := fun e => e.payload.length == 4
  range := fun e _ =>
    bits (e.pw 0) 31 1 == 0 && (e.pw 1).toNat % 16 == 0 && bits (e.pw 2) 31 4 == 0 && decide (6 ≤ bits (e.pw 2) 3 0)
    && (e.pw 3 &&& 0xFFFF0001 == 0) && dataRegion (e.pw 1).toNat (16 * 2 ^ bits (e.pw 2) 3 0)
  run := fun e s => queueBoundary 0xC00 e {} s

/-- At its boundary TRACE.SET sets the ring and mask, both indices to 0, and clears the loss count (R266). -/
def applyTraceSet (e : Entry) (s : State) : State :=
  { s with dsp := { s.dsp with traceEn := bit (e.pw 0) 0, trBase := e.pw 1, trK := BitVec.ofNat 4 (bits (e.pw 2) 3 0),
                               trMask := e.pw 3, trWi := 0, trRi := 0, trLost := 0, trGap := 0 } }

/-- TRACE.STATUS (R267). -/
def cardTraceStatus : Card where
  opcode := 0xC01
  len := fun e => e.payload.length == 0
  run := fun e s =>
    finishNow 0xC01 e [pack [(s.dsp.trK.toNat, 4), (b2n s.dsp.traceEn, 0)], s.dsp.trBase, s.dsp.trLost,
                       pack [(s.dsp.trRi.toNat, 16), (s.dsp.trWi.toNat, 0)]] s

end Sys2Proof.Machine
end

