-- ==== Sys2Proof/Machine/Params.lean ====
section
/-! DEFINITION. The parameter space (chapter 06, R185 to R192; R97, R161, R352): descriptors, base values, smoothing,
writes, and override groups. -/

namespace Sys2Proof.Machine

/-- What a descriptor holds (R186): type, class (0 LIVE, 1 STAGED, 2 HALTED, 3 none), range, reset value, smoothing time in us, whether it
is read only, and a packed-field check beyond the range. -/
structure Desc where
  typ : Nat
  cls : Nat := 0
  lo : Word := 0
  hi : Word
  reset : Word := 0
  smooth : Nat := 0
  ro : Bool := false
  packed : Word → Bool := fun _ => true

/-- 1 - 2^-23 as an endpoint. -/
def fracOne : Word := 0x007FFFFF
/-- -1 as an endpoint. -/
def fracMinus : Word := 0xFF800000

/-- A FRAC of 0 to 1. -/
def descUnit (reset : Word) (smooth : Nat) : Desc := { typ := 0, hi := fracOne, reset := reset, smooth := smooth }
/-- A FRAC of ±1. -/
def descSigned (reset : Word) (smooth : Nat) : Desc := { typ := 0, lo := fracMinus, hi := fracOne, reset := reset, smooth := smooth }
/-- A UINT. -/
def descUint (lo hi reset : Nat) (smooth : Nat := 0) : Desc :=
  { typ := 1, lo := BitVec.ofNat 32 lo, hi := BitVec.ofNat 32 hi, reset := BitVec.ofNat 32 reset, smooth := smooth }
/-- An ENUM from 0 to `hi`. -/
def descEnum (hi reset : Nat) : Desc := { typ := 2, hi := BitVec.ofNat 32 hi, reset := BitVec.ofNat 32 reset }
/-- A TIME from 0 to 10,000,000 us. -/
def descTime : Desc := { typ := 3, hi := 10000000 }
/-- A FREQ between two numbers of semitones. -/
def descFreq (lo hi : Int) (reset : Word) (smooth : Nat) : Desc :=
  { typ := 4, lo := BitVec.ofInt 32 (lo * 65536), hi := BitVec.ofInt 32 (hi * 65536), reset := reset, smooth := smooth }

/-- Types that are signed (R186). -/
def Desc.signed (d : Desc) : Bool := d.typ == 0 || d.typ == 4

/-- A value within the descriptor's range (R187). -/
def Desc.inRange (d : Desc) (v : Word) : Bool :=
  (if d.signed then decide (d.lo.toInt ≤ v.toInt) && decide (v.toInt ≤ d.hi.toInt) else decide (d.lo.toNat ≤ v.toNat) && decide (v.toNat ≤ d.hi.toNat))
  && d.packed v

/-- A partner event's value clamped to the nearer end of the range (R187). -/
def Desc.clamp (d : Desc) (v : Word) : Word :=
  if d.signed then (if v.toInt < d.lo.toInt then d.lo else if d.hi.toInt < v.toInt then d.hi else v)
  else (if v.toNat < d.lo.toNat then d.lo else if d.hi.toNat < v.toNat then d.hi else v)

/-- OSC_CFG k: fields in range (R146, R191). -/
def oscCfgOk (k : Nat) (v : Word) : Bool :=
  decide (bits v 2 0 ≤ 4) && decide (bits v 4 3 ≤ 2) && decide (bits v 6 5 ≤ 2)
  && (bits v 13 10 == 0xF || decide (bits v 13 10 < k)) && bits v 31 14 == 0

/-- Template parameters 0x00 to 0x7F (R191). -/
def templateDesc (p : Nat) : Option Desc :=
  if p < 0x30 then
    match p % 6 with
    | 0 => some { descUint 0 0x3FD4 (if p = 0 then 0x3C0B else 0x3C00) with packed := oscCfgOk (p / 6) }
    | 1 => some (descFreq (-96) 96 0 1000)
    | 2 => some (descSigned 0x00400000 5000)
    | 3 => some (descSigned 0 5000)
    | 4 => some { descUint 0 0xFFFFFFFE 0 with packed := fun v => v != 0x80000000 }
    | _ => some (descUint 0 0xFFFFFF 0)
  else if p < 0x40 then
    match p % 8 with
    | 0 => some (descEnum 2 (if p = 0x30 then 2 else 0))
    | 1 => some { typ := 5, hi := 63, reset := if p = 0x31 then 1 else 0 }
    | 2 => some (descFreq (-54) 67 0x00430000 2000)
    | 3 => some (descUnit 0 2000)
    | 4 => some (descSigned 0 0)
    | _ => none
  else if p = 0x40 then some (descEnum 2 0)
  else if p = 0x41 then some (descUnit fracOne 5000)
  else if p = 0x42 then some (descUnit fracOne 0)
  else if p = 0x43 then some (descSigned 0 5000)
  else if p < 0x48 then some (descUnit 0 5000)
  else if p < 0x54 then (if p % 2 = 0 then some (descSigned 0 0) else some (descUnit fracOne 5000))
  else if p < 0x64 then
    match p % 4 with
    | 0 => some (descFreq (-192) 12 0xFFB80000 2000)
    | 1 => some (descEnum 6 0)
    | _ => some descTime
  else none

/-- A route's value (R178, R179): SRC 0, or an assigned source and a destination of type FRAC or FREQ; bit [23] 0. -/
def routeOk (v : Word) : Bool :=
  bit v 23 == false &&
  (bits v 31 24 == 0 || (decide (bits v 31 24 ≤ 48) && (match templateDesc (bits v 22 16) with | some d => d.signed | none => false)))

/-- Scope 1: every template parameter (R161, R179, R191). -/
def scope1Desc (p : Nat) : Option Desc :=
  if p < 0x80 then templateDesc p
  else if p < 0xE0 then some { descUint 0 0x307FFFFF 0 with packed := routeOk }
  else match p with
    | 0xE0 => some (descUint 0 1000 50)
    | 0xE1 => some (descUint 1 1000 20)
    | 0xE2 => some (descUint 1 1000 10)
    | 0xE3 => some (descUint 1 5000 100)
    | 0xE4 => some (descEnum 2 1)
    | 0xE5 => some (descUint 0 3 0)
    | 0xE6 => some (descEnum 1 0)
    | 0xE7 => some (descUint 0 0xFFFFFF 0)
    | _ => none

/-- An even bus number (R192). -/
def descBus : Desc := { descUint 0 254 0 with packed := fun v => v.toNat % 2 == 0 }

/-- Scope 0: part parameters (R97, R192). -/
def scope0Desc (p : Nat) : Option Desc :=
  if p = 0x00 then some (descUnit fracOne 5000)
  else if p = 0x01 then some (descSigned 0 5000)
  else if p < 0x07 then some descBus
  else if p = 0x07 then some (descSigned 0 1000)
  else if p = 0x08 then some (descFreq 0 96 0x00020000 0)
  else if p = 0x09 then some (descFreq 0 96 0x00300000 0)
  else if p = 0x0A then some (descUnit 0 2000)
  else if p = 0x0B then some (descEnum 1 0)
  else if p = 0x0C then some (descEnum 3 0)
  else if p = 0x0D then some descTime
  else if p < 0x10 then none
  else if p < 0x18 then some (descSigned 0 2000)
  else if p < 0x20 then none
  else if p < 0x40 then
    match p % 4 with
    | 0 => some (descFreq (-192) 12 0xFFB80000 0)
    | 1 => some (descEnum 6 0)
    | 2 => some (descUint 0 0xFFFFFFFF 0)
    | _ => none
  else match p with
    | 0xEF => some { descUint 0 0xFFFFFFFF 0 with cls := 3, ro := true }
    | 0xF0 => some { descUint 0 7 0 with cls := 1 }
    | 0xF1 => some (descUint 0 2048 2048)
    | 0xF2 => some { descUint 0 2048 0 with cls := 1 }
    | 0xF3 => some (descUint 0 255 128)
    | 0xF4 => some (descEnum 2 0)
    | 0xF5 => some (descUint 5 200 20)
    | 0xF6 => some (descUint 0 255 0)
    | _ => none

/-- "Not replaced" in an override group (R184). -/
def notReplaced : Word := 0x80000000

/-- Scope 2: override group parameters (R184). -/
def scope2Desc (p : Nat) : Option Desc :=
  if p < 0xE0 then (scope1Desc p).map fun d => { d with reset := notReplaced }
  else if p = 0xF0 then some (descSigned 0 0)
  else if p = 0xF1 then some (descUnit 0 0)
  else if 0xF2 ≤ p ∧ p ≤ 0xF9 then some (descSigned 0 0)
  else if p = 0xFF then some { descUint 0 0xFFFFFFFF 0 with cls := 3, ro := true }
  else none

/-- Source codes of a bus input (R352). -/
def inputCodeOk (v : Word) : Bool :=
  v == 0 || (decide (0x100 ≤ v.toNat) && decide (v.toNat < 0x308))

/-- Scope 3: bus parameters (R352), and from 0x40 on what the descriptor table of the effect program in slot `o` gives (R185; the table
itself is not in the spec, log entry 22). -/
def scope3Desc (o p : Nat) : Option Desc :=
  if 0x40 ≤ p then (Config.effectParam o p).map fun d => { typ := d.typ, cls := d.cls, lo := d.lo, hi := d.hi, reset := d.reset, smooth := d.smooth }
  else match p with
  | 0 => some (descUnit fracOne 5000)
  | 1 => some (descEnum 1 0)
  | 2 => some { descUint 0 0x307 0 with packed := inputCodeOk }
  | 3 => some (descSigned fracOne 5000)
  | 4 => some { descUint 0 0xFFFFFF 0 with cls := 3, ro := true }
  | _ => none

/-- The descriptor of an endpoint address; `none` when it is unassigned (R185, R186). -/
def descOf (a : Nat) : Option Desc :=
  let p := a % 256
  match a / 65536 with
  | 0 => scope0Desc p
  | 1 => scope1Desc p
  | 2 => scope2Desc p
  | 3 => scope3Desc (a / 256 % 256) p
  | _ => none

/-- Address of a part parameter. -/
def partAddr (part p : Nat) : Nat := 256 * part + p
/-- Address of a template parameter. -/
def tmplAddr (t p : Nat) : Nat := 0x10000 + 256 * t + p
/-- Address of an override group parameter. -/
def groupAddr (g p : Nat) : Nat := 0x20000 + 256 * g + p
/-- Address of a bus parameter. -/
def busAddr (b p : Nat) : Nat := 0x30000 + 256 * b + p

/-- The stored base value of an endpoint (R185, R187); the read-only ones come from what they report. -/
def State.endpoint (s : State) (a : Nat) : Word :=
  if a / 65536 = 0 ∧ a % 256 = 0xEF then s.params.pnMiss.look (a / 256 % 256) 0
  else if a / 65536 = 2 ∧ a % 256 = 0xFF then
    let g := s.group (a / 256 % 256)
    pack [(b2n g.bound, 31), (g.part, 8), (g.note, 0)]
  else if a / 65536 = 3 ∧ a % 256 = 4 then s.bridge.peaks.look (a / 256 % 256) 0
  else match s.params.endpoints.find a with
    | some v => v
    | none => match descOf a with | some d => d.reset | none => 0

/-- A part parameter's base value. -/
def State.partP (s : State) (part p : Nat) : Nat := (s.endpoint (partAddr part p)).toNat
/-- A template parameter's base value. -/
def State.tmplP (s : State) (t p : Nat) : Nat := (s.endpoint (tmplAddr t p)).toNat

/-- The Bay a part is bound to (R97). -/
def State.partBay (s : State) (part : Nat) : Nat := s.partP part 0xF0

/-- The override group bound to (part, note) (R184). -/
def State.groupOf (s : State) (part note : Nat) : Option Nat :=
  (s.params.groups.find? fun p => p.2.bound && p.2.part == part && p.2.note == note).map fun p => p.1

/-- Place of a parameter marked "placement" in what a voice keeps of it (R188, R191). -/
def fixedIndex (p : Nat) : Option Nat :=
  if p < 0x30 then (if p % 6 = 4 then some (p / 6) else if p % 6 = 5 then some (8 + p / 6) else none)
  else if p = 0x42 then some 16
  else if 0x54 ≤ p ∧ p < 0x64 then (if p % 4 = 2 then some (17 + (p - 0x54) / 4) else if p % 4 = 3 then some (21 + (p - 0x54) / 4) else none)
  else none

/-- The parameters marked "placement", in that order (R191). -/
def fixedParams : List Nat :=
  ((List.range 8).map fun k => 6 * k + 4) ++ ((List.range 8).map fun k => 6 * k + 5) ++ [0x42]
    ++ ((List.range 4).map fun j => 0x56 + 4 * j) ++ ((List.range 4).map fun j => 0x57 + 4 * j)

/-- The endpoint from which voice `v` reads a template parameter: its group's where that replaces it, or the template's (R184, R188). -/
def State.voiceAddr (s : State) (v : Voice) (p : Nat) : Nat :=
  match v.group with
  | none => tmplAddr v.template p
  | some g => if p < 0xE0 ∧ s.endpoint (groupAddr g p) ≠ notReplaced then groupAddr g p else tmplAddr v.template p

/-- A template parameter as voice `v` reads its base; one marked "placement" as it was read there (R184, R188). -/
def State.voiceP (s : State) (v : Voice) (p : Nat) : Word :=
  match (if v.fixed.isEmpty then none else fixedIndex p) with
  | some i => v.fixed.getD i 0
  | none => s.endpoint (s.voiceAddr v p)

/-- What a voice placed now keeps of the parameters marked "placement" (R188). -/
def State.fixedNow (s : State) (v : Voice) : List Word := fixedParams.map fun p => s.endpoint (s.voiceAddr v p)

/-- MUTE of a bus is a gain factor that ramps over 2 ms; its address (R352). -/
def isMute (a : Nat) : Bool := a / 65536 == 3 && a % 256 == 1

/-- A MUTE value as a factor with 23 fraction bits (R352). -/
def muteFactor (v : Word) : Word := if v = 0 then 0x00800000 else 0

/-- The unsmoothed value a ramp moves to: the base value, or a mute factor. -/
def rampTarget (a : Nat) (v : Word) : Word := if isMute a then muteFactor v else v

/-- A stamp lies before another, within the frame that a change was made in (R189): frames are at most 512 ticks. -/
def justBefore (t u : Word) : Bool := decide (stampDist t u < 0) && decide (-512 ≤ stampDist t u)

/-- A ramp's value at a stamp (R190). -/
def rampAt (r : Ramp) (t : Word) : Word :=
  let n := (t - r.start).toNat / 16
  if justBefore t r.start ∨ n = 0 then r.fromV else if r.len ≤ n then r.toV else rampValue r.fromV r.toV n r.len

/-- A voice with the note, the glide and the override group that it has at a stamp of the present frame (R182). -/
def Voice.asOf (v : Voice) (t : Word) : Voice :=
  match v.notesWas.find? fun r => justBefore t r.until_ with
  | some r => { v with note := r.note, group := r.group, glideFrom := r.glideFrom, glideAt := r.glideAt, glideUs := r.glideUs }
  | none => v

/-- An endpoint as it was at a stamp of the present frame of timeline `ln`, before the writes that follow it there (R189). -/
def State.was (s : State) (ln a : Nat) (t : Word) : Option Recent :=
  s.params.recent.find? fun r => r.addr == a && r.line == ln && justBefore t r.stamp

/-- The stored base value at a stamp of timeline `ln` (R189). -/
def State.endpointAt (s : State) (ln a : Nat) (t : Word) : Word :=
  match s.was ln a t with
  | some r => r.value
  | none => s.endpoint a

/-- The endpoint from which voice `v` reads a template parameter at a stamp of the present frame (R184, R189). -/
def State.voiceAddrAt (s : State) (v : Voice) (p : Nat) (t : Word) : Nat :=
  match (v.asOf t).group with
  | none => tmplAddr v.template p
  | some g => if p < 0xE0 ∧ s.endpointAt (s.lineOf v.bay) (groupAddr g p) t ≠ notReplaced then groupAddr g p else tmplAddr v.template p

/-- The smoothed base value of an endpoint at a stamp of timeline `ln` (R189, R190). -/
def State.smoothed (s : State) (ln a : Nat) (t : Word) : Word :=
  let v := s.endpointAt ln a t
  match (match s.was ln a t with | some r => r.ramp | none => s.params.ramps.find? fun r => r.addr == a && r.line == ln) with
  | some r => rampAt r t
  | none => rampTarget a v

/-- First stamp of the sample that contains stamp `t`: a write's sample position (R189). -/
def samplePos (t : Word) : Word := t &&& ~~~(15 : Word)

/-- Smoothing time of a write in us: the command's override for FRAC, FREQ and TIME, else the descriptor's; MUTE takes 2 ms
(R190, R199, R352). -/
def smoothUs (a : Nat) (ovr : Option Nat) : Nat :=
  match descOf a with
  | none => 0
  | some d =>
    if isMute a then 2000
    else match ovr with
      | some ms => if d.typ = 0 ∨ d.typ = 3 ∨ d.typ = 4 then 1000 * ms else 0
      | none => d.smooth

/-- The value from which a write at a sample's first stamp ramps: as it stood before that sample's writes, which the last one replaces (R189,
R190). -/
def State.presentAt (s : State) (ln a : Nat) (t : Word) : Word :=
  match s.params.recent.find? fun r => r.addr == a && r.line == ln && r.stamp == t with
  | some r => (match r.ramp with | some q => rampAt q t | none => rampTarget a r.value)
  | none => s.smoothed ln a t

/-- Where a write at stamp `t` of timeline `home` takes effect on timeline `ln`: there, or on another at the first stamp of its next frame (R29,
R188; log entry 109). -/
def State.writePos (s : State) (home : Nat) (t : Word) (ln : Nat) : Word := if ln = home then t else samplePos (s.reachOf ln)

/-- Start, or restart, the smoothing ramp of an endpoint on timeline `ln` (R190). -/
def startRamp (a : Nat) (v : Word) (ovr : Option Nat) (t : Word) (ln : Nat) (s : State) : State :=
  let n := samplesUs s.time.rate (smoothUs a ovr)
  let rest := s.params.ramps.filter fun r => !(r.addr == a && r.line == ln)
  let present := s.presentAt ln a t
  if n = 0 ∨ present = rampTarget a v ∨ (a / 65536 = 2 ∧ (s.endpoint a = notReplaced ∨ v = notReplaced)) then { s with params := { s.params with ramps := rest } }
  else { s with params := { s.params with ramps := rest ++ [{ addr := a, line := ln, fromV := present, toV := rampTarget a v, start := t, len := n }] } }

/-- Ramps that have ended on their timeline are dropped (R190). -/
def pruneRamps (s : State) : State :=
  { s with params := { s.params with ramps := s.params.ramps.filter fun r => decide ((s.stampOf r.line - r.start).toInt < 16 * (r.len : Int)) } }

/-- Key of a part LFO's anchor. -/
def lfoKey (part j : Nat) : Nat := 8 * part + j

/-- Phase of part LFO `j` of a part at a stamp: phi a + inc x (t - ta) (R177). -/
def partLfoPhase (s : State) (part j : Nat) (t : Word) : Word :=
  let an := s.params.anchors.look (lfoKey part j) (0, 0)
  an.2 + lfoIncrement (s.smoothed (s.lineOf (s.partBay part)) (partAddr part (0x20 + 4 * j)) t) (baseRate s.time.rate) * (t - an.1)

/-- What a part LFO write does to its anchor (R177). -/
def anchorWrite (a : Nat) (v : Word) (t : Word) (s : State) : State :=
  let part := a / 256
  let p := a % 256
  if a < 65536 ∧ 0x20 ≤ p ∧ p < 0x40 then
    let j := (p - 0x20) / 4
    let put := fun ph => { s with params := { s.params with anchors := s.params.anchors.put (lfoKey part j) (t, ph) } }
    if p % 4 = 0 then put (partLfoPhase s part j t) else if p % 4 = 2 then put v else s
  else s

/-- A mono stack is emptied when RETRIG changes (R192). -/
def retrigWrite (a : Nat) (v : Word) (s : State) : State :=
  if a < 65536 ∧ a % 256 = 0x0C ∧ s.endpoint a ≠ v then { s with params := { s.params with noteStacks := s.params.noteStacks.put (a / 256) [] } } else s

/-- A group's idle count restarts when a write reaches it (R184). -/
def touchGroup (a : Nat) (s : State) : State :=
  if a / 65536 = 2 then
    let g := a / 256 % 256
    if (s.group g).bound then s.setGroup g { s.group g with idle := 0 } else s
  else s

/-- Remember an endpoint as it stands before a write at a stamp of timeline `ln` (R189). -/
def remember (a : Nat) (t : Word) (ln : Nat) (s : State) : State :=
  { s with params := { s.params with recent := s.params.recent ++
      [{ addr := a, line := ln, stamp := t, value := s.endpoint a, ramp := s.params.ramps.find? fun r => r.addr == a && r.line == ln }] } }

/-- A write of an endpoint at the sample of timeline `home` that contains a stamp: stored as written, with its smoothing on every timeline and its side
effects (R177, R184, R187 to R190, R192). -/
def writeEndpoint (home a : Nat) (v : Word) (ovr : Option Nat) (t : Word) (s : State) : State :=
  let t0 := samplePos t
  let pos := s.writePos home t0
  let s0 := s.lines.foldl (fun s ln => remember a (pos ln) ln s) s
  let s1 := s.lines.foldl (fun s ln => startRamp a v ovr (pos ln) ln s) (retrigWrite a v (anchorWrite a v t0 (touchGroup a s0)))
  { s1 with params := { s1.params with endpoints := s1.params.endpoints.put a v } }

/-- Reset every parameter of override group `g` (R184). -/
def clearGroup (g : Nat) (s : State) : State :=
  { s with params := { s.params with endpoints := s.params.endpoints.filter fun p => p.1 / 256 != 0x200 + g,
                                     ramps := s.params.ramps.filter fun r => r.addr / 256 != 0x200 + g } }

/-- Voices of (part, note) that are placed take the group bound to their pair (R184). -/
def adoptGroup (part note g : Nat) (s : State) : State :=
  { s with voices := s.voices.mapVals fun _ v =>
      if v.inUse ∧ v.part = part ∧ v.note = note ∧ v.st ≠ .free ∧ v.st ≠ .pending then { v with group := some g } else v }

/-- Bind the free group of lowest number to (part, note); `none` when no group is free (R184). -/
def bindGroup (part note : Nat) (s : State) : Option (Nat × State) :=
  match s.groupOf part note with
  | some g => some (g, s)
  | none =>
    match (List.range 256).find? fun g => !(s.group g).bound with
    | none => none
    | some g => some (g, adoptGroup part note g ((clearGroup g s).setGroup g { bound := true, part := part, note := note, idle := 0 }))

/-- Count a per-note message without a group (R184, R192). -/
def countPnMiss (part : Nat) (s : State) : State :=
  { s with params := { s.params with pnMiss := s.params.pnMiss.put part (satInc (s.params.pnMiss.look part 0)) } }

-- PARAM.GET -----------------------------------------------------------------------------------------------------------------------------

/-- The addresses of a PARAM.GET. -/
def getAddrs (e : Entry) : List Word := e.payload.drop 1

/-- An address word with its reserved bits 0 and its endpoint assigned (R185, R200). -/
def addrOk (w : Word) : Bool := bits w 31 18 == 0 && (descOf w.toNat).isSome

/-- The five words of a descriptor (R200). -/
def descWords (w : Word) : List Word :=
  match descOf w.toNat with
  | none => []
  | some d => [pack [(d.typ, 28), (d.cls, 26)], d.lo, d.hi, d.reset, BitVec.ofNat 32 d.smooth]

/-- PARAM.GET (R200). -/
def cardParamGet : Card where
  opcode := 0x401
  len := fun e => decide (1 ≤ e.payload.length) && e.payload.length == 1 + bits (e.pw 0) 15 0
  range := fun e _ =>
    let n := bits (e.pw 0) 15 0
    bits (e.pw 0) 30 16 == 0 && decide (1 ≤ n) && decide (n ≤ (if bit (e.pw 0) 31 then 200 else 510)) && (getAddrs e).all addrOk
  run := fun e s =>
    finishNow 0x401 e (if bit (e.pw 0) 31 then (getAddrs e).flatMap descWords else (getAddrs e).map fun w => s.endpoint w.toNat) s

-- PARAM.SET ------------------------------------------------------------------------------------------------------------------------------

/-- The writes of a PARAM.SET: address and value pairs after word 0 (R199). -/
def pairUp (ws : List Word) : List (Nat × Word) :=
  match ws with
  | a :: v :: r => (a.toNat, v) :: pairUp r
  | _ => []

/-- The writes of an entry. -/
def setWrites (e : Entry) : List (Nat × Word) := pairUp (e.payload.drop 1)

/-- The last value that a list of writes gives endpoint `a`. -/
def lastWrite (a : Nat) (ws : List (Nat × Word)) : Option Word := ((ws.filter fun w => w.1 == a).getLast?).map fun w => w.2

/-- What a queued item writes to endpoint `a`. -/
def State.itemWrite (s : State) (a : Nat) (act : Action) : Option Word :=
  match act with
  | .write b v => if b = a then some v else none
  | .cmd j => (s.mbx.jobs.find? fun jb => jb.j == j && jb.opcode == 0x400).bind fun jb => lastWrite a (setWrites jb.e)
  | _ => none

/-- The value of endpoint `a` at stamp `t`, as far as is known: what is stored, what waits for the boundary, and what the items queued for a
stamp up to `t` write (R192, R307, R309). -/
def State.endpointDue (s : State) (a : Nat) (t : Word) : Word :=
  let base := (s.mbx.jobs.filter fun jb => jb.phase == .boundary && jb.opcode == 0x400).foldl (fun v jb => (lastWrite a (setWrites jb.e)).getD v) (s.endpoint a)
  let ws := s.se.timeline.filterMap fun x =>
    if 0 < stampDist x.stamp t then none else (s.itemWrite a x.act).map fun v => (stampDist x.stamp t, x.order, v)
  match ws with
  | [] => base
  | w :: r => (r.foldl (fun b x => if b.1 < x.1 ∨ (b.1 = x.1 ∧ b.2.1 ≤ x.2.1) then x else b) w).2.2

/-- The ramp override of an entry, in ms (R190, R199). -/
def setRamp (e : Entry) : Option Nat := if bit (e.pw 0) 31 then some (bits (e.pw 0) 30 16) else none

/-- A write that a command may make: assigned, not read only, in range; a group also takes "not replaced" (R184, R187). -/
def writeOk (w : Nat × Word) : Bool :=
  match descOf w.1 with
  | none => false
  | some d => !d.ro && (d.inRange w.2 || (w.1 / 65536 == 2 && decide (w.1 % 256 < 0xE0) && w.2 == notReplaced))

/-- Class of an endpoint: 0 LIVE, 1 STAGED, 2 HALTED. -/
def classAt (a : Nat) : Nat := match descOf a with | some d => d.cls | none => 3

/-- The class the writes share, `none` when they mix (R199). -/
def sharedClass (ws : List (Nat × Word)) : Option Nat :=
  match ws with
  | [] => some 0
  | w :: r => if r.all fun x => classAt x.1 == classAt w.1 then some (classAt w.1) else none

/-- No address twice (R199). -/
def noRepeat (ws : List (Nat × Word)) : Bool :=
  match ws with
  | [] => true
  | w :: r => !(r.any fun x => x.1 == w.1) && noRepeat r

/-- A write of a stamped PARAM.SET lies in the target Bay: a part bound to it, or a group of such a part (R199). -/
def writeInBay (b : Nat) (s : State) (w : Nat × Word) : Bool :=
  (w.1 / 65536 == 0 && s.partBay (w.1 / 256) == b)
  || (w.1 / 65536 == 2 && s.partBay (s.group (w.1 / 256 % 256)).part == b)

/-- Valid input pairs of a task (R239). -/
def Task.inPairs (t : Task) : List Nat :=
  ((List.range 4).filter fun i => t.ins.getLsbD (8 * i + 7)).map fun i => (t.ins.toNat / 2 ^ (8 * i)) % 128

/-- Valid output pairs of a task (R239). -/
def Task.outPairs (t : Task) : List Nat :=
  ((List.range 8).filter fun i => t.outs.getLsbD (8 * i + 7)).map fun i => (t.outs.toNat / 2 ^ (8 * i)) % 128

/-- A task reads or writes bus pair `q`. -/
def Task.touches (t : Task) (q : Nat) : Bool := t.inPairs.contains q || t.outPairs.contains q

/-- The effect tasks of the device, a mirror's twins apart: core, context slot, task (R239). -/
def State.effectTasks (s : State) : List (Nat × Nat × Task) :=
  (List.range 64).flatMap fun k =>
    if s.timelineBay (s.courseBay (k / 8)) = s.courseBay (k / 8) then ((s.core k).tasks.filter fun t => t.2.kind == 1).map fun t => (k, t.1, t.2)
    else []

/-- The effect of slot `o` runs: its task stands in a Bay that runs voices (R78, R199). -/
def effectRuns (o : Nat) (s : State) : Bool := s.effectTasks.any fun t => t.2.2.obj.toNat == o && (s.bay t.2.2.bay).mode.runsVoices

/-- The Bay a staged endpoint belongs to, or 255 (R83): a part's, its group's part's, or that of the first effect task of the slot or on the
bus. -/
def fieldBay (a : Nat) (s : State) : Nat :=
  let o := a / 256 % 256
  if a / 65536 = 0 then s.partBay (a / 256)
  else if a / 65536 = 2 then s.partBay (s.group o).part
  else if a / 65536 = 3 then
    match s.effectTasks.find? fun t => if a % 256 < 0x40 then t.2.2.touches (o / 2) else t.2.2.obj.toNat == o with
    | some t => t.2.2.bay
    | none => 255
  else 255

/-- A bus write may not give a render bus an INPUT (R354): a bus that a task of a RENDER Bay declares. -/
def declaredBuses (b : Nat) (s : State) : List Nat :=
  (s.bayCores b).flatMap fun k => (s.core k).tasks.flatMap fun t =>
    ((List.range 8).filter fun i => t.2.outs.getLsbD (8 * i + 7)).flatMap fun i =>
      let q := (t.2.outs.toNat / 2 ^ (8 * i)) % 128
      [2 * q, 2 * q + 1]

/-- Bus `n` is a render bus of some RENDER Bay (R354). -/
def isRenderBus (n : Nat) (s : State) : Bool :=
  (List.range 8).any fun b => s.formed b && (s.bay b).mode == .render && (declaredBuses b s).contains n

/-- The Bay whose render ring takes the render buses of Bay `b` (R284, R355): the home of a mirror that acts for it, else its own. -/
def State.ringBay (s : State) (b : Nat) : Nat := if (s.bay b).role = 4 then (s.bay b).partner.toNat else b

/-- Bus `n` goes to a destination other than the render ring of Bay `b` (R354). -/
def routedAway (routes : List (Nat × Nat)) (b n : Nat) (s : State) : Bool := routes.any fun p => p.2 == n && p.1 / 32 != 0x20 + s.ringBay b

/-- Whether an output of Bay `x` on bus pair `q` meets a task of another Bay that is not its mirror, one of the two a RENDER
Bay (R354). -/
def renderMeets (render : Bool) (x q : Nat) (s : State) : Bool :=
  (List.range 8).any fun y =>
    s.formed y && y != x && !((s.bay x).role != 0 && (s.bay x).partner.toNat == y)
    && (render || (s.bay y).mode == .render)
    && ((declaredBuses y s).contains (2 * q) || (declaredBuses y s).contains (2 * q + 1))

/-- An output of Bay `x` on bus pair `q` breaks R354, under a reader of endpoints and the routes: it meets another Bay's, or it makes a
render bus of one with an INPUT or with a route elsewhere. `render`: the Bay is in RENDER. -/
def renderBreaks (rd : Nat → Word) (routes : List (Nat × Nat)) (render : Bool) (x q : Nat) (s : State) : Bool :=
  renderMeets render x q s || (render && [2 * q, 2 * q + 1].any fun n => rd (busAddr n 2) != 0 || routedAway routes x n s)

/-- A task of part `p` runs on Bay `b`. -/
def partRuns (b p : Nat) (s : State) : Bool := (s.bayCores b).any fun k => (s.core k).tasks.any fun t => t.2.kind == 0 && t.2.part.toNat == p

/-- An OUT_BUS or SEND_BUS of part `p` may name bus pair `q` (R354). -/
def partPairOk (rd : Nat → Word) (routes : List (Nat × Nat)) (p q : Nat) (s : State) : Bool :=
  let b := s.acting (s.partBay p)
  !partRuns b p s || !renderBreaks rd routes ((s.bay b).mode == .render) b q s

/-- R354 for a list of endpoint writes, under a reader of endpoints and the routes: no INPUT other than 0 on a render bus, and no OUT_BUS or
SEND_BUS of a part with tasks that breaks it. -/
def renderInputOk (rd : Nat → Word) (routes : List (Nat × Nat)) (ws : List (Nat × Word)) (s : State) : Bool :=
  ws.all fun w =>
    !(w.1 / 65536 == 3 && w.1 % 256 == 2 && w.2 != 0 && isRenderBus (w.1 / 256 % 256) s)
    && !(w.1 / 65536 == 0 && decide (2 ≤ w.1 % 256) && decide (w.1 % 256 ≤ 6) && !partPairOk rd routes (w.1 / 256) (w.2.toNat / 2) s)

/-- Flags that the class allows (R78): STAGE with STAMPED never; STAMPED not on STAGED fields; neither on HALTED ones. -/
def setFlagsOk (e : Entry) : Bool :=
  match sharedClass (setWrites e) with
  | none => false
  | some c => !(e.stamped && (e.stage || c == 1)) && !(c == 2 && (e.stage || e.stamped))

/-- The staged fields of a PARAM.SET. -/
def setFields (e : Entry) (s : State) : List Staged :=
  (setWrites e).map fun w => { field := .endpoint w.1, value := [w.2], bay := fieldBay w.1 s, ramp := setRamp e }

/-- A PARAM.SET stages its fields: STAGE, or STAGED fields (R78). -/
def setStages (e : Entry) : Bool := e.stage || sharedClass (setWrites e) == some 1

/-- The writes are HALTED fields: effective at validation (R78). -/
def setHalted (e : Entry) : Bool := sharedClass (setWrites e) == some 2

/-- No HALTED endpoint of a running effect is written (R78, R199). -/
def haltedOk (e : Entry) (s : State) : Bool := !setHalted e || (setWrites e).all fun w => !effectRuns (w.1 / 256 % 256) s

/-- HALTED endpoints take their values at validation, and the epoch advances (R78, R84). -/
def putHalted (e : Entry) (s : State) : State :=
  bumpEpoch ((setWrites e).foldl (fun s w => writeEndpoint 255 w.1 w.2 none s.time.stamp s) s)

/-- PARAM.SET (R199). -/
def cardParamSet : Card where
  opcode := 0x400
  modes := [.play, .follow, .render]
  len := fun e => decide (1 ≤ e.payload.length) && e.payload.length == 1 + 2 * bits (e.pw 0) 15 0
  range := fun e _ =>
    let n := bits (e.pw 0) 15 0
    decide (1 ≤ n) && decide (n ≤ 510) && decide (bits (e.pw 0) 30 16 ≤ 10000) && (setWrites e).all writeOk
  flags := fun e _ =>
    setFlagsOk e && (e.stamped == decide (e.target ≠ 0xFF))
  agree := fun e s =>
    noRepeat (setWrites e) && (!e.stamped || (setWrites e).all (writeInBay e.target.toNat s)) && renderInputOk s.endpoint s.bridge.routes (setWrites e) s
  post := fun e s =>
    firstFail
      [ need ((setWrites e).all fun w => w.1 / 65536 != 2 || (s.group (w.1 / 256 % 256)).bound) eState,
        need (haltedOk e s) eBusy,
        if setStages e then stageChecks ((setWrites e).map fun w => .endpoint w.1) s else none ]
  run := fun e s =>
    if setStages e then stageFields 0x400 e (setFields e s) s
    else if setHalted e then finishNow 0x400 e [] (putHalted e s)
    else if e.stamped then queueStamped 0x400 e { stamp := effStamp cardTimeline e s, bay := e.target.toNat } (effStamp cardTimeline e s) [] s
    else queueBoundary 0x400 e {} s
where
  /-- The card's timeline only, for the stamp at which the command acts. -/
  cardTimeline : Card := { opcode := 0x400, len := fun _ => true, run := fun _ s => s }

/-- The writes of a PARAM.SET take effect at a stamp, in order (R189). -/
def applyWrites (home : Nat) (ws : List (Nat × Word)) (ovr : Option Nat) (t : Word) (s : State) : State :=
  match ws with
  | [] => s
  | w :: r => applyWrites home r ovr t (writeEndpoint home w.1 w.2 ovr t s)

-- ENV.WRITE -------------------------------------------------------------------------------------------------------------------------------

/-- A segment descriptor in range (R171). -/
def segmentOk (w0 w1 : Word) : Bool :=
  decide (100 ≤ w0.toNat) && decide (w0.toNat ≤ 1000000000) && bits w1 27 23 == 0

/-- Segments of an envelope, two words each. -/
def segmentsOk (ws : List Word) : Bool :=
  match ws with
  | a :: b :: r => segmentOk a b && segmentsOk r
  | _ => true

/-- Reserved bits of an envelope header (R171). -/
def envHeaderRange (h : Word) : Bool := bits h 29 28 == 0 && bits h 7 0 == 0

/-- R172: SUS, REL, loop and the last target of envelope 0 agree. -/
def envHeaderOk (env : Nat) (ws : List Word) : Bool :=
  let h := ws.getD 0 0
  let count := bits h 27 24
  (!bit h 31 || (decide (bits h 23 20 < bits h 19 16) && decide (bits h 19 16 ≤ count)))
  && (!bit h 30 || (decide (bits h 15 12 ≤ bits h 11 8) && decide (bits h 11 8 ≤ count) && (!bit h 31 || decide (bits h 11 8 ≤ bits h 23 20))))
  && (env != 0 || bits (ws.getD (2 + 2 * count) 0) 22 0 == 0)

/-- The envelopes of the mask, ascending (R201). -/
def envMask (e : Entry) : List Nat := (List.range 6).filter fun i => bit (e.pw 0) (8 + i)

/-- The envelopes an entry carries: number and 33 words (R201). -/
def envBlocks (ms : List Nat) (ws : List Word) : List (Nat × List Word) :=
  match ms with
  | [] => []
  | m :: r => (m, ws.take 33) :: envBlocks r (ws.drop 33)

/-- The envelopes of an entry. -/
def envsOf (e : Entry) : List (Nat × List Word) := envBlocks (envMask e) (e.payload.drop 1)

/-- The fields an ENV.WRITE stages: each envelope it writes is one field and counts one value towards the 1,024 of R80 (DESIGN CHOICE, log entry
136). -/
def envFields (e : Entry) : List Staged :=
  (envsOf e).map fun b => { field := .env (bits (e.pw 0) 7 0) b.1, value := b.2 }

/-- Write envelope `n` of template `t` (R175, R201). -/
def putEnv (t n : Nat) (ws : List Word) (s : State) : State := { s with params := { s.params with envs := s.params.envs.put (8 * t + n) ws } }

/-- The envelopes of an entry take effect (R201). -/
def applyEnvs (t : Nat) (bs : List (Nat × List Word)) (s : State) : State :=
  match bs with
  | [] => s
  | b :: r => applyEnvs t r (putEnv t b.1 b.2 s)

/-- ENV.WRITE (R201): LIVE, or staged with STAGE. -/
def cardEnvWrite : Card where
  opcode := 0x410
  len := fun e => decide (1 ≤ e.payload.length) && e.payload.length == 1 + 33 * (envMask e).length
  range := fun e _ =>
    bits (e.pw 0) 31 14 == 0 && bits (e.pw 0) 13 8 != 0 &&
    (envsOf e).all fun b => envHeaderRange (b.2.getD 0 0) && segmentsOk (b.2.drop 1)
  flags := fun e _ => !e.stamped
  agree := fun e _ => (envsOf e).all fun b => envHeaderOk b.1 b.2
  post := fun e s => if e.stage then stageChecks ((envFields e).map fun x => x.field) s else none
  run := fun e s => if e.stage then stageFields 0x410 e (envFields e) s else queueBoundary 0x410 e {} s

end Sys2Proof.Machine
end

