-- ==== Sys2Proof/Machine/VoiceOps.lean ====
section
/-! DEFINITION. Shared operations on voices (chapters 04 to 06): slots and handles, onset and pre-roll, envelopes, oscillators at
their start, costs and loads, steal keys, Scarfs, releases and ends. -/

namespace Sys2Proof.Machine

-- presets and pre-roll -------------------------------------------------------------------------------------------------------------

/-- Settle of a preset in base samples (R150). -/
def settleOf (preset : BitVec 2) : Nat := if preset = 0 then 52 else if preset = 1 then 20 else 5

/-- Preset of Bay `b` (R151). -/
def State.presetOf (s : State) (b : Nat) : BitVec 2 := (s.course (s.bay b).first.toNat).preset

/-- P of Bay `b` in ticks (R154). -/
def State.preRoll (s : State) (b : Nat) : Nat := 16 * settleOf (s.presetOf b)

/-- TPF of the base rate (R24). -/
def State.tpf (s : State) : Nat := ticksPerFrame s.time.rate

/-- Stamp ticks that have passed since the last tick, below TPF (R28); none while the tick stands, nor before the first tick after it. -/
def State.ticksInto (s : State) : Nat :=
  if s.time.ticking ∧ !s.time.stampHold then Nat.min ((s.time.deviceTime - s.time.tickDt).toNat * 16 * baseRate s.time.rate / 10 ^ 9) (s.tpf - 1) else 0

/-- The device Stamp32 as it reads now (R28). -/
def State.liveStamp (s : State) : Word := s.time.stamp + BitVec.ofNat 32 s.ticksInto

/-- When a start acts (R154, R155): its release key, onset and reset point, and whether its lead was too short. -/
structure StartTimes where
  key : Word
  onset : Word
  reset : Word
  short : Bool

/-- Times of a start with stamp `t` entering while the reach point is `reach` (R155): `t` is not before `reach`. -/
def startTimes (t reach : Word) (p tpf : Nat) : StartTimes :=
  let q := t - BitVec.ofNat 32 (p + tpf)
  if stampDist q reach < 0 then
    let r := reach + BitVec.ofNat 32 tpf
    { key := reach, onset := r + BitVec.ofNat 32 p, reset := r, short := true }
  else { key := q, onset := t, reset := t - BitVec.ofNat 32 p, short := false }

/-- The first stamp of a sample at or after `t`: the first unsuppressed sample of an onset (R154). -/
def sampleCeil (t : Word) : Word := (t + 15) &&& ~~~(15 : Word)

-- slots and handles ------------------------------------------------------------------------------------------------------------------

/-- The handle of slot `i` (R101). -/
def State.handle (s : State) (i : Nat) : Word := pack [((s.voice i).gen.toNat, 16), (i, 0)]

/-- A handle in range: slot below 8,192, generation not 0 (R101). -/
def handleOk (h : Word) : Bool := decide (bits h 15 0 < 8192) && bits h 31 16 != 0

/-- A current handle: from acceptance until its voice reaches FREE (R103). -/
def State.handleCurrent (s : State) (h : Word) : Bool :=
  let v := s.voice (bits h 15 0)
  v.inUse && v.st != .free && v.gen.toNat == bits h 31 16

/-- The next generation: never 0 (R102). -/
def nextGen (g : BitVec 16) : BitVec 16 := if g = BitVec.allOnes 16 then 1 else g + 1

/-- Change the counters of a part. -/
def State.onPart (s : State) (p : Nat) (f : PartCtr → PartCtr) : State := s.setPartCtr p (f (s.partCtr p))

/-- The slot that has been free longest, and the pool without it (R102). -/
def takeSlot (s : State) : Option (Nat × State) :=
  if s.nextFresh < 8192 then some (s.nextFresh, { s with nextFresh := s.nextFresh + 1 })
  else match s.freed with
    | [] => none
    | i :: r => some (i, { s with freed := r })

/-- What a start asks for (R129, R307). -/
structure StartReq where
  part : Nat
  template : Nat
  priority : Nat
  note : Nat
  velocity : BitVec 16
  session : Option Nat := none
  byCommand : Bool := false

/-- Accept a start: it takes a slot, whose generation advances (R102), and its part's STARTS counts it (R133, log entry 116); its times follow
later. -/
def acceptStart (q : StartReq) (s : State) : Option (Nat × State) :=
  match takeSlot s with
  | none => none
  | some (i, s1) =>
    let v : Voice :=
      { gen := nextGen (s1.voice i).gen, st := .pending, inUse := true, part := q.part, template := q.template, priority := q.priority,
        note := q.note, velocity := q.velocity, bay := s1.partBay q.part, session := q.session, byCommand := q.byCommand,
        start := s1.startCtr }
    some (i, ({ s1.setVoice i v with startCtr := s1.startCtr + 1 }).onPart q.part fun p => { p with starts := satInc p.starts })

/-- Give an accepted start its times (R154, R155). -/
def setTimes (i : Nat) (t : Word) (x : StartTimes) (unstamped : Bool) (s : State) : State :=
  s.setVoice i { s.voice i with stamp := t, onset := x.onset, resetPoint := x.reset, shortLead := x.short, unstamped := unstamped }

-- voices by state ---------------------------------------------------------------------------------------------------------------------------

/-- Voices whose record satisfies `f`, with their slots. -/
def State.voicesWith (s : State) (f : Voice → Bool) : List (Nat × Voice) := s.voices.filter fun p => p.2.inUse && f p.2

/-- PRE-ROLL, HELD or RELEASING (R100, R107). -/
def VState.counted (x : VState) : Bool := x == .preRoll || x == .held || x == .releasing

/-- A part's voice count (R100). -/
def State.voiceCount (s : State) (part : Nat) : Nat := (s.voicesWith fun v => v.part == part && v.st.counted).length

/-- Voices placed on core `k` (R104). -/
def State.coreVoices (s : State) (k : Nat) : List (Nat × Voice) := s.voicesWith fun v => v.core == k && (v.st.counted || v.st == .scarf)

-- costs and loads ----------------------------------------------------------------------------------------------------------------------

/-- Template `t` in the image of Bay `b` (R235). -/
def State.imgTemplate (s : State) (b t : Nat) : Option ImgTemplate :=
  match (s.bay b).image with
  | none => none
  | some im => im.templates.find? fun x => x.template == t

/-- TYPE of oscillator `k` of a voice (R147). -/
def State.oscType (s : State) (v : Voice) (k : Nat) : Nat := bits (s.voiceP v (6 * k)) 2 0

/-- OSC_CFG 0 to 7 of a voice now (R147). -/
def State.cfgsNow (s : State) (v : Voice) : List Word := (List.range 8).map fun k => s.voiceP v (6 * k)

/-- The program path that a voice's parameters select (R234). -/
def State.pathOf (s : State) (v : Voice) : Nat :=
  9 * ((List.range 8).filter fun k => s.oscType v k != 0).length + 3 * (s.voiceP v 0x30).toNat + (s.voiceP v 0x38).toNat

/-- Index of S in a cost block: 8, 16, 32 (R234). -/
def spfIndex (spf : Nat) : Nat := if spf = 8 then 0 else if spf = 16 then 1 else 2

/-- Cost per frame of a path (R107, R234). -/
def pathCost (x : ImgTemplate) (path spf : Nat) (nonRes : Bool) : Nat :=
  x.costs.getD (6 * path + 2 * spfIndex spf + b2n nonRes) 0 * spf

/-- Template `t`'s tables are resident on core `k`, or it has none (R236). -/
def State.residentOn (s : State) (k t words : Nat) : Bool :=
  words == 0 || (s.core k).resid.any fun r => r.template == t && r.isReady

/-- Cost of voice `v` on core `k` along its path, and whether it is the non-resident one (R107). -/
def State.costOn (s : State) (v : Voice) (path k : Nat) : Nat × Bool :=
  match s.imgTemplate v.bay v.template with
  | none => (0, false)
  | some x => let nr := !s.residentOn k v.template x.tableWords; (pathCost x path s.spf nr, nr)

/-- Costs of the effect tasks of core `k` (R107, R239). -/
def State.effectCost (s : State) (k : Nat) : Nat :=
  (s.core k).tasks.foldl (fun a t => if t.2.kind = 1 then a + t.2.cost.toNat else a) 0

/-- L of core `k` (R107). -/
def State.loadL (s : State) (k : Nat) : Nat :=
  s.effectCost k + (s.coreVoices k).foldl (fun a p => if p.2.st.counted then a + p.2.cost else a) 0

/-- S of core `k` (R107). -/
def State.loadS (s : State) (k : Nat) : Nat :=
  (s.coreVoices k).foldl (fun a p => if p.2.st = .scarf then a + p.2.cost else a) 0

/-- Tasks of core `k` (R108). -/
def State.taskCount (s : State) (k : Nat) : Nat := (s.core k).tasks.length

/-- The core at the same position of the other Bay of a pair (R274). -/
def State.twin (s : State) (k : Nat) : Option Nat :=
  let b := s.courseBay (k / 8)
  if (s.bay b).role = 0 then none
  else some (k - 8 * (s.bay b).first.toNat + 8 * (s.bay (s.bay b).partner.toNat).first.toNat)

/-- A core marked for retirement or retired, or whose twin is (R112, R274). -/
def State.unusable (s : State) (k : Nat) : Bool :=
  let one := fun k => (s.core k).retire || (s.core k).retired
  one k || (match s.twin k with | some t => one t | none => false)

/-- Budget of core `k` (R107, R109, R274): 0 once marked for retirement; a pair plans with the higher capacity steps. -/
def State.budget (s : State) (k : Nat) : Nat :=
  let st := fun k => (s.course (k / 8)).steps
  if s.unusable k then 0
  else 896 * (32 - (match s.twin k with | some t => Nat.max (st k) (st t) | none => st k))

/-- The hard limit H (R107). -/
def hardLimit (rate : BitVec 3) : Nat := if family48 rate then 30261 else 33209

/-- Slot pairs of Course `c` that are held (R136). -/
def State.pairsHeld (s : State) (c : Nat) : List Nat :=
  (s.voicesWith fun v => v.core / 8 == c && v.core < 64 && (v.st.counted || v.st == .scarf)).map fun p => p.2.pair

/-- The lowest-numbered free pair of Course `c` from pair `lo` on (R137). -/
def State.freePair (s : State) (c lo : Nat) : Option Nat :=
  let held := s.pairsHeld c
  (List.range 256).find? fun q => decide (lo ≤ q) && !held.contains q

/-- Load conditions of the passes of R111. -/
inductive Pass where
  | first | second
deriving DecidableEq, Repr

/-- A core meets a pass's load condition (R109, R111): in RENDER the second reads only L + cost ≤ budget. -/
def passOk (p : Pass) (l sc cost budget h : Nat) (render : Bool) : Bool :=
  match p with
  | .first => decide (l + sc + cost ≤ budget)
  | .second => decide (l + cost ≤ budget) && (render || decide (l + sc + cost ≤ h))

/-- Preference among qualifying cores: resident, then lower L + S after adding, then lower number (R112), as one number. -/
def coreRank (nonRes : Bool) (load k : Nat) : Nat := b2n nonRes * 2 ^ 40 + load * 64 + k

/-- choose_core (R112) among `cands`; a move into another Course needs a pair from 32 on (R137). -/
def chooseCore (cands : List Nat) (p : Pass) (v : Voice) (path : Nat) (fromCourse : Option Nat) (s : State) : Option Nat :=
  leastRank <| cands.filterMap fun k =>
    let c := s.costOn v path k
    let l := s.loadL k
    let sc := s.loadS k
    let room := match fromCourse with
      | some x => x == k / 8 || (s.freePair (k / 8) 32).isSome
      | none => (s.freePair (k / 8) 0).isSome
    if !s.unusable k && decide (s.taskCount k < 64) && room
        && passOk p l sc c.1 (s.budget k) (hardLimit s.time.rate) ((s.bay (s.courseBay (k / 8))).mode == .render)
    then some (coreRank c.2 (l + sc + c.1) k, k) else none

-- steal keys -------------------------------------------------------------------------------------------------------------------------------

/-- YOUTH (R117). -/
def youth (age : Nat) : Nat := 0xFFFF - Nat.min (age / 16) 0xFFFF

/-- Age of a voice in frames of its Bay's timeline (R117). -/
def State.age (s : State) (v : Voice) : Nat := (s.frameOf v.bay - v.placedFrame).toNat

/-- Steal key under a policy: 0 QUIETEST, 1 OLDEST, 2 LOWEST (R116). A PRE-ROLL voice is keyed with HELD = 1 (R123). -/
def State.stealKey (s : State) (policy slot : Nat) : Nat :=
  let v := s.voice slot
  let y := youth v.keyAge
  let lv := v.level.toNat
  let ks : Nat × Nat := if policy = 1 then (y, 256 * lv) else if policy = 2 then (256 * v.priority + lv, y) else (256 * lv, y)
  b2n v.keyHeld * 2 ^ 47 + ks.1 * 2 ^ 31 + ks.2 * 2 ^ 15 + slot * 4

-- envelopes (R171 to R175) --------------------------------------------------------------------------------------------------------------------

/-- The 33 words of envelope `e` of a template (R171). -/
def State.envDesc (s : State) (t e : Nat) : List Word := s.params.envs.look (8 * t + e) []

/-- The envelope table a voice takes at placement: 6 x 33 words (R175). -/
def State.envSnapshot (s : State) (t : Nat) : List Word :=
  (List.range 6).flatMap fun e => (s.envDesc t e ++ List.replicate 33 0).take 33

/-- Header of envelope `e` of a voice. -/
def envHeader (v : Voice) (e : Nat) : Word := v.envTable.getD (33 * e) 0
/-- TIME of a segment, us. -/
def segTime (v : Voice) (e i : Nat) : Nat := (v.envTable.getD (33 * e + 1 + 2 * i) 0).toNat
/-- CURVE of a segment. -/
def segCurve (v : Voice) (e i : Nat) : Nat := bits (v.envTable.getD (33 * e + 2 + 2 * i) 0) 31 28
/-- TARGET of a segment. -/
def segTarget (v : Voice) (e i : Nat) : BitVec 23 := (v.envTable.getD (33 * e + 2 + 2 * i) 0).setWidth 23

/-- Ticks from `u` to `t`, where `t` lies at most 2^24 ticks before `u`: a segment or a hold may run longer than 2^31 ticks. -/
def tickDist (t u : Word) : Int := let d := (t - u).toNat; if d < 2 ^ 32 - 2 ^ 24 then d else (d : Int) - 2 ^ 32

/-- What the segments of a voice's envelopes are computed with: the rate, and the effective TSCALE and LSCALE of envelope `e` at a stamp
(R173, R175, R180). -/
structure EnvScale where
  rate : BitVec 3
  ts : Nat → Word → Word
  ls : Nat → Word → Word

/-- Ns of a segment that starts at stamp `t`: max(1, round(T x fs)), T scaled by TSCALE as it is there (R173, R175). -/
def segLen (x : EnvScale) (v : Voice) (e i : Nat) (t : Word) : Nat :=
  if x.ts e t = 0 then Nat.max 1 (samplesUs x.rate (Nat.min (Nat.max (segTime v e i) 100) 1000000000))
  else segSamples (segTime v e i) (x.ts e t) (baseRate x.rate)

/-- Level of an envelope in its segment at stamp `t` under a level scale; one that holds stands at its segment's end (R173, R174). -/
def segLevel (v : Voice) (e : Nat) (x : Env) (lscale : Word) (t : Word) : Int :=
  let d := tickDist t x.origin
  if x.hold then Sys2Proof.Machine.envLevel (segCurve v e x.seg) (segTarget v e x.seg) lscale x.l0 1 1
  else if d ≤ 0 ∨ x.ns = 0 then x.l0
  else Sys2Proof.Machine.envLevel (segCurve v e x.seg) (segTarget v e x.seg) lscale x.l0 (Nat.min d.toNat (16 * x.ns)) (16 * x.ns)

/-- Level of an envelope in its segment at stamp `t` (R173). -/
def envLevelAt (x : EnvScale) (v : Voice) (e : Nat) (y : Env) (t : Word) : Int := segLevel v e y (x.ls e t) t

/-- Enter a segment at stamp `t` with the level that stands there (R173). -/
def enterSeg (x : EnvScale) (v : Voice) (e i : Nat) (t : Word) (y : Env) : Env :=
  { y with seg := i, origin := t, ns := segLen x v e i t, l0 := envLevelAt x v e y t, hold := false, done := false }

/-- The six envelopes of a voice placed now: segment 0 starts at its stamp (R173). -/
def startEnvs (v : Voice) : List Env := List.replicate 6 { origin := v.onset, ns := 0 }

/-- Stamp at which an envelope's segment completes. -/
def segFin (y : Env) : Word := y.origin + BitVec.ofNat 32 (16 * y.ns)

/-- The segment of envelope `e` completes (R174): it loops, holds, goes on, or ends. -/
def nextSeg (x : EnvScale) (v : Voice) (e : Nat) (y : Env) : Env :=
  let h := envHeader v e
  let fin := segFin y
  if bit h 30 ∧ ¬ y.rel ∧ y.seg = bits h 11 8 then enterSeg x v e (bits h 15 12) fin y
  else if bit h 31 ∧ ¬ y.rel ∧ y.seg = bits h 23 20 then { y with origin := fin, hold := true }
  else if bits h 27 24 ≤ y.seg then { y with origin := fin, hold := true, done := true }
  else enterSeg x v e (y.seg + 1) fin y

/-- A release or a retrigger acts on envelope `e` at stamp `t` (R174, R182): a release moves one with SUS_EN to segment REL, a retrigger
moves each to segment 0, from its present level. A release also ends the loop of an envelope with SUS_EN = 0 and LOOP_EN = 1, whose other segments
ignore it (DESIGN CHOICE, log entry 136). -/
def envEvent (x : EnvScale) (v : Voice) (e : Nat) (t : Word) (release : Bool) (y : Env) : Env :=
  let h := envHeader v e
  if release then
    let z := { y with rel := true }
    if bit h 31 then enterSeg x v e (bits h 19 16) t z else z
  else { enterSeg x v e 0 t y with rel := false }

/-- What befalls an envelope next before stamp `limit`: its segment starts or completes, or a release or retrigger acts (R173, R174). A
segment that completes at the stamp of a release completes first. -/
def envNext (x : EnvScale) (v : Voice) (e : Nat) (limit : Word) (y : Env) : Option Env :=
  let ends := !y.hold && y.ns != 0 && decide (tickDist (segFin y) limit < 0)
  match y.pend with
  | p :: r =>
    if ends && decide (stampDist (segFin y) p.1 ≤ 0) then some (nextSeg x v e y)
    else if stampDist p.1 limit < 0 ∧ y.ns ≠ 0 then some (envEvent x v e p.1 p.2 { y with pend := r })
    else if y.ns = 0 ∧ tickDist y.origin limit < 0 then some { y with ns := segLen x v e y.seg y.origin }
    else none
  | [] =>
    if ends then some (nextSeg x v e y)
    else if y.ns = 0 ∧ tickDist y.origin limit < 0 then some { y with ns := segLen x v e y.seg y.origin }
    else none

/-- An envelope run up to stamp `limit` (R173, R174), with the segments it leaves, newest first. -/
def envWalk (x : EnvScale) (v : Voice) (e : Nat) (limit : Word) : Nat → Env × List Env → Env × List Env
  | 0, a => a
  | fuel + 1, a =>
    match envNext x v e limit a.1 with
    | some y => envWalk x v e limit fuel (y, { a.1 with pend := [] } :: a.2)
    | none => a

/-- Steps that one frame can hold: each segment is 100 us or longer (R173); the rest of a longer list follows in the next frame. -/
def walkFuel : Nat := 64

/-- The segment in which an envelope stood at a stamp of the present frame: the present one, or one it has left there. -/
def segAt (t : Word) (y : Env) : List Env → Env
  | [] => y
  | z :: r => if tickDist t y.origin < 0 then segAt t z r else y

/-- Envelope `e` of a voice at a stamp of the present frame. -/
def envAt (v : Voice) (e : Nat) (t : Word) : Env := segAt t (v.envs.getD e {}) (v.envsWas.getD e [])

/-- A release (true) or a retrigger (false) of a voice waits for its envelopes to reach its stamp (R174, R182). -/
def pendEnvs (v : Voice) (t : Word) (release : Bool) : List Env := v.envs.map fun y => { y with pend := y.pend ++ [(t, release)] }

-- routes (R178 to R180) -----------------------------------------------------------------------------------------------------------------------------

/-- SPAN of a destination in its own unit (R180): 1.0 for FRAC, 96 semitones for FREQ. -/
def spanOf (p : Nat) : Nat := match templateDesc p with | some d => if d.typ = 4 then 96 * 65536 else 2 ^ 23 | none => 0

/-- A sum clamped to the range of template parameter `p` (R180). -/
def clampP (p : Nat) (x : Int) : Int :=
  match templateDesc p with
  | none => x
  | some d => if x < d.lo.toInt then d.lo.toInt else if d.hi.toInt < x then d.hi.toInt else x

/-- The key source of a note (R178). -/
def keySource (note : Nat) : Word24 := (satQ23 (((note : Int) - 60) * 2 ^ 17)).1

-- pitch and oscillators at a reset point --------------------------------------------------------------------------------------------------------

/-- Note with the glide of its voice at a stamp, as a fraction of semitones from note 0 (R182). -/
def State.notePitch (s : State) (w : Voice) (t : Word) : Int × Nat :=
  let v := w.asOf t
  let d := stampDist t v.glideAt
  let full := v.glideUs * (16 * baseRate s.time.rate)
  if v.glideUs = 0 ∨ (full : Int) ≤ d * 1000000 then (v.note, 1)
  else ((v.glideFrom : Int) * full + ((v.note : Int) - v.glideFrom) * (d.toNat * 1000000 : Nat), full)

/-- Per-note bend of a voice at a stamp (R184). -/
def State.pnBend (s : State) (v : Voice) (t : Word) : Word := match (v.asOf t).group with | some g => s.smoothed (s.lineOf v.bay) (groupAddr g 0xF0) t | none => 0

/-- Pitch of an oscillator above 440 Hz as a fraction of semitones (R170); `off` is its effective OSC_PITCH, and every other term is taken at
its smoothed value too. No term is rounded. -/
def State.pitch (s : State) (v : Voice) (off : Word) (t : Word) : Int × Nat :=
  let g := s.notePitch v t
  let at_ := fun p => (s.smoothed (s.lineOf v.bay) (partAddr v.part p) t).toInt
  let bend := at_ 0x07 * at_ 0x08 + (s.pnBend v t).toInt * at_ 0x09
  ((g.1 - 69 * g.2) * 2 ^ 39 + (bend + off.toInt * 2 ^ 23) * g.2, 2 ^ 39 * g.2)

/-- The content object of an oscillator of a voice (R147). -/
def State.oscObject (s : State) (v : Voice) (k : Nat) : Nat := (s.voiceP v (6 * k + 4)).toNat

/-- Increment of oscillator `k` of a type (R170), before the clamp of R143. -/
def State.increment (s : State) (v : Voice) (typ k : Nat) (pitch : Int × Nat) : BitVec 48 :=
  match typ with
  | 2 => let h := (s.mem.content.look (s.oscObject v k) {}).header
         readerIncrement pitch.1 pitch.2 (h.getD 5 0).toNat (h.getD 4 0).toNat (baseRate s.time.rate)
  | 1 | 3 => pitchIncrement pitch.1 pitch.2 (baseRate s.time.rate)
  | _ => 0

/-- Ticks per oscillator sample (R135). -/
def tickStep (rate : BitVec 3) : Nat := 16 / osr rate

/-- The limit of a sample reader's increment (R143). -/
def clampInc (x : BitVec 48) : BitVec 48 := if 65536 < x.toInt then 65536 else if x.toInt < -65536 then BitVec.ofInt 48 (-65536) else x

/-- The noise register at a reset point (R145). -/
def noiseSeed (stamp : Word) (seed : Word) (k : Nat) : BitVec 64 :=
  let x : BitVec 64 := stamp ++ (seed.setWidth 24 : BitVec 24) ++ BitVec.ofNat 8 k
  if x = 0 then 1 else x

/-- Phase and noise of oscillator `k` of TYPE `typ` at its first oscillator sample at or after `reset`, for a start stamped `seed`: it reaches
START_PHASE at stamp `t`, a sample reader at the increment its limit leaves it (R143, R145, R154). -/
def State.startPhase (s : State) (v : Voice) (k typ : Nat) (seed t reset : Word) (inc : BitVec 48) : BitVec 48 × BitVec 64 :=
  let step := tickStep s.time.rate
  let first := BitVec.ofNat 32 ((reset.toNat + step - 1) / step * step)
  let d := stampDist t first
  let run := if typ = 2 then clampInc inc else inc
  let start : BitVec 48 := (s.voiceP v (6 * k + 5)).setWidth 48 <<< 24
  let back : BitVec 48 := if d % step = 0 then BitVec.ofInt 48 (run.toInt * (d / step)) else phaseBack run d step
  (start - back, noiseSeed seed (s.endpoint (tmplAddr v.template 0xE7)) k)

/-- M of a template parameter at placement: the routes whose sources the note number and the velocity give, or are constant (R148, R178 to
R180; log entry 52). -/
def State.startM (s : State) (v : Voice) (p : Nat) : Word :=
  let ts := ((List.range 96).map fun r => s.voiceP v (0x80 + r)).filterMap fun w =>
    if bits w 22 16 ≠ p then none
    else match bits w 31 24 with
      | 19 => some (w.setWidth 16, velocitySource v.velocity)
      | 20 => some (w.setWidth 16, keySource v.note)
      | 48 => some (w.setWidth 16, fracOne.setWidth 24)
      | _ => none
  if ts.isEmpty then 0 else routeSum ts (spanOf p)

/-- A template parameter as the start controls take it (R148). -/
def State.startP (s : State) (v : Voice) (p : Nat) : Int := clampP p ((s.voiceP v p).toInt + (s.startM v p).toInt)

/-- Oscillator `k` of a voice placed now (R145, R148, R154): start controls from the parameter values, the note number and the velocity. -/
def State.startOsc (s : State) (v : Voice) (k : Nat) : Osc :=
  let cfg := s.voiceP v (6 * k)
  let inc := s.increment v (bits cfg 2 0) k (s.pitch v (BitVec.ofInt 32 (s.startP v (6 * k + 1))) v.onset)
  let lev := BitVec.ofInt 24 (s.startP v (6 * k + 2))
  let depth := BitVec.ofInt 24 (s.startP v (6 * k + 3))
  let x := s.startPhase v k (bits cfg 2 0) v.stamp v.onset v.resetPoint inc
  { cfg := cfg, nextCfg := cfg, depth := depth, nextDepth := depth, phase := x.1, lfsr := x.2, incStart := inc, incEnd := inc, levStart := lev,
    levEnd := lev, nextInc := inc, nextLev := lev }

/-- The oscillators of a voice placed now (R148). -/
def State.startOscs (s : State) (v : Voice) : List Osc := (List.range 8).map (s.startOsc v)

-- the ends of a voice ---------------------------------------------------------------------------------------------------------------------------

/-- Remove the task of context `ctx` from core `k`. -/
def dropTask (k ctx : Nat) (s : State) : State := s.setCore k { s.core k with tasks := (s.core k).tasks.del ctx }

/-- Remove a task from its core and from its twin (R275). -/
def dropPairTask (k ctx : Nat) (s : State) : State :=
  let s1 := if k < 64 then dropTask k ctx s else s
  match s.twin k with
  | some t => if k < 64 then dropTask t ctx s1 else s1
  | none => s1

/-- Frames of quarantine (R102). -/
def quarantineFrames (rate : BitVec 3) : Nat := famFrames rate 1500 1379

/-- The task of voice `i` leaves context slot `ctx` of core `k`, where it still stands: a move may have taken the slot at this boundary (R206). -/
def leaveSlot (i k ctx : Nat) (s : State) : State :=
  match (s.core k).tasks.find ctx with
  | some t => if t.kind == 0 && t.slot.toNat == i then dropTask k ctx s else s
  | none => s

/-- A voice reaches FREE at a frame boundary: its core, pair and context are given up, its slot enters quarantine (R102, R105). -/
def freeVoice (i : Nat) (s : State) : State :=
  let v := s.voice i
  let s1 := if v.st = .pending then s else (v.core :: (s.twin v.core).toList).foldl (fun s k => leaveSlot i k v.ctx s) s
  s1.setVoice i { v with st := .free, toFree := false, silent := true, core := 255, cost := 0, level := 0, cutFrom := none, quarLeft := quarantineFrames s.time.rate }

/-- A voice is cancelled at stamp `t`: nothing more from this moment, FREE at the first boundary at or after it, end cause CANCELLED (R105,
R106, R157). -/
def cancelAt (i : Nat) (t : Word) (s : State) : State :=
  let v := s.voice i
  s.setVoice i { v with silent := true, toFree := true, cause := 7, cancelLater := decide (0 < stampDist t (s.stampOf v.bay)) }

/-- A voice is cancelled without a stamp: at once, or at the boundary that acts (R105, R106). -/
def cancelVoice (i : Nat) (s : State) : State := cancelAt i (s.stampOf (s.voice i).bay) s

/-- What a fault's cut takes from a voice, for a decision that makes it void (R281). -/
def undoOfCut (v : Voice) : CutUndo :=
  let u := v.cutFrom.getD { st := v.st, toFree := v.toFree, silent := v.silent, cause := v.cause }
  { u with cuts := u.cuts + 1 }

/-- A voice is cut: end cause CUT, its part's CUT counter, trace type 0x07 with `why` (R124, R125, R233, R262). -/
def cutVoice (why i : Nat) (s : State) : State :=
  let v := s.voice i
  traceBay 0x07 v.core v.bay i (BitVec.ofNat 32 why) 0
    ((s.setVoice i { v with silent := true, toFree := true, cause := 5, cutFrom := if why = 1 then v.cutFrom else some (undoOfCut v) }).onPart v.part fun c => { c with cut := satInc c.cut })

/-- Start the Scarf of a sounding voice at a stamp (R105, R118, R119): a running one is not changed. -/
def scarfVoice (i : Nat) (t : Word) (len cause : Nat) (s : State) : State :=
  let v := s.voice i
  if v.st = .scarf then s
  else s.setVoice i { v with st := .scarf, scarfLen := len, scarfEnd := t + BitVec.ofNat 32 (16 * len), cause := cause }

/-- SCARF_STEAL of a part in samples (R97, R119). -/
def State.scarfSteal (s : State) (part : Nat) : Nat := samples100us s.time.rate (s.partP part 0xF5)

/-- A voice has not yet sounded at stamp `t`: before its first unsuppressed sample (R157). -/
def beforeOnset (v : Voice) (t : Word) : Bool := v.st == .pending || (v.st == .preRoll && decide (stampDist t (sampleCeil v.onset) < 0))

/-- A release at stamp `t` (R106, R157, R174). -/
def releaseVoice (i : Nat) (t : Word) (s : State) : State :=
  let v := s.voice i
  if v.toFree ∨ v.st = .releasing ∨ v.st = .scarf ∨ v.st = .free then s
  else if beforeOnset v t then cancelAt i t s
  else
    s.setVoice i { v with st := .releasing, released := true, relRecorded := false, envs := pendEnvs v t true }

/-- An end at stamp `t` through a Scarf of `len` samples (R106, R118, R157). -/
def endVoice (i : Nat) (t : Word) (len cause : Nat) (s : State) : State :=
  let v := s.voice i
  if v.toFree ∨ v.st = .scarf ∨ v.st = .free then s
  else if beforeOnset v t then cancelAt i t s
  else scarfVoice i t len cause s

/-- A start is refused: FREE with end cause REFUSED, its part's REFUSED counter, trace type 0x03 (R114, R262). -/
def refuseVoice (why i : Nat) (s : State) : State :=
  let v := s.voice i
  let s1 := s.setVoice i { v with cause := 6, silent := true }
  let s2 := freeVoice i s1
  traceBay 0x03 0xFF v.bay i (pack [(why, 8), (v.part, 0)]) 0 (s2.onPart v.part fun c => { c with refused := satInc c.refused })

end Sys2Proof.Machine
end

