-- ==== Sys2Proof/Machine/Sessions.lean ====
section
/-! DEFINITION. Partners' events on their way into the timeline (chapter 10, R303 to R314): stamping, UMP messages and what they
do, entry and its tests, the intake FIFO, parked sessions. -/

namespace Sys2Proof.Machine

-- stamping (R38, R303, R304) -------------------------------------------------------------------------------------------------------

/-- Half away from zero: round(n / d) (R303: llround). -/
def roundDiv (n : Int) (d : Nat) : Int := if 0 ≤ n then (2 * n + d) / (2 * d) else -((2 * (-n) + d) / (2 * d))

/-- The stamp at Device Time `t` on the device timeline (R303). -/
def State.stampAt (s : State) (t : BitVec 64) : Word :=
  s.time.stamp + BitVec.ofInt 32 (roundDiv ((t - s.time.tickDt).toInt * 16 * baseRate s.time.rate) (10 ^ 9))

/-- LEAD in whole stamp ticks, rounded to nearest (R303). -/
def leadTicks (rate : BitVec 3) (lead : Nat) : Word := BitVec.ofInt 32 (roundDiv ((lead : Int) * 16 * baseRate rate) (10 ^ 6))

/-- A media stamp as a device stamp: s = m - M of the clock-of-record domain (R38). -/
def State.fromMedia (s : State) (m : Word) : Word := m - (s.dom (corDom s.time.activeCor.toNat)).media

/-- Samples within the last 2 s of Device Time `r`, at most 16 (R304). -/
def recentJr (xs : List (BitVec 64 × BitVec 64)) (r : BitVec 64) : List (BitVec 64 × BitVec 64) :=
  (xs.filter fun x => decide ((r - x.2).toInt ≤ 2000000000)).take 16

/-- Unwrap a 16-bit sender time of 32 µs units to the 64-bit time nearest to `near` (R304). -/
def unwrapJr (c : BitVec 16) (near : BitVec 64) : BitVec 64 :=
  let period : Int := 65536 * 32000
  let base : Int := (c.toNat : Int) * 32000
  BitVec.ofInt 64 (base + period * roundDiv (near.toInt - base) (65536 * 32000))

/-- Take a JR Clock sample: OFFSET is the least o, JITTER the mean of o - OFFSET, over the window (R304). -/
def takeJr (i : Nat) (r : BitVec 64) (c : BitVec 16) (s : State) : State :=
  let x := s.session i
  let sent := unwrapJr c (if x.jr.isEmpty then x.jrLast else r - x.offset)
  let win := recentJr ((r - sent, r) :: x.jr) r
  let least := win.foldl (fun (m : BitVec 64) y => if y.1.toInt < m.toInt then y.1 else m) (r - sent)
  let total := win.foldl (fun a y => a + (y.1 - least).toNat) 0
  s.setSession i { x with jr := win, jrLast := sent, offset := least, jitter := BitVec.ofNat 32 (total / win.length) }

/-- The Bay an event for part `p` belongs to has its own timeline (R303). -/
def State.renderPart (s : State) (p : Nat) : Bool := s.ownTimeline (s.partBay p)

/-- Stamp of an event without a stamp of its own, received at Device Time `r` (R303). -/
def State.stampEvent (s : State) (i part : Nat) (jr : Option (BitVec 16)) (r : BitVec 64) : Word :=
  let x := s.session i
  if s.renderPart part then s.reachOf (s.partBay part)
  else
    let lead := leadTicks s.time.rate x.lead
    match jr with
    | some c =>
      if 4 ≤ (recentJr x.jr r).length then s.stampAt (unwrapJr c (r - x.offset) + x.offset) + lead else s.stampAt r + lead
    | none => s.stampAt r + lead

-- values (R306) ------------------------------------------------------------------------------------------------------------------------

/-- The repeated OR of the scaling loop; at most `fuel` rounds, the width of the target (R306). -/
def scaleLoop (rb : Nat) : Nat → Nat → Nat → Nat
  | 0, out, _ => out
  | fuel + 1, out, r => if r = 0 then out else scaleLoop rb fuel (out ||| r) (r >>> rb)

/-- Min-centre-max scaling from `sb` to `db` bits (R306). -/
def scaleUp (v sb db : Nat) : Nat :=
  let sh := db - sb
  let out := v <<< sh
  if v ≤ 2 ^ (sb - 1) then out
  else
    let rb := sb - 1
    let r := v % 2 ^ rb
    scaleLoop rb db out (if rb < sh then r <<< (sh - rb) else r >>> (rb - sh))

/-- A 32-bit value for a unipolar FRAC endpoint (R306). -/
def unipolar (u : Word) : Word := u >>> 9
/-- A 32-bit value for a bipolar FRAC endpoint (R306). -/
def bipolar (u : Word) : Word := (u - 0x80000000).sshiftRight 8

-- messages (R306, R307) ------------------------------------------------------------------------------------------------------------------

/-- A channel voice message with its values at MIDI 2.0 widths (R306, R307). -/
inductive Message where
  | noteOn (note : Nat) (vel : BitVec 16)
  | noteOff (note : Nat)
  | polyPressure (note : Nat) (v : Word)
  | pnBend (note : Nat) (v : Word)
  | pnCtrl (note idx : Nat) (v : Word)
  | pnManage (note : Nat) (reset : Bool)
  | control (n : Nat) (v : Word)
  /-- a control change in 7 bits, of MIDI 1.0 -/
  | control7 (n v : Nat)
  | rpn (msb lsb : Nat) (v : Word)
  | program (p : Nat) (bank : Option Nat)
  /-- a MIDI 1.0 Program Change, whose bank is the session's -/
  | program7 (p : Nat)
  | pressure (v : Word)
  | bendMsg (v : Word)
  | ignored
deriving DecidableEq, Repr

/-- A MIDI 1.0 channel voice message: status high nibble and two data bytes (R302, R306; the layout is MIDI 1.0's). -/
def midi1Message (st d1 d2 : Nat) : Message :=
  match st with
  | 0x8 => .noteOff d1
  | 0x9 => if d2 = 0 then .noteOff d1 else .noteOn d1 (BitVec.ofNat 16 (scaleUp d2 7 16))
  | 0xA => .polyPressure d1 (BitVec.ofNat 32 (scaleUp d2 7 32))
  | 0xB => .control7 d1 d2
  | 0xC => .program7 d1
  | 0xD => .pressure (BitVec.ofNat 32 (scaleUp d1 7 32))
  | 0xE => .bendMsg (BitVec.ofNat 32 (scaleUp (d1 + 128 * d2) 14 32))
  | _ => .ignored

/-- A MIDI 2.0 channel voice message: opcode, two index bytes, data (R307; the layout is UMP's, PRESUMED, log entry 23). -/
def midi2Message (op i1 i2 : Nat) (v : Word) : Message :=
  match op with
  | 0x1 => if i2 < 8 then .pnCtrl (i1 % 128) i2 v else .ignored
  | 0x2 => .rpn (i1 % 128) (i2 % 128) v
  | 0x6 => .pnBend (i1 % 128) v
  | 0x8 => .noteOff (i1 % 128)
  | 0x9 => .noteOn (i1 % 128) (if bits v 31 16 = 0 then 1 else BitVec.ofNat 16 (bits v 31 16))
  | 0xA => .polyPressure (i1 % 128) v
  | 0xB => .control (i1 % 128) v
  | 0xC => .program (bits v 30 24) (if i2 % 2 = 1 then some (bits v 6 0) else none)
  | 0xD => .pressure v
  | 0xE => .bendMsg v
  | 0xF => .pnManage (i1 % 128) (i2 % 2 = 1)
  | _ => .ignored

/-- Channel key 16 x group + channel of a packet, and its message; a type other than 0x2 and 0x4 is ignored (R306, R307). -/
def umpMessage (p : Ump) : Nat × Message :=
  let w := p.getD 0 0
  let key := 16 * bits w 27 24 + bits w 19 16
  match bits w 31 28 with
  | 2 => (key, midi1Message (bits w 23 20) (bits w 14 8) (bits w 6 0))
  | 4 => (key, midi2Message (bits w 23 20) (bits w 15 8) (bits w 7 0) (p.getD 1 0))
  | _ => (key, .ignored)

/-- BEND_RANGE of an RPN value: semitones [31:25] and cents [24:18] (R307). -/
def bendRange (v : Word) : Word :=
  let c := bits v 24 18
  BitVec.ofNat 32 (bits v 31 25 * 65536 + (if c * 65536 % 100 = 0 then c * 65536 / 100 else centsOf c))

/-- A stamped endpoint write of a message, its value clamped (R187, R307). -/
def writeAct (a : Nat) (v : Word) : Action := .write a (match descOf a with | some d => d.clamp v | none => v)

/-- TEMPLATE of a Program Change (R307). -/
def programAct (part p : Nat) (bank : Option Nat) : Action :=
  writeAct (partAddr part 0xF6) (BitVec.ofNat 32 (p + (match bank with | some l => 128 * (l % 2) | none => 0)))

/-- A Control Change's action; `none` when it is not listed (R307). -/
def controlAct (part n : Nat) (v : Word) : Option Action :=
  if n = 7 then some (writeAct (partAddr part 0x00) (unipolar v))
  else if n = 10 then some (writeAct (partAddr part 0x01) (bipolar v))
  else if 16 ≤ n ∧ n ≤ 19 then some (writeAct (partAddr part (0x10 + (n - 16))) (bipolar v))
  else if 80 ≤ n ∧ n ≤ 83 then some (writeAct (partAddr part (0x14 + (n - 80))) (bipolar v))
  else if n = 64 then some (.sustain part (decide (0x40000000 ≤ v.toNat)))
  else if n = 120 then some (.soundOff part)
  else if n = 123 then some (.notesOff part)
  else none

/-- Count a message as IGNORED (R302, R307). -/
def countIgnored (i : Nat) (s : State) : State := s.setSession i { s.session i with ignored := satInc (s.session i).ignored }

/-- MIDI 1.0's null parameter number, held before any Control Change 100 or 101 and after 98 or 99 (PRESUMED, log entry 23). -/
def rpnNull : BitVec 28 := 0xFFFC000

/-- Replace field `lo` (7 bits) of the RPN assembly of a channel (R307). -/
def putRpn (i key lo v : Nat) (s : State) : State :=
  let x := s.session i
  let r := x.rpn.look key rpnNull
  s.setSession i { x with rpn := x.rpn.put key ((r &&& ~~~((0x7F : BitVec 28) <<< lo)) ||| (BitVec.ofNat 28 v <<< lo)) }

/-- A MIDI 1.0 Control Change: bank, RPN assembly, or as the 32-bit message (R307). -/
def control7Act (i key part n v : Nat) (s : State) : State × Option Action :=
  let x := s.session i
  match n with
  | 0 => (s.setSession i { x with bankMsb := x.bankMsb.put key v }, none)
  | 32 => (s.setSession i { x with bankLsb := x.bankLsb.put key v }, none)
  | 101 => (putRpn i key 21 v s, none)
  | 100 => (putRpn i key 14 v s, none)
  | 99 | 98 => (s.setSession i { x with rpn := x.rpn.put key rpnNull }, none)
  | 6 => (putRpn i key 7 v s, none)
  | 38 =>
    let s1 := putRpn i key 0 v s
    let r := (s1.session i).rpn.look key rpnNull
    if r.toNat / 2 ^ 14 = 0 then
      (s1, some (writeAct (partAddr part 0x08) (bendRange (pack [(r.toNat / 128 % 128, 25), (r.toNat % 128, 18)]))))
    else (countIgnored i s1, none)
  | _ =>
    match controlAct part n (BitVec.ofNat 32 (scaleUp v 7 32)) with
    | some a => (s, some a)
    | none => (countIgnored i s, none)

/-- The action of a message for a part, with what it does to its session at once (R307). -/
def messageAct (i key part : Nat) (m : Message) (s : State) : State × Option Action :=
  let x := s.session i
  match m with
  | .noteOn k v => (s, some (.noteOn part k v))
  | .noteOff k => (s, some (.noteOff part k))
  | .polyPressure k v => (s, some (.perNote part k 0xF1 (unipolar v)))
  | .pnBend k v => (s, some (.perNote part k 0xF0 (bipolar v)))
  | .pnCtrl k j v => (s, some (.perNote part k (0xF2 + j) (bipolar v)))
  | .pnManage k r => (s, if r then some (.pnReset part k) else none)
  | .control 0 v => (s.setSession i { x with bankMsb := x.bankMsb.put key (v.toNat / 2 ^ 25) }, none)
  | .control 32 v => (s.setSession i { x with bankLsb := x.bankLsb.put key (v.toNat / 2 ^ 25) }, none)
  | .control n v => (match controlAct part n v with | some a => (s, some a) | none => (countIgnored i s, none))
  | .control7 n v => control7Act i key part n v s
  | .rpn 0 0 v => (s, some (writeAct (partAddr part 0x08) (bendRange v)))
  | .rpn _ _ _ => (countIgnored i s, none)
  | .program p b => (s, some (programAct part p b))
  | .program7 p => (s, some (programAct part p (x.bankLsb.find key)))
  | .pressure v => (s, some (writeAct (partAddr part 0x0A) (unipolar v)))
  | .bendMsg v => (s, some (writeAct (partAddr part 0x07) (bipolar v)))
  | .ignored => (countIgnored i s, none)

/-- The part a message addresses (R306). -/
def State.partOf (s : State) (i key : Nat) : Nat := (key + (s.session i).partOffset.toNat) % 256

/-- The part whose Bay an action is stamped for. -/
def Action.part (a : Action) : Nat :=
  match a with
  | .noteOn p _ _ | .noteOff p _ | .perNote p _ _ _ | .pnReset p _ | .sustain p _ | .soundOff p | .notesOff p => p
  | .write addr _ => addr / 256
  | _ => 0

-- note starts at entry (R102, R103, R155, R181 to R183) --------------------------------------------------------------------------------------

/-- The newest voice of a part whose record satisfies `f`. -/
def State.newest (s : State) (f : Voice → Bool) : Option Nat :=
  leastRank ((s.voicesWith fun v => !v.toFree && f v).map fun p => (2 ^ 48 - p.2.start.toNat, p.1))

/-- The oldest voice whose record satisfies `f`. -/
def State.oldest (s : State) (f : Voice → Bool) : Option Nat :=
  leastRank ((s.voicesWith fun v => !v.toFree && f v).map fun p => (p.2.start.toNat, p.1))

/-- Push a note on a part's stack: at most 16 entries, each note once (R183). -/
def pushNote (p k : Nat) (s : State) : State :=
  { s with params := { s.params with noteStacks := s.params.noteStacks.put p ((k :: (s.params.noteStacks.look p []).filter fun x => x != k).take 16) } }

/-- A voice that sounds at stamp `t`, as far as is known: HELD, RELEASING, or past its onset by then (R104, R154). -/
def soundsBy (t : Word) (v : Voice) : Bool :=
  v.st == .held || v.st == .releasing
  || ((v.st == .preRoll || (v.st == .pending && !v.deferred && !v.waitContent)) && decide (stampDist (sampleCeil v.onset) t ≤ 0))

/-- A voice that waits at stamp `t`: its start has an earlier stamp, and its onset lies after `t` (R183). -/
def waitsAt (t : Word) (v : Voice) : Bool :=
  (v.st == .pending || v.st == .preRoll) && !soundsBy t v && decide (stampDist v.stamp t ≤ 0)

/-- What a note start does (R181). -/
inductive StartChoice where
  | fresh
  | retrigger (slot : Nat)
  | glide (slot : Nat)
deriving DecidableEq, Repr

/-- What a note start for part `p`, note `k` does at its stamp `t`: RETRIG and the voices as they will stand there, as far as is known
(R181, R183; log entry 24). `own`: the voice the start itself has taken. -/
def startChoice (p k : Nat) (t : Word) (own : Option Nat) (s : State) : StartChoice :=
  let mine := fun (v : Voice) => v.part == p && own.all fun i => v.start != (s.voice i).start
  match (s.endpointDue (partAddr p 0x0C) t).toNat with
  | 0 => .fresh
  | 1 => (match s.newest fun v => mine v && soundsBy t v && v.note == k with | some i => .retrigger i | none => .fresh)
  | mode =>
    match s.newest fun v => mine v && (soundsBy t v || waitsAt t v) with
    | none => .fresh
    | some i => if !soundsBy t (s.voice i) then .fresh else if mode = 3 ∧ (s.voice i).st ≠ .releasing then .glide i else .retrigger i

/-- A start without a slot: refused and counted, trace type 0x03 cause 6 (R103, R262). -/
def noSlot (p : Nat) (s : State) : State :=
  traceBay 0x03 0xFF (s.partBay p) 0 (pack [(6, 8), (p, 0)]) 0 (s.onPart p fun c => { c with refused := satInc c.refused })

/-- A new voice for a start with stamp `t` not before the reach point (R102, R155); `late`: counted late already; else one with too short a lead
counts by the stamp `asked` for it. Answers whether it was counted late. -/
def newVoice (sid : Option Nat) (p k : Nat) (vel : BitVec 16) (t asked : Word) (late : Bool) (s : State) : State × Bool :=
  let b := s.partBay p
  let q : StartReq :=
    { part := p, template := (s.endpointDue (partAddr p 0xF6) t).toNat, priority := (s.endpointDue (partAddr p 0xF3) t).toNat, note := k,
      velocity := vel, session := sid }
  match acceptStart q s with
  | none => (noSlot p s, late)
  | some (i, s1) =>
    let x := startTimes t (s.reachOf b) (s.preRoll b) s.tpf
    let s2 := enterTimeline { stamp := t, key := x.key, bay := b, session := sid, counted := late || x.short, act := .start i } (setTimes i t x false s1)
    if x.short ∧ ¬ late then (countLate sid (x.onset - asked).toNat s2, true) else (s2, late)

/-- N of a synchronising reset's Scarf: 0.5 ms in samples (R118, R158). -/
def resyncLen (rate : BitVec 3) : Nat := samples100us rate 5

/-- Arm the synchronising reset of a retrigger at stamp `t`, when the template has RESYNC = 1 there, as far as is known (R158, R182); one that enters after
its release key falls later and is counted late. Answers whether it was counted. A late event that arms a late reset counts twice, once at entry and
once here (DESIGN CHOICE, log entry 136). -/
def armResync (i : Nat) (sid : Option Nat) (t : Word) (s : State) : State × Bool :=
  let v := s.voice i
  if s.endpointDue (tmplAddr v.template 0xE6) t = 0 ∨ v.st = .scarf then (s, false)
  else
    let n := BitVec.ofNat 32 (16 * resyncLen s.time.rate)
    let reach := s.reachOf v.bay
    let tpf := BitVec.ofNat 32 s.tpf
    if 0 ≤ stampDist (t - n - tpf) reach then (s.setVoice i { v with resyncs := v.resyncs ++ [(t, t)] }, false)
    else
      let at_ := reach + tpf + n
      (countLate sid (at_ - t).toNat (s.setVoice i { v with resyncs := v.resyncs ++ [(t, at_)] }), true)

/-- The synchronising reset of a retrigger at stamp `t` that does not take place is no longer armed. -/
def disarmResync (i : Nat) (t : Word) (s : State) : State :=
  let v := s.voice i
  s.setVoice i { v with resyncs := v.resyncs.filter fun r => r.1 != t }

/-- Insert an item by stamp against a reference point, stable. -/
def insertStamp (ref : Word) (x : TEvent) (xs : List TEvent) : List TEvent :=
  match xs with
  | [] => [x]
  | y :: r => if stampDist x.stamp ref < stampDist y.stamp ref then x :: y :: r else y :: insertStamp ref x r

/-- Items in stamp order. -/
def stampOrder (ref : Word) (xs : List TEvent) : List TEvent := xs.foldl (fun acc x => insertStamp ref x acc) []

/-- The note stack of part `p` as an item leaves it (R183). -/
def State.stackAfter (s : State) (p : Nat) (stack : List Nat) (x : TEvent) : List Nat :=
  let push := fun (q k : Nat) => if q = p then (k :: stack.filter fun y => y != k).take 16 else stack
  match x.act with
  | .noteOn q k _ => push q k
  | .push _ q k => push q k
  | .start i => if (s.voice i).byCommand then stack else push (s.voice i).part (s.voice i).note
  | .retrigger i k _ | .glide i k _ => push (s.voice i).part k
  | .noteOff q k => if q = p then stack.filter fun y => y != k else stack
  | _ => stack

/-- The note stack of part `p` at stamp `t`, as far as is known: what is stored, then what waits for a stamp up to `t`, in its order (R183, R309). -/
def State.stackDue (s : State) (p : Nat) (t : Word) : List Nat :=
  (stampOrder t (s.se.timeline.filter fun x => decide (stampDist x.stamp t ≤ 0))).foldl (s.stackAfter p) (s.params.noteStacks.look p [])

/-- The voice that a Note Off at stamp `t` retriggers, as far as is known: in MONO_RETRIG, when it pops the top note and notes remain (R183). -/
def State.offRetriggers (s : State) (p k : Nat) (t : Word) : Option Nat :=
  if s.endpointDue (partAddr p 0x0C) t = 2 then
    match s.stackDue p t with
    | top :: _ :: _ => if top = k then s.newest fun v => v.part == p && (v.st == .pending || v.st == .preRoll || v.st == .held || v.st == .releasing) else none
    | _ => none
  else none

/-- Put an accepted event on the timeline at stamp `t` (R155, R181, R309); a per-note message binds a group now, or is discarded for want of
one (R184). Answers whether it counted late. -/
def placeEvent (sid : Option Nat) (act : Action) (t : Word) (late : Bool) (s : State) : State × Bool :=
  let b := s.partBay act.part
  let item : TEvent := { stamp := t, key := t, bay := b, session := sid, counted := late, act := act }
  match act with
  | .noteOn p k vel =>
    (match startChoice p k t none s with
     | .retrigger i =>
       let r := armResync i sid t s
       (enterTimeline { item with counted := late || r.2, act := .retrigger i k vel } r.1, late || r.2)
     | .glide i => (enterTimeline { item with act := .glide i k vel } s, late)
     | .fresh => newVoice sid p k vel t t late s)
  | .noteOff p k =>
    (match s.offRetriggers p k t with
     | some i => let r := armResync i sid t s; (enterTimeline { item with counted := late || r.2, armed := some i } r.1, late || r.2)
     | none => (enterTimeline item s, late))
  | .perNote p k _ _ | .pnReset p k =>
    (match bindGroup p k s with
     | some (_, s1) => (enterTimeline item s1, late)
     | none => (countPnMiss p s, late))
  | _ => (enterTimeline item s, late)

/-- Change a session's record. -/
def State.onSession (s : State) (i : Nat) (f : Session → Session) : State := s.setSession i (f (s.session i))

/-- Count an event that the pool or the queue limit turns away (R311). -/
def countOverflow (i : Nat) (s : State) : State := s.onSession i fun x => { x with overflow := satInc x.overflow }

/-- Entry into the Session Engine, with its stamp test (R33 to R35, R37): `held`: the event already has its place (R311). -/
def enterEvent (i : Nat) (act : Action) (stamp : Word) (held : Bool) (s : State) : State :=
  let b := s.partBay act.part
  let reach := s.reachOf b
  match classify stamp reach with
  | .range => s.onSession i fun x => { x with range := satInc x.range }
  | .future =>
    if held || s.roomFor (some i) 1 then (placeEvent (some i) act stamp false (s.onSession i fun x => { x with events := satInc x.events })).1
    else countOverflow i s
  | .late =>
    if (s.session i).dropLate then s.onSession i fun x => { x with droppedLate := satInc x.droppedLate }
    else if !(held || s.roomFor (some i) 1) then countOverflow i s
    else
      let s1 := countLate (some i) (-(stampDist stamp reach)).toNat (s.onSession i fun x => { x with events := satInc x.events })
      (placeEvent (some i) act reach true s1).1

-- intake (R302, R310, R313) ------------------------------------------------------------------------------------------------------------------

/-- Events the Session Engine takes in during one device frame: 2,000,000 per second (R310). -/
def intakePerFrame (rate : BitVec 3) : Nat := famFrames rate 333 362

/-- The intake takes another event now: none waits, and the frame's share is not used up (R310). -/
def State.intakeRoom (s : State) : Bool := s.se.fifo.isEmpty && decide (s.se.intakeTaken < intakePerFrame s.time.rate)

/-- Count an event taken in. -/
def countIntake (s : State) : State := { s with se := { s.se with intakeTaken := s.se.intakeTaken + 1 } }

/-- An event beyond the rate waits in the intake FIFO; a full one discards it (R310). -/
def waitIntake (i : Nat) (act : Action) (stamp : Word) (s : State) : State :=
  if s.se.fifo.length < 4096 then
    { s with se := { s.se with fifo := s.se.fifo ++ [{ stamp := stamp, session := some i, act := act }] } }
  else { s with se := { s.se with intakeDrop := satInc s.se.intakeDrop } }

/-- An event arrives at the Session Engine (R310); `held`: it has its entry, one of the Conductor's (R313). -/
def intakeEvent (i : Nat) (act : Action) (stamp : Word) (held : Bool) (s : State) : State :=
  if s.intakeRoom then countIntake (enterEvent i act stamp held s) else waitIntake i act stamp s

/-- The oldest waiting event leaves the intake FIFO and enters, when the frame's intake has room for it (R310). -/
def intakeExit (s : State) : State :=
  match s.se.fifo with
  | [] => s
  | t :: r =>
    if intakePerFrame s.time.rate ≤ s.se.intakeTaken then s else
    let s1 := countIntake { s with se := { s.se with fifo := r } }
    match t.session with
    | some i => enterEvent i t.act t.stamp false s1
    | none => s1

/-- INTAKE_FIFO_EXIT (R310). -/
def execIntakeFifoExit (s : State) : Outcome := .next (intakeExit s)

/-- A stamped event of a session: held while the session is parked, else it goes to the intake (R302, R313). A UART's waits in
the UART's buffer `u`. -/
def deliver (i : Nat) (u : Option Nat) (act : Action) (stamp : Word) (s : State) : State :=
  if s.parked i then
    match u with
    | some n =>
      let x := s.uart n
      if x.buf.length < 64 ∧ queuedOf i s < (s.session i).queueLimit then
        hwPostNew 2 4 (s.setUart n { x with buf := x.buf ++ [{ stamp := stamp, session := some i, act := act }] })
      else countOverflow i s
    | none =>
      if s.roomFor (some i) 1 then
        s.onSession i fun x => { x with parkedEvents := x.parkedEvents ++ [{ stamp := stamp, session := some i, act := act }] }
      else countOverflow i s
  else intakeEvent i act stamp false s

/-- A message of session `i` received at Device Time `r` (R303, R306, R307). -/
def receiveMessage (i : Nat) (u : Option Nat) (key : Nat) (m : Message) (jr : Option (BitVec 16)) (r : BitVec 64) (s : State) : State :=
  let part := s.partOf i key
  let a := messageAct i key part m s
  match a.2 with
  | none => a.1
  | some act => deliver i u act (s.stampEvent i act.part jr r) a.1

/-- The events held for the sessions, in Conductor memory and in the UARTs' buffers (R313). -/
def parkedItems (s : State) : List TEvent := (openSessions s).flatMap (fun i => (s.session i).parkedEvents) ++ s.uarts.flatMap fun u => u.2.buf

/-- UART events of parked sessions whose post to the COND queue the Session Engine still keeps: they enter later (R257). That each such event is
one post, when it enters its buffer, is the model's choice (DESIGN CHOICE, log entry 21). -/
def waitingUart (s : State) : List TEvent :=
  let us := stampOrder s.time.reach (s.uarts.flatMap fun u => u.2.buf)
  us.drop (us.length - (s.dsp.repost.filter fun p => p.1 == 2).length)

/-- One held event is handed over (R311, R313): one that holds a Conductor entry keeps it while its session is parked; one of a UART, or of a session
promoted meanwhile, is tested for its place. -/
def handOver (s : State) (t : TEvent) : State :=
  match t.session with
  | none => s
  | some i =>
    let held := (s.session i).parkedEvents.contains t
    intakeEvent i t.act t.stamp (held && s.parked i) (s.onSession i fun x => { x with parkedEvents := x.parkedEvents.erase t })

/-- Hand over the held events of every session in stamp order, each tested then, at the rate of the intake (R33, R310, R313, R314). -/
def handOverAll (s : State) : State :=
  let kept := waitingUart s
  let s1 := { s with uarts := s.uarts.mapVals fun _ u => { u with buf := u.buf.filter fun t => kept.contains t } }
  (stampOrder s.time.reach ((parkedItems s).filter fun t => !kept.contains t)).foldl handOver s1

/-- The parked session promoted next: highest RANK, then opened earlier (R314). -/
def nextPromoted (s : State) : Option Nat :=
  leastRank (((openSessions s).filter fun i => s.parked i).map fun i => ((255 - (s.session i).rank.toNat) * 2 ^ 40 + (s.session i).openOrder, i))

/-- A free hardware slot takes a parked session (R314). -/
def promoteOne (s : State) : Option State :=
  match nextPromoted s with
  | none => none
  | some i => if freeSlot s = 255 then none else some (s.onSession i fun x => { x with slot := freeSlot s })

/-- The sessions promoted at a device frame boundary: at most 96 (R314). -/
def promoteAll : Nat → State → State
  | 0, s => s
  | n + 1, s => match promoteOne s with
    | some t => promoteAll n t
    | none => s

end Sys2Proof.Machine
end

