-- ==== Sys2Proof/Machine/Audio.lean ====
section
/-! DEFINITION. Routes, TDM and PDM ports, network streams, AVDECC and the audio PLL (chapter 12, R354 to R377; R48, R49). -/

namespace Sys2Proof.Machine

-- registers -------------------------------------------------------------------------------------------------------------------------

/-- TDM_CFG of unit 0 to 15 (R358, R370). -/
def State.tdmOf (s : State) (p : Nat) : Word := s.audio.tdm.look p 0x08010000

/-- AUD_STATUS (R371). -/
def State.audStatus (s : State) : Word :=
  pack [(s.audio.slip.toNat, 24), (s.audio.busSat.toNat, 16), (s.audio.streamErr.toNat, 8), (b2n s.audio.holdover, 3),
        (b2n s.audio.lock, 2), (s.audio.ref.toNat, 0)]

/-- MCLK_OUT drives the audio master clock (R492): while the audio PLL is locked; it is driven low otherwise, and no clock runs in SLEEP (R480). -/
def State.mclkOut (s : State) : Bool := s.audio.lock && s.power.state != 2

-- routes (R354, R355, R372) -----------------------------------------------------------------------------------------------------------

/-- A destination code of the table Destinations (R355). -/
def destOk (d : Nat) : Bool :=
  (decide (0x100 ≤ d) && decide (d < 0x320)) || (decide (0x400 ≤ d) && decide (d < 0x500))

/-- One word of ROUTE.SET in range (R372). -/
def routeWordOk (w : Word) : Bool :=
  destOk (bits w 31 20) && bits w 19 17 == 0 && bits w 15 8 == 0 && (!bit w 16 || bits w 7 0 == 0)

/-- The route words of an entry. -/
def routeWords (e : Entry) : List Word := e.payload.drop 1

/-- A render bus goes to its own Bay's render ring alone (R354). -/
def routeAllowed (s : State) (w : Word) : Bool :=
  bit w 16 || (List.range 8).all fun b =>
    !(s.formed b && (s.bay b).mode == .render && (declaredBuses b s).contains (bits w 7 0)) || bits w 31 20 / 32 == 0x20 + s.ringBay b

/-- The Bay a route's staged value belongs to (R83): one whose task declares the bus, or whose render ring it feeds. -/
def routeBay (s : State) (w : Word) : Nat :=
  let d := bits w 31 20
  if 0x400 ≤ d then (d - 0x400) / 32
  else ((List.range 8).find? fun b => s.formed b && !bit w 16 && (declaredBuses b s).contains (bits w 7 0)).getD 255

/-- The staged values of ROUTE.SET. -/
def routeFields (e : Entry) (s : State) : List Staged :=
  (routeWords e).map fun w => { field := .route (bits w 31 20), value := [w], bay := routeBay s w }

/-- ROUTE.SET (R372). -/
def cardRouteSet : Card where
  opcode := 0x700
  len := fun e => decide (1 ≤ e.payload.length) && e.payload.length == 1 + bits (e.pw 0) 7 0
  range := fun e _ => bits (e.pw 0) 31 8 == 0 && bits (e.pw 0) 7 0 != 0 && (routeWords e).all routeWordOk
  flags := fun e _ => !e.stamped
  agree := fun e s =>
    ((routeWords e).map fun w => bits w 31 20).eraseDups.length == (routeWords e).length && (routeWords e).all (routeAllowed s)
  post := fun e s => stageChecks ((routeFields e s).map fun x => x.field) s
  run := fun e s => stageFields 0x700 e (routeFields e s) s

/-- N of a 0.5 ms Scarf (R118). -/
def halfMs (rate : BitVec 3) : Nat := samples100us rate 5

/-- A route changes at a commit: the destination crossfades from the old bus over 0.5 ms (R356). -/
def applyRoute (dest : Nat) (w : Word) (s : State) : State :=
  let old := s.bridge.routes.find dest
  let new := if bit w 16 then none else some (bits w 7 0)
  if old = new then s
  else { s with bridge := { s.bridge with routes := (match new with | some b => s.bridge.routes.put dest b | none => s.bridge.routes.del dest),
                                          fades := s.bridge.fades.put dest (old, halfMs s.time.rate) } }

-- TDM and PDM (R358, R359, R373) ---------------------------------------------------------------------------------------------------------

/-- Bits of a slot (R358). -/
def slotBits (w : Word) : Nat := match bits w 27 26 with | 0 => 16 | 1 => 24 | _ => 32

/-- Most bits of a TDM frame at a base rate (R359). -/
def tdmLimit (rate : BitVec 3) : Nat := if rate.toNat < 2 then 1024 else if rate.toNat < 4 then 512 else 256

/-- A port's slots times width within the limit (R359). -/
def tdmFits (rate : BitVec 3) (w : Word) : Bool := decide ((bits w 20 16 + 1) * slotBits w ≤ tdmLimit rate)

/-- TDM.SET (R373). -/
def cardTdmSet : Card where
  opcode := 0x701
  len := fun e => e.payload.length == 2
  range := fun e _ =>
    let u := (e.pw 0).toNat
    decide (u < 24) && (if u < 16 then bits (e.pw 1) 27 26 != 3 && bits (e.pw 1) 23 21 == 0 && bits (e.pw 1) 15 0 == 0 else bits (e.pw 1) 30 1 == 0)
  agree := fun e s => (decide (16 ≤ (e.pw 0).toNat)
      || (tdmFits s.time.rate (e.pw 1) && (decide (2 ≤ bits (e.pw 1) 29 28) || bits (e.pw 1) 20 16 == 1)))
  post := fun e s =>
    let u := (e.pw 0).toNat
    need (if u < 16 then !bit (s.tdmOf u) 31 || bits (s.tdmOf u) 30 0 == bits (e.pw 1) 30 0
          else !s.audio.pdm.getLsbD (u - 16) || s.audio.pdmEdge.getLsbD (u - 16) == bit (e.pw 1) 0) eBusy
  run := fun e s => queueBoundary 0x701 e {} s

/-- TDM.SET at its boundary (R79, R373). -/
def applyTdmSet (e : Entry) (s : State) : State :=
  let u := (e.pw 0).toNat
  if u < 16 then { s with audio := { s.audio with tdm := s.audio.tdm.put u (e.pw 1) } }
  else { s with audio := { s.audio with pdm := setBit s.audio.pdm (u - 16) (bit (e.pw 1) 31), pdmEdge := setBit s.audio.pdmEdge (u - 16) (bit (e.pw 1) 0) } }

/-- Ports that exceed the limit of a new base rate are disabled (R359). -/
def limitTdm (s : State) : State :=
  { s with audio := { s.audio with tdm := s.audio.tdm.mapVals fun _ w => if tdmFits s.time.rate w then w else setBit w 31 false } }

-- audio clock (R367, R368, R374) ---------------------------------------------------------------------------------------------------------------

/-- AUDIO.CLOCK.SET (R374). -/
def cardAudioClockSet : Card where
  opcode := 0x702
  len := fun e => e.payload.length == 1
  range := fun e _ =>
    let w := e.pw 0
    bits w 31 14 == 0 && bits w 11 9 == 0 && bits w 3 2 == 0 && bits w 13 12 != 3 && (bits w 1 0 == 3 || bits w 8 4 == 0)
  post := fun e s =>
    firstFail [ need (!s.followHeld || bits (e.pw 0) 1 0 == 2) eState,
                need (bits (e.pw 0) 1 0 != 3 || (s.stm (bits (e.pw 0) 8 4)).listener) eState ]
  run := fun e s => queueBoundary 0x702 e {} s

/-- The reference is lost: the PLL keeps its frequency (R368). -/
def loseReference (s : State) : State := { s with audio := { s.audio with refLost := true, lock := false, holdover := true } }

/-- A GPTP reference as its domain stands (R367, R368): lost while the domain of the clock of record is unlocked; it equals LOCAL while that clock is
LOCAL. -/
def gptpRef (s : State) : State :=
  if s.audio.ref ≠ 2 then s
  else if s.time.activeCor = 0 ∨ (s.dom (corDom s.time.activeCor.toNat)).locked then { s with audio := { s.audio with refLost := false } }
  else loseReference s

/-- AUDIO.CLOCK.SET at its boundary: the PLL slews to the new reference; its answer is AUD_STATUS [3:0] (R367, R374). -/
def applyAudioClock (e : Entry) (s : State) : State × List Word :=
  let w := e.pw 0
  let s1 := gptpRef { s with audio := { s.audio with ref := BitVec.ofNat 2 (bits w 1 0), refStream := bits w 8 4,
                                                     mclkForm := BitVec.ofNat 2 (bits w 13 12), lock := false, refLost := false } }
  (s1, [s1.audStatus &&& 0xF])

/-- AUDIO_PLL_LOCK (R367, R368): locked to its reference; a lost one must have returned. -/
def execAudioPllLock (s : State) : Outcome :=
  .next (if s.audio.refLost then s else { s with audio := { s.audio with lock := true, holdover := false } })

/-- REFERENCE_LOST (R368): the 25 MHz reference itself is never lost. -/
def execReferenceLost (s : State) : Outcome := .next (if s.audio.ref = 0 then s else loseReference s)

/-- REFERENCE_RETURN (R368): the PLL slews back; HOLDOVER clears when it is locked. -/
def execReferenceReturn (s : State) : Outcome := .next { s with audio := { s.audio with refLost := false } }

-- streams (R362 to R366, R375) -------------------------------------------------------------------------------------------------------------------

/-- Bytes of a packet on the wire (R364). -/
def packetBytes (channels spf : Nat) : Nat := 66 + 4 * channels * spf

/-- Tenths of a kbit/s of talker traffic on a port, of one class or of both, with streams as `stm` has them and stream `t` as given (R364). -/
def slope (stm : Nat → Stm) (s : State) (port : Nat) (cls : Option Bool) (t : Nat) (x : Stm) : Nat :=
  let of := fun (i : Nat) => if i = t then x else stm i
  (List.range 32).foldl (fun a i =>
    let y := of i
    if y.enable && !y.listener && y.port.toNat == port && (match cls with | some c => y.classB == c | none => true) then
      a + packetBytes y.channels s.spf * (if family48 s.time.rate then 480 else 441)
    else a) 0

/-- nsr of the AAF format at a base rate (R362: equal to the base rate; the codes are IEEE 1722-2016's, PRESUMED, log entry 27). -/
def nsrCode (rate : BitVec 3) : Nat := match rate.toNat with | 0 => 4 | 1 => 5 | 2 => 6 | 3 => 7 | 4 => 8 | _ => 9

/-- The stream format of AAF (R362; the layout is IEEE 1722-2016's, PRESUMED, log entry 27): subtype, nsr, format, bit_depth, channels and samples
per frame. -/
structure AafFormat where
  subtype : Nat
  nsr : Nat
  format : Nat
  depth : Nat
  channels : Nat
  samples : Nat
deriving DecidableEq, Repr

/-- The fields of a 64-bit stream format. -/
def readFormat (f : BitVec 64) : AafFormat :=
  let at_ := fun (lo w : Nat) => f.toNat / 2 ^ lo % 2 ^ w
  { subtype := at_ 53 11, nsr := at_ 48 4, format := at_ 40 8, depth := at_ 32 8, channels := at_ 22 10, samples := at_ 12 10 }

/-- AAF formats the device supports (R362): INT_32BIT with 24 bits for a talker, INT_32BIT and INT_24BIT for a listener; 1 to 8 channels, S samples. -/
def State.formatOk (s : State) (listener : Bool) (f : BitVec 64) : Bool :=
  let x := readFormat f
  x.subtype == 0x10 && x.nsr == nsrCode s.time.rate && (if listener then x.format == 2 || x.format == 3 else x.format == 2 && x.depth == 24)
    && decide (1 ≤ x.channels) && decide (x.channels ≤ 8) && x.samples == s.spf

/-- The format of a stream as it is set (R362): INT_32BIT unless a listener was set to INT_24BIT. -/
def State.streamFormat (s : State) (x : Stm) : BitVec 64 :=
  BitVec.ofNat 64 (0x10 * 2 ^ 53 + nsrCode s.time.rate * 2 ^ 48 + (if x.int24 = some true then 3 else 2) * 2 ^ 40 + 24 * 2 ^ 32
    + x.channels * 2 ^ 22 + s.spf * 2 ^ 12)

/-- A packet's format matches a listener's settings (R365): its channels, and the sample format where one was set. -/
def State.formatMatches (s : State) (x : Stm) (f : BitVec 64) : Bool :=
  s.formatOk true f && (readFormat f).channels == x.channels && x.int24.all fun b => b == ((readFormat f).format == 3)

/-- Destination address of talker stream `t`, from MAAP's dynamic range 91:E0:F0:00:00:00 to 91:E0:F0:00:FD:FF (R362; the range is IEEE 1722's,
PRESUMED, log entry 27). -/
def destMac (t : Nat) : Nat := 0x91E0F0000000 + Config.maap t % 0xFE00

/-- PCP of a class: 3 for class A, 2 for class B (R362). -/
def pcp (classB : Bool) : Nat := if classB then 2 else 3

/-- The stream a STREAM.SET describes (R375). -/
def streamOf (e : Entry) (x : Stm) : Stm :=
  let w := e.pw 0
  let b := bit w 20
  { x with enable := bit w 31, listener := bit w 30, port := BitVec.ofNat 2 (bits w 25 24), classB := b, channels := bits w 18 16 + 1,
           streamId := e.pw 2 ++ e.pw 1, int24 := none,
           transit := if e.pw 3 = 0 then (if b then 50000000 else 2000000) else (e.pw 3).toNat }

/-- Stream `i` as the STREAM.SETs that wait for the boundary will leave it (R364). -/
def State.plannedStm (s : State) (i : Nat) : Stm :=
  (s.mbx.jobs.filter fun jb => jb.opcode == 0x710 && bits (jb.e.pw 0) 4 0 == i).foldl (fun x jb => streamOf jb.e x) (s.stm i)

/-- STREAM.SET (R364, R375): the sum of both classes counts those that wait for the same boundary. -/
def cardStreamSet : Card where
  opcode := 0x710
  len := fun e => e.payload.length == 4
  range := fun e _ =>
    let w := e.pw 0
    bits w 29 26 == 0 && decide (bits w 25 24 < 2) && bits w 23 21 == 0 && !bit w 19 && bits w 15 5 == 0
    && (if bit w 30 then e.pw 3 == 0 else e.pw 1 == 0 && e.pw 2 == 0) && decide ((e.pw 3).toNat ≤ 50000000)
  post := fun e s =>
    let t := bits (e.pw 0) 4 0
    let old := s.plannedStm t
    let new := slope s.plannedStm s (bits (e.pw 0) 25 24) none t (streamOf e old)
    need (decide (new ≤ 7500000) || decide (new ≤ slope s.plannedStm s (bits (e.pw 0) 25 24) none t old)) eNoslot
  run := fun e s => queueBoundary 0x710 e {} s

/-- The stream_id that talker stream `t` sends (R363): the port's MAC address in [63:16] and t in [15:0]. -/
def talkerId (port t : Nat) : BitVec 64 := Config.mac port ++ BitVec.ofNat 16 t

/-- MSRP declares a stream or withdraws it (R362): a talker advertises its stream, destination and class in VLAN 2, which MVRP joins; a listener
declares itself ready. -/
def declareStream (t : Nat) (on : Bool) (x : Stm) (s : State) : State :=
  if x.listener then s.send .msrpListener [x.port.toNat, x.streamId.toNat, b2n on]
  else (s.send .mvrpJoin [x.port.toNat, 2, b2n on]).send .msrpTalker
    [x.port.toNat, (talkerId x.port.toNat t).toNat, destMac t, 2, pcp x.classB, packetBytes x.channels s.spf, b2n on]

/-- What a STREAM.SET declares anew and withdraws (R362). -/
def redeclare (t : Nat) (old new : Stm) (s : State) : State :=
  let s1 := if old.enable then declareStream t false old s else s
  if new.enable then declareStream t true new s1 else s1

/-- STREAM.SET at its boundary (R364, R375). -/
def applyStreamSet (e : Entry) (s : State) : State × List Word :=
  let t := bits (e.pw 0) 4 0
  let x := streamOf e (s.stm t)
  let k := slope s.stm s x.port.toNat (some x.classB) t x
  (redeclare t (s.stm t) x (s.setStm t { x with buf := [], byArrival := none, rxSeq := none, idleFrames := 0 }),
   [BitVec.ofNat 32 (if k % 10 = 0 then k / 10 else kbitOf k)])

/-- LISTENER_READY: MSRP holds a Listener Ready or Ready Failed declaration (R363). -/
def execListenerReady (t : Nat) (s : State) : Outcome := withUnit t 32 (.next (s.setStm t { s.stm t with ready := true }))

/-- LISTENER_READY_WITHDRAWN (R363). -/
def execListenerReadyWithdrawn (t : Nat) (s : State) : Outcome := withUnit t 32 (.next (s.setStm t { s.stm t with ready := false }))

/-- The domain whose time a listener uses (R366): the clock of record's, else a locked one, else the one that unlocked last. -/
def State.listenerDomain (s : State) : Option Nat :=
  let c := s.time.activeCor.toNat
  if c ≠ 0 ∧ (s.dom (corDom c)).everLocked then some (corDom c)
  else if (s.dom 0).locked then some 0
  else if (s.dom 2).locked then some 2
  else if (s.dom s.time.lastUnlock.toNat).everLocked then some s.time.lastUnlock.toNat
  else if (s.dom 0).everLocked then some 0
  else if (s.dom 2).everLocked then some 2
  else none

/-- The stamp of sample 0 of a packet by its avtp_timestamp, unwrapped against the domain's time (R365). -/
def State.avtpStamp (s : State) (d : Nat) (ts : Word) : Word :=
  let off := (s.dom d).offset
  let now := s.time.deviceTime + off
  let p := now + (ts - now.setWidth 32).signExtend 64
  s.stampAt (p - off)

/-- A stamp rounded to the nearest sample (R365). -/
def nearestSample (x : Word) : Word := (x + 8) &&& ~~~(15 : Word)

/-- Where a sample lands: late, early, or in time (R365). -/
def State.sampleClass (s : State) (x : Word) : StampClass :=
  if stampDist x (s.time.stamp + BitVec.ofNat 32 s.tpf) < 0 then .late else if (4096 * 16 : Int) < stampDist x s.time.reach then .range else .future

/-- Count listener samples of stream `t` as LATE, EARLY or MISSING (R365, R371). -/
def countStream (t late early missing : Nat) (s : State) : State :=
  let x := s.stm t
  let s1 := s.setStm t { x with late := satAdd x.late late, early := satAdd x.early early, missing := satAdd x.missing missing }
  { s1 with audio := { s1.audio with streamErr := satAdd s1.audio.streamErr (late + early + missing) } }

/-- Place one sample of every channel at a stamp (R365). -/
def placeSample (t : Nat) (s : State) (p : Word × List Word24) : State :=
  let x := s.stm t
  match s.sampleClass p.1 with
  | .late => countStream t x.channels 0 0 s
  | .range => countStream t 0 x.channels 0 s
  | .future =>
    let new := ((List.range x.channels).map fun c => (p.1, c, p.2.getD c 0))
    s.setStm t { x with buf := x.buf.filter (fun y => y.1 != p.1) ++ new }

/-- Samples of a packet with their stamps from `t0` on. -/
def stampSamples (t0 : Word) (samples : List (List Word24)) : List (Word × List Word24) :=
  (samples.zipIdx).map fun p => (nearestSample t0 + BitVec.ofNat 32 (16 * p.2), p.1)

/-- Packets lost before sequence number `q` (R365). -/
def seqGap (last : Option Byte) (q : Byte) : Nat := match last with | none => 0 | some l => (q - l - 1).toNat

/-- A packet placed by arrival (R366). -/
def arrivalPacket (t : Nat) (gap : Nat) (samples : List (List Word24)) (s : State) : State :=
  let x := s.stm t
  let t0 := match x.byArrival with
    | some n => n + BitVec.ofNat 32 (16 * s.spf * gap)
    | none => s.time.reach + BitVec.ofNat 32 (4 * s.tpf)
  let ps := stampSamples t0 samples
  let s1 := ps.foldl (placeSample t) s
  let bad := ps.any fun p => s.sampleClass p.1 != .future
  s1.setStm t { s1.stm t with byArrival := if bad then none else some (t0 + BitVec.ofNat 32 (16 * s.spf)) }

/-- A packet of a listener stream (R365, R366). -/
def listenerTakes (t : Nat) (seq : Byte) (ts : Word) (samples : List (List Word24)) (s : State) : State :=
  let x := s.stm t
  let gap := seqGap x.rxSeq seq
  let s1 := s.setStm t { x with rxSeq := some seq, idleFrames := 0 }
  let s2 := if gap = 0 then s1 else countStream t 0 0 (gap * s.spf * x.channels) s1
  match s2.listenerDomain with
  | some d => (stampSamples (s2.avtpStamp d ts) samples).foldl (placeSample t) (s2.setStm t { s2.stm t with byArrival := none })
  | none => arrivalPacket t gap samples s2

/-- LISTENER_PACKET (R365): taken when the stream listens and its stream_id and format match its settings; stream_id 0 names no stream. -/
def execListenerPacket (t : Nat) (streamId : BitVec 64) (format : BitVec 64) (seq : Byte) (ts : Word) (samples : List (List Word24)) (s : State) : Outcome :=
  withUnit t 32 <| .next <|
    let x := s.stm t
    if s.macUp && x.enable && x.listener && x.streamId == streamId && streamId != 0 && s.formatMatches x format then listenerTakes t seq ts samples s else s

-- launch (R48, R49) -----------------------------------------------------------------------------------------------------------------------------------

/-- The queue a frame waits in. -/
def inQueue (port : Nat) (classB : Bool) (x : Launch) : Bool := x.port == port && x.classB == classB

/-- Nanoseconds until a frame's launch time, by serial arithmetic (R49); a packet whose launch time is the coming tick's is on
time and does not leave before it (R363). -/
def State.untilLaunch (s : State) (x : Launch) : Int := if x.due then 1 else (x.launch - s.time.deviceTime.setWidth 32).toInt

/-- The outcomes of R49: dropped (late or invalid), sent at once, or waiting for the launch time. -/
inductive LaunchOutcome where
  | drop | late | wait
deriving DecidableEq, Repr

/-- The outcome of a frame that reaches the head of its queue (R49). -/
def State.launchOutcome (s : State) (x : Launch) : LaunchOutcome :=
  let d := s.untilLaunch x
  if d < -125000 ∨ 1000000000 < d then .drop else if d < 0 then .late else .wait

/-- A queue as its head is compared (R49): what is left of the list, and the frames dropped, which the next ones replace at the head. -/
def judgeList (f : Launch → LaunchOutcome) (port : Nat) (classB : Bool) : List Launch → List Launch × List Launch
  | [] => ([], [])
  | x :: r =>
    if !inQueue port classB x then (x :: (judgeList f port classB r).1, (judgeList f port classB r).2)
    else if x.judged then (x :: r, [])
    else match f x with
      | .drop => ((judgeList f port classB r).1, x :: (judgeList f port classB r).2)
      | .late => ({ x with judged := true, late := true } :: r, [])
      | .wait => ({ x with judged := true } :: r, [])

/-- A frame is dropped and counted (R49). -/
def dropFrame (s : State) (x : Launch) : State :=
  { s with time := { s.time with launchDrop := satInc s.time.launchDrop } }.send .frameDropped [x.port, b2n x.classB, x.stm, x.seq.toNat]

/-- The head of a queue has just been found late. -/
def lateHead (port : Nat) (classB : Bool) (before after : List Launch) : Bool :=
  match after.find? (inQueue port classB) with
  | some x => x.late && !(before.any fun y => inQueue port classB y && y.judged)
  | none => false

/-- The frame at the head of a queue is compared with Device Time as it gets there (R49): its outcome stands from then on. -/
def judgeHead (port : Nat) (classB : Bool) (s : State) : State :=
  let r := judgeList s.launchOutcome port classB s.audio.launch
  let s1 := r.2.foldl dropFrame { s with audio := { s.audio with launch := r.1 } }
  if lateHead port classB s.audio.launch r.1 then { s1 with time := { s1.time with launchLate := satInc s1.time.launchLate } } else s1

/-- The first frame of a queue taken out of the list. -/
def dropHead (port : Nat) (classB : Bool) : List Launch → List Launch
  | [] => []
  | x :: r => if inQueue port classB x then r else x :: dropHead port classB r

/-- The head of a queue leaves it; the next is compared. -/
def popHead (port : Nat) (classB : Bool) (s : State) : State :=
  judgeHead port classB { s with audio := { s.audio with launch := dropHead port classB s.audio.launch } }

/-- The stream_id of stream `t`: a listener's is its setting (R375), a talker's is built from its port (R363). -/
def State.streamIdOf (s : State) (t : Nat) : BitVec 64 :=
  if (s.stm t).enable && !(s.stm t).listener then talkerId (s.stm t).port.toNat t else (s.stm t).streamId

/-- A frame leaves the port: destination, VLAN 2 and PCP, then the packet (R362, R363). -/
def sendFrame (x : Launch) (s : State) : State :=
  s.send .frameSent
    ([x.port, destMac x.stm, 2, pcp x.classB, (talkerId x.port x.stm).toNat, x.seq.toNat, x.avtpTs.toNat] ++ x.samples.map fun v => v.toNat)

/-- FRAME_LAUNCH (R48, R49): credit and the line are free for the head of a class queue; it leaves when it is late or its launch time has
come. A head not yet compared is compared now. -/
def launchHead (port : Nat) (classB : Bool) (s : State) : State :=
  match s.audio.launch.find? (inQueue port classB) with
  | none => s
  | some x =>
    if !x.judged then judgeHead port classB s
    else if x.late || decide (s.untilLaunch x ≤ 0) then sendFrame x (popHead port classB s)
    else s

/-- FRAME_LAUNCH (R48). -/
def execFrameLaunch (port : Nat) (classB : Bool) (s : State) : Outcome := withUnit port 2 (.next (launchHead port classB s))

-- AVDECC (R362) ------------------------------------------------------------------------------------------------------------------------------------------

/-- The session that opened when listener stream `t` was bound, unless it has closed or is about to (R300, R312). -/
def State.stmSession (s : State) (t : Nat) : Option Nat :=
  match (s.stm t).sess with
  | some (i, tag) => if (s.session i).isOpen && (s.session i).tag == tag && (s.session i).closing.isNone then some i else none
  | none => none

/-- The session of a listener stream closes at the next boundary (R312). -/
def endStream (t : Nat) (s : State) : State :=
  match s.stmSession t with
  | some i => s.onSession i fun y => { y with closing := some y.closeRelease }
  | none => s

/-- Listener stream `t` is bound to `id` with session `i`. -/
def bindStream (t i : Nat) (id : BitVec 64) (s : State) : State :=
  let x := { s.stm t with connected := true, streamId := id, bound := some id, sess := some (i, (s.session i).tag) }
  (declareStream t true x (s.setStm t x)).send .acmpResponse [t, 0]

/-- The stream keeps the session it has: it is already bound to `id`. -/
def State.boundTo (s : State) (t : Nat) (id : BitVec 64) : Option Nat :=
  if (s.stm t).bound = some id then s.stmSession t else none

/-- ACMP_CONNECT (R300, R362): a listener stream binds and its own session opens, in place of one it had for another stream; without a place for a
session it is refused. -/
def acmpBind (t : Nat) (id : BitVec 64) (s : State) : State :=
  let x := s.stm t
  if !x.listener then (s.setStm t { x with connected := true }).send .acmpResponse [t, 0]
  else
    match s.boundTo t id with
    | some i => bindStream t i id s
    | none => match openSession 1 x.port.toNat id s with
      | some (i, s1) => bindStream t i id (endStream t s1)
      | none => (refuseOpen s).send .acmpResponse [t, 1]

/-- ACMP_CONNECT (R362). -/
def execAcmpConnect (t : Nat) (streamId : BitVec 64) (s : State) : Outcome :=
  withUnit t 32 (.next (taken (.acmpConnect t streamId) (acmpBind t streamId) s))

/-- A stream without the identity that its connection gave it: one that STREAM.SET has set since stays. -/
def Stm.unbind (x : Stm) : Stm :=
  { x with connected := false, bound := none, sess := none, streamId := if x.bound = some x.streamId then 0 else x.streamId }

/-- ACMP_DISCONNECT (R300, R362): the stream is unbound, takes no more packets of it, and its session closes at the next boundary. -/
def acmpUnbind (t : Nat) (s : State) : State :=
  let x := s.stm t
  let s1 := (endStream t s).setStm t x.unbind
  (if x.bound.isSome then s1.send .msrpListener [x.port.toNat, x.streamId.toNat, 0] else s1).send .acmpResponse [t, 0]

/-- ACMP_DISCONNECT (R362). -/
def execAcmpDisconnect (t : Nat) (s : State) : Outcome := withUnit t 32 (.next (taken (.acmpDisconnect t) (acmpUnbind t) s))

/-- ACMP_GET_STATE (R362). -/
def execAcmpGetState (t : Nat) (s : State) : Outcome :=
  withUnit t 32 (.next (taken (.acmpGetState t) (fun s => s.send .acmpResponse [t, 0, b2n (s.stm t).connected, (s.streamIdOf t).toNat]) s))

/-- ADP_DISCOVER (R362): the device advertises. -/
def execAdpDiscover (s : State) : Outcome := .next (taken .adpDiscover (fun s => s.send .adpAdvertise) s)

/-- ENTITY_AVAILABLE (R362). -/
def execEntityAvailable (ctl : BitVec 64) (s : State) : Outcome :=
  .next (taken (.entityAvailable ctl) (fun s => s.send .aemResponse [ctl.toNat, 0]) s)

/-- READ_DESCRIPTOR (R362): as the standard specifies. -/
def execReadDescriptor (ctl : BitVec 64) (type index : Nat) (s : State) : Outcome :=
  .next (taken (.readDescriptor ctl type index) (fun s => s.send .aemResponse (ctl.toNat :: 0 :: type :: index :: Config.descriptor type index)) s)

/-- Another controller holds what `h` names. -/
def otherHolds (h : Option (BitVec 64)) (ctl : BitVec 64) : Bool := match h with | some c => c != ctl | none => false

/-- Why a controller may not change the entity: the standard's status 4 acquired, 3 locked by another, 0 (PRESUMED, log entry 27). -/
def State.aemStatus (s : State) (ctl : BitVec 64) : Nat :=
  if otherHolds s.audio.acquired ctl then 4 else if otherHolds s.audio.lockedBy ctl then 3 else 0

/-- A controller acquires the entity or releases it (R362). -/
def acquireEntity (ctl : BitVec 64) (release : Bool) (s : State) : State :=
  let st := s.aemStatus ctl
  (if st = 0 then { s with audio := { s.audio with acquired := if release then none else some ctl } } else s).send .aemResponse [ctl.toNat, st]

/-- A controller locks the entity or unlocks it (R362). -/
def lockEntity (ctl : BitVec 64) (unlock : Bool) (s : State) : State :=
  let st := s.aemStatus ctl
  (if st = 0 then { s with audio := { s.audio with lockedBy := if unlock then none else some ctl } } else s).send .aemResponse [ctl.toNat, st]

/-- ACQUIRE_ENTITY (R362). -/
def execAcquireEntity (ctl : BitVec 64) (release : Bool) (s : State) : Outcome :=
  .next (taken (.acquireEntity ctl release) (acquireEntity ctl release) s)

/-- LOCK_ENTITY (R362). -/
def execLockEntity (ctl : BitVec 64) (unlock : Bool) (s : State) : Outcome :=
  .next (taken (.lockEntity ctl unlock) (lockEntity ctl unlock) s)

/-- GET_STREAM_FORMAT (R362). -/
def execGetStreamFormat (ctl : BitVec 64) (t : Nat) (s : State) : Outcome :=
  withUnit t 32 (.next (taken (.getStreamFormat ctl t) (fun s => s.send .aemResponse [ctl.toNat, 0, t, (s.streamFormat (s.stm t)).toNat]) s))

/-- What SET_STREAM_FORMAT answers (R362): status 0, why the controller may not, or the standard's status 11 for a format the device does not
support (PRESUMED, log entry 27). -/
def State.formatStatus (s : State) (ctl : BitVec 64) (t : Nat) (format : BitVec 64) : Nat :=
  if s.aemStatus ctl ≠ 0 then s.aemStatus ctl else if s.formatOk (s.stm t).listener format then 0 else 11

/-- A stream takes a supported format: its channels, and for a listener the sample format. -/
def Stm.withFormat (x : Stm) (format : BitVec 64) : Stm :=
  { x with channels := (readFormat format).channels, int24 := if x.listener then some ((readFormat format).format == 3) else none }

/-- SET_STREAM_FORMAT (R362): refused while another controller has acquired or locked the entity, and for a format outside the table Stream
support. -/
def setStreamFormat (ctl : BitVec 64) (t : Nat) (format : BitVec 64) (s : State) : State :=
  let st := s.formatStatus ctl t format
  let s1 := if st = 0 then s.setStm t ((s.stm t).withFormat format) else s
  s1.send .aemResponse [ctl.toNat, st, t, (s1.streamFormat (s1.stm t)).toNat]

/-- SET_STREAM_FORMAT (R362). -/
def execSetStreamFormat (ctl : BitVec 64) (t : Nat) (format : BitVec 64) (s : State) : Outcome :=
  withUnit t 32 (.next (taken (.setStreamFormat ctl t format) (setStreamFormat ctl t format) s))

/-- GET_STREAM_INFO (R362). -/
def execGetStreamInfo (ctl : BitVec 64) (t : Nat) (s : State) : Outcome :=
  withUnit t 32 (.next (taken (.getStreamInfo ctl t)
    (fun s => s.send .aemResponse [ctl.toNat, 0, t, b2n (s.stm t).connected, (s.streamIdOf t).toNat, (s.streamFormat (s.stm t)).toNat]) s))

/-- GET_COUNTERS (R362). -/
def execGetCounters (ctl : BitVec 64) (t : Nat) (s : State) : Outcome :=
  withUnit t 32 (.next (taken (.getCounters ctl t)
    (fun s => s.send .aemResponse [ctl.toNat, 0, t, (s.stm t).late.toNat, (s.stm t).early.toNat, (s.stm t).missing.toNat]) s))

-- RENDER.SET and AUDIO.STATUS (R376, R377) -----------------------------------------------------------------------------------------------------------------

/-- RENDER.SET (R376). -/
def cardRenderSet : Card where
  opcode := 0x711
  device := false
  modes := [.render, .load]
  len := fun e => e.payload.length == 2
  range := fun e s =>
    let c := bits (e.pw 1) 7 0
    let f := bits (e.pw 1) 23 8
    (e.pw 0).toNat % 4 == 0 && bits (e.pw 1) 31 24 == 0 &&
    decide (1 ≤ c) && decide (c ≤ 32) && decide (2 ≤ f) && decide (f ≤ 4096) &&
    (e.pw 0 == 0 || dataRegion (e.pw 0).toNat (16 + 4 * f * c * s.spf))
  run := fun e s => queueBoundary 0x711 e { bay := e.target.toNat } s

/-- RENDER.SET takes effect: the ring starts empty, and its header shows its shape (R357). -/
def applyRenderSet (e : Entry) (s : State) : State :=
  let b := s.acting e.target.toNat
  let w := (e.pw 0).toNat / 4
  let s1 := s.setBay b { s.bay b with ringBase := e.pw 0, ringC := bits (e.pw 1) 7 0, ringF := bits (e.pw 1) 23 8 }
  if e.pw 0 = 0 then s1
  else { s1 with mem := { s1.mem with win := Mem.putWord (Mem.putWord s1.mem.win w 0 0xF) (w + 2) (e.pw 1) 0xF } }

/-- Words of AUDIO.STATUS (R377). -/
def audioWords (s : State) : List Word :=
  s.audStatus :: ((List.range 16).map fun p => s.tdmOf p) ++ [s.audio.pdm.setWidth 32]
  ++ (List.range 32).map fun t =>
    let x := s.stm t
    pack [(x.late.toNat, 24), (x.early.toNat, 16), (x.missing.toNat, 8), (b2n x.enable, 0)]

/-- The counters of AUDIO.STATUS cleared (R371, R377). -/
def clearAudio (s : State) : State :=
  { s with audio := { s.audio with slip := 0, busSat := 0, streamErr := 0,
                                   streams := s.audio.streams.mapVals fun _ x => { x with late := 0, early := 0, missing := 0 } } }

/-- AUDIO.STATUS (R377). -/
def cardAudioStatus : Card where
  opcode := 0x720
  len := fun e => e.payload.length == 1
  range := fun e _ => bits (e.pw 0) 31 1 == 0
  run := fun e s => finishNow 0x720 e (audioWords s) (if bit (e.pw 0) 0 then clearAudio s else s)

end Sys2Proof.Machine
end

