-- ==== Sys2Proof/Machine/Crypto.lean ====
section
/-! DEFINITION. The Vault's ciphers (R423, R425, R426, R428): HMAC-SHA-256 (FIPS 180-4, RFC 2104), AES-256 (FIPS 197), the AES key wrap of RFC 3394 and
GCM, which the rules name; and how words carry their bytes. Keys, digests and blocks have their first byte as the most significant. -/

namespace Sys2Proof.Machine

/-- Bytes of words, low byte first (R425). -/
def wordBytes (ws : List Word) : List Byte := ws.flatMap fun w => (List.range 4).map fun l => lane w l

/-- Four bytes as a word, the first as the most significant. -/
def beWord (a b c d : Byte) : Word := a ++ b ++ c ++ d

/-- Bytes as words, the first of four as the most significant. -/
def beWords : List Byte → List Word
  | a :: b :: c :: d :: r => beWord a b c d :: beWords r
  | _ => []

/-- Bytes as words, the first of four in [7:0]. -/
def leWords : List Byte → List Word
  | a :: b :: c :: d :: r => beWord d c b a :: leWords r
  | _ => []

/-- The `n` bytes of a number, the most significant first. -/
def natBytes (n x : Nat) : List Byte := (List.range n).map fun i => BitVec.ofNat 8 (x / 256 ^ (n - 1 - i))

/-- The number that bytes spell, the most significant first. -/
def bytesNat (xs : List Byte) : Nat := xs.foldl (fun a x => a * 256 + x.toNat) 0

/-- A digest as 8 words, first digest byte in [7:0] of the first (R425). -/
def digestWords (d : BitVec 256) : List Word := leWords (natBytes 32 d.toNat)

-- SHA-256 (FIPS 180-4) --------------------------------------------------------------------------------------------------------------------

/-- The round constants. -/
def shaK : List Word :=
  [0x428A2F98, 0x71374491, 0xB5C0FBCF, 0xE9B5DBA5, 0x3956C25B, 0x59F111F1, 0x923F82A4, 0xAB1C5ED5] ++
  [0xD807AA98, 0x12835B01, 0x243185BE, 0x550C7DC3, 0x72BE5D74, 0x80DEB1FE, 0x9BDC06A7, 0xC19BF174] ++
  [0xE49B69C1, 0xEFBE4786, 0x0FC19DC6, 0x240CA1CC, 0x2DE92C6F, 0x4A7484AA, 0x5CB0A9DC, 0x76F988DA] ++
  [0x983E5152, 0xA831C66D, 0xB00327C8, 0xBF597FC7, 0xC6E00BF3, 0xD5A79147, 0x06CA6351, 0x14292967] ++
  [0x27B70A85, 0x2E1B2138, 0x4D2C6DFC, 0x53380D13, 0x650A7354, 0x766A0ABB, 0x81C2C92E, 0x92722C85] ++
  [0xA2BFE8A1, 0xA81A664B, 0xC24B8B70, 0xC76C51A3, 0xD192E819, 0xD6990624, 0xF40E3585, 0x106AA070] ++
  [0x19A4C116, 0x1E376C08, 0x2748774C, 0x34B0BCB5, 0x391C0CB3, 0x4ED8AA4A, 0x5B9CCA4F, 0x682E6FF3] ++
  [0x748F82EE, 0x78A5636F, 0x84C87814, 0x8CC70208, 0x90BEFFFA, 0xA4506CEB, 0xBEF9A3F7, 0xC67178F2]

/-- The initial hash value. -/
def shaInit : List Word := [0x6A09E667, 0xBB67AE85, 0x3C6EF372, 0xA54FF53A, 0x510E527F, 0x9B05688C, 0x1F83D9AB, 0x5BE0CD19]

/-- Rotate a word right. -/
def ror (x : Word) (n : Nat) : Word := (x >>> n) ||| (x <<< (32 - n))

/-- The next word of a message schedule, from the sixteen before it, newest first. -/
def shaNext (w : List Word) : Word :=
  let x := w.getD 14 0
  let y := w.getD 1 0
  (ror y 17 ^^^ ror y 19 ^^^ (y >>> 10)) + w.getD 6 0 + (ror x 7 ^^^ ror x 18 ^^^ (x >>> 3)) + w.getD 15 0

/-- One round over the eight working variables. -/
def shaRound (v : List Word) (k w : Word) : List Word :=
  let g := fun i => v.getD i 0
  let t := g 7 + (ror (g 4) 6 ^^^ ror (g 4) 11 ^^^ ror (g 4) 25) + ((g 4 &&& g 5) ^^^ (~~~(g 4) &&& g 6)) + k + w
  let u := (ror (g 0) 2 ^^^ ror (g 0) 13 ^^^ ror (g 0) 22) + ((g 0 &&& g 1) ^^^ (g 0 &&& g 2) ^^^ (g 1 &&& g 2))
  [t + u, g 0, g 1, g 2, g 3 + t, g 4, g 5, g 6]

/-- One block of sixteen words. -/
def shaBlock (h block : List Word) : List Word :=
  let r := shaK.foldl (fun (p : List Word × List Word) k =>
    (shaRound p.1 k (p.2.getD 15 0), (shaNext p.2 :: p.2).take 16)) (h, block.reverse)
  List.zipWith (· + ·) h r.1

/-- A message with its padding: a one bit, zeros, its length in 64 bits. -/
def shaPad (m : List Byte) : List Byte := m ++ 0x80 :: List.replicate ((119 - m.length % 64) % 64) 0 ++ natBytes 8 (8 * m.length)

/-- The blocks of a padded message, one after the other; `fuel`: how many. -/
def shaBlocks : Nat → List Word → List Word → List Word
  | 0, h, _ => h
  | fuel + 1, h, ws => if ws.isEmpty then h else shaBlocks fuel (shaBlock h (ws.take 16)) (ws.drop 16)

/-- SHA-256. -/
def sha256 (m : List Byte) : BitVec 256 :=
  let ws := beWords (shaPad m)
  BitVec.ofNat 256 ((shaBlocks (ws.length / 16) shaInit ws).foldl (fun a w => a * 2 ^ 32 + w.toNat) 0)

/-- HMAC-SHA-256 under a key of 256 bits (R423, R425). -/
def hmac (key : BitVec 256) (m : List Byte) : BitVec 256 :=
  let k := natBytes 32 key.toNat ++ List.replicate 32 0
  sha256 (k.map (· ^^^ 0x5C) ++ natBytes 32 (sha256 (k.map (· ^^^ 0x36) ++ m)).toNat)

-- AES-256 (FIPS 197) ----------------------------------------------------------------------------------------------------------------------

/-- The substitution box, sixteen bytes a row. -/
def aesBox : List (BitVec 128) :=
  [0x637C777BF26B6FC53001672BFED7AB76, 0xCA82C97DFA5947F0ADD4A2AF9CA472C0] ++
  [0xB7FD9326363FF7CC34A5E5F171D83115, 0x04C723C31896059A071280E2EB27B275] ++
  [0x09832C1A1B6E5AA0523BD6B329E32F84, 0x53D100ED20FCB15B6ACBBE394A4C58CF] ++
  [0xD0EFAAFB434D338545F9027F503C9FA8, 0x51A3408F929D38F5BCB6DA2110FFF3D2] ++
  [0xCD0C13EC5F974417C4A77E3D645D1973, 0x60814FDC222A908846EEB814DE5E0BDB] ++
  [0xE0323A0A4906245CC2D3AC629195E479, 0xE7C8376D8DD54EA96C56F4EA657AAE08] ++
  [0xBA78252E1CA6B4C6E8DD741F4BBD8B8A, 0x703EB5664803F60E613557B986C11D9E] ++
  [0xE1F8981169D98E949B1E87E9CE5528DF, 0x8CA1890DBFE6426841992D0FB054BB16]

/-- Its inverse. -/
def aesUnbox : List (BitVec 128) :=
  [0x52096AD53036A538BF40A39E81F3D7FB, 0x7CE339829B2FFF87348E4344C4DEE9CB] ++
  [0x547B9432A6C2233DEE4C950B42FAC34E, 0x082EA16628D924B2765BA2496D8BD125] ++
  [0x72F8F66486689816D4A45CCC5D65B692, 0x6C704850FDEDB9DA5E154657A78D9D84] ++
  [0x90D8AB008CBCD30AF7E45805B8B34506, 0xD02C1E8FCA3F0F02C1AFBD0301138A6B] ++
  [0x3A9111414F67DCEA97F2CFCEF0B4E673, 0x96AC7422E7AD3585E2F937E81C75DF6E] ++
  [0x47F11A711D29C5896FB7620EAA18BE1B, 0xFC563E4BC6D279209ADBC0FE78CD5AF4] ++
  [0x1FDDA8338807C731B11210592780EC5F, 0x60517FA919B54A0D2DE57A9F93C99CEF] ++
  [0xA0E03B4DAE2AF5B0C8EBBB3C83539961, 0x172B047EBA77D626E169146355210C7D]

/-- An entry of a box. -/
def boxAt (box : List (BitVec 128)) (x : Byte) : Byte := (box.getD (x.toNat / 16) 0 >>> (8 * (15 - x.toNat % 16))).setWidth 8

/-- Twice a byte in the field of AES. -/
def xtime (x : Byte) : Byte := if x.msb then (x <<< 1) ^^^ 0x1B else x <<< 1

/-- A byte times 1, 2, 3, 9, 11, 13 or 14 in the field of AES: by the bits of the factor. -/
def gfTimes (n : Nat) (x : Byte) : Byte :=
  let p := fun (i : Nat) (y : Byte) => if n.testBit i then y else 0
  p 0 x ^^^ p 1 (xtime x) ^^^ p 2 (xtime (xtime x)) ^^^ p 3 (xtime (xtime (xtime x)))

/-- Substitute the bytes of a word. -/
def subWord (w : Word) : Word :=
  beWord (boxAt aesBox (lane w 3)) (boxAt aesBox (lane w 2)) (boxAt aesBox (lane w 1)) (boxAt aesBox (lane w 0))

/-- Word `i` of the key schedule, from those before it, newest first. -/
def keyNext (i : Nat) (ws : List Word) : Word :=
  let t := ws.getD 0 0
  let x := if i % 8 = 0 then subWord ((t <<< 8) ||| (t >>> 24)) ^^^ BitVec.ofNat 32 (2 ^ (i / 8 - 1) * 2 ^ 24) else if i % 8 = 4 then subWord t else t
  ws.getD 7 0 ^^^ x

/-- The sixty words of the key schedule, as the fifteen round keys of sixteen bytes. -/
def keySchedule (key : BitVec 256) : List (List Byte) :=
  let ws := ((List.range 52).foldl (fun ws i => keyNext (i + 8) ws :: ws) (beWords (natBytes 32 key.toNat)).reverse).reverse
  (List.range 15).map fun r => ((ws.drop (4 * r)).take 4).flatMap fun w => natBytes 4 w.toNat

/-- Bytes by bytes, combined. -/
def xorBytes (a b : List Byte) : List Byte := List.zipWith (· ^^^ ·) a b

/-- A column operation with the circulant row `m`. -/
def mixWith (m : List Nat) (st : List Byte) : List Byte :=
  (List.range 16).map fun i =>
    (List.range 4).foldl (fun a j => a ^^^ gfTimes (m.getD ((j + 4 - i % 4) % 4) 0) (st.getD (i / 4 * 4 + j) 0)) 0

/-- Substitution and row shift. -/
def subShift (st : List Byte) : List Byte := (List.range 16).map fun i => boxAt aesBox (st.getD ((i + 4 * (i % 4)) % 16) 0)

/-- Their inverse. -/
def unShiftSub (st : List Byte) : List Byte := (List.range 16).map fun i => boxAt aesUnbox (st.getD ((i + 12 * (i % 4)) % 16) 0)

/-- AES-256 of one block. -/
def aesEncrypt (ks : List (List Byte)) (block : List Byte) : List Byte :=
  let r := ((ks.drop 1).take 13).foldl (fun st k => xorBytes (mixWith [2, 3, 1, 1] (subShift st)) k) (xorBytes block (ks.getD 0 []))
  xorBytes (subShift r) (ks.getD 14 [])

/-- Its inverse. -/
def aesDecrypt (ks : List (List Byte)) (block : List Byte) : List Byte :=
  let r := ((ks.drop 1).take 13).reverse.foldl (fun st k => mixWith [14, 11, 13, 9] (xorBytes (unShiftSub st) k)) (xorBytes block (ks.getD 14 []))
  xorBytes (unShiftSub r) (ks.getD 0 [])

-- key wrap (RFC 3394) ----------------------------------------------------------------------------------------------------------------------

/-- The initial value. -/
def wrapIv : List Byte := List.replicate 8 0xA6

/-- One step of a wrap: `t` counts from 1; the register, then the four blocks of the key. -/
def wrapStep (ks : List (List Byte)) (p : List Byte × List (List Byte)) (t : Nat) : List Byte × List (List Byte) :=
  let i := (t - 1) % 4
  let b := aesEncrypt ks (p.1 ++ p.2.getD i [])
  (xorBytes (b.take 8) (natBytes 8 t), p.2.set i (b.drop 8))

/-- One step back. -/
def unwrapStep (ks : List (List Byte)) (p : List Byte × List (List Byte)) (t : Nat) : List Byte × List (List Byte) :=
  let i := (t - 1) % 4
  let b := aesDecrypt ks (xorBytes p.1 (natBytes 8 t) ++ p.2.getD i [])
  (b.take 8, p.2.set i (b.drop 8))

/-- Bytes in groups of eight. -/
def eights (xs : List Byte) : List (List Byte) := (List.range (xs.length / 8)).map fun i => (xs.drop (8 * i)).take 8

/-- AES-256 key wrap of a key under a key-wrapping key, as 10 words (R423). -/
def keyWrap (kek key : BitVec 256) : List Word :=
  let r := (List.range 24).foldl (fun p t => wrapStep (keySchedule kek) p (t + 1)) (wrapIv, eights (natBytes 32 key.toNat))
  leWords (r.1 ++ r.2.flatten)

/-- The key that 10 words unwrap to; none where the integrity check fails (R423, R444). -/
def keyUnwrap (kek : BitVec 256) (ws : List Word) : Option (BitVec 256) :=
  let xs := wordBytes ws
  let r := (List.range 24).foldl (fun p t => unwrapStep (keySchedule kek) p (24 - t)) (xs.take 8, eights (xs.drop 8))
  if ws.length = 10 ∧ r.1 = wrapIv then some (BitVec.ofNat 256 (bytesNat r.2.flatten)) else none

-- GCM --------------------------------------------------------------------------------------------------------------------------------------

/-- One step of a product in the field of GHASH. -/
def ghashStep (x : BitVec 128) (p : BitVec 128 × BitVec 128) (i : Nat) : BitVec 128 × BitVec 128 :=
  (if x.getLsbD (127 - i) then p.1 ^^^ p.2 else p.1,
   if p.2.getLsbD 0 then (p.2 >>> 1) ^^^ 0xE1000000000000000000000000000000 else p.2 >>> 1)

/-- A product in the field of GHASH. -/
def ghashMul (x y : BitVec 128) : BitVec 128 := ((List.range 128).foldl (ghashStep x) (0, y)).1

/-- Bytes in blocks of sixteen, the last filled with zeros. -/
def blocksOf (xs : List Byte) : List (BitVec 128) :=
  (List.range ((xs.length + 15) / 16)).map fun i =>
    let b := (xs.drop (16 * i)).take 16
    BitVec.ofNat 128 (bytesNat (b ++ List.replicate (16 - b.length) 0))

/-- The 96-bit IV and a counter, as a block (R428). -/
def counterBlock (iv : List Word) (n : Nat) : List Byte := wordBytes (iv.take 3) ++ natBytes 4 n

/-- The GCM tag over AAD and ciphertext words, as 4 words (R426). -/
def gcmTag (key : BitVec 256) (iv aad payload : List Word) : List Word :=
  let ks := keySchedule key
  let h : BitVec 128 := BitVec.ofNat 128 (bytesNat (aesEncrypt ks (List.replicate 16 0)))
  let a := wordBytes aad
  let c := wordBytes payload
  let lens : BitVec 128 := BitVec.ofNat 128 (8 * a.length * 2 ^ 64 + 8 * c.length)
  let g := (blocksOf a ++ blocksOf c ++ [lens]).foldl (fun y x => ghashMul (y ^^^ x) h) 0
  leWords (xorBytes (aesEncrypt ks (counterBlock iv 1)) (natBytes 16 g.toNat))

/-- Word `i` of a payload, decrypted or encrypted: its byte b goes with counter block IV and 2 + floor(b / 16) (R428). -/
def gcmWord (key : BitVec 256) (iv : List Word) (i : Nat) (w : Word) : Word :=
  w ^^^ (leWords (aesEncrypt (keySchedule key) (counterBlock iv (2 + i / 4)))).getD (i % 4) 0

end Sys2Proof.Machine
end

