-- ==== Sys2Proof/Machine/ContentOps.lean ====
section
/-! DEFINITION. Content objects in the Bays: residency, heat, room, demotion, promotion and coefficient areas (R126, R127,
R328, R331, R341, R343 to R345). -/

namespace Sys2Proof.Machine

-- objects and residency ------------------------------------------------------------------------------------------------------------

/-- Key of an object's residency in a Bay. -/
def residKey (b o : Nat) : Nat := b * 2 ^ 32 + o

/-- The objects a voice reads: wavetables and samples (R139). -/
def State.voiceObjects (s : State) (v : Voice) : List Nat :=
  ((List.range 8).filter fun k => s.oscType v k == 1 || s.oscType v k == 2).map fun k => s.oscObject v k

/-- An object is in the content store (R340). -/
def State.inStore (s : State) (o : Nat) : Bool := (s.mem.content.find o).isSome

/-- An object of the content store. -/
def State.contentOf (s : State) (o : Nat) : Content := s.mem.content.look o {}

/-- Residency of an object in a Bay. -/
def State.resid (s : State) (b o : Nat) : Residency := s.mem.resid.look (residKey b o) {}

/-- An object is resident in a Bay; a mirror reads its home's residency (R343). -/
def State.objResident (s : State) (b o : Nat) : Bool := (s.resid b o).resident

/-- An object is being written by a LOAD Bay (R127). -/
def State.underLoad (s : State) (o : Nat) : Bool :=
  (List.range 8).any fun b => s.formed b && (s.bay b).mode == .load && (s.resid b o).loading

/-- Change an object's residency record. -/
def State.onResid (s : State) (b o : Nat) (f : Residency → Residency) : State :=
  { s with mem := { s.mem with resid := s.mem.resid.put (residKey b o) (f (s.resid b o)) } }

/-- Each start that reads an object adds 1 to its heat in the Bay (R126, R343), in units of 2^-32. -/
def addHeat (b : Nat) (os : List Nat) (s : State) : State :=
  os.eraseDups.foldl (fun s o => s.onResid b o fun r => { r with heat := r.heat + 2 ^ 32 }) s

/-- Every heat decays once per frame (R126). -/
def decayHeat (s : State) : State :=
  { s with mem := { s.mem with resid := s.mem.resid.mapVals fun _ r => { r with heat := heatDecay (family48 s.time.rate) r.heat } } }

-- runs of Sound Store words ------------------------------------------------------------------------------------------------------------

/-- A run of Sound Store words: the first and how many; it lies in one bank. -/
abbrev Run := Nat × Nat

/-- Bank of a run. -/
def Run.bank (r : Run) : Nat := r.1 / 65536

/-- Banks of runs. -/
def runBanks (rs : List Run) : List Nat := (rs.map Run.bank).eraseDups

/-- Store word of word `i` of what takes the runs. -/
def wordIn (i : Nat) : List Run → Option Nat
  | [] => none
  | (a, n) :: r => if i < n then some (a + i) else wordIn (i - n) r

/-- Word `i` of what takes the runs, as the Sound Store holds it; a bank being zeroised reads 0 (R330). -/
def State.runWord (s : State) (rs : List Run) (i : Nat) : Word :=
  match wordIn i rs with
  | some w => if (s.bank (bankOf w)).state = 3 then 0 else storeWord w s
  | none => 0

/-- The words that the runs hold. -/
def State.runWords (s : State) (rs : List Run) : List Word := rs.flatMap fun r => Mem.words s.mem.store r.1 r.2

/-- Write words from word `i` of the runs on. -/
def putRun (rs : List Run) (i : Nat) (ws : List Word) (s : State) : State :=
  ws.zipIdx.foldl (fun s p => match wordIn (i + p.2) rs with | some w => putStore w p.1 0xF s | none => s) s

/-- What lies between `lo` and `hi` outside runs that ascend. -/
def gapsIn (hi : Nat) : Nat → List Run → List Run
  | lo, [] => if lo < hi then [(lo, hi - lo)] else []
  | lo, (a, n) :: r => (if lo < Nat.min a hi then [(lo, Nat.min a hi - lo)] else []) ++ gapsIn hi (Nat.max lo (a + n)) r

/-- The first `need` words of gaps. -/
def takeRuns (need : Nat) : List Run → Option (List Run)
  | [] => if need = 0 then some [] else none
  | (a, n) :: r => if need = 0 then some [] else if need ≤ n then some [(a, need)] else (takeRuns (need - n) r).map fun x => (a, n) :: x

/-- Put a run into runs that ascend. -/
def insertRun (x : Run) : List Run → List Run
  | [] => [x]
  | y :: r => if x.1 < y.1 then x :: y :: r else y :: insertRun x r

-- room (R328, R331, R343, R344) ----------------------------------------------------------------------------------------------------------

/-- Words of a coefficient area (R328). -/
def coefAreaWords : Nat := 601720

/-- Words of an object's resident copy: a wavetable, or the head of a sample (R341, R343). -/
def objWords (h : List Word) : Nat :=
  let w := fun i => h.getD i 0
  if bits (w 0) 31 28 = 1 then 7 + (bits (w 0) 27 24 + 1) * 2 ^ bits (w 0) 23 20 else 7 + Nat.min (w 1).toNat 2048

/-- Oscillators of a voice that take a stream buffer: its sample readers whose sample is longer than its head (R344). -/
def State.bufferOscs (s : State) (v : Voice) : List Nat :=
  (List.range 8).filter fun k => s.oscType v k == 2 && decide (2048 < ((s.contentOf (s.oscObject v k)).header.getD 1 0).toNat)

/-- Stream buffers of a voice (R344). -/
def State.bufferCount (s : State) (v : Voice) : Nat := (s.bufferOscs v).length

/-- From placement until FREE (R344). -/
def VState.placed (x : VState) : Bool := x.counted || x == .scarf

/-- The stream buffers of Bay `b`: voice slot, oscillator, buffer. -/
def State.buffersIn (s : State) (b : Nat) : List (Nat × Nat × StreamBuf) :=
  (s.voicesWith fun v => v.bay == b).flatMap fun p => p.2.bufs.map fun q => (p.1, q.1, q.2)

/-- What takes words in the content space of Bay `b`, with its protection: copies and stream buffers (R328). -/
def spaceUses (b : Nat) (s : State) : List (Bool × List Run) :=
  ((s.mem.resid.filter fun p => p.1 / 2 ^ 32 == b && p.2.at_ != []).map fun p => ((s.contentOf (p.1 % 2 ^ 32)).prot, p.2.at_))
  ++ (s.buffersIn b).map fun x => ((s.contentOf (s.oscObject (s.voice x.1) x.2.1)).prot, x.2.2.at_)

/-- Words of the `k`-th bank of Bay `b` that its coefficient area takes (R328). -/
def areaIn (b k : Nat) (s : State) : Nat := if (s.bay b).coefArea then Nat.min 65536 (coefAreaWords - 65536 * k) else 0

/-- What is free in bank `n`, the banks of Bay `b` being `banks`. -/
def gapsOf (b : Nat) (banks : List Nat) (uses : List (Bool × List Run)) (s : State) (n : Nat) : List Run :=
  let mine := (uses.flatMap fun u => u.2.filter fun r => r.bank == n).foldl (fun xs r => insertRun r xs) []
  gapsIn (65536 * (n + 1)) (65536 * n + areaIn b ((banks.idxOf? n).getD 0) s) mine

/-- Banks in which something may be placed (R331): none being zeroised; for protected content none that holds anything unprotected, for other
content none that holds anything protected. -/
def placesFor (prot : Bool) (banks : List Nat) (uses : List (Bool × List Run)) (s : State) : List Nat :=
  banks.filter fun n => (s.bank n).state != 3 && !(uses.any fun u => u.1 != prot && u.2.any fun r => r.bank == n)

/-- Room for `need` words in the content space of Bay `b` on the banks given; the service cores choose the banks among those permitted (R331,
R343; free, log entry 10), and take what is free in them from the lowest word on (DESIGN CHOICE, log entry 10). -/
def allocate (b need : Nat) (prot : Bool) (banks : List Nat) (s : State) : Option (List Run) :=
  let uses := spaceUses b s
  let ok := placesFor prot banks uses s
  let first := ((Config.placement s.freeCtr b need).filter ok.contains).eraseDups
  takeRuns need ((first ++ ok.filter fun n => !first.contains n).flatMap (gapsOf b banks uses s))

/-- A voice from PRE-ROLL to SCARF of Bay `b` reads the object (R126). -/
def State.readInBay (s : State) (b o : Nat) : Bool :=
  s.voices.any fun p => p.2.inUse && p.2.bay == b && p.2.st.placed && (s.voiceObjects p.2).contains o

/-- A resident object that may be demoted (R126). -/
def demotable (b o : Nat) (s : State) : Bool := (s.resid b o).resident && !(s.resid b o).pinned && !s.readInBay b o

/-- Something protected lies in bank `n` (R331). -/
def bankProtects (n : Nat) (s : State) : Bool := (List.range 8).any fun b => (spaceUses b s).any fun u => u.1 && u.2.any fun r => r.bank == n

/-- Zeroise the banks of a list whose last protected object has left (R331). -/
def sweepBanks (ns : List Nat) (s : State) : State :=
  ns.foldl (fun s n => if (s.bank n).prot && !bankProtects n s then zeroise n s else s) s

/-- Banks hold something protected from now on (R331). -/
def protectBanks (prot : Bool) (rs : List Run) (s : State) : State :=
  if prot then (runBanks rs).foldl (fun s n => s.setBank n { s.bank n with prot := true }) s else s

/-- Demote an object in a Bay (R126, R331). -/
def demote (b o : Nat) (s : State) : State :=
  let ns := runBanks (s.resid b o).at_
  sweepBanks ns (s.onResid b o fun r => { r with resident := false, loading := false, pinned := false, at_ := [] })

/-- The coldest object that may be demoted, with heat below half of `limit` where one is given (R126); lower number on a tie. -/
def coldest (b : Nat) (limit : Option Nat) (s : State) : Option Nat :=
  leastRank <| (s.mem.resid.filter fun p =>
      p.1 / 2 ^ 32 == b && demotable b (p.1 % 2 ^ 32) s && (match limit with | some h => decide (2 * p.2.heat < h) | none => true)).map
    fun p => (p.2.heat * 2 ^ 32 + p.1 % 2 ^ 32, p.1 % 2 ^ 32)

/-- Demote until `need` words fit on the banks given; answers how many objects were demoted, and the room (R126). -/
def makeRoom (b need : Nat) (prot : Bool) (limit : Option Nat) (banks : List Nat) (s : State) : Nat → Nat → Option (State × Nat × List Run)
  | 0, n => (allocate b need prot banks s).map fun rs => (s, n, rs)
  | fuel + 1, n =>
    match allocate b need prot banks s with
    | some rs => some (s, n, rs)
    | none => match coldest b limit s with
      | none => none
      | some o => makeRoom b need prot limit banks (demote b o s) fuel (n + 1)

/-- Room in Bay `b`, with demotions; the free choice of its banks is used up. -/
def roomIn (b need : Nat) (prot : Bool) (limit : Option Nat) (banks : List Nat) (s : State) : Option (State × Nat × List Run) :=
  (makeRoom b need prot limit banks s s.mem.resid.length 0).map fun x => (x.1.fresh, x.2)

-- objects in the clear (R428, R433) -------------------------------------------------------------------------------------------------------

/-- Word `i` of an object in the clear: its header, then its data, decrypted where the object is protected (R341, R428). -/
def State.objWord (s : State) (o i : Nat) : Word :=
  let c := s.contentOf o
  let k := s.vault.cks.look c.slot {}
  if i < 7 then c.header.getD i 0
  else let w := c.data.getD (i - 7) 0; if c.prot then gcmWord k.key k.iv (c.base + i) w else w

/-- A decryption that the service cores ask of the Vault goes through the CRYPT queue (R252, R428); a post to a full queue is counted, and the
decryption goes on (DESIGN CHOICE, log entry 21). -/
def postCrypt (prot : Bool) (s : State) : State :=
  if !prot then s
  else
    match enterQueue 1 (hwEntry 1 s) s.fresh.fresh with
    | some t => t
    | none => countRefused 0x80 6 1 s.fresh.fresh

/-- The Vault refuses a decryption (R433): under KEYLOCK every one but a refill for a voice in a GUARD Scarf, and that too once the last such Scarf has
ended. -/
def State.noDecrypt (s : State) (scarfed : Bool) : Bool := s.vault.refuseAll || (s.vault.keylock && !scarfed)

-- requests to external memory (R340) -----------------------------------------------------------------------------------------------------

/-- What a request to external memory is for (R340). -/
inductive MemUse where
  | refill | miss | conductor | promotion | pin | evacuation | coefficient | decryption | package | test
deriving DecidableEq, Repr

/-- Class of a request for a Bay in a mode (R340). A refill or a miss of a Bay in a mode that the table does not name takes class 3 (DESIGN CHOICE, log
entry 134). -/
def MemUse.classIn (u : MemUse) (m : Mode) : Nat :=
  match u with
  | .conductor => 2
  | .decryption | .package | .test => 5
  | .refill | .miss => if m = .render then 4 else if m = .play ∨ m = .follow then 1 else 3
  | .promotion | .pin | .evacuation | .coefficient => if m = .render then 4 else 3

/-- Class of a request for Bay `b`, by the mode of the Bay in control of its pair (R271, R340): `stream` for a content-miss fetch or a refill. -/
def requestClass (b : Nat) (stream : Bool) (s : State) : Nat :=
  (if stream then MemUse.miss else .promotion).classIn (s.bay (s.acting b)).mode

/-- Rank of a request, lower first: its class, and in class 4 the Bay, streaming before promotion (R340). -/
def memRank (r : MemReq) : Nat := 100 * r.cls + if r.cls = 4 then 2 * r.bay + b2n (!r.stream) else 0

/-- Queue a request behind every one of its rank, first in, first out (R340). -/
def queueRequest (r : MemReq) : List MemReq → List MemReq
  | [] => [r]
  | q :: t => if memRank q ≤ memRank r then q :: queueRequest r t else r :: q :: t

/-- Put a request among those of external memory: the first in the list is in service, and the others wait in the order of R340. That one request
is in service at a time is the model's choice (DESIGN CHOICE, log entry 134). -/
def enterRequest (r : MemReq) (s : State) : State :=
  let qs := match s.mem.requests with | [] => [r] | q :: t => q :: queueRequest r t
  { s with mem := { s.mem with requests := qs } }

/-- Post the request for an object (R340). -/
def postRequest (b o : Nat) (stream : Bool) (s : State) : State :=
  enterRequest { cls := requestClass b stream s, bay := b, stream := stream, object := o } s

/-- The request for an object in a Bay has been served, or is dropped. -/
def endRequest (b o : Nat) (s : State) : State :=
  { s with mem := { s.mem with requests := s.mem.requests.filter fun r => !(r.bay == b && r.object == o && r.refill.isNone) } }

/-- The request in service is the one for an object in a Bay (R340). -/
def State.servedNow (s : State) (b o : Nat) : Bool :=
  match s.mem.requests.head? with
  | some r => r.bay == b && r.object == o && r.refill.isNone
  | none => false

/-- Take room for a copy of an object in a Bay, or change nothing (R126, R127). -/
def claimSpace (b : Nat) (limit : Option Nat) (o : Nat) (s : State) : Option State :=
  let c := s.contentOf o
  (roomIn b (objWords c.header) c.prot limit (s.bayBanks b) s).map fun x =>
    postCrypt c.prot (x.1.onResid b o fun r => { r with loading := true, at_ := x.2.2 })

/-- Ask for a copy of an object in a Bay: room is made and the request posted, or nothing changes (R126, R127, R340). -/
def claimCopy (b : Nat) (stream : Bool) (limit : Option Nat) (o : Nat) (s : State) : Option State :=
  if s.objResident b o ∨ (s.resid b o).loading then some s else (claimSpace b limit o s).map (postRequest b o stream)

/-- A copy is written where it has room (R328, R343). -/
def placeCopy (b o : Nat) (s : State) : State :=
  let rs := (s.resid b o).at_
  let c := s.contentOf o
  protectBanks c.prot rs
    (putRun rs 0 ((List.range (objWords c.header)).map (s.objWord o)) (s.onResid b o fun r => { r with resident := true, loading := false }))

-- posts that the Dispatcher keeps (R257) ----------------------------------------------------------------------------------------------------

/-- The work of an accepted post: the request of a fetch, or the heat of a start (R126, R127). -/
def doKept (s : State) (w : KeptWork) : State :=
  match w with
  | .fetch b o => if (s.resid b o).loading then postRequest b o true s else s
  | .heat b os => addHeat b os s

/-- The queue of its post. -/
def KeptWork.queue (w : KeptWork) : Nat := match w with | .fetch _ _ => 0 | .heat _ _ => 2

/-- The Dispatcher posts a service task; while it keeps the post, the work waits (R257). That each miss is one STREAM post and each start's heat one
PLACE post is the model's choice (DESIGN CHOICE, log entry 21). -/
def dispatcherPost (w : KeptWork) (s : State) : State :=
  let t := hwPostNew 1 w.queue s
  if s.dsp.repost.length < t.dsp.repost.length then { t with mem := { t.mem with kept := t.mem.kept ++ [w] } } else doKept t w

/-- The work of queue `q` whose post has been accepted now goes on. -/
def releaseQueue (s : State) (q : Nat) : State :=
  let left := (s.dsp.repost.filter fun x => x.1 == 1 && x.2.1 == q).length
  let mine := s.mem.kept.filter fun w => w.queue == q
  let go := mine.take (mine.length - left)
  go.foldl doKept { s with mem := { s.mem with kept := (s.mem.kept.filter fun w => w.queue != q) ++ mine.drop (mine.length - left) } }

/-- HARDWARE_REPOST, and the work of the posts that it gets accepted (R257). -/
def repostWork (s : State) : State := [0, 2].foldl releaseQueue (hardwareRepost s)

/-- A content miss: the objects are fetched through STREAM requests (R127); one that finds no room waits for the next tick. -/
def fetchMissing (b : Nat) (os : List Nat) (s : State) : State :=
  os.foldl (fun s o =>
    if s.objResident b o ∨ (s.resid b o).loading then s
    else match claimSpace b none o s with
      | none => s
      | some t => dispatcherPost (.fetch b o) t) s

-- stream buffers (R344) ----------------------------------------------------------------------------------------------------------------------

/-- The stream buffers of a voice take their room, each oscillator's in turn; `none` where one finds none (R344). -/
def claimBuffers (i : Nat) (s : State) : Option State :=
  let v := s.voice i
  (s.bufferOscs v).foldl (fun (a : Option State) k =>
    a.bind fun s =>
      (roomIn v.bay 1024 (s.contentOf (s.oscObject v k)).prot none (s.bayBanks v.bay) s).map fun x =>
        x.1.setVoice i { x.1.voice i with bufs := (x.1.voice i).bufs.put k { at_ := x.2.2 } }) (some s)

/-- Every object of a voice is resident and its stream buffers have room: the state with the buffers taken (R127, R344). -/
def withContent (i : Nat) (s : State) : Option State :=
  let v := s.voice i
  match claimBuffers i s with
  | some t => if (s.voiceObjects v).all (t.objResident v.bay) then some t else none
  | none => none

/-- The stream buffers of a voice are given up at FREE (R331, R344). -/
def dropBuffers (i : Nat) (s : State) : State :=
  let v := s.voice i
  let ns := runBanks (v.bufs.flatMap fun x => x.2.at_)
  sweepBanks ns (s.setVoice i { v with bufs := [] })

-- promotion (R126, R343) -----------------------------------------------------------------------------------------------------------------

/-- Objects of Bay `b` not yet resident, hottest first, lower number first on a tie (R126). -/
def candidates (b : Nat) (s : State) : List Nat :=
  let xs := s.mem.resid.filter fun p =>
    p.1 / 2 ^ 32 == b && !p.2.resident && !p.2.loading && decide (0 < p.2.heat) && s.inStore (p.1 % 2 ^ 32)
    && !(s.vault.keylock && (s.contentOf (p.1 % 2 ^ 32)).prot)
  let top := xs.foldl (fun m p => Nat.max m p.2.heat) 0
  (xs.foldl (fun acc p =>
    let key := (top - p.2.heat) * 2 ^ 32 + p.1 % 2 ^ 32
    let lo := acc.takeWhile fun q => decide (q.1 ≤ key)
    lo ++ (key, p.1 % 2 ^ 32) :: acc.drop lo.length) []).map fun q => q.2

/-- Promotion for one Bay (R126, R343): a candidate that fits is fetched. -/
def promoteBay (s : State) (b : Nat) : State :=
  (candidates b s).foldl (fun s o => (claimCopy b false (some (s.resid b o).heat) o s).getD s) s

/-- Promotion of every 100 ms, for each Bay that holds a coefficient area (R126, R343). -/
def promoteContent (s : State) : State :=
  ((List.range 8).filter fun b => s.formed b && (s.bay b).coefArea).foldl promoteBay s

/-- PROMOTION: the service cores promote and demote content once its 100 ms have passed (R126). -/
def promotionDue (s : State) : State :=
  if s.mem.promoteDue then promoteContent { s with mem := { s.mem with promoteDue := false } } else s

/-- PROMOTION (R126). -/
def execPromotion (s : State) : Outcome := .next (promotionDue s)

-- coefficient areas (R328) ------------------------------------------------------------------------------------------------------------------

/-- Set the COEF flags of every bank from the areas the Bays hold (R328, R346): ten banks of each, in ascending order. -/
def markCoef (s : State) : State :=
  (List.range 64).foldl (fun s n =>
    let o := (s.bank n).owner.toNat
    s.setBank n { s.bank n with coef := decide (o < 8) && (s.bay o).coefArea && ((s.bayBanks o).take 10).contains n }) s

/-- A run lies in the content space of Bay `b` on the banks given (R328). -/
def inSpace (b : Nat) (banks : List Nat) (s : State) (r : Run) : Bool :=
  match banks.idxOf? r.bank with | some k => decide (areaIn b k s ≤ r.1 % 65536) | none => false

/-- Move what takes `old` to new room in Bay `b` on the banks given (R330): `put` records where it lies; one that was demoted to make room goes
nowhere. Answers how many objects were demoted. -/
def moveRuns (b : Nat) (prot : Bool) (banks : List Nat) (old : List Run) (put : List Run → State → State) (stays : State → Bool) (s : State) :
    Option (State × Nat) :=
  let ws := s.runWords old
  (roomIn b ws.length prot none banks (put [] s)).map fun x =>
    if stays x.1 then (sweepBanks (runBanks old) (protectBanks prot x.2.2 (putRun x.2.2 0 ws (put x.2.2 x.1))), x.2.1) else (x.1, x.2.1)

/-- Move a copy; one that finds no room is demoted where R126 permits it (R330). -/
def moveCopy (b : Nat) (banks : List Nat) (o : Nat) (s : State) : Option (State × Nat) :=
  if (s.resid b o).at_ = [] then some (s, 0)
  else
    match moveRuns b (s.contentOf o).prot banks (s.resid b o).at_ (fun rs t => t.onResid b o fun r => { r with at_ := rs })
        (fun t => (t.resid b o).resident || (t.resid b o).loading) s with
    | some x => some x
    | none => if demotable b o s then some (demote b o s, 1) else none

/-- Move a stream buffer. -/
def moveBuffer (b : Nat) (banks : List Nat) (x : Nat × Nat × StreamBuf) (s : State) : Option (State × Nat) :=
  moveRuns b (s.contentOf (s.oscObject (s.voice x.1) x.2.1)).prot banks x.2.2.at_
    (fun rs t => t.setVoice x.1 { t.voice x.1 with bufs := (t.voice x.1).bufs.put x.2.1 { ((t.voice x.1).bufs.look x.2.1 {}) with at_ := rs } }) (fun _ => true) s

/-- Everything of Bay `b` that lies outside its content space on the banks given moves into it, with demotions where they are needed; `none` where
something finds no room (R330). Answers how many objects were demoted. -/
def settle (b : Nat) (banks : List Nat) (s : State) : Option (State × Nat) :=
  let out := fun (rs : List Run) => rs.any fun r => !inSpace b banks s r
  let os := (s.mem.resid.filter fun p => p.1 / 2 ^ 32 == b && out p.2.at_).map fun p => p.1 % 2 ^ 32
  let one := fun (a : Option (State × Nat)) (f : State → Option (State × Nat)) => a.bind fun x => (f x.1).map fun y => (y.1, x.2 + y.2)
  let a := os.foldl (fun a o => one a (moveCopy b banks o)) (some (s, 0))
  ((s.buffersIn b).filter fun x => out x.2.2.at_).foldl (fun a x => one a (moveBuffer b banks x)) a

/-- Bay `b` starts to hold a coefficient area; content that stood in its place moves or is demoted (R328, R329). -/
def gainCoefArea (b : Nat) (s : State) : State :=
  let s1 := markCoef (s.setBay b { s.bay b with coefArea := true })
  match settle b (s1.bayBanks b) s1 with | some (t, _) => t | none => s1

/-- Bay `b` holds no coefficient area any more, and its pins are lost (R328, R345). -/
def dropCoefArea (b : Nat) (s : State) : State :=
  let s1 := { s with mem := { s.mem with resid := s.mem.resid.mapVals fun k r => if k / 2 ^ 32 = b then { r with pinned := false } else r } }
  markCoef (s1.setBay b { s1.bay b with coefArea := false })

end Sys2Proof.Machine
end

