-- ==== Sys2Proof/Machine/Placement.lean ====
section
/-! DEFINITION. Placing a released start (R111 to R117, R126, R127, R206, R236, R239, R240): victims, the choice of a core,
deferral, refusal, template loads and the task descriptor. -/

namespace Sys2Proof.Machine

-- template residency (R236) ------------------------------------------------------------------------------------------------------------

/-- Words from `a` on are free of every table in the residency area, and lie in it (R206). -/
def gapAt (rs : List Resident) (a n : Nat) : Bool :=
  decide (a + n ≤ 0x4000) && rs.all fun r => decide (a + n ≤ r.addr) || decide (r.addr + r.words ≤ a)

/-- The lowest address at which `n` words fit (R236: first-fit). -/
def firstFit (rs : List Resident) (n : Nat) : Option Nat :=
  ((0x3000 :: rs.map fun r => r.addr + r.words).filter fun a => gapAt rs a n).min?

/-- Tables that may be evicted: their template has no task on the core (R236). -/
def evictable (c : VCore) (r : Resident) : Bool := !c.tasks.any fun t => t.2.kind == 0 && t.2.obj.toNat == r.template

/-- The table evicted next: least recently run, then lower template number (R236). -/
def nextEvict (c : VCore) (rs : List Resident) : Option Nat :=
  leastRank <| (rs.filter (evictable c)).map fun r => (r.lastRun.toNat * 256 + r.template, r.template)

/-- Evict until the tables fit (R236). -/
def evictFit (c : VCore) (n fuel : Nat) (rs : List Resident) : Option (Nat × List Resident) :=
  match firstFit rs n with
  | some a => some (a, rs)
  | none =>
    match fuel with
    | 0 => none
    | k + 1 =>
      match nextEvict c rs with
      | none => none
      | some t => evictFit c n k (rs.filter fun r => r.template != t)

/-- The tables that eviction at the boundary of frame F left out of `rs` are replaced: their templates stay resident until the next boundary
(R236). -/
def markReplaced (frame : BitVec 48) (rs old : List Resident) : List Resident :=
  old.map fun r => if r.replaced || rs.contains r then r else { r with replaced := true, lostAt := frame + 1 }

/-- Request a table load of template `t` on core `k` at the boundary of frame F (R236): resident from F + 1 + ceil(n / 256). -/
def requestLoad (k t words : Nat) (frame : BitVec 48) (s : State) : State :=
  let c := s.core k
  let live := c.resid.filter fun r => !r.replaced
  if words = 0 ∨ live.any (fun r => r.template == t) then s
  else match evictFit c words live.length live with
    | none => s
    | some (a, rs) =>
      s.setCore k { c with resid := markReplaced frame rs c.resid ++ [{ template := t, addr := a, words := words, ready := frame + BitVec.ofNat 48 (1 + (words + 255) / 256) }] }

-- task descriptors (R239, R240) ---------------------------------------------------------------------------------------------------------

/-- OUT0 to OUT7 from a list of bus pairs (R239). -/
def packOuts (qs : List Nat) : BitVec 64 :=
  BitVec.ofNat 64 (((qs.take 8).zipIdx).foldl (fun a p => a + (128 + p.1) * 256 ^ p.2) 0)

/-- The pairs a voice of part `p` declares: OUT_BUS and its four sends (R240). -/
def State.partPairs (s : State) (p : Nat) : List Nat := (List.range 5).map fun i => s.partP p (0x02 + i) / 2

/-- MASK of a voice task: F and D, and S when it streams (R242). -/
def State.voiceMask (s : State) (v : Voice) : Byte := if s.bufferCount v = 0 then 0x05 else 0x0D

/-- The lowest-numbered free context slot of core `k` (R206). -/
def State.freeCtx (s : State) (k : Nat) : Nat :=
  ((List.range 64).find? fun c => ((s.core k).tasks.find c).isNone).getD 63

/-- Put a voice's task on core `k` (R239). -/
def putVoiceTask (k i : Nat) (entry : BitVec 13) (s : State) : State :=
  let v := s.voice i
  let t : Task :=
    { kind := 0, bay := s.courseBay (k / 8), mask := s.voiceMask v, entry := entry, cost := BitVec.ofNat 16 v.cost,
      slot := BitVec.ofNat 13 i, obj := BitVec.ofNat 8 v.template, part := BitVec.ofNat 8 v.part, outs := packOuts (s.partPairs v.part) }
  let s1 := rewriteSlot k v.ctx s
  s1.setCore k { s1.core k with tasks := (s1.core k).tasks.put v.ctx t }

/-- Put it on the twin core of a pair too (R275, R276). -/
def putTwinTask (k i : Nat) (entry : BitVec 13) (s : State) : State :=
  match s.twin k with
  | some t => if s.shares (s.courseBay (t / 8)) then putVoiceTask t i entry s else s
  | none => s

-- placing ------------------------------------------------------------------------------------------------------------------------------------

/-- Frame Count of the tick under way on a Bay's timeline, and its first stamp. -/
def State.bayFrame (s : State) (b : Nat) : BitVec 48 × Word := (s.frameOf b, s.stampOf b)

/-- A start deferred, or that waited for content, takes its reset point from the frame after this tick (R113, R156). -/
def lateOnset (i : Nat) (s : State) : State :=
  let v := s.voice i
  let r := s.stampOf v.bay + BitVec.ofNat 32 s.tpf
  s.setVoice i { v with resetPoint := r, onset := r + BitVec.ofNat 32 (s.preRoll v.bay), shortLead := true }

/-- Bind or take the override group of a voice being placed (R184). -/
def voiceGroup (i : Nat) (s : State) : State :=
  let v := s.voice i
  match s.groupOf v.part v.note with
  | some g => s.setVoice i { v with group := some g }
  | none =>
    if s.endpointDue (partAddr v.part 0x0B) v.stamp = 1 then
      match bindGroup v.part v.note s with
      | some (g, s1) => s1.setVoice i { s1.voice i with group := some g }
      | none => s
    else s

/-- PENDING to PRE-ROLL on core `k` (R105, R111). -/
def placeVoice (i k : Nat) (second : Bool) (s0 : State) : State :=
  let s := voiceGroup i (if (s0.voice i).deferred ∨ (s0.voice i).waitContent then lateOnset i s0 else s0)
  let v := s.voice i
  let path := s.pathOf v
  let c := s.costOn v path k
  let v1 := { v with st := .preRoll, core := k, ctx := s.freeCtx k, pair := (s.freePair (k / 8) 0).getD 0, placedFrame := s.frameOf v.bay,
                     cost := c.1, nonResident := c.2, path := path, waitContent := false, envTable := s.envSnapshot v.template,
                     mPrev := [], level := 0, keyHeld := true, keyAge := 0, fixed := s.fixedNow v, cfgs := s.cfgsNow v }
  let s1 := s.setVoice i { v1 with envs := startEnvs v1, oscs := s.startOscs v1 }
  match s.imgTemplate v.bay v.template with
  | none => s1
  | some x =>
    let s2 := putTwinTask k i x.entry (putVoiceTask k i x.entry s1)
    let s3 := requestLoad k v.template x.tableWords (s.frameOf v.bay) s2
    let s4 := match s.twin k with
      | some t => if s.shares (s.courseBay (t / 8)) then requestLoad t v.template x.tableWords (s.frameOf v.bay) s3 else s3
      | none => s3
    traceBay 0x01 k v.bay i (pack [(v.part, 0), (v.template, 8), (b2n c.2, 16), (b2n second, 17)]) (BitVec.ofNat 32 (s4.loadL k + s4.loadS k))
      s4

/-- Defer a start (R113). -/
def deferVoice (i : Nat) (s : State) : State :=
  let v := s.voice i
  let s1 := s.setVoice i { v with deferred := true, tries := v.tries + 1 }
  let s2 := if v.deferred then s1 else s1.onPart v.part fun p => { p with deferred := satInc p.deferred }
  traceBay 0x02 0xFF v.bay i (BitVec.ofNat 32 v.part) (BitVec.ofNat 32 v.tries) s2

/-- What a decision did, for the answer of a VOICE.START (R129). -/
inductive Decided where
  | placed | deferred | refused | waits
deriving DecidableEq, Repr

/-- Both passes over the cores of the Bay that plays the start (R111, R284). -/
def tryPlace (i : Nat) (s : State) : State × Decided :=
  let v := s.voice i
  let cores := s.bayCores (s.acting v.bay)
  match chooseCore cores .first v (s.pathOf v) none s with
  | some k => (placeVoice i k false s, .placed)
  | none =>
    match chooseCore cores .second v (s.pathOf v) none s with
    | some k => (placeVoice i k true s, .placed)
    | none => if (s.bay (s.acting v.bay)).mode = .render then (refuseVoice 2 i s, .refused) else (deferVoice i s, .deferred)

-- victims (R115) ---------------------------------------------------------------------------------------------------------------------------------

/-- Voices that may be victims of start `i`: in its part alone, or in its Bay (R115). -/
def eligible (i : Nat) (partOnly : Bool) (chosen : List Nat) (s : State) : List Nat :=
  let n := s.voice i
  let b := s.acting n.bay
  (s.voices.filter fun p =>
    let w := p.2
    w.inUse && !w.toFree && (w.st == .held || w.st == .releasing) && decide (w.priority ≤ n.priority) && !chosen.contains p.1
    && (if partOnly then w.part == n.part
        else decide (w.core < 64) && s.courseBay (w.core / 8) == b
          && (w.part == n.part ||
              decide (s.partP w.part 0xF2 < s.voiceCount w.part - (chosen.filter fun c => (s.voice c).part == w.part).length)))).map fun p => p.1

/-- Pick victims, lowest steal key first, until `enough` holds; at most `fuel` more (R115). -/
def pickVictims (i : Nat) (partOnly : Bool) (enough : List Nat → Bool) (s : State) (fuel : Nat) (chosen : List Nat) : Option (List Nat) :=
  if enough chosen then some chosen
  else match fuel with
    | 0 => none
    | k + 1 =>
      match leastRank ((eligible i partOnly chosen s).map fun w => (s.stealKey (s.partP (s.voice i).part 0xF4) w, w)) with
      | none => none
      | some w => pickVictims i partOnly enough s k (chosen ++ [w])

/-- Some core has room once the victims have left L, with Course room (R111). In a RENDER Bay, which defers no start, it must also have a task place,
so that a refused start takes no victim (R108, R109, R114). -/
def roomWithout (i : Nat) (chosen : List Nat) (s : State) : Bool :=
  let v := s.voice i
  let path := s.pathOf v
  (s.bayCores (s.acting v.bay)).any fun k =>
    let freed := (chosen.filter fun c => (s.voice c).core == k).foldl (fun a c => a + (s.voice c).cost) 0
    !s.unusable k && (s.freePair (k / 8) 0).isSome && decide (s.loadL k + (s.costOn v path k).1 ≤ s.budget k + freed)
      && ((s.bay (s.courseBay (k / 8))).mode != .render || decide (s.taskCount k < 64))

/-- One victim enters SCARF at the stamp of the start that steals it, no earlier than this frame (R111, R118, R119); an unstamped start's
provisional onset stands for its stamp (DESIGN CHOICE, log entry 128). -/
def stealVoice (i w : Nat) (s : State) : State :=
  let n := s.voice i
  let x := s.voice w
  let key := s.stealKey (s.partP n.part 0xF4) w
  let t := if stampDist n.stamp (s.stampOf n.bay) < 0 then s.stampOf n.bay else n.stamp
  let s1 := scarfVoice w t (s.scarfSteal x.part) 2 s
  let s2 := (s1.onPart x.part fun c => { c with stolen := satInc c.stolen }).onPart n.part fun c => { c with steals := satInc c.steals }
  traceBay 0x04 x.core n.bay w (pack [(key / 2 ^ 32, 16), (i, 0)]) (BitVec.ofNat 32 key) s2

/-- Victims of a start (R111): those of PART_ONLY, then those of BAY; a refusal touches nothing. -/
def chooseVictims (i : Nat) (s : State) : Except Nat (List Nat) :=
  let p := (s.voice i).part
  let limit := s.partP p 0xF1
  let first := if s.voiceCount p < limit then some []
    else pickVictims i true (fun ch => decide (s.voiceCount p < limit + ch.length)) s 4 []
  match first with
  | none => .error 1
  | some ch =>
    match pickVictims i false (fun c => roomWithout i c s) s (4 - ch.length) ch with
    | none => .error 2
    | some all => .ok all

/-- Why a start cannot play in its Bay: a trace cause of R262 (R99, R127, R237, R428); a start refused by KEYLOCK (R433) has no
cause stated, a free value (log entry 10). -/
def startBar (i : Nat) (s : State) : Option Nat :=
  let v := s.voice i
  let b := s.acting v.bay
  let os := s.voiceObjects v
  if !(s.bay b).mode.runsVoices || (s.bay b).refuseStarts || (s.bay v.bay).refuseStarts then some 3
  else if (s.imgTemplate v.bay v.template).isNone then some 4
  else if os.any fun o => !s.inStore o then some 7
  else if s.vault.keylock && os.any fun o => (s.contentOf o).prot then some ((Config.free32 s.freeCtr).toNat % 256)
  else if os.any fun o => !s.objResident v.bay o && s.underLoad o then some 5
  else none

/-- The decision of one released start (R111, R127, R236, R344). One refused later, for VOICE_LIMIT or for want of victims, has added its
heat (R126: DESIGN CHOICE, log entry 128). -/
def decideStart (i : Nat) (s : State) : State × Decided :=
  let v := s.voice i
  match startBar i s with
  | some why => (refuseVoice why i s.fresh, .refused)
  | none =>
    let os := s.voiceObjects v
    let s0 := if v.waitContent ∨ os = [] then s else dispatcherPost (.heat v.bay os.eraseDups) s
    if (withContent i s0).isNone then
      let s1 := if v.waitContent then s0 else s0.onPart v.part fun p => { p with contentMiss := satInc p.contentMiss }
      (fetchMissing v.bay os (s1.setVoice i { s1.voice i with waitContent := true }), .waits)
    else
      match chooseVictims i s0 with
      | .error why => (refuseVoice why i s0, .refused)
      | .ok ws =>
        let s1 := ws.foldl (fun s w => stealVoice i w s) s0
        let r := tryPlace i (s1.setVoice i { s1.voice i with victims := ws.length })
        if r.2 = .placed then ((withContent i r.1).getD r.1, .placed) else r

/-- Complete the VOICE.START that waits for slot `i` (R86, R129). -/
def finishStart (i : Nat) (d : Decided) (s : State) : State :=
  match s.mbx.jobs.find? fun jb => jb.opcode == 0x300 && jb.slot == i with
  | none => s
  | some jb =>
    if d = .waits then s
    else
      let s1 := { s with mbx := { s.mbx with jobs := s.mbx.jobs.filter fun x => x.j != jb.j } }
      if d = .refused then completeJob jb eNoslot [] s1
      else completeJob jb stDone [s.handle i, pack [((s.voice i).victims, 8), (b2n (d == .deferred), 0)]] s1

/-- A cancelled start's VOICE.START is answered DONE with word 1 = 2 (R129). -/
def finishCancelled (i : Nat) (s : State) : State :=
  match s.mbx.jobs.find? fun jb => jb.opcode == 0x300 && jb.slot == i with
  | none => s
  | some jb =>
    completeJob jb stDone [s.handle i, 2] { s with mbx := { s.mbx with jobs := s.mbx.jobs.filter fun x => x.j != jb.j } }

/-- Decide a released start and answer its command. -/
def releaseStart (i : Nat) (s : State) : State :=
  if (s.voice i).toFree then finishCancelled i s
  else let r := decideStart i s; finishStart i r.2 r.1

/-- A retry of a deferred start: both passes, no victims (R113); a start that waited for content is decided anew (R156). -/
def retryStart (i : Nat) (s : State) : State :=
  let v := s.voice i
  if v.toFree then finishCancelled i s
  else if v.deferred then
    match startBar i s with
    | some why => refuseVoice why i s.fresh
    | none => (tryPlace i s).1
  else releaseStart i s

/-- Sort by a key, stable. -/
def insertBy (key : Nat → Nat) (x : Nat) (xs : List Nat) : List Nat :=
  match xs with
  | [] => [x]
  | y :: r => if key x < key y then x :: y :: r else y :: insertBy key x r

/-- Sort a list by a key, stable. -/
def sortBy (key : Nat → Nat) (xs : List Nat) : List Nat := xs.foldl (fun acc x => insertBy key x acc) []

/-- Starts retried at a tick: deferred, or waiting for content, on a Bay (R113); earliest accepted first (DESIGN CHOICE, log entry 128). -/
def retryList (mine : Nat → Bool) (s : State) : List Nat :=
  sortBy (fun i => (s.voice i).start.toNat)
    ((s.voices.filter fun p => p.2.inUse && p.2.st == .pending && (p.2.deferred || p.2.waitContent) && mine p.2.bay).map fun p => p.1)

/-- DEFERRED_RETRY of a tick (R113). -/
def deferredRetry (mine : Nat → Bool) (s : State) : State := (retryList mine s).foldl (fun s i => retryStart i s) s

end Sys2Proof.Machine
end

