-- ==== Sys2Proof/Machine/Events.lean ====
section
/-! DEFINITION. What released events do (R181 to R184, R307, R308), and the closing of sessions (R312). -/

namespace Sys2Proof.Machine

/-- A session holds the part's sustain down (R308). -/
def State.sustained (s : State) (p : Nat) : Bool := (openSessions s).any fun i => (s.session i).sustain.contains p

/-- Release a voice at stamp `t`, or record the release under sustain (R308). -/
def relOrRecord (i : Nat) (t : Word) (s : State) : State :=
  let v := s.voice i
  if s.sustained v.part then s.setVoice i { v with relRecorded := true } else releaseVoice i t s

/-- Voices of a part that satisfy `f`. -/
def State.partVoices (s : State) (p : Nat) (f : Voice → Bool) : List Nat :=
  (s.voicesWith fun v => v.part == p && !v.toFree && f v).map fun q => q.1

/-- Glide a voice to note `k` from stamp `t` (R182); before it the voice keeps its note and its override group. -/
def glideTo (i k : Nat) (t : Word) (s : State) : State :=
  let v := s.voice i
  s.setVoice i { v with note := k, group := s.groupOf v.part k,
                        notesWas := v.notesWas ++ [{ until_ := t, note := v.note, group := v.group, glideFrom := v.glideFrom, glideAt := v.glideAt,
                                                     glideUs := v.glideUs }],
                        glideFrom := v.note, glideAt := t, glideUs := (s.smoothed (s.lineOf v.bay) (partAddr v.part 0x0D) t).toNat }

/-- Retrigger a voice to note `k` at stamp `t` (R182): its envelopes enter segment 0, it is HELD, a recorded release drops; it keeps the
velocity of its start (DESIGN CHOICE, log entry 128). -/
def retriggerVoice (i k : Nat) (t : Word) (s : State) : State :=
  let s1 := glideTo i k t s
  let v := s1.voice i
  s1.setVoice i { v with st := .held, released := false, relRecorded := false, envs := pendEnvs v t false }

/-- A MONO start that begins a new voice cancels, at its stamp, the voices of its part that still wait there (R157, R183). `own`: its voice. -/
def cancelWaiting (p own : Nat) (t : Word) (s : State) : State :=
  (s.voices.filter fun q => q.2.inUse && !q.2.toFree && q.2.part == p && waitsAt t q.2 && q.1 != own).foldl (fun s q => cancelAt q.1 t s) s

/-- The part's RETRIG is a MONO mode (R181). -/
def State.mono (s : State) (p : Nat) : Bool := decide (2 ≤ s.partP p 0x0C)

/-- A start that found its voice's release passed: its note goes on the stack of a MONO part at its stamp, and it cancels what waits (R183). -/
def pushAct (own p k : Nat) (t : Word) (s : State) : State := if s.mono p then cancelWaiting p own t (pushNote p k s) else s

/-- The voice's armed reset of a retrigger at stamp `t` is not wanted after all. -/
def dropArmed (armed : Option Nat) (t : Word) (s : State) : State := match armed with | some i => disarmResync i t s | none => s

/-- The synchronising reset of a retrigger that acts at its stamp `t`: RESYNC of that stamp decides, and one armed when the event entered stands
(R158, R182). `was`: the voice it was armed on. -/
def settleResync (i : Nat) (was : Option Nat) (sid : Option Nat) (t : Word) (s : State) : State :=
  let s1 := if was = some i then s else dropArmed was t s
  if s1.tmplP (s1.voice i).template 0xE6 = 0 then disarmResync i t s1
  else if (s1.voice i).resyncs.any fun r => r.1 == t then s1
  else (armResync i sid t s1).1

/-- A note start acts at its stamp on a voice that sounds, or begins a new one with too short a lead, counted late once (R155, R181 to R183; DEDUCED,
log entry 24). `armed`: the voice that it was to retrigger when it entered; `counted`: it counts late already. -/
def noteStartAt (sid : Option Nat) (armed : Option Nat) (counted : Bool) (p k : Nat) (vel : BitVec 16) (t : Word) (s : State) : State :=
  match startChoice p k t none s with
  | .fresh =>
    let s1 := dropArmed armed t s
    (newVoice sid p k vel (s1.reachOf (s1.partBay p)) t counted (pushAct 8192 p k t s1)).1
  | .retrigger i =>
    let s2 := settleResync i armed sid t s
    retriggerVoice i k t (if s2.mono p then pushNote p k s2 else s2)
  | .glide i => glideTo i k t (pushNote p k (dropArmed armed t s))

/-- What follows a start at its stamp `t`: it acts at once in the frame that is being released, else it waits for it. -/
def atStamp (x : TEvent) (b : Nat) (t : Word) (now : State → State) (act : Action) (s : State) : State :=
  if stampDist t (s.reachOf b) < 0 then now s else enterTimeline { stamp := t, key := t, bay := b, session := x.session, counted := x.counted, act := act } s

/-- The start of an event is released (R111, R154): it takes the template and priority of its stamp; when by its stamp it will meet a voice that
sounds it gives its own voice up and acts there (R181, R183; log entry 24). A VOICE.START pushes no note on the stack of a MONO part (R183; DESIGN CHOICE,
log entry 136). -/
def startEvent (x : TEvent) (i : Nat) (s : State) : State :=
  let v := s.voice i
  if v.byCommand ∨ v.toFree then releaseStart i s
  else
    let onto := fun (j : Nat) (act : Action) (s : State) => atStamp x v.bay v.stamp (noteStartAt x.session (some j) x.counted v.part v.note v.velocity v.stamp) act s
    match startChoice v.part v.note v.stamp (some i) s with
    | .retrigger j => onto j (.retrigger j v.note v.velocity) (armResync j x.session v.stamp (cancelVoice i s)).1
    | .glide j => onto j (.glide j v.note v.velocity) (cancelVoice i s)
    | .fresh =>
      let s1 := s.setVoice i { v with template := (s.endpointDue (partAddr v.part 0xF6) v.stamp).toNat, priority := (s.endpointDue (partAddr v.part 0xF3) v.stamp).toNat }
      let s2 := releaseStart i s1
      if 2 ≤ (s.endpointDue (partAddr v.part 0x0C) v.stamp).toNat then
        atStamp x v.bay v.stamp (pushAct i v.part v.note v.stamp) (.push i v.part v.note) s2
      else s2

/-- A Note Off in a MONO mode (R183). One that uncovers a note retriggers, or glides, the part's voice also where that is still PENDING or in PRE-ROLL
(DESIGN CHOICE, log entry 136). `armed`: the voice whose reset it armed when it entered. -/
def monoOff (sid armed : Option Nat) (p k : Nat) (t : Word) (s : State) : State :=
  let stack := s.params.noteStacks.look p []
  let put := fun xs (s : State) => { s with params := { s.params with noteStacks := s.params.noteStacks.put p xs } }
  let idle := dropArmed armed t s
  match s.newest fun v => v.part == p && (v.st == .pending || v.st == .preRoll || v.st == .held || v.st == .releasing) with
  | none => put (stack.filter fun x => x != k) idle
  | some i =>
    if stack.head? = some k then
      match stack.tail with
      | top :: _ =>
        if s.partP p 0x0C = 2 then retriggerVoice i top t (settleResync i armed sid t (put stack.tail s)) else glideTo i top t (put stack.tail idle)
      | [] => relOrRecord i t (put [] idle)
    else if stack.contains k then put (stack.filter fun x => x != k) idle
    else if (s.voice i).note = k then relOrRecord i t idle else idle

/-- A Note Off (R183, R307). -/
def noteOff (sid armed : Option Nat) (p k : Nat) (t : Word) (s : State) : State :=
  if 2 ≤ s.partP p 0x0C then monoOff sid armed p k t s
  else match s.oldest fun v => v.part == p && v.note == k && !v.relRecorded && (v.st == .pending || v.st == .preRoll || v.st == .held) with
    | some i => relOrRecord i t s
    | none => s

/-- A per-note write: a group is bound when none is; without a free one it is discarded and counted (R184). -/
def perNoteWrite (p k param : Nat) (v : Word) (t : Word) (s : State) : State :=
  match bindGroup p k s with
  | none => countPnMiss p s
  | some (g, s1) => writeEndpoint (s.lineOf (s.partBay p)) (groupAddr g param) v none t s1

/-- Per-Note Management with S = 1: every parameter of the group at its reset value (R307). -/
def perNoteReset (p k : Nat) (t : Word) (s : State) : State :=
  match bindGroup p k s with
  | none => countPnMiss p s
  | some (g, s1) =>
    (s1.params.endpoints.filter fun q => q.1 / 256 == 0x200 + g).foldl (fun s q =>
      match descOf q.1 with | some d => writeEndpoint (s.lineOf (s.partBay p)) q.1 d.reset none t s | none => s) (s1.setGroup g { s1.group g with idle := 0 })

/-- The last pedal of a part lifts: every recorded release is applied (R308). -/
def applyRecorded (p : Nat) (t : Word) (s : State) : State :=
  if s.sustained p then s else (s.partVoices p fun v => v.relRecorded).foldl (fun s i => releaseVoice i t s) s

/-- The sustain pedal of a part, from a session (R308). -/
def sustainPedal (sid : Option Nat) (p : Nat) (down : Bool) (t : Word) (s : State) : State :=
  match sid with
  | none => s
  | some i =>
    if down then s.onSession i fun x => { x with sustain := if x.sustain.contains p then x.sustain else p :: x.sustain }
    else applyRecorded p t (s.onSession i fun x => { x with sustain := x.sustain.filter fun q => q != p })

/-- What a released item does at its stamp (R307); a stamped command and a start are released by the tick itself. -/
def actAt (x : TEvent) (s : State) : State :=
  let t := x.stamp
  match x.act with
  | .start i => startEvent x i s
  | .retrigger i k vel | .glide i k vel => noteStartAt x.session (some i) x.counted (s.voice i).part k vel t s
  | .noteOn p k vel => noteStartAt x.session none x.counted p k vel t s
  | .push i p k => pushAct i p k t s
  | .noteOff p k => noteOff x.session x.armed p k t s
  | .write a v => writeEndpoint (s.lineOf x.bay) a v none t s
  | .perNote p k param v => perNoteWrite p k param v t s
  | .pnReset p k => perNoteReset p k t s
  | .sustain p down => sustainPedal x.session p down t s
  | .soundOff p => (s.partVoices p (soundsBy t)).foldl (fun s i => endVoice i t (s.scarfSteal p) 3 s) s
  | .notesOff p => (s.partVoices p fun v => soundsBy t v && v.st != .releasing && !v.relRecorded).foldl (fun s i => relOrRecord i t s) s
  | .cmd _ => s

-- closing (R312) -----------------------------------------------------------------------------------------------------------------------

/-- Partner items of a session that wait: a stamped command stays queued (DEDUCED, log entry 25), and so does what a released start leaves. -/
def ownItem (i : Nat) (t : TEvent) : Bool :=
  t.session == some i && (match t.act with | .cmd _ | .push _ _ _ => false | _ => true)

/-- A discarded item gives back what it took when it entered: its start's voice, the reset it armed. -/
def dropItem (s : State) (x : TEvent) : State :=
  match x.act with
  | .start i => cancelVoice i s
  | .retrigger i _ _ => disarmResync i x.stamp s
  | _ => dropArmed x.armed x.stamp s

/-- Discard a session's queued events (R312): the voice of a discarded start is cancelled, and the reset that a discarded retrigger armed is
not performed. Answers how many. -/
def discardEvents (i : Nat) (s : State) : State × Nat :=
  let gone := s.se.timeline.filter (ownItem i)
  let n := gone.length + (s.se.fifo.filter (ownItem i)).length + (s.session i).parkedEvents.length
    + s.uarts.foldl (fun a u => a + (u.2.buf.filter (ownItem i)).length) 0
  let s1 := { s with se := { s.se with timeline := (s.se.timeline.filter fun t => !ownItem i t).map (fun (t : TEvent) => if t.session = some i then { t with session := none } else t),
                                       fifo := s.se.fifo.filter fun t => !ownItem i t } }
  let s2 := { s1 with uarts := s1.uarts.mapVals fun _ u => { u with buf := u.buf.filter fun t => !ownItem i t } }
  (gone.foldl dropItem s2, n)

/-- Voices a close releases (R312). -/
def closeVoices (i : Nat) (s : State) : List Nat :=
  (s.voicesWith fun v => v.session == some i && !v.toFree && (v.st == .pending || v.st == .preRoll || v.st == .held)).map fun p => p.1

/-- A session closes at a device frame boundary (R312): events discarded, pedals lifted, voices released at their Bay's reach
point, the slot freed. Answers the counts of R319. -/
def closeSession (i : Nat) (s : State) : State × Nat × Nat :=
  let x := s.session i
  let rel := x.closing.getD x.closeRelease
  let d := discardEvents i s
  let s1 := d.1.onSession i fun y => { y with sustain := [] }
  let s2 := x.sustain.foldl (fun s p => applyRecorded p (s.reachOf (s.partBay p)) s) s1
  let vs := if rel then closeVoices i s2 else []
  let s3 := vs.foldl (fun s v => releaseVoice v (s.reachOf (s.voice v).bay) s) s2
  let s4 := { s3 with voices := s3.voices.mapVals fun _ v => if v.session = some i then { v with session := none } else v }
  (s4.setSession i { tag := x.tag }, d.2, vs.length)

/-- Mark a session for closing at the next boundary; an earlier cause stands unless a command's RELEASE takes its place
(R312, R319). -/
def markClosing (i : Nat) (rel : Option Bool) (s : State) : State :=
  s.onSession i fun x => if x.isOpen then { x with closing := some (rel.getD (x.closing.getD x.closeRelease)) } else x

/-- SESSION.CLOSE commands that wait for session `i` with its TAG. -/
def closeJobs (i : Nat) (s : State) : List Job :=
  s.mbx.jobs.filter fun jb => jb.opcode == 0x203 && bits (jb.e.pw 0) 7 0 == i && bits (jb.e.pw 0) 15 8 == (s.session i).tag.toNat

/-- SESSION_CLOSING of one session, with the answers of its SESSION.CLOSE commands (R312, R319). -/
def closeOne (s : State) (i : Nat) : State :=
  let x := s.session i
  let jobs := closeJobs i s
  let s0 := { s with mbx := { s.mbx with jobs := s.mbx.jobs.filter fun jb => !jobs.any fun y => y.j == jb.j } }
  let s1 := if x.transport = 0 ∧ jobs ≠ [] then s0.send .bye [i] else s0
  let r := closeSession i s1
  jobs.foldl (fun s jb => completeJob jb stDone [BitVec.ofNat 32 r.2.1, BitVec.ofNat 32 r.2.2] s) r.1

/-- Every session whose closing is due (R312). -/
def closeAll (s : State) : State := ((openSessions s).filter fun i => (s.session i).closing.isSome).foldl closeOne s

-- voices that go to FREE (R105) -----------------------------------------------------------------------------------------------------------

/-- Items of the timeline that name a voice whose slot is given up: its start goes, a retrigger or a glide of it becomes a start (R106, log
entry 24). -/
def detachItem (i : Nat) (p : Nat) (t : TEvent) : Option TEvent :=
  match t.act with
  | .start j => if j = i then none else some t
  | .retrigger j k vel => if j = i then some { t with act := .noteOn p k vel } else some t
  | .glide j k vel => if j = i then some { t with act := .noteOn p k vel } else some t
  | _ => some t

/-- A voice's slot is given up: nothing that waits names it any more. An unstamped start that was cancelled is answered (R129). -/
def detachVoice (i : Nat) (s : State) : State :=
  let s1 :=
    if (s.voice i).st = .pending ∧ (s.voice i).unstamped then finishCancelled i s
    else { s with mbx := { s.mbx with jobs := s.mbx.jobs.map fun jb => if jb.opcode = 0x300 ∧ jb.slot = i then { jb with slot := 8192 } else jb } }
  { s1 with se := { s1.se with timeline := s1.se.timeline.filterMap (detachItem i (s.voice i).part) } }

/-- The voices that `pick` chooses reach FREE; `extra` frames of quarantine before the next device boundary (R102). -/
def freeEach (pick : Voice → Bool) (extra : Nat) (s : State) : State :=
  (s.voices.filter fun p => p.2.inUse && p.2.toFree && pick p.2).foldl (fun s p =>
    let s1 := dropBuffers p.1 (freeVoice p.1 (detachVoice p.1 s))
    s1.setVoice p.1 { s1.voice p.1 with quarLeft := (s1.voice p.1).quarLeft + extra }) s

end Sys2Proof.Machine
end

