-- ==== Sys2Proof/Machine/VoiceCmds.lean ====
section
/-! DEFINITION. Voice and placement commands (R128 to R134) and the decimation commands (R151, R162, R163). -/

namespace Sys2Proof.Machine

/-- State codes of a voice (R104). -/
def VState.code (x : VState) : Nat :=
  match x with
  | .pending => 0
  | .preRoll => 1
  | .held => 2
  | .releasing => 3
  | .scarf => 4
  | .free => 5

/-- A TARGET that is not the Bay of the part or voice (R128). -/
def targetIs (e : Entry) (b : Nat) : Option Fail := need (decide (e.target.toNat = b)) eConflict

/-- Room in the event pool for a stamped command (R311). -/
def stampRoom (e : Entry) (s : State) : Option Fail := need (!e.stamped || poolRoom e.ch 1 s) eNoslot

-- VOICE.START (R129) --------------------------------------------------------------------------------------------------------------------

/-- What a VOICE.START asks for (R129). -/
def startOf (e : Entry) (s : State) : StartReq :=
  let w := e.pw 0
  let p := bits w 7 0
  { part := p, template := if bit w 31 then s.partP p 0xF6 else bits w 23 16, priority := if bit w 30 then s.partP p 0xF3 else bits w 15 8,
    note := bits (e.pw 1) 14 8, velocity := BitVec.ofNat 16 (bits (e.pw 1) 31 16), byCommand := true }

/-- VOICE.START once validated (R102, R129, R155). The provisional onset stands as the stamp of an unstamped start, for its noise register too
(R145; DESIGN CHOICE, log entry 136). -/
def runVoiceStart (c : Card) (e : Entry) (s : State) : State :=
  match acceptStart (startOf e s) s with
  | none => s
  | some (i, s1) =>
    let b := e.target.toNat
    let reach := s.reachOf b
    if e.stamped then
      let t := effStamp c e s
      let x := startTimes t reach (s.preRoll b) s.tpf
      let s2 := setTimes i t x false s1
      let s3 := if x.short ∧ ¬ isLate c e s then countLate (mailboxSession e.ch s2) (x.onset - t).toNat s2 else s2
      queueStamped 0x300 e { stamp := t, bay := b, slot := i } x.key [s3.handle i, 0] s3
    else
      let x := startTimes reach reach (s.preRoll b) s.tpf
      queueBoundary 0x300 e { bay := b, slot := i, stamp := x.onset } (setTimes i x.onset x true s1)

/-- VOICE.START (R129, R354): a start that the Bay's drain refuses (R272) is answered as a refused start (R114). -/
def cardVoiceStart : Card where
  opcode := 0x300
  device := false
  modes := [.play, .follow, .render]
  len := fun e => e.payload.length == 2
  range := fun e _ =>
    let w := e.pw 0
    bits w 29 24 == 0 && (!bit w 31 || bits w 23 16 == 0) && (!bit w 30 || bits w 15 8 == 0) && !bit (e.pw 1) 15 && bits (e.pw 1) 7 0 == 0
  flags := fun e _ => !e.stage
  post := fun e s =>
    firstFail [ need (s.imgTemplate (s.acting e.target.toNat) (startOf e s).template).isSome eState,
                need (takeSlot s).isSome eNoslot, stampRoom e s,
                targetIs e (s.partBay (bits (e.pw 0) 7 0)) ]
  agree := fun e s =>
    let b := s.acting e.target.toNat
    (s.partPairs (bits (e.pw 0) 7 0)).all fun q => !renderBreaks s.endpoint s.bridge.routes ((s.bay b).mode == .render) b q s
  run := fun e s => runVoiceStart { opcode := 0x300, len := fun _ => true, run := fun _ s => s } e s

-- VOICE.RELEASE and VOICE.END (R130, R131) --------------------------------------------------------------------------------------------------

/-- The checks of a command that names a voice (R101, R103, R128). -/
def voiceChecks (e : Entry) (s : State) : Option Fail :=
  firstFail [ (if s.handleCurrent (e.pw 0) then none else some (eHandleStale, [e.pw 0])), stampRoom e s, targetIs e (s.voice (bits (e.pw 0) 15 0)).bay ]

/-- Waits for its stamp, or for the next boundary of its Bay (R106, R118). -/
def runOnVoice (op : Nat) (e : Entry) (s : State) : State :=
  let c : Card := { opcode := op, len := fun _ => true, run := fun _ s => s }
  if e.stamped then queueStamped op e { stamp := effStamp c e s, bay := e.target.toNat } (effStamp c e s) [] s
  else queueBoundary op e { bay := e.target.toNat } s

/-- VOICE.RELEASE (R130). -/
def cardVoiceRelease : Card where
  opcode := 0x301
  device := false
  modes := [.play, .follow, .render]
  len := fun e => e.payload.length == 1
  range := fun e _ => handleOk (e.pw 0)
  flags := fun e _ => !e.stage
  post := voiceChecks
  run := runOnVoice 0x301

/-- VOICE.END (R131). -/
def cardVoiceEnd : Card where
  opcode := 0x302
  device := false
  modes := [.play, .follow, .render]
  len := fun e => e.payload.length == 2
  range := fun e _ =>
    handleOk (e.pw 0) && ((e.pw 1).toNat == 0 || (decide (5 ≤ (e.pw 1).toNat) && decide ((e.pw 1).toNat ≤ 200)))
  flags := fun e _ => !e.stage
  post := voiceChecks
  run := runOnVoice 0x302

/-- VOICE.RELEASE acts at a stamp; a voice that has gone meanwhile is left (R106). -/
def applyRelease (e : Entry) (t : Word) (s : State) : State :=
  if s.handleCurrent (e.pw 0) then releaseVoice (bits (e.pw 0) 15 0) t s else s

/-- VOICE.END acts at a stamp (R106, R119, R131). -/
def applyEnd (e : Entry) (t : Word) (s : State) : State :=
  let i := bits (e.pw 0) 15 0
  if s.handleCurrent (e.pw 0) then
    endVoice i t (if e.pw 1 = 0 then s.scarfSteal (s.voice i).part else samples100us s.time.rate (e.pw 1).toNat) 3 s
  else s

-- queries (R132 to R134) ----------------------------------------------------------------------------------------------------------------------

/-- The handle names the slot's present voice, in FREE too while in quarantine (R132). -/
def queryable (h : Word) (s : State) : Bool :=
  let v := s.voice (bits h 15 0)
  v.inUse && v.gen.toNat == bits h 31 16

/-- A VOICE.QUERY of Bay `b` may name voice `v`: its own, or on a mirror the home's (R132, R275). -/
def queriesOn (b : Nat) (v : Voice) (s : State) : Bool :=
  b == v.bay || (((s.bay b).role == 2 || (s.bay b).role == 4) && s.partnerOf b == v.bay)

/-- The core of voice `v` that a query of Bay `b` reports: on a mirror the mirror's own (R275), and on a yielded home that of the Bay in control
(R284). -/
def coreOn (b : Nat) (v : Voice) (s : State) : Nat :=
  if v.core < 64 ∧ s.courseBay (v.core / 8) ≠ s.acting b then (s.twin v.core).getD v.core else v.core

/-- The words of VOICE.QUERY (R132). -/
def voiceWords (b : Nat) (s : State) (v : Voice) : List Word :=
  let live := v.st != .pending && v.st != .free
  [pack [(v.cause, 8), (v.st.code, 0)], pack [(v.part, 8), (v.template, 0)],
   pack [(v.priority, 24), (if live then v.level.toNat else 0, 16), (if live then coreOn b v s else 0xFF, 0)],
   v.placedFrame.setWidth 32, if live then BitVec.ofNat 32 v.cost else 0]

/-- VOICE.QUERY (R132). -/
def cardVoiceQuery : Card where
  opcode := 0x303
  device := false
  modes := [.play, .follow, .render, .mirror]
  len := fun e => e.payload.length == 1
  range := fun e _ => handleOk (e.pw 0)
  post := fun e s => firstFail [(if queryable (e.pw 0) s then none else some (eHandleStale, [e.pw 0])), need (queriesOn e.target.toNat (s.voice (bits (e.pw 0) 15 0)) s) eConflict]
  run := fun e s => finishNow 0x303 e (voiceWords e.target.toNat s (s.voice (bits (e.pw 0) 15 0))) s

/-- PART.COUNTERS (R133). -/
def cardPartCounters : Card where
  opcode := 0x310
  len := fun e => e.payload.length == 1
  range := fun e _ => bits (e.pw 0) 31 9 == 0
  run := fun e s =>
    let p := bits (e.pw 0) 7 0
    let c := s.partCtr p
    finishNow 0x310 e [BitVec.ofNat 32 (s.voiceCount p), c.starts, c.steals, c.stolen, c.refused, c.deferred, c.shed, c.cut, c.contentMiss]
      (if bit (e.pw 0) 8 then s.setPartCtr p {} else s)

-- decimation (R162, R163) -----------------------------------------------------------------------------------------------------------------------

/-- DECIM.SET (R162): written at validation in every Course of a LOAD Bay. -/
def cardDecimSet : Card where
  opcode := 0x620
  device := false
  modes := [.play, .follow, .render, .service, .load]
  len := fun e => e.payload.length == 1
  range := fun e _ => decide ((e.pw 0).toNat < 3)
  post := fun e s => need ((s.bay e.target.toNat).mode == .load) eBusy
  run := fun e s =>
    let s1 := (s.bayCourses e.target.toNat).foldl (fun s c => s.setCourse c { s.course c with preset := (e.pw 0).setWidth 2 }) s
    finishNow 0x620 e [] (bumpEpoch s1)

/-- The slot pairs that Course `n` holds (R136, R151): a MIRROR Bay's Courses hold those of their twins while it renders them. -/
def State.pairsIn (s : State) (n : Nat) : List Nat :=
  let b := s.courseBay n
  if s.timelineBay b = b then s.pairsHeld n else if s.shares b then s.pairsHeld (((s.twin (8 * n)).getD (8 * n)) / 8) else []

/-- DE_STATUS (R151). -/
def State.deStatus (s : State) (n : Nat) : Word :=
  pack [((s.course n).sat.toNat, 24), ((s.course n).clamp.toNat, 16), ((s.pairsIn n).length, 0)]

/-- DECIM.STATUS (R163). -/
def cardDecimStatus : Card where
  opcode := 0x320
  len := fun e => e.payload.length == 1
  range := fun e _ => bits (e.pw 0) 31 3 == 0
  run := fun e s =>
    let n := bits (e.pw 0) 2 0
    let c := s.course n
    finishNow 0x320 e [c.preset.setWidth 32, s.deStatus n, BitVec.ofNat 32 (s.courseBay n)] (s.setCourse n { c with sat := 0, clamp := 0 })

end Sys2Proof.Machine
end

