-- ==== Sys2Proof/Machine/Coefs.lean ====
section
/-! DEFINITION. Coefficient banks (R193 to R198, R202 to R204) and program images (R234 to R238). -/

namespace Sys2Proof.Machine

-- banks (R193 to R198) -----------------------------------------------------------------------------------------------------------------

/-- Sections of a standard bank, minus 1 (R194). -/
def standardSections (b : Nat) : BitVec 1 := if standardTwo b then 1 else 0

/-- The standard banks, as the firmware builds them for the base rate; banks 8 to 63 hold no valid set (R194, R195). The
entries of a standard bank are `Config.standardBank`. -/
def buildBanks (s : State) : State :=
  (List.range 64).foldl (fun s b =>
    s.setCoef b (if b < 8 then { front := { valid := true, sections := standardSections b } } else { superseded := (s.coef b).superseded })) s

/-- Entry word `i` of the set a user reads (R193 to R195). -/
def State.coefWord (s : State) (b i : Nat) : Word :=
  if b < 8 then Config.standardBank b s.time.rate.toNat i else (s.coef b).front.words.getD i 0

/-- Words of a set, the header included (R193). -/
def setWords (header : Word) : Nat := if bit header 24 then 5121 else 2561

/-- Each RENDER Bay is to take a swap at its own boundary; a newer one replaces one it holds (R198). -/
def renderWant (b : Nat) (x : CoefSet) (len : Nat) (s : State) : State :=
  (List.range 8).foldl (fun s r =>
    if s.formed r ∧ (s.bay r).mode = .render then
      let y := (s.bay r).rswaps.look b { front := (s.coef b).front }
      s.setBay r { s.bay r with rswaps := (s.bay r).rswaps.put b { y with want := some (x, len) } }
    else s) s

/-- A RENDER Bay takes one bank's swap at its own boundary, unless its Scarf of an earlier one still runs (R198). -/
def takeSwap (rate : BitVec 3) (spf : Nat) (x : RSwap) : RSwap :=
  let x1 := { x with left := x.left - spf, outgoing := if x.left ≤ spf then {} else x.outgoing }
  match x1.want with
  | some w =>
    if x1.left = 0 then
      let n := samples100us rate w.2
      { front := w.1, outgoing := if n = 0 then {} else x1.front, left := n, len := n, want := none }
    else x1
  | none => x1

/-- Filters of voices on the Bays `mine` that read bank `b` start a swap Scarf: the states of the outgoing set are a copy (R196). -/
def scarfUsers (b : Nat) (mine : Nat → Bool) (s : State) : State :=
  { s with voices := s.voices.mapVals fun _ v =>
      if v.inUse ∧ v.st ≠ .free ∧ v.st ≠ .pending ∧ mine v.bay then
        { v with filtOld := (List.range 2).map fun f =>
            if (s.voiceP v (0x31 + 8 * f)).toNat = b then some ((v.filt.drop (2 * f)).take 2) else v.filtOld.getD f none }
      else v }

/-- A RENDER Bay's own frame boundary (R198). -/
def renderSwaps (r : Nat) (s : State) : State :=
  let old := (s.bay r).rswaps
  let new := old.mapVals fun _ x => takeSwap s.time.rate s.spf x
  let started := (new.filter fun p => p.2.left != 0 && (old.look p.1 {}).want.isSome && p.2.want.isNone).map fun p => p.1
  started.foldl (fun s b => scarfUsers b (fun y => s.acting y == r) s) (s.setBay r { s.bay r with rswaps := new })

/-- BACK becomes FRONT at a boundary, with a swap Scarf of `len` units of 100 us (R196). -/
def makeSwap (b len : Nat) (s : State) : State :=
  let x := s.coef b
  let n := samples100us s.time.rate len
  let s1 := (renderWant b x.back len s).setCoef b
    { x with front := x.back, frontHigh := !x.frontHigh, outgoing := if n = 0 then {} else x.front, scarfLeft := n, scarfLen := n, ended := false, held := none, heldLen := 0 }
  if n = 0 then s1 else scarfUsers b (fun y => !s1.ownTimeline y) s1

/-- A swap Scarf runs on the bank, seen from within the frame (R196). -/
def CoefBank.scarfing (x : CoefBank) : Bool := decide (0 < x.scarfLeft) && !x.ended

/-- Hold a swap request: the one held before is superseded (R197). -/
def holdSwap (b len : Nat) (j : Word) (s : State) : State :=
  let x := s.coef b
  match x.held with
  | none => s.setCoef b { x with held := some j, heldLen := len }
  | some old =>
    let s1 := s.setCoef b { x with held := some j, heldLen := len, superseded := satInc x.superseded }
    match s1.mbx.jobs.find? fun jb => jb.j == old with
    | some jb => rollBack old jb.e false (dropJob old s1)
    | none => s1

/-- Bank that a coefficient command names. -/
def bankNamed (e : Entry) : Nat := bits (e.pw 0) 5 0

/-- Words of a held request's ACCEPTED (R202, R203). -/
def heldWords (b : Nat) (s : State) : List Word := [1, (s.coef b).held.getD 0]

/-- A validated swap request: held while the bank's Scarf runs, else it waits for the next boundary (R196, R197). -/
def requestSwap (op : Nat) (e : Entry) (s : State) : State :=
  let b := bankNamed e
  if !(s.coef b).scarfing then queueBoundary op e {} s
  else
    let j := s.mbx.nextJ
    let s1 := addJob { j := j, opcode := op, e := e, phase := .held } (journalAdd op e .queued 0 0 s)
    answer e stAccepted j (heldWords b s) false (markAnswered j (holdSwap b (bits (e.pw 0) 31 16) j s1))

/-- A swap request at its boundary; one that meets a Scarf that began at this boundary is held (R197). -/
def applySwap (jb : Job) (s : State) : State :=
  let b := bankNamed jb.e
  let len := bits (jb.e.pw 0) 31 16
  if (s.coef b).scarfLeft = 0 then completeJob jb stDone [0, 0] (makeSwap b len s)
  else
    answer jb.e stAccepted jb.j (heldWords b s) false
      (markAnswered jb.j (holdSwap b len jb.j (addJob { jb with phase := .held } s)))

/-- A device frame boundary for one bank: its Scarf has run a frame, and a held swap applies once it has ended (R196, R197). -/
def tickBank (s : State) (b : Nat) : State :=
  let x := s.coef b
  let left := x.scarfLeft - s.spf
  let s1 := s.setCoef b { x with scarfLeft := left, ended := false, outgoing := if left = 0 then {} else x.outgoing }
  match x.held with
  | none => s1
  | some j =>
    if left = 0 then
      match s1.mbx.jobs.find? fun jb => jb.j == j with
      | some jb => completeJob jb stDone [] (makeSwap b x.heldLen (dropJob j s1))
      | none => s1
    else s1

/-- A coefficient area has not received the copy of the new FRONT in its old slot for bank `b`: a swap's Scarf runs (R198, R329). -/
def copyDue (b : Nat) (s : State) : Bool :=
  (s.coef b).scarfLeft != 0 || (List.range 8).any fun r => (s.bay r).mode == .render && ((s.bay r).rswaps.look b {}).left != 0

/-- The loads that waited for that copy are complete (R202, R329). -/
def finishLoads (s : State) : State :=
  (s.mbx.jobs.filter fun jb => jb.phase == .copy && !copyDue (bankNamed jb.e) s).foldl (fun s jb => completeJob jb stDone [0, 0] (dropJob jb.j s)) s

/-- Every bank at a device frame boundary. -/
def tickBanks (s : State) : State :=
  let s1 := (List.range 64).foldl tickBank s
  if s1.condDown then s1 else finishLoads s1

/-- SWAP_SCARF_END: the swap Scarf of a bank ends at its sample N, within the present frame (R196). -/
def execSwapScarfEnd (bank : Nat) (s : State) : Outcome :=
  withUnit bank 64 <| .next <|
    let x := s.coef bank
    if 0 < x.scarfLeft ∧ x.scarfLeft ≤ s.spf then s.setCoef bank { x with ended := true } else s

/-- Scarf length of a swap: 0 or 5 to 200 (R202, R203). -/
def swapLenOk (n : Nat) : Bool := n == 0 || (decide (5 ≤ n) && decide (n ≤ 200))

/-- The header at the offset of a COEF.LOAD. -/
def loadHeader (e : Entry) (s : State) : Word := Mem.word s.mem.win ((e.pw 1).toNat / 4)

/-- COEF.LOAD (R202): without a swap it is DONE once every area holds the set, which waits for the copy of a swap's Scarf (R329). -/
def cardCoefLoad : Card where
  opcode := 0x420
  len := fun e => e.payload.length == 2
  range := fun e s =>
    let w := e.pw 0
    swapLenOk (bits w 31 16) && (bit w 8 || bits w 31 16 == 0) && bits w 15 9 == 0 && bits w 7 6 == 0 && (e.pw 1).toNat % 4 == 0
    && dataRegion (e.pw 1).toNat (4 * setWords (loadHeader e s))
  agree := fun e s =>
    let h := loadHeader e s
    bits h 27 25 == s.time.rate.toNat && bits h 31 28 == 0 && bits h 23 0 == 0
  pre := fun e _ => need (decide (8 ≤ bankNamed e)) eOwner
  post := fun e s => need (bit (e.pw 0) 8 || (s.coef (bankNamed e)).held.isNone) eBusy
  run := fun e s =>
    let b := bankNamed e
    let h := loadHeader e s
    let x : CoefSet := { valid := true, sections := BitVec.ofNat 1 (bits h 24 24), words := Mem.words s.mem.win ((e.pw 1).toNat / 4 + 1) (setWords h - 1) }
    let s1 := s.setCoef b { s.coef b with back := x }
    if bit (e.pw 0) 8 then requestSwap 0x420 e s1
    else if copyDue b s then addJob { j := s1.mbx.nextJ, opcode := 0x420, e := e, phase := .copy } (journalAdd 0x420 e .queued 0 0 s1)
    else finishNow 0x420 e [0, 0] s1

/-- COEF.SWAP (R203). -/
def cardCoefSwap : Card where
  opcode := 0x421
  len := fun e => e.payload.length == 1
  range := fun e _ => swapLenOk (bits (e.pw 0) 31 16) && bits (e.pw 0) 15 6 == 0
  pre := fun e _ => need (decide (8 ≤ bankNamed e)) eOwner
  post := fun e s => need (s.coef (bankNamed e)).back.valid eState
  run := requestSwap 0x421

/-- Words of COEF.STATUS once `passed` samples of the device frame have passed (R204). While a swap is held the state is 2, also after the Scarf
has ended within the frame, with no samples left: the spec gives no code for that (DESIGN CHOICE, log entry 128). -/
def coefWords (passed : Nat) (x : CoefBank) : List Word :=
  let left := if x.scarfing then x.scarfLeft - passed else 0
  let code := if x.held.isSome then 2 else if 0 < left then 1 else 0
  [pack [(code, 0), (b2n x.front.valid, 4), (b2n x.back.valid, 5), (x.front.sections.toNat, 8), (x.back.sections.toNat, 9)],
   BitVec.ofNat 32 left, x.held.getD 0, x.superseded]

/-- COEF.STATUS (R204). -/
def cardCoefStatus : Card where
  opcode := 0x422
  len := fun e => e.payload.length == 1
  range := fun e _ => bits (e.pw 0) 31 6 == 0
  run := fun e s => finishNow 0x422 e (coefWords (s.ticksInto / 16) (s.coef (bankNamed e))) s

-- program images (R234 to R238) -----------------------------------------------------------------------------------------------------------

/-- The tag of an image is good (R425). -/
def imageTagOk (ik : BitVec 256) (image : List Word) : Bool :=
  let n := image.length - 8
  image.drop n == digestWords (hmac ik (wordBytes (image.take n)))

/-- Word `i` of the image a VPROG.LOAD names (R235). -/
def imgWord (e : Entry) (s : State) (i : Nat) : Word := Mem.word s.mem.win ((e.pw 0).toNat / 4 + i)

/-- Templates of the image. -/
def imgCount (e : Entry) (s : State) : Nat := bits (imgWord e s 0) 7 0 + 1

/-- Program words of the image. -/
def imgProg (e : Entry) (s : State) : Nat := bits (imgWord e s 1) 15 0

/-- The four words of template `i` in range (R235, R238). -/
def tmplWordsOk (e : Entry) (s : State) (i : Nat) : Bool :=
  let w := fun k => imgWord e s (2 + 4 * i + k)
  bits (w 0) 31 24 == 0 && bits (w 0) 15 13 == 0 && decide (0x100 ≤ bits (w 0) 12 0)
  && bits (w 1) 31 12 == 0 && decide (bits (w 1) 11 0 ≤ 2048) && (w 3) == 0

/-- Header and templates in range (R238); templates are judged only where the length holds them. -/
def imgRange (e : Entry) (s : State) : Bool :=
  bits (imgWord e s 0) 31 16 == 0x5650 && bits (imgWord e s 0) 15 8 == 1 && bits (imgWord e s 1) 31 16 == 0
  && decide (1 ≤ imgProg e s) && decide (imgProg e s ≤ 7936)
  && (decide ((e.pw 1).toNat < 2 + 4 * imgCount e s) || (List.range (imgCount e s)).all (tmplWordsOk e s))

/-- Number of template `i` of the image. -/
def imgTemplNo (e : Entry) (s : State) (i : Nat) : Nat := bits (imgWord e s (2 + 4 * i)) 23 16

/-- Length, count and header agree, and no template repeats (R235, R238). -/
def imgAgrees (e : Entry) (s : State) : Bool :=
  let t := imgCount e s
  (e.pw 1).toNat == 2 + 247 * t + imgProg e s + 8
  && ((List.range t).map (imgTemplNo e s)).eraseDups.length == t

/-- The image read from its region (R235). -/
def readImage (ws : List Word) : Image :=
  let w := fun i => ws.getD i 0
  let t := bits (w 0) 7 0 + 1
  let cost := fun i k => let x := w (2 + 4 * t + 243 * i + k / 2); if k % 2 = 0 then bits x 15 0 else bits x 31 16
  { templates := (List.range t).map fun i =>
      { template := bits (w (2 + 4 * i)) 23 16, entry := BitVec.ofNat 13 (bits (w (2 + 4 * i)) 12 0), tableWords := bits (w (3 + 4 * i)) 11 0,
        object := w (4 + 4 * i), costs := (List.range 486).map (cost i) },
    words := (List.range (bits (w 1) 15 0)).map fun k => (w (2 + 247 * t + k)).setWidth 24 }

/-- The words of the image region. -/
def imgWords (e : Entry) (s : State) : List Word := Mem.words s.mem.win ((e.pw 0).toNat / 4) (e.pw 1).toNat

/-- The banks of a BANK.GIVE. -/
def giveMask (e : Entry) : List Nat := (List.range 64).filter fun n => if n < 32 then bit (e.pw 0) n else bit (e.pw 1) (n - 32)

/-- The owner it names. -/
def giveOwner (e : Entry) : Nat := bits (e.pw 2) 3 0

/-- Bays that give or receive a bank. -/
def giveBays (e : Entry) (s : State) : List Nat :=
  (giveOwner e :: (giveMask e).map fun n => (s.bank n).owner.toNat).filter fun o => decide (o < 8)

/-- Bays that a running stepped command holds, by its opcode (R76): VPROG.LOAD and BAY.MODE hold their Bay and, for a pair, its
partner, or the home it is to mirror; BANK.GIVE the Bays that give or receive a bank. -/
def holdsBay (s : State) (b : Nat) : Bool :=
  s.mbx.running.any fun x =>
    ((x.opcode == 0x530 || x.opcode == 0x601) &&
      (x.e.target.toNat == b || (x.opcode == 0x601 && bits (x.e.pw 0) 2 0 == 3 && bits (x.e.pw 0) 10 8 == b) || ((s.bay x.e.target.toNat).role != 0 && (s.bay x.e.target.toNat).partner.toNat == b)))
    || (x.opcode == 0x500 && (giveBays x.e s).contains b)

/-- VPROG.LOAD (R238). -/
def cardVprogLoad : Card where
  opcode := 0x530
  device := false
  modes := [.load]
  len := fun e => e.payload.length == 2
  pre := fun _ s => need (!s.imageLocked 0x530) eLocked
  range := fun e s =>
    (e.pw 0).toNat % 4 == 0 && decide (10 ≤ (e.pw 1).toNat) && dataRegion (e.pw 0).toNat (4 * (e.pw 1).toNat) && imgRange e s
  agree := imgAgrees
  post := fun e s => firstFail [need (s.power.state != 1) eState, need (!holdsBay s e.target.toNat) eBusy, steppedRoom s]
  run := fun e s => let n := 2 + (s.bay e.target.toNat).count.toNat; startStepped 0x530 e n n [] s

/-- Write program words into a core from address 0x0100 (R237). -/
def putProgram (ws : List (BitVec 24)) (c : VCore) : VCore :=
  { c with prog := (ws.zipIdx).foldl (fun m p => Mem.write m (0x100 + p.2) p.1) c.prog }

/-- Copy program words to the cores of one Course. -/
def copyProgram (ws : List (BitVec 24)) (course : Nat) (s : State) : State :=
  (List.range 8).foldl (fun s i => s.setCore (8 * course + i) (putProgram ws (s.core (8 * course + i)))) s

/-- Step `k` of VPROG.LOAD (R238): the tag, one Course, or the binding. -/
def vprogStep (st : Stepped) (k : Nat) (s : State) : Except Status (State × List Word) :=
  let b := st.e.target.toNat
  let ws := imgWords st.e s
  if k = 1 then
    if imageTagOk s.vault.ik ws then
      .ok ({ s with mem := { s.mem with prevImages := s.mem.prevImages.put b ((s.bay b).image.getD {}) } }, [])
    else .error eAuth
  else if k < st.n then .ok (copyProgram (readImage ws).words ((s.bay b).first.toNat + (k - 2)) s, [])
  else
    let im := readImage ws
    let bound := im.templates.map fun t => t.template
    let s1 := s.setBay b { s.bay b with image := some im }
    let s2 := (s.bayCores b).foldl (fun s c => s.setCore c { s.core c with resid := (s.core c).resid.filter fun r => !bound.contains r.template }) s1
    .ok ({ s2 with mem := { s2.mem with prevImages := s2.mem.prevImages.del b } },
         [BitVec.ofNat 32 im.templates.length, BitVec.ofNat 32 im.words.length])

/-- Undo copy step `k` of VPROG.LOAD: the previous image is copied back (R238). -/
def vprogUndo (st : Stepped) (k : Nat) (s : State) : State :=
  if k = 1 then s
  else copyProgram (s.mem.prevImages.look st.e.target.toNat {}).words ((s.bay st.e.target.toNat).first.toNat + (k - 2)) s

end Sys2Proof.Machine
end

