-- ==== Sys2Proof/Machine/Flags.lean ====
section
/-! DEFINITION. The flags of a voice core (chapter 07): CSR bits, the flags of an accumulator result, carry and wrap. -/

namespace Sys2Proof.Machine

/-- CSR bits by name (R211). -/
def csrCY : Nat := 0
def csrZR : Nat := 1
def csrNEG : Nat := 2
def csrXU : Nat := 3
def csrWRAP : Nat := 8
def csrSATD : Nat := 9
def csrFERR : Nat := 10
def csrXERR : Nat := 11

/-- RW fields of CSR: PSH, OSH, SATO, TRN, XU, NEG, ZR, CY (R211). -/
def csrRW : Word24 := 0x0FC00F
/-- W1C fields of CSR: XERR, FERR, SATD, WRAP (R211). -/
def csrW1C : Word24 := 0x000F00
/-- PSH, OSH, SATO and TRN, whose writes the next instruction does not see yet (R226). -/
def csrLate : Word24 := 0x0FC000

/-- A MOVE of `v` to CSR: RW fields take it, a 1 clears a W1C field, RO fields stay (R211). -/
def csrWrite (old v : Word24) : Word24 := (old &&& ~~~(csrRW ||| csrW1C)) ||| (v &&& csrRW) ||| (old &&& ~~~v &&& csrW1C)

/-- Set a sticky bit of the set. -/
def RegSet.sticky (r : RegSet) (n : Nat) (b : Bool) : RegSet := if b then { r with csr := setBit r.csr n true } else r

/-- Set or clear CY. -/
def RegSet.setCY (r : RegSet) (b : Bool) : RegSet := { r with csr := setBit r.csr csrCY b }

/-- CY as a number. -/
def RegSet.cy (r : RegSet) : Nat := b2n (r.csr.getLsbD csrCY)

/-- The extension bits [55:48] are not copies of bit 47 (R211). -/
def usesExt (a : Acc) : Bool := (a.setWidth 48).signExtend 56 != a

/-- NEG, ZR and XU from a destination accumulator (R216). -/
def RegSet.setNZX (r : RegSet) (a : Acc) : RegSet :=
  { r with csr := setBit (setBit (setBit r.csr csrNEG a.msb) csrZR (a == 0)) csrXU (usesExt a) }

/-- A signed result narrowed to an accumulator (R210): the value, and whether it wrapped. -/
def narrow (x : Int) : Acc × Bool := (BitVec.ofInt 56 x, (BitVec.ofInt 56 x).toInt != x)

/-- Carry out of bit 55 of an addition (R222). -/
def carryOut (a b : Acc) (c : Nat) : Bool := decide (2 ^ 56 ≤ a.toNat + b.toNat + c)

/-- Borrow of a subtraction (R222). -/
def borrowOut (a b : Acc) (c : Nat) : Bool := decide (a.toNat < b.toNat + c)

/-- Branch conditions 0 to 14; 15 is never taken (R217). `fetching`: a fetch of the core is outstanding. -/
def branchTaken (csr : Word24) (fetching : Bool) (cond : BitVec 4) : Bool :=
  let z := csr.getLsbD csrZR
  let n := csr.getLsbD csrNEG
  let c := csr.getLsbD csrCY
  let x := csr.getLsbD csrXU
  match cond.toNat with
  | 0 => z
  | 1 => !z
  | 2 => n
  | 3 => !n
  | 4 => c
  | 5 => !c
  | 6 => x
  | 7 => !x
  | 8 => !n && !z
  | 9 => n || z
  | 10 => csr.getLsbD csrWRAP
  | 11 => csr.getLsbD csrSATD
  | 12 => !fetching
  | 13 => fetching
  | 14 => true
  | _ => false

end Sys2Proof.Machine
end

