-- ==== Sys2Proof/Machine/Preempt.lean ====
section
/-! DEFINITION. Which task a voice core runs (R212, R242, R248 to R250) and the two register sets of a core (R230, R231): dispatch on a free
core, preemption, and the requests that wait. -/

namespace Sys2Proof.Machine

-- the two register sets ------------------------------------------------------------------------------------------------------

/-- The register set in use (R209, R230). -/
def VCore.cur (c : VCore) : RegSet := if c.inShadow then c.shad else c.prim

/-- Replace the register set in use. -/
def VCore.setCur (c : VCore) (r : RegSet) : VCore := if c.inShadow then { c with shad := r } else { c with prim := r }

/-- Change the register set in use. -/
def VCore.onCur (c : VCore) (f : RegSet → RegSet) : VCore := c.setCur (f c.cur)

-- dispatch (R242, R248) ------------------------------------------------------------------------------------------------------

/-- Order among ready tasks: LEVEL 1 first, lower RANK, lower CTX (R248). -/
def taskRank (t : Task) (ctx : Nat) : Nat := (if t.kind = 1 then 0 else 2 ^ 20) + t.rank.toNat * 64 + ctx

/-- The first of a core's ready tasks that `p` admits (R248). -/
def firstWith (p : Task → Bool) (c : VCore) : Option Nat :=
  leastRank ((c.tasks.filter fun x => x.2.ready && p x.2).map fun x => (taskRank x.2 x.1, x.1))

/-- The first ready task of a core; `level1`: of LEVEL 1 alone (R248). -/
def firstReady (level1 : Bool) (c : VCore) : Option Nat := firstWith (fun t => !level1 || t.kind == 1) c

/-- Registers at task entry (R212): for context `ctx`, entry address, S, and the buffer of the frame processed (R206). -/
def entryRegs (ctx : Nat) (entry : BitVec 13) (spf : Nat) (odd : Bool) : RegSet :=
  let b := 192 * ctx
  { u := [(0, BitVec.ofNat 24 spf)], n := (List.range 8).map fun i => (i, 1),
    p := [(0, BitVec.ofNat 16 b), (4, BitVec.ofNat 16 b), (5, BitVec.ofNat 16 (b + (if odd then 64 else 0)))], pc := entry }

/-- Registers of the kernel's Kerf code (R212, R232): it has no context, and its address in the kernel's program words is a free value of the
firmware (R206, log entry 12). -/
def kerfRegs (spf : Nat) : RegSet := entryRegs 0 (Config.kerfEntry.setWidth 13) spf false

/-- Registers for a task of core `k` now. -/
def State.taskRegs (s : State) (ctx : Nat) (t : Task) : RegSet :=
  entryRegs ctx t.entry s.spf ((s.frameOf t.bay).getLsbD 0)

/-- A free core takes the first ready task into the primary set (R248). -/
def startTask (k : Nat) (level1 : Bool) (s : State) : Option (Nat × Task × State) :=
  let c := s.core k
  if c.current.isSome || c.inShadow then none
  else match firstReady level1 c with
    | none => none
    | some ctx => match c.tasks.find ctx with
      | none => none
      | some t => some (ctx, t, s.setCore k { c with current := some ctx, prim := s.taskRegs ctx t, staging := [] })

-- the lane tests of SERVICE (R242, R450) --------------------------------------------------------------------------------------

/-- A lane test's task: it takes F and O (R242, R450). Its descriptor, and that each core of the Course holds one in context slot 0, are the
model's choice (DESIGN CHOICE, log entry 21). -/
def testTask (b : Nat) : Task := { kind := 2, bay := b, mask := 0x03, entry := Config.testEntry }

/-- Lane tests of Course `c` begin, each in a context slot that is rewritten first where an error struck it (R233), or end. -/
def laneTests (c : Nat) (on : Bool) (s : State) : State :=
  ((List.range 8).map fun i => 8 * c + i).foldl (fun s0 k =>
    let s := if on then rewriteSlot k 0 s0 else s0
    s.setCore k { s.core k with
      tasks := let rest := (s.core k).tasks.filter fun p => p.2.kind != 2
               if on then Tab.put rest 0 (testTask (s.courseBay c)) else rest }) s

/-- The array has rendered a test block: O is raised in the Course's test tasks (R242, R450). -/
def raiseTestBlocks (c : Nat) (s : State) : State :=
  ((List.range 8).map fun i => 8 * c + i).foldl (fun s k => s.setCore k { s.core k with
    tasks := (s.core k).tasks.mapVals fun _ t => if t.kind = 2 then { t with next := setBit t.next 1 true } else t }) s

-- preemption (R230, R249, R250) ------------------------------------------------------------------------------------------------

/-- A core is at an interruptible point (R231): no RPT stands and no branch has a slot to run. -/
def VCore.interruptible (c : VCore) : Bool := c.cur.rpt.isNone && c.cur.delay.isNone

/-- The task of the primary set. -/
def VCore.primTask (c : VCore) : Option Task := c.current.bind fun ctx => c.tasks.find ctx

/-- A LEVEL 0 task runs in the primary set. -/
def VCore.runsLevel0 (c : VCore) : Bool := c.primTask.any fun t => t.kind != 1

/-- LEVEL 1 tasks that wait for the running task's END instead of a preemption: no later request takes one (R249, R250). -/
def passOver (p : Nat → Task → Bool) (c : VCore) : VCore :=
  { c with tasks := c.tasks.mapVals fun ctx t => if p ctx t then { t with passed := true } else t }

/-- A task that a preemption may serve (R249). -/
def Task.claims (t : Task) : Bool := t.ready && t.kind == 1 && !t.passed

/-- At the limit of 7 each ready LEVEL 1 task waits, and is counted once (R249). -/
def holdAtLimit (k : Nat) (s : State) : State :=
  let c := s.core k
  let n := (c.tasks.filter fun p => p.2.claims).length
  { s.setCore k { passOver (fun _ t => t.claims) c with preemptReq := false } with
    dsp := { s.dsp with preemptHeld := satAdd s.dsp.preemptHeld n } }

/-- The set switch of core `k` for task `t` in context `ctx` (R230); a task that became ready in the same clk waits for the primary set
(R250). The latency traced runs from the clk that made the task ready to its first instruction: what has passed, then 3 clk for the instructions issued,
1 for the switch, 2 for the entry (R231, R262; DESIGN CHOICE, log entry 114). -/
def switchSets (k ctx : Nat) (t : Task) (s : State) : State :=
  let c := passOver (fun x u => x != ctx && u.claims && u.raisedClk == t.raisedClk) (s.core k)
  let slot := match c.primTask with | some r => r.slot.toNat | none => 0
  traceBay 0x09 k t.bay slot (pack [(ctx, 8), (c.current.getD 0, 0)]) (BitVec.ofNat 32 (s.time.clkCount - t.raisedClk + 6))
    (s.setCore k { c with inShadow := true, shCurrent := some ctx, shad := s.taskRegs ctx t, shStaging := [],
                                preempts := c.preempts + 1, preemptReq := false })

/-- A preemption request of core `k` (R230, R249, R250): a ready LEVEL 1 task takes the shadow set; a request in the shadow set, or at a point
that is not interruptible, is held; at the limit of 7 the task waits and is counted; over a free core it becomes an ordinary dispatch. -/
def preempt (k : Nat) (s : State) : State :=
  let c := s.core k
  match firstWith (fun t => t.kind == 1 && !t.passed) c with
  | none => s
  | some ctx => match c.tasks.find ctx with
    | none => s
    | some t =>
      if c.inShadow then s.setCore k { c with preemptReq := true }
      else if c.current.isNone then (match startTask k true s with | some (_, _, s1) => s1 | none => s)
      else if !c.runsLevel0 then s
      else if 7 ≤ c.preempts then holdAtLimit k s
      else if !c.interruptible then s.setCore k { c with preemptReq := true }
      else switchSets k ctx t s

/-- The request that core `k` holds is taken up (R230, R231). -/
def takeRequest (k : Nat) (s : State) : State := preempt k (s.setCore k { s.core k with preemptReq := false })

/-- PREEMPTION (R249). -/
def execPreemption (k : Nat) (s : State) : Outcome := withUnit k 64 (.next (preempt k s))

end Sys2Proof.Machine
end

