-- ==== Sys2Proof/Machine/Operands.lean ====
section
/-! DEFINITION. The operands of a voice core's instructions (chapter 07): registers and their codes, accumulator views and
the output conversion, the three address modes with their rings, local memory as a task sees it, the two ports, and
what surrounds an instruction: hazards, repetition, delay slots and loop-backs. -/

namespace Sys2Proof.Machine

-- register sets ---------------------------------------------------------------------------------------------------------

def RegSet.ur (r : RegSet) (i : Nat) : Word24 := r.u.look i 0
def RegSet.vr (r : RegSet) (i : Nat) : Word24 := r.v.look i 0
def RegSet.wr (r : RegSet) (i : Nat) : Acc := r.w.look i 0
def RegSet.setU (r : RegSet) (i : Nat) (x : Word24) : RegSet := { r with u := r.u.put i x }
def RegSet.setV (r : RegSet) (i : Nat) (x : Word24) : RegSet := { r with v := r.v.put i x }
def RegSet.setW (r : RegSet) (i : Nat) (x : Acc) : RegSet := { r with w := r.w.put i x }
def RegSet.setP (r : RegSet) (i : Nat) (x : BitVec 16) : RegSet := { r with p := r.p.put i x }

/-- The pointer registers as they stand. -/
def RegSet.ptrs (r : RegSet) : PtrView := { p := r.p, n := r.n, st := r.st, en := r.en }

/-- XERR sets (R213). -/
def RegSet.xerr (r : RegSet) : RegSet := r.sticky csrXERR true

-- accumulator views and the output conversion ---------------------------------------------------------------------------

/-- A 24-bit value placed as a write of the F view (R210). -/
def placeF (x : Word24) : Acc := (x ++ (0 : BitVec 24)).signExtend 56

/-- A write of the E view changes bits [55:48] only (R210). -/
def placeE (a : Acc) (x : Byte) : Acc := x ++ a.setWidth 48

/-- A write of the Q view changes bits [23:0] only (R210). -/
def placeQ (a : Acc) (x : Word24) : Acc := (a >>> 24).setWidth 32 ++ x

/-- PSH of a CSR value: 3 is taken as 2 (R211). -/
def pshOf (csr : Word24) : Nat := Nat.min ((csr >>> 18) &&& 3).toNat 2

/-- The output conversion (R220): the 24 bits delivered, and whether it saturated. -/
def convertOut (csr : Word24) (a : Acc) : Word24 × Bool :=
  let osh := ((csr >>> 16) &&& 3).toNat
  let x := a.toInt
  let y : Int := if osh = 1 then x / 2 else if osh = 2 then x * 2 else if osh = 3 then x * 4 else x
  let z : Int := if csr.getLsbD 14 then y else y + 2 ^ 23
  if csr.getLsbD 15 ∧ (z < -(2 ^ 47) ∨ 2 ^ 47 ≤ z) then (if z < 0 then 0x800000 else 0x7FFFFF, true)
  else ((BitVec.ofInt 48 z >>> 24).setWidth 24, false)

-- addresses ----------------------------------------------------------------------------------------------------------------

/-- wrap(n, a) of a pointer's ring: signed address `a` (R218). -/
def ringWrap (st en : BitVec 16) (a : Int) : BitVec 16 :=
  let len : Int := (en.toNat : Int) - st.toNat
  if len ≤ 0 then BitVec.ofInt 16 a else BitVec.ofInt 16 (st.toNat + (a - st.toNat) % len)

/-- What an instruction sees of the hazards of R226, and S. -/
structure View where
  ag : PtrView
  csr : Word24
  st : List (Bool × Nat × Word24)
  spf : Nat

/-- Pn as address generation sees it. -/
def View.p (v : View) (n : Nat) : BitVec 16 := v.ag.p.look n 0

/-- wrap of pointer `n` as address generation sees its ring. -/
def View.wrap (v : View) (n : Nat) (a : Int) : BitVec 16 := ringWrap (v.ag.st.look n 0) (v.ag.en.look n 0) a

-- local memory as a task sees it ----------------------------------------------------------------------------------------------

/-- A load: unassigned addresses and the Bridge window return 0 and set XERR (R219); a word stored by the instruction
before still reads its old value (R226). -/
def localLoad (v : View) (y : Bool) (a : Nat) (c : VCore) : Word24 × VCore :=
  if a < 0x4000 then
    match v.st.find? fun t => t.1 == y && t.2.1 == a with
    | some t => (t.2.2, c)
    | none => (Mem.read (if y then c.y else c.x) a, c)
  else (0, c.onCur RegSet.xerr)

/-- The Bridge stores held for the task that runs. -/
def VCore.held (c : VCore) : List (Nat × Nat × Word24) := if c.inShadow then c.shStaging else c.staging

/-- The task that runs in the register set in use (R230, R248). -/
def VCore.running (c : VCore) : Option Task :=
  match (if c.inShadow then c.shCurrent else c.current) with
  | none => none
  | some ctx => c.tasks.find ctx

/-- A task declares bus `b` among its output pairs (R239, R240). -/
def Task.declares (t : Task) (b : Nat) : Bool :=
  (List.range 8).any fun i => t.outs.getLsbD (8 * i + 7) && (t.outs.toNat / 2 ^ (8 * i)) % 128 == b / 2

/-- A store to Y address 0xC000 + 32 b + n (R229): held for the task; n at or above S, every store after the
1,024th, and a store to a pair the task has not declared (R240), is discarded and sets XERR. -/
def bridgeStore (v : View) (a : Nat) (x : Word24) (c : VCore) : VCore :=
  let b := (a - 0xC000) / 32
  let n := (a - 0xC000) % 32
  if n < v.spf ∧ c.held.length < 1024 ∧ c.running.any (fun t => t.declares b) then
    if c.inShadow then { c with shStaging := c.shStaging ++ [(b, n, x)] } else { c with staging := c.staging ++ [(b, n, x)] }
  else c.onCur RegSet.xerr

/-- A store: to local memory, to the Bridge window of Y, or ignored with XERR (R219, R229). -/
def localStore (v : View) (y : Bool) (a : Nat) (x : Word24) (c : VCore) : VCore :=
  if a < 0x4000 then
    let c1 := if y then { c with y := Mem.write c.y a x } else { c with x := Mem.write c.x a x }
    c1.onCur fun r => { r with stOld := (y, a, Mem.read (if y then c.y else c.x) a) :: r.stOld }
  else if y ∧ 0xC000 ≤ a ∧ a < 0xE000 then bridgeStore v a x c
  else c.onCur RegSet.xerr

-- register codes ------------------------------------------------------------------------------------------------------------

/-- A code that the table Registers assigns (R209). -/
def codeOk (k : RegCode) : Bool :=
  decide (k.toNat ≤ 0x0B) || (decide (0x10 ≤ k.toNat) && decide (k.toNat ≤ 0x1B)) || (decide (0x20 ≤ k.toNat) && decide (k.toNat ≤ 0x46))

/-- Read a register as a 24-bit source (R209, R210): its value, and the set with SATD. `csr` is CSR as the instruction sees it: a transfer
right after a write of PSH, OSH, SATO or TRN reads the old fields (R226). -/
def readCode (shd : Bool) (csr : Word24) (k : RegCode) (r : RegSet) : Word24 × RegSet :=
  let n := k.toNat
  let i := n % 8
  if n < 0x04 then (r.ur n, r)
  else if n < 0x0C then (r.vr (n - 4), r)
  else if n < 0x14 then
    let o := convertOut csr (r.wr (n % 4))
    (o.1, r.sticky csrSATD o.2)
  else if n < 0x18 then ((r.wr (n % 4)).setWidth 24, r)
  else if n < 0x1C then (((r.wr (n % 4) >>> 48).setWidth 8).signExtend 24, r)
  else if n < 0x28 then ((r.p.look i 0).setWidth 24, r)
  else if n < 0x30 then ((r.n.look i 0).signExtend 24, r)
  else if n < 0x38 then ((r.st.look i 0).setWidth 24, r)
  else if n < 0x40 then ((r.en.look i 0).setWidth 24, r)
  else if n < 0x44 then ((r.ix.look (n % 4) 0).setWidth 24, r)
  else if n = 0x44 then (r.ecnt.setWidth 24, r)
  else if n = 0x45 then (setBit ((r.csr &&& ~~~csrLate) ||| (csr &&& csrLate)) 23 shd, r)
  else (match r.loops with | [] => 0 | f :: _ => f.count.setWidth 24, r)

/-- Write a register from a 24-bit value (R209 to R211); LCNT ignores it. -/
def writeCode (k : RegCode) (x : Word24) (r : RegSet) : RegSet :=
  let n := k.toNat
  let i := n % 8
  let h : BitVec 16 := x.setWidth 16
  if n < 0x04 then r.setU n x
  else if n < 0x0C then r.setV (n - 4) x
  else if n < 0x14 then r.setW (n % 4) (placeF x)
  else if n < 0x18 then r.setW (n % 4) (placeQ (r.wr (n % 4)) x)
  else if n < 0x1C then r.setW (n % 4) (placeE (r.wr (n % 4)) (x.setWidth 8))
  else if n < 0x28 then r.setP i h
  else if n < 0x30 then { r with n := r.n.put i h }
  else if n < 0x38 then { r with st := r.st.put i h }
  else if n < 0x40 then { r with en := r.en.put i h }
  else if n < 0x44 then { r with ix := r.ix.put (n % 4) h }
  else if n = 0x44 then { r with ecnt := h }
  else if n = 0x45 then { r with csr := csrWrite r.csr x }
  else r

-- ports -----------------------------------------------------------------------------------------------------------------------

/-- Register values 4 to 7 that a port field does not allow (R214): X port loads and stores, and accumulators. -/
def portsOk (pt : Ports) : Bool :=
  (match pt.x.op with | .none => true | _ => decide (pt.x.reg.toNat < 4)) &&
  (match pt.y.op with | .storeAcc => decide (pt.y.reg.toNat < 4) | _ => true)

/-- The pointer of a port: P0 to P3 for X, P4 to P7 for Y (R214). -/
def portPtr (y : Bool) (p : Port) : Nat := if y then 4 + p.ptr.toNat else p.ptr.toNat

/-- The value a port store reads at the start of the instruction (R214), and the set with SATD. -/
def portSource (v : View) (y : Bool) (p : Port) (r : RegSet) : Word24 × RegSet :=
  match p.op with
  | .storeAcc =>
    let o := convertOut v.csr (r.wr p.reg.toNat)
    (o.1, r.sticky csrSATD o.2)
  | _ => (if y then r.vr p.reg.toNat else r.ur p.reg.toNat, r)

/-- The step of a port's pointer: Pn ← wrap(n, Pn + Nn), as address generation sees them (R218). Where an instruction writes Pn itself
right before, the step is from the old Pn and the written value is lost (R226; DESIGN CHOICE, log entry 136). -/
def stepPtr (v : View) (n : Nat) (r : RegSet) : RegSet :=
  r.setP n (v.wrap n ((v.p n).toNat + (v.ag.n.look n 0).toInt))

/-- Start of the instruction: the port's stores (R214). -/
def portStart (v : View) (y : Bool) (p : Port) (c : VCore) : VCore :=
  match p.op with
  | .store | .storeAcc =>
    let src := portSource v y p c.cur
    let n := portPtr y p
    (localStore v y (v.p n).toNat src.1 (c.setCur src.2)).onCur (stepPtr v n)
  | _ => c

/-- The word a port load brings, and the core with XERR and the stepped pointer (R214). -/
def portLoad (v : View) (y : Bool) (p : Port) (c : VCore) : Option Word24 × VCore :=
  match p.op with
  | .load =>
    let n := portPtr y p
    let l := localLoad v y (v.p n).toNat c
    (some l.1, l.2.onCur (stepPtr v n))
  | _ => (none, c)

/-- End of the instruction: a load writes its register (R214). -/
def portEnd (y : Bool) (p : Port) (w : Option Word24) (c : VCore) : VCore :=
  match w with
  | none => c
  | some x => c.onCur fun r => if y then r.setV p.reg.toNat x else r.setU p.reg.toNat x

/-- An operation with its two ports: stores, then the operation on the old register values, then the loads (R214). -/
def withPorts (pt : Ports) (op : View → RegSet → RegSet) (v : View) (c : VCore) : VCore :=
  if portsOk pt then
    let c1 := portStart v true pt.y (portStart v false pt.x c)
    let lx := portLoad v false pt.x c1
    let ly := portLoad v true pt.y lx.2
    portEnd true pt.y ly.1 (portEnd false pt.x lx.1 (ly.2.onCur (op v)))
  else c.onCur RegSet.xerr

-- what surrounds an instruction ---------------------------------------------------------------------------------------------------

/-- Loop-backs when the PC passes word `last` (R224): the new PC and the loop stack. A loop that a branch has left stays on the stack, and does
not hide the ones around it; a loop whose iterations are done is popped. -/
def loopBack (last next : BitVec 13) (fs : List LoopFrame) : BitVec 13 × List LoopFrame :=
  match fs with
  | [] => (next, [])
  | f :: r =>
    if f.last = last then
      if 1 < f.count.toNat then (f.start, { f with count := f.count - 1 } :: r) else loopBack last next r
    else
      let b := loopBack last next r
      (b.1, f :: b.2)

/-- The PC moves past `len` words: delay slots, the target of a taken branch, loop-backs (R217, R224, R226). -/
def advance (len : Nat) (r : RegSet) : RegSet :=
  let next := r.pc + BitVec.ofNat 13 len
  let lb := loopBack (next - 1) next r.loops
  match r.delay with
  | some d =>
    if 1 < d.left then { r with pc := lb.1, loops := lb.2, delay := some { d with left := d.left - 1 } }
    else if d.taken then { r with pc := d.target, delay := none, rets := if d.call then (next :: r.rets).take 8 else r.rets }
    else { r with pc := lb.1, loops := lb.2, delay := none }
  | none => { r with pc := lb.1, loops := lb.2 }

/-- One execution of an operation with the hazards of R226; `ptrWr`: it can write Pn, Nn, STn or ENn other than by a step. -/
def once (spf : Nat) (ptrWr : Bool) (body : View → VCore → VCore) (c : VCore) : VCore :=
  let r0 := c.cur
  let v : View := { ag := r0.agOld.getD r0.ptrs, csr := r0.csrOld.getD r0.csr, st := r0.stOld, spf := spf }
  let c1 := body v (c.setCur { r0 with agOld := none, csrOld := none, stOld := [] })
  c1.onCur fun r1 =>
    { r1 with
      agOld := if ptrWr ∧ r1.ptrs ≠ r0.ptrs then some r0.ptrs else none,
      csrOld := if (r1.csr ^^^ r0.csr) &&& csrLate = 0 then none else some r0.csr }

/-- Execute `n` times (R223). -/
def timesDo (n : Nat) (f : VCore → VCore) (c : VCore) : VCore :=
  match n with
  | 0 => c
  | k + 1 => timesDo k f (f c)

/-- A fetch of the core is outstanding (R228): one that waits for a place is not. -/
def VCore.fetching (c : VCore) : Bool := c.fetches.any fun f => !f.waiting

/-- The core issues no instruction: an FWAIT or a fetch of the set in use waits (R216, R228, R231). -/
def VCore.waits (c : VCore) : Bool := c.cur.waitFetch || c.fetches.any fun f => f.waiting && f.shadow == c.inShadow

/-- Issue a non-flow instruction of `len` words: repeated as RPT says when it is one word and may repeat, else once with
XERR (R223). -/
def issue (spf len : Nat) (repeatable ptrWr : Bool) (body : View → VCore → VCore) (c : VCore) : VCore :=
  if c.waits then c else
  let c0 := c.onCur fun r => { r with rpt := none }
  let c1 := match c.cur.rpt with
    | none => once spf ptrWr body c0
    | some n => if repeatable then timesDo n (once spf ptrWr body) c0 else once spf ptrWr body (c0.onCur RegSet.xerr)
  c1.onCur (advance len)

/-- One of the last two words of a running loop's body (R224). -/
def RegSet.bodyEnd (r : RegSet) : Bool := r.loops.any fun f => r.pc == f.last || r.pc + 1 == f.last

/-- Issue a flow-class instruction: in a delay slot, or where R224 forbids it, a NOP that sets XERR; after RPT it executes
once and XERR sets (R223, R224, R227). `act` moves the PC itself. -/
def issueFlow (endForbidden : Bool) (act : VCore → VCore) (c : VCore) : VCore :=
  if c.waits then c else
  let r := c.cur
  let clean := fun (r : RegSet) => { r with rpt := none, agOld := none, csrOld := none, stOld := [] }
  if r.delay.isSome || (endForbidden && r.bodyEnd) then c.onCur fun r => advance 1 (clean r).xerr
  else act (c.onCur fun r => if r.rpt.isSome then (clean r).xerr else clean r)

/-- A reserved encoding or a value not allowed: a NOP of 1 clk that sets XERR (R213). -/
def reservedNop (_ : View) (c : VCore) : VCore := c.onCur RegSet.xerr

/-- The boundary after an instruction: a preemption request that the core held is taken up (R230, R231). -/
def afterIssue (k : Nat) (held : Bool) (s : State) : State := if held then takeRequest k s else s

/-- A meaning that acts on voice core `k` alone, but for a preemption request that waited. -/
def onCore (k : Nat) (f : Nat → VCore → VCore) (s : State) : Outcome :=
  withUnit k 64 (.next (afterIssue k (s.core k).preemptReq (s.setCore k (f (samplesPerFrame s.time.rate) (s.core k)))))

end Sys2Proof.Machine
end

