-- ==== Sys2Proof/Machine/MemoryCmds.lean ====
section
/-! DEFINITION. Memory commands and accesses (chapter 11): BANK.GIVE and its kin, CONTENT.PIN, the Sound Store's arbitration,
the Host Window's collisions, the parallel port and the quad-SPI port. -/

namespace Sys2Proof.Machine

-- BANK.GIVE (R330, R347) --------------------------------------------------------------------------------------------------------------

/-- Banks Bay `b` would own after the switch. -/
def banksAfter (e : Entry) (b : Nat) (s : State) : List Nat :=
  (List.range 64).filter fun n => if (giveMask e).contains n then giveOwner e == b else (s.bank n).owner.toNat == b

/-- A running BANK.GIVE holds a bank of the mask. -/
def giveHeld (e : Entry) (s : State) : Bool := s.mbx.running.any fun x => x.opcode == 0x500 && (giveMask x.e).any (giveMask e).contains

/-- A life-cycle or alarm state that forbids key use (R432, R436). -/
def State.keyLocked (s : State) : Bool := s.vault.keylock || s.vault.life == 3

/-- BANK.GIVE (R347). -/
def cardBankGive : Card where
  opcode := 0x500
  len := fun e => e.payload.length == 3
  range := fun e s =>
    !(giveMask e).isEmpty && bits (e.pw 2) 31 17 == 0 && bits (e.pw 2) 15 10 == 0 && bits (e.pw 2) 7 4 == 0
    && (decide (8 ≤ giveOwner e) || s.formed (giveOwner e))
  pre := fun e s => need (!(giveOwner e == 0xE && s.keyLocked)) eLocked
  post := fun e s =>
    firstFail
      [ need (!(decide (giveOwner e < 8) && (s.bay (giveOwner e)).mode == .mirror)) eState,
        need (!giveHeld e s && !(giveBays e s).any (holdsBay s)) eBusy,
        need ((List.range 8).all fun b => !(s.bay b).coefArea || !(giveBays e s).contains b || decide (10 ≤ (banksAfter e b s).length)) eNoslot,
        steppedRoom s ]
  run := fun e s => startStepped 0x500 e 2 2 [] s

/-- Step 1: one Bay's content in the banks that leave is moved, after demotions (R330); answers how many. -/
def evacuateBay (e : Entry) (b : Nat) (s : State) : Option (State × Nat) :=
  let keep := (s.bayBanks b).filter fun n => !(giveMask e).contains n
  settle b keep s

/-- Step 1 over the Bays that give banks (R330). -/
def evacuate (e : Entry) : List Nat → State × Nat → Option (State × Nat)
  | [], r => some r
  | b :: bs, (s, n) => match evacuateBay e b s with
    | none => none
    | some (t, k) => evacuate e bs (t, n + k)

/-- The Bays that lose a bank. -/
def losers (e : Entry) (s : State) : List Nat :=
  (List.range 8).filter fun b => (giveMask e).any fun n => (s.bank n).owner.toNat == b && giveOwner e != b

/-- Step 1 of BANK.GIVE (R330). -/
def bankGiveStep (st : Stepped) (s : State) : Except Status (State × List Word) :=
  match evacuate st.e (losers st.e s) (s, 0) with
  | none => .error eNoslot
  | some (t, n) => .ok (t, [BitVec.ofNat 32 n])

/-- Owner and RETAIN let bank `b` retain (R332). -/
def retainOk (b : Nat) (s : State) : Bool :=
  let r := s.bank b
  let o := r.owner.toNat
  o == 0xF || (r.retain && (decide (8 ≤ o) || (s.bay o).mode == .load))

/-- One bank takes its new owner and flags; it is zeroised with WIPE, or when it leaves the Vault, or while it is protected, which shows until that
has ended (R330, R331). A window that a test has borrowed is given back first (R334), and a retained bank that may not retain any more wakes (R332). -/
def switchBank (e : Entry) (s : State) (n : Nat) : State :=
  let s0 := if (s.bank n).state = 2 then restoreGroup n s else s
  let r := s0.bank n
  let w := e.pw 2
  let s1 := s0.setBank n { r with owner := BitVec.ofNat 4 (giveOwner e), noBorrow := bit w 8, retain := bit w 9, suspended := false, again := false }
  let s2 := if retainOk n s1 then s1 else wakeBank n s1
  if bit w 16 ∨ (r.owner = 0xE ∧ giveOwner e ≠ 0xE) ∨ r.prot then zeroise n s2 else s2

/-- Step 2 of BANK.GIVE, at its device frame boundary (R330). -/
def switchBanks (e : Entry) (s : State) : State := markCoef ((giveMask e).foldl (switchBank e) s)

-- BANK.STATUS, HW.REGION.SET (R348, R349) ------------------------------------------------------------------------------------------------

/-- Words of BANK.STATUS (R348). -/
def bankWords (s : State) : List Word := (List.range 64).map s.ssOwner ++ [s.ssStatus, s.hwStatus, s.hwRegionMode]

/-- BANK.STATUS (R348). -/
def cardBankStatus : Card where
  opcode := 0x501
  len := fun e => e.payload.length == 1
  range := fun e _ => bits (e.pw 0) 31 1 == 0
  run := fun e s =>
    finishNow 0x501 e (bankWords s)
      (if bit (e.pw 0) 0 then { s with mem := { s.mem with denied := 0, dbe := 0, suspend := 0, wake := 0, hwBusy := 0, hwSafe := 0 } } else s)

/-- HW.REGION.SET (R349). -/
def cardHwRegionSet : Card where
  opcode := 0x502
  len := fun e => e.payload.length == 1
  range := fun e _ => bits (e.pw 0) 31 13 == 0 && !bit (e.pw 0) 0
  flags := fun e _ => !e.stamped
  post := fun e s => if e.stage then stageChecks [.hwRegion] s else none
  run := fun e s => if e.stage then stageFields 0x502 e [{ field := .hwRegion, value := [e.pw 0] }] s else queueBoundary 0x502 e {} s

/-- HW.REGION.SET at its boundary (R335). -/
def applyRegionSet (e : Entry) (s : State) : State := { s with mem := { s.mem with fast := BitVec.ofNat 12 (bits (e.pw 0) 12 1) } }

-- CONTENT.PIN and residency (R126, R127, R345, R350) ----------------------------------------------------------------------------------------

/-- Pins of Bay `b`. -/
def pinsOf (b : Nat) (s : State) : Nat := (s.mem.resid.filter fun p => p.1 / 2 ^ 32 == b && p.2.pinned).length

/-- A pin finds room: the object is resident or under way, or it can be fetched after every permitted demotion (R350). -/
def pinRoom (b o : Nat) (s : State) : Bool := (claimCopy b false none o s).isSome

/-- CONTENT.PIN (R350). -/
def cardContentPin : Card where
  opcode := 0x510
  device := false
  modes := [.play, .follow, .render, .service]
  len := fun e => e.payload.length == 2
  range := fun e s =>
    let o := (e.pw 1).toNat
    bits (e.pw 0) 31 1 == 0 && o != 0x80000000 && o != 0xFFFFFFFF && s.inStore o && (bit (e.pw 0) 0 || (s.resid e.target.toNat o).pinned)
  post := fun e s =>
    let b := e.target.toNat
    let o := (e.pw 1).toNat
    firstFail
      [ need (s.bay b).coefArea eState,
        need (!bit (e.pw 0) 0 || (s.resid b o).pinned || decide (pinsOf b s < 1024)) eNoslot,
        need (!bit (e.pw 0) 0 || pinRoom b o s) eNoslot ]
  run := fun e s =>
    let b := e.target.toNat
    let o := (e.pw 1).toNat
    if !bit (e.pw 0) 0 then
      let s1 := s.onResid b o fun r => { r with pinned := false }
      finishNow 0x510 e [BitVec.ofNat 32 (pinsOf b s1)] s1
    else
      let s1 := ((claimCopy b false none o s).getD s).onResid b o fun r => { r with pinned := true }
      if s.objResident b o then finishNow 0x510 e [BitVec.ofNat 32 (pinsOf b s1)] s1
      else addJob { j := s1.mbx.nextJ, opcode := 0x510, e := e, phase := .content, bay := b } (journalAdd 0x510 e .queued 0 0 s1)

/-- Pins that wait for an object in a Bay. -/
def pinJobs (b o : Nat) (s : State) : List Job := s.mbx.jobs.filter fun jb => jb.phase == .content && jb.bay == b && (jb.e.pw 1).toNat == o

/-- Fetched content becomes resident, and the pins that waited for it are answered (R127, R350). A protected object is not
decrypted under KEYLOCK (R433). A start that waited for it proceeds at the next tick (R156). Only the request in service completes (R340). -/
def becomeResident (b o : Nat) (s : State) : State :=
  if !(s.resid b o).loading ∨ !s.inStore o ∨ !s.servedNow b o then s
  else if s.noDecrypt false ∧ (s.contentOf o).prot then endRequest b o (s.onResid b o fun r => { r with loading := false, at_ := [] })
  else
    let s1 := endRequest b o (placeCopy b o s)
    (pinJobs b o s1).foldl (fun s jb => completeJob jb stDone [BitVec.ofNat 32 (pinsOf b s)] (dropJob jb.j s)) s1

/-- CONTENT_RESIDENT (R127). -/
def execContentResident (bay : Nat) (object : Nat) (s : State) : Outcome := withUnit bay 8 (.next (becomeResident bay object s))

-- retention, test windows, zeroising (R330 to R334) --------------------------------------------------------------------------------------------

/-- A bank that may retain (R332), and that no margin test found weak (R459). -/
def mayRetain (b : Nat) (s : State) : Bool := !(s.bank b).weak && (s.bank b).state == 0 && retainOk b s

/-- BANK_RETENTION (R332). -/
def execBankRetention (b : Nat) (s : State) : Outcome :=
  withUnit b 64 (.next (if mayRetain b s then s.setBank b { s.bank b with state := 1 } else s))

/-- BANK_WAKE (R332). -/
def execBankWake (b : Nat) (s : State) : Outcome := withUnit b 64 (.next (wakeBank b s))

/-- ZEROISE_DONE (R330, R331): the bank is awake again; PROTECTED clears unless a protected object lies in it. -/
def execZeroiseDone (b : Nat) (s : State) : Outcome :=
  withUnit b 64 (.next (if (s.bank b).state = 3 then s.setBank b { s.bank b with state := 0, prot := bankProtects b s } else s))

-- accesses to the Sound Store (R321 to R326) ------------------------------------------------------------------------------------------------------

/-- A Sound Store word by bank and word, or the fault of an address that does not exist (R321). -/
def withStoreWord (bank word : Nat) (o : Outcome) : Outcome := if bank < 64 ∧ word < 65536 then o else .fault .noSuchAddress

/-- Initiators of the block inventory (R10): eight arrays, 64 voice cores, four service cores. -/
def initiatorIs (who : Initiator) : Bool :=
  match who with
  | .array c => decide (c < 8)
  | .core k => decide (k < 64)
  | .service n => decide (n < 4)
  | _ => true

/-- A command of an initiator that the device does not have is no command of this hardware (R10). -/
def withInitiator (who : Initiator) (o : Outcome) : Outcome := if initiatorIs who then o else .refused .noSuchUnit

/-- The requests that wait at bank `b` stall for `n` clk more. -/
def stallMore (b n : Nat) (s : State) : State := s.setBank b { s.bank b with waiting := (s.bank b).waiting.map fun q => (q.1, q.2 + n) }

/-- A write through an alias occupies the bank for 2 clk, in which nothing else reaches it (R322). -/
def aliasWrite (who : Initiator) (kind : WriteKind) (bank word : Nat) (v : Word) (strobes : BitVec 4) (s : State) : State :=
  stallMore bank 2 (writeStore who kind (65536 * bank + word) v strobes s)

/-- SET_ALIAS_WRITE (R322). -/
def execSetAliasWrite (who : Initiator) (bank word : Nat) (v : Word) (strobes : BitVec 4) (s : State) : Outcome :=
  withInitiator who <| withStoreWord bank word (.next (aliasWrite who .set bank word v strobes s))

/-- CLEAR_ALIAS_WRITE (R322). -/
def execClearAliasWrite (who : Initiator) (bank word : Nat) (v : Word) (strobes : BitVec 4) (s : State) : Outcome :=
  withInitiator who <| withStoreWord bank word (.next (aliasWrite who .clear bank word v strobes s))

/-- The Course of a Course port's request. -/
def portOf (who : Initiator) : Option Nat := match who with | .array c => some c | .core k => some (k / 8) | _ => none

/-- The home Course of a mirror's Course, or the Course itself (R323). -/
def State.homeCourse (s : State) (c : Nat) : Nat :=
  let b := s.courseBay c
  if s.asMirror b then c - (s.bay b).first.toNat + (s.bay (s.partnerOf b)).first.toNat else c

/-- Place within a Course port: the array first, then its cores (R323). -/
def inPort (who : Initiator) : Nat := match who with | .core k => 1 + k % 8 | _ => 0

/-- Rank of a requester in the table Bank arbitration, lower first (R323). The Vault, which alone reaches its banks, is not in
the table and stands last (log entry 29). -/
def State.bankRank (s : State) (who : Initiator) : Nat :=
  match portOf who with
  | some c =>
    let b := s.courseBay c
    if s.ownTimeline b then 10000 + (8 * b + c) * 16 + inPort who
    else (2 * s.homeCourse c + b2n (s.asMirror b)) * 16 + inPort who
  | none =>
    match who with
    | .service n => 20000 + n
    | .copy _ => 30000
    | .conductor => 40000
    | .host => 50000
    | .test => 60000
    | _ => 70000

/-- Order in which the requests of one clk are served, with the clk each has stalled: those that have stalled 16 clk first, longest first, then by
rank (R323, R324). -/
def State.requestKey (s : State) (q : BankReq × Nat) : Nat :=
  (if 16 ≤ q.2 then 2 ^ 32 - q.2 else 2 ^ 33) * 2 ^ 20 + s.bankRank q.1.who

/-- The request served in this clk. -/
def firstRequest (s : State) (rs : List (BankReq × Nat)) : Option (BankReq × Nat) :=
  match rs with
  | [] => none
  | r :: t => match firstRequest s t with
    | none => some r
    | some q => if s.requestKey r ≤ s.requestKey q then some r else some q

/-- Two Course ports, home and mirror, ask for the same line (R324). -/
def sameLine (s : State) (a b : BankReq) : Bool :=
  match portOf a.who, portOf b.who with
  | some c, some d => c != d && s.homeCourse c == s.homeCourse d && a.acc.word / 4 == b.acc.word / 4
  | _, _ => false

/-- A fetch that the bank refuses sets CSR.FERR in the fetching core (R326, R228). -/
def refuseFetch (who : Initiator) (s : State) : State :=
  match who with
  | .core k => s.setCore k ((s.core k).onCur fun r => r.sticky csrFERR true)
  | _ => s

/-- Perform one request at bank `b` (R321, R325, R326); a read leaves its word in `lastRead`. -/
def performRequest (b : Nat) (s : State) (r : BankReq) : State :=
  let w := 65536 * b + r.acc.word
  match r.acc.wr with
  | some v => writeStore r.who .plain w v r.acc.strobes s
  | none =>
    let x := readStore r.who w r.dbe s
    let s1 := if x.2.1 then refuseFetch r.who x.2.2 else x.2.2
    { s1 with mem := { s1.mem with lastRead := s1.mem.lastRead ++ [x.1] } }

/-- The requests that stand at bank `b` in this clk: those that stalled, then the new ones of initiators that do not wait (R323). -/
def standing (b : Nat) (rs : List BankReq) (s : State) : List (BankReq × Nat) :=
  rs.foldl (fun qs r => if qs.any fun q => q.1.who == r.who then qs else qs ++ [(r, 0)]) (s.bank b).waiting

/-- One clk at one bank: of the requests that stand one is served, with its home's or mirror's for the same line; every other stalls and requests
again in the next (R323, R324). -/
def serveBank (b : Nat) (rs : List BankReq) (s : State) : State :=
  let qs := standing b rs s
  match firstRequest s qs with
  | none => s
  | some f =>
    let served := fun (q : BankReq × Nat) => q.1.who == f.1.who || sameLine s f.1 q.1
    let s1 := s.setBank b { s.bank b with waiting := (qs.filter fun q => !served q).map fun q => (q.1, q.2 + 1) }
    (f.1 :: (qs.filter fun q => sameLine s f.1 q.1).map Prod.fst).foldl (performRequest b) { s1 with mem := { s1.mem with lastRead := [] } }

/-- SOUND_STORE_ACCESS (R323): one clk at a bank with its new requests, if any. -/
def execSoundStoreAccess (bank : Nat) (reqs : List BankReq) (s : State) : Outcome :=
  if !(reqs.all fun r => initiatorIs r.who) then .refused .noSuchUnit
  else if bank < 64 ∧ reqs.all (fun r => decide (r.acc.word < 65536)) then .next (serveBank bank reqs s) else .fault .noSuchAddress

-- the Host Window (R335 to R338, R494) -------------------------------------------------------------------------------------------------------------

/-- Region of a Host Window word is FAST (R335). -/
def State.fastWord (s : State) (w : Nat) : Bool := decide (0x10000 ≤ w) && s.mem.fast.getLsbD ((w - 0x10000) / 0x4000)

/-- Write a Host Window word. -/
def putWin (a : WordAcc) (s : State) : State :=
  match a.wr with
  | some v => { s with mem := { s.mem with win := Mem.putWord s.mem.win a.word v a.strobes } }
  | none => s

/-- A collision: both sides meet in one word (R336). -/
def collides (i o : WordAcc) : Bool := i.word == o.word

/-- Two reads always both return the stored data (R336). -/
def bothRead (i o : WordAcc) : Bool := i.wr.isNone && o.wr.isNone

/-- What the external side sees: the word read, whether busy was signalled, and the state (R336). -/
structure HostSide where
  read : Word := 0
  busy : Bool := false
  st : State

/-- Both sides access the window in one clk; `again`: the host bridge repeats a busy access itself (R336, R337). -/
def windowAccess (again : Bool) (inner : Option WordAcc) (o : WordAcc) (s : State) : HostSide :=
  let old := Mem.word s.mem.win o.word
  match inner with
  | none => { read := old, st := putWin o s }
  | some i =>
    if !collides i o || (bothRead i o && s.fastWord o.word) then { read := old, st := putWin o (putWin i s) }
    else if s.fastWord o.word then
      let s1 := putWin i s
      let s2 := { s1 with mem := { s1.mem with hwBusy := satInc s1.mem.hwBusy } }
      if again then { read := Mem.word s2.mem.win o.word, st := putWin o s2 }
      else { read := Config.free32 s2.freeCtr, busy := true, st := s2.fresh }
    else
      let s1 := putWin o (putWin i s)
      { read := old, st := { s1 with mem := { s1.mem with hwSafe := satInc s1.mem.hwSafe } } }

/-- The host port's form is PCIe (R471: strap code 0): its bridge repeats a busy access itself (R337). -/
def State.pcieForm (s : State) : Bool := s.power.host == 0

/-- The internal side's read (R336). -/
def innerRead (inner : Option WordAcc) (s : State) : List Word :=
  match inner with
  | some i => if i.wr.isNone then [Mem.word s.mem.win i.word] else []
  | none => []

end Sys2Proof.Machine
end

