-- ==== Sys2Proof/Machine/Effects.lean ====
section
/-! DEFINITION. Effect tasks (chapters 04 and 08, R110, R239, R241, R242): the tasks that the endpoints of an effect slot describe, their ranks,
their placement at the commit that adds them, and their descriptors. What a slot's endpoints describe is the effect program's own matter,
which the spec does not give (log entry 22). -/

namespace Sys2Proof.Machine

/-- The first endpoint of effect slot `o` that its effect program describes (R185). -/
def effectAddr (o p : Nat) : Nat := busAddr o (0x40 + p)

/-- An endpoint of an effect program (R185). -/
def effectEndpoint (a : Nat) : Bool := a / 65536 == 3 && decide (0x40 ≤ a % 256)

/-- The effect that slot `o` holds under a reader of endpoints (R185; log entry 22). -/
def effectIn (rd : Nat → Word) (o : Nat) : Option Config.EffectDef := Config.effectDef o ((List.range 192).map fun p => rd (effectAddr o p))

/-- An effect as routing sees it: its slot, input pairs and output pairs. -/
abbrev EffectNode := Nat × List Nat × List Nat

/-- Slots that effect tasks hold. -/
def State.effectSlots (s : State) : List Nat := (s.effectTasks.map fun t => t.2.2.obj.toNat).eraseDups

/-- The effects of the device once the slots `new` hold what `rd` describes (R241). -/
def effectNodes (rd : Nat → Word) (new : List Nat) (s : State) : List EffectNode :=
  (new.filterMap fun o => (effectIn rd o).map fun d => (o, d.ins, d.outs))
  ++ ((s.effectTasks.filter fun t => !new.contains t.2.2.obj.toNat).map fun t => (t.2.2.obj.toNat, t.2.2.inPairs, t.2.2.outPairs)).eraseDups

/-- An effect writes an input of another (R241). -/
def EffectNode.feeds (w r : EffectNode) : Bool := w.2.2.any fun q => r.2.1.contains q

/-- Ranks from `r` on (R241): each round ranks the effects whose writers are all ranked. At most `n` rounds. -/
def rankFrom (n r : Nat) (todo : List EffectNode) (done : List (Nat × Nat)) : Option (List (Nat × Nat)) :=
  match n, todo with
  | _, [] => some done
  | 0, _ => none
  | n + 1, todo =>
    let now := todo.filter fun x => !todo.any fun w => w.feeds x
    if now.isEmpty then none
    else rankFrom n (r + 1) (todo.filter fun x => todo.any fun w => w.feeds x) (done ++ now.map fun x => (x.1, r))

/-- RANK of every effect slot; none when the routing holds a cycle or a RANK lies above 255 (R241). -/
def effectRanks (nodes : List EffectNode) : Option (List (Nat × Nat)) := rankFrom 256 0 nodes []

/-- MASK of an effect task: F, and an I bit for each valid input pair (R242). -/
def effectMask (ins : List Nat) : Byte := BitVec.ofNat 8 (1 + 16 * (2 ^ (ins.take 4).length - 1))

/-- IN0 to IN3 of a task descriptor (R239). -/
def packIns (qs : List Nat) : BitVec 32 := BitVec.ofNat 32 (((qs.take 4).zipIdx).foldl (fun a p => a + (128 + p.1 % 128) * 256 ^ p.2) 0)

/-- The task descriptor that the Conductor writes for an effect (R239, R241, R242). -/
def effectTask (b o rank : Nat) (d : Config.EffectDef) : Task :=
  { kind := 1, bay := b, rank := BitVec.ofNat 8 rank, mask := effectMask d.ins, entry := d.entry, cost := d.cost, obj := BitVec.ofNat 8 o,
    ins := packIns d.ins, outs := packOuts d.outs }

/-- The core of Bay `b` that takes an effect of cost `cost`: least effect load with it, within the budget, lowest number (R107, R110). -/
def effectHome (b cost : Nat) (keep : Nat → Bool) (s : State) : Option Nat :=
  let fits := (s.bayCores b).filter fun d =>
    keep d && !s.unusable d && decide (s.effectCost d + cost ≤ s.budget d) && decide (s.taskCount d < 64)
  leastRank (fits.map fun d => ((s.effectCost d + cost) * 64 + d, d))

/-- An effect task takes context slot `ctx` of core `k`, rewritten first where an error struck it (R233), its state cleared (R110, R285). -/
def putEffect (k ctx : Nat) (t : Task) (s0 : State) : State :=
  let s := rewriteSlot k ctx s0
  let c := s.core k
  let zero := fun (m : Mem 24) => (List.range 192).foldl (fun m i => Mem.write m (192 * ctx + i) 0) m
  s.setCore k { c with x := zero c.x, y := zero c.y,
                       tasks := c.tasks.put ctx { t with flags := 0, next := 0, skips := 0, ran := false, skipped := false, fresh := true } }

/-- An effect task is placed on core `k`, and its twin on the twin core of a joined pair (R110, R275). -/
def placeEffectOn (k : Nat) (t : Task) (s : State) : State :=
  let ctx := s.freeCtx k
  let s1 := putEffect k ctx t s
  match s.twin k with
  | some m => if s.shares (s.courseBay (m / 8)) then putEffect m ctx { t with bay := s.courseBay (m / 8) } s1 else s1
  | none => s1

/-- The tasks of slot `o` leave their cores. -/
def dropEffect (o : Nat) (s : State) : State :=
  (List.range 64).foldl (fun s k => s.setCore k { s.core k with
    tasks := (s.core k).tasks.filter fun t => !(t.2.kind == 1 && t.2.obj.toNat == o) }) s

/-- Change the tasks of slot `o` where they stand. -/
def onEffect (o : Nat) (f : Task → Task) (s : State) : State :=
  (List.range 64).foldl (fun s k => s.setCore k { s.core k with
    tasks := (s.core k).tasks.mapVals fun _ t => if t.kind == 1 && t.obj.toNat == o then f t else t }) s

/-- The effect of slot `o` as a commit leaves it: dropped, changed where it stands, or placed; none when no core qualifies (R110). For the home of
a failed-over pair it stands on the cores of the Bay in control (R284). -/
def setEffect (rd : Nat → Word) (ranks : List (Nat × Nat)) (o : Nat) (s : State) : Option State :=
  match effectIn rd o with
  | none => some (dropEffect o s)
  | some d =>
    let b := s.acting (d.bay % 8)
    let t := effectTask b o ((ranks.lookup o).getD 0) d
    if s.effectTasks.any fun x => x.2.2.obj.toNat == o && x.2.2.bay == b && x.2.2.cost == d.cost then
      some (onEffect o (fun x => { x with rank := t.rank, mask := t.mask, entry := t.entry, ins := t.ins, outs := t.outs }) s)
    else
      let s1 := dropEffect o s
      (effectHome b d.cost.toNat (fun _ => true) s1).map fun k => placeEffectOn k t s1

/-- The effects of the slots `new`, one after another (R110). -/
def setEffects (rd : Nat → Word) (ranks : List (Nat × Nat)) : List Nat → State → Option State
  | [], s => some s
  | o :: r, s => match setEffect rd ranks o s with
    | none => none
    | some t => setEffects rd ranks r t

/-- Every effect task carries the RANK of its slot (R241). -/
def putRanks (ranks : List (Nat × Nat)) (s : State) : State :=
  ranks.foldl (fun s p => onEffect p.1 (fun t => { t with rank := BitVec.ofNat 8 p.2 }) s) s

/-- The effect tasks once the slots `new` hold what `rd` describes; or the status that refuses the commit: a cycle of the routing, or no
core for a task (R110, R241). -/
def planEffects (rd : Nat → Word) (new : List Nat) (s : State) : Except Status State :=
  if new.isEmpty then .ok s
  else match effectRanks (effectNodes rd new s) with
    | none => .error eConflict
    | some ranks => match setEffects rd ranks new s with
      | none => .error eNoslot
      | some t => .ok (putRanks ranks t)

/-- Effect slots that staged values name. -/
def effectSlotsOf (xs : List Staged) : List Nat :=
  (xs.filterMap fun x => match x.field with
    | .endpoint a => if effectEndpoint a then some (a / 256 % 256) else none
    | _ => none).eraseDups

/-- The effects that a commit's values set up, once they are in force (R110, R241); its validation has found room for them. -/
def applyEffects (xs : List Staged) (s : State) : State :=
  match planEffects s.endpoint (effectSlotsOf xs) s with
  | .ok t => t
  | .error _ => s

/-- Bay `b` runs an effect that touches bus pair `q`, or would once the slots `new` hold what `rd` describes (R83). -/
def effectOnPair (rd : Nat → Word) (new : List Nat) (b q : Nat) (s : State) : Bool :=
  (s.effectTasks.any fun t => t.2.2.bay == b && t.2.2.touches q)
  || new.any fun o => match effectIn rd o with | some d => d.bay % 8 == b && (d.ins.contains q || d.outs.contains q) | none => false

/-- Bay `b` runs the effect of slot `o`, or would (R83). -/
def effectOnBay (rd : Nat → Word) (new : List Nat) (b o : Nat) (s : State) : Bool :=
  (s.effectTasks.any fun t => t.2.2.bay == b && t.2.2.obj.toNat == o)
  || (new.contains o && match effectIn rd o with | some d => d.bay % 8 == b | none => false)

end Sys2Proof.Machine
end

