-- ==== Sys2Proof/Machine/SessionCmds.lean ====
section
/-! DEFINITION. Session commands and the network partners' traffic (R300, R301, R304, R315 to R320). -/

namespace Sys2Proof.Machine

/-- SE_STATUS (R315). -/
def State.seStatus (s : State) : Word :=
  let os := openSessions s
  pack [(s.se.intakeDrop.toNat, 24), (s.se.refused.toNat, 16), ((os.filter fun i => s.parked i).length, 8),
        ((os.filter fun i => !s.parked i).length, 0)]

/-- One word of SESSION.LIST (R316). -/
def sessionWord (s : State) (i : Nat) : Word :=
  let x := s.session i
  pack [(i, 24), (x.tag.toNat, 16), (x.slot, 8), (x.transport, 6), (x.port, 2)]

/-- SESSION.LIST (R316). -/
def cardSessionList : Card where
  opcode := 0x200
  len := fun e => e.payload.length == 1
  range := fun e _ => bits (e.pw 0) 31 1 == 0
  run := fun e s =>
    finishNow 0x200 e (s.seStatus :: BitVec.ofNat 32 (openSessions s).length :: (openSessions s).map (sessionWord s))
      (if bit (e.pw 0) 0 then { s with se := { s.se with intakeDrop := 0, refused := 0 } } else s)

/-- ID and TAG that a session command names (R299). -/
def namedId (e : Entry) : Nat := bits (e.pw 0) 7 0
/-- The named session is open under the named TAG (R299). -/
def sessionNamed (e : Entry) (s : State) : Bool :=
  let x := s.session (namedId e)
  x.isOpen && x.tag.toNat == bits (e.pw 0) 15 8

/-- The words of SESSION.QUERY (R317). -/
def queryWords (i : Nat) (s : State) : List Word :=
  let x := s.session i
  [sessionWord s i, pack [(x.keepalive, 16), (x.lead, 0)],
   pack [(b2n x.dropLate, 31), (b2n x.closeRelease, 30), (x.partOffset.toNat, 16), (x.queueLimit, 0)],
   BitVec.ofNat 32 (queuedOf i s), x.offset.setWidth 32, (x.offset >>> 32).setWidth 32, x.jitter,
   x.identity.setWidth 32, (x.identity >>> 32).setWidth 32,
   x.events, x.late, x.maxLate, x.droppedLate, x.range, x.overflow, x.ignored]

/-- SESSION.QUERY (R317). -/
def cardSessionQuery : Card where
  opcode := 0x201
  len := fun e => e.payload.length == 1
  range := fun e _ => bits (e.pw 0) 31 17 == 0
  post := fun e s => need (sessionNamed e s) eState
  run := fun e s =>
    let i := namedId e
    finishNow 0x201 e (queryWords i s)
      (if bit (e.pw 0) 16 then
        s.onSession i fun x => { x with events := 0, late := 0, maxLate := 0, droppedLate := 0, range := 0, overflow := 0, ignored := 0 }
       else s)

/-- Field `n` as SESSION.SET carries it (R318): 0 LATE_POLICY, 1 RANK, 2 LEAD, 3 KEEPALIVE, 4 PART_OFFSET, 5 CLOSE_RELEASE,
6 QUEUE_LIMIT. -/
def setField (e : Entry) (n : Nat) : Nat :=
  match n with
  | 0 => bits (e.pw 2) 31 31
  | 1 => bits (e.pw 3) 7 0
  | 2 => bits (e.pw 1) 15 0
  | 3 => bits (e.pw 1) 31 16
  | 4 => bits (e.pw 2) 23 16
  | 5 => bits (e.pw 2) 30 30
  | _ => bits (e.pw 2) 15 0

/-- Range of a session field (R299). -/
def fieldOk (n v : Nat) : Bool :=
  match n with
  | 2 => decide (v ≤ 20000)
  | 3 => decide (500 ≤ v) && decide (v ≤ 60000)
  | 6 => decide (16 ≤ v) && decide (v ≤ 8192)
  | _ => true

/-- Fields that the mask selects. -/
def maskedFields (e : Entry) : List Nat := (List.range 7).filter fun n => bit (e.pw 0) (16 + n)

/-- A session field takes a value (R318). -/
def putSessionField (n v : Nat) (x : Session) : Session :=
  match n with
  | 0 => { x with dropLate := decide (v = 1) }
  | 1 => { x with rank := BitVec.ofNat 8 v }
  | 2 => { x with lead := v }
  | 3 => { x with keepalive := v }
  | 4 => { x with partOffset := BitVec.ofNat 8 v }
  | 5 => { x with closeRelease := decide (v = 1) }
  | _ => { x with queueLimit := v }

/-- The values SESSION.SET stages, bound to ID and TAG (R318). -/
def sessionFields (e : Entry) : List Staged :=
  (maskedFields e).map fun n => { field := .session (namedId e) (bits (e.pw 0) 15 8) n, value := [BitVec.ofNat 32 (setField e n)] }

/-- SESSION.SET (R318). -/
def cardSessionSet : Card where
  opcode := 0x202
  len := fun e => e.payload.length == 4
  range := fun e _ =>
    bits (e.pw 0) 31 23 == 0 && bits (e.pw 2) 29 24 == 0 && bits (e.pw 3) 31 8 == 0
    && (List.range 7).all fun n => if bit (e.pw 0) (16 + n) then fieldOk n (setField e n) else setField e n == 0
  flags := fun e _ => !e.stamped
  agree := fun e _ => bits (e.pw 0) 22 16 != 0
  post := fun e s =>
    firstFail [ need (sessionNamed e s) eState,
                if e.stage then stageChecks ((sessionFields e).map fun x => x.field) s else none ]
  run := fun e s => if e.stage then stageFields 0x202 e (sessionFields e) s else queueBoundary 0x202 e {} s

/-- SESSION.SET at its boundary (R318): a session closed meanwhile has no fields to write. -/
def applySessionSet (e : Entry) (s : State) : State :=
  if sessionNamed e s then (maskedFields e).foldl (fun s n => s.onSession (namedId e) (putSessionField n (setField e n))) s else s

/-- SESSION.CLOSE (R319): the session closes at the next boundary. -/
def cardSessionClose : Card where
  opcode := 0x203
  len := fun e => e.payload.length == 1
  range := fun e _ => bits (e.pw 0) 31 17 == 0
  post := fun e s => need (sessionNamed e s) eState
  run := fun e s => markClosing (namedId e) (some (bit (e.pw 0) 16)) (queueBoundary 0x203 e {} s)

-- EVENT.SEND (R320) ----------------------------------------------------------------------------------------------------------------

/-- One packet of EVENT.SEND. -/
structure Packet where
  stamped : Bool
  media : Bool
  ok : Bool
  stamp : Word
  ump : Ump

/-- Words of a UMP by its message type: 1 for type 0x2, 2 for type 0x4; other types as their header states (R320). -/
def umpSizeOk (w : Word) (n : Nat) : Bool :=
  match bits w 31 28 with
  | 2 => n == 1
  | 4 => n == 2
  | _ => decide (1 ≤ n) && decide (n ≤ 4)

/-- Read `n` packets that fill the words exactly; `none` when sizes disagree (R320). -/
def readPackets : Nat → List Word → Option (List Packet)
  | 0, ws => if ws.isEmpty then some [] else none
  | n + 1, h :: st :: rest =>
    let k := bits h 2 0
    let u := rest.take k
    if u.length = k ∧ umpSizeOk (u.getD 0 0) k then
      (readPackets n (rest.drop k)).map fun ps =>
        { stamped := bit h 31, media := bit h 30, ok := bits h 29 3 == 0 && (bit h 31 || st == 0), stamp := st, ump := u } :: ps
    else none
  | _ + 1, _ => none

/-- The packets of an EVENT.SEND, empty where they cannot be read. -/
def packetsOf (e : Entry) : List Packet := (readPackets (bits (e.pw 0) 15 0) (e.payload.drop 1)).getD []

/-- PART_OFFSET that the channel's mailbox session has, or will have (R299). -/
def mailboxOffset (e : Entry) (s : State) : Nat :=
  match mailboxSession e.ch s with
  | some i => (s.session i).partOffset.toNat
  | none => 0

/-- The part a packet addresses (R306). -/
def packetPart (e : Entry) (s : State) (p : Packet) : Nat := ((umpMessage p.ump).1 + mailboxOffset e s) % 256

/-- The stamp of a packet (R38, R303). -/
def packetStamp (e : Entry) (s : State) (p : Packet) : Word :=
  if p.stamped then (if p.media then s.fromMedia p.stamp else p.stamp)
  else
    let part := packetPart e s p
    if s.renderPart part then s.reachOf (s.partBay part)
    else s.stampAt s.time.deviceTime + leadTicks s.time.rate (match mailboxSession e.ch s with | some i => (s.session i).lead | none => 1000)

/-- Class of a packet's stamp against its part's Bay (R33, R320). -/
def packetClass (e : Entry) (s : State) (p : Packet) : StampClass :=
  classify (packetStamp e s p) (s.reachOf (s.partBay (packetPart e s p)))

/-- Lateness of a packet. -/
def packetLateness (e : Entry) (s : State) (p : Packet) : Nat :=
  (-(stampDist (packetStamp e s p) (s.reachOf (s.partBay (packetPart e s p))))).toNat

/-- The session an EVENT.SEND uses is open, or can be opened (R300). -/
def mailboxCanOpen (e : Entry) (s : State) : Bool := (mailboxSession e.ch s).isSome || (openSession 3 e.ch 0 s).isSome

/-- One packet enters the timeline (R307, R320), or waits for the intake (R310); the count of those counted late. A parked session's packet is held, and tested at the next device
frame boundary (R313); that the card's tests at validation stand beside this is the model's choice (DESIGN CHOICE, log entry 135). -/
def enterPacket (i : Nat) (m : Nat × Message) (stamp : Word) (st : State × Nat) : State × Nat :=
  let s := st.1
  let part := s.partOf i m.1
  let a := messageAct i m.1 part m.2 s
  match a.2 with
  | none => (a.1, st.2)
  | some act =>
    if s.parked i then (deliver i none act stamp a.1, st.2)
    else if !a.1.intakeRoom then (waitIntake i act stamp a.1, st.2)
    else
    let s1 := (countIntake a.1).onSession i fun x => { x with events := satInc x.events }
    let reach := s1.reachOf (s1.partBay part)
    if classify stamp reach = .late then
      let s2 := countLate (some i) (-(stampDist stamp reach)).toNat s1
      ((placeEvent (some i) act reach true s2).1, st.2 + 1)
    else
      let r := placeEvent (some i) act stamp false s1
      (r.1, st.2 + b2n r.2)

/-- Every packet enters, in order (R320). -/
def enterPackets (e : Entry) (i : Nat) (ps : List Packet) (s : State) : State × Nat :=
  ps.foldl (fun st p => enterPacket i (umpMessage p.ump) (packetStamp e s p) st) (s, 0)

/-- EVENT.SEND (R320). -/
def cardEventSend : Card where
  opcode := 0x210
  len := fun e => decide (1 ≤ e.payload.length) && (readPackets (bits (e.pw 0) 15 0) (e.payload.drop 1)).isSome
  range := fun e _ =>
    bits (e.pw 0) 31 8 == 0
    && (packetsOf e).all fun p => p.ok && (p.stamped || !p.media) && (bits (p.ump.getD 0 0) 31 28 == 2 || bits (p.ump.getD 0 0) 31 28 == 4)
  pre := fun e s => need ((packetsOf e).all fun p => packetClass e s p != .range) eStampRange
  post := fun e s =>
    firstFail
      [ need (mailboxCanOpen e s) eNoslot,
        need (poolRoom e.ch (packetsOf e).length s) eNoslot,
        need ((packetsOf e).all fun p => !p.media || (s.bay (s.acting (s.partBay (packetPart e s p)))).mode == .follow) eConflict,
        if dropLate e.ch s then
          match (packetsOf e).find? fun p => packetClass e s p == .late with
          | some p => some (eLate, [BitVec.ofNat 32 (packetLateness e s p)])
          | none => none
        else none ]
  onFail := fun e f s => if f.1 = eNoslot ∧ !mailboxCanOpen e s then refuseOpen s else s
  run := fun e s =>
    let s1 := ensureMailboxSession e.ch s
    match mailboxSession e.ch s1 with
    | none => s1
    | some i =>
      let r := enterPackets e i (packetsOf e) s1
      finishNow 0x210 e [pack [(i, 0), ((r.1.session i).tag.toNat, 8)], BitVec.ofNat 32 r.2] r.1

-- network partners (R300, R301, R303, R304) ---------------------------------------------------------------------------------------------

/-- An open Network MIDI 2.0 session. -/
def State.netSession (s : State) (i : Nat) : Bool := (s.session i).isOpen && (s.session i).transport == 0

/-- One packet of a network session, with the JR Timestamp that precedes it (R303, R307). -/
def networkPacket (i : Nat) (r : BitVec 64) (s : State) (p : Ump) : State :=
  let w := p.getD 0 0
  if bits w 31 28 = 0 ∧ bits w 23 20 = 2 then s.onSession i fun x => { x with jrPending := some (w.setWidth 16) }
  else
    let m := umpMessage p
    let jr := (s.session i).jrPending
    receiveMessage i none m.1 m.2 jr r (s.onSession i fun x => { x with jrPending := none })

/-- A gap in the partner's sequence numbers asks for retransmission once (R301). -/
def checkSeq (i : Nat) (q : BitVec 16) (s : State) : State :=
  let x := s.session i
  match x.umpSeq with
  | none => s.setSession i { x with umpSeq := some q }
  | some l =>
    let d := (q - l).toInt
    if d ≤ 0 then s
    else
      let s1 := s.setSession i { x with umpSeq := some q }
      if d = 1 then s1 else s1.send .retransmitRequest [i, (l + 1).toNat, (d - 1).toNat]

/-- NETWORK_MIDI_PACKET (R288, R301 to R303, R307): packets of a session that is open; the firmware that takes them runs from READY. -/
def execNetworkMidiPacket (sid : Nat) (umpSeq : BitVec 16) (r : BitVec 64) (ps : List Ump) (s : State) : Outcome :=
  withUnit sid 256 <| .next <|
    taken (.networkMidiPacket sid umpSeq ps) (fun s =>
      if s.netSession sid && s.power.phase == 7 then ps.foldl (networkPacket sid r) (checkSeq sid umpSeq s) else s) s

/-- An Invitation (R300): one that asks for authentication, or would be the 257th session, is answered with Bye; the same
IDENTITY replaces its older session. -/
def invite (port : Nat) (identity : BitVec 64) (auth : Bool) (s : State) : State :=
  if auth then s.send .bye [port, identity.toNat]
  else
    let old := (openSessions s).filter fun i => (s.session i).transport == 0 && (s.session i).identity == identity
    match openSession 0 port identity s with
    | none => (refuseOpen s).send .bye [port, identity.toNat]
    | some (i, s1) => (old.foldl (fun s j => markClosing j none s) s1).send .invitationAccepted [i]

/-- INVITATION (R300). -/
def execInvitation (port : Nat) (identity : BitVec 64) (auth : Bool) (s : State) : Outcome :=
  withUnit port 2 (.next (taken (.invitation port identity auth) (fun s => if s.power.phase = 7 then invite port identity auth s else s) s))

/-- BYE (R300): the partner ends its session. -/
def execBye (sid : Nat) (s : State) : Outcome := withUnit sid 256 (.next (taken (.bye sid) (fun s => if s.netSession sid then markClosing sid none s else s) s))

/-- JR_CLOCK (R304). -/
def execJrClock (sid : Nat) (r : BitVec 64) (c : BitVec 16) (s : State) : Outcome :=
  withUnit sid 256 (.next (taken (.jrClock sid c) (fun s => if s.netSession sid then takeJr sid r c s else s) s))

/-- The Endpoint Name (R301): "MTY6480" in ASCII, followed by the product instance. -/
def State.endpointName (s : State) : List Nat := [0x4D, 0x54, 0x59, 0x36, 0x34, 0x38, 0x30, s.vault.serial.toNat]

/-- The four answers to Endpoint Discovery (R301). Endpoint Info: UMP version 1.1, one static function block over groups 0 to 15, receive only. -/
def answerDiscovery (sid : Nat) (s : State) : State :=
  (((s.send .endpointInfo [sid, 1, 1, 1, 1, 0, 16, 1]).send .deviceIdentity (sid :: Config.deviceIdentity)).send .endpointName
    (sid :: s.endpointName)).send .productInstance [sid, s.vault.serial.toNat]

/-- ENDPOINT_DISCOVERY (R301). -/
def execEndpointDiscovery (sid : Nat) (s : State) : Outcome :=
  withUnit sid 256 (.next (taken (.endpointDiscovery sid) (fun s => if s.netSession sid then answerDiscovery sid s else s) s))

/-- STREAM_CONFIGURATION_REQUEST (R301): the protocol asked for is accepted, with JR Timestamps on receive; the notification says so, and that none
are sent. -/
def execStreamConfigurationRequest (sid : Nat) (midi2 : Bool) (s : State) : Outcome :=
  withUnit sid 256 <| .next <| taken (.streamConfigurationRequest sid midi2) (fun s =>
    if s.netSession sid then (s.onSession sid fun x => { x with midi2 := midi2 }).send .streamConfigNotify [sid, b2n midi2, 1, 0] else s) s

/-- FUNCTION_BLOCK_DISCOVERY (R301): the single block, groups 0 to 15, receive only. -/
def execFunctionBlockDiscovery (sid : Nat) (s : State) : Outcome :=
  withUnit sid 256 (.next (taken (.functionBlockDiscovery sid) (fun s => if s.netSession sid then s.send .functionBlock [sid, 0, 0, 16] else s) s))

/-- PING (R300): sent after KEEPALIVE / 3 without traffic. -/
def execPing (sid : Nat) (s : State) : Outcome := withUnit sid 256 (.next (if s.netSession sid then s.send .ping [sid] else s))

/-- Sessions that a missing keepalive closes: network, AVTP, and a UART's once Active Sensing has been seen (R300). -/
def keepsAlive (x : Session) : Bool := x.isOpen && (x.transport == 0 || x.transport == 1 || (x.transport == 2 && x.activeSense))

/-- KEEPALIVE_TIMEOUT (R300, R312): KEEPALIVE has passed since the last traffic. -/
def execKeepaliveTimeout (sid : Nat) (s : State) : Outcome :=
  withUnit sid 256 (.next (if keepsAlive (s.session sid) then markClosing sid none s else s))

end Sys2Proof.Machine
end

