-- ==== Sys2Proof/Machine/Timers.lean ====
section
/-! DEFINITION. The timers and their capture queues (chapter 14, R411 to R416, R420, R421), and what an empty queue does: one cycle
of the main clock. -/

namespace Sys2Proof.Machine

/-- ENABLE of a timer (R416). -/
def Timer.enable (t : Timer) : Bool := bit t.cfg 31
/-- MODE of a timer: 0 FREE, 1 PERIODIC, 2 ONESHOT (R416). -/
def Timer.mode (t : Timer) : Nat := bits t.cfg 30 29
/-- PRESCALE of a timer (R416). -/
def Timer.prescale (t : Timer) : Nat := bits t.cfg 15 0
/-- CAP_EDGE: 0 off, 1 rising, 2 falling, 3 both (R416). -/
def Timer.edges (t : Timer) : Nat := bits t.cfg 28 27
/-- OUT_EN (R416). -/
def Timer.outEn (t : Timer) : Bool := bit t.cfg 26

/-- TMR_STATUS (R416). -/
def State.tmrStatus (s : State) (t : Nat) : Word :=
  let x := s.timer t
  pack [(x.missed.toNat, 16), (x.lost.toNat, 8), (x.queue.length, 4), (b2n x.overflow, 2), (b2n x.irq, 1),
        (b2n (x.enable && s.power.state != 2), 0)]

/-- The marks of a period event on the timer: PENDING, TMR_OUT, and ENABLE of a ONESHOT (R411). -/
def Timer.mark (t : Timer) : Timer :=
  { t with irq := true, out := if t.outEn then !t.out else t.out, cfg := if t.mode = 2 then setBit t.cfg 31 false else t.cfg }

/-- A period event: count and prescaler restart at 0 and the active Conductor is interrupted (R411, R412). -/
def timerEvent (n : Nat) (s : State) : State :=
  (s.setTimer n { (s.timer n).mark with count := 0, presc := 0 }).send .condIrq [n]

/-- PERIOD was written below the count (R412): nothing else brings a running PERIODIC or ONESHOT timer there. -/
def Timer.past (t : Timer) : Bool := t.mode != 0 && decide (t.period.toNat < t.count.toNat)

/-- One tick of a timer (R411). -/
def timerTick (n : Nat) (s : State) : State :=
  let t := s.timer n
  if t.mode ≠ 0 ∧ t.count = t.period then timerEvent n s else s.setTimer n { t with count := t.count + 1 }

/-- One clk of a timer: a tick when the prescaler has counted PRESCALE + 1 of them (R411); the event in the next clk after PERIOD was written
below the count (R412); none in SLEEP (R415). -/
def timerClk (s : State) (n : Nat) : State :=
  let t := s.timer n
  if !t.enable || s.power.state == 2 then s
  else if t.past then timerEvent n s
  else if t.presc + 1 ≤ t.prescale then s.setTimer n { t with presc := t.presc + 1 }
  else timerTick n (s.setTimer n { t with presc := 0 })

/-- A period event falls due: a running PERIODIC or ONESHOT timer outside SLEEP has counted to PERIOD (R411), or stands past it (R412). -/
def State.timerDue (s : State) (n : Nat) : Bool :=
  let t := s.timer n
  t.enable && t.mode != 0 && s.power.state != 2 && decide (t.period.toNat ≤ t.count.toNat)

/-- PERIOD_EVENT: the tick at which the count of a running PERIODIC or ONESHOT timer equals PERIOD (R411). A FREE timer, a stopped one and one whose
count has not reached PERIOD have no event. -/
def execPeriodEvent (t : Nat) (s : State) : Outcome := withUnit t 16 (.next (if s.timerDue t then timerEvent t s else s))

/-- CAPTURE: an edge at TMR_CAP t (R413, R414): the entry holds the count and the Device Time less 2 clk; a full queue loses it; a second edge
within one clk makes no other entry. No capture is made in SLEEP (R415). -/
def captureEdge (n : Nat) (rising : Bool) (s : State) : State :=
  let t := s.timer n
  let sel := if rising then t.edges == 1 || t.edges == 3 else t.edges == 2 || t.edges == 3
  if !sel || s.power.state == 2 || t.capClk == some s.time.clkCount then s
  else if t.queue.length < 4 then
    s.setTimer n { t with capClk := some s.time.clkCount, queue := t.queue ++ [{ count := t.count, time := s.time.deviceTime - 10 }] }
  else s.setTimer n { t with capClk := some s.time.clkCount, overflow := true, lost := satInc t.lost }

/-- CAPTURE (R413). -/
def execCapture (t : Nat) (rising : Bool) (s : State) : Outcome := withUnit t 16 (.next (captureEdge t rising s))

/-- TMR_CAPQ: a read pops the head (R414); from the host it returns 0 and pops nothing. -/
def readCapq (host : Bool) (n : Nat) (s : State) : State :=
  let t := s.timer n
  if host then { s with mem := { s.mem with lastRead := [0] } }
  else match t.queue with
    | [] => s.setTimer n { t with capqRead := 0 }
    | c :: r => s.setTimer n { t with queue := r, capCnt := c.count, capLo := c.time.setWidth 32, capHi := (c.time >>> 32).setWidth 32,
                                      capqRead := BitVec.ofNat 9 (256 + t.queue.length) }

/-- TMR_CAPQ (R414). -/
def execTmrCapq (host : Bool) (t : Nat) (s : State) : Outcome := withUnit t 16 (.next (readCapq host t s))

-- commands ---------------------------------------------------------------------------------------------------------------------------

/-- Units of a block command's mask (R79). -/
def maskUnits (w : Word) (n : Nat) : List Nat := (List.range n).filter fun i => bit w i

/-- HALTED bits of TMR_CFG: MODE and PRESCALE (R416). -/
def tmrHalted : Word := 0x6000FFFF

/-- TIMER.SET (R420). -/
def cardTimerSet : Card where
  opcode := 0x910
  len := fun e => e.payload.length == 3
  range := fun e _ =>
    bits (e.pw 0) 31 16 == 0 && bits (e.pw 0) 15 0 != 0 && bits (e.pw 1) 30 29 != 3 && bits (e.pw 1) 25 16 == 0
  post := fun e s => need ((maskUnits (e.pw 0) 16).all fun t => !(s.timer t).enable || (((s.timer t).cfg ^^^ e.pw 1) &&& tmrHalted == 0)) eBusy
  run := fun e s => queueBoundary 0x910 e {} s

/-- The configuration of one timer takes effect (R411, R412, R420); an event for a PERIOD below the count follows in the next clk. -/
def setTimerCfg (cfg period : Word) (s : State) (n : Nat) : State :=
  let t := s.timer n
  let starts := !t.enable && bit cfg 31
  s.setTimer n { t with cfg := cfg, period := period, count := if starts then 0 else t.count, presc := if starts then 0 else t.presc }

/-- TIMER.SET at its boundary (R79, R420). -/
def applyTimerSet (e : Entry) (s : State) : State := (maskUnits (e.pw 0) 16).foldl (setTimerCfg (e.pw 1) (e.pw 2)) s

/-- TIMER.READ (R421). -/
def cardTimerRead : Card where
  opcode := 0x911
  len := fun e => e.payload.length == 1
  range := fun e _ => bits (e.pw 0) 31 4 == 0
  run := fun e s =>
    let n := bits (e.pw 0) 3 0
    let t := s.timer n
    finishNow 0x911 e
      ([s.tmrStatus n, t.count, BitVec.ofNat 32 t.queue.length]
        ++ t.queue.flatMap fun (c : Cap) => [c.count, c.time.setWidth 32, (c.time >>> 32).setWidth 32])
      (s.setTimer n { t with queue := [], irq := false, missed := 0, lost := 0 })

-- wake (R415) ----------------------------------------------------------------------------------------------------------------------------

/-- A: ticks a timer makes up for `n` slow-clock periods of 6,103.515625 clk (R415). -/
def sleepTicks (n prescale : Nat) : Nat := n * 6103515625 / (1000000 * (prescale + 1))

/-- A timer at wake: E events are marked as one (R415). -/
def wakeTimer (n : Nat) (s : State) (k : Nat) : State :=
  let t := { s.timer k with presc := 0 }
  if !t.enable then s.setTimer k t
  else
    let sum := t.count.toNat + sleepTicks n t.prescale
    let p := t.period.toNat + 1
    let t1 := { t with count := BitVec.ofNat 32 (if t.mode = 0 then sum else if t.mode = 1 then sum % p else if p ≤ sum then 0 else sum) }
    let events := if t.mode = 0 then 0 else if t.mode = 1 then sum / p else b2n (decide (p ≤ sum))
    if events = 0 then s.setTimer k t1
    else (s.setTimer k { t1.mark with missed := satAdd t.missed events }).send .condIrq [k]

/-- Every timer at wake (R415). -/
def wakeTimers (n : Nat) (s : State) : State := (List.range 16).foldl (wakeTimer n) s

-- one cycle of the main clock (DESIGN CHOICE, log entry 1) -----------------------------------------------------------------------------------

/-- Device Time after one clk: 5 ns of the reference at the present rate (R6, R28, R40, R42); `dtFrac` counts 10^-12 ns. -/
def tickTime (t : Time) : Time :=
  let total := t.dtFrac + ((5 * (10 ^ 12 + t.ratePpt) : Int)).toNat
  { t with deviceTime := t.deviceTime + BitVec.ofNat 64 (total / 10 ^ 12), dtFrac := total % 10 ^ 12, clk := t.clk + 1, clkCount := t.clkCount + 1 }

/-- One clk of the work registers: a waiting ask and a stalled post grow older (R253, R258). -/
def tickSvc (c : ServiceCore) : ServiceCore :=
  { c with waited := if c.waiting then c.waited + 1 else c.waited, stalledFor := if c.stall.isSome then c.stalledFor + 1 else c.stalledFor }

/-- One clk of the Vault's slow clock, whose period is 390,625 / 64 clk (R415, R430). -/
def tickSlow (v : Vault) : Vault :=
  if v.slowAcc + 64 < 390625 then { v with slowAcc := v.slowAcc + 64 } else { v with slowAcc := v.slowAcc + 64 - 390625, slowTicks := v.slowTicks + 1 }

/-- One clk passes (log entry 1). In SLEEP Device Time and the timers stand (R415, R483); before the system PLL has locked, and
in reset, nothing moves (R472). -/
def clkPass (s : State) : State :=
  if s.inReset || s.power.state == 2 || decide (s.power.phase.toNat < 2) || s.power.error == 1 then s
  else
    let s1 := { s with time := tickTime s.time, vault := tickSlow s.vault, dsp := { s.dsp with sc := s.dsp.sc.mapVals fun _ c => tickSvc c } }
    (List.range 16).foldl timerClk s1

end Sys2Proof.Machine
end

