-- ==== Sys2Proof/Machine/Uarts.lean ====
section
/-! DEFINITION. The UARTs (chapter 14, R400 to R410, R417 to R419) and their MIDI intake (R302). -/

namespace Sys2Proof.Machine

/-- UART_CFG.ENABLE (R409). -/
def Uart.enable (u : Uart) : Bool := bit u.cfg 31
/-- UART_CFG.MODE: true RAW (R405). -/
def Uart.raw (u : Uart) : Bool := bit u.cfg 30
/-- UART_CFG.DATA8 (R409). -/
def Uart.data8 (u : Uart) : Bool := bit u.cfg 25
/-- UART_CFG.PARITY (R409). -/
def Uart.parity (u : Uart) : Nat := bits u.cfg 24 23

/-- Change the record of UART `n`. -/
def State.onUart (s : State) (n : Nat) (f : Uart → Uart) : State := s.setUart n (f (s.uart n))

/-- UART_STATUS (R409). -/
def Uart.statusWord (u : Uart) : Word :=
  pack [(u.overruns.toNat, 24), (u.framing.toNat, 16), (u.parityErr.toNat, 8), (b2n u.brk, 4), (b2n u.overrun, 3),
        (b2n (u.txShift.isSome || !u.fifo.isEmpty), 2), (b2n u.rxBusy, 1)]

/-- UART_HOLD (R409). -/
def Uart.holdWord (u : Uart) : Word :=
  pack [(b2n u.holdPerr, 10), (b2n u.holdFerr, 9), (b2n u.holdValid, 8), (u.holdData.toNat, 0)]

-- the line (R400, R401, R408) -----------------------------------------------------------------------------------------------------------

/-- Data bits of a character (R400). -/
def Uart.dataBits (u : Uart) : Nat := if u.data8 then 8 else 7

/-- The data bits of a byte in the UART's format. -/
def Uart.dataOf (u : Uart) (b : Byte) : Byte := if u.data8 then b else b &&& 0x7F

/-- Parity bit of data bits (R400): even makes the number of ones even, odd makes it odd. -/
def Uart.parityOf (u : Uart) (d : Byte) : Bool := ((List.range 8).foldl (fun a i => a != d.getLsbD i) false) != (u.parity == 2)

/-- The bits of a character in the order sent (R400): start, data from the least significant bit, parity, one or two stop bits. -/
def Uart.charBits (u : Uart) (b : Byte) : List Bool :=
  false :: (List.range u.dataBits).map (fun i => b.getLsbD i) ++ (if u.parity = 0 then [] else [u.parityOf (u.dataOf b)])
    ++ List.replicate (1 + b2n (bit u.cfg 22)) true

/-- UART_CFG.SIR (R408). -/
def Uart.sir (u : Uart) : Bool := bit u.cfg 29

/-- Length of a SIR pulse in 1/256 clk (R408): 3 samples of DIV / 256 clk, or 326 clk with SIR_FIXED. -/
def Uart.pulseLen (u : Uart) : Nat := if bit u.cfg 28 then 326 * 256 else 3 * u.txDiv.toNat

/-- Level of a bit `at` 1/256 clk after it began (R400, R408): SIR sends a 0 as a pulse at its start and a 1 as none. -/
def Uart.bitLevel (u : Uart) (b : Bool) (at_ : Nat) : Bool := if u.sir then !b && decide (at_ < u.pulseLen) else b

/-- A pulse of a SIR line is accepted: 100 ns or longer (R408). -/
def pulseOk (p : Nat × Nat) : Bool := decide (20 ≤ p.2)

/-- Clk from sample 0 of a character to sample 7 of its bit `k`, to the nearest clk (R401, R402). -/
def Uart.judgedAt (u : Uart) (k : Nat) : Nat := ((16 * k + 7) * u.rxDiv.toNat + 128) / 256

/-- Level of bit `k` of a character on the line as R408 stretches it: 0 for one bit from the rising edge of each accepted pulse. -/
def Uart.stretched (u : Uart) (ps : List (Nat × Nat)) (k : Nat) : Bool :=
  !ps.any fun p => pulseOk p && decide (p.1 ≤ u.judgedAt k) && decide (256 * (u.judgedAt k - p.1) < 16 * u.rxDiv.toNat)

/-- What the receiver judges of a character (R402): data bits, parity bit, first stop bit. `parity`, `stop`: the levels at sample 7 of the last two;
of a SIR line the pulses give them (R408). -/
def Uart.judge (u : Uart) (parity stop : Bool) : CharLine → Byte × Bool × Bool
  | .levels d => (u.dataOf d, parity, stop)
  | .pulses ps =>
    let d := (List.range u.dataBits).foldl (fun (a : Byte) i => setBit a i (u.stretched ps (1 + i))) 0
    let n := 1 + u.dataBits
    (d, u.stretched ps n, u.stretched ps (n + b2n (u.parity != 0)))

/-- UART_TXD at rest: 1, and 0 in SIR shaping (R406). -/
def Uart.idleLevel (u : Uart) : Bool := !bit u.cfg 29

/-- A read of UART_HOLD clears it (R404, R409). -/
def Uart.clearHold (u : Uart) : Uart := { u with holdData := 0, holdValid := false, holdFerr := false, holdPerr := false }

-- receiving (R402 to R405) -------------------------------------------------------------------------------------------------------------

/-- START_BIT (R402, R403, R407): the receiver starts a character at the divider in force; none is accepted before the line has
been idle for 10 bit times after enabling (R410). -/
def execStartBit (u : Nat) (s : State) : Outcome :=
  withUnit u 8 <| .next <|
    let x := s.uart u
    if x.enable && !x.idleWait && !x.rxBusy then s.setUart u { x with rxBusy := true, rxDiv := x.div } else s

/-- RECEIVER_RETURNS_TO_IDLE (R402): the start bit read 1 at its sample 7. -/
def execReceiverReturnsToIdle (u : Nat) (s : State) : Outcome :=
  withUnit u 8 (.next (s.onUart u fun x => { x with rxBusy := false, rxDiv := x.div }))

/-- LINE_IDLE_TEN_BIT_TIMES (R410); a receiver stands in SLEEP (R415). -/
def execLineIdleTenBitTimes (u : Nat) (s : State) : Outcome :=
  withUnit u 8 (.next (s.onUart u fun x => if x.enable && s.power.state != 2 then { x with idleWait := false } else x))

/-- The open session of UART `u` (R300). -/
def uartSession (u : Nat) (s : State) : Option Nat :=
  (openSessions s).find? fun i => (s.session i).transport == 2 && (s.session i).port == u

/-- Count a discarded message in the UART's session, when it has one (R302). -/
def uartIgnored (u : Nat) (s : State) : State :=
  match uartSession u s with
  | some i => countIgnored i s
  | none => s

/-- A complete channel voice message of UART `u` (R300, R302, R314). -/
def uartMessage (u st d1 d2 : Nat) (r : BitVec 64) (s : State) : State :=
  let m := midi1Message (st / 16) d1 d2
  match uartSession u s with
  | some i => receiveMessage i (some u) (st % 16) m none r s
  | none =>
    match openSession 2 u 0 s with
    | some (i, s1) => receiveMessage i (some u) (st % 16) m none r (s1.onSession i fun y => { y with activeSense := (s.uart u).sensed })
    | none => refuseOpen s

/-- Data bytes of a channel voice message. -/
def midiArgs (st : Nat) : Nat := if st / 16 = 0xC ∨ st / 16 = 0xD then 1 else 2

/-- The intake's parser takes one byte (R302): running status, real-time bytes interleaved; a system byte of another kind ends
running status (PRESUMED, log entry 23). -/
def intakeByte (u : Nat) (b : Byte) (r : BitVec 64) (s : State) : State :=
  let x := s.uart u
  let n := b.toNat
  if n = 0xFE then
    let s1 := s.setUart u { x with sensed := true }
    (match uartSession u s1 with | some i => s1.onSession i fun y => { y with activeSense := true } | none => s1)
  else if 0xF8 ≤ n then uartIgnored u s
  else if n = 0xF0 then uartIgnored u (s.setUart u { x with status := b, args := [] })
  else if n = 0xF7 then
    let s1 := s.setUart u { x with status := 0, args := [] }
    if x.status = 0xF0 then s1 else uartIgnored u s1
  else if 0xF1 ≤ n then uartIgnored u (s.setUart u { x with status := 0, args := [] })
  else if 0x80 ≤ n then s.setUart u { x with status := b, args := [] }
  else if x.status.toNat < 0x80 ∨ x.status = 0xF0 then s
  else
    let as := x.args ++ [b]
    if as.length < midiArgs x.status.toNat then s.setUart u { x with args := as }
    else uartMessage u x.status.toNat (as.getD 0 0).toNat (as.getD 1 0).toNat r (s.setUart u { x with args := [] })

/-- Errors a completed character counts (R402, R409). -/
def Uart.countErrors (u : Uart) (ferr perr brk : Bool) : Uart :=
  { u with framing := if ferr then satInc u.framing else u.framing, parityErr := if perr then satInc u.parityErr else u.parityErr,
           brk := u.brk || brk }

/-- A character moves into UART_HOLD, over an older one if that is still held (R404). -/
def Uart.hold (u : Uart) (data : Byte) (ferr perr : Bool) : Uart :=
  { u with holdData := data, holdValid := true, holdFerr := ferr, holdPerr := perr, overrun := u.overrun || u.holdValid,
           overruns := if u.holdValid then satInc u.overruns else u.overruns }

/-- A character completes (R402, R404, R405): a parity bit that disagrees with the data marks it. -/
def charComplete (u : Nat) (line : CharLine) (parity stop : Bool) (r : BitVec 64) (s : State) : State :=
  let x := s.uart u
  if !x.enable || x.idleWait then s
  else
    let (d, p, st) := x.judge parity stop line
    let perr := x.parity != 0 && p != x.parityOf d
    let x1 := { x.countErrors (!st) perr (!st && d == 0) with rxBusy := false, rxDiv := x.div }
    if x.raw then s.setUart u (x1.hold d (!st) perr)
    else if !st || perr then s.setUart u { x1 with status := 0, args := [] }
    else intakeByte u d r (s.setUart u x1)

/-- UART_CHARACTER_COMPLETE (R402). -/
def execUartCharacterComplete (u : Nat) (line : CharLine) (parity stop : Bool) (r : BitVec 64) (s : State) : Outcome :=
  withUnit u 8 (.next (charComplete u line parity stop r s))

/-- UART_HOLD: the active Conductor's read returns the held character and clears it (R404, R409). -/
def execUartHold (u : Nat) (s : State) : Outcome :=
  withUnit u 8 (.next { s.onUart u Uart.clearHold with mem := { s.mem with lastRead := [(s.uart u).holdWord] } })

/-- RAW_CHARACTER_TAKEN: the active Conductor takes the held character into the ring; a full ring discards it (R405). None is
taken while no Conductor serves. -/
def takeRaw (u : Nat) (s : State) : State :=
  let x := s.uart u
  if !x.raw || !x.holdValid || s.condDown then s
  else if x.ring.length < 1024 then s.setUart u { x.clearHold with ring := x.ring ++ [x.holdData] }
  else s.setUart u { x.clearHold with overruns := satInc x.overruns }

/-- RAW_CHARACTER_TAKEN (R405). -/
def execRawCharacterTaken (u : Nat) (s : State) : Outcome := withUnit u 8 (.next (takeRaw u s))

-- transmitting (R406, R407) ---------------------------------------------------------------------------------------------------------------

/-- An idle transmitter starts the next byte of its FIFO in the clk `now`, at the divider in force (R406, R407). -/
def Uart.startTx (now : Nat) (u : Uart) : Uart :=
  match u.txShift, u.fifo with
  | none, b :: r => { u with txShift := some b, fifo := r, txDiv := u.div, txClk := now }
  | _, _ => u

/-- UART_CHARACTER_SENT: the transmitter has sent the data bits of its byte and starts the next (R400, R406). -/
def execUartCharacterSent (u : Nat) (s : State) : Outcome :=
  withUnit u 8 <| .next <| s.onUart u fun x =>
    match x.txShift with
    | some b => Uart.startTx s.time.clkCount { x with sent := x.sent ++ [x.dataOf b], txShift := none }
    | none => x

/-- Level of UART_TXD in the clk `now` (R400, R406, R408): the character that goes out, bit by bit at 16 x DIV / 256 clk each; the level of rest
otherwise. -/
def Uart.txd (u : Uart) (now : Nat) : Bool :=
  match u.txShift with
  | some b =>
    let at_ := 256 * (now - u.txClk)
    let len := 16 * u.txDiv.toNat
    u.bitLevel ((u.charBits b).getD (at_ / len) true) (at_ % len)
  | none => u.idleLevel

/-- Bytes of a UART.SEND (R418). -/
def sendBytes (e : Entry) : List Byte := (List.range (bits (e.pw 0) 15 8 + 1)).map fun i => lane (e.pw (1 + i / 4)) (i % 4)

/-- Unused bytes of a UART.SEND are 0. -/
def sendPadOk (e : Entry) : Bool :=
  let n := bits (e.pw 0) 15 8 + 1
  (List.range ((n + 3) / 4 * 4 - n)).all fun i => lane (e.pw (1 + (n + i) / 4)) ((n + i) % 4) == 0

/-- Bytes of waiting UART.SEND commands for UART `u`: they have their room (DEDUCED, log entry 26). -/
def bytesWaiting (u : Nat) (s : State) : Nat :=
  (s.mbx.jobs.filter fun jb => jb.opcode == 0x901 && bits (jb.e.pw 0) 2 0 == u).foldl (fun a jb => a + bits (jb.e.pw 0) 15 8 + 1) 0

/-- UART.SEND (R418). -/
def cardUartSend : Card where
  opcode := 0x901
  len := fun e => decide (2 ≤ e.payload.length) && e.payload.length == 1 + (bits (e.pw 0) 15 8 + 4) / 4
  range := fun e _ => bits (e.pw 0) 31 16 == 0 && bits (e.pw 0) 7 3 == 0 && sendPadOk e
  flags := fun e _ => !e.stage
  post := fun e s =>
    let u := bits (e.pw 0) 2 0
    firstFail [ need (s.uart u).enable eState,
                need (decide ((s.uart u).fifo.length + bytesWaiting u s + bits (e.pw 0) 15 8 + 1 ≤ 256)) eNoslot ]
  run := fun e s =>
    if e.stamped then
      let t := if classify e.stamp s.time.reach = .late then s.time.reach else e.stamp
      queueStamped 0x901 e { stamp := t } t [] s
    else queueBoundary 0x901 e {} s

/-- Bytes enter the transmit FIFO (R406); a UART disabled meanwhile takes none. -/
def sendNow (stamped : Bool) (e : Entry) (s : State) : State :=
  let u := bits (e.pw 0) 2 0
  let x := s.uart u
  if !x.enable then s
  else
    let busy := !x.fifo.isEmpty
    s.setUart u (Uart.startTx s.time.clkCount { x with fifo := x.fifo ++ sendBytes e, lateTx := if stamped && busy then satInc x.lateTx else x.lateTx })

/-- A released stamped UART.SEND waits for its moment in the frame after its stamp's (R406). -/
def releaseSend (j : Word) (s : State) : State :=
  { s with mbx := { s.mbx with jobs := s.mbx.jobs.map fun jb => if jb.j = j then { jb with phase := .held } else jb } }

/-- The moment of effect of a stamped UART.SEND (R406). -/
def stampedSend (jb : Job) (s : State) : State :=
  completeJob jb stDone [] (sendNow true jb.e { s with mbx := { s.mbx with jobs := s.mbx.jobs.filter fun x => x.j != jb.j } })

/-- A stamped UART.SEND whose frame has been released waits for its moment. -/
def sendHeld (jb : Job) : Bool := jb.opcode == 0x901 && jb.phase == .held

/-- Its moment has come (R406): (s - f) / 16 base samples after the tick of the frame that follows the one of the stamp. -/
def State.sendDue (s : State) (jb : Job) : Bool :=
  let d := stampDist jb.stamp (s.time.stamp - BitVec.ofNat 32 s.tpf)
  sendHeld jb && decide (d < s.tpf) && decide (d ≤ s.ticksInto)

/-- Insert a send in stamp order, after those of equal stamp. -/
def insertSend (x : Job) : List Job → List Job
  | [] => [x]
  | y :: r => if stampDist x.stamp y.stamp < 0 then x :: y :: r else y :: insertSend x r

/-- Held sends take effect in stamp order (R406). -/
def runSends (which : Job → Bool) (s : State) : State :=
  ((s.mbx.jobs.filter fun jb => sendHeld jb && which jb).foldl (fun l jb => insertSend jb l) []).foldl (fun s jb => stampedSend jb s) s

/-- UART_STAMPED_SEND (R406): the moment of the command of journal index `j` has come; those of earlier stamps go before it. -/
def execUartStampedSend (j : Word) (s : State) : Outcome :=
  .next <| match s.mbx.jobs.find? fun jb => jb.j == j && s.sendDue jb with
    | some x => runSends (fun jb => jb.j == j || decide (stampDist jb.stamp x.stamp < 0)) s
    | none => s

/-- Stamped sends whose moment has passed by the tick whose frame begins at `t` (R406). -/
def flushSends (t : Word) (s : State) : State := runSends (fun jb => decide (stampDist (jb.stamp + BitVec.ofNat 32 s.tpf) t < 0)) s

-- configuration (R410, R417, R419) ----------------------------------------------------------------------------------------------------------

/-- HALTED bits of UART_CFG (R409). -/
def uartHalted : Word := 0x73C00000

/-- UART.SET (R417). -/
def cardUartSet : Card where
  opcode := 0x900
  len := fun e => e.payload.length == 3
  range := fun e _ =>
    bits (e.pw 0) 31 8 == 0 && bits (e.pw 0) 7 0 != 0 && bits (e.pw 1) 27 26 == 0 && bits (e.pw 1) 21 0 == 0 && bits (e.pw 1) 24 23 != 3
    && bits (e.pw 2) 31 24 == 0 && decide (1067 ≤ (e.pw 2).toNat)
  agree := fun e _ => !(bit (e.pw 1) 29 && decide ((e.pw 2).toNat < 27777))
  post := fun e s => need ((maskUnits (e.pw 0) 8).all fun u => !(s.uart u).enable || (((s.uart u).cfg ^^^ e.pw 1) &&& uartHalted == 0)) eBusy
  run := fun e s => queueBoundary 0x900 e {} s

/-- Disabling discards the shifters, UART_HOLD, the ring and the FIFO (R410). -/
def Uart.stop (u : Uart) : Uart :=
  { u.clearHold with rxBusy := false, ring := [], fifo := [], txShift := none, status := 0, args := [] }

/-- The configuration of one UART takes effect (R300, R407, R410). -/
def setUartCfg (cfg div : Word) (s : State) (n : Nat) : State :=
  let x := s.uart n
  let d : BitVec 24 := div.setWidth 24
  let x1 := { x with cfg := cfg, div := d, rxDiv := if x.rxBusy then x.rxDiv else d, txDiv := if x.txShift.isSome then x.txDiv else d }
  if x.enable && !bit cfg 31 then
    let s1 := s.setUart n { x1.stop with idleWait := true, sensed := false, rxDiv := d, txDiv := d }
    match uartSession n s1 with
    | some i => markClosing i none s1
    | none => s1
  else if !x.enable && bit cfg 31 then s.setUart n { x1 with idleWait := true }
  else s.setUart n x1

/-- UART.SET at its boundary (R79, R417). -/
def applyUartSet (e : Entry) (s : State) : State := (maskUnits (e.pw 0) 8).foldl (setUartCfg (e.pw 1) (e.pw 2)) s

/-- Bytes as words, byte i in lane i mod 4 (R418). -/
def packBytes (bs : List Byte) : List Word :=
  (List.range ((bs.length + 3) / 4)).map fun w => pack ((List.range 4).map fun l => ((bs.getD (4 * w + l) 0).toNat, 8 * l))

/-- UART.RECV (R419). -/
def cardUartRecv : Card where
  opcode := 0x902
  len := fun e => e.payload.length == 1
  range := fun e _ =>
    bits (e.pw 0) 31 26 == 0 && bits (e.pw 0) 15 9 == 0 && bits (e.pw 0) 7 3 == 0 && decide (bits (e.pw 0) 25 16 ≤ 1000)
  post := fun e s => need (bits (e.pw 0) 25 16 == 0 || (s.uart (bits (e.pw 0) 2 0)).raw) eState
  run := fun e s =>
    let u := bits (e.pw 0) 2 0
    let x := s.uart u
    let got := x.ring.take (bits (e.pw 0) 25 16)
    let x1 := { x with ring := x.ring.drop got.length }
    finishNow 0x902 e ([x.statusWord, pack [(x.lateTx.toNat, 16), (got.length, 0)]] ++ packBytes got)
      (s.setUart u (if bit (e.pw 0) 8 then
        { x1 with overruns := 0, framing := 0, parityErr := 0, brk := false, overrun := false, lateTx := 0 } else x1))

/-- SLEEP stops the UARTs: a character in a shifter is lost, and each receiver waits for 10 idle bit times (R415). -/
def Uart.sleep (u : Uart) : Uart := { u with rxBusy := false, txShift := none, idleWait := true }

end Sys2Proof.Machine
end

