-- ==== Sys2Proof/Machine/Times.lean ====
section
/-! DEFINITION. Time: the counters and their reads, the clock of record, gPTP, and the time commands (chapter 02, R24 to R56). -/

namespace Sys2Proof.Machine

-- counters (R28 to R30) --------------------------------------------------------------------------------------------------------------

/-- TM_DTIME_LO: a read fills the read buffers (R30). -/
def readDtimeLo (s : State) : State :=
  let t := s.time
  { s with
    time := { t with bufDtHi := (t.deviceTime >>> 32).setWidth 32, bufFcLo := t.frameCount.setWidth 32,
                     bufFcHi := (t.frameCount >>> 32).setWidth 32, bufStamp := s.liveStamp },
    mem := { s.mem with lastRead := [t.deviceTime.setWidth 32] } }

/-- TM_DTIME_LO (R30). -/
def execTmDtimeLo (s : State) : Outcome := .next (readDtimeLo s)

/-- Stamp32 as a timeline reads now (R28, R29). -/
def State.stampNow (s : State) (b : Nat) : Word := if b < 8 ∧ s.ownTimeline b then s.stampOf b else s.liveStamp

/-- Words of TIME.GET (R53). -/
def timeWords (b : Nat) (s : State) : List Word :=
  let t := s.time
  let off := fun d => if (s.dom d).locked then (s.dom d).offset else 0
  let media := fun d => if (s.dom d).locked then (s.dom d).media else 0
  [t.deviceTime.setWidth 32, (t.deviceTime >>> 32).setWidth 32, (s.frameOf b).setWidth 32, (s.frameOf b >>> 32).setWidth 32,
   s.stampNow b, s.reachOf b, s.tmStatus, (off 0).setWidth 32, (off 0 >>> 32).setWidth 32, (off 2).setWidth 32, (off 2 >>> 32).setWidth 32,
   media 0, media 2]

/-- TIME.GET (R53). -/
def cardTimeGet : Card where
  opcode := 0x100
  modes := [.play, .follow, .render, .mirror, .service, .load]
  len := fun e => decide (e.payload.length ≤ 1)
  range := fun e _ => bits (e.pw 0) 31 1 == 0
  run := fun e s =>
    finishNow 0x100 e (timeWords e.target.toNat s)
      (if bit (e.pw 0) 0 then { s with time := { s.time with launchDrop := 0, launchLate := 0, tsCollide := 0 } } else s)

-- the clock of record (R40 to R44) ---------------------------------------------------------------------------------------------------------

/-- A ramp starts from the rate reached so far towards `target` (R42, R43). -/
def aimRate (target : Int) (s : State) : State :=
  { s with time := { s.time with targetPpt := target, rampFrom := s.time.ratePpt, rampFrames := 0 } }

/-- The clock of record changes at a boundary: a ramp starts towards the source's rate (R42, R43); a source that has unlocked
meanwhile is in holdover (R44). -/
def startCor (c : BitVec 2) (s : State) : State :=
  let ok := c == 0 || (s.dom (corDom c.toNat)).locked
  let target := if c = 0 then 0 else if ok then (s.dom (corDom c.toNat)).ratePpt else s.time.ratePpt
  gptpRef { aimRate target s with time := { (aimRate target s).time with activeCor := c, switching := decide (target ≠ s.time.ratePpt), holdover := !ok } }

/-- The ramp has reached its rate (R42). -/
def endRamp (s : State) : State :=
  { s with time := { s.time with ratePpt := s.time.targetPpt, switching := false, rampFrom := s.time.targetPpt, rampFrames := 0 } }

/-- Parts per 10^12 by which the rate has moved `k` frames into a ramp of 1 ppm/s (R42): 10^6 per second, over 6,000 or 5,512.5 frames. -/
def rampMoved (rate : BitVec 3) (k : Nat) : Nat := if family48 rate then k * 500 / 3 else k * 80000 / 441

/-- The ramp reaches its rate within `k` frames of its start (R42). -/
def rampDone (s : State) (k : Nat) : Bool := decide ((s.time.targetPpt - s.time.rampFrom).natAbs ≤ rampMoved s.time.rate k)

/-- The phase that a domain gathers against Device Time since the last time it was taken goes into its offset (R40, R42). -/
def absorbPhase (s : State) (d : Nat) : State :=
  let x := s.dom d
  if x.locked then
    let total := x.offFrac + (x.ratePpt - s.time.ratePpt) * (s.time.deviceTime - s.time.phaseDt).toNat
    let moved := BitVec.ofInt 64 (total.fdiv (10 ^ 12))
    s.setDom d { x with offset := x.offset + moved, estimate := x.estimate + moved, offFrac := total.fmod (10 ^ 12) }
  else s

/-- While a ramp runs, the domain offsets take the phase gathered so far (R42). -/
def tickPhase (s : State) : State :=
  let t := if s.time.switching then [0, 2].foldl absorbPhase s else s
  { t with time := { t.time with phaseDt := t.time.deviceTime } }

/-- RAMP_END (R42): the ramp reaches the new source's rate within the coming frame, and the phase gathered up to it enters the offsets; before
that there is no such event. -/
def execRampEnd (s : State) : Outcome := .next (if s.time.switching && rampDone s (s.time.rampFrames + 1) then endRamp (tickPhase s) else s)

/-- The ramp of one frame (R42). -/
def tickRamp (s : State) : State :=
  let k := s.time.rampFrames + 1
  if rampDone s k then endRamp s
  else
    let m : Int := rampMoved s.time.rate k
    { s with time := { s.time with rampFrames := k,
                                   ratePpt := if s.time.rampFrom < s.time.targetPpt then s.time.rampFrom + m else s.time.rampFrom - m } }

/-- A clock of record that TM_CFG asks for takes effect at a boundary (R42, R51). -/
def tickCor (s : State) : State :=
  if s.time.corDue then
    let s1 := { s with time := { s.time with corDue := false } }
    if s.time.cor = s.time.activeCor then s1 else startCor s.time.cor s1
  else s

/-- A change of the clock of record takes place at a boundary: one that was asked for, or an automatic switch (R42, R44). -/
def tickSwitch (s0 : State) : State :=
  let s := tickCor s0
  match s.time.switchTo with
  | none => s
  | some c =>
    let s1 := { s with time := { s.time with switchTo := none } }
    if (s.dom (corDom c.toNat)).locked ∧ s.time.holdover then startCor c s1 else s1

/-- Media offset of a locked domain at a boundary (R38). -/
def mediaOffset (s : State) (d : Nat) : Word :=
  let t := (s.time.deviceTime + (s.dom d).offset).toNat
  BitVec.ofNat 32 (t * baseRate s.time.rate * 16 / 10 ^ 9) - s.time.stamp

/-- The media offsets are recomputed at every boundary; those of an unlocked domain stay frozen (R38, R44). -/
def tickMedia (s : State) : State :=
  [0, 2].foldl (fun s d => if (s.dom d).locked then s.setDom d { s.dom d with media := mediaOffset s d } else s) s

/-- A domain locks (R41, R44): its offset and rate are known; a clock of record in holdover ramps back. -/
def lockDomain (d : Nat) (offset : BitVec 64) (ratePpt : Int) (s0 : State) : State :=
  let s := tickPhase s0
  let s1 := s.setDom d { s.dom d with locked := true, everLocked := true, offset := offset, estimate := offset, ratePpt := ratePpt, inBand := 16 }
  if s.time.activeCor ≠ 0 ∧ corDom s.time.activeCor.toNat = d then
    gptpRef { aimRate ratePpt s1 with time := { (aimRate ratePpt s1).time with holdover := false, switching := decide (ratePpt ≠ s1.time.ratePpt) } }
  else s1

/-- A domain unlocks (R41, R44, R366, R368). -/
def unlockDomain (d : Nat) (s : State) : State :=
  let s0 := if (s.dom d).locked then { s with time := { s.time with lastUnlock := BitVec.ofNat 2 d } } else s
  let s1 := s0.setDom d { s0.dom d with locked := false, inBand := 0 }
  if s.time.activeCor ≠ 0 ∧ corDom s.time.activeCor.toNat = d then
    let alt : BitVec 2 := if d = 0 then 2 else 1
    let nextCor := if s1.time.autoSwitch && (s1.dom (corDom alt.toNat)).locked then some alt else none
    let s2 := { aimRate s1.time.ratePpt s1 with
      time := { (aimRate s1.time.ratePpt s1).time with holdover := true, switching := false, switchTo := nextCor } }
    gptpRef s2
  else s1

/-- A tracked domain: 0, or 2 for the second (R41). -/
def withDom (d : Nat) (s : State) (f : State → State) : Outcome := if d = 0 ∨ d = 2 then .next (f s) else .refused .noSuchUnit

/-- A rate within ±100 ppm of the reference (R16, R41). -/
def rateOk (ratePpt : Int) : Bool := decide (ratePpt.natAbs ≤ 100000000)

/-- A domain whose offset has held within 100 ns for 16 Sync intervals locks, unless its rate lies outside ±100 ppm: then it unlocks
(R16, R41). -/
def domainHolds (d : Nat) (offset : BitVec 64) (ratePpt : Int) (s : State) : State :=
  if rateOk ratePpt then lockDomain d offset ratePpt s else if (s.dom d).locked then unlockDomain d s else s

/-- DOMAIN_LOCK (R41): the offset has held within 100 ns for 16 Sync intervals. -/
def execDomainLock (dom : Nat) (offset : BitVec 64) (ratePpt : Int) (s : State) : Outcome := withDom dom s (domainHolds dom offset ratePpt)

/-- The announce receipt timeout of a domain: the master it followed is gone (R41). -/
def forgetMaster (d : Nat) (s : State) : State := s.setDom d { s.dom d with best := [] }

/-- DOMAIN_UNLOCK (R44): announce receipt timeout, or a rate outside ±100 ppm (R41). -/
def execDomainUnlock (dom : Nat) (s : State) : Outcome :=
  withDom dom s fun s => forgetMaster dom (if (s.dom dom).locked then unlockDomain dom s else s)

-- gPTP messages (R41, R45, R46) ----------------------------------------------------------------------------------------------------------------

/-- Port of a tracked domain (R51). -/
def State.domPort (s : State) (d : Nat) : Nat := if d = 0 then s.time.dom0Port.toNat else s.time.dom2Port.toNat

/-- A Sync reaches the servo (R41): origin time and the Device Time taken. It locks after 16 intervals within 100 ns, and
unlocks on a rate outside ±100 ppm. The domain's offset follows the servo's estimate while the domain is locked, and is frozen in
holdover until it locks again (R44, R363, R366). -/
def servoSync (d : Nat) (origin taken : BitVec 64) (s : State) : State :=
  let x := s.dom d
  let r := Config.servo origin taken x.pdelay x.estimate
  let n := if (r.1 - x.estimate).toInt.natAbs ≤ 100 then Nat.min (x.inBand + 1) 16 else 0
  let s1 := s.setDom d { x with offset := if x.locked then r.1 else x.offset, estimate := r.1, ratePpt := r.2, inBand := n, lastSync := taken,
                                syncWait := false }
  if !rateOk r.2 then (if x.locked then unlockDomain d s1 else s1.setDom d { s1.dom d with inBand := 0 })
  else if x.locked then
    (if s.time.activeCor ≠ 0 ∧ corDom s.time.activeCor.toNat = d ∧ s.time.targetPpt ≠ r.2 then aimRate r.2 s1 else s1)
  else if n = 16 then lockDomain d r.1 r.2 s1
  else s1

/-- Device Time at the message timestamp point (R45): as read at interrupt entry, `entry` ns after the message reached that point in the
device, less 30 ns and the port's PHY latency. -/
def takenTime (s : State) (port : Nat) (sent : Bool) (entry : BitVec 64) : BitVec 64 :=
  let lat := if port = 0 then (if sent then s.time.phyOut0 else s.time.phyIn0) else (if sent then s.time.phyOut1 else s.time.phyIn1)
  s.time.deviceTime + entry - 30 - lat.setWidth 64

/-- The device's own priority vector in a domain (R41): its priority1 before the rest, which the spec does not give. -/
def ownVector (x : Dom) : List Word := x.priority1.setWidth 32 :: Config.clockIdentity

/-- The device is the grandmaster of a domain (R41): capable of it, and no better master is announced. -/
def Dom.master (x : Dom) : Bool := x.priority1 != 255 && (x.best.isEmpty || Config.betterMaster (ownVector x) x.best)

/-- An event message that the device sends; its timestamp comes with its GPTP_EVENT_MESSAGE (R41, R45). -/
def sendEvent (d port : Nat) (k : PtpSent) (data : List Nat) (s : State) : State :=
  (s.setDom d { s.dom d with sent := (s.dom d).sent ++ [k] }).send (match k with | .pdelayReq => .pdelayReq | .pdelayResp => .pdelayResp | .sync => .sync)
    (d :: port :: data)

/-- The timestamp of a sent message, or none when a collision took it (R45, R46): a Pdelay_Req keeps it for the exchange, a
Pdelay_Resp and a two-step Sync pass it on in their follow-up. -/
def sentStamp (d port : Nat) (taken : Option (BitVec 64)) (s : State) : State :=
  let x := s.dom d
  let s1 := s.setDom d { x with sent := x.sent.tail }
  match x.sent.head?, taken with
  | some .pdelayReq, some t => s1.setDom d { s1.dom d with reqAt := some t }
  | some .pdelayReq, none => s1.setDom d { s1.dom d with pdelayBad := true }
  | some .pdelayResp, some t => s1.send .pdelayRespFollowUp [d, port, t.toNat]
  | some .sync, some t => s1.send .followUp [d, port, (t + x.offset).toNat]
  | _, _ => s1

/-- A received event message with its timestamp (R41): a Sync reaches the servo unless the device is itself the grandmaster. -/
def receivedStamp (d port : Nat) (m : PtpEvent) (taken : BitVec 64) (s : State) : State :=
  match m with
  | .sync o =>
    if (s.dom d).master then s
    else match o with
      | some t => servoSync d t taken s
      | none => s.setDom d { s.dom d with lastSync := taken, syncWait := true }
  | .pdelayReq => sendEvent d port .pdelayResp [taken.toNat] s
  | .pdelayResp => s.setDom d { s.dom d with pdelayWait := true, respAt := taken }
  | .sent => sentStamp d port (some taken) s

/-- An event message discarded for timing (R46): the exchange or the Sync it belongs to is lost. -/
def lostStamp (d port : Nat) (m : PtpEvent) (s : State) : State :=
  match m with
  | .pdelayResp => s.setDom d { s.dom d with pdelayBad := true }
  | .sync _ => s.setDom d { s.dom d with syncWait := false }
  | .pdelayReq => s
  | .sent => sentStamp d port none s

/-- A sent message passes its timestamp point while no Conductor is active: it gets no timestamp (R47). -/
def unstampedSent (d port : Nat) (m : PtpEvent) (s : State) : State :=
  if s.macUp && m == .sent && s.domPort d == port then s.setDom d { s.dom d with sent := (s.dom d).sent.tail } else s

/-- An event message is timestamped, or discarded for timing when it collides with one less than 100 ns before (R45, R46); none is
while no Conductor is active (R47). -/
def ptpEvent (d port : Nat) (m : PtpEvent) (entry : BitVec 64) (s : State) : State :=
  if s.condDown || !s.macUp then unstampedSent d port m s
  else
    let now := s.time.deviceTime
    let hit := match s.time.lastTs with | some t => decide ((now - t).toNat < 100) | none => false
    let s1 := { s with time := { s.time with lastTs := some now } }
    let s2 := if hit then { s1 with time := { s1.time with tsCollide := satInc s1.time.tsCollide } } else s1
    if s.domPort d ≠ port then s2
    else if hit then lostStamp d port m s2
    else receivedStamp d port m (takenTime s port (m == .sent) entry) s2

/-- GPTP_EVENT_MESSAGE (R45, R46); `entry`: how many ns later the timestamp interrupt is entered, which only a collision makes other than
30 (log entry 62). -/
def execGptpEventMessage (dom port : Nat) (m : PtpEvent) (entry : BitVec 64) (s : State) : Outcome :=
  withUnit port 2 (withDom dom s (ptpEvent dom port m entry))

/-- FOLLOW_UP (R41): completes a two-step Sync. -/
def execFollowUp (dom : Nat) (origin : BitVec 64) (s : State) : Outcome :=
  withDom dom s (taken (.followUp dom origin) fun s => if (s.dom dom).syncWait then servoSync dom origin (s.dom dom).lastSync s else s)

/-- The peer delay of an exchange (R41): half of what the round trip lasted beyond the responder's turnaround, after IEEE 802.1AS
(PRESUMED, log entry 127). -/
def peerDelay (req resp : BitVec 64) (turn : Word) : Word := (((resp - req) - turn.setWidth 64) >>> 1).setWidth 32

/-- A peer-delay exchange completes (R41, R46), unless it was discarded or its request has no timestamp; `turn` is the responder's
turnaround that its two messages carry. -/
def completeExchange (d : Nat) (turn : Word) (s : State) : State :=
  let x := s.dom d
  let y := { x with pdelayWait := false }
  s.setDom d (match x.reqAt with
    | some t => if x.pdelayWait && !x.pdelayBad then { y with pdelay := peerDelay t x.respAt turn } else y
    | none => y)

/-- PDELAY_RESP_FOLLOW_UP (R41, R46): completes a peer-delay exchange that was not discarded. -/
def execPdelayRespFollowUp (dom : Nat) (turn : Word) (s : State) : Outcome :=
  withDom dom s (taken (.pdelayRespFollowUp dom turn) (completeExchange dom turn))

/-- ANNOUNCE (R41): the better of the vector held and the one announced is kept. -/
def execAnnounce (dom : Nat) (vec : List Word) (s : State) : Outcome :=
  withDom dom s (taken (.announce dom vec) fun s =>
    let x := s.dom dom
    if x.best = [] ∨ Config.betterMaster vec x.best then s.setDom dom { x with best := vec } else s)

/-- The message interval that a Signaling request leaves in force: 127 (stop) and the exponents are taken as they stand, -128 changes
nothing and 126 asks for the initial value, after IEEE 802.1AS (PRESUMED, log entry 127). -/
def intervalAsked (old new : Byte) : Byte := if new = 0x80 then old else if new = 126 then 0xFD else new

/-- SIGNALING (R41): a message interval request. -/
def execSignaling (dom : Nat) (interval : Byte) (s : State) : Outcome :=
  withDom dom s (taken (.signaling dom interval) fun s => s.setDom dom { s.dom dom with msgInterval := intervalAsked (s.dom dom).msgInterval interval })

/-- PEER_DELAY_INTERVAL (R46): a new exchange starts, in place of a discarded one. -/
def execPeerDelayInterval (dom : Nat) (s : State) : Outcome :=
  withDom dom s fun s =>
    sendEvent dom (s.domPort dom) .pdelayReq [] (s.setDom dom { s.dom dom with pdelayWait := false, pdelayBad := false, reqAt := none })

/-- Nanoseconds between the Syncs of a grandmaster: 2^n seconds (R41, log entry 127). -/
def syncEvery (n : Byte) : Nat := if 0 ≤ n.toInt then 10 ^ 9 * 2 ^ n.toNat else 10 ^ 9 / 2 ^ (256 - n.toNat)

/-- A grandmaster's Sync when its time has come (R41): two-step, so its Follow_Up leaves with its timestamp. -/
def tickSync (d : Nat) (s : State) : State :=
  let x := s.dom d
  if x.master && x.msgInterval != 127 && decide (x.nextSync ≤ s.time.deviceTime) then
    sendEvent d (s.domPort d) .sync [] (s.setDom d { x with nextSync := s.time.deviceTime + BitVec.ofNat 64 (syncEvery x.msgInterval) })
  else s

/-- The Announce of a grandmaster and the Signaling of the port, each second (R41, log entry 127). -/
def tickAnnounce (d : Nat) (s : State) : State :=
  let x := s.dom d
  if x.nextAnnounce ≤ s.time.deviceTime then
    let s1 := (s.setDom d { x with nextAnnounce := s.time.deviceTime + 1000000000 }).send .signaling [d, s.domPort d]
    if x.master then s1.send .announce (d :: s.domPort d :: (ownVector x).map fun w => w.toNat) else s1
  else s

/-- What the ports of the tracked domains send by time; nothing while no Conductor is active (R41). -/
def tickPtp (s : State) : State :=
  if s.condDown then s else [0, 2].foldl (fun s d => tickAnnounce d (tickSync d s)) s

-- TIME.CLOCK.SELECT and TIME.DOMAIN.SET (R55, R56) ------------------------------------------------------------------------------------------------

/-- TIME.CLOCK.SELECT (R43, R55). -/
def cardTimeClockSelect : Card where
  opcode := 0x102
  len := fun e => e.payload.length == 1
  range := fun e _ =>
    let w := e.pw 0
    bits w 31 12 == 0 && !bit w 10 && bits w 7 0 == 0 && bits w 9 8 != 3
  post := fun e s =>
    let c := bits (e.pw 0) 9 8
    need (if c = 0 then !s.followHeld else (s.dom (corDom c)).locked) eState
  run := fun e s => queueBoundary 0x102 e {} s

/-- TIME.CLOCK.SELECT at its boundary; its answer is TM_STATUS [7:0] (R42, R55). -/
def applyClockSelect (e : Entry) (s : State) : State × List Word :=
  let c : BitVec 2 := BitVec.ofNat 2 (bits (e.pw 0) 9 8)
  let s1 := { s with time := { s.time with cor := c, autoSwitch := bit (e.pw 0) 11 } }
  let s2 := if c = s.time.activeCor then s1 else startCor c s1
  (s2, [s2.tmStatus &&& 0xFF])

/-- Value `n` of TIME.DOMAIN.SET (R56): DOM2_NUM, DOM2_PORT, DOM0_PORT, priority1 of DOM0 and of DOM2, and the ingress and egress
latencies of Ethernet 0 and 1. -/
def domValue (e : Entry) (n : Nat) : Nat :=
  match n with
  | 0 => bits (e.pw 0) 31 24
  | 1 => bits (e.pw 0) 19 18
  | 2 => bits (e.pw 0) 17 16
  | 3 => bits (e.pw 1) 15 8
  | 4 => bits (e.pw 1) 7 0
  | 5 => bits (e.pw 2) 15 0
  | 6 => bits (e.pw 2) 31 16
  | 7 => bits (e.pw 3) 15 0
  | _ => bits (e.pw 3) 31 16

/-- The nine values TIME.DOMAIN.SET stages. -/
def domFields (e : Entry) : List Staged :=
  (List.range 9).map fun n => { field := .timeDom n, value := [BitVec.ofNat 32 (domValue e n)] }

/-- TIME.DOMAIN.SET (R56). -/
def cardTimeDomainSet : Card where
  opcode := 0x103
  len := fun e => e.payload.length == 4
  range := fun e _ =>
    let w := e.pw 0
    bits w 23 20 == 0 && bits w 15 0 == 0 && bits (e.pw 1) 31 16 == 0 && decide (1 ≤ bits w 31 24) && decide (bits w 31 24 ≤ 127)
    && decide (bits w 19 18 < 2) && decide (bits w 17 16 < 2)
  flags := fun e _ => !e.stamped
  post := fun e s => stageChecks ((domFields e).map fun x => x.field) s
  run := fun e s => stageFields 0x103 e (domFields e) s

/-- A tracked domain starts afresh when its number or port changes (R41: the lock is the domain's own; log entry 28). -/
def newDomain (d : Nat) (s : State) : State :=
  s.setDom d { priority1 := (s.dom d).priority1 }

/-- A domain field takes a value at a commit (R56). -/
def putDomField (n v : Nat) (s : State) : State :=
  let t := s.time
  match n with
  | 0 => if t.dom2Num.toNat = v then s else newDomain 2 { s with time := { t with dom2Num := BitVec.ofNat 8 v } }
  | 1 => if t.dom2Port.toNat = v then s else newDomain 2 { s with time := { t with dom2Port := BitVec.ofNat 2 v } }
  | 2 => if t.dom0Port.toNat = v then s else newDomain 0 { s with time := { t with dom0Port := BitVec.ofNat 2 v } }
  | 3 => s.setDom 0 { s.dom 0 with priority1 := BitVec.ofNat 8 v }
  | 4 => s.setDom 2 { s.dom 2 with priority1 := BitVec.ofNat 8 v }
  | 5 => { s with time := { t with phyIn0 := BitVec.ofNat 16 v } }
  | 6 => { s with time := { t with phyOut0 := BitVec.ofNat 16 v } }
  | 7 => { s with time := { t with phyIn1 := BitVec.ofNat 16 v } }
  | _ => { s with time := { t with phyOut1 := BitVec.ofNat 16 v } }

/-- A domain field whose staged value a commit refuses: a change of the domain that is the clock of record (R56). -/
def domConflict (n v : Nat) (s : State) : Bool :=
  let t := s.time
  match n with
  | 0 => t.activeCor == 2 && t.dom2Num.toNat != v
  | 1 => t.activeCor == 2 && t.dom2Port.toNat != v
  | 2 => t.activeCor == 1 && t.dom0Port.toNat != v
  | _ => false

-- change of base rate (R25, R26, R54) --------------------------------------------------------------------------------------------------------------

/-- A journalled command whose effect waits for its stamp, or a held swap (R26). -/
def Job.waitsStamp (jb : Job) : Bool := jb.phase == .timeline || jb.phase == .held

/-- Roll one waiting command back; a stamped VOICE.START ends its PENDING voice (R26). -/
def rollJob (s : State) (jb : Job) : State :=
  let s1 := if jb.opcode = 0x300 ∧ jb.slot < 8192 then cancelVoice jb.slot s else s
  rollBack jb.j jb.e true (dropJob jb.j s1)

/-- A queued event's start is cancelled with it. -/
def dropEvent (s : State) (t : TEvent) : State := match t.act with | .start i => cancelVoice i s | _ => s

/-- An event, not a command. -/
def TEvent.isEvent (t : TEvent) : Bool := match t.act with | .cmd _ => false | _ => true

/-- Every event that a session holds: on the timeline (a note that a start already released left for its stamp is no item, R311), in the
intake, parked, and in the UART buffers. -/
def heldEvents (s : State) : List TEvent :=
  (s.se.timeline.filter fun t => t.isEvent && t.isItem) ++ s.se.fifo ++ (openSessions s).flatMap (fun i => (s.session i).parkedEvents)
  ++ s.uarts.flatMap fun u => u.2.buf

/-- The roll-back of R26: events discarded and commands rolled back; answers how many. -/
def rollAll (s : State) : State × Nat :=
  let evs := heldEvents s
  let jobs := s.mbx.jobs.filter Job.waitsStamp
  let s1 := evs.foldl dropEvent s
  let s2 := { s1 with se := { s1.se with timeline := [], fifo := [], sessions := s1.se.sessions.mapVals fun _ x => { x with parkedEvents := [] } },
                      uarts := s1.uarts.mapVals (fun _ u => { u with buf := [] }),
                      dac := { s1.dac with queue := [] },
                      params := { s1.params with banks := s1.params.banks.mapVals fun _ b => { b with held := none, heldLen := 0 } } }
  (jobs.foldl rollJob s2, evs.length + jobs.length)

/-- Every coefficient Scarf ends where the tick stops (R26, R204). -/
def endScarfs (p : Params) : Params := { p with banks := p.banks.mapVals fun _ b => { b with scarfLeft := 0, outgoing := {} } }

/-- TIME.RATE.SET (R25, R54, R78, R84): the HALTED field is written, the tick stops and the audio PLL leaves lock at validation;
RATE_CHANGE_COMPLETE carries out the rest. A second TIME.RATE.SET while a change runs is E_BUSY: no rule names the case (DESIGN CHOICE, log
entry 128). -/
def cardTimeRateSet : Card where
  opcode := 0x101
  len := fun e => e.payload.length == 1
  range := fun e _ => bits (e.pw 0) 31 3 == 0 && decide (bits (e.pw 0) 2 0 < 6)
  post := fun _ s => need (s.allLoad && !s.mbx.jobs.any fun jb => jb.opcode == 0x101) eBusy
  run := fun e s0 =>
    let s := tickPhase s0
    let s1 := { s with time := { s.time with stamp := s.liveStamp, tickDt := s.time.deviceTime, ticking := false, newRate := (e.pw 0).setWidth 3 },
                       audio := { s.audio with lock := false }, params := endScarfs s.params }
    bumpEpoch (queueBoundary 0x101 e {} s1)

/-- Steps 2 to 5 of a change of base rate (R25): the PLL has locked again, the roll-back, the new rate, Stamp32, the tick. Answers how many
were discarded. -/
def changeRate (s : State) : State × Nat :=
  let r := rollAll (tickPhase s)
  let st := alignStamp r.1.time.stamp
  let s1 := { r.1 with time := { r.1.time with stamp := st, stampHold := true, reach := st, rate := r.1.time.newRate, ticking := true,
                                               tickDt := r.1.time.deviceTime, clk := 0,
                                               rampFrom := r.1.time.ratePpt, rampFrames := 0 },
                       audio := { r.1.audio with lock := !r.1.audio.refLost } }
  (limitTdm (buildBanks s1), r.2)

/-- RATE_CHANGE_COMPLETE (R25, R54): the command is answered. -/
def rateChanged (s : State) : State :=
  match s.mbx.jobs.find? fun jb => jb.opcode == 0x101 with
  | none => s
  | some jb =>
    let r := changeRate (dropJob jb.j s)
    completeJob jb stDone [BitVec.ofNat 32 r.2, r.1.time.stamp] r.1

/-- RATE_CHANGE_COMPLETE (R25). -/
def execRateChangeComplete (s : State) : Outcome := .next (rateChanged s)

end Sys2Proof.Machine
end

