-- ==== Sys2Proof/Machine/Staging.lean ====
section
/-! DEFINITION. The staged set and the configuration, journal and channel commands (chapter 03, R64 to R96). -/

namespace Sys2Proof.Machine

-- small commands ---------------------------------------------------------------------------------------------------------------------

/-- A command that is not journalled answers DONE with journal index 0 (R91). -/
def finishUnjournalled (e : Entry) (ws : List Word) (s : State) : State := answer e stDone 0 ws true s

/-- SYS.NOP (R92). -/
def cardSysNop : Card where
  opcode := 0x001
  journalled := false
  len := fun e => e.payload.length == 0
  run := fun e s => finishUnjournalled e [s.condStatus, s.mbx.epoch] s

/-- The journal index of the waiting stamped commit, or 0 (R95). -/
def stampedCommit (s : State) : Word :=
  match s.mbx.jobs.find? fun jb => jb.opcode == 0x010 && jb.phase == .timeline with
  | some jb => jb.j
  | none => 0

/-- CONFIG.EPOCH (R95). -/
def cardConfigEpoch : Card where
  opcode := 0x012
  journalled := false
  len := fun e => e.payload.length == 0
  run := fun e s =>
    finishUnjournalled e [s.mbx.epoch, pack [(s.mbx.stagedCmds.length, 16), (s.mbx.staged.length, 0)], stampedCommit s] s

/-- The words of JOURNAL.QUERY for an entry (R96). -/
def journalWords (x : JEntry) : List Word :=
  let fin := x.st == .done || x.st == .rolledBack
  [x.stateWord, pack [(if fin then x.status.toNat else 0, 16), (x.opcode.toNat, 0)], x.idx, pack [(x.ch, 16), (x.seq.toNat, 0)], x.frame, x.epoch]

/-- What a query finds (R91): an entry, NOT_SEEN, or `none` for E_RANGE. -/
def journalSeek (e : Entry) (s : State) : Option (Option JEntry) :=
  let w := e.pw 0
  if bit w 31 then (journalFind (e.pw 1) s).map some
  else
    let ch := bits w 19 16
    let q : BitVec 16 := BitVec.ofNat 16 (bits w 15 0)
    let c := s.chan ch
    if !c.seqFree && decide (0 ≤ (q - c.expectSeq).toInt) then some none
    else match s.mbx.journal.find? fun x => x.ch == ch && x.seq == q with
      | some x => some (some x)
      | none => if c.seqFree then some none else none

/-- JOURNAL.QUERY (R91, R96). -/
def cardJournalQuery : Card where
  opcode := 0x020
  journalled := false
  len := fun e => e.payload.length == 2
  range := fun e s =>
    let w := e.pw 0
    (if bit w 31 then bits w 30 0 == 0 && e.pw 1 != 0 else bits w 30 20 == 0 && e.pw 1 == 0) && (journalSeek e s).isSome
  run := fun e s =>
    match journalSeek e s with
    | some (some x) => finishUnjournalled e (journalWords x) s
    | _ => finishUnjournalled e [0, 0, 0, pack [(bits (e.pw 0) 19 0, 0)], 0, 0] s

/-- COMMAND_DESYNC (R71): an entry that cannot be framed meets a Conductor that serves the mailboxes. -/
def execCommandDesync (e : Entry) (s : State) : Outcome := withUnit e.ch 16 (.next (if s.serving then desync e s else s))

/-- RESPONSE_RELEASED (R64): room has appeared in the response ring. -/
def execResponseReleased (ch : Nat) (s : State) : Outcome := withUnit ch 16 (.next (if s.serving then releaseHeld ch s else s))

-- the staged set (R80 to R83, R98) ------------------------------------------------------------------------------------------------------

/-- The staged value of an endpoint, or its present one. -/
def withSet (a : Nat) (s : State) : Word :=
  match s.mbx.staged.find? fun x => x.field == .endpoint a with
  | some x => x.value.getD 0 0
  | none => s.endpoint a

/-- Rated standard voices of Bay `b` (R98): (32 - s) x 896 clk over its cores, by the standard voice cost of 112 clk per sample.
A core marked for retirement or retired has no budget (R107) and adds nothing (R465). -/
def ratedWith (steps : Nat → Nat) (gone : Nat → Bool) (b : Nat) (s : State) : Nat :=
  (s.bayCores b).foldl (fun a k => if gone k then a else a + (32 - steps (k / 8)) * 896) 0 / (112 * s.spf)

/-- A core marked for retirement or retired. -/
def State.gone (s : State) (k : Nat) : Bool := (s.core k).retire || (s.core k).retired

/-- Rated standard voices of Bay `b` now (R98). -/
def State.rated (s : State) (b : Nat) : Nat := ratedWith (fun c => (s.course c).steps) s.gone b s

/-- The sum of VOICE_RESERVE over the parts bound to Bay `b`, with a reader of endpoints (R98). -/
def reserveSum (rd : Nat → Word) (b : Nat) : Nat :=
  (List.range 256).foldl (fun a p => if (rd (partAddr p 0xF0)).toNat = b then a + (rd (partAddr p 0xF2)).toNat else a) 0

/-- R98 holds for Bay `b` under a reader of endpoints. -/
def reserveOk (rd : Nat → Word) (b : Nat) (s : State) : Bool := decide (reserveSum rd b ≤ s.rated b)

/-- The part an endpoint of scope 0 belongs to holds a BAY or VOICE_RESERVE value. -/
def placesPart (a : Nat) : Bool := a / 65536 == 0 && (a % 256 == 0xF0 || a % 256 == 0xF2)

/-- The routes once the staged set is in force. -/
def routesAfter (s : State) : List (Nat × Nat) :=
  let new := s.mbx.staged.filterMap fun x => match x.field with
    | .route d => some (d, x.value.getD 0 0)
    | _ => none
  (s.bridge.routes.filter fun p => !new.any fun q => q.1 == p.1)
  ++ (new.filter fun q => !bit q.2 16).map fun q => (q.1, bits q.2 7 0)

/-- An effect that the staged set describes would break R354. -/
def effectBreaks (s : State) : Bool :=
  let rd := fun x => withSet x s
  (effectSlotsOf s.mbx.staged).any fun o => match effectIn rd o with
    | some d => d.outs.any fun q => renderBreaks rd (routesAfter s) ((s.bay (s.acting (d.bay % 8))).mode == .render) (d.bay % 8) q s
    | none => false

/-- Why the staged effect endpoints fail a commit (R110, R241, R354). -/
def effectFails (s : State) : Option Status :=
  if effectBreaks s then some eConflict
  else match planEffects (fun x => withSet x s) (effectSlotsOf s.mbx.staged) s with
    | .ok _ => none
    | .error x => some x

/-- Why a staged endpoint value fails a commit (R81, R98, R110, R184, R241, R354). -/
def endpointFails (a : Nat) (v : Word) (s : State) : Option Status :=
  if a / 65536 = 2 ∧ !(s.group (a / 256 % 256)).bound then some eState
  else if a / 65536 = 0 ∧ a % 256 = 0xF0 ∧ !s.formed v.toNat then some eConflict
  else if placesPart a && !reserveOk (fun x => withSet x s) (withSet (partAddr (a / 256) 0xF0) s).toNat s then some eConflict
  else if !renderInputOk (fun x => withSet x s) (routesAfter s) [(a, v)] s then some eConflict
  else if effectEndpoint a then effectFails s
  else none

/-- Why a staged value fails a commit: the status its failing check would have given (R56, R81). -/
def stagedFails (x : Staged) (s : State) : Option Status :=
  let v := x.value.getD 0 0
  match x.field with
  | .endpoint a => endpointFails a v s
  | .route _ => if routeAllowed s v then none else some eConflict
  | .timeDom n => if domConflict n v.toNat s then some eConflict else none
  | .session i tag _ => if (s.session i).isOpen && (s.session i).tag.toNat == tag then none else some eState
  | _ => none

/-- The first staging command, in journal order, whose value fails (R81). -/
def commitFails (s : State) : Option Fail :=
  match s.mbx.stagedCmds.find? fun j => s.mbx.staged.any fun x => x.j == j && (stagedFails x s).isSome with
  | none => none
  | some j =>
    match s.mbx.staged.find? fun x => x.j == j && (stagedFails x s).isSome with
    | some x => some (eConflict, [j, ((stagedFails x s).getD 0).setWidth 32])
    | none => none

/-- CONFIG.COMMIT (R81, R83, R93). -/
def cardConfigCommit : Card where
  opcode := 0x010
  len := fun e => e.payload.length == 1
  flags := fun e _ => !e.stage
  post := fun _ s => need (!commitWaits s) eBusy
  conflict := fun e s =>
    firstFail
      [ (if e.pw 0 = 0 ∨ e.pw 0 = s.mbx.epoch then none else some (eConflict, [0, eSequence.setWidth 32])),
        commitFails s ]
  run := fun e s =>
    if e.stamped then
      let t := if classify e.stamp s.time.reach = .late then s.time.reach else e.stamp
      queueStamped 0x010 e { stamp := t } t [] s
    else queueBoundary 0x010 e {} s

/-- One committed value takes effect at a stamp of timeline `ln` (R81). -/
def putValue (ln : Nat) (t : Word) (s : State) (x : Staged) : State :=
  let v := x.value.getD 0 0
  match x.field with
  | .endpoint a => writeEndpoint ln a v x.ramp t s
  | .route d => applyRoute d v s
  | .timeDom n => putDomField n v.toNat s
  | .backpressure => { s with dsp := { s.dsp with backpressure := bit v 0 } }
  | .hwRegion => { s with mem := { s.mem with fast := BitVec.ofNat 12 (bits v 12 1) } }
  | .session i tag n => if (s.session i).isOpen && (s.session i).tag.toNat == tag then s.onSession i (putSessionField n v.toNat) else s
  | .env te e => putEnv te e x.value s

/-- The staged BAY of part `p` names Bay `b` (R83). -/
def stagedTo (s : State) (b p : Nat) : Bool :=
  s.mbx.staged.any fun y => y.field == .endpoint (partAddr p 0xF0) && (y.value.getD 0 0).toNat == b

/-- A staged value is a field of Bay `b` (R83): as its staging command found; a field of a part whose staged BAY names `b`, or of a group
bound to such a part; a route from a bus that a task of `b` declares, or to the render ring of `b`; a field of a bus or effect slot
whose effects run on `b`, or would. -/
def fieldOfBay (s : State) (b : Nat) (x : Staged) : Bool :=
  let rd := fun a => withSet a s
  let new := effectSlotsOf s.mbx.staged
  x.bay == b || (match x.field with
    | .endpoint a =>
      let o := a / 256 % 256
      (match a / 65536 with
       | 0 => stagedTo s b (a / 256)
       | 2 => (s.group o).bound && stagedTo s b (s.group o).part
       | 3 => if a % 256 < 0x40 then effectOnPair rd new b (o / 2) s else effectOnBay rd new b o s
       | _ => false)
    | .route d => d / 32 == 0x20 + b || (let w := x.value.getD 0 0; !bit w 16 && (declaredBuses b s).contains (bits w 7 0))
    | _ => false)

/-- The RENDER Bay whose field a staged value is (R81, R83); for the home of a failed-over pair the Bay in control renders (R284). -/
def renderOf (s : State) (x : Staged) : Option Nat :=
  ((List.range 8).find? fun b => s.formed b && (s.bay (s.acting b)).mode == .render && fieldOfBay s b x).map s.acting

/-- A value of a RENDER Bay waits for that Bay's own boundary (R81). -/
def waitsRender (s : State) (x : Staged) : Bool := (renderOf s x).isSome

/-- Hand a value to its RENDER Bay, as `was` finds it. -/
def giveRender (was : State) (s : State) (x : Staged) : State :=
  match renderOf was x with
  | some c => s.setBay c { s.bay c with waiting := (s.bay c).waiting ++ [x] }
  | none => s

/-- A staging command of the set becomes DONE (R75, R80). -/
def doneStaging (s : State) (j : Word) : State :=
  match journalFind j s with
  | some _ => endCommand .done j {} stDone [] s
  | none => s

/-- The commit applies the whole set at its boundary (R81): the state, and how many values were applied. Their commands become
DONE once the epoch has advanced. -/
def applyCommit (s : State) : State × Nat :=
  let set := s.mbx.staged
  let late := set.filter (waitsRender s)
  let s1 := late.foldl (giveRender s) s
  let now := set.filter fun x => !waitsRender s x
  let s2 := applyEffects now (now.foldl (putValue 255 s.time.stamp) s1)
  ({ s2 with mbx := { s2.mbx with staged := [], stagedCmds := [] } }, set.length)

/-- Committed values that waited for the boundary of RENDER Bay `b` take effect (R81, R84). -/
def renderCommit (b : Nat) (s : State) : State :=
  let xs := (s.bay b).waiting
  if xs.isEmpty then s
  else bumpEpoch (applyEffects xs (xs.foldl (putValue (s.lineOf b) (s.bay b).stamp) (s.setBay b { s.bay b with waiting := [] })))

/-- CONFIG.DISCARD (R82, R83, R94). -/
def cardConfigDiscard : Card where
  opcode := 0x011
  len := fun e => e.payload.length == 0
  post := fun _ s => need (!commitWaits s) eBusy
  run := fun e s =>
    let js := s.mbx.stagedCmds
    let s1 := js.foldl (fun s j => rollBack j {} false s) { s with mbx := { s.mbx with staged := [], stagedCmds := [] } }
    finishNow 0x011 e [BitVec.ofNat 32 js.length] s1

/-- A waiting commit holds the fields of Bay `b` (R83). -/
def commitHolds (b : Nat) (s : State) : Bool := commitWaits s && s.mbx.staged.any (fieldOfBay s b)

end Sys2Proof.Machine
end

