-- ==== Sys2Proof/Machine/Pairs.lean ====
section
/-! DEFINITION. Mirrored pairs (R274 to R284): joining, resynchronisation, the end of a pair, and what the change of
control does. -/

namespace Sys2Proof.Machine

/-- Change a Bay's record. -/
def State.onBay (s : State) (b : Nat) (f : Bay → Bay) : State := s.setBay b (f (s.bay b))

/-- Bay `b` is the home of a pair (R274). -/
def State.isHome (s : State) (b : Nat) : Bool := (s.bay b).role != 0 && s.homeOf b == b

/-- A pair is failed over, seen from either Bay (R284). -/
def State.failedOver (s : State) (b : Nat) : Bool := s.yielded b || (s.bay b).role == 4

-- resynchronisation (R276) ---------------------------------------------------------------------------------------------------------------

/-- Moves of a voice's oscillator and stream state at a preset and OSR (R152). -/
def streamMoves (preset : BitVec 2) (osr : Nat) : Nat := if preset = 0 then (if osr = 16 then 3 else if osr = 8 then 2 else 1) else 1

/-- Moves that a Course holds: one per task of core-local state, and the stream moves of each voice (R276). -/
def courseMoves (s : State) (c : Nat) : Nat :=
  let sm := streamMoves (s.course c).preset (osr s.time.rate)
  (List.range 8).foldl (fun a k =>
    (s.core (8 * c + k)).tasks.foldl (fun a t => a + 1 + (if t.2.kind = 0 then sm else 0)) a) 0

/-- The bound of a resynchronisation in frames (R276), with M from the partner. -/
def resyncBound (s : State) (p : Nat) : Nat :=
  let m := (s.bayCourses p).foldl (fun a c => Nat.max a (courseMoves s c)) 0
  Nat.max ((m + 15) / 16 + 1) 13

/-- Bay `b` starts to resynchronise from its partner (R276): it takes the partner's image, preset and template residency. -/
def startResync (b : Nat) (s : State) : State :=
  let p := s.partnerOf b
  let s1 := s.onBay b fun x => { x with role := 3, image := (s.bay p).image, lockstep := false, joined := false, copied := none, selfTest := false,
                                        resyncLeft := BitVec.ofNat 32 (resyncBound s p) }
  (s1.bayCourses b).foldl (fun s c => s.setCourse c { s.course c with preset := s.presetOf p }) s1

/-- The Courses of a move keep within 16 moves (R121). -/
def movesFit (n k d : Nat) (s : State) : Bool :=
  decide ((s.course (k / 8)).moves + n ≤ 16) && decide ((s.course (d / 8)).moves + n ≤ 16)

/-- Charge the moves to both Courses, once where they are one (R121). -/
def chargeMoves (n k d : Nat) (s : State) : State :=
  let s1 := s.setCourse (k / 8) { s.course (k / 8) with moves := (s.course (k / 8)).moves + n }
  if k / 8 = d / 8 then s1 else s1.setCourse (d / 8) { s1.course (d / 8) with moves := (s1.course (d / 8)).moves + n }

/-- Words `[a, a + n)` of a memory, copied from another. -/
def copyRange (a n : Nat) (src m : Mem 24) : Mem 24 := (List.range n).foldl (fun m i => Mem.write m (a + i) (Mem.read src (a + i))) m

/-- Steps of the copy of the program image and the residency area (R206, R276): 8,192 and 4,096 words at 1,024 a frame. -/
def copySteps : Nat := 12

/-- Step `n` of the copy of core `t` into its twin `k` (R276): the program first, then the residency area, whose tables count with its end. -/
def copyStep (n k t : Nat) (s : State) : State :=
  let x := s.core t
  let c := s.core k
  s.setCore k (if n < 8 then { c with prog := copyRange (1024 * n) 1024 x.prog c.prog }
    else { c with x := copyRange (0x3000 + 1024 * (n - 8)) 1024 x.x c.x, resid := if n + 1 = copySteps then x.resid else c.resid })

/-- The task of context `ctx` of core `t` is cloned on its twin `k` of Bay `b` (R276): it runs from the coming frame, with the decimated block
that has been written for that frame. -/
def cloneTask (b k t ctx : Nat) (q : Task) (s0 : State) : State :=
  let s := rewriteSlot k ctx s0
  let x := s.core t
  let c := s.core k
  s.setCore k { c with x := copyRange (192 * ctx) 192 x.x c.x, y := copyRange (192 * ctx) 192 x.y c.y,
                       tasks := c.tasks.put ctx { q with bay := b, fresh := true, ran := false, skipped := false, flags := 0 } }

/-- The pairs of corresponding cores of Bay `b` and its partner (R274). -/
def twins (s : State) (b : Nat) : List (Nat × Nat) := (s.bayCores b).zip (s.bayCores (s.partnerOf b))

/-- Tasks of the partner that joining Bay `b` does not hold: core, its twin, context and task. Cores and contexts ascend (DESIGN CHOICE, log
entry 78). -/
def uncloned (s : State) (b : Nat) : List (Nat × Nat × Nat × Task) :=
  (twins s b).flatMap fun p => ((s.core p.2).tasks.filter fun q => ((s.core p.1).tasks.find q.1).isNone).map fun q => (p.1, p.2, q.1, q.2)

/-- Moves a clone counts (R121, R276): its context, and a voice's streams. -/
def cloneMoves (s : State) (c : Nat) (q : Task) : Nat := 1 + (if q.kind = 0 then streamMoves (s.course c).preset (osr s.time.rate) else 0)

/-- A clone is made while both Courses keep within 16 moves (R121, R276). -/
def cloneOne (b : Nat) (s : State) (p : Nat × Nat × Nat × Task) : State :=
  let n := cloneMoves s (p.2.1 / 8) p.2.2.2
  if movesFit n p.2.1 p.1 s then chargeMoves n p.2.1 p.1 (cloneTask b p.1 p.2.1 p.2.2.1 p.2.2.2 s) else s

/-- The Kerf's clones of joining Bay `b`, from what migration has left of the moves (R276). -/
def cloneSome (s : State) (b : Nat) : State :=
  if (s.bay b).role = 3 ∧ (s.bay b).copied.isSome ∧ !(s.bay b).lockstep then (uncloned s b).foldl (cloneOne b) s else s

/-- A boundary of a joining Bay (R276): the first one starts the copy, each later one ends a step of it. -/
def tickCopy (s : State) (b : Nat) : State :=
  let x := s.bay b
  if x.role = 3 ∧ !x.lockstep then
    match x.copied with
    | none => s.onBay b fun y => { y with copied := some 0 }
    | some n =>
      if n < copySteps then ((twins s b).foldl (fun s p => copyStep n p.1 p.2 s) s).onBay b fun y => { y with copied := some (n + 1) } else s
  else s

/-- The joining Bay holds the image and every task of its partner (R276). -/
def State.resynced (s : State) (b : Nat) : Bool := (s.bay b).copied == some copySteps && (uncloned s b).isEmpty

/-- A running BAY.MODE of Bay `b`, if any. -/
def modeChange (b : Nat) (s : State) : Option Stepped := s.mbx.running.find? fun x => x.opcode == 0x601 && x.e.target.toNat == b

/-- RESYNCHRONISATION_END (R276): once the joining Bay holds every task; step 2 of its BAY.MODE is complete (R272). -/
def endResync (b : Nat) (s : State) : State :=
  if (s.bay b).role = 3 ∧ !(s.bay b).joined ∧ !(s.bay b).lockstep ∧ s.resynced b then
    let s1 := s.onBay b fun x => { x with joined := true, resyncLeft := 0 }
    match modeChange b s1 with
    | some st => if st.done = 1 then recordStep st 2 s1 else s1
    | none => s1
  else s

/-- RESYNCHRONISATION_END (R276). -/
def execResynchronisationEnd (bay : Nat) (s : State) : Outcome := withUnit bay 8 (.next (endResync bay s))

/-- A boundary of the pair's timeline: a Bay that holds every task goes into lockstep; a mirror whose home is in control takes
ROLE 2, unless its BAY.MODE sets that at its own step 3 (R272, R276, R283). -/
def tickJoin (s : State) (b : Nat) : State :=
  let x := s.bay b
  if x.role = 3 ∧ x.joined then
    let s1 := s.onBay b fun y => { y with joined := false, lockstep := true }
    if (s.bay (s.partnerOf b)).role = 1 ∧ (modeChange b s).isNone then s1.onBay b fun y => { y with role := 2, mode := .mirror } else s1
  else if x.role = 3 ∧ !x.lockstep ∧ 1 < x.resyncLeft.toNat then s.onBay b fun y => { y with resyncLeft := y.resyncLeft - 1 }
  else s

-- ends and changes of a pair ------------------------------------------------------------------------------------------------------------

/-- A Bay's cores hold no task any more. -/
def clearTasks (b : Nat) (s : State) : State :=
  (s.bayCores b).foldl (fun s k => s.setCore k { s.core k with
    tasks := [], current := none, shCurrent := none, inShadow := false, staging := [], shStaging := [], fetches := [], preemptReq := false }) s

/-- A Bay's record outside a pair. -/
def Bay.alone (x : Bay) : Bay :=
  { x with role := 0, partner := 0, lockstep := false, joined := false, copied := none, resyncLeft := 0, selfTest := false, goHome := false, yieldDue := false, events := [],
           yieldFrames := [], unresFrames := [] }

/-- The pair of home `h` ends (R273): its mirror runs nothing more and enters LOAD at the frame boundary. -/
def endPair (h : Nat) (s : State) : State :=
  let m := s.partnerOf h
  ((clearTasks m s).onBay m fun x => { x.alone with partner := x.partner, toLoad := true }).onBay h Bay.alone

/-- A Bay whose pair has ended enters LOAD at its frame boundary (R273). -/
def tickLoad (s : State) (b : Nat) : State :=
  if (s.bay b).toLoad then s.onBay b fun x => { x with mode := .load, partner := 0, toLoad := false } else s

/-- Map the voices that run on the cores of Bay `a` to the corresponding cores of its partner (R274, R275). -/
def moveVoices (a : Nat) (s : State) : State :=
  let ps := twins s a
  { s with voices := s.voices.mapVals fun _ v => match ps.find? fun p => p.1 == v.core with | some p => { v with core := p.2 } | none => v }

/-- The cuts, skips and end causes that a fault of Bay `a` produced in the frame are void: its twin ran in full (R281). -/
def voidCuts (a : Nat) (s : State) : State :=
  s.voices.foldl (fun s p =>
    match p.2.cutFrom with
    | some u =>
      if p.2.inUse ∧ p.2.core < 64 ∧ s.courseBay (p.2.core / 8) = a then
        (s.setVoice p.1 { p.2 with st := u.st, toFree := u.toFree, silent := u.silent, cause := u.cause, cutFrom := none }).onPart p.2.part
          fun c => { c with cut := c.cut - BitVec.ofNat 32 u.cuts }
      else s
    | none => s) s

/-- The home yields (R281): the mirror is in control under the home's mode and timeline; the home enters SERVICE with ROLE 5 and runs its
self-test. Whether it may return afterwards is settled when it passes (R283). -/
def yieldHome (h : Nat) (s : State) : State :=
  let m := s.partnerOf h
  let x := s.bay h
  let now := s.time.frameCount
  let window := famFrames s.time.rate 360000 330750
  let recent := now :: x.yieldFrames.filter fun f => decide ((now - f).toNat < window)
  let s1 := moveVoices h (voidCuts h s)
  let s2 := s1.onBay m fun y =>
    { y with role := 4, mode := x.mode, frameCount := x.frameCount, stamp := x.stamp, reach := x.reach, inFrame := x.inFrame, waiting := x.waiting,
             ringBase := x.ringBase, ringC := x.ringC, ringF := x.ringF, rswaps := x.rswaps, refuseStarts := x.refuseStarts, lockstep := false }
  (clearTasks h s2).onBay h fun y =>
    { y with role := 5, mode := .service, homeMode := x.mode, selfTest := true, lockstep := false,
             yields := satInc y.yields, yieldFrames := recent, waiting := [], inFrame := false }

/-- Control passes back to the home (R283): it has computed every frame in lockstep. -/
def passHome (h : Nat) (s : State) : State :=
  let m := s.partnerOf h
  let y := s.bay m
  let s1 := moveVoices m s
  let s2 := s1.onBay h fun x =>
    { x with role := 1, mode := y.mode, frameCount := y.frameCount, stamp := y.stamp, reach := y.reach, inFrame := y.inFrame, waiting := y.waiting,
             ringBase := y.ringBase, ringC := y.ringC, ringF := y.ringF, rswaps := y.rswaps, refuseStarts := y.refuseStarts, lockstep := false,
             goHome := false, returns := satInc x.returns }
  s2.onBay m fun x => { x with role := 2, mode := .mirror, lockstep := true, waiting := [], inFrame := false }

/-- The mirror is dropped (R280): ROLE 7, in its self-test. -/
def dropMirror (h : Nat) (s : State) : State :=
  let m := s.partnerOf h
  ((clearTasks m s).onBay m fun x => { x with role := 7, mode := .service, selfTest := true, lockstep := false, joined := false, resyncLeft := 0 }).onBay h
    fun x => { x with drops := satInc x.drops }

/-- ADOPT (R284): the pair ends; the parts of the home are rebound to the Bay in control, and the home enters LOAD. -/
def adoptPair (h : Nat) (s : State) : State :=
  let m := s.partnerOf h
  let t := s.stampOf h
  let parts := (List.range 256).filter fun p => s.partBay p == h
  let s0 := parts.foldl (fun s p => writeEndpoint (s.lineOf h) (partAddr p 0xF0) (BitVec.ofNat 32 m) none t s) s
  let s1 := { s0 with params := { s0.params with ramps := s0.params.ramps.map fun (r : Ramp) => if r.line = h then { r with line := m } else r,
                                                 recent := s0.params.recent.map fun (r : Recent) => if r.line = h then { r with line := m } else r } }
  let s2 := { s1 with voices := s1.voices.mapVals fun _ v => if v.inUse ∧ v.bay = h then { v with bay := m } else v,
                      se := { s1.se with timeline := s1.se.timeline.map fun (x : TEvent) => if x.bay = h then { x with bay := m } else x } }
  let s3 := (clearTasks h s2).onBay h fun x => { x.alone with mode := .load, waiting := [], refuseStarts := false }
  gainCoefArea m (dropCoefArea h (s3.onBay m Bay.alone))

end Sys2Proof.Machine
end

