-- ==== Sys2Proof/Machine/BayCmds.lean ====
section
/-! DEFINITION. BAY.FORM, BAY.MODE with its steps, BAY.STATUS and BAY.RECOVER (R268 to R273, R293 to R296). -/

namespace Sys2Proof.Machine

-- BAY.FORM (R268, R269, R293) -------------------------------------------------------------------------------------------------------------

/-- COUNT of Bay `b` in a BAY.FORM. -/
def formCount (e : Entry) (b : Nat) : Nat := bits (e.pw b) 31 28

/-- FIRST of Bay `b` in a BAY.FORM. -/
def formFirst (e : Entry) (b : Nat) : Nat := bits (e.pw b) 26 24

/-- Bays whose Courses change (R269). -/
def formChanging (e : Entry) (s : State) : List Nat :=
  (List.range 8).filter fun b => formCount e b != (s.bay b).count.toNat || formFirst e b != (s.bay b).first.toNat

/-- Every Course is covered once, by contiguous Bays (R268). -/
def formCovers (e : Entry) : Bool :=
  ((List.range 8).all fun b => decide (formFirst e b + formCount e b ≤ 8))
  && (List.range 8).all fun c => ((List.range 8).filter fun b => decide (formFirst e b ≤ c) && decide (c < formFirst e b + formCount e b)).length == 1

/-- One changing Bay is formed anew (R269): in LOAD, no image, preset STAGE, counters 0. -/
def reform (e : Entry) (s : State) (b : Nat) : State :=
  let x : Bay := { count := BitVec.ofNat 4 (formCount e b), first := BitVec.ofNat 3 (formFirst e b), returnHome := (s.bay b).returnHome }
  let s1 := s.setBay b x
  (s1.bayCourses b).foldl (fun s c => s.setCourse c { s.course c with preset := 1 }) s1

/-- BAY.FORM (R293): a HALTED write, complete at validation. -/
def cardBayForm : Card where
  opcode := 0x600
  len := fun e => e.payload.length == 8
  range := fun e _ => e.payload.all fun w =>
    bit w 27 == false && bits w 23 0 == 0 && decide (bits w 31 28 ≤ 8) && (bits w 31 28 != 0 || bits w 26 24 == 0)
  post := fun e s =>
    let cs := formChanging e s
    need (cs.all fun b => (!s.formed b || (s.bay b).mode == .load) && !holdsBay s b && !commitHolds b s) eBusy
  agree := fun e s => formCovers e && (List.range 256).all fun p => formCount e (s.partBay p) != 0
  run := fun e s => finishNow 0x600 e [] (bumpEpoch ((formChanging e s).foldl (reform e) s))

-- BAY.MODE (R272 to R274, R294) --------------------------------------------------------------------------------------------------------------

/-- The mode a BAY.MODE asks for. -/
def modeWanted (e : Entry) : Mode := Mode.ofCode (bits (e.pw 0) 2 0)

/-- The home Bay it names when that mode is MIRROR. -/
def modeHome (e : Entry) : Nat := bits (e.pw 0) 10 8

/-- The kinds of the table Mode changes (R272). -/
inductive Change where
  /-- LOAD or SERVICE to PLAY, FOLLOW or RENDER -/
  | enter
  /-- PLAY to FOLLOW or back -/
  | swap
  /-- PLAY or FOLLOW to RENDER or back -/
  | timeline
  /-- PLAY, FOLLOW or RENDER to SERVICE or LOAD -/
  | drain
  /-- SERVICE to LOAD or back -/
  | rest
  /-- LOAD or SERVICE to MIRROR -/
  | join
  /-- MIRROR to LOAD or SERVICE -/
  | leave
deriving DecidableEq, Repr

/-- The kind of a change; `none` where the table lists none (R272). -/
def changeOf (a b : Mode) : Option Change :=
  match a, b with
  | .load, .play | .load, .follow | .load, .render | .service, .play | .service, .follow | .service, .render => some .enter
  | .play, .follow | .follow, .play => some .swap
  | .play, .render | .follow, .render | .render, .play | .render, .follow => some .timeline
  | .play, .service | .play, .load | .follow, .service | .follow, .load | .render, .service | .render, .load => some .drain
  | .service, .load | .load, .service => some .rest
  | .load, .mirror | .service, .mirror => some .join
  | .mirror, .load | .mirror, .service => some .leave
  | _, _ => none

/-- A change that drains the Bay: its step 2 is final (R272). -/
def Change.drains (c : Change) : Bool := c == .timeline || c == .drain

/-- The pairing conditions of R274 for Bay `b` to mirror Bay `h`. -/
def pairOk (b h : Nat) (s : State) : Bool :=
  b != h && s.formed h && (s.bay h).mode.runsVoices && (s.bay h).role == 0 && (s.bay b).role == 0 && (s.bay b).count == (s.bay h).count

/-- FOLLOW needs a gPTP clock of record and the PLL on its media clock (R39). -/
def followOk (s : State) : Bool := s.time.activeCor != 0 && s.audio.ref == 2

/-- FOLLOW may be entered, and no waiting command selects LOCAL as the clock of record, or another reference than GPTP: the rule does not say what a
command that waits does to BAY.MODE (R39; DESIGN CHOICE, log entry 136). -/
def followKept (s : State) : Bool :=
  followOk s && !s.mbx.jobs.any fun jb =>
    (jb.opcode == 0x102 && bits (jb.e.pw 0) 9 8 == 0) || (jb.opcode == 0x702 && bits (jb.e.pw 0) 1 0 != 2)

/-- BAY.MODE (R83, R294): a waiting commit must hold no field of the Bay, nor of the mirror that enters LOAD when the pair ends; a Bay does not enter RENDER with effect tasks whose outputs break R354. -/
def cardBayMode : Card where
  opcode := 0x601
  device := false
  modes := [.play, .follow, .render, .mirror, .service, .load]
  len := fun e => e.payload.length == 1
  range := fun e _ =>
    bits (e.pw 0) 31 11 == 0 && bits (e.pw 0) 7 3 == 0 && decide (bits (e.pw 0) 2 0 < 6) && (modeWanted e == .mirror || modeHome e == 0)
  post := fun e s =>
    let b := e.target.toNat
    let m := modeWanted e
    let c := changeOf (s.bay b).mode m
    firstFail
      [ need c.isSome eState,
        need (!s.failedOver b) eState,
        need (c != some .enter || (s.bay b).image.isSome) eState,
        need (m != .follow || followKept s) eState,
        need ((s.bay b).mode != .load || s.power.state != 1) eState,
        need (!holdsBay s b && ((s.bay b).role == 0 || !holdsBay s (s.partnerOf b)) && (m != .mirror || !holdsBay s (modeHome e))) eBusy,
        need (!commitHolds b s && !((s.bay b).role == 1 && (c.map Change.drains).getD false && commitHolds (s.partnerOf b) s)) eBusy,
        steppedRoom s,
        need (c != some .enter || decide (10 ≤ (s.bayBanks b).length)) eNoslot ]
  agree := fun e s =>
    let b := e.target.toNat
    (modeWanted e != .mirror || pairOk b (modeHome e) s)
    && (modeWanted e != .render || (s.effectTasks.filter fun t => t.2.2.bay == b).all fun t =>
          t.2.2.outPairs.all fun q => !renderBreaks s.endpoint s.bridge.routes true b q s)
  run := fun e s =>
    let c := (changeOf (s.bay e.target.toNat).mode (modeWanted e)).getD .rest
    startStepped 0x601 e 3 (if c.drains then 2 else 3) [BitVec.ofNat 32 (s.bay e.target.toNat).mode.code, s.bayState e.target.toNat] s

/-- The mode a running BAY.MODE leaves. -/
def modeFrom (st : Stepped) : Mode := Mode.ofCode (st.undo.getD 0 0).toNat

/-- Its kind. -/
def changeKind (st : Stepped) : Change := (changeOf (modeFrom st) (modeWanted st.e)).getD .rest

/-- SERVICE test tasks of a Bay stop: a borrowed window goes back with its words (R272, R333). -/
def stopTests (b : Nat) (s : State) : State :=
  let s1 := (s.bayCourses b).foldl (fun s c => laneTests c false (s.setCourse c { s.course c with cycleStep := 0, katNow := [], testBank := none, tested := [] })) s
  (s1.bayBanks b).foldl (fun s n => if (s.bank n).state = 2 then restoreGroup n s else s) s1

/-- A queued event acts on a part of Bay `b`. -/
def eventOf (b : Nat) (s : State) (t : TEvent) : Bool :=
  match t.act with
  | .start i | .retrigger i _ _ | .glide i _ _ => (s.voice i).bay == b
  | .noteOn p _ _ | .noteOff p _ | .perNote p _ _ _ | .pnReset p _ | .sustain p _ | .soundOff p | .notesOff p => s.partBay p == b
  | .write a _ => decide (a < 65536) && s.partBay (a / 256) == b
  | .cmd _ | .push _ _ _ => false

/-- Queued events for a Bay's parts are discarded and counted in their sessions (R272; the counter is OVERFLOW, log entry 42);
a discarded start's voice is cancelled. -/
def discardBay (b : Nat) (s : State) : State :=
  let mine := eventOf b s
  let all := s.se.timeline ++ s.se.fifo ++ (openSessions s).flatMap (fun i => (s.session i).parkedEvents) ++ s.uarts.flatMap fun u => u.2.buf
  let gone := all.filter mine
  let keep := fun (l : List TEvent) => l.filter fun t => !mine t
  let s1 := { s with
    se := { s.se with timeline := keep s.se.timeline, fifo := keep s.se.fifo,
                      sessions := s.se.sessions.mapVals fun _ x => { x with parkedEvents := keep x.parkedEvents } },
    uarts := s.uarts.mapVals fun _ u => { u with buf := keep u.buf } }
  gone.foldl (fun s t =>
    let s2 := dropItem s t
    match t.session with | some i => countOverflow i s2 | none => s2) s1

/-- The voices of a Bay that a drain ends. -/
def drainList (b : Nat) (s : State) : List Nat :=
  (s.voices.filter fun p => p.2.inUse && p.2.bay == b && p.2.st.counted && !p.2.toFree).map fun p => p.1

/-- A drain: starts are refused, and every voice scarfs from the first sample of the next frame, with end cause 3 (R272). -/
def startDrain (b : Nat) (s : State) : State :=
  let is := drainList b s
  let t := s.stampOf b + BitVec.ofNat 32 s.tpf
  (is.foldl (fun s i => endVoice i t (s.scarfSteal (s.voice i).part) 3 s) s).onBay b fun x => { x with refuseStarts := true, ended := is.length }

/-- Step 1 of a BAY.MODE (R272, R273, R329, R332). -/
def prepareMode (st : Stepped) (s : State) : Except Status State :=
  let b := st.e.target.toNat
  match changeKind st with
  | .enter => .ok (gainCoefArea b ((s.bayBanks b).foldl (fun s n => wakeBank n s) (stopTests b s)))
  | .swap => if modeWanted st.e != .follow || followKept s then .ok s else .error eState
  | .timeline => .ok (discardBay b (startDrain b (if (s.bay b).role = 1 then endPair b s else s)))
  | .drain => .ok (startDrain b (if (s.bay b).role = 1 then endPair b s else s))
  | .rest => .ok ((s.bayBanks b).foldl (fun s n => wakeBank n s) (stopTests b s))
  | .join =>
    let h := modeHome st.e
    if pairOk b h s then
      let s1 := (s.bayBanks b).foldl (fun s n => wakeBank n s) (stopTests b s)
      let s2 := (s1.onBay h fun x => { x with role := 1, partner := BitVec.ofNat 3 b, goHome := false }).onBay b fun x =>
        { x with partner := BitVec.ofNat 3 h }
      .ok (startResync b s2)
    else .error eConflict
  | .leave =>
    let h := s.partnerOf b
    .ok (((clearTasks b s).onBay h Bay.alone).onBay b fun x => { x.alone with partner := x.partner })

/-- The ramps of a RENDER Bay's own timeline go with it; one that begins takes those of the device, its stamp 0 being the device's `now` (R29, R190;
DESIGN CHOICE, log entry 109). -/
def shiftRamps (b : Nat) (on : Bool) (now : Word) (s : State) : State :=
  let rest := s.params.ramps.filter fun r => r.line != b
  let own := (rest.filter fun r => r.line == 255).map fun r => { r with line := b, start := r.start - now }
  { s with params := { s.params with ramps := if on then rest ++ own else rest, recent := s.params.recent.filter fun r => r.line != b } }

/-- The new mode of a Bay (R29, R81, R272, R328): a RENDER Bay's timeline starts at 0; values that waited for the boundary of one that
leaves RENDER take effect. -/
def enterMode (b : Nat) (m : Mode) (s : State) : State :=
  let s1 := if (s.bay b).mode = .render then renderCommit b s else s
  let s2 := s1.onBay b fun x =>
    if m = .render then { x with mode := m, refuseStarts := false, frameCount := 0, stamp := 0, reach := 0, inFrame := false, rswaps := [] }
    else { x with mode := m, refuseStarts := false, inFrame := false, rswaps := [] }
  let s3 := shiftRamps b (decide (m = .render)) s.time.stamp (if (s2.bay b).role = 0 then s2.onBay b fun x => { x with partner := 0 } else s2)
  if (m = .load ∨ m = .mirror) ∧ (s3.bay b).coefArea then dropCoefArea b s3 else s3

/-- Step 3 of a BAY.MODE at its boundary (R272, R294). -/
def finishMode (st : Stepped) (s : State) : State :=
  let b := st.e.target.toNat
  let frame := (s.frameOf b).setWidth 32
  let ended := BitVec.ofNat 32 (s.bay b).ended
  let s1 := enterMode b (modeWanted st.e) s
  let s2 := if changeKind st = .join then s1.onBay b fun x => { x with role := 2, lockstep := true, joined := false } else s1
  endStepped .done st stDone [frame, if (changeKind st).drains then ended else 0] (recordStep st 3 (s2.onBay b fun x => { x with ended := 0 }))

/-- A boundary of a Bay's timeline at which a BAY.MODE whose step 2 is complete enters its new mode (R272). -/
def tickMode (s : State) (b : Nat) : State :=
  match modeChange b s with
  | some st => if st.done = 2 then finishMode st (if (changeKind st).drains then freeEach (fun v => v.bay == b) 0 s else s) else s
  | none => s

/-- A step of BAY.MODE that completes by itself: step 1, and step 2 of a change that has none (R272). `none`: it does not. -/
def bayModeStep (st : Stepped) (k : Nat) (s : State) : Option (Except Status (State × List Word)) :=
  if k = 1 then
    some (match prepareMode st s with
      | .ok t => .ok (t, [])
      | .error x => .error x)
  else if k = 2 ∧ !(changeKind st).drains ∧ changeKind st ≠ .join then some (.ok (s, []))
  else none

/-- No voice of Bay `b` sounds any more: what is left of them goes to FREE at the boundary (R105, R272). -/
def drained (b : Nat) (s : State) : Bool := s.voices.all fun p => !(p.2.inUse && p.2.bay == b && p.2.st.placed && !p.2.toFree)

/-- BAY_MODE_DRAIN_END (R272): the Scarfs of a draining Bay have ended; it enters its new mode at its next frame boundary. -/
def drainEnd (b : Nat) (s : State) : State :=
  match modeChange b s with
  | some st =>
    if st.done = 1 ∧ (changeKind st).drains ∧ drained b s then recordStep st 2 s else s
  | none => s

/-- BAY_MODE_DRAIN_END (R272). -/
def execBayModeDrainEnd (bay : Nat) (s : State) : Outcome := withUnit bay 8 (.next (drainEnd bay s))

/-- The pair that home `b` was in, by its BAY_STATE of then, forms again, and its mirror resynchronises (R88, R276). -/
def formAgain (b : Nat) (was : Word) (s : State) : State :=
  let m := bits was 22 20
  if bits was 18 16 = 1 ∧ (s.bay b).role = 0 ∧ (s.bay m).role = 0 ∧ ((s.bay m).toLoad ∨ (s.bay m).mode = .load) then
    startResync m ((s.onBay b fun x => { x with role := 1, partner := BitVec.ofNat 3 m }).onBay m fun x =>
      { x with partner := BitVec.ofNat 3 b, toLoad := false })
  else s

/-- Undo step `k` of a BAY.MODE (R88): starts are taken again, a coefficient area goes, a pair that step 1 ended forms again and resynchronises,
and one that it formed ends. Voices that the drain has ended and events it has discarded do not come back (DESIGN CHOICE, log entry 78). -/
def bayModeUndo (st : Stepped) (k : Nat) (s : State) : State :=
  let b := st.e.target.toNat
  if k ≠ 1 then s
  else match changeKind st with
    | .enter => if modeFrom st = .load then dropCoefArea b s else s
    | .timeline | .drain => formAgain b (st.undo.getD 1 0) (s.onBay b fun x => { x with refuseStarts := false, ended := 0 })
    | .join => let h := s.partnerOf b; ((clearTasks b s).onBay b Bay.alone).onBay h Bay.alone
    | .leave =>
      let h := s.partnerOf b
      if (s.bay h).role = 0 ∧ (s.bay h).mode.runsVoices then startResync b (s.onBay h fun x => { x with role := 1, partner := BitVec.ofNat 3 b }) else s
    | .swap | .rest => s

-- BAY.STATUS, BAY.RECOVER (R295, R296) ---------------------------------------------------------------------------------------------------------

/-- Words of BAY.STATUS (R295). -/
def bayWords (b : Nat) (s : State) : List Word :=
  let x := s.bay b
  [s.bayState b, x.mismatches, x.unresolved, x.yields, x.drops, x.lateOut, x.returns, x.resyncLeft]

/-- BAY.STATUS (R295). -/
def cardBayStatus : Card where
  opcode := 0x602
  device := false
  modes := [.play, .follow, .render, .mirror, .service, .load]
  len := fun e => e.payload.isEmpty
  run := fun e s => finishNow 0x602 e (bayWords e.target.toNat s) s

/-- OP of a BAY.RECOVER. -/
def recoverOp (e : Entry) : Nat := bits (e.pw 0) 1 0

/-- ADOPT keeps R98 in the Bay in control, which takes the home's parts. -/
def adoptOk (h : Nat) (s : State) : Bool :=
  let m := s.partnerOf h
  decide (reserveSum s.endpoint h + reserveSum s.endpoint m ≤ s.rated m)

/-- BAY.RECOVER (R83, R296): RETURN and ADOPT change modes, so a waiting commit must hold no field of the pair. -/
def cardBayRecover : Card where
  opcode := 0x603
  device := false
  modes := [.play, .follow, .render, .service]
  len := fun e => e.payload.length == 1
  range := fun e _ => bits (e.pw 0) 31 9 == 0 && bits (e.pw 0) 7 2 == 0 && recoverOp e != 3 && (recoverOp e == 0 || !bit (e.pw 0) 8)
  post := fun e s =>
    let h := e.target.toNat
    firstFail
      [ need (s.isHome h) eState,
        need (recoverOp e == 0 || s.yielded h) eState,
        need (!holdsBay s h && !holdsBay s (s.partnerOf h)) eBusy,
        need (recoverOp e == 0 || !(commitHolds h s || commitHolds (s.partnerOf h) s)) eBusy ]
  agree := fun e s => recoverOp e != 2 || adoptOk e.target.toNat s
  run := fun e s => queueBoundary 0x603 e {} s

/-- The home starts its return (R283, R284): ROLE 3, resynchronising from the Bay in control. -/
def startReturn (h : Nat) (s : State) : State := startResync h (s.onBay h fun x => { x with mode := .mirror, goHome := false })

/-- BAY.RECOVER at its boundary (R284, R296). -/
def applyBayRecover (e : Entry) (s : State) : State :=
  let h := e.target.toNat
  match recoverOp e with
  | 0 => s.onBay h fun x => { x with returnHome := bit (e.pw 0) 8 }
  | 1 => if s.yielded h ∧ (s.bay h).role ≠ 3 then startReturn h s else s
  | _ => if s.yielded h then adoptPair h s else s

end Sys2Proof.Machine
end

