-- ==== Sys2Proof/Machine/VaultCmds.lean ====
section
/-! DEFINITION. The Vault and protected content (chapter 15, R422 to R447): packages, keys, tamper alarms and the life cycle. -/

namespace Sys2Proof.Machine

-- registers (R438) ---------------------------------------------------------------------------------------------------------------------

/-- MKEYS (R438). -/
def State.mkeys (s : State) : Nat := s.vault.mks.foldl (fun a p => a + 2 ^ p.1) 0

/-- VLT_STATUS (R438). -/
def State.vltStatus (s : State) : Word :=
  pack [(s.vault.life.toNat, 30), (s.vault.level.toNat, 28), (b2n s.vault.keylock, 27), (b2n s.vault.vbatOk, 26), (s.vault.cks.length, 16),
        (s.mkeys, 0)]

/-- VLT_TAMPER_CFG (R438). -/
def State.vltTamperCfg (s : State) : Word := pack [(s.vault.tinEn.toNat, 16), (s.vault.levels.toNat, 0)]

/-- VLT_ALARM (R438). -/
def State.vltAlarm (s : State) : Word := pack [(s.vault.active.toNat, 8), (s.vault.raised.toNat, 0)]

-- keys and codes (R422, R423, R446, R447) ------------------------------------------------------------------------------------------------

/-- A key of 8 words, first byte in [7:0] of the first; the key's first byte is its most significant (R443). -/
def keyOfWords (ws : List Word) : BitVec 256 :=
  BitVec.ofNat 256 ((wordBytes (ws.take 8)).foldl (fun a x => a * 256 + x.toNat) 0)

/-- The key-wrapping key of a maker key slot (R423). -/
def wrapKey (s : State) (slot : Nat) : BitVec 256 := hmac s.vault.drk [BitVec.ofNat 8 slot]

/-- The fused serial number's bytes, low byte first (R446). -/
def serialBytes (s : State) : List Byte := (List.range 8).map fun i => (s.vault.serial >>> (8 * i)).setWidth 8

/-- The first 128 bits of the code over the serial number and a word (R446, R447). -/
def codeOver (s : State) (w : Word) : List Word := (digestWords (hmac s.vault.ik (serialBytes s ++ wordBytes [w]))).take 4

-- wiping (R331, R434) -----------------------------------------------------------------------------------------------------------------------

/-- Remove the objects of the packages that satisfy `f` from the content store and from every Bay, with their content keys
(R429, R434). -/
def removePackages (f : Nat → Bool) (s : State) : State :=
  let os := (s.mem.content.filter fun p => f p.2.pkg.toNat).map fun p => p.1
  let keys := (s.mem.resid.filter fun p => os.contains (p.1 % 2 ^ 32)).map fun p => p.1
  let s1 := keys.foldl (fun s k => demote (k / 2 ^ 32) (k % 2 ^ 32) s) s
  { s1 with
    mem := { s1.mem with content := s1.mem.content.filter (fun p => !f p.2.pkg.toNat), pkgs := s1.mem.pkgs.filter (fun p => !f p.1),
                         resid := s1.mem.resid.filter (fun p => !os.contains (p.1 % 2 ^ 32)),
                         requests := s1.mem.requests.filter (fun r => !os.contains r.object),
                         kept := s1.mem.kept.filter fun w => match w with | .fetch _ o => !os.contains o | .heat _ _ => true },
    vault := { s1.vault with cks := s1.vault.cks.filter fun p => p.2.pkg == 0 || !f p.2.pkg.toNat } }

/-- Zeroise every secure and every protected bank (R331, R434). -/
def zeroiseSecure (s : State) : State :=
  (List.range 64).foldl (fun s n => if (s.bank n).owner = 0xE ∨ (s.bank n).prot then zeroise n s else s) s

/-- The zeroising of R434: key slots, working area, secure and protected banks; protected packages leave the content store. -/
def wipeVault (s : State) : State :=
  let s1 := zeroiseSecure s
  let prot := (s1.mem.pkgs.filter fun p => p.2).map fun p => p.1
  let s2 := removePackages prot.contains s1
  { s2 with vault := { s2.vault with mks := [], cks := [], work := [] } }

-- packages (R426, R427, R439 to R441) -----------------------------------------------------------------------------------------------------------

/-- Words 0 to 3 of a package are valid as far as they are staged (R426, R439). -/
def pkgHeadOk (ws : List Word) : Bool :=
  let n := ws.length
  let w := fun i => ws.getD i 0
  let wrapped := ((ws.drop 4).take 10).all fun x => x == 0
  (decide (n < 1) || w 0 == 0x504B0100) && (decide (n < 2) || w 1 != 0)
  && (decide (n < 3) || (bits (w 2) 30 20 == 0 && bits (w 2) 15 0 != 0))
  && (decide (n < 4) || decide (24 + 2 * bits (w 2) 15 0 + (w 3).toNat ≤ 2 ^ 26))
  && (bit (w 2) 31 || wrapped) && ((ws.drop 17).take 3).all fun x => x == 0

/-- Length of a package in words (R426). -/
def pkgLen (ws : List Word) : Nat := 24 + 2 * bits (ws.getD 2 0) 15 0 + (ws.getD 3 0).toNat

/-- The chunk of a PKG.WRITE. -/
def pkgChunk (e : Entry) (s : State) : List Word := Mem.words s.mem.win ((e.pw 0).toNat / 4) (e.pw 2).toNat

/-- What is staged after the chunk. -/
def stagedAfter (e : Entry) (s : State) : List Word := if e.pw 1 = 0 then pkgChunk e s else s.mem.stage ++ pkgChunk e s

/-- Bytes of the populated channels (R339, R474). -/
def ddrBytes (s : State) : Nat :=
  channelBytes (s.mem.ddr.toNat / 16) + channelBytes (s.mem.ddr.toNat % 16)

/-- Bytes of the content store. -/
def storeBytes (s : State) : Nat := s.mem.content.foldl (fun a p => a + 4 * (7 + p.2.data.length)) 0

/-- PKG.WRITE (R439). -/
def cardPkgWrite : Card where
  opcode := 0x520
  len := fun e => e.payload.length == 3
  range := fun e _ =>
    (e.pw 0).toNat % 4 == 0 && (e.pw 1).toNat % 4 == 0 && decide (1 ≤ (e.pw 2).toNat) && decide ((e.pw 2).toNat ≤ 196608)
    && dataRegion (e.pw 0).toNat (4 * (e.pw 2).toNat)
  post := fun e s =>
    let ws := stagedAfter e s
    firstFail
      [ need (!stepping [0x521] s) eBusy,
        need (decide (storeBytes s + 4 * ws.length ≤ ddrBytes s)) eNoslot,
        need ((e.pw 1 == 0 || (s.mem.stageOpen && (e.pw 1).toNat == 4 * s.mem.stage.length)) && pkgHeadOk ws
          && (decide (ws.length < 4) || decide (ws.length ≤ pkgLen ws))) eConflict ]
  run := fun e s =>
    let ws := stagedAfter e s
    finishNow 0x520 e [BitVec.ofNat 32 (4 * ws.length)] { s with mem := { s.mem with stage := ws, stageOpen := true } }

/-- The staged package is protected. -/
def stageProtected (s : State) : Bool := bit (s.mem.stage.getD 2 0) 31

/-- The staging is complete (R440). -/
def stageComplete (s : State) : Bool := s.mem.stageOpen && decide (24 ≤ s.mem.stage.length) && s.mem.stage.length == pkgLen s.mem.stage

/-- PKG.COMMIT (R440). -/
def cardPkgCommit : Card where
  opcode := 0x521
  len := fun e => e.payload.length == 0
  pre := fun _ s => need (!(stageProtected s && s.keyLocked)) eLocked
  post := fun _ s => firstFail [need (!stepping [0x521] s) eBusy, steppedRoom s, need (stageComplete s) eConflict]
  run := fun e s => startStepped 0x521 e 2 2 [] s

/-- An object header obeys R341. -/
def headerOk (h : List Word) : Bool :=
  let w := fun i => h.getD i 0
  if bits (w 0) 31 28 = 1 then
    let n := bits (w 0) 27 24 + 1
    let k := bits (w 0) 23 20
    let hl := (List.range 12).map fun i => if i % 2 = 0 then bits (w (1 + i / 2)) 15 0 else bits (w (1 + i / 2)) 31 16
    bits (w 0) 19 0 == 0 && decide (n ≤ 11) && decide (8 ≤ k) && decide (k ≤ 14) && (hl.drop n).all (fun x => x == 0)
    && ((List.range (n - 1)).all fun i => decide (hl.getD (i + 1) 0 < hl.getD i 0)) && hl.getD (n - 1) 0 == 1
    && (hl.take n).all (fun x => decide (x ≤ 2 ^ (k - 1)))
  else
    bits (w 0) 31 28 == 2 && bits (w 0) 27 1 == 0 && w 1 != 0
    && (!bit (w 0) 0 || (decide ((w 2).toNat < (w 3).toNat) && decide ((w 3).toNat ≤ (w 1).toNat)))
    && decide (8000 ≤ (w 4).toNat) && decide ((w 4).toNat ≤ 192000) && decide ((w 5).toNat < 2 ^ 23) && w 6 == 0

/-- Words of an object with its header (R341). -/
def fullWords (h : List Word) : Nat :=
  let w := fun i => h.getD i 0
  if bits (w 0) 31 28 = 1 then 7 + (bits (w 0) 27 24 + 1) * 2 ^ bits (w 0) 23 20 else 7 + (w 1).toNat

/-- The parts of a staged package (R426). -/
structure Package where
  num : Nat
  prot : Bool
  slot : Nat
  wrapped : List Word
  iv : List Word
  aad : List Word
  /-- object number and payload word offset -/
  table : List (Nat × Nat)
  payload : List Word
  tag : List Word

/-- Read the staged package (R426). -/
def readPackage (ws : List Word) : Package :=
  let w := fun i => ws.getD i 0
  let m := bits (w 2) 15 0
  let l := (w 3).toNat
  { num := (w 1).toNat, prot := bit (w 2) 31, slot := bits (w 2) 19 16, wrapped := (ws.drop 4).take 10, iv := (ws.drop 14).take 3,
    aad := ws.take (20 + 2 * m), table := (List.range m).map fun i => ((w (20 + 2 * i)).toNat, (w (21 + 2 * i)).toNat),
    payload := (ws.drop (20 + 2 * m)).take l, tag := (ws.drop (20 + 2 * m + l)).take 4 }

/-- The lowest free content key slot (R424). -/
def freeCk (s : State) : Option Nat := (List.range 64).find? fun i => (s.vault.cks.find i).isNone

/-- Word `i` of a payload in the clear: counter-mode decryption where the package is protected (R428). -/
def payloadWord (key : BitVec 256) (p : Package) (i : Nat) : Word :=
  if p.prot then gcmWord key p.iv i (p.payload.getD i 0) else p.payload.getD i 0

/-- The tag over the whole package is good (R426): an unprotected payload is the plaintext under the all-zero key. -/
def pkgTagOk (key : BitVec 256) (p : Package) : Bool :=
  if p.prot then p.tag == gcmTag key p.iv p.aad p.payload
  else p.tag == gcmTag 0 p.iv p.aad (p.payload.zipIdx.map fun x => gcmWord 0 p.iv x.2 x.1)

/-- Header of the object at payload word `o` in the clear. -/
def objHeader (key : BitVec 256) (p : Package) (o : Nat) : List Word := (List.range 7).map fun i => payloadWord key p (o + i)

/-- Every object obeys R341, lies in the payload, stands in ascending number and is not yet in the content store (R426, R427). -/
def pkgObjectsOk (key : BitVec 256) (p : Package) (s : State) : Bool :=
  (p.table.all fun x => headerOk (objHeader key p x.2) && decide (x.2 + fullWords (objHeader key p x.2) ≤ p.payload.length)
    && x.1 != 0x80000000 && x.1 != 0xFFFFFFFF && !s.inStore x.1)
  && ((List.range (p.table.length - 1)).all fun i => decide ((p.table.getD i (0, 0)).1 < (p.table.getD (i + 1) (0, 0)).1))

/-- Step 1 of PKG.COMMIT (R427, R440): on success a protected package holds a content key slot. -/
def pkgVerify (s : State) : Except Status (State × List Word) :=
  let p := readPackage s.mem.stage
  let check := fun (key : BitVec 256) (t : State) =>
    if !pkgTagOk key p then .error eAuth else if !pkgObjectsOk key p s then .error eConflict else .ok (t, [])
  if !p.prot then check 0 s
  else if s.keyLocked then .error eLocked
  else match s.vault.mks.find p.slot with
    | none => .error eState
    | some mk =>
      match freeCk s with
      | none => .error eNoslot
      | some c =>
        match keyUnwrap mk p.wrapped with
        | none => .error eAuth
        | some key => check key { s with vault := { s.vault with cks := s.vault.cks.put c { key := key, iv := p.iv } } }

/-- The content key slot that step 1 took: the one that no package holds yet (R427). -/
def newCk (s : State) : Option Nat := (s.vault.cks.find? fun p => p.2.pkg == 0).map fun p => p.1

/-- Step 2 of PKG.COMMIT (R427): the objects enter the content store. A wipe between the steps leaves no key, and the step
fails with the alarm's status (DEDUCED, log entry 30). A package of a number already held joins that package (DESIGN CHOICE, log
entry 30). -/
def pkgInstall (s : State) : Except Status (State × List Word) :=
  let p := readPackage s.mem.stage
  let slot := newCk s
  if p.prot && slot.isNone then .error eLocked
  else
    let c := slot.getD 0
    let ck := s.vault.cks.look c {}
    let num : Word := BitVec.ofNat 32 p.num
    let store := p.table.foldl (fun (t : Tab Content) x =>
      let h := objHeader ck.key p x.2
      t.put x.1 { pkg := num, header := h, prot := p.prot, data := (p.payload.drop (x.2 + 7)).take (fullWords h - 7),
                  slot := c, base := x.2 }) s.mem.content
    .ok ({ s with mem := { s.mem with content := store, pkgs := s.mem.pkgs.put p.num (p.prot || s.mem.pkgs.look p.num false), stage := [],
                                      stageOpen := false },
                  vault := { s.vault with cks := if p.prot then s.vault.cks.put c { ck with pkg := num } else s.vault.cks } },
         [num, BitVec.ofNat 32 p.table.length])

/-- Undo of step 1: the content key slot is given up. -/
def pkgUndo (s : State) : State :=
  match newCk s with
  | some c => { s with vault := { s.vault with cks := s.vault.cks.del c } }
  | none => s

/-- An object of a package is read by a voice in PRE-ROLL to SCARF, or pinned (R441). -/
def pkgInUse (n : Nat) (s : State) : Bool :=
  let mine := fun o => (s.contentOf o).pkg.toNat == n && s.inStore o
  (s.mem.resid.any fun p => p.2.pinned && mine (p.1 % 2 ^ 32))
  || s.voices.any fun p => p.2.inUse && p.2.st.placed && (s.voiceObjects p.2).any mine

/-- PKG.DROP (R441). -/
def cardPkgDrop : Card where
  opcode := 0x522
  len := fun e => e.payload.length == 1
  range := fun e s => (s.mem.pkgs.find (e.pw 0).toNat).isSome
  post := fun e s => need (!pkgInUse (e.pw 0).toNat s) eBusy
  run := fun e s => queueBoundary 0x522 e {} s

/-- PKG.DROP at its boundary (R429). -/
def applyPkgDrop (e : Entry) (s : State) : State := removePackages (fun n => n == (e.pw 0).toNat) s

-- status and keys (R442 to R444) ----------------------------------------------------------------------------------------------------------------

/-- The three words of a log entry (R442). -/
def logWords (x : AlarmEnt) : List Word :=
  [pack [(x.source, 0), (x.level.toNat, 8), (b2n x.slow, 16)], x.time.setWidth 32, (x.time >>> 32).setWidth 32]

/-- VAULT.STATUS (R442). -/
def cardVaultStatus : Card where
  opcode := 0xA00
  len := fun e => e.payload.length == 1
  range := fun e _ => bits (e.pw 0) 31 5 == 0 && decide (bits (e.pw 0) 4 0 ≤ 16)
  run := fun e s =>
    let xs := s.vault.log.take (bits (e.pw 0) 4 0)
    finishNow 0xA00 e
      ([s.vltStatus, s.vltTamperCfg, s.vltAlarm, s.vault.erases,
        pack [(s.mem.pkgs.length, 16), ((s.mem.pkgs.filter fun p => p.2).length, 0)], BitVec.ofNat 32 xs.length] ++ xs.flatMap logWords) s

/-- Put a maker key into a slot. -/
def putMk (slot : Nat) (key : BitVec 256) (s : State) : State := { s with vault := { s.vault with mks := s.vault.mks.put slot key } }

/-- VAULT.KEY.WRAP (R443). -/
def cardKeyWrap : Card where
  opcode := 0xA01
  len := fun e => e.payload.length == 9
  range := fun e _ => bits (e.pw 0) 31 4 == 0
  pre := fun _ s => need (decide (s.vault.life.toNat < 2) && !s.vault.keylock) eLocked
  run := fun e s =>
    let slot := bits (e.pw 0) 3 0
    let mk := keyOfWords (e.payload.drop 1)
    finishNow 0xA01 e (keyWrap (wrapKey s slot) mk) (putMk slot mk s)

/-- The key a blob unwraps to in its slot (R444). -/
def unwrapBlob (e : Entry) (s : State) : Option (BitVec 256) := keyUnwrap (wrapKey s (bits (e.pw 0) 3 0)) (e.payload.drop 1)

/-- VAULT.KEY.LOAD (R444). -/
def cardKeyLoad : Card where
  opcode := 0xA02
  len := fun e => e.payload.length == 11
  range := fun e _ => bits (e.pw 0) 31 4 == 0
  pre := fun e s => firstFail [need (!s.keyLocked) eLocked, need (unwrapBlob e s).isSome eAuth]
  run := fun e s =>
    let s1 := putMk (bits (e.pw 0) 3 0) ((unwrapBlob e s).getD 0) s
    finishNow 0xA02 e [BitVec.ofNat 32 s1.mkeys] s1

-- tamper (R430 to R435, R445, R446) ----------------------------------------------------------------------------------------------------------------

/-- TAMPER.SET (R445). -/
def cardTamperSet : Card where
  opcode := 0xA10
  len := fun e => e.payload.length == 1
  range := fun e _ =>
    bits (e.pw 0) 31 18 == 0 && bits (e.pw 0) 15 12 == 0 && (List.range 6).all fun i => bits (e.pw 0) (2 * i + 1) (2 * i) != 0
  pre := fun _ s => need (decide (s.vault.life.toNat < 2)) eLocked
  run := fun e s => queueBoundary 0xA10 e {} s

/-- TAMPER.SET at its boundary (R431, R445); a pair that is not monitored is no active source (R430). -/
def applyTamperSet (e : Entry) (s : State) : State :=
  if 2 ≤ s.vault.life.toNat then s else
  let tin : BitVec 2 := BitVec.ofNat 2 (bits (e.pw 0) 17 16)
  { s with vault := { s.vault with levels := BitVec.ofNat 12 (bits (e.pw 0) 11 0), tinEn := tin, active := s.vault.active &&& (0xF#4 ++ tin) } }

/-- TAMPER.CLEAR (R446): in FIELD, an ERASE needs the clear code (R432). -/
def cardTamperClear : Card where
  opcode := 0xA11
  len := fun e => e.payload.length == 4
  range := fun e s => (s.vault.life == 2 && s.vault.level == 3) || e.payload.all fun w => w == 0
  pre := fun e s => need (!(s.vault.life == 2 && s.vault.level == 3) || e.payload == codeOver s s.vault.erases) eAuth
  post := fun _ s => need (s.vault.active == 0) eState
  run := fun e s =>
    let s1 := { s with vault := { s.vault with level := 0, raised := 0, keylock := false, refuseAll := false } }
    finishNow 0xA11 e [s1.vltStatus] s1

/-- Level assigned to a source (R431). -/
def sourceLevel (s : State) (i : Nat) : Nat := s.vault.levels.toNat / 4 ^ i % 4

/-- A source is monitored now (R430). -/
def monitored (s : State) (mainPower : Bool) (i : Nat) : Bool :=
  if i < 2 then s.vault.tinEn.getLsbD i else if i = 2 ∨ i = 3 then mainPower else true

/-- Log a raised source (R431): Device Time, or the slow-clock count without main power (R435). -/
def logAlarm (mainPower : Bool) (t : BitVec 64) (s : State) (i : Nat) : State :=
  let x : AlarmEnt := { source := i, level := BitVec.ofNat 2 (sourceLevel s i), slow := !mainPower, time := if mainPower then s.time.deviceTime else t }
  { s with vault := { s.vault with log := (x :: s.vault.log).take 128 } }

/-- A voice reads a protected object. -/
def State.readsProtected (s : State) (v : Voice) : Bool := (s.voiceObjects v).any fun o => (s.contentOf o).prot

/-- Slots of the voices that read protected content. -/
def protectedVoices (s : State) : List Nat := (s.voicesWith fun v => !v.toFree && v.st != .free && s.readsProtected v).map fun p => p.1

/-- What an alarm of a level does at once (R432 to R435). -/
def raiseLevel (mainPower : Bool) (level : Nat) (s : State) : State :=
  let v := s.vault
  let s1 := { s with vault := { v with level := BitVec.ofNat 2 (Nat.max v.level.toNat level), keylock := v.keylock || decide (2 ≤ level) } }
  if level < 2 then s1
  else if level = 2 then (if mainPower then { s1 with vault := { s1.vault with guardFrame := true } } else s1)
  else
    let cut := protectedVoices s1
    let s2 := if mainPower then wipeVault s1 else { s1 with vault := { s1.vault with mks := [], cks := [], work := [] } }
    { s2 with vault := { s2.vault with erases := s2.vault.erases + 1, refuseAll := true, eraseVoices := s2.vault.eraseVoices ++ cut } }

/-- Periods of the slow clock that have begun: those of the main power, or without it the count at which the source was raised (R430, R435). -/
def State.slowNow (s : State) (mainPower : Bool) (t : BitVec 64) : Nat := if mainPower then s.vault.slowTicks else t.toNat

/-- What the Vault drives on TAMP_OUT `k` (R430): the pseudo-random bit of the slow-clock period while TIN_EN bit `k` is set. -/
def State.tampOut (s : State) (k : Nat) : Option Bool := if s.vault.tinEn.getLsbD k then some (Config.tampBit k s.vault.slowTicks) else none

/-- Source TIN `k` (R430): the levels of TAMP_IN `k` in the last two periods, the older first, both differ from the bits driven there. -/
def tinBroken (k n : Nat) (tin : Bool × Bool) : Bool := tin.1 != Config.tampBit k (n - 1) && tin.2 != Config.tampBit k n

/-- The condition of a source holds (R430): for TIN0 and TIN1 by what the two pins gave. -/
def State.sourceHolds (s : State) (sources : BitVec 6) (tin : List (Bool × Bool)) (mainPower : Bool) (t : BitVec 64) (i : Nat) : Bool :=
  sources.getLsbD i && (decide (2 ≤ i) || (match tin[i]? with | some x => tinBroken i (s.slowNow mainPower t) x | none => false))

/-- Sources turn active; those that change are raised together (R430 to R432). -/
def raiseSources (sources : BitVec 6) (tin : List (Bool × Bool)) (mainPower : Bool) (t : BitVec 64) (s : State) : State :=
  let new := (List.range 6).filter fun i => s.sourceHolds sources tin mainPower t i && !s.vault.active.getLsbD i && monitored s mainPower i
  if new.isEmpty then s
  else
    let m : BitVec 6 := BitVec.ofNat 6 (new.foldl (fun a i => a + 2 ^ i) 0)
    let s1 := { s with vault := { s.vault with active := s.vault.active ||| m, raised := s.vault.raised ||| m, vbatOk := s.vault.vbatOk && !new.contains 5 } }
    let s2 := new.foldl (logAlarm mainPower t) s1
    let s3 := raiseLevel mainPower (new.foldl (fun a i => Nat.max a (sourceLevel s i)) 0) s2
    if mainPower then new.foldl (fun s _ => hwPostNew 3 4 s) s3 else s3

/-- TAMPER_RAISED (R430). -/
def execTamperRaised (seen : TamperSeen) (mainPower : Bool) (time : BitVec 64) (s : State) : Outcome :=
  .next (raiseSources seen.sources seen.tin mainPower time s)

/-- TAMPER_SOURCE_INACTIVE (R430). -/
def execTamperSourceInactive (source : Nat) (s : State) : Outcome :=
  withUnit source 6 (.next { s with vault := { s.vault with active := setBit s.vault.active source false, vbatOk := s.vault.vbatOk || source == 5 } })

/-- A protected voice at the boundary after a GUARD alarm (R433): cancelled while PENDING, else a GUARD Scarf of 0.5 ms that
ends as a shed voice. -/
def guardVoice (s : State) (i : Nat) : State :=
  let v := s.voice i
  if v.st = .pending then cancelVoice i s
  else if v.st = .scarf then s
  else
    let t := s.stampOf v.bay
    let s1 := s.setVoice i { v with guard := true }
    (scarfVoice i t (samples100us s.time.rate 5) 4 s1).onPart v.part fun c => { c with shed := satInc c.shed }

/-- A voice at the boundary after an ERASE (R434). -/
def eraseVoice (s : State) (i : Nat) : State :=
  let v := s.voice i
  if v.toFree ∨ v.st = .free then s
  else if v.st = .pending then cancelVoice i s
  else (s.setVoice i { v with silent := true, toFree := true, cause := 5 }).onPart v.part fun c => { c with cut := satInc c.cut }

/-- What the alarms leave for a device frame boundary (R433, R434). -/
def tickVault (s : State) : State :=
  let s1 := s.vault.eraseVoices.foldl eraseVoice { s with vault := { s.vault with eraseVoices := [] } }
  let s2 := if s1.vault.guardFrame then
      let t := (protectedVoices s1).foldl guardVoice s1
      { t with vault := { t.vault with guardFrame := false, guardScarf := true } }
    else s1
  if s2.vault.guardScarf ∧ (s2.voicesWith fun v => v.guard && v.st == .scarf).isEmpty then
    { s2 with vault := { s2.vault with guardScarf := false, refuseAll := s2.vault.refuseAll || s2.vault.keylock } }
  else s2

-- the life cycle (R436, R437, R447) -----------------------------------------------------------------------------------------------------------------

/-- Target state of a LIFE.ADVANCE. -/
def lifeTarget (e : Entry) : Nat := bits (e.pw 0) 1 0

/-- LIFE.ADVANCE (R447). -/
def cardLifeAdvance : Card where
  opcode := 0xA20
  len := fun e => e.payload.length == 13
  range := fun e s =>
    let key := (e.payload.drop 1).take 8
    let code := e.payload.drop 9
    let zero := fun (ws : List Word) => ws.all fun w => w == 0
    bits (e.pw 0) 31 2 == 0 && decide (s.vault.life.toNat < lifeTarget e) && (if s.vault.life = 0 then !zero key else zero key)
    && ((s.vault.life == 2 && lifeTarget e == 3) || zero code)
  pre := fun e s => need (!(s.vault.life == 2 && lifeTarget e == 3) || e.payload.drop 9 == codeOver s 3) eAuth
  post := fun _ s =>
    firstFail
      [ need ((List.range 8).all fun b => !s.formed b || (s.bay b).mode == .load || (s.bay b).mode == .service) eState,
        need (!stepping [0xA20, 0x521] s) eBusy, steppedRoom s ]
  run := fun e s => startStepped 0xA20 e 2 2 [] s

/-- A step of LIFE.ADVANCE (R437): the wipe, then the fuses. -/
def lifeStep (st : Stepped) (k : Nat) (s : State) : Except Status (State × List Word) :=
  if k = 1 then .ok (wipeVault s, [])
  else
    let v := s.vault
    let s1 := { s with vault := { v with life := BitVec.ofNat 2 (lifeTarget st.e), ik := if v.life = 0 then keyOfWords (st.e.payload.drop 1) else v.ik,
                                         drkOff := v.drkOff || lifeTarget st.e == 3 } }
    .ok (s1, [s1.vltStatus])

end Sys2Proof.Machine
end

