-- ==== Sys2Proof/Machine/Conductors.lean ====
section
/-! DEFINITION. The two Conductors (R88, R286 to R292, R297, R298), and the steps of stepped commands (R76, R77). -/

namespace Sys2Proof.Machine

-- steps (R76, R77) ------------------------------------------------------------------------------------------------------------------------

/-- What the mirror takes at a boundary (R47, R286): the servo state, the sessions, and the configuration values that the Conductor keeps itself. The
values that stand in registers of the hardware are read back there (DESIGN CHOICE, log entry 138). -/
def mirrorOf (s : State) : CondMirror :=
  { doms := s.time.doms, sessions := s.se.sessions, endpoints := s.params.endpoints, envs := s.params.envs }

/-- A Conductor restarts: STANDBY_READY is 0 until its mirror is complete again (R286, R292). -/
def standbyRestarts (s : State) : State := { s with mbx := { s.mbx with standbyReady := false, readyFrames := 0 } }

/-- The image of an FW.UPDATE as it stands in the Host Window (R298). -/
def fwImage (e : Entry) (s : State) : List Word := Mem.words s.mem.win ((e.pw 0).toNat / 4) (e.pw 1).toNat

/-- A boot header with its tag (R425, R474): the boot slot, SEQ, and words 2 and 3 of the header in force; without one the defaults of R476, with no
dummy cycles (DESIGN CHOICE, log entry 9). -/
def newHeader (slot : Bool) (seq : Word) (old : List Word) (ik : BitVec 256) : List Word :=
  let ws : List Word := [pack [(0x4248, 16), (1, 8), (b2n slot, 0)], seq, old.getD 2 0x00190000, old.getD 3 1, 0, 0, 0, 0]
  ws ++ digestWords (hmac ik (wordBytes ws))

/-- Step 4 of FW.UPDATE writes the older header copy with the new boot slot and SEQ + 1, which is in force from then on (R474). -/
def Power.markBoot (p : Power) (ik : BitVec 256) : Power :=
  let f := p.flash
  let h := newHeader (!p.bootSlot) (p.headerSeq + 1) (if f.octal then f.headers.look (b2n f.copy) [] else []) ik
  { p with bootSlot := !p.bootSlot, headerSeq := p.headerSeq + 1, fwVersion := p.altVersion, altVersion := p.fwVersion,
           flash := { f with headers := f.headers.put (b2n !f.copy) h, copy := !f.copy } }

/-- FW.UPDATE's step `k` (R292): the tag; the alternate slot and the standby, which restarts on it; the probation that follows the planned switch;
the other Conductor, which restarts, and the alternate slot marked as the boot slot. `data` carries the new firmware's version. -/
def fwStep (st : Stepped) (k : Nat) (data : List Word) (s : State) : Option (Except Status (State × List Word)) :=
  let p := s.power
  if k = 1 then
    some (if imageTagOk s.vault.ik (fwImage st.e s) then .ok (standbyRestarts s, []) else .error eAuth)
  else if k = 2 then
    let f := { p.flash with slots := p.flash.slots.put (b2n !p.bootSlot) (fwImage st.e s) }
    some (.ok ({ s with power := { p with altVersion := data.getD 0 0, flash := f }, mbx := { s.mbx with standbyReady := true, readyFrames := 0 },
                        se := { s.se with mirror := mirrorOf s } }, []))
  else if k = 3 then
    if p.probation then some (.ok (standbyRestarts { s with power := { p with probation := false } }, [])) else none
  else
    some (.ok ({ s with power := p.markBoot s.vault.ik,
                        mbx := { s.mbx with standbyReady := true, readyFrames := 0, gaveUp := false }, se := { s.se with mirror := mirrorOf s } },
              [p.altVersion]))

/-- What step `k` of a running stepped command does; `none` where the step ends at a boundary or event of its own. -/
def stepEffects (st : Stepped) (k : Nat) (data : List Word) (s : State) : Option (Except Status (State × List Word)) :=
  match st.opcode with
  | 0x530 => some (vprogStep st k s)
  | 0x500 => if k = 1 then some (bankGiveStep st s) else none
  | 0x521 => some (if k = 1 then pkgVerify s else pkgInstall s)
  | 0xA20 => some (lifeStep st k s)
  | 0x601 => bayModeStep st k s
  | 0x041 => fwStep st k data s
  | _ => none

/-- Undo step `k` of a stepped command (R88). -/
def undoStep (st : Stepped) (k : Nat) (s : State) : State :=
  match st.opcode with
  | 0x530 => vprogUndo st k s
  | 0x521 => if k = 1 then pkgUndo s else s
  | 0x601 => bayModeUndo st k s
  | 0x041 => if k = 2 then standbyRestarts { s with power := { s.power with probation := false } } else s
  | _ => s

/-- A switch to the other Conductor (R287, R291): ACTIVE, SWITCHES and HW_DB_RSP.FAILOVER. -/
def switchOver (s : State) : State :=
  answerActive (setDbRsp 16 { s with mbx := { s.mbx with activeB := !s.mbx.activeB, switches := satInc s.mbx.switches, missed := 0, reported := true } })

/-- A step of FW.UPDATE fails under probation (R77, R292): control switches back, and the other Conductor restarts on its previous image. -/
def endProbation (st : Stepped) (s : State) : State :=
  if st.opcode = 0x041 ∧ s.power.probation then
    standbyRestarts (let s1 := { s with power := { s.power with probation := false } }; if s.mbx.standbyReady then switchOver s1 else s1)
  else s

/-- The step under way completes (R77): recorded, then the next begins or the command ends; with an error it fails. -/
def stepComplete (j : Word) (err : BitVec 16) (data : List Word) (s : State) : State :=
  match s.mbx.running.find? fun x => x.j == j with
  | none => s
  | some st =>
    let k := st.done + 1
    match stepEffects st k data s with
    | none => s
    | some r =>
      if err ≠ 0 then failStep st k err (endProbation st s)
      else match r with
        | .error x => failStep st k x s
        | .ok (t, ws) =>
          let u := recordStep st k (onRunning j (fun x => { x with words := x.words ++ ws }) t)
          if k = st.n then endStepped .done st stDone (st.words ++ ws) u else u

/-- STEP_EFFECTS_COMPLETE (R77): the active Conductor records it. -/
def execStepEffectsComplete (j : Word) (err : BitVec 16) (data : List Word) (s : State) : Outcome :=
  .next (if s.condDown then s else stepComplete j err data s)

/-- Step 2 of every waiting BANK.GIVE at a device frame boundary (R330). -/
def tickBankGive (s : State) : State :=
  (s.mbx.running.filter fun st => st.opcode == 0x500 && st.done == 1).foldl (fun s st =>
    endStepped .done st stDone ([s.time.frameCount.setWidth 32] ++ st.words) (recordStep st 2 (switchBanks st.e s))) s

-- the mirror of the standby (R47, R286, R288) -------------------------------------------------------------------------------------------------

/-- The boundary's copy into the mirror of a standby that holds one (R286). -/
def tickMirror (s : State) : State :=
  if s.mbx.standbyReady && !s.condDown then { s with se := { s.se with mirror := mirrorOf s } } else s

/-- A session as the new Conductor knows it (R286): the software fields of the mirror, or for a parked session the whole record; a parked session
that the mirror does not hold is lost. Which fields are software's is the model's choice (DESIGN CHOICE, log entry 133). -/
def takeSession (m : Tab Session) (i : Nat) (x : Session) : Session :=
  let y := m.look i {}
  if !x.isOpen then x
  else if y.isOpen && y.tag == x.tag then
    if x.slot = 255 then { y with closing := x.closing }
    else { x with offset := y.offset, jitter := y.jitter, jr := y.jr, jrLast := y.jrLast, jrPending := y.jrPending, umpSeq := y.umpSeq, midi2 := y.midi2 }
  else if x.slot = 255 then { tag := x.tag }
  else x

/-- The servo state of a domain as the mirror holds it (R47); what the ports have still to send is the hardware's. -/
def takeDom (m : Tab Dom) (s : State) (d : Nat) : State := s.setDom d { m.look d {} with sent := (s.dom d).sent }

/-- The new Conductor goes on from its mirror (R47, R286). -/
def takeMirror (s0 : State) : State :=
  let s := [0, 2].foldl (takeDom s0.se.mirror.doms) s0
  { s with params := { s.params with endpoints := s0.se.mirror.endpoints, envs := s0.se.mirror.envs },
           se := { s.se with sessions := s.se.sessions.mapVals (takeSession s.se.mirror.sessions) } }

/-- A message of a receive buffer, taken now: what it carries unstamped is stamped now (R288). -/
def takeMessage (i : NetMsg) (s : State) : Outcome :=
  let now := s.time.deviceTime
  match i with
  | .networkMidiPacket sid q ps => execNetworkMidiPacket sid q now ps s
  | .jrClock sid c => execJrClock sid now c s
  | .invitation port identity auth => execInvitation port identity auth s
  | .bye sid => execBye sid s
  | .endpointDiscovery sid => execEndpointDiscovery sid s
  | .streamConfigurationRequest sid m => execStreamConfigurationRequest sid m s
  | .functionBlockDiscovery sid => execFunctionBlockDiscovery sid s
  | .announce dom vec => execAnnounce dom vec s
  | .followUp dom origin => execFollowUp dom origin s
  | .pdelayRespFollowUp dom delay => execPdelayRespFollowUp dom delay s
  | .signaling dom interval => execSignaling dom interval s
  | .acmpConnect t id => execAcmpConnect t id s
  | .acmpDisconnect t => execAcmpDisconnect t s
  | .acmpGetState t => execAcmpGetState t s
  | .adpDiscover => execAdpDiscover s
  | .entityAvailable ctl => execEntityAvailable ctl s
  | .readDescriptor ctl type index => execReadDescriptor ctl type index s
  | .acquireEntity ctl release => execAcquireEntity ctl release s
  | .lockEntity ctl unlock => execLockEntity ctl unlock s
  | .getStreamFormat ctl t => execGetStreamFormat ctl t s
  | .setStreamFormat ctl t format => execSetStreamFormat ctl t format s
  | .getStreamInfo ctl t => execGetStreamInfo ctl t s
  | .getCounters ctl t => execGetCounters ctl t s

/-- The receive buffers are taken over, oldest message first (R287, R288). -/
def takeBuffers (s : State) : State :=
  s.se.rxHeld.foldl (fun s i => match takeMessage i s with | .next t => t | _ => s) { s with se := { s.se with rxHeld := [] } }

-- give-up and failover (R287 to R290) ---------------------------------------------------------------------------------------------------------

/-- Losses of control within the last 60 s (R290). -/
def recentLosses (s : State) : List (Bool × BitVec 48) :=
  s.mbx.lost.filter fun p => decide ((s.time.frameCount - p.2).toNat < famFrames s.time.rate 360000 330750)

/-- The active Conductor gives up control, or the watchdog takes it (R287, R290): no Conductor serves the mailboxes. -/
def giveUp (s : State) : State :=
  if s.mbx.fenced then s
  else { s with mbx := { s.mbx with fenced := true, lost := (s.mbx.activeB, s.time.frameCount) :: recentLosses s, reported := false } }

/-- WATCHDOG_TAKEOVER (R287): two boundaries in a row without a report. -/
def execWatchdogTakeover (s : State) : Outcome := .next (if 2 ≤ s.mbx.missed then giveUp s else s)

/-- A final response that its ring has not had room for is F_FAILOVER instead: it was owed and not yet written (R64, R88, R89). -/
def heldFailover (s : State) (r : Resp) : Resp :=
  match journalFind r.jindex s with
  | none => r
  | some x =>
    if r.final ∧ r.status ≠ fFailover then
      { r with status := fFailover, words := [x.stateWord, r.status.setWidth 32] ++ (if r.status = stDone then r.words else []) }
    else r

/-- Every owed final response is to be written as F_FAILOVER (R88). -/
def oweFailover (s : State) : State :=
  { s with mbx := { s.mbx with journal := s.mbx.journal.map (fun x => if x.owed then { x with failover := true } else x),
                               chans := s.mbx.chans.mapVals fun _ c => { c with held := c.held.map (heldFailover s) } } }

/-- Undo the recorded steps of a stepped command in reverse order. -/
def undoSteps (st : Stepped) : Nat → State → State
  | 0, s => s
  | k + 1, s => undoSteps st k (undoStep st (k + 1) s)

/-- A stepped command after a switch (R88): rolled back, with no step left complete, unless it has recorded a final step. -/
def resumeStepped (s : State) (st : Stepped) : State :=
  if st.finalAt ≤ st.done then s
  else endStepped .rolledBack st pRolledBack [] (journalSet st.j (fun x => { x with stepsDone := 0 }) (undoSteps st st.done s))

/-- The journal after a switch (R88): commands in steps are resolved, then what is owed by commands that have ended is answered. -/
def reconcile (s : State) : State := let s1 := oweFailover s; answerOwed (s1.mbx.running.foldl resumeStepped s1)

/-- The standby takes control after a give-up (R287, R288): from its mirror it serves the channels and takes over the receive buffers; the old one is
to come back. -/
def failover (s : State) : State :=
  let s1 := reconcile (switchOver (takeMirror s))
  takeBuffers { s1 with mbx := { s1.mbx with fenced := false, standbyReady := false, readyFrames := 0, gaveUp := true } }

/-- CONDUCTOR_RESTART (R289): the active Conductor fails while STANDBY_READY is 0, or the one that a switch is making active fails
before it serves; it restarts alone. -/
def restartAlone (s : State) : State :=
  if s.mbx.fenced ∧ s.mbx.standbyReady then
    let s1 := switchOver s
    { s1 with mbx := { s1.mbx with standbyReady := false, readyFrames := 0 } }
  else if !s.mbx.standbyReady then giveUp s
  else s

/-- CONDUCTOR_RESTART (R289). -/
def execConductorRestart (s : State) : Outcome := .next (restartAlone s)

/-- The lone restart is over (R88, R289): FAILOVER sets, SWITCHES does not move. -/
def restartDone (s : State) : State :=
  if s.mbx.fenced ∧ !s.mbx.standbyReady then
    let s1 := reconcile (setDbRsp 16 s)
    takeBuffers { s1 with mbx := { s1.mbx with fenced := false, missed := 0, reported := true, silentFrames := 0 } }
  else s

/-- The standby's mirror is complete (R286). -/
def standbyComplete (s : State) : State :=
  { s with mbx := { s.mbx with standbyReady := true, readyFrames := if s.mbx.standbyReady then s.mbx.readyFrames else 0 },
           se := { s.se with mirror := mirrorOf s } }

/-- STANDBY_READY (R286): the standby's mirror is complete; with no Conductor acting there is nothing to mirror (R289). -/
def execStandbyReady (s : State) : Outcome :=
  .next (if s.power.phase = 7 ∧ !s.condDown then standbyComplete s else s)

/-- Losses of control of the Conductor that stands by, within the last 60 s (R290). -/
def standbyLosses (s : State) : Nat := ((recentLosses s).filter fun p => p.1 != s.mbx.activeB).length

/-- Frames of 1 s (R290). -/
def readySecond (rate : BitVec 3) : Nat := famFrames rate 6000 5513

/-- A Conductor that has held STANDBY_READY for 1 s and has lost control three times in the last 60 s stays standby until COND.SWITCH (R290). -/
def holdBack (s : State) (m : Mbx) : Mbx :=
  if m.readyFrames = readySecond s.time.rate ∧ 3 ≤ standbyLosses s then { m with gaveUp := false } else m

/-- The Conductor's self-check at a device frame boundary, and the two watchdogs (R287, R289, R290). One that reports again after a missed report
takes the receive buffers over after the release of the tick (R32). -/
def tickConductor (check : CondCheck) (s : State) : State :=
  let m := holdBack s { s.mbx with readyFrames := if s.mbx.standbyReady then s.mbx.readyFrames + 1 else 0 }
  let t := { s with mbx := m }
  if m.fenced then { t with mbx := { m with silentFrames := m.silentFrames + 1 } }
  else match check with
    | .pass =>
      let u := { t with mbx := { m with missed := 0, reported := true, silentFrames := 0 } }
      if m.missed = 0 then u else answerOwed u
    | .silent => { t with mbx := { m with missed := m.missed + 1, reported := false, silentFrames := m.silentFrames + 1 } }
    | .fail => giveUp { t with mbx := { m with silentFrames := m.silentFrames + 1 } }

-- planned switches (R290, R291, R297) -----------------------------------------------------------------------------------------------------------

/-- A COND.SWITCH that waits. -/
def switchJob (s : State) : Option Job := s.mbx.jobs.find? fun jb => jb.phase == .planned

/-- A boundary meets R291: no stepped command runs but `except`, and no command but a COND.SWITCH lies between its validation and
its response. -/
def plannedOk (except : Option Word) (s : State) : Bool :=
  (s.mbx.running.all fun st => some st.j == except)
  && ((List.range 16).all fun n => (s.chan n).held.isEmpty)
  && s.mbx.jobs.all fun jb => jb.phase == .planned || (match journalFind jb.j s with | some x => x.answered | none => true)

/-- The FW.UPDATE whose step 3 begins (R292). -/
def fwSwitching (s : State) : Option Stepped := s.mbx.running.find? fun st => st.opcode == 0x041 && st.done == 2

/-- PLANNED_SWITCH (R291): for the COND.SWITCH that waits, whose answer the new Conductor writes, or for step 3 of FW.UPDATE, whose
probation then begins. -/
def plannedSwitch (s : State) : State :=
  if s.condDown || !s.mbx.standbyReady then s
  else match switchJob s with
    | some jb =>
      if plannedOk none s then
        let s1 := switchOver (dropJob jb.j s)
        completeJob jb stDone [s1.condStatus] { s1 with mbx := { s1.mbx with gaveUp := false } }
      else s
    | none => match fwSwitching s with
      | some st =>
        if plannedOk (some st.j) s && !s.power.probation then
          let s1 := switchOver s
          { s1 with power := { s1.power with probation := true } }
        else s
      | none => s

/-- PLANNED_SWITCH (R291). -/
def execPlannedSwitch (s : State) : Outcome := .next (plannedSwitch s)

/-- PLANNED_SWITCH_TIMEOUT (R297): no boundary met R291 within 100 ms. -/
def execPlannedSwitchTimeout (s : State) : Outcome :=
  .next (match switchJob s with
    | some jb => if s.condDown then s else completeJob jb eBusy [] (dropJob jb.j s)
    | none => s)

/-- TAKE_CONTROL_BACK (R290): the recovered Conductor has held STANDBY_READY for 1 s and has lost control fewer than 3 times within
60 s; a planned switch. -/
def takeBack (s : State) : State :=
  if s.mbx.gaveUp && s.mbx.standbyReady && !s.condDown && decide (readySecond s.time.rate ≤ s.mbx.readyFrames) && decide (standbyLosses s < 3)
      && plannedOk none s && (switchJob s).isNone then
    let s1 := switchOver s
    { s1 with mbx := { s1.mbx with gaveUp := false } }
  else s

/-- TAKE_CONTROL_BACK (R290). -/
def execTakeControlBack (s : State) : Outcome := .next (takeBack s)

/-- COND.SWITCH (R297): it waits for a boundary that meets R291. -/
def cardCondSwitch : Card where
  opcode := 0x040
  len := fun e => e.payload.isEmpty
  post := fun _ s => firstFail [need s.mbx.standbyReady eState, need (!stepping [0x041] s && (switchJob s).isNone) eBusy]
  run := fun e s => addJob { j := s.mbx.nextJ, opcode := 0x040, e := e, phase := .planned } (journalAdd 0x040 e .queued 0 0 s)

/-- FW.UPDATE (R298). -/
def cardFwUpdate : Card where
  opcode := 0x041
  len := fun e => e.payload.length == 2
  pre := fun _ s => need (!s.imageLocked 0x041) eLocked
  range := fun e _ => (e.pw 0).toNat % 4 == 0 && decide ((e.pw 1).toNat ≤ 114688) && dataRegion (e.pw 0).toNat (4 * (e.pw 1).toNat)
  post := fun _ s =>
    firstFail [need s.mbx.standbyReady eState, need (!stepping [0x041] s && (switchJob s).isNone) eBusy, steppedRoom s]
  run := fun e s => startStepped 0x041 e 4 4 [] s

end Sys2Proof.Machine
end

