-- ==== Sys2Proof/Machine/CoreArith.lean ====
section
/-! DEFINITION. Arithmetic instructions of a voice core (R216, class 0b001): one meaning each over shared operations. -/

namespace Sys2Proof.Machine

/-- The source operand: W(d XOR 1), or U0 placed as a write of the F view (R216). -/
def arithSource (wd : BitVec 2) (src : ArithSrc) (r : RegSet) : Acc :=
  match src with
  | .pairW => r.wr (wd ^^^ 1).toNat
  | .u0 => placeF (r.ur 0)

/-- Write Wd with a signed result, set NEG, ZR, XU from it and WRAP when it wrapped (R210, R216). -/
def putResult (wd : BitVec 2) (x : Int) (r : RegSet) : RegSet :=
  let n := narrow x
  ((r.setW wd.toNat n.1).setNZX n.1).sticky csrWRAP n.2

/-- Write Wd with bits that cannot wrap, and set NEG, ZR, XU (R216). -/
def putBits (wd : BitVec 2) (a : Acc) (r : RegSet) : RegSet := (r.setW wd.toNat a).setNZX a

/-- ADD: Wd + source; CY is the carry out of bit 55 (R216, R222). -/
def opAdd (wd : BitVec 2) (src : ArithSrc) (_ : View) (r : RegSet) : RegSet :=
  let a := r.wr wd.toNat
  let b := arithSource wd src r
  (putResult wd (a.toInt + b.toInt) r).setCY (carryOut a b 0)

/-- SUB: Wd - source; CY is the borrow (R216, R222). -/
def opSub (wd : BitVec 2) (src : ArithSrc) (_ : View) (r : RegSet) : RegSet :=
  let a := r.wr wd.toNat
  let b := arithSource wd src r
  (putResult wd (a.toInt - b.toInt) r).setCY (borrowOut a b 0)

/-- CMP: NEG, ZR and XU from Wd - source; nothing is written, CY and WRAP stay (R216; DEDUCED, log entry 20). -/
def opCmp (wd : BitVec 2) (src : ArithSrc) (_ : View) (r : RegSet) : RegSet :=
  r.setNZX (r.wr wd.toNat - arithSource wd src r)

/-- NEG: Wd ← -Wd (R216; DEDUCED, log entry 20). -/
def opNeg (wd : BitVec 2) (_ : ArithSrc) (_ : View) (r : RegSet) : RegSet := putResult wd (-(r.wr wd.toNat).toInt) r

/-- ABS: Wd ← |Wd| (R216; DEDUCED, log entry 20). -/
def opAbs (wd : BitVec 2) (_ : ArithSrc) (_ : View) (r : RegSet) : RegSet :=
  putResult wd ((r.wr wd.toNat).toInt.natAbs : Int) r

/-- CLR: Wd ← 0 (R216). -/
def opClr (wd : BitVec 2) (_ : ArithSrc) (_ : View) (r : RegSet) : RegSet := putBits wd 0 r

/-- COPY: Wd ← source (R216). -/
def opCopy (wd : BitVec 2) (src : ArithSrc) (_ : View) (r : RegSet) : RegSet := putBits wd (arithSource wd src r) r

/-- Bits [47:24] of an accumulator, and of one alone. -/
def fMask : Acc := 0x00FFFFFF000000

/-- A bitwise operation on bits [47:24] only (R216). -/
def onF (f : Acc → Acc → Acc) (a b : Acc) : Acc := (a &&& ~~~fMask) ||| (f a b &&& fMask)

/-- AND on bits [47:24] (R216). -/
def opAnd (wd : BitVec 2) (src : ArithSrc) (_ : View) (r : RegSet) : RegSet :=
  putBits wd (onF (· &&& ·) (r.wr wd.toNat) (arithSource wd src r)) r

/-- OR on bits [47:24] (R216). -/
def opOr (wd : BitVec 2) (src : ArithSrc) (_ : View) (r : RegSet) : RegSet :=
  putBits wd (onF (· ||| ·) (r.wr wd.toNat) (arithSource wd src r)) r

/-- XOR on bits [47:24] (R216). -/
def opXor (wd : BitVec 2) (src : ArithSrc) (_ : View) (r : RegSet) : RegSet :=
  putBits wd (onF (· ^^^ ·) (r.wr wd.toNat) (arithSource wd src r)) r

/-- SHL1: Wd shifted left 1 bit (R216). -/
def opShl1 (wd : BitVec 2) (_ : ArithSrc) (_ : View) (r : RegSet) : RegSet := putResult wd (2 * (r.wr wd.toNat).toInt) r

/-- SHR1: Wd shifted right 1 bit arithmetically (R216). -/
def opShr1 (wd : BitVec 2) (_ : ArithSrc) (_ : View) (r : RegSet) : RegSet := putBits wd ((r.wr wd.toNat).sshiftRight 1) r

/-- RNDF: adds 2^23 and zeroes bits [23:0] (R216). -/
def opRndf (wd : BitVec 2) (_ : ArithSrc) (_ : View) (r : RegSet) : RegSet :=
  putResult wd (((r.wr wd.toNat).toInt + 2 ^ 23) / 2 ^ 24 * 2 ^ 24) r

/-- SATF: the nearest value whose bits [55:48] are copies of bit 47; SATD when Wd changes (R216). -/
def opSatf (wd : BitVec 2) (_ : ArithSrc) (_ : View) (r : RegSet) : RegSet :=
  let a := r.wr wd.toNat
  let b : Acc := if usesExt a then (if a.msb then BitVec.ofInt 56 (-(2 ^ 47)) else BitVec.ofInt 56 (2 ^ 47 - 1)) else a
  (putBits wd b r).sticky csrSATD (usesExt a)

/-- An operation of 1 clk with its ports, on core `k`. -/
def portOp (k : Nat) (pt : Ports) (op : View → RegSet → RegSet) (s : State) : Outcome :=
  onCore k (fun spf => issue spf 1 true false (withPorts pt op)) s

/-- HOLD: changes nothing and sets no flag; its port fields act (R216). -/
def execHold (k : Nat) (pt : Ports) (s : State) : Outcome := portOp k pt (fun _ r => r) s

/-- ADD (R216). -/
def execAdd (k : Nat) (wd : BitVec 2) (src : ArithSrc) (pt : Ports) (s : State) : Outcome := portOp k pt (opAdd wd src) s

/-- SUB (R216). -/
def execSub (k : Nat) (wd : BitVec 2) (src : ArithSrc) (pt : Ports) (s : State) : Outcome := portOp k pt (opSub wd src) s

/-- CMP (R216). -/
def execCmp (k : Nat) (wd : BitVec 2) (src : ArithSrc) (pt : Ports) (s : State) : Outcome := portOp k pt (opCmp wd src) s

/-- NEG (R216). -/
def execNeg (k : Nat) (wd : BitVec 2) (src : ArithSrc) (pt : Ports) (s : State) : Outcome := portOp k pt (opNeg wd src) s

/-- ABS (R216). -/
def execAbs (k : Nat) (wd : BitVec 2) (src : ArithSrc) (pt : Ports) (s : State) : Outcome := portOp k pt (opAbs wd src) s

/-- CLR (R216). -/
def execClr (k : Nat) (wd : BitVec 2) (src : ArithSrc) (pt : Ports) (s : State) : Outcome := portOp k pt (opClr wd src) s

/-- COPY (R216). -/
def execCopy (k : Nat) (wd : BitVec 2) (src : ArithSrc) (pt : Ports) (s : State) : Outcome := portOp k pt (opCopy wd src) s

/-- AND (R216). -/
def execAndW (k : Nat) (wd : BitVec 2) (src : ArithSrc) (pt : Ports) (s : State) : Outcome := portOp k pt (opAnd wd src) s

/-- OR (R216). -/
def execOrW (k : Nat) (wd : BitVec 2) (src : ArithSrc) (pt : Ports) (s : State) : Outcome := portOp k pt (opOr wd src) s

/-- XOR (R216). -/
def execXorW (k : Nat) (wd : BitVec 2) (src : ArithSrc) (pt : Ports) (s : State) : Outcome := portOp k pt (opXor wd src) s

/-- SHL1 (R216). -/
def execShl1 (k : Nat) (wd : BitVec 2) (src : ArithSrc) (pt : Ports) (s : State) : Outcome := portOp k pt (opShl1 wd src) s

/-- SHR1 (R216). -/
def execShr1 (k : Nat) (wd : BitVec 2) (src : ArithSrc) (pt : Ports) (s : State) : Outcome := portOp k pt (opShr1 wd src) s

/-- RNDF (R216). -/
def execRndf (k : Nat) (wd : BitVec 2) (src : ArithSrc) (pt : Ports) (s : State) : Outcome := portOp k pt (opRndf wd src) s

/-- SATF (R216). -/
def execSatf (k : Nat) (wd : BitVec 2) (src : ArithSrc) (pt : Ports) (s : State) : Outcome := portOp k pt (opSatf wd src) s

end Sys2Proof.Machine
end

