-- ==== Sys2Proof/Machine/CoreAddr.lean ====
section
/-! DEFINITION. Address and shift instructions of a voice core (R216, R218, R222, R228), the fetch engine, and reserved
encodings (R213). -/

namespace Sys2Proof.Machine

/-- PADD: Pn ← wrap(n, Pn + immediate) on the pointer as it stands (R216; DEDUCED, log entry 20). -/
def opPadd (ptr : BitVec 3) (imm : BitVec 12) (_ : View) (c : VCore) : VCore :=
  c.onCur fun r =>
    let n := ptr.toNat
    r.setP n (ringWrap (r.st.look n 0) (r.en.look n 0) ((r.p.look n 0).toNat + imm.toInt))

/-- PADD (R216). -/
def execPadd (k : Nat) (ptr : BitVec 3) (imm : BitVec 12) (s : State) : Outcome :=
  onCore k (fun spf => issue spf 1 true true (opPadd ptr imm)) s

/-- A shift by 1 to 56; another amount is not allowed (R213, R216). -/
def withShift (sh : BitVec 6) (f : Nat → RegSet → RegSet) (_ : View) (c : VCore) : VCore :=
  if 1 ≤ sh.toNat ∧ sh.toNat ≤ 56 then c.onCur (f sh.toNat) else c.onCur RegSet.xerr

/-- SRA: arithmetic right; CY takes the last bit shifted out (R216). -/
def opSra (wd : BitVec 2) (n : Nat) (r : RegSet) : RegSet :=
  let a := r.wr wd.toNat
  (r.setW wd.toNat (a.sshiftRight n)).setCY (a.getLsbD (n - 1))

/-- SLA: arithmetic left; CY takes the last bit shifted out, WRAP sets when the result wrapped (R210, R216). -/
def opSla (wd : BitVec 2) (n : Nat) (r : RegSet) : RegSet :=
  let a := r.wr wd.toNat
  let x := narrow (a.toInt * 2 ^ n)
  ((r.setW wd.toNat x.1).setCY (a.getLsbD (56 - n))).sticky csrWRAP x.2

/-- SRL: logical right; CY takes the last bit shifted out (R216). -/
def opSrl (wd : BitVec 2) (n : Nat) (r : RegSet) : RegSet :=
  let a := r.wr wd.toNat
  (r.setW wd.toNat (a >>> n)).setCY (a.getLsbD (n - 1))

/-- SRA (R216). -/
def execSra (k : Nat) (wd : BitVec 2) (sh : BitVec 6) (s : State) : Outcome :=
  onCore k (fun spf => issue spf 1 true false (withShift sh (opSra wd))) s

/-- SLA (R216). -/
def execSla (k : Nat) (wd : BitVec 2) (sh : BitVec 6) (s : State) : Outcome :=
  onCore k (fun spf => issue spf 1 true false (withShift sh (opSla wd))) s

/-- SRL (R216). -/
def execSrl (k : Nat) (wd : BitVec 2) (sh : BitVec 6) (s : State) : Outcome :=
  onCore k (fun spf => issue spf 1 true false (withShift sh (opSrl wd))) s

/-- Leading bits below bit 55 that equal the sign (R216). -/
def signRun (a : Acc) (n : Nat) : Nat :=
  match n with
  | 0 => 0
  | k + 1 => if a.getLsbD k = a.msb then 1 + signRun a k else 0

/-- Redundant sign bits of an accumulator, 0 to 55 (R216). -/
def redundantSign (a : Acc) : Nat := signRun a 55

/-- CLS: IX(d) takes the redundant sign bits of Wd (R216). -/
def opCls (wd : BitVec 2) (_ : View) (c : VCore) : VCore :=
  c.onCur fun r => { r with ix := r.ix.put wd.toNat (BitVec.ofNat 16 (redundantSign (r.wr wd.toNat))) }

/-- CLS (R216). -/
def execCls (k : Nat) (wd : BitVec 2) (s : State) : Outcome := onCore k (fun spf => issue spf 1 true false (opCls wd)) s

/-- The divisor of DSTEP, sign extended and lined up; where it lines up is a free value, 0 to 32 (R216; log entry 12). -/
def divisor (u : Word24) : Acc := u.signExtend 56 <<< (Config.divAlign % 33)

/-- DSTEP: one non-restoring divide step (R216). The remainder shifts left; the divisor is subtracted when remainder and divisor have one sign, else
added; the quotient bit, in bit [0], is 1 when the new remainder has the divisor's sign (DEDUCED, log entry 12). -/
def divided (a : Acc) (u : Word24) : Acc :=
  let d := divisor u
  let r := if a.msb = d.msb then (a <<< 1) - d else (a <<< 1) + d
  setBit r 0 (r.msb == d.msb)

/-- DSTEP's operation (R216). -/
def opDstep (wd ui : BitVec 2) (_ : View) (c : VCore) : VCore :=
  c.onCur fun r => r.setW wd.toNat (divided (r.wr wd.toNat) (r.ur ui.toNat))

/-- DSTEP (R216). -/
def execDstep (k : Nat) (wd : BitVec 2) (ui : BitVec 2) (s : State) : Outcome :=
  onCore k (fun spf => issue spf 1 true false (opDstep wd ui)) s

/-- CLRCNT: ECNT ← 0 (R216). -/
def execClrcnt (k : Nat) (s : State) : Outcome :=
  onCore k (fun spf => issue spf 1 true false fun _ c => c.onCur fun r => { r with ecnt := 0 }) s

/-- RESERVED_ENCODING: a NOP of 1 clk that sets XERR (R213). -/
def execReservedEncoding (k : Nat) (s : State) : Outcome := onCore k (fun spf => issue spf 1 true false reservedNop) s

-- fetches (R228) -----------------------------------------------------------------------------------------------------------------

/-- FETCH: a fetch of 1 to 64 words into the ring of its pointer, which is then post-modified; the fifth waits (R228). -/
def opFetch (y : Bool) (ptr : BitVec 3) (ui : BitVec 2) (words : BitVec 6) (v : View) (c : VCore) : VCore :=
  let a := c.cur.ur ui.toNat
  let n := ptr.toNat
  let count := words.toNat + 1
  if a.toNat / 2 ^ 22 ≠ 0 then c.onCur RegSet.xerr
  else
    let st := v.ag.st.look n 0
    let en := v.ag.en.look n 0
    let f : Fetch :=
      { src := a.toNat, words := count, isY := y, dst := v.p n, ring := st, len := if st.toNat < en.toNat then en - st else 0,
        waiting := decide (4 ≤ (c.fetches.filter fun x => !x.waiting).length), shadow := c.inShadow }
    { c with fetches := c.fetches ++ [f] }.onCur fun r => r.setP n (v.wrap n ((v.p n).toNat + count))

/-- FETCH (R228). RPT does not repeat it (R223). -/
def execFetch (k : Nat) (y : Bool) (ptr : BitVec 3) (ui : BitVec 2) (words : BitVec 6) (s : State) : Outcome :=
  onCore k (fun spf => issue spf 1 false false (opFetch y ptr ui words)) s

/-- FIFTH_FETCH_START: a waiting fetch of the set in use takes a free place; one of the other set resumes waiting on return (R228, R231). -/
def startWaiting (shd : Bool) (fs : List Fetch) : List Fetch :=
  if (fs.filter fun f => !f.waiting).length < 4 then
    startFirst fs
  else fs
where
  /-- The first waiting fetch of a list starts. -/
  startFirst (fs : List Fetch) : List Fetch :=
    match fs with
    | [] => []
    | f :: r => if f.waiting && f.shadow == shd then { f with waiting := false } :: r else f :: startFirst r

/-- FIFTH_FETCH_START (R228). -/
def execFifthFetchStart (k : Nat) (s : State) : Outcome :=
  withUnit k 64 (.next (s.setCore k { s.core k with fetches := startWaiting (s.core k).inShadow (s.core k).fetches }))

/-- Address of word `i` of a fetch: through its pointer's ring (R218, R228). -/
def fetchDst (f : Fetch) (i : Nat) : Nat :=
  (ringWrap f.ring (f.ring + f.len) (f.dst.toNat + i)).toNat

/-- A flag of the set that issued a fetch. -/
def VCore.onSet (c : VCore) (shadow : Bool) (g : RegSet → RegSet) : VCore :=
  if shadow then { c with shad := g c.shad } else { c with prim := g c.prim }

/-- The fetch engine writes one word (R208): only to local memory; another address has no memory there and sets XERR (R219). -/
def fetchStore (f : Fetch) (a : Nat) (x : Word24) (c : VCore) : VCore :=
  if a < 0x4000 then (if f.isY then { c with y := Mem.write c.y a x } else { c with x := Mem.write c.x a x })
  else c.onSet f.shadow RegSet.xerr

/-- Word `i` of a fetch of core `k`: bits [23:0] of the store word; a bank its Course does not own gives zeros and FERR (R228). -/
def fetchWord (k : Nat) (f : Fetch) (dbe : List Nat) (s : State) (i : Nat) : State :=
  let rd := readStore (.core k) ((f.src + i) % 2 ^ 22) (dbe.contains i) s
  let s1 := rd.2.2
  let c1 := fetchStore f (fetchDst f i) (rd.1.setWidth 24) (s1.core k)
  s1.setCore k (if rd.2.1 then c1.onSet f.shadow fun r => r.sticky csrFERR true else c1)

/-- An FWAIT of the set in use goes on when the core has no fetch outstanding; one of a preempted set waits for the return (R216, R231). -/
def resumeWait (c : VCore) : VCore :=
  if c.fetching then c else c.onCur fun r => if r.waitFetch then advance 1 { r with waitFetch := false } else r

/-- The oldest outstanding fetch of a core completes (R228). -/
def completeFetch (k : Nat) (dbe : List Nat) (s : State) : State :=
  match (s.core k).fetches.find? fun f => !f.waiting with
  | none => s
  | some f =>
    let s1 := (List.range f.words).foldl (fetchWord k f dbe) (s.setCore k { s.core k with fetches := (s.core k).fetches.erase f })
    s1.setCore k (resumeWait (s1.core k))

/-- FETCH_COMPLETE (R228): `dbe` names the words read with a double-bit error (R321). -/
def execFetchComplete (k : Nat) (dbe : List Nat) (s : State) : Outcome := withUnit k 64 (.next (completeFetch k dbe s))

end Sys2Proof.Machine
end

