-- ==== Sys2Proof/Machine/BridgeOps.lean ====
section
/-! DEFINITION. Bus sums, the frame hash and the completion of bus pairs (R246, R275, R277, R351). -/

namespace Sys2Proof.Machine

/-- Key of a bus sample. -/
def busKey (b n : Nat) : Nat := 32 * b + n

/-- One byte of CRC-64/ECMA-182, most significant bit first (R277). -/
def crcByte (crc : BitVec 64) (x : BitVec 64) : BitVec 64 :=
  (List.range 8).foldl (fun (c : BitVec 64) _ => if c.msb then (c <<< 1) ^^^ 0x42F0E1EBA9EA3693 else c <<< 1) (crc ^^^ (x <<< 56))

/-- CRC-64/ECMA-182 over the 8 bytes of `w`, low byte first (R277). -/
def crc64 (w : BitVec 64) : BitVec 64 :=
  (List.range 8).foldl (fun c i => crcByte c ((w >>> (8 * i)) &&& 0xFF)) 0

/-- The hash word of a merged store (R277). -/
def hashWord (b n : Nat) (x : Word24) : BitVec 64 := BitVec.ofNat 64 (b * 2 ^ 40 + n * 2 ^ 32 + x.toNat)

/-- A Bay whose output is the pair's: unpaired, home in control, or mirror in control (R274). -/
def State.inControl (s : State) (b : Nat) : Bool := (s.bay b).role = 0 || (s.bay b).role = 1 || (s.bay b).role = 4

/-- Add a Q1.23 value into a bus accumulator (R351). -/
def addBus (b n : Nat) (x : Word24) (s : State) : State :=
  { s with bridge := { s.bridge with acc := s.bridge.acc.put (busKey b n) (s.bridge.acc.look (busKey b n) 0 + x.signExtend 40) } }

/-- Key of a sample of the contribution buffer of Bay `bay`. -/
def contribKey (bay b n : Nat) : Nat := 8192 * bay + busKey b n

/-- Add it into the contribution buffer of a paired Bay (R275, R282). -/
def addContrib (bay b n : Nat) (x : Word24) (s : State) : State :=
  let k := contribKey bay b n
  { s with bridge := { s.bridge with contrib := s.bridge.contrib.put k (s.bridge.contrib.look k 0 + x.signExtend 40) } }

/-- Merge one held store of a core of Bay `b`, Course `c` (R229, R275, R277, R282): a paired Bay's goes to its own buffer and to the
frame hash. -/
def mergeStore (bay c : Nat) (x : Nat × Nat × Word24) (s : State) : State :=
  if (s.bay bay).role = 0 then addBus x.1 x.2.1 x.2.2 s
  else
    let s1 := addContrib bay x.1 x.2.1 x.2.2 s
    s1.setCourse c { s1.course c with hash := (s1.course c).hash + crc64 (hashWord x.1 x.2.1 x.2.2) }

/-- Merge a task's held stores (R229). -/
def mergeAll (bay c : Nat) (xs : List (Nat × Nat × Word24)) (s : State) : State :=
  match xs with
  | [] => s
  | x :: r => mergeAll bay c r (mergeStore bay c x s)

/-- The declared pairs of a task (R239). -/
def Task.pairs (t : Task) : List Nat :=
  (((List.range 8).filter fun i => t.outs.getLsbD (8 * i + 7)).map fun i => (t.outs.toNat / 2 ^ (8 * i)) % 128).eraseDups

/-- Input bits of an effect task that name pair `q` (R242, R246). -/
def inputBits (t : Task) (q : Nat) : Byte :=
  BitVec.ofNat 8 ((((List.range 4).filter fun i => t.ins.getLsbD (8 * i + 7) && (t.ins.toNat / 2 ^ (8 * i)) % 128 == q).map fun i => 2 ^ (4 + i)).foldl (· + ·) 0)

/-- Ik is raised in a task that names the pair, in the clk `now` (R246). -/
def raiseInput (q now : Nat) (t : Task) : Task :=
  if t.kind = 1 then
    let u := { t with flags := t.flags ||| inputBits t q }
    if t.ready || !u.ready then u else { u with raisedClk := now }
  else t

/-- INPUT_PAIR_COMPLETE: Ik is raised in every effect task that names the pair (R246). A task that becomes ready while its core, which has made its 7
preemptions, runs a LEVEL 0 task waits for that task's END and is counted (R249). -/
def pairComplete (q : Nat) (s : State) : State :=
  let s1 := { s with cores := s.cores.mapVals fun _ c => { c with tasks := c.tasks.mapVals fun _ t => raiseInput q s.time.clkCount t } }
  ((s1.cores.filter fun p => decide (7 ≤ p.2.preempts) && p.2.runsLevel0).map fun p => p.1).foldl (fun s k => holdAtLimit k s) s1

/-- One writer of pair `q` fewer; at 0 the pair is complete (R246). -/
def dropWriter (s : State) (q : Nat) : State :=
  let n := s.bridge.writers.look q 0
  if n = 0 then s
  else
    let s1 := { s with bridge := { s.bridge with writers := s.bridge.writers.put q (n - 1) } }
    if n = 1 then pairComplete q s1 else s1

/-- An instance that declared its pairs ends, is cut, or fails (R246). In a pair the Bay in control counts its writers: the other's
stores never reach the buses (R275). -/
def instanceOver (t : Task) (s : State) : State :=
  if t.ran || t.skipped || t.fresh || !s.inControl t.bay then s else t.pairs.foldl dropWriter s

/-- Round a product with 46 fraction bits to 23 (R149). -/
def round46 (x : Int) : Int := (x + 2 ^ 22) / 2 ^ 23

/-- Gain of bus `b` at a stamp of timeline `ln`, with 23 fraction bits: GAIN under MUTE (R352). -/
def State.busGain (s : State) (ln b : Nat) (t : Word) : Int :=
  let g := s.smoothed ln (busAddr b 0) t
  let f := s.smoothed ln (busAddr b 1) t
  if f = 0x00800000 then g.toInt else if f = 0 then 0 else mutedGain g f

/-- A bus sum from the accumulators without the paired Bays and what those contribute (R282, R351). -/
def sumAcc (closed leaving : Tab (BitVec 40)) (b n : Nat) : BitVec 40 :=
  (List.range 8).foldl (fun a bay => a + leaving.look (contribKey bay b n) 0) (closed.look (busKey b n) 0)

/-- A bus accumulator of the frame that leaves: the closed sums, and what the paired Bays in control contribute (R282, R351). -/
def State.closedAcc (s : State) (b n : Nat) : BitVec 40 := sumAcc s.bridge.closed s.bridge.leaving b n

/-- Value of sample `n` of bus `b` from its accumulator: sat(acc x GAIN), rounded (R351). -/
def State.busValue (s : State) (ln : Nat) (a : BitVec 40) (b : Nat) (t : Word) : Word24 × Bool := satQ23 (round46 (a.toInt * s.busGain ln b t))

/-- A 40-bit contribution under a gain of 23 fraction bits, rounded as R149 states. -/
def scaleAcc (a : BitVec 40) (g : Int) : BitVec 40 := BitVec.ofInt 40 ((a.toInt * g + 2 ^ 22) / 2 ^ 23)

/-- What an effect task reads as sample `n` of channel `ch` (0 or 1) of its input pair `i`, once the pair is complete: sat(acc x GAIN) of the sum as it
stands then, for a mirror's task that of its home twin (R246, R275, R351). No address of the core's map shows it: the way is not stated. -/
def State.effectInput (s : State) (t : Task) (i ch n : Nat) : Option Word24 :=
  if t.kind = 1 ∧ t.flags.getLsbD (4 + i) = true then
    let b := 2 * (t.ins.toNat / 2 ^ (8 * i) % 128) + ch
    let a := sumAcc s.bridge.acc (s.bridge.contrib.filter fun p => s.inControl (p.1 / 8192)) b n
    some (s.busValue (s.lineOf t.bay) a b (s.stampOf t.bay + BitVec.ofNat 32 (16 * n))).1
  else none

end Sys2Proof.Machine
end

