-- ==== Sys2Proof/Machine/CoreFlow.lean ====
section
/-! DEFINITION. The flow class of a voice core (R216, R217, R223 to R227), the end and the cut of a task, dispatch, preemption
(R246 to R250, R230 to R233), and local memory errors. -/

namespace Sys2Proof.Machine

-- plain flow --------------------------------------------------------------------------------------------------------------------------

/-- NOP (R216). -/
def execNop (k : Nat) (s : State) : Outcome := onCore k (fun _ => issueFlow false fun c => c.onCur (advance 1)) s

/-- FWAIT: waits until no fetch of the core is outstanding (R216). -/
def opFwait (c : VCore) : VCore :=
  if c.fetching then c.onCur fun r => { r with waitFetch := true } else c.onCur (advance 1)

/-- FWAIT (R216). -/
def execFwait (k : Nat) (s : State) : Outcome := onCore k (fun _ => issueFlow false opFwait) s

/-- A taken branch: the two following instructions are its delay slots (R226). -/
def branchTo (target : BitVec 13) (call : Bool) (r : RegSet) : RegSet :=
  { r with pc := r.pc + 1, delay := some { left := 2, target := target, call := call } }

/-- JMP (R216, R226). -/
def execJmp (k : Nat) (target : BitVec 13) (s : State) : Outcome :=
  onCore k (fun _ => issueFlow true fun c => c.onCur (branchTo target false)) s

/-- CALL: the address after its second delay slot goes on the return stack (DEDUCED, log entry 20). With all 8 levels
full the spec states no stack: the levels are free values (log entry 10). -/
def opCall (target : BitVec 13) (free : Nat) (r : RegSet) : RegSet :=
  if r.rets.length < 8 then branchTo target true r
  else branchTo target false { r with rets := (List.range 8).map fun i => (Config.free24 (free + i)).setWidth 13 }

/-- CALL (R216). -/
def execCall (k : Nat) (target : BitVec 13) (s : State) : Outcome :=
  onCore k (fun _ => issueFlow true fun c => c.onCur (opCall target s.freeCtr)) { s with freeCtr := s.freeCtr + 8 }

/-- RET takes the return stack; from an empty one the spec states no target: a free value (R216, log entry 10). -/
def opRet (free : Nat) (r : RegSet) : RegSet :=
  match r.rets with
  | [] => branchTo ((Config.free24 free).setWidth 13) false r
  | t :: rest => branchTo t false { r with rets := rest }

/-- RET (R216). -/
def execRet (k : Nat) (s : State) : Outcome :=
  onCore k (fun _ => issueFlow true fun c => c.onCur (opRet s.freeCtr)) s.fresh

/-- BR.cc: a signed offset from its own address; the slots of one that is not taken execute all the same (R216, R217). Condition 15 is not
allowed: a NOP that sets XERR (R213). -/
def opBr (cond : BitVec 4) (off : BitVec 12) (c : VCore) : VCore :=
  if cond = 15 then c.onCur fun r => advance 1 r.xerr
  else if branchTaken c.cur.csr c.fetching cond then c.onCur fun r => branchTo (r.pc + off.signExtend 13) false r
  else c.onCur fun r => { advance 1 r with delay := some { left := 2, taken := false } }

/-- BR.cc (R217). -/
def execBrCc (k : Nat) (cond : BitVec 4) (off : BitVec 12) (s : State) : Outcome := onCore k (fun _ => issueFlow true (opBr cond off)) s

/-- LEAVE: the innermost loop ends; flow goes on after its last word once the delay slots have run (R216, R224, R226; DEDUCED,
log entry 20). Outside a loop it has nothing to leave. -/
def opLeave (r : RegSet) : RegSet :=
  match r.loops with
  | [] => advance 1 r
  | f :: rest => branchTo (f.last + 1) false { r with loops := rest }

/-- LEAVE (R224). -/
def execLeave (k : Nat) (s : State) : Outcome := onCore k (fun _ => issueFlow true fun c => c.onCur opLeave) s

/-- RPT: repeats the next instruction n times (R223). -/
def execRpt (k : Nat) (n : BitVec 7) (s : State) : Outcome :=
  onCore k (fun _ => issueFlow true fun c => c.onCur fun r => { advance 1 r with rpt := some (n.toNat + 1) }) s

-- loops -----------------------------------------------------------------------------------------------------------------------------------

/-- Push a loop over the `body` words that follow (R224, R225): it takes the repeat cache when its body is 16 words or fewer. -/
def pushLoop (count : BitVec 16) (body : Nat) (r : RegSet) : RegSet :=
  let start := r.pc + 1
  let small := decide (body ≤ 16)
  let outer := if small then r.loops.map fun f => { f with cached := false } else r.loops
  { r with pc := start, loops := { start := start, last := start + BitVec.ofNat 13 body - 1, count := count, cached := small } :: outer }

/-- A LOOPV whose count is 0 skips its body (R216). -/
def skipBody (body : Nat) (r : RegSet) : RegSet :=
  let next := r.pc + BitVec.ofNat 13 (1 + body)
  let lb := loopBack (next - 1) next r.loops
  { r with pc := lb.1, loops := lb.2 }

-- the end of a task ----------------------------------------------------------------------------------------------------------------------------

/-- W of the 5.3 ms window (R159). -/
def window53 (rate : BitVec 3) : Nat := (2 * 256 * baseRate rate + 48000) / 96000

/-- A voice task writes LEVEL at the end of its frame (R116, R117). -/
def writeLevel (i : Nat) (s : State) : State :=
  let v := s.voice i
  s.setVoice i { v with level := stealLevel v.loudSq (window53 s.time.rate) v.ampEnd, keyHeld := v.st != .releasing, keyAge := s.age v }

/-- The core leaves the task of the set in use: its held stores go, and a shadow task returns to the primary set, which resumes (R230, R231). -/
def leaveTask (c : VCore) : VCore :=
  if c.inShadow then resumeWait { c with inShadow := false, shCurrent := none, shStaging := [] } else { c with current := none, staging := [] }

/-- A preemption request held through the shadow set, or overtaken by the END of the running task, is taken up: it preempts the resumed task, or
becomes an ordinary dispatch (R230, R250). -/
def afterTask (k : Nat) (s : State) : State := if (s.core k).preemptReq then takeRequest k s else s

/-- END of the task in context `ctx` of core `k` (R229, R230, R246, R251): its stores merge, its instance has run. -/
def finishTask (k ctx : Nat) (t : Task) (s : State) : State :=
  let held := (s.core k).held
  let t1 := { t with ran := true, skips := 0, lastRun := (s.frameOf t.bay).setWidth 16 }
  let s1 := s.setCore k (leaveTask { s.core k with tasks := (s.core k).tasks.put ctx t1 })
  let s2 := instanceOver t (mergeAll t.bay (k / 8) held s1)
  afterTask k (if t.kind = 0 ∧ (s.voice t.slot.toNat).core = k then writeLevel t.slot.toNat s2 else s2)

/-- END: completes the task (R216, R229); in a place that forbids it, a NOP that sets XERR (R224, R227). -/
def endOfTask (k : Nat) (s : State) : State :=
  let c := s.core k
  if c.waits then s
  else if c.cur.delay.isSome || c.cur.bodyEnd then s.setCore k (issueFlow true id c)
  else
    let s1 := s.setCore k (issueFlow true (fun c => c.onCur (advance 1)) c)
    match (if c.inShadow then c.shCurrent else c.current) with
    | none => s1
    | some ctx => match c.tasks.find ctx with
      | none => afterTask k (s1.setCore k (leaveTask (s1.core k)))
      | some t => finishTask k ctx t s1

/-- END (R216). -/
def execEndTask (k : Nat) (s : State) : Outcome := withUnit k 64 (.next (endOfTask k s))

/-- Discard what the task of context `ctx` holds in the core: its run, held stores and fetches in flight; a primary task that waited for them
goes on (R229, R231, R232). -/
def abandonRun (ctx : Nat) (c : VCore) : VCore :=
  let c1 := if c.shCurrent = some ctx then
      resumeWait { c with inShadow := false, shCurrent := none, shStaging := [], fetches := c.fetches.filter fun f => !f.shadow } else c
  if c1.current = some ctx then
    resumeWait { c1 with current := none, staging := [], fetches := c1.fetches.filter fun f => f.shadow } else c1

/-- A task is cut at once (R124, R233): it contributes nothing; a voice task's voice is cut for reason `why`. -/
def cutTask (k ctx why : Nat) (s : State) : State :=
  match (s.core k).tasks.find ctx with
  | none => s
  | some t =>
    let s1 := s.setCore k (abandonRun ctx { s.core k with tasks := (s.core k).tasks.put ctx { t with ran := true } })
    let s2 := instanceOver t s1
    if t.kind = 0 ∧ (s.voice t.slot.toNat).core = k then cutVoice why t.slot.toNat s2 else s2

/-- LOOP and LOOPV (R224): a fifth nested loop ends the task at once and sets XERR. -/
def runLoop (k : Nat) (count : BitVec 16) (body : Nat) (s : State) : State :=
  let c := s.core k
  if c.waits then s
  else if c.cur.delay.isSome || c.cur.bodyEnd then s.setCore k (issueFlow true id c)
  else if count = 0 then s.setCore k (issueFlow true (fun c => c.onCur (skipBody body)) c)
  else if c.cur.loops.length < 4 then s.setCore k (issueFlow true (fun c => c.onCur (pushLoop count body)) c)
  else
    let s1 := s.setCore k (c.onCur RegSet.xerr)
    match (if c.inShadow then c.shCurrent else c.current) with
    | none => s1
    | some ctx => cutTask k ctx 1 s1

/-- LOOP (R216). -/
def execLoop (k : Nat) (count : Byte) (body : Byte) (s : State) : Outcome :=
  withUnit k 64 (.next (afterIssue k (s.core k).preemptReq (runLoop k (BitVec.ofNat 16 (count.toNat + 1)) (body.toNat + 1) s)))

/-- LOOPV: its count is Ui [15:0] (R216). -/
def execLoopv (k : Nat) (ui : BitVec 2) (body : Byte) (s : State) : Outcome :=
  withUnit k 64 (.next (afterIssue k (s.core k).preemptReq (runLoop k (((s.core k).cur.ur ui.toNat).setWidth 16) (body.toNat + 1) s)))

-- local memory errors (R233, R278, R285) ----------------------------------------------------------------------------------------------------------------

/-- Position of a core in its Bay (R274). -/
def State.corePos (s : State) (k : Nat) : Nat := k - 8 * (s.bay (s.courseBay (k / 8))).first.toNat

/-- Report a self-diagnosis event of a Bay: its kind and core position (R278). -/
def reportEvent (b kind pos : Nat) (s : State) : State := s.setBay b { s.bay b with events := (s.bay b).events ++ [(kind, pos)] }

/-- The two Bays of the pair of Bay `b` are in lockstep (R276): the one that joined holds every task of the other. -/
def State.inLockstep (s : State) (b : Nat) : Bool :=
  (s.bay b).role != 0 && ((s.bay b).lockstep || (s.bay (s.bay b).partner.toNat).lockstep)

/-- The partner of Bay `b` can take control (R285). -/
def State.covered (s : State) (b : Nat) : Bool := s.inLockstep b

/-- A core fails: every task on it is cut; where no partner can take control it is retired from the next boundary until
reset (R233, R285). -/
def failCore (k : Nat) (s : State) : State :=
  let s1 := ((s.core k).tasks.map fun p => p.1).foldl (fun s ctx => cutTask k ctx 3 s) s
  if s.covered (s.courseBay (k / 8)) then s1 else s1.setCore k { s1.core k with failed := true, retire := true }

/-- A word of a free context slot that a double-bit error struck, until the kernel rewrites the slot (R233). -/
def markStruck (k : Nat) (m : LocalMem) (a : Nat) (s : State) : State :=
  if ((s.core k).tasks.find (a / 192)).isSome then s
  else s.setCore k { s.core k with struck := (m == .y, a) :: (s.core k).struck }

/-- LOCAL_MEMORY_ERROR at an address of a local memory (R233). -/
def memoryError (k : Nat) (m : LocalMem) (a : Nat) (double : Bool) (s : State) : State :=
  if !double then s.setCore k { s.core k with corrected := satInc (s.core k).corrected }
  else
    let s1 := reportEvent (s.courseBay (k / 8)) 1 (s.corePos k) (spoilWord k m a s)
    if m ≠ .prog ∧ a < 0x3000 then cutTask k (a / 192) 3 (markStruck k m a s1) else failCore k s1

/-- LOCAL_MEMORY_ERROR (R233): an address beyond the memory is no address of this hardware. -/
def execLocalMemoryError (k : Nat) (m : LocalMem) (addr : Nat) (double : Bool) (s : State) : Outcome :=
  withUnit k 64 <|
    if addr < (if m = .prog then 0x2000 else 0x4000) then .next (memoryError k m addr double s) else .fault .noSuchAddress

end Sys2Proof.Machine
end

