-- ==== Sys2Proof/Machine/CoreMove.lean ====
section
/-! DEFINITION. Transfers of a voice core (R209, R210, R216, R218, R219): MOVE, LDK and MOVM. -/

namespace Sys2Proof.Machine

/-- Register to register (R209): an unassigned code executes as NOP and sets XERR. -/
def opMove (dst src : RegCode) (v : View) (c : VCore) : VCore :=
  if codeOk dst && codeOk src then
    c.onCur fun r =>
      let x := readCode c.inShadow v.csr src r
      writeCode dst x.1 x.2
  else c.onCur RegSet.xerr

/-- MOVE (R216). -/
def execMove (k : Nat) (dst src : RegCode) (s : State) : Outcome :=
  onCore k (fun spf => issue spf 1 true true (opMove dst src)) s

/-- LDK: a constant to a register (R216). -/
def opLdk (dst : RegCode) (x : Word24) (_ : View) (c : VCore) : VCore :=
  if codeOk dst then c.onCur (writeCode dst x) else c.onCur RegSet.xerr

/-- LDK, two words (R216). -/
def execLdk (k : Nat) (dst : RegCode) (c : Word24) (s : State) : Outcome :=
  onCore k (fun spf => issue spf 2 false true (opLdk dst c)) s

/-- The address of a MOVM: absolute, or wrap(n, Pn + d) with Pn unchanged (R218). -/
def movmAddr (v : View) (m : MovMode) : Nat :=
  match m with
  | .absolute a => a.toNat
  | .indexed p d => (v.wrap p.toNat ((v.p p.toNat).toNat + d.toInt)).toNat

/-- MOVM: a load or a store of a register (R216, R218, R219). -/
def opMovm (reg : RegCode) (store y : Bool) (m : MovMode) (v : View) (c : VCore) : VCore :=
  if codeOk reg then
    if store then
      let x := readCode c.inShadow v.csr reg c.cur
      localStore v y (movmAddr v m) x.1 (c.setCur x.2)
    else
      let l := localLoad v y (movmAddr v m) c
      l.2.onCur (writeCode reg l.1)
  else c.onCur RegSet.xerr

/-- MOVM, two words (R216). -/
def execMovm (k : Nat) (reg : RegCode) (store : Bool) (y : Bool) (mode : MovMode) (s : State) : Outcome :=
  onCore k (fun spf => issue spf 2 false true (opMovm reg store y mode)) s

end Sys2Proof.Machine
end

