-- ==== Sys2Proof/Machine/CoreMul.lean ====
section
/-! DEFINITION. Multiplies, searches and extended precision of a voice core (R215, R221, R222). -/

namespace Sys2Proof.Machine

/-- The signed 24 x 24-bit product, shifted left by PSH (R215). -/
def product (v : View) (a b : Word24) : Int := a.toInt * b.toInt * 2 ^ pshOf v.csr

/-- An accumulator with a product added, subtracted (`sign`), or replaced (`z`) (R215; the sign of a replacement: log entry 20). -/
def accumulate (sign z : Bool) (a : Acc) (p : Int) : Int := (if z then 0 else a.toInt) + (if sign then -p else p)

/-- MAC and MUL: Wd ± Ui x Vj, Z replacing (R215, R216). -/
def opMul (z : Bool) (wd : BitVec 2) (sign : Bool) (ui : BitVec 1) (vj : BitVec 2) (v : View) (r : RegSet) : RegSet :=
  putResult wd (accumulate sign z (r.wr wd.toNat) (product v (r.ur ui.toNat) (r.vr vj.toNat))) r

/-- Write W0 to W3 with four signed results: WRAP when any wrapped, flags from W0 (R215, R216). -/
def putQuad (x0 x1 x2 x3 : Int) (down : Bool) (r : RegSet) : RegSet :=
  let n0 := narrow x0
  let n1 := narrow x1
  let n2 := narrow x2
  let n3 := narrow x3
  let w := n0.2 || n1.2 || n2.2 || n3.2
  let r1 := if down then (((r.setW 0 n1.1).setW 1 n2.1).setW 2 n3.1).setW 3 0 else (((r.setW 0 n0.1).setW 1 n1.1).setW 2 n2.1).setW 3 n3.1
  (r1.setNZX (r1.wr 0)).sticky csrWRAP w

/-- QMAC and QMACX: Wk ± Ui x V(4q + k), then the move-down of QMACX (R215). -/
def opQmac (down sign z : Bool) (ui : BitVec 2) (quad : BitVec 1) (v : View) (r : RegSet) : RegSet :=
  let x := fun k => accumulate sign z (r.wr k) (product v (r.ur ui.toNat) (r.vr (4 * quad.toNat + k)))
  putQuad (x 0) (x 1) (x 2) (x 3) down r

/-- XMAC: W0 ± U0 x V0, W1 ± U0 x V1, W2 ± U1 x V0, W3 ± U1 x V1 (R215). -/
def opXmac (sign z : Bool) (v : View) (r : RegSet) : RegSet :=
  let x := fun k u w => accumulate sign z (r.wr k) (product v (r.ur u) (r.vr w))
  putQuad (x 0 0 0) (x 1 0 1) (x 2 1 0) (x 3 1 1) false r

/-- MAC (R215). -/
def execMac (k : Nat) (wd : BitVec 2) (sign : Bool) (ui : BitVec 1) (vj : BitVec 2) (pt : Ports) (s : State) : Outcome :=
  portOp k pt (opMul false wd sign ui vj) s

/-- MUL: MAC with Z = 1 (R215). -/
def execMul (k : Nat) (wd : BitVec 2) (sign : Bool) (ui : BitVec 1) (vj : BitVec 2) (pt : Ports) (s : State) : Outcome :=
  portOp k pt (opMul true wd sign ui vj) s

/-- QMAC (R215). -/
def execQmac (k : Nat) (sign z : Bool) (ui : BitVec 2) (quad : BitVec 1) (pt : Ports) (s : State) : Outcome :=
  portOp k pt (opQmac false sign z ui quad) s

/-- QMACX (R215). -/
def execQmacx (k : Nat) (sign z : Bool) (ui : BitVec 2) (quad : BitVec 1) (pt : Ports) (s : State) : Outcome :=
  portOp k pt (opQmac true sign z ui quad) s

/-- XMAC (R215). -/
def execXmac (k : Nat) (sign z : Bool) (pt : Ports) (s : State) : Outcome := portOp k pt (opXmac sign z) s

/-- A search: when `better v Wd`, Wd, IX(d) and CY take v, ECNT and 1, else CY is 0; ECNT then counts (R221). -/
def opSearch (better : Acc → Acc → Bool) (x : Acc) (wd : BitVec 2) (r : RegSet) : RegSet :=
  let hit := better x (r.wr wd.toNat)
  let r1 := if hit then { r.setW wd.toNat x with ix := r.ix.put wd.toNat r.ecnt } else r
  let r2 := (r1.setNZX (r1.wr wd.toNat)).setCY hit
  { r2 with ecnt := r.ecnt + 1 }

/-- {Ui, Vi} as a 48-bit unsigned value (R221). -/
def pairUV (ui : BitVec 2) (r : RegSet) : Acc := (r.ur ui.toNat ++ r.vr ui.toNat).setWidth 56

/-- MIN: v is Ui placed as a write of the F view, compared as signed (R221). -/
def execMin (k : Nat) (wd : BitVec 2) (ui : BitVec 2) (pt : Ports) (s : State) : Outcome :=
  portOp k pt (fun _ r => opSearch BitVec.slt (placeF (r.ur ui.toNat)) wd r) s

/-- MAX (R221). -/
def execMax (k : Nat) (wd : BitVec 2) (ui : BitVec 2) (pt : Ports) (s : State) : Outcome :=
  portOp k pt (fun _ r => opSearch (fun a b => BitVec.slt b a) (placeF (r.ur ui.toNat)) wd r) s

/-- MINUW: 48-bit unsigned pairs (R221). -/
def execMinuw (k : Nat) (wd : BitVec 2) (ui : BitVec 2) (pt : Ports) (s : State) : Outcome :=
  portOp k pt (fun _ r => opSearch BitVec.ult (pairUV ui r) wd r) s

/-- MAXUW (R221). -/
def execMaxuw (k : Nat) (wd : BitVec 2) (ui : BitVec 2) (pt : Ports) (s : State) : Outcome :=
  portOp k pt (fun _ r => opSearch (fun a b => BitVec.ult b a) (pairUV ui r) wd r) s

/-- ADDC: Wd ← Wd + W(d XOR 1) + CY (R216, R222). -/
def opAddc (wd : BitVec 2) (_ : View) (r : RegSet) : RegSet :=
  let a := r.wr wd.toNat
  let b := r.wr (wd ^^^ 1).toNat
  (putResult wd (a.toInt + b.toInt + r.cy) r).setCY (carryOut a b r.cy)

/-- SUBC: Wd ← Wd - W(d XOR 1) - CY (R216, R222). -/
def opSubc (wd : BitVec 2) (_ : View) (r : RegSet) : RegSet :=
  let a := r.wr wd.toNat
  let b := r.wr (wd ^^^ 1).toNat
  (putResult wd (a.toInt - b.toInt - r.cy) r).setCY (borrowOut a b r.cy)

/-- ADDC (R222). -/
def execAddc (k : Nat) (wd : BitVec 2) (pt : Ports) (s : State) : Outcome := portOp k pt (opAddc wd) s

/-- SUBC (R222). -/
def execSubc (k : Nat) (wd : BitVec 2) (pt : Ports) (s : State) : Outcome := portOp k pt (opSubc wd) s

/-- MULSU: Wd + Ui x Vi, signed by unsigned, shift 0 (R216, R222). -/
def execMulsu (k : Nat) (wd : BitVec 2) (ui : BitVec 2) (pt : Ports) (s : State) : Outcome :=
  portOp k pt (fun _ r => putResult wd ((r.wr wd.toNat).toInt + (r.ur ui.toNat).toInt * (r.vr ui.toNat).toNat) r) s

/-- MULUU: Wd + Ui x Vi, unsigned by unsigned, shift 0 (R216, R222). -/
def execMuluu (k : Nat) (wd : BitVec 2) (ui : BitVec 2) (pt : Ports) (s : State) : Outcome :=
  portOp k pt (fun _ r => putResult wd ((r.wr wd.toNat).toInt + (r.ur ui.toNat).toNat * (r.vr ui.toNat).toNat) r) s

end Sys2Proof.Machine
end

