-- ==== Sys2Proof/Machine/DacCmds.lean ====
section
/-! DEFINITION. The current-steering outputs (chapter 13, R378 to R399; R460). -/

namespace Sys2Proof.Machine

-- states (R380, R381) ---------------------------------------------------------------------------------------------------------------

/-- STATE codes (R380). -/
def dacHiz : BitVec 3 := 0
def dacSafe : BitVec 3 := 1
def dacActive : BitVec 3 := 2
def dacRamp : BitVec 3 := 3
def dacSettle : BitVec 3 := 4
def dacFault : BitVec 3 := 5

/-- SAFE or ACTIVE. -/
def DacCh.live (x : DacCh) : Bool := x.state == dacSafe || x.state == dacActive

/-- The legs are off (R380). -/
def DacCh.off (x : DacCh) : Bool := x.state == dacHiz || x.state == dacFault

/-- DAC_CFG (R396). -/
def DacCh.cfg (x : DacCh) : Word := pack [(b2n x.enable, 31), (b2n x.mode, 30), (x.span.toNat, 28), (x.state.toNat, 16)]

/-- Change a DAC channel. -/
def State.onDac (s : State) (d : Nat) (f : DacCh → DacCh) : State := s.setDacCh d (f (s.dacCh d))

/-- Enter SAFE at code 0 and the configured span (R381, R382, R388). -/
def DacCh.enterSafe (x : DacCh) : DacCh := { x with state := dacSafe, code := 0, legSpan := x.span, written := false, rested := false, feed := none }

/-- The legs turn off; DAC_CODE is then 0, the safe value (DEDUCED, log entry 31). -/
def DacCh.turnOff (st : BitVec 3) (x : DacCh) : DacCh := { x with state := st, code := 0, written := false, scarfLeft := 0, shorted := false, feed := none }

/-- A channel enters FAULT: its flag sets, ENABLE clears, and the move is posted to COND with the channel and its cause, 1 a short, 2 VDDA_DAC, 3 the DAC
clock (R381, R391, R392; where the entry holds them is a DESIGN CHOICE, log entry 136). -/
def faultDac (cause : Nat) (s : State) (d : Nat) : State :=
  if (s.dacCh d).state = dacFault then s else
  let s1 := s.onDac d fun x => { x.turnOff dacFault with enable := false }
  condPost 4 (BitVec.ofNat 32 (256 * cause + d)) { s1 with dac := { s1.dac with fault := setBit s1.dac.fault d true } }

/-- Clocks of a span or mode ramp (R388). -/
def rampClocks (rate : BitVec 3) : Nat := if family48 rate then 6144 else 5645

/-- DAC clocks that have passed since a ramp started (R379). -/
def State.rampClock (s : State) (x : DacCh) : Nat :=
  Nat.min ((s.time.deviceTime - x.rampAt).toNat * (if family48 s.time.rate then 122880 else 112896) / 10 ^ 7) (rampClocks s.time.rate)

/-- DAC clocks of a base sample: the factor of the interpolator (R379, R384). -/
def dacFactor (rate : BitVec 3) : Nat := 16 * osr rate

/-- DAC clocks that have passed since the frame tick (R379). -/
def State.dacClock (s : State) : Nat :=
  if s.time.ticking ∧ !s.time.stampHold then
    Nat.min ((s.time.deviceTime - s.time.tickDt).toNat * (if family48 s.time.rate then 122880 else 112896) / 10 ^ 7) (dacFactor s.time.rate * s.spf - 1)
  else 0

/-- Tap `i` of the interpolator, which is linear-phase about its group delay of 24 base samples (R384); what the taps are is not stated (log entry
10). -/
def dacTap (rate : BitVec 3) (i : Nat) : Int :=
  let m := 48 * dacFactor rate
  if i ≤ m then Config.dacTap rate (Nat.min i (m - i)) else 0

/-- A value saturated to 16 bits. -/
def sat16 (x : Int) : BitVec 16 := BitVec.ofInt 16 (max (-32768) (min x 32767))

/-- Code `k` of the frame that leaves, or one before it, in an interpolator. -/
def feedCode (f : List (BitVec 16) × List (BitVec 16)) (k : Int) : Int :=
  (if 0 ≤ k then f.2.getD k.toNat 0 else f.1.getD (-k - 1).toNat 0).toInt

/-- The interpolator's output at DAC clock `n` of the frame, rounded to 16 bits as R149 states and saturated (R384). -/
def interpolated (rate : BitVec 3) (f : List (BitVec 16) × List (BitVec 16)) (n : Nat) : BitVec 16 :=
  let l := dacFactor rate
  sat16 (round46 (((List.range 49).map fun (j : Nat) => dacTap rate (j * l + n % l) * feedCode f ((n / l : Nat) - (j : Int))).foldl (· + ·) 0))

/-- The code before any ramp: a CV channel's, or what the interpolator of an AUDIO channel gives (R383 to R385). -/
def State.baseCode (s : State) (x : DacCh) : BitVec 16 := match x.feed with | some f => interpolated s.time.rate f s.dacClock | none => x.code

/-- DAC_CODE now: in RAMP, the code at the boundary, or the interpolator's, times g(n), rounded as R149 states (R388). -/
def State.dacCode (s : State) (x : DacCh) : BitVec 16 :=
  if x.state = dacRamp then
    let c := if x.feed.isSome then s.baseCode x else x.rampFrom
    BitVec.ofInt 16 (round46 (c.toInt * (scarfGain (rampClocks s.time.rate) (s.rampClock x)).toInt))
  else s.baseCode x

/-- IFS of a span, in uA (R378). -/
def spanUa (x : BitVec 2) : Nat := 1000 * 2 ^ x.toNat

/-- The currents that the P and the N leg of a channel source, in units of 1/65,536 uA (R378); none while the legs are off (R380). -/
def State.legs (s : State) (d : Nat) : Option (Nat × Nat) :=
  let x := s.dacCh d
  let c := (s.dacCode x).toInt
  if x.off then none else some (spanUa x.legSpan * (32768 + c).toNat, spanUa x.legSpan * (32768 - c).toNat)

-- DAC.SET (R389, R397) ------------------------------------------------------------------------------------------------------------------

/-- Channels of a mask. -/
def dacMask (e : Entry) : List Nat := (List.range 32).filter fun d => bit (e.pw 0) d

/-- MODE and SPAN of a DAC.SET. -/
def setMode (e : Entry) : Bool := bit (e.pw 1) 30
def setSpan (e : Entry) : BitVec 2 := BitVec.ofNat 2 (bits (e.pw 1) 29 28)

/-- DAC.SET (R397). -/
def cardDacSet : Card where
  opcode := 0x800
  len := fun e => e.payload.length == 2
  range := fun e _ => e.pw 0 != 0 && bits (e.pw 1) 27 0 == 0
  post := fun e s =>
    need ((dacMask e).all fun d =>
      let x := s.dacCh d
      !((x.state == dacRamp || x.state == dacSettle) && (x.mode != setMode e || x.span != setSpan e))) eBusy
  run := fun e s => queueBoundary 0x800 e {} s

/-- The ENABLE, MODE and SPAN that the DAC.SETs of one boundary leave a channel, in journal order (R389). -/
def dacGoal (es : List Entry) (d : Nat) (x : DacCh) : Bool × Bool × BitVec 2 :=
  es.foldl (fun g e => if bit (e.pw 0) d then (bit (e.pw 1) 31, setMode e, setSpan e) else g) (x.enable, x.mode, x.span)

/-- The single sequence a channel runs from its state at the boundary (R381, R388, R389). -/
def moveDac (now : BitVec 64) (g : Bool × Bool × BitVec 2) (x : DacCh) : DacCh :=
  let y := { x with enable := g.1, mode := g.2.1, span := g.2.2 }
  if !g.1 then (if x.off then y else y.turnOff dacHiz)
  else if x.off then { y.enterSafe with recalOn := true, recalCell := 0 }
  else if x.live ∧ (x.mode ≠ y.mode ∨ x.span ≠ y.span) then
    { y with state := dacRamp, rampSpan := x.span != y.span, rampFrom := x.code, rampAt := now }
  else y

/-- The DAC.SETs of one device frame boundary (R389). -/
def applyDacSets (es : List Entry) (s : State) : State :=
  (List.range 32).foldl (fun s d =>
    if es.any (fun e => bit (e.pw 0) d) then s.onDac d (fun x => moveDac s.time.deviceTime (dacGoal es d x) x) else s) s

/-- Words 0 to 3 of DAC.SET (R397). -/
def dacStates (s : State) : List Word :=
  (List.range 4).map fun w => pack ((List.range 8).map fun i => ((s.dacCh (8 * w + i)).state.toNat, 4 * i))

-- CV writes (R385 to R387, R398) ------------------------------------------------------------------------------------------------------------

/-- The writes of a DAC.WRITE: channel and code. -/
def dacWrites (e : Entry) : List (Nat × BitVec 16) := (e.payload.drop 1).map fun w => (bits w 20 16, w.setWidth 16)

/-- A code reaches its DAC clock edge (R385, R387). -/
def writeCv (s : State) (w : Nat × BitVec 16) : State :=
  let x := s.dacCh w.1
  if x.mode && x.live then s.setDacCh w.1 { x with code := w.2, written := true, state := dacActive }
  else { s with dac := { s.dac with dropped := satInc s.dac.dropped } }

/-- Insert an entry in stamp order against the reach point, after those of equal stamp (R386). -/
def insertCv (ref : Word) (x : CvWrite) (q : List CvWrite) : List CvWrite :=
  match q with
  | [] => [x]
  | y :: r => if stampDist x.stamp ref < stampDist y.stamp ref then x :: y :: r else y :: insertCv ref x r

/-- A stamped DAC.WRITE waits in the CV queue (R386); a late one played late takes effect at once. -/
def runStampedCv (e : Entry) (s : State) : State :=
  let j := s.mbx.nextJ
  let s1 := answer e stAccepted j [] false (markAnswered j (journalAdd 0x801 e .queued 0 0 s))
  if classify e.stamp s.time.reach = .late then endCommand .done j e stDone [] ((dacWrites e).foldl writeCv s1)
  else
    let s2 := (dacWrites e).foldl (fun s w =>
      { s with dac := { s.dac with queue := insertCv s.time.reach { ch := w.1, code := w.2, stamp := e.stamp, j := j } s.dac.queue } }) s1
    addJob { j := j, opcode := 0x801, e := e, phase := .timeline, stamp := e.stamp } s2

/-- DAC.WRITE (R398). -/
def cardDacWrite : Card where
  opcode := 0x801
  len := fun e => decide (1 ≤ e.payload.length) && e.payload.length == 1 + bits (e.pw 0) 5 0
  range := fun e _ =>
    bits (e.pw 0) 31 6 == 0 && decide (1 ≤ bits (e.pw 0) 5 0) && decide (bits (e.pw 0) 5 0 ≤ 32)
    && (e.payload.drop 1).all fun w => bits w 31 21 == 0
  flags := fun e _ => !e.stage
  timeline := fun _ _ => 255
  pooled := false
  post := fun e s =>
    let chs := (dacWrites e).map fun w => s.dacCh w.1
    firstFail
      [ need (e.stamped || chs.all fun x => x.mode && !x.off) eState,
        need (e.stamped || chs.all fun x => x.live) eBusy,
        need (!e.stamped || decide (s.dac.queue.length + (dacWrites e).length ≤ 256)) eNoslot,
        need (decide (((dacWrites e).map fun w => w.1).Nodup)) eConflict ]
  run := fun e s => if e.stamped then runStampedCv e s else finishNow 0x801 e [] ((dacWrites e).foldl writeCv s)

/-- The last write of a stamped DAC.WRITE has taken effect: its journal entry becomes DONE. -/
def finishCv (j : Word) (s : State) : State :=
  match s.mbx.jobs.find? fun jb => jb.j == j with
  | some jb => if s.dac.queue.any (fun q => q.j == j) then s else completeJob jb stDone [] (dropJob j s)
  | none => s

/-- The head of the CV queue reaches its DAC clock edge (R385, R387). -/
def popCv (s : State) : State :=
  match s.dac.queue with
  | [] => s
  | x :: r => finishCv x.j (writeCv { s with dac := { s.dac with queue := r } } (x.ch, x.code))

/-- A queued write has met its DAC clock edge (R385): (s - f) x OSR DAC clocks after the tick of the frame that follows the one of the stamp. -/
def State.cvDue (s : State) (x : CvWrite) : Bool :=
  let d := stampDist x.stamp (s.time.stamp - BitVec.ofNat 32 s.tpf)
  decide (d < s.tpf) && decide (d * osr s.time.rate ≤ s.dacClock)

/-- CV_WRITE_EFFECT (R385): the head of the queue takes effect, not before its DAC clock edge. -/
def execCvWriteEffect (s : State) : Outcome :=
  .next (match s.dac.queue with | x :: _ => if s.cvDue x then popCv s else s | [] => s)

/-- Writes whose frame lies before the frame just played have taken effect by this tick (R385). -/
def flushCv : Nat → State → State
  | 0, s => s
  | n + 1, s => match s.dac.queue with
    | [] => s
    | x :: _ => if stampDist (x.stamp + BitVec.ofNat 32 s.tpf) s.time.stamp < 0 then flushCv n (popCv s) else s

-- DAC.STATUS (R399) -----------------------------------------------------------------------------------------------------------------------------

/-- Words of DAC.STATUS (R399). -/
def dacWords (s : State) : List Word :=
  (List.range 32).map (fun d => (s.dacCh d).cfg) ++ (List.range 32).map (fun d => (s.dacCode (s.dacCh d)).setWidth 32)
  ++ [s.dac.short, s.dac.fault, s.dac.dropped, BitVec.ofNat 32 s.dac.queue.length]

/-- The channels a leg of which is at its limit now: CLEAR leaves their bits (R391, R399). -/
def State.shortNow (s : State) : Word := pack ((List.range 32).map fun d => (b2n (s.dacCh d).shorted, d))

/-- DAC.STATUS (R399). -/
def cardDacStatus : Card where
  opcode := 0x802
  len := fun e => e.payload.length == 1
  range := fun e _ => bits (e.pw 0) 31 1 == 0
  run := fun e s =>
    finishNow 0x802 e (dacWords s) (if bit (e.pw 0) 0 then { s with dac := { s.dac with short := s.shortNow, fault := 0, dropped := 0 } } else s)

-- events (R381, R388, R391) -----------------------------------------------------------------------------------------------------------------------

/-- DAC_SHORT (R391): a leg that is off never reaches its limit. -/
def execDacShort (d : Nat) (s : State) : Outcome :=
  withUnit d 32 <| .next <|
    if (s.dacCh d).off then s
    else
      let s1 := s.onDac d fun x => { x with shorted := true }
      { s1 with dac := { s1.dac with short := setBit s1.dac.short d true } }

/-- DAC_SHORT_END (R391). -/
def execDacShortEnd (d : Nat) (s : State) : Outcome := withUnit d 32 (.next (s.onDac d fun x => { x with shorted := false }))

/-- SHORT_TO_FAULT (R391): the short has lasted 1 ms. -/
def execShortToFault (d : Nat) (s : State) : Outcome :=
  withUnit d 32 (.next (if (s.dacCh d).shorted && !(s.dacCh d).off then faultDac 1 s d else s))

/-- VDDA_DAC_LOW (R381): every channel; while reset holds, each stays in HIZ. -/
def execVddaDacLow (s : State) : Outcome := .next (if s.inReset then s else (List.range 32).foldl (faultDac 2) s)

/-- DAC_CLOCK_ABSENT (R381): for 10 us outside a base-rate change, while the frame tick runs. -/
def execDacClockAbsent (s : State) : Outcome := .next (if s.time.ticking then (List.range 32).foldl (faultDac 3) s else s)

/-- RAMP_COMPLETE (R381, R388). -/
def execRampComplete (d : Nat) (s : State) : Outcome :=
  withUnit d 32 <| .next <| s.onDac d fun x =>
    if x.state ≠ dacRamp then x
    else if x.rampSpan then { x with state := dacSettle, code := 0, legSpan := x.span, feed := none }
    else x.enterSafe

/-- SETTLE_END (R381). -/
def execSettleEnd (d : Nat) (s : State) : Outcome :=
  withUnit d 32 (.next (s.onDac d fun x => if x.state = dacSettle then x.enterSafe else x))

-- recalibration (R393, R460) ------------------------------------------------------------------------------------------------------------------------

/-- Start a pass (R460). -/
def startRecal (d : Nat) (s : State) : State :=
  if (s.dacCh d).live ∧ ¬ (s.dacCh d).recalOn then s.onDac d fun x => { x with recalOn := true, recalCell := 0 } else s

/-- RECALIBRATION_PASS (R460). -/
def execRecalibrationPass (d : Nat) (s : State) : Outcome := withUnit d 32 (.next (startRecal d s))

/-- The Course of a DAC channel, channels 4c to 4c + 3 (R449). -/
def dacCourse (d : Nat) : Nat := d / 4

/-- The unary cell whose current the spare cell carries while a pass measures and trims it (R393): a cell a frame. -/
def DacCh.spareFor (x : DacCh) : Option Nat := if x.recalOn ∧ x.live ∧ x.recalCell < 64 then some x.recalCell else none

/-- One frame of a pass: a cell, trimmed when its error exceeds 0.1 LSB, then the offset trims and the trim of the span in use, whose measured values are free (R393, R460; log entry
10). -/
def recalFrame (s : State) (d : Nat) : State :=
  let x := s.dacCh d
  if !x.recalOn then s.setDacCh d { x with sinceRecal := x.sinceRecal + 1 }
  else if !x.live then s.setDacCh d { x with recalCell := 0 }
  else
    let s1 :=
      if x.recalCell < 64 then
        let e := Config.cellError s.freeCtr d x.recalCell
        let m := if 7 ≤ e.natAbs then Config.pegTrim s.freeCtr d x.recalCell (x.pegs.look x.recalCell 0) else (x.pegs.look x.recalCell 0, false)
        let s2 := s.fresh.setDacCh d
          { x with mismatch := x.mismatch.put x.recalCell e, pegs := x.pegs.put x.recalCell m.1, degraded := x.degraded || m.2 }
        if m.2 && !x.degraded then hwPostNew 4 4 s2 else s2
      else if x.recalCell = 64 then
        s.fresh.setDacCh d { x with offTrim := (x.offTrim.put 0 ((Config.free32 s.freeCtr).setWidth 10)).put 1 ((Config.free32 s.freeCtr >>> 16).setWidth 10) }
      else s.fresh.setDacCh d { x with spanTrim := x.spanTrim.put x.legSpan.toNat ((Config.free32 s.freeCtr).setWidth 12) }
    if 65 ≤ x.recalCell then
      s1.onDac d fun y => { y with recalOn := false, recalCell := 0, sinceRecal := 0, recalTemp := (s.course (dacCourse d)).temp }
    else s1.onDac d fun y => { y with recalCell := y.recalCell + 1 }

/-- Frames of 10 minutes (R460). -/
def recalFrames (rate : BitVec 3) : Nat := famFrames rate 3600000 3307500

/-- One device frame of recalibration over the channels (R460). -/
def tickRecal (s : State) : State :=
  (List.range 32).foldl (fun s d =>
    let s1 := recalFrame s d
    if recalFrames s.time.rate ≤ (s1.dacCh d).sinceRecal then startRecal d s1 else s1) s

/-- A temperature has moved 5 degrees since the last pass (R460). -/
def recalOnTemp (s : State) : State :=
  (List.range 32).foldl (fun s d =>
    if 20 ≤ ((s.course (dacCourse d)).temp - (s.dacCh d).recalTemp).natAbs then startRecal d s else s) s

/-- AUDIO channels that are in SAFE as a boundary comes (R383). -/
def restDac (s : State) : State :=
  (List.range 32).foldl (fun s d => if !(s.dacCh d).mode && (s.dacCh d).state == dacSafe then s.onDac d fun x => { x with rested := true } else s) s

end Sys2Proof.Machine
end

