-- ==== Sys2Proof/Machine/Engines.lean ====
section
/-! DEFINITION. The Oscillator Array and the Decimation Engine (chapter 05, R135 to R160): rendering a block of 128 oscillator
samples, decimating it, suppression, the detectors, and the three events of the render timetable. -/

namespace Sys2Proof.Machine

-- arithmetic (R149) ---------------------------------------------------------------------------------------------------------------------

/-- Round and shift right: half of the lowest kept bit is added (R149). -/
def roundShift (x : Int) (k : Nat) : Int := if k = 0 then x else (x + 2 ^ (k - 1)) / 2 ^ k

/-- A product of two Q1.23 values, rounded to Q1.23 (R149). -/
def mulQ (a b : Word24) : Word24 := (satQ23 (roundShift (a.toInt * b.toInt) 23)).1

/-- A sum that saturates to Q1.23 (R164). -/
def addQ (a b : Word24) : Word24 := (satQ23 (a.toInt + b.toInt)).1

/-- The magnitude of a sample; that of -1.0 is the largest positive value (R159). -/
def absQ (x : Word24) : Word24 := (satQ23 x.toInt.natAbs).1

-- content samples (R341, R342) ------------------------------------------------------------------------------------------------------------

/-- What an oscillator sample needs to know of one oscillator: object, its header, START_PHASE, the runs of the object's copy, the stream buffer. -/
structure OscEnv where
  obj : Nat
  header : List Word
  start : Word
  copy : List Run
  buf : StreamBuf

/-- The stored sample that index `i` of a sample object reads, by the loop rule of R342, its lines in order; `low`: indexes below the loop start wrap,
`high`: those past its end. None reads 0. -/
def sourceIndex (h : List Word) (low high : Bool) (i : Int) : Option Nat :=
  let n : Int := (h.getD 1 0).toNat
  let l0 : Int := (h.getD 2 0).toNat
  let l1 : Int := (h.getD 3 0).toNat
  if i < 0 then none
  else if high ∧ l1 ≤ i then some (l0 + (i - l1) % (l1 - l0)).toNat
  else if low ∧ i < l0 then some (l1 - 1 - (l0 - 1 - i) % (l1 - l0)).toNat
  else if n ≤ i then none
  else some i.toNat

/-- LOOP of a sample's header (R341). -/
def loops (h : List Word) : Bool := bit (h.getD 0 0) 0

/-- The place in a half of a stream buffer at which stored sample `j` lies (R344). -/
def Half.offset (x : Half) (h : List Word) (j : Nat) : Option Nat :=
  let d : Int := j - x.first
  let len : Int := (h.getD 3 0).toNat - (h.getD 2 0).toNat
  if 0 ≤ d ∧ d < 512 then some d.toNat
  else
    let e := d % len
    if loops h ∧ 0 < len ∧ e < 512 ∧ sourceIndex h x.low true (x.first + e) = some j then some e.toNat else none

/-- The place in the buffer at which stored sample `j` lies; `asked`: also in a half that is being filled. -/
def StreamBuf.place (b : StreamBuf) (h : List Word) (asked : Bool) (j : Nat) : Option Nat :=
  (b.halves.filterMap fun q => if q.2.filled || asked then (q.2.offset h j).map fun d => 512 * q.1 + d else none).head?

/-- Stored sample `j` of an object as an oscillator reads it: from its copy in the Bay's content space, and beyond a sample's head from the stream
buffer (R343, R344). One that the buffer does not hold reads what stands at its place in it (DESIGN CHOICE, log entry 139). -/
def State.contentSample (s : State) (x : OscEnv) (j : Nat) : Word24 :=
  if bits (x.header.getD 0 0) 31 28 = 2 ∧ 2048 ≤ j then (s.runWord x.buf.at_ ((x.buf.place x.header false j).getD (j % 1024))).setWidth 24
  else (s.runWord x.copy (7 + j)).setWidth 24

/-- Interpolation of four stored samples at a fraction (R141); at fraction 0 it is the sample itself. -/
def interpolate (a b c d : Word24) (f : BitVec 16) : Word24 := if f = 0 then b else hermite a b c d f

/-- k of a wavetable (R341). -/
def tableK (h : List Word) : Nat := bits (h.getD 0 0) 23 20
/-- Levels of a wavetable (R341). -/
def tableLevels (h : List Word) : Nat := bits (h.getD 0 0) 27 24 + 1
/-- Hl of level `l` (R341). -/
def tableH (h : List Word) (l : Nat) : Nat := bits (h.getD (1 + l / 2) 0) (16 * (l % 2) + 15) (16 * (l % 2))

/-- Value of level `l` of a wavetable at a phase (R139, R141): the index wraps within its table. -/
def State.tableValue (s : State) (x : OscEnv) (l : Nat) (phase : BitVec 48) : Word24 :=
  let k := tableK x.header
  let n := 2 ^ k
  let i := phase.toNat / 2 ^ (48 - k)
  let f : BitVec 16 := BitVec.ofNat 16 (phase.toNat / 2 ^ (32 - k))
  let at_ := fun j => s.contentSample x (l * n + j % n)
  interpolate (at_ (i + n - 1)) (at_ i) (at_ (i + 1)) (at_ (i + 2)) f

/-- Source sample `i` of a sample object; `looped`: the phase has once reached its loop start (R342, its lines in order). -/
def State.sourceSample (s : State) (x : OscEnv) (looped : Bool) (i : Int) : Word24 :=
  let on := loops x.header && looped
  match sourceIndex x.header on on i with | some j => s.contentSample x j | none => 0

/-- A sample reader's phase as a signed number of source samples in 2^-16: a reader that is run back before its sample lies below index 0
(R154, R342). -/
def readerPos (phase : BitVec 48) : Int := phase.toInt

/-- A sample reader's phase has once reached its loop start (R342). -/
def reachedLoop (h : List Word) (looped : Bool) (phase : BitVec 48) : Bool := looped || decide (((h.getD 2 0).toNat : Int) * 65536 ≤ readerPos phase)

/-- Value of a sample reader at a phase (R139, R141). -/
def State.readerValue (s : State) (x : OscEnv) (looped : Bool) (phase : BitVec 48) : Word24 :=
  let i : Int := readerPos phase / 65536
  let at_ := s.sourceSample x (reachedLoop x.header looped phase)
  interpolate (at_ (i - 1)) (at_ i) (at_ (i + 1)) (at_ (i + 2)) (phase.setWidth 16)

/-- A sample reader's phase after an advance (R342): it wraps by the loop's length whenever it crosses an end of the loop. -/
def loopPhase (h : List Word) (looped : Bool) (phase : BitVec 48) (inc : Int) : BitVec 48 × Bool :=
  let l0 : Int := (h.getD 2 0).toNat * 65536
  let l1 : Int := (h.getD 3 0).toNat * 65536
  let v := phase + BitVec.ofInt 48 inc
  let p := readerPos v
  if bit (h.getD 0 0) 0 then
    let was := reachedLoop h looped phase
    if l1 ≤ p ∧ (was ∨ readerPos phase < l1) then (BitVec.ofInt 48 (l0 + (p - l1) % (l1 - l0)), true)
    else if was ∧ p < l0 then (BitVec.ofInt 48 (l1 - (l0 - p) % (l1 - l0)), true)
    else (v, reachedLoop h was v)
  else (v, looped)

-- noise (R145) ------------------------------------------------------------------------------------------------------------------------------

/-- One step of the generator x^64 + x^63 + x^61 + x^60 + 1: the new bit enters at the low end (DEDUCED, log entry 50). -/
def lfsrStep (x : BitVec 64) : BitVec 64 :=
  (x <<< 1) ||| (BitVec.ofBool (x.getLsbD 63 ^^ x.getLsbD 62 ^^ x.getLsbD 60 ^^ x.getLsbD 59)).setWidth 64

/-- The 24 steps of one output; its value is the low 24 bits (R145). -/
def lfsrAdvance (x : BitVec 64) : BitVec 64 := (List.range 24).foldl (fun y _ => lfsrStep y) x

-- oscillators (R139 to R148) ---------------------------------------------------------------------------------------------------------------------

/-- TYPE of an oscillator's controls in force (R147). -/
def Osc.typ (o : Osc) : Nat := bits o.cfg 2 0

/-- A ramped control at oscillator sample `n` of its block (R147): the division rounds toward zero. -/
def rampN (a b : Int) (n : Nat) : Int := a + ((b - a) * n).tdiv 128

/-- The larger end value of a ramped increment, in magnitude (R144). -/
def largerInc (o : Osc) : BitVec 48 := if o.incStart.toInt.natAbs < o.incEnd.toInt.natAbs then o.incEnd else o.incStart

/-- The rules that keep the oscillator stage clean act on a block's controls (R143, R144): the controls, and whether they were
clamped. fm of a modulator that is no oscillator of a stated frequency is taken from its increment as it stands (DESIGN CHOICE, log entry
128). -/
def cleanOsc (all : List Osc) (o : Osc) : Osc × Bool :=
  if o.typ = 2 then
    let x := { o with incStart := clampInc o.incStart, incEnd := clampInc o.incEnd }
    (x, x.incStart != o.incStart || x.incEnd != o.incEnd)
  else if o.typ = 3 ∧ bits o.cfg 6 5 ≠ 0 then
    let m := all.getD (bits o.cfg 9 7) {}
    let d := depthLimit (bits o.cfg 6 5) o.depth (largerInc o).toInt.natAbs (largerInc m).toInt.natAbs
    ({ o with depth := d.1 }, d.2)
  else (o, false)

/-- The level that a wavetable reader selects for the 16 samples that hold sample `n` (R142). -/
def pickLevel (h : List Word) (o : Osc) (n : Nat) : Nat :=
  let pk := (List.range 16).foldl (fun a j => Nat.max a (rampN o.incStart.toInt o.incEnd.toInt (n / 16 * 16 + j)).natAbs) 0
  ((List.range (tableLevels h)).find? fun l => decide (tableH h l * pk ≤ 2 ^ 47)).getD (tableLevels h - 1)

/-- An oscillator's value before its level, at a phase, at sample `n` of the block (R139 to R142). -/
def State.oscValue (s : State) (x : OscEnv) (o : Osc) (n : Nat) (phase : BitVec 48) : Word24 :=
  match o.typ with
  | 1 =>
    let l := pickLevel x.header o n
    let y := s.tableValue x l phase
    match o.level with
    | some l0 => if l0 = l then y else levelFade (s.tableValue x l0 phase) y (n % 16)
    | none => y
  | 2 => s.readerValue x o.looped phase
  | 3 => sine phase
  | _ => 0

/-- Frequency modulation adds m x MOD_DEPTH x 2^44 to the increment (R144). -/
def fmOf (o : Osc) (m : Word24) : Int := if o.typ = 3 ∧ bits o.cfg 6 5 = 1 then roundShift (m.toInt * o.depth.toInt) 2 else 0

/-- Phase modulation adds m x MOD_DEPTH x 2^47 to the phase (R144). -/
def pmOf (o : Osc) (m : Word24) : Int := if o.typ = 3 ∧ bits o.cfg 6 5 = 2 then m.toInt * o.depth.toInt * 2 else 0

/-- Whether, and at which fraction, a phase wraps in an advance (R146); a sample reader's loop jump is no wrap (DESIGN CHOICE, log entry
128). -/
def wrapAt (o : Osc) (inc : Int) : Option (BitVec 16) :=
  if o.typ = 0 ∨ o.typ = 4 then none
  else if (o.phase.toNat : Int) + inc < 0 ∨ (2 ^ 48 : Int) ≤ o.phase.toNat + inc then some (wrapFraction o.phase inc) else none

/-- The phase of a slave that its master has reset at fraction `u` (R146). -/
def syncPhase (start : Word) (u : BitVec 16) (inc : Int) : BitVec 48 :=
  BitVec.ofInt 48 ((start.toNat : Int) * 2 ^ 24 + roundShift ((2 ^ 16 - u.toNat) * inc) 16)

/-- One oscillator at sample `n` of a block (R139, R144 to R147): `m` its modulator's output, `sync` the fraction at which its
master wraps; the oscillator after it, and its own wrap. -/
def State.oscSample (s : State) (x : OscEnv) (n : Nat) (m : Word24) (sync : Option (BitVec 16)) (o : Osc) : Osc × Option (BitVec 16) :=
  let lev : Word24 := BitVec.ofInt 24 (rampN o.levStart.toInt o.levEnd.toInt n)
  if o.typ = 4 then
    let r := lfsrAdvance o.lfsr
    ({ o with lfsr := r, out := mulQ (r.setWidth 24) lev }, none)
  else if o.typ = 0 ∨ 4 < o.typ then ({ o with out := 0 }, none)
  else
    let inc := rampN o.incStart.toInt o.incEnd.toInt n + fmOf o m
    let y := s.oscValue x o n (o.phase + BitVec.ofInt 48 (pmOf o m))
    let steps := match sync with
      | some u =>
        let before := s.oscValue x o n (o.phase + BitVec.ofInt 48 (roundShift (u.toNat * inc) 16 + pmOf o m))
        let after := s.oscValue x o n (BitVec.ofNat 48 (x.start.toNat * 2 ^ 24) + BitVec.ofInt 48 (pmOf o m))
        o.steps ++ [((satQ23 (after.toInt - before.toInt)).1, (u >>> 10).setWidth 6, 4)]
      | none => o.steps
    let z := (satQ23 (steps.foldl (fun a r => a + (Config.stepResidual r.1 r.2.1 (4 - r.2.2)).toInt) y.toInt)).1
    let moved := if o.typ = 2 then loopPhase x.header o.looped o.phase inc else (o.phase + BitVec.ofInt 48 inc, o.looped)
    let phase := match sync with | some u => syncPhase x.start u inc | none => moved.1
    ({ o with out := mulQ z lev, steps := (steps.map fun r => (r.1, r.2.1, r.2.2 - 1)).filter fun r => r.2.2 != 0, phase := phase, looped := moved.2,
               level := if o.typ = 1 then (if n % 16 = 15 ∨ o.level.isNone then some (pickLevel x.header o n) else o.level) else o.level },
     wrapAt o inc)

/-- One oscillator sample of a voice: oscillators in ascending index (R139, R144, R146). `done`: those before, with their wraps. -/
def State.voiceSample (s : State) (n : Nat) : List OscEnv → List Osc → List Osc → List (Osc × Option (BitVec 16)) → List (Osc × Option (BitVec 16))
  | x :: xs, o :: os, all, done =>
    let src := bits o.cfg 9 7
    let m := if src < done.length then (done.getD src ({}, none)).1.out else (all.getD src {}).out
    let ms := bits o.cfg 13 10
    let sync := if ms < done.length then (done.getD ms ({}, none)).2 else none
    s.voiceSample n xs os all (done ++ [s.oscSample x n m sync o])
  | _, _, _, done => done

/-- The two bus sums of one oscillator sample, 28 bits with 23 fraction bits (R147, R149). -/
def busSums (os : List Osc) : BitVec 28 × BitVec 28 :=
  os.foldl (fun a o =>
    let x := o.out.signExtend 28
    if bits o.cfg 4 3 = 1 then (a.1 + x, a.2) else if bits o.cfg 4 3 = 2 then (a.1, a.2 + x) else a) (0, 0)

/-- A stamp lies in the oscillator sample that begins at `t`: the sample at which a reset takes place (R154, R158). -/
def resetHere (t r : Word) (step : Nat) : Bool := decide (0 ≤ stampDist t r) && decide (stampDist t r < step)

/-- What rendering knows of the eight oscillators of a voice. -/
def State.oscEnvs (s : State) (v : Voice) : List OscEnv :=
  (List.range 8).map fun k =>
    let o := s.oscObject v k
    { obj := o, header := (s.contentOf o).header, start := s.voiceP v (6 * k + 5), copy := (s.resid v.bay o).at_, buf := v.bufs.look k {} }

/-- The oscillators at a synchronising reset (R158): phase and noise as for a note start stamped with it. -/
def State.resetOscs (s : State) (v : Voice) (r : Word) (os : List Osc) : List Osc :=
  (os.zipIdx).map fun p =>
    let n := s.startPhase v p.2 p.1.typ r r r p.1.incStart
    { p.1 with phase := n.1, lfsr := n.2, out := 0, level := none, steps := [], looped := false }

/-- A voice in SCARF ignores a synchronising reset at or after the Scarf's start (R158). -/
def scarfIgnores (v : Voice) (r : Word) : Bool := v.st == .scarf && decide (stampDist (v.scarfEnd - BitVec.ofNat 32 (16 * v.scarfLen)) r ≤ 0)

/-- Stamps of the synchronising resets to come that a voice performs (R158). -/
def Voice.resets (v : Voice) : List Word := (v.resyncs.map fun x => x.2).filter fun r => !scarfIgnores v r

/-- A voice has not reached its onset: only then do its reset point and onset bear on its streams (R154). -/
def Voice.starting (v : Voice) : Bool := v.st == .pending || v.st == .preRoll

/-- One oscillator sample of a block that begins at stamp `t0`: nothing before the reset point (R154). -/
def State.blockSample (s : State) (v : Voice) (xs : List OscEnv) (t0 : Word) (step : Nat)
    (a : List Osc × List (BitVec 28) × List (BitVec 28)) (n : Nat) : List Osc × List (BitVec 28) × List (BitVec 28) :=
  let t := t0 + BitVec.ofNat 32 (n * step)
  if v.starting ∧ stampDist t v.resetPoint < 0 then (a.1, 0 :: a.2.1, 0 :: a.2.2)
  else
    let os := v.resets.foldl (fun os r => if resetHere t r step then s.resetOscs v r os else os) a.1
    let os1 := (s.voiceSample n xs os os []).map fun p => p.1
    let b := busSums os1
    (os1, b.1 :: a.2.1, b.2 :: a.2.2)

/-- Render a voice's block of the frame that begins at stamp `t0` (R138): the voice, and how many of its oscillators were clamped. -/
def State.renderBlock (s : State) (v : Voice) (t0 : Word) : Voice × Nat :=
  let cl := v.oscs.map (cleanOsc v.oscs)
  let r := (List.range 128).foldl (s.blockSample v (s.oscEnvs v) t0 (tickStep s.time.rate)) (cl.map fun p => p.1, [], [])
  ({ v with oscs := r.1, strA := { v.strA with block := r.2.1.reverse }, strB := { v.strB with block := r.2.2.reverse } },
   (cl.filter fun p => p.2).length)

-- decimation (R149, R150) --------------------------------------------------------------------------------------------------------------------------

/-- Order N of a preset's CIC (R150). -/
def cicOrder (preset : BitVec 2) : Nat := if preset = 0 then 5 else if preset = 1 then 4 else 3

/-- Log2 of its decimation D (R150). -/
def cicShift (preset : BitVec 2) (osr : Nat) : Nat := if preset = 2 then (if osr = 16 then 4 else if osr = 8 then 3 else 2) else 1

/-- Taps of its compensator at fosc / 2 (R150). -/
def tapCount (preset : BitVec 2) (osr : Nat) : Nat := if preset = 0 then 51 * (osr / 2) else 19 * (osr / 2)

/-- The integrators take one input: each adds what the one before it now holds (R149, R150). -/
def integrate (x : BitVec 40) : List (BitVec 40) → List (BitVec 40)
  | [] => []
  | i :: r => (i + x) :: integrate (i + x) r

/-- The combs take one value, with an arithmetic shift after each (R150): their memories, and the output. -/
def combs (sh : Nat) (x : BitVec 40) : List (BitVec 40) → List (BitVec 40) × BitVec 40
  | [] => ([], x)
  | c :: r =>
    let t := combs sh ((x - c).sshiftRight sh) r
    (x :: t.1, t.2)

/-- A list of `n` values, zeros where it is shorter. -/
def padTo {w : Nat} (n : Nat) (xs : List (BitVec w)) : List (BitVec w) := (xs ++ List.replicate n 0).take n

/-- Compensator tap `k` (R150): those of FINE are of linear phase, the later half mirroring the first; the values are not given. -/
def tapOf (preset : BitVec 2) (osr k : Nat) : Word24 :=
  if preset = 0 then Config.tap 0 osr (Nat.min k (tapCount 0 osr - 1 - k)) else Config.tap preset osr k

/-- The compensator's output from its history (R149): 24-bit signed coefficients, a 56-bit accumulator, the sum rounded to 28 bits with 23
fraction bits. -/
def compensate (preset : BitVec 2) (osr : Nat) (hist : List (BitVec 28)) : BitVec 28 :=
  let acc : BitVec 56 := (hist.zipIdx).foldl (fun a p => a + (tapOf preset osr p.2).signExtend 56 * p.1.signExtend 56) 0
  BitVec.ofInt 28 (roundShift acc.toInt 23)

/-- The alignment of STAGE (R150): what its CIC and the delay of its taps at DC lack of 7 base samples, and no more than its settle of 20 allows. -/
def stageAlign (osr : Nat) : Nat :=
  let taps := (List.range (tapCount 1 osr)).map fun (k : Nat) => ((k : Int), (tapOf 1 osr k).toInt)
  let sum := taps.foldl (fun a p => a + p.2) 0
  let moment := taps.foldl (fun a p => a + p.1 * p.2) 0
  Nat.min (2 * osr - 3) (Int.fdiv ((16 * osr - 5) * sum - 4 * moment) (2 * sum)).toNat

/-- The pipeline alignment of a preset, in oscillator samples (R150): what the chain lacks of its group delay, to the nearest whole sample,
the half of FINE's and QUICK's even taps upward (DESIGN CHOICE, log entry 130). -/
def alignOf (preset : BitVec 2) (osr : Nat) : Nat :=
  if preset = 0 then (if osr = 16 then 22 else if osr = 8 then 10 else 4)
  else if preset = 1 then stageAlign osr
  else (if osr = 16 then 25 else if osr = 8 then 13 else 7)

/-- Stream output before suppression: attenuation, then saturation, and whether it saturated (R149). -/
def streamOut (atten : Nat) (x : BitVec 28) : Word24 × Bool := satQ23 (x.sshiftRight atten).toInt

/-- The cleared path of a stream reset (R150, R154). -/
def Stream.reset (x : Stream) : Stream := { x with integ := [], combs := [], fir := [], delay := [] }

/-- One oscillator sample enters the chain through the pipeline alignment (R150): the stream, and a base-rate value at the last sample of
each base sample (DEDUCED, log entry 51). -/
def chainSample (preset : BitVec 2) (osr n : Nat) (x : BitVec 28) (st : Stream) : Stream × Option (BitVec 28) :=
  let ord := cicOrder preset
  let sh := cicShift preset osr
  let line := x :: padTo (alignOf preset osr) st.delay
  let ig := integrate ((line.getLastD 0).signExtend 40) (padTo ord st.integ)
  let st0 := { st with integ := ig, delay := line.dropLast }
  if (n + 1) % 2 ^ sh ≠ 0 then (st0, none)
  else
    let c := combs sh (ig.getLastD 0) (padTo ord st.combs)
    let y : BitVec 28 := c.2.setWidth 28
    let st1 := { st0 with combs := c.1 }
    if preset = 2 then (st1, some y)
    else
      let fir := padTo (tapCount preset osr) (y :: st.fir)
      ({ st1 with fir := fir }, if (n + 1) % osr = 0 then some (compensate preset osr fir) else none)

/-- A whole block through the chain (R150): its S base-rate values, newest first. Resets fall at the oscillator samples given. -/
def chainBlock (preset : BitVec 2) (osr : Nat) (resets : Nat → Bool) (st : Stream) : Stream × List (BitVec 28) :=
  ((padTo 128 st.block).zipIdx).foldl (fun a p =>
    let r := chainSample preset osr p.2 p.1 (if resets p.2 then a.1.reset else a.1)
    (r.1, match r.2 with | some y => y :: a.2 | none => a.2)) (st, [])

-- detectors (R159, R160) -----------------------------------------------------------------------------------------------------------------------------

/-- Settings of the detectors of a template (R159, R161): peak hold in samples; the decay factor and a for attack and release, in units of
2^-32. -/
structure DetCfg where
  hold : Nat
  decay : Int
  attack : Int
  release : Int

/-- The detector settings of a template (R161). -/
def State.detCfg (s : State) (t : Nat) : DetCfg :=
  let fs := baseRate s.time.rate
  { hold := samplesUs s.time.rate (1000 * s.tmplP t 0xE0), decay := decayFactor (s.tmplP t 0xE1) fs,
    attack := envFactor (100 * s.tmplP t 0xE2) fs, release := envFactor (1000 * s.tmplP t 0xE3) fs }

/-- One output sample updates a stream's three detectors (R159). -/
def detect (d : DetCfg) (x : Word24) (st : Stream) : Stream :=
  let m := absQ x
  let pk : Word24 × Nat :=
    if st.peak.toNat ≤ m.toNat then (m, d.hold) else if 0 < st.hold then (st.peak, st.hold - 1) else (peakDecay d.decay st.peak, 0)
  { st with peak := pk.1, hold := pk.2, hist := (x :: st.hist).take 4096,
            env := envStep (if st.env.toNat < m.toNat then d.attack else d.release) st.env m }

/-- Window lengths in samples: 64, 256 and 1,024 times fs / 48 kHz, rounded (R159). -/
def windowLen (rate : BitVec 3) (i : Nat) : Nat := (2 * (64 * 4 ^ i) * baseRate rate + 48000) / 96000

/-- Sum of squares of the last `w` samples (R159). -/
def squares (xs : List Word24) (w : Nat) : Nat := (xs.take w).foldl (fun a x => a + (x.toInt * x.toInt).toNat) 0

/-- PEAK, RMS_LIN of the template's RMS source, and ENV of a stream (R160, R178). -/
def State.detValues (s : State) (t : Nat) (st : Stream) : List Word24 :=
  let w := windowLen s.time.rate (s.tmplP t 0xE4)
  [st.peak, rmsLin (squares st.hist w) w, st.env]

/-- At a boundary the detector values and the loudness of the coming frame's block stand (R117, R159). -/
def latchDetectors (s : State) (v : Voice) : Voice :=
  let w := windowLen s.time.rate 1
  { v with detNow := s.detValues v.template v.strA ++ s.detValues v.template v.strB,
           loudSq := Nat.max (squares v.strA.hist w) (squares v.strB.hist w) }

-- suppression (R154, R158) ----------------------------------------------------------------------------------------------------------------------------

/-- Gain of the Scarf that leads to a synchronising reset at stamp `r`, at stamp `t` (R118, R158). -/
def resyncGain (rate : BitVec 3) (r t : Word) : Option Word24 :=
  let n := 16 * resyncLen rate
  let d := stampDist t (r - BitVec.ofNat 32 n)
  if d < 0 then none else if (n : Int) ≤ d then some 0 else some (scarfGain n d.toNat)
where
  /-- N of a synchronising reset's Scarf: 0.5 ms (R158). -/
  resyncLen (rate : BitVec 3) : Nat := samples100us rate 5

/-- An output sample of a stream after suppression and the Scarf of a synchronising reset, at stamp `t` (R154, R158). -/
def suppress (rate : BitVec 3) (p : Nat) (v : Voice) (t : Word) (x : Word24) : Word24 :=
  if v.starting ∧ stampDist t v.onset < 0 then 0
  else if (match v.quietTo with | some q => decide (stampDist t q < 0) | none => false) then 0
  else v.resets.foldl (fun x r =>
    if 0 ≤ stampDist t r then (if stampDist t (r + BitVec.ofNat 32 p) < 0 then 0 else x)
    else match resyncGain rate r t with
      | some g => mulQ x g
      | none => x) x

/-- Decimate one stream of a voice for the frame that begins at stamp `t0` (R149, R150, R154, R159): the stream, and its saturated
samples. -/
def State.decimateStream (s : State) (v : Voice) (t0 : Word) (st : Stream) : Stream × Nat :=
  let preset := s.presetOf (s.acting v.bay)
  let step := tickStep s.time.rate
  let resets := fun n =>
    let t := t0 + BitVec.ofNat 32 (n * step)
    (v.starting && resetHere t v.resetPoint step) || v.resets.any fun r => resetHere t r step
  let c := chainBlock preset (osr s.time.rate) resets st
  let raw := c.2.reverse.map (streamOut (s.tmplP v.template 0xE5))
  let out := (raw.zipIdx).map fun p => suppress s.time.rate (s.preRoll (s.acting v.bay)) v (t0 + BitVec.ofNat 32 (16 * p.2)) p.1.1
  let d := s.detCfg v.template
  let st1 := out.foldl (fun a x => detect d x a) c.1
  ({ st1 with out := out }, (raw.filter fun p => p.2).length)

/-- A synchronising reset that lies in the frame that begins at `t0` suppresses until P after it (R158). -/
def State.quiet (s : State) (v : Voice) (t0 : Word) : Voice :=
  v.resets.foldl (fun v r => if decide (0 ≤ stampDist r t0) && decide (stampDist r t0 < s.tpf) then
      { v with quietTo := some (r + BitVec.ofNat 32 (s.preRoll (s.acting v.bay))) } else v) v

-- the events of the timetable (R138, R153) ---------------------------------------------------------------------------------------------------------------

/-- Course and slot pair that render a voice now: a moving voice's are those it leaves, until the boundary (R152). -/
def renderPlace (v : Voice) : Nat × Nat :=
  match v.moveFrom with
  | some m => (m.1 / 8, m.2.2)
  | none => (v.core / 8, v.pair)

/-- A voice that holds a slot pair and produces (R136, R105). -/
def renders (v : Voice) : Bool := v.inUse && (v.st.counted || v.st == .scarf) && decide (v.core < 64)

/-- The voices at timetable position `p` of Course `c`: pairs 2p and 2p + 1 (R136). -/
def State.atPosition (s : State) (c p : Nat) : List Nat :=
  (s.voices.filter fun x => renders x.2 && (renderPlace x.2).1 == c && (renderPlace x.2).2 / 2 == p).map fun x => x.1

/-- Course at the same position of the other Bay of a pair (R274), when that Bay holds the pair's tasks. -/
def State.twinCourse (s : State) (c : Nat) : Option Nat :=
  let b := s.courseBay c
  if (s.bay b).role = 0 then none else some (c - (s.bay b).first.toNat + (s.bay (s.partnerOf b)).first.toNat)

/-- Raise a flag of the next instance of the task in context `ctx` of core `k` (R242, R243). -/
def raiseNext (k ctx n : Nat) (s : State) : State :=
  match (s.core k).tasks.find ctx with
  | some t => s.setCore k { s.core k with tasks := (s.core k).tasks.put ctx { t with next := setBit t.next n true } }
  | none => s

/-- The core of Course `c` that holds voice `i`'s task: its own, or its twin's (R275). -/
def State.coreIn (s : State) (c i : Nat) : Nat :=
  let k := (s.voice i).core
  if k / 8 = c then k else (s.twin k).getD k

/-- First stamp of the frame whose blocks are rendered now on a Bay's timeline: one ahead (R138). -/
def State.nextStamp (s : State) (b : Nat) : Word := s.stampOf b + BitVec.ofNat 32 s.tpf

/-- Change the counters of a Course that renders voices, and of its twin's, which renders the same streams (R151, R275). -/
def State.onRendering (s : State) (c : Nat) (f : Course → Course) : State :=
  let count := fun (s : State) t =>
    if (s.bay (s.courseBay t)).role = 0 ∨ s.shares (s.courseBay t) then s.setCourse t (f (s.course t)) else s
  match s.twinCourse c with
  | some t => count (count s c) t
  | none => count s c

/-- Render the block of voice `i`; what was clamped is counted in its Course (R143, R144). -/
def renderVoice (s : State) (i : Nat) : State :=
  let v := s.voice i
  if v.silent then s
  else
    let r := s.renderBlock v (s.nextStamp v.bay)
    let c := (renderPlace v).1
    (s.setVoice i r.1).onRendering c fun x => { x with clamp := satAdd x.clamp r.2 }

/-- The voices whose flags a position of Course `c` raises: its own, or on a mirror's Course those of its twin (R136, R275). -/
def State.flagged (s : State) (c p : Nat) : List Nat :=
  match s.twinCourse c with
  | some t => s.atPosition c p ++ s.atPosition t p
  | none => s.atPosition c p

/-- OSCILLATOR_BLOCK_FLAG: the array has rendered the two voices at a position, and O is raised (R138, R242). -/
def oscillatorBlock (c p : Nat) (s : State) : State :=
  let s1 := raiseTestBlocks c ((s.atPosition c p).foldl renderVoice s)
  (s1.flagged c p).foldl (fun s i => raiseNext (s.coreIn c i) (s.voice i).ctx 1 s) s1

/-- OSCILLATOR_BLOCK_FLAG (R138). -/
def execOscillatorBlockFlag (course pos : Nat) (s : State) : Outcome :=
  withUnit course 8 (withUnit pos 128 (.next (oscillatorBlock course pos s)))

/-- Write a list of words into Y memory from address `a` on. -/
def putWords (a : Nat) (xs : List Word24) (m : Mem 24) : Mem 24 := (xs.zipIdx).foldl (fun m p => Mem.write m (a + p.2) p.1) m

/-- Write a voice's decimated block into its input buffer in context `ctx` of core `k` (R206): A at word 0, B at word 32 of the
buffer of the frame's parity. -/
def writeBlock (k ctx : Nat) (odd : Bool) (v : Voice) (s : State) : State :=
  let a := 192 * ctx + (if odd then 64 else 0)
  s.setCore k { s.core k with y := putWords (a + 32) v.strB.out (putWords a v.strA.out (s.core k).y) }

/-- Parity of the frame whose blocks are decimated now on a Bay's timeline (R138, R206). -/
def State.nextOdd (s : State) (b : Nat) : Bool := !(s.frameOf b).getLsbD 0

/-- Decimate both streams of voice `i` and write its block: to its core and its twin, or, while it moves, at the source, from where
the move engine copies it (R149, R150, R153, R275). -/
def decimateVoice (s : State) (i : Nat) : State :=
  let v0 := s.voice i
  let t0 := s.nextStamp v0.bay
  let c := (renderPlace v0).1
  let zero : List Word24 := List.replicate s.spf 0
  let done :=
    if v0.silent then ({ v0 with strA := { v0.strA with out := zero }, strB := { v0.strB with out := zero } }, 0)
    else
      let v := s.quiet v0 t0
      let a := s.decimateStream v t0 v.strA
      let b := s.decimateStream v t0 v.strB
      ({ v with strA := a.1, strB := b.1 }, a.2 + b.2)
  let v := done.1
  let odd := s.nextOdd v.bay
  let s1 := (s.setVoice i v).onRendering c fun x => { x with sat := satAdd x.sat done.2 }
  match v.moveFrom with
  | none =>
    let s2 := writeBlock v.core v.ctx odd v s1
    match s2.twin v.core with
    | some t => writeBlock t v.ctx odd v s2
    | none => s2
  | some m =>
    let s2 := if ((s1.core m.1).tasks.find m.2.1).isNone then writeBlock m.1 m.2.1 odd v s1 else s1
    s2.setCourse c { s2.course c with copies := (s2.course c).copies ++ [i] }

/-- DECIMATED_BLOCK_FLAG: the blocks of a position are written and D is raised; that of a moving voice waits for its copy (R138, R153). -/
def decimatedBlock (c p : Nat) (s : State) : State :=
  let s1 := (s.atPosition c p).foldl decimateVoice s
  (s1.flagged c p).foldl (fun s i => if (s.voice i).moveFrom.isSome then s else raiseNext (s.coreIn c i) (s.voice i).ctx 2 s) s1

/-- DECIMATED_BLOCK_FLAG (R138). -/
def execDecimatedBlockFlag (course pos : Nat) (s : State) : Outcome :=
  withUnit course 8 (withUnit pos 128 (.next (decimatedBlock course pos s)))

/-- The 64 words of an input buffer, copied from context `src` of core `k` to context `dst` of core `d` (R153). -/
def copyInput (odd : Bool) (k src d dst : Nat) (s : State) : State :=
  let lo := if odd then 64 else 0
  let y := (s.core k).y
  s.setCore d { s.core d with y := (List.range 64).foldl (fun m i => Mem.write m (192 * dst + lo + i) (Mem.read y (192 * src + lo + i))) (s.core d).y }

/-- The buffer of a moved voice reaches core `d`, the block that has been written for it standing in it (R153): from its source slot, unless a task
has taken that meanwhile, where the engine has written the block alone. -/
def bringBuffer (odd : Bool) (v : Voice) (k src d : Nat) (s : State) : State :=
  let s1 := if ((s.core k).tasks.find src).isNone then copyInput odd k src d v.ctx s else s
  raiseNext d v.ctx 2 (writeBlock d v.ctx odd v s1)

/-- INPUT_BUFFER_COPY (R153): the oldest written buffer of its source Course reaches the destination, and D is raised there. -/
def copyBuffer (i : Nat) (s : State) : State :=
  let v := s.voice i
  match v.moveFrom with
  | none => s
  | some m =>
    let c := m.1 / 8
    if (s.course c).copies.head? = some i then
      let odd := s.nextOdd v.bay
      let s1 := bringBuffer odd v m.1 m.2.1 v.core (s.setCourse c { s.course c with copies := (s.course c).copies.tail })
      match s1.twin m.1, s1.twin v.core with
      | some a, some t => bringBuffer odd v a m.2.1 t s1
      | _, _ => s1
    else s

/-- INPUT_BUFFER_COPY (R153). -/
def execInputBufferCopy (slot : Nat) (s : State) : Outcome := withUnit slot 8192 (.next (copyBuffer slot s))

end Sys2Proof.Machine
end

