-- ==== Sys2Proof/Machine/HealthCmds.lean ====
section
/-! DEFINITION. The Health Monitor (chapter 16, R448 to R465): measurements, the ledger, the supply, capacity steps, retirement. -/

namespace Sys2Proof.Machine

-- registers (R462) -------------------------------------------------------------------------------------------------------------------

/-- Cores of Course `c`. -/
def courseCores (c : Nat) : List Nat := (List.range 8).map fun i => 8 * c + i

/-- A DAC channel of Course `c` is DEGRADED (R449, R462). -/
def State.degradedIn (s : State) (c : Nat) : Bool := (List.range 4).any fun i => (s.dacCh (4 * c + i)).degraded

/-- Retired cores. -/
def State.retiredCores (s : State) : List Nat := (List.range 64).filter fun k => (s.core k).retired

/-- HM_STATUS (R462). -/
def State.hmStatus (s : State) : Word :=
  pack [(s.health.clkAlarms.toNat, 24), (s.health.supplyAlarms.toNat, 16), (s.retiredCores.length, 8),
        (b2n ((List.range 8).any fun c => (s.course c).stale), 3), (b2n s.health.supplyDev, 2), (b2n s.health.pmbusFail, 1),
        (b2n s.health.avsEn, 0)]

/-- HM_VCORE (R462). -/
def State.hmVcore (s : State) : Word := pack [(s.health.vmax, 16), (s.health.setpoint, 0)]

/-- Junction temperature in whole degrees (R449, R462): the quarters are dropped towards minus infinity (DESIGN CHOICE, log entry 136). -/
def Course.celsius (x : Course) : Byte := BitVec.ofInt 8 (x.temp / 4)

/-- HM_COURSE of Course `c` (R462). -/
def State.hmCourse (s : State) (c : Nat) : Word :=
  let x := s.course c
  pack [(Nat.min x.slack.toNat 255, 24), (x.celsius.toNat, 16),
        (((courseCores c).zipIdx).foldl (fun a p => if (s.core p.1).retired then a + 2 ^ p.2 else a) 0, 8),
        (b2n x.stale, 7), (b2n (s.degradedIn c), 6), (x.steps, 0)]

-- commands (R463 to R465) ---------------------------------------------------------------------------------------------------------------

/-- Words of HEALTH.STATUS (R463). -/
def healthWords (s : State) : List Word :=
  [s.hmStatus, s.hmVcore] ++ (List.range 8).map s.hmCourse
  ++ [pack ((List.range 32).map fun d => (b2n (s.dacCh d).degraded, d)), s.health.poweredHours]

/-- HEALTH.STATUS (R463). -/
def cardHealthStatus : Card where
  opcode := 0xB00
  len := fun e => e.payload.length == 1
  range := fun e _ => bits (e.pw 0) 31 1 == 0
  run := fun e s =>
    finishNow 0xB00 e (healthWords s)
      (if bit (e.pw 0) 0 then { s with health := { s.health with clkAlarms := 0, supplyAlarms := 0 } } else s)

/-- A signed value in 16 bits. -/
def half (x : Int) : Nat := (BitVec.ofInt 16 x).toNat

/-- The least bank margin of a Course and its bank, the lowest-numbered of equal ones; 0 with no bank tested (R464). -/
def leastBank (x : Course) : Word :=
  match leastRank (x.bankMargins.map fun (p : Nat × Nat) => (p.2 * 64 + p.1, p.1)) with
  | some b => pack [(b, 16), (x.bankMargins.look b 0, 0)]
  | none => 0

/-- Nanoseconds of an hour. -/
def hourNs : Nat := 3600 * 10 ^ 9

/-- A new slack enters what can still be the worst of the last hour: older ones that it undercuts, or that are over an hour old, go (R452). -/
def slideMin (now : BitVec 64) (v : Int) (l : List (BitVec 64 × Int)) : List (BitVec 64 × Int) :=
  (l.filter fun p => decide ((now - p.1).toNat < hourNs) && decide (p.2 < v)) ++ [(now, v)]

/-- The worst slack of the last hour (R452). -/
def hourWorst (now : BitVec 64) (l : List (BitVec 64 × Int)) : Option Int :=
  ((l.filter fun p => decide ((now - p.1).toNat < hourNs)).map Prod.snd).min?

/-- The worst slack of each core of a Course over the last hour. -/
def State.hourSlacks (s : State) (x : Course) : Tab Int :=
  x.slackHour.filterMap fun p => (hourWorst s.time.deviceTime p.2).map fun v => (p.1, v)

/-- Words of HEALTH.LEDGER (R464). -/
def ledgerWords (c : Nat) (s : State) : List Word :=
  let x := s.course c
  ((List.range 4).map fun i => BitVec.ofInt 32 (x.ringOsc.look i 0))
  ++ ((List.range 8).map fun i => pack [(half (x.slackLife.look i 0), 16), (half ((s.hourSlacks x).look i 0), 0)])
  ++ ((List.range 8).map fun i => pack [((s.core (8 * c + i)).retireCause, 16), (x.margins.look i 0, 0)])
  ++ [leastBank x]
  ++ ((List.range 6).map fun i => x.hours.getD i 0)
  ++ [x.lastCycle, pack [(x.floor, 8), (x.steps, 0)]]

/-- HEALTH.LEDGER (R464). -/
def cardHealthLedger : Card where
  opcode := 0xB01
  len := fun e => e.payload.length == 1
  range := fun e _ => bits (e.pw 0) 31 3 == 0
  run := fun e s => finishNow 0xB01 e (ledgerWords (bits (e.pw 0) 2 0) s) s

/-- Floor of Course `c` in a HEALTH.SET. -/
def setFloor (e : Entry) (c : Nat) : Nat := ((e.pw (1 + c / 4)).toNat / 2 ^ (8 * (c % 4))) % 256

/-- Core `k` in the retire mask. -/
def setRetire (e : Entry) (k : Nat) : Bool := bit (e.pw (3 + k / 32)) (k % 32)

/-- The floors and retirements leave every Bay's reserves within R98 (R465). -/
def healthSetOk (e : Entry) (s : State) : Bool :=
  let steps := fun c => Nat.max (s.course c).steps (setFloor e c)
  let gone := fun k => s.gone k || setRetire e k
  (List.range 8).all fun b => !s.formed b || decide (reserveSum s.endpoint b ≤ ratedWith steps gone b s)

/-- HEALTH.SET (R465). -/
def cardHealthSet : Card where
  opcode := 0xB02
  len := fun e => e.payload.length == 5
  range := fun e _ =>
    bits (e.pw 0) 30 10 == 0 && decide (700 ≤ bits (e.pw 0) 9 0) && decide (bits (e.pw 0) 9 0 ≤ 850)
    && (List.range 8).all fun c => decide (setFloor e c < 32)
  post := fun e s => need (healthSetOk e s) eConflict
  run := fun e s => queueBoundary 0xB02 e {} s

/-- A core is marked for retirement with its ledger cause, unless it is already (R458). -/
def markRetire (cause : Nat) (s : State) (k : Nat) : State :=
  if s.gone k then s else s.setCore k { s.core k with retire := true, retireDue := false, retireCause := cause }

-- the ledger (R452, R453) -----------------------------------------------------------------------------------------------------------------

/-- What the ledger holds of a Course now. -/
def ledgerCourse (s : State) (c : Nat) : LedgerCourse :=
  let x := s.course c
  { ringOsc := x.ringOsc, slackLife := x.slackLife, slackHour := s.hourSlacks x, margins := x.margins,
    bankMargins := x.bankMargins, steps := x.steps, floor := x.floor, lastCycle := x.lastCycle, hours := x.hours }

/-- The ledger as it stands (R452): a core retired by failure is not recorded (R458). -/
def State.ledgerNow (s : State) : Ledger :=
  { courses := (List.range 8).map fun c => (c, ledgerCourse s c),
    retired := ((List.range 64).filter fun k => (s.core k).retireCause != 0).map fun k => (k, (s.core k).retireCause),
    degraded := (List.range 32).filter fun d => (s.dacCh d).degraded,
    weak := (List.range 64).filter fun n => (s.bank n).weak, setpoint := s.health.setpoint, poweredHours := s.health.poweredHours }

/-- The active Conductor writes the older copy (R453); while none is active the write waits. A write lasts until the next device frame tick (DESIGN
CHOICE, log entry 136). -/
def writeLedger (s : State) : State :=
  let h := s.health
  if s.condDown then { s with health := { h with ledgerDue := true } }
  else
    { s with health := { h with ledgers := h.ledgers.put (b2n !h.ledgerCopy) s.ledgerNow, ledgerCopy := !h.ledgerCopy, ledgerSeq := h.ledgerSeq + 1,
                                ledgerDue := false, ledgerOpen := true } }

/-- A device frame boundary: the write under way is complete, and one that waited for a Conductor is made (R453). -/
def tickLedger (s : State) : State :=
  let s1 := { s with health := { s.health with ledgerOpen := false } }
  if s1.health.ledgerDue then writeLedger s1 else s1

/-- Band of a junction temperature in quarter degrees (R452): below 55, 70, 85, 95, to 105, above. -/
def tjBand (t : Int) : Nat := if t < 220 then 0 else if t < 280 then 1 else if t < 340 then 2 else if t < 380 then 3 else if t ≤ 420 then 4 else 5

/-- 90 days of powered time have passed since the Course's last complete SERVICE cycle (R451). -/
def State.staleDue (s : State) (x : Course) : Bool := decide (2160 ≤ (s.health.poweredHours - x.lastCycle).toNat)

/-- An hour of powered time on a Course (R451, R452). -/
def countHour (s : State) (c : Nat) : State :=
  let x := s.course c
  let b := tjBand x.temp
  s.setCourse c { x with hours := (List.range 6).map fun i => if i = b then x.hours.getD i 0 + 1 else x.hours.getD i 0, stale := x.stale || s.staleDue x }

/-- LEDGER_WRITE: an hour of powered time is over (R453). -/
def hourlyLedger (s : State) : State :=
  writeLedger ((List.range 8).foldl countHour { s with health := { s.health with poweredHours := s.health.poweredHours + 1 } })

/-- LEDGER_WRITE (R453). -/
def execLedgerWrite (s : State) : Outcome := .next (hourlyLedger s)

/-- A floor above the steps of Course `c` raises them (R457, R465): at this boundary, and in a RENDER Bay at its own. -/
def raiseFloor (e : Entry) (s : State) (c : Nat) : State :=
  let x := s.course c
  let f := setFloor e c
  if f ≤ x.nextSteps then s.setCourse c { x with floor := f, steps := if f ≤ x.steps ∨ s.ownTimeline (s.courseBay c) then x.steps else f }
  else
    s.setCourse c { x with floor := f, nextSteps := f, steps := if s.ownTimeline (s.courseBay c) then x.steps else Nat.max x.steps f,
                           lastRaise := some s.time.deviceTime, goodFrom := none }

/-- The ledger records a change of steps or a retirement (R453). -/
def State.ledgerMoved (s t : State) : Bool :=
  ((List.range 8).any fun c => (s.course c).steps != (t.course c).steps) || (List.range 64).any fun k => (s.core k).retire != (t.core k).retire

/-- HEALTH.SET at its boundary (R457, R458, R465); changes of steps and retirements are recorded in the ledger (R453). -/
def applyHealthSet (e : Entry) (s : State) : State :=
  let s1 := { s with health := { s.health with avsEn := bit (e.pw 0) 31, vmax := bits (e.pw 0) 9 0 } }
  let s2 := ((List.range 64).filter (setRetire e)).foldl (markRetire 4) ((List.range 8).foldl (raiseFloor e) s1)
  if s.ledgerMoved s2 then writeLedger s2 else s2

/-- Retirements that the ledger has decided take effect as marks at a device frame boundary (R458). -/
def tickRetire (s : State) : State :=
  let ks := (List.range 64).filter fun k => (s.core k).retireDue
  if ks.isEmpty then s else writeLedger (ks.foldl (fun s k => markRetire (s.core k).retireCause s k) s)

/-- The ledger decides to retire a core at the next boundary, with a cause (R458). -/
def dueRetire (cause : Nat) (s : State) (k : Nat) : State :=
  if s.gone k ∨ (s.core k).retireDue then s else s.setCore k { s.core k with retireDue := true, retireCause := cause }

-- a 100 ms period (R454 to R458) --------------------------------------------------------------------------------------------------------------

/-- Lesser of a table's value, if any, and a new one. -/
def lesser (t : Tab Int) (i : Nat) (x : Int) : Tab Int := t.put i (match t.find i with | some y => min x y | none => x)

/-- Slack of the worst core of a Course that is not retired; a Course without one has ample (R454). -/
def worstOf (slacks : List Int) (s : State) (cs : List Nat) : Int :=
  ((cs.filter fun k => !(s.core k).retired).map fun k => slacks.getD k 0).foldl min 1000

/-- The measurements of the period on Course `c` (R449, R452). -/
def measureCourse (r : HealthReading) (vdd : List Nat) (ring : Bool) (s : State) (c : Nat) : State :=
  let x := s.course c
  let v := fun (i : Nat) => r.slacks.getD (8 * c + i) 0
  s.setCourse c
    { x with slackLife := (List.range 8).foldl (fun t i => lesser t i (v i)) x.slackLife,
             slackHour := (List.range 8).foldl (fun t i => t.put i (slideMin s.time.deviceTime (v i) (t.look i []))) x.slackHour,
             slack := worstOf r.slacks s (courseCores c), temp := r.temps.getD c x.temp, vdd := vdd.getD c x.vdd,
             ringOsc := if ring then (List.range 4).map fun i => (i, r.rings.getD (4 * c + i) (x.ringOsc.look i 0)) else x.ringOsc }

/-- The ring oscillators are measured every 1 s (R449). -/
def ringDue (s : State) : Bool := match s.health.ringAt with | some t => decide (10 ^ 9 ≤ (s.time.deviceTime - t).toNat) | none => true

/-- Every measurement of a period (R449). -/
def measureAll (r : HealthReading) (vdd : List Nat) (s : State) : State :=
  let ring := ringDue s
  let s1 := (List.range 8).foldl (measureCourse r vdd ring) s
  { s1 with health := { s1.health with central := r.temps.getD 8 s.health.central, ringAt := if ring then some s.time.deviceTime else s.health.ringAt } }

/-- The setpoint is VMAX as the step rules take it (R454, R457): also while it is being lowered to a new VMAX (R465), or held. -/
def State.atVmax (s : State) : Bool := !s.health.avsEn || decide (s.health.vmax ≤ s.health.setpoint)

/-- The setpoint that R454 asks for. -/
def wantSetpoint (w : Int) (s : State) : Nat :=
  let h := s.health
  let above := (List.range 8).any fun c => decide ((s.course c).floor < (s.course c).steps)
  if !h.avsEn ∨ h.pmbusFail then h.setpoint
  else if w < 60 ∧ h.setpoint < h.vmax then Nat.min (h.setpoint + 5) h.vmax
  else if 120 < w ∧ 700 < h.setpoint ∧ !above then Nat.max (h.setpoint - 5) 700
  else h.setpoint

/-- A setpoint write over PMBus to VOUT_COMMAND, in the format that VOUT_MODE gives (R454, R455): not acknowledged after 3 tries, the setpoint is held
and PMBUS_FAIL sets. -/
def writeSetpoint (v : Nat) (ack : Bool) (s0 : State) : State :=
  let h := s0.health
  let s := s0.send .vout [(Config.voutCode h.voutMode v).toNat]
  if ack then
    let s1 := { s with health := { h with setpoint := v, wanted := v, pmbusFail := false } }
    if h.pmbusFail then hwPostNew 4 4 s1 else s1
  else
    let s1 := { s with health := { h with wanted := v, pmbusFail := true } }
    if h.pmbusFail then s1 else hwPostNew 4 4 s1

/-- The setpoint that a retry writes (R454, R455, R465): the one that was not acknowledged, unless AVS_EN or VMAX forbids it since. -/
def Health.retryValue (h : Health) : Nat :=
  if h.wanted < h.setpoint then (if h.avsEn || decide (h.vmax < h.setpoint) then h.wanted else h.setpoint)
  else if h.avsEn && decide (h.wanted ≤ h.vmax) then h.wanted else h.setpoint

/-- A Device Time lies less than `ns` back. -/
def lately (now : BitVec 64) (ns : Nat) (t : Option (BitVec 64)) : Bool := match t with | some u => decide ((now - u).toNat < ns) | none => false

/-- The steps of Course `c` at the end of a period (R457); `vmax`: the setpoint is VMAX. A change that waits for its boundary stands. -/
def stepCourse (vmax : Bool) (s : State) (c : Nat) : State :=
  let x := s.course c
  let now := s.time.deviceTime
  let good := if 100 < x.slack then some (x.goodFrom.getD s.health.periodAt) else none
  if vmax ∧ x.slack < 60 ∧ !lately now (10 ^ 10) x.lastRaise ∧ x.nextSteps < 16 then
    s.setCourse c { x with nextSteps := x.nextSteps + 1, lastRaise := some now, goodFrom := none }
  else if good.isSome ∧ !lately now (6 * 10 ^ 10) good ∧ x.floor < x.nextSteps then
    s.setCourse c { x with nextSteps := x.nextSteps - 1, goodFrom := none }
  else if x.nextSteps < x.floor then s.setCourse c { x with nextSteps := x.floor, lastRaise := some now, goodFrom := none }
  else s.setCourse c { x with goodFrom := good }

/-- A core below 60 ps in its own monitors throughout 10 s, its Course at s = 16 and the setpoint VMAX, is retired (R458). -/
def slackCore (vmax : Bool) (slacks : List Int) (s : State) (k : Nat) : State :=
  let x := s.course (k / 8)
  if vmax ∧ x.steps = 16 ∧ slacks.getD k 0 < 60 then
    let t := x.lowFrom.look (k % 8) s.health.periodAt
    let s1 := s.setCourse (k / 8) { x with lowFrom := x.lowFrom.put (k % 8) t }
    if lately s.time.deviceTime (10 ^ 10) (some t) then s1 else dueRetire 3 s1 k
  else s.setCourse (k / 8) { x with lowFrom := x.lowFrom.del (k % 8) }

/-- SUPPLY_DEV after a period (R455). -/
def supplyDev (off25 : List Bool) (s : State) : State :=
  let d := (off25.take 8).any id
  if d = s.health.supplyDev then s else hwPostNew 4 4 { s with health := { s.health with supplyDev := d } }

/-- The end of a 100 ms period (R449, R454 to R458, R460) with what it has measured; slack taken in the 10 ms after a write is not in it (R454). `ack`:
a write that it makes is acknowledged. -/
def periodEnd (r : HealthReading) (vdd : List Nat) (off25 : List Bool) (ack : Bool) (s : State) : State :=
  let s1 := measureAll r vdd s
  let vmax := s1.atVmax
  let want := wantSetpoint (worstOf r.slacks s1 (List.range 64)) s1
  let s2 := if want = s1.health.setpoint then s1 else writeSetpoint want ack s1
  let s3 := supplyDev off25 s2
  let s4 := (List.range 64).foldl (slackCore vmax r.slacks) s3
  let s5 := recalOnTemp ((List.range 8).foldl (stepCourse vmax) s4)
  { s5 with health := { s5.health with periodAt := s.time.deviceTime } }

/-- HEALTH_PERIOD_END (R454). -/
def execHealthPeriodEnd (r : HealthReading) (vdd : List Nat) (off25 : List Bool) (ack : Bool) (s : State) : Outcome := .next (periodEnd r vdd off25 ack s)

/-- PMBUS_RETRY (R455). -/
def execPmbusRetry (ack : Bool) (s : State) : Outcome :=
  .next (if s.health.pmbusFail then writeSetpoint s.health.retryValue ack s else s)

/-- The core regulator acknowledges the next write of VMAX_STEP: the row does not say, so it is a free value (R455; log entry 10). -/
def State.acked (s : State) : Bool := (Config.free32 s.freeCtr).getLsbD 0

/-- VMAX_STEP (R465): 5 mV towards a VMAX below the setpoint; while a write fails the setpoint is held (R455). -/
def execVmaxStep (s : State) : Outcome :=
  .next (if s.health.vmax < s.health.setpoint ∧ s.health.pmbusFail = false then
    writeSetpoint (Nat.max (s.health.setpoint - 5) s.health.vmax) s.acked s.fresh else s)

/-- New steps apply at a boundary, for the Courses of the Bays that satisfy `f` (R457); the ledger records a change (R453). -/
def tickSteps (f : Nat → Bool) (s : State) : State :=
  let cs := (List.range 8).filter fun c => f (s.courseBay c) && (s.course c).nextSteps != (s.course c).steps
  if cs.isEmpty then s
  else writeLedger (cs.foldl (fun s c => s.setCourse c { s.course c with steps := (s.course c).nextSteps }) s)

-- alarms and SERVICE (R450, R451, R456, R458, R459) ----------------------------------------------------------------------------------------------

/-- A Course alarm is a self-diagnosis event of its Bay, at the Course's position (R278, R456). -/
def courseEvent (c : Nat) (s : State) : State := let b := s.courseBay c; reportEvent b 5 (8 * (c - (s.bay b).first.toNat)) s

/-- COURSE_CLOCK_ALARM (R456): counted, an event of the Bay, and the present 100 ms period ends at once with what it has measured. -/
def execCourseClockAlarm (alarm : ClockAlarm) (s : State) : Outcome :=
  withUnit alarm.course 8 <| .next <| periodEnd alarm.reading alarm.vdd alarm.off25 alarm.ack <|
    courseEvent alarm.course { s with health := { s.health with clkAlarms := satInc s.health.clkAlarms } }

/-- COURSE_SUPPLY_ALARM (R456). -/
def execCourseSupplyAlarm (course : Nat) (s : State) : Outcome :=
  withUnit course 8 (.next (courseEvent course { s with health := { s.health with supplyAlarms := satInc s.health.supplyAlarms } }))

/-- STALE (R451): once 90 days of powered time have passed without a complete cycle. -/
def execStale (course : Nat) (s : State) : Outcome :=
  withUnit course 8 (.next (if s.staleDue (s.course course) then s.setCourse course { s.course course with stale := true } else s))

/-- A core fails its known-answer test in a SERVICE cycle (R458): the second time it is retired. -/
def failKat (c : Nat) (s : State) (i : Nat) : State :=
  let x := s.course c
  let n := x.katFails.look i 0 + 1
  let s1 := s.setCourse c { x with katFails := x.katFails.put i n }
  if 2 ≤ n then dueRetire 2 s1 (8 * c + i) else s1

/-- The least of the values recorded for `k` and a new one. -/
def leastOf (t : Tab Nat) (k v : Nat) : Tab Nat := t.put k (match t.find k with | some y => Nat.min y v | none => v)

/-- A local margin is recorded, the least of all tests; below 15 mV the core is retired (R452, R458). -/
def putMargin (c : Nat) (s : State) (p : Nat × Nat) : State :=
  let s1 := s.setCourse c { s.course c with margins := leastOf (s.course c).margins p.2 p.1 }
  if p.1 < 15 then dueRetire 1 s1 (8 * c + p.2) else s1

/-- A bank's test ends (R450, R452, R459): its window is returned, its margin recorded, the least of all tests; below 30 mV the bank never retains. It
counts for the cycle of every Course of the Bay. -/
def putBankMargin (c b mv : Nat) (s : State) : State :=
  let s0 := restoreGroup b s
  let s1 := s0.setCourse c { s0.course c with bankMargins := leastOf (s0.course c).bankMargins b mv, testBank := none, cycleStep := 4 }
  let s2 := (s1.bayCourses (s1.courseBay c)).foldl (fun s d => s.setCourse d { s.course d with tested := b :: (s.course d).tested }) s1
  if mv < 30 then s2.setBank b { s2.bank b with weak := true } else s2

/-- Course `c` may borrow this window and group of bank `b` (R333, R334, R450): one bank at a time, an awake one of the Bay without NOBORROW, or the one
that it tests; a window from its first group on, and after a suspension the same window again, not before the next boundary. -/
def mayBorrow (c b window group : Nat) (s : State) : Bool :=
  let r := s.bank b
  let x := s.course c
  !r.noBorrow && !r.suspended && decide (window < 64) && decide (group < 16) && (x.testBank.all fun n => n == b)
  && (r.state == 0 || (r.state == 2 && x.testBank == some b))
  && (group == 0 || (r.state == 2 && r.window == window)) && (!r.again || window == r.window)

/-- A background test borrows a window and saves a group (R333). -/
def borrowGroup (c b window group : Nat) (s : State) : State :=
  if mayBorrow c b window group s then
    let s1 := if (s.bank b).state = 2 then restoreGroup b s else s
    let x := { s1.bank b with state := 2, window := window, group := group, again := false }
    let s2 := s1.setBank b { x with saved := Mem.words s1.mem.store (groupWord b x) 64 }
    s2.setCourse c { s2.course c with testBank := some b }
  else s

/-- A bank that the Bay of Course `c` owns: a SERVICE Bay tests only those (R271). -/
def ownBank (c b : Nat) (s : State) : Bool := decide (b < 64) && (s.bank b).owner.toNat == s.courseBay c

/-- Every bank that the Bay of Course `c` owns and lends has been tested in its cycle (R333, R450). -/
def banksTested (c : Nat) (s : State) : Bool :=
  (s.bayBanks (s.courseBay c)).all fun b => (s.bank b).noBorrow || (s.course c).tested.contains b

/-- Lanes that fail their residue test are self-diagnosis events of the Bay (R278). -/
def residueEvents (c : Nat) (failed : List Nat) (s : State) : State :=
  let b := s.courseBay c
  (failed.filter fun l => decide (l < 12)).foldl (fun s l => reportEvent b 2 (16 * (c - (s.bay b).first.toNat) + l) s) s

/-- A step of a SERVICE cycle on a Course completes (R450 to R452, R458, R459): the steps in their order; the ledger takes the results of steps 1 to 3
at the end of step 3; the cycle ends once every bank has been tested. -/
def serviceStep (c : Nat) (res : ServiceResult) (s : State) : State :=
  let x := s.course c
  match res with
  | .knownAnswer failed =>
    if x.cycleStep = 0 then
      laneTests c true (s.setCourse c { x with cycleStep := 1, katNow := failed.filter fun i => decide (i < 8), tested := [], testBank := none })
    else s
  | .residue failed => if x.cycleStep = 1 then laneTests c false (residueEvents c failed (s.setCourse c { x with cycleStep := 2 })) else s
  | .margins mv =>
    if x.cycleStep = 2 then ((mv.take 8).zipIdx).foldl (putMargin c) (x.katNow.foldl (failKat c) (s.setCourse c { x with cycleStep := 3, katNow := [] })) else s
  | .bank b mv => if 3 ≤ x.cycleStep ∧ x.testBank = some b ∧ (s.bank b).state = 2 then putBankMargin c b mv s else s
  | .borrow b window group => if 3 ≤ x.cycleStep ∧ ownBank c b s then borrowGroup c b window group s else s
  | .finish =>
    if 3 ≤ x.cycleStep ∧ x.testBank = none ∧ banksTested c s then
      s.setCourse c { x with cycleStep := 0, tested := [], lastCycle := s.health.poweredHours, stale := false }
    else s

/-- SERVICE_CYCLE (R450): only while the Course's Bay is in SERVICE. -/
def execServiceCycle (course : Nat) (res : ServiceResult) (s : State) : Outcome :=
  withUnit course 8 (.next (if (s.bay (s.courseBay course)).mode = .service then serviceStep course res s else s))

end Sys2Proof.Machine
end

