-- ==== Sys2Proof/Machine/VoiceTask.lean ====
section
/-! DEFINITION. The voice task of a frame (chapter 06, R164 to R170, R173 to R180): modulation sources and routes, effective
values, the two filters, amplifier, pan and sends, the oscillator controls of the block after next, and TASK_DISPATCH. -/

namespace Sys2Proof.Machine

-- random values and LFOs (R176, R177) ------------------------------------------------------------------------------------------------------

/-- r_j: the first output of the generator loaded with j, the voice slot or part, and the LFO index (R145, R176). -/
def randomValue (j unit idx : Nat) : Word24 :=
  let x : BitVec 64 := BitVec.ofNat 64 (j % 2 ^ 32 * 2 ^ 32 + unit % 65536 * 256 + idx % 256)
  (lfsrAdvance (if x = 0 then 1 else x)).setWidth 24

/-- An LFO's output from its cycle, its phase and its shape (R176). -/
def lfoValue (shape cycle : Nat) (phase : Word) (unit idx : Nat) : Word24 :=
  lfoShape shape phase (randomValue cycle unit idx) (randomValue (cycle + 1) unit idx)

/-- Part LFO `j` of a part at a stamp of timeline `ln` (R177), with its rate as it is there when a command ramps it (R190; DESIGN CHOICE, log entry 131); the
cycles of its random shapes are counted from its anchor (DESIGN CHOICE, log entry 128). -/
def State.partLfo (s : State) (ln part j : Nat) (t : Word) : Word24 :=
  let an := s.params.anchors.look (lfoKey part j) (0, 0)
  let inc := (lfoIncrement (s.smoothed ln (partAddr part (0x20 + 4 * j)) t) (baseRate s.time.rate)).toNat
  let total := an.2.toNat + inc * (t - an.1).toNat
  lfoValue (s.endpointAt ln (partAddr part (0x21 + 4 * j)) t).toNat (total / 2 ^ 32) (BitVec.ofNat 32 total) part (4 + j)

-- effective values (R180) -------------------------------------------------------------------------------------------------------------------------

/-- Effective value of a template parameter from its base, M and M_prev, at sample `n` of a frame of `spf` samples (R180). -/
def effective (p : Nat) (base mp m : Int) (n spf : Nat) : Int :=
  clampP p (base + mp + ((m - mp) * (n + 1) + spf / 2) / spf)

/-- What a voice's frame is computed from: its frame's first stamp, S, and M of the frame (R180). -/
structure FrameEnv where
  t0 : Word
  spf : Nat
  m : List Word

/-- Stamp of sample `n` of a frame. -/
def FrameEnv.stamp (f : FrameEnv) (n : Nat) : Word := f.t0 + BitVec.ofNat 32 (16 * n)

/-- Sample of a frame that contains stamp `t`: its first one for what lies before it. -/
def FrameEnv.sampleOf (f : FrameEnv) (t : Word) : Nat := Nat.min ((stampDist t f.t0).toNat / 16) (f.spf - 1)

/-- Base value of template parameter `p` of a voice at a stamp: as read at placement, or smoothed (R180, R184, R188, R190). -/
def State.baseAt (s : State) (v : Voice) (p : Nat) (t : Word) : Word :=
  match fixedIndex p with
  | some _ => s.voiceP v p
  | none => s.smoothed (s.lineOf v.bay) (s.voiceAddrAt v p t) t

/-- Effective value of template parameter `p` of a voice at sample `n` (R180). -/
def State.eff (s : State) (v : Voice) (f : FrameEnv) (p n : Nat) : Int :=
  effective p (s.baseAt v p (f.stamp n)).toInt (v.mPrev.getD p 0).toInt (f.m.getD p 0).toInt n f.spf

/-- Unmodulated template parameter `p` of a voice at sample `n`, as its endpoint stands there (R189). -/
def State.plain (s : State) (v : Voice) (f : FrameEnv) (p n : Nat) : Word := s.endpointAt (s.lineOf v.bay) (s.voiceAddrAt v p (f.stamp n)) (f.stamp n)

/-- Ticks from a voice's stamp to stamp `t` of its present frame, by the frames since its placement (R176): a voice may live longer than
2^31 ticks. -/
def State.elapsed (s : State) (v : Voice) (f : FrameEnv) (t : Word) : Int :=
  let run := s.age v * (16 * f.spf)
  (run : Int) + stampDist t f.t0 - stampDist v.onset (f.t0 - BitVec.ofNat 32 run)

/-- Ticks by which a voice LFO's phase runs from sample stamp `t` to the next one: none before the voice's stamp (R176). -/
def State.lfoTicks (s : State) (v : Voice) (f : FrameEnv) (t : Word) : Nat := Nat.min (s.elapsed v f (t + 16)).toNat 16

/-- Effective TSCALE and LSCALE of a voice's envelopes in its frame (R173, R175, R180). -/
def State.scaleOf (s : State) (v : Voice) (f : FrameEnv) : EnvScale :=
  { rate := s.time.rate, ts := fun e t => BitVec.ofInt 32 (s.eff v f (0x48 + 2 * e) (f.sampleOf t)),
    ls := fun e t => BitVec.ofInt 32 (s.eff v f (0x49 + 2 * e) (f.sampleOf t)) }

/-- Envelope `e` of a voice run to the end of its frame, and the segments it leaves there (R173, R174). -/
def State.envThrough (s : State) (v : Voice) (f : FrameEnv) (e : Nat) : Env × List Env :=
  envWalk (s.scaleOf v f) v e (f.stamp f.spf) walkFuel (v.envs.getD e {}, v.envsWas.getD e [])

/-- A voice with its six envelopes run to the end of its frame. -/
def State.runEnvs (s : State) (v : Voice) (f : FrameEnv) : Voice :=
  let xs := (List.range v.envs.length).map (s.envThrough v f)
  { v with envs := xs.map fun x => x.1, envsWas := xs.map fun x => x.2 }

-- sources (R178) -----------------------------------------------------------------------------------------------------------------------------------

/-- The four voice LFOs run over `n` samples from the frame's first (R176): phases in units of 2^-36 cycle. -/
def State.lfosAfter (s : State) (v : Voice) (f : FrameEnv) (n : Nat) : List Nat :=
  (List.range 4).map fun j =>
    (List.range n).foldl (fun a k =>
      a + voiceLfoStep (BitVec.ofInt 32 (s.eff v f (0x54 + 4 * j) k)) (baseRate s.time.rate) * s.lfoTicks v f (f.stamp k))
      (v.lfos.getD j 0)

/-- Voice LFO `j` at the frame's last sample, with its delay and fade; 0 before the voice's stamp (R176). -/
def State.voiceLfo (s : State) (slot : Nat) (v : Voice) (f : FrameEnv) (j : Nat) : Word24 :=
  let x := (s.lfosAfter v f (f.spf - 1)).getD j 0
  let y := lfoValue (s.plain v f (0x55 + 4 * j) (f.spf - 1)).toNat (x / 2 ^ 36) (BitVec.ofNat 32 (x / 16)) slot j
  let passed := s.elapsed v f (f.stamp (f.spf - 1))
  if passed < 0 then 0 else lfoFade y passed.toNat (s.voiceP v (0x56 + 4 * j)).toNat (s.voiceP v (0x57 + 4 * j)).toNat (baseRate s.time.rate)

/-- A signed fraction of an endpoint as a source. -/
def fracSource (x : Word) : Word24 := x.setWidth 24

/-- A per-note parameter of a voice's override group; 0 without one (R178). -/
def State.noteSource (s : State) (v : Voice) (p : Nat) (t : Word) : Word24 :=
  match (v.asOf t).group with
  | some g => fracSource (s.smoothed (s.lineOf v.bay) (groupAddr g p) t)
  | none => 0

/-- Source `code` of a voice, whose envelopes have run through the frame, at the frame's last sample (R178). -/
def State.source (s : State) (slot : Nat) (v : Voice) (f : FrameEnv) (code : Nat) : Word24 :=
  let t := f.stamp (f.spf - 1)
  if code = 0 then 0
  else if code ≤ 6 then
    let e := code - 1
    (satQ23 (envLevelAt (s.scaleOf v f) v e (envAt v e t) t)).1
  else if code ≤ 10 then s.voiceLfo slot v f (code - 7)
  else if code ≤ 18 then s.partLfo (s.lineOf v.bay) v.part (code - 11) t
  else if code = 19 then velocitySource v.velocity
  else if code = 20 then keySource (v.asOf t).note
  else if code = 21 then fracSource (s.smoothed (s.lineOf v.bay) (partAddr v.part 0x07) t)
  else if code = 22 then fracSource (s.smoothed (s.lineOf v.bay) (partAddr v.part 0x0A) t)
  else if code ≤ 32 then s.noteSource v (0xF0 + (code - 23)) t
  else if code ≤ 40 then fracSource (s.smoothed (s.lineOf v.bay) (partAddr v.part (0x10 + (code - 33))) t)
  else if code ≤ 46 then v.det.getD (code - 41) 0
  else if code = 47 then randomValue 0 slot 8
  else if code = 48 then 0x7FFFFF
  else 0

-- routes (R179, R180) ---------------------------------------------------------------------------------------------------------------------------------

/-- The routes of a voice that are on, ascending: source, destination, depth (R179). -/
def State.routes (s : State) (v : Voice) (f : FrameEnv) : List (Nat × Nat × BitVec 16) :=
  ((List.range 96).map fun r => s.plain v f (0x80 + r) (f.spf - 1)).filterMap fun w =>
    if bits w 31 24 = 0 then none else some (bits w 31 24, bits w 22 16, w.setWidth 16)

/-- M of every destination (R180) from routes and the sources' values, themselves computed with the M of `f`. -/
def State.sumsOnce (s : State) (slot : Nat) (v : Voice) (f : FrameEnv) (rs : List (Nat × Nat × BitVec 16)) : List Word :=
  let w := s.runEnvs v f
  (List.range 128).map fun p =>
    let ts := (rs.filter fun r => r.2.1 == p).map fun r => (r.2.2, s.source slot w f r.1)
    if ts.isEmpty then 0 else routeSum ts (spanOf p)

/-- M of the frame (R180). A source may itself have effective values, which hold M of the same frame: M is reached in 12 rounds from M_prev,
which settles every chain of up to 12 routes (DEDUCED; what a cycle of routes gives is a DESIGN CHOICE, log entry 52). -/
def State.modSums (s : State) (slot : Nat) (v : Voice) (f : FrameEnv) : List Word :=
  let rs := s.routes v f
  if rs.isEmpty then List.replicate 128 0
  else (List.range 12).foldl (fun m _ => s.sumsOnce slot v { f with m := m } rs) f.m

-- filters (R165 to R167, R196) ---------------------------------------------------------------------------------------------------------------------------

/-- A coefficient set as a filter reads it: whether it is valid, its sections, its entries. -/
structure SetView where
  valid : Bool
  two : Bool
  word : Nat → Word

/-- A stored set (R193, R195). -/
def CoefSet.view (x : CoefSet) : SetView := { valid := x.valid, two := x.sections = 1, word := fun i => x.words.getD i 0 }

/-- What bank `b` gives the voices of a Bay: the set in use, and while a swap Scarf runs the outgoing set, N and the samples passed
(R194 to R196, R198). -/
def State.bankView (s : State) (bay b : Nat) : SetView × Option (SetView × Nat × Nat) :=
  let r := s.bay (s.acting bay)
  if b < 8 then ({ valid := true, two := standardSections b = 1, word := Config.standardBank b s.time.rate.toNat }, none)
  else if r.mode = .render then
    match r.rswaps.find b with
    | some x => (x.front.view, if x.left = 0 then none else some (x.outgoing.view, x.len, x.len - x.left))
    | none => ((s.coef b).front.view, none)
  else
    let x := s.coef b
    (x.front.view, if x.scarfLeft = 0 then none else some (x.outgoing.view, x.scarfLen, x.scarfLen - x.scarfLeft))

/-- Coefficient `i` of a section at a row and column position (R167): row in 2^-64, column in 2^-23. -/
def SetView.coef (x : SetView) (row col sec i : Nat) : Word24 :=
  let n := if x.two then 2 else 1
  let r := Nat.min (row / 2 ^ 64) 127
  let c := Nat.min (col / 2 ^ 23) 3
  let w := fun r c => (x.word ((((Nat.min r 127) * 4 + Nat.min c 3) * n + (if x.two then sec else 0)) * 5 + i)).setWidth 24
  let fr := if r = 127 then 0 else row % 2 ^ 64
  let fc := if c = 3 then 0 else col % 2 ^ 23
  if fr = 0 ∧ fc = 0 then w r c else bilinear (w r c) (w r (c + 1)) (w (r + 1) c) (w (r + 1) (c + 1)) fr fc

/-- A filter state is held to 48 bits (R166). -/
def hold48 (x : Int) : BitVec 48 := if -(2 ^ 47) ≤ x ∧ x < 2 ^ 47 then BitVec.ofInt 48 x else Config.over48 x

/-- One section, transposed direct form II (R166): the states carry the 45 fraction bits of the products. -/
def biquad (b0 b1 b2 a1 a2 x : Word24) (st : BitVec 48 × BitVec 48) : (BitVec 48 × BitVec 48) × Word24 :=
  let y := (satQ23 (roundShift (b0.toInt * x.toInt + st.1.toInt) 22)).1
  ((hold48 (b1.toInt * x.toInt - a1.toInt * y.toInt + st.2.toInt), hold48 (b2.toInt * x.toInt - a2.toInt * y.toInt)), y)

/-- A filter's sections in cascade under one set (R166): `topo` of them. -/
def runSections (x : SetView) (row col : Nat) : Nat → Nat → List (BitVec 48 × BitVec 48) → Word24 → List (BitVec 48 × BitVec 48) × Word24
  | 0, _, st, u => (st, u)
  | k + 1, sec, st, u =>
    let c := fun i => x.coef row col sec i
    let r := biquad (c 0) (c 1) (c 2) (c 3) (c 4) u (st.headD (0, 0))
    let rest := runSections x row col k (sec + 1) st.tail r.2
    (r.1 :: rest.1, rest.2)

/-- The states of one filter: those of the set in use, and those of an outgoing one. -/
structure FiltState where
  now : List (BitVec 48 × BitVec 48)
  old : Option (List (BitVec 48 × BitVec 48))

/-- Crossfade by the gain of a Scarf (R118): g for the outgoing signal, 1 - g for the incoming one. -/
def crossfade (g : Word24) (old new : Word24) : Word24 :=
  (satQ23 (roundShift (g.toInt * old.toInt + (2 ^ 23 - g.toInt) * new.toInt) 23)).1

/-- Filter `k` of a voice at sample `n` (R166, R167, R196): input, state; a bank without a valid set passes the input. -/
def State.runFilter (s : State) (v : Voice) (f : FrameEnv) (k n : Nat) (st : FiltState) (u : Word24) : FiltState × Word24 :=
  let topo := if k = 0 then v.path / 3 % 3 else v.path % 3
  if topo = 0 then (st, u)
  else
    let g := n / 4 * 4
    let note : Int := ((v.asOf (f.stamp n)).note : Int) - 60
    let row := rowPos (s.eff v f (0x32 + 8 * k) g * 2 ^ 7 + s.eff v f (0x34 + 8 * k) g * note)
    let col := 3 * (s.eff v f (0x33 + 8 * k) g).toNat
    let bv := s.bankView v.bay (s.plain v f (0x31 + 8 * k) g).toNat
    let run := fun (x : SetView) (q : List (BitVec 48 × BitVec 48)) => if x.valid then runSections x row col topo 0 q u else (q, u)
    let r := run bv.1 st.now
    match bv.2, st.old with
    | some sc, some q =>
      let o := run sc.1 q
      let m := sc.2.2 + n
      let gain : Word24 := if sc.2.1 ≤ m then 0 else scarfGain (16 * sc.2.1) (16 * m)
      ({ now := r.1, old := some o.1 }, crossfade gain o.2 r.2)
    | _, _ => ({ now := r.1, old := none }, r.2)

/-- The filters of a voice at sample `n`, routed (R165). -/
def State.filterPair (s : State) (v : Voice) (f : FrameEnv) (n : Nat) (f0 f1 : FiltState) (a b : Word24) : FiltState × FiltState × Word24 :=
  match (s.plain v f 0x40 n).toNat with
  | 0 =>
    let x := s.runFilter v f 0 n f0 (addQ a b)
    let y := s.runFilter v f 1 n f1 x.2
    (x.1, y.1, y.2)
  | 1 =>
    let x := s.runFilter v f 0 n f0 (addQ a b)
    let y := s.runFilter v f 1 n f1 (addQ a b)
    (x.1, y.1, addQ x.2 y.2)
  | _ =>
    let x := s.runFilter v f 0 n f0 a
    let y := s.runFilter v f 1 n f1 b
    (x.1, y.1, addQ x.2 y.2)

-- amplifier, pan, output (R168, R169) ----------------------------------------------------------------------------------------------------------------------

/-- Amplifier gain at sample `n` (R168). -/
def State.ampAt (s : State) (v : Voice) (f : FrameEnv) (n : Nat) : Int :=
  let x := s.scaleOf v f
  let t := f.stamp n
  ampGain (envLevelAt x v 0 (envAt v 0 t) t) (x.ls 0 t) (BitVec.ofInt 32 (s.eff v f 0x41 n)) (BitVec.ofInt 32 (s.eff v f 0x42 n)) v.velocity

/-- The gain of a voice's Scarf at a stamp (R118): none before it starts, 0 from sample N on. -/
def scarfAt (v : Voice) (t : Word) : Option Word24 :=
  if v.st ≠ .scarf then none
  else
    let n := 16 * v.scarfLen
    let d := stampDist t (v.scarfEnd - BitVec.ofNat 32 n)
    if d < 0 then none else if (n : Int) ≤ d then some 0 else some (scarfGain n d.toNat)

/-- The Bridge stores of one output sample (R169): the main pair, then each send that is not at level 0. -/
def State.sampleStores (s : State) (v : Voice) (f : FrameEnv) (n : Nat) (y : Word24) : List (Nat × Nat × Word24) :=
  let t := f.stamp n
  let amp := (satQ23 (roundShift (y.toInt * s.ampAt v f n) 23)).1
  let p := (satQ23 (s.eff v f 0x43 n + (s.smoothed (s.lineOf v.bay) (partAddr v.part 0x01) t).toInt)).1
  let fade := fun x => match scarfAt v t with | some g => mulQ x g | none => x
  let vol := (s.smoothed (s.lineOf v.bay) (partAddr v.part 0x00) t).setWidth 24
  let l := mulQ (fade (mulQ amp (panCos p))) vol
  let r := mulQ (fade (mulQ amp (panSin p))) vol
  let out := (s.endpointAt (s.lineOf v.bay) (partAddr v.part 0x02) t).toNat
  [(out, n, l), (out + 1, n, r)] ++
    (List.range 4).flatMap fun k =>
      let lev := s.eff v f (0x44 + k) n
      if lev = 0 then []
      else
        let b := (s.endpointAt (s.lineOf v.bay) (partAddr v.part (0x03 + k)) t).toNat
        [(b, n, mulQ l (BitVec.ofInt 24 lev)), (b + 1, n, mulQ r (BitVec.ofInt 24 lev))]

/-- One sample of the base-rate chain (R164): filter states and stores so far, with the input samples of the two streams. -/
def State.chainStep (s : State) (v : Voice) (f : FrameEnv) (a : FiltState × FiltState × List (Nat × Nat × Word24)) (x : Nat × Word24 × Word24) :
    FiltState × FiltState × List (Nat × Nat × Word24) :=
  let r := s.filterPair v f x.1 a.1 a.2.1 x.2.1 x.2.2
  (r.1, r.2.1, a.2.2 ++ s.sampleStores v f x.1 r.2.2)

-- oscillator controls (R148, R170) ---------------------------------------------------------------------------------------------------------------------------

/-- The controls that a voice task writes for the block after next (R147, R148): effective values at the frame's last sample. TYPE is
that of the program path the voice is charged for (R120). -/
def State.writeControls (s : State) (v : Voice) (f : FrameEnv) : List Osc :=
  let n := f.spf - 1
  let t := f.stamp n
  (v.oscs.zipIdx).map fun q =>
    let k := q.2
    let cfg := (s.plain v f (6 * k) n &&& ~~~(7 : Word)) ||| (v.cfgs.getD k 0 &&& 7)
    let pitch := s.pitch v (BitVec.ofInt 32 (s.eff v f (6 * k + 1) n)) t
    { q.1 with nextCfg := cfg, nextInc := s.increment v (bits cfg 2 0) k pitch, nextLev := BitVec.ofInt 24 (s.eff v f (6 * k + 2) n),
               nextDepth := BitVec.ofInt 24 (s.eff v f (6 * k + 3) n) }

-- the task (R164 to R180) -----------------------------------------------------------------------------------------------------------------------------------

/-- The input samples of context `ctx` of core `k` for a frame's parity (R206): sample number, stream A, stream B. -/
def State.inputSamples (s : State) (k ctx : Nat) (odd : Bool) : List (Nat × Word24 × Word24) :=
  let a := 192 * ctx + (if odd then 64 else 0)
  (List.range s.spf).map fun n => (n, Mem.read (s.core k).y (a + n), Mem.read (s.core k).y (a + 32 + n))

/-- The frame of a voice in slot `slot`, with its M (R180). -/
def State.frameEnv (s : State) (slot : Nat) (v : Voice) : FrameEnv :=
  let f : FrameEnv := { t0 := s.stampOf v.bay, spf := s.spf, m := v.mPrev }
  { f with m := s.modSums slot v f }

/-- What a voice task computes in a frame (R164 to R180): the voice, with its stores. -/
def State.voiceFrame (s : State) (k ctx slot : Nat) (v : Voice) : Voice :=
  let f := s.frameEnv slot v
  let w := s.runEnvs v f
  let filt := fun i => ({ now := (v.filt.drop (2 * i)).take 2, old := v.filtOld.getD i none } : FiltState)
  let r := (s.inputSamples k ctx ((s.frameOf v.bay).getLsbD 0)).foldl (s.chainStep w f) (filt 0, filt 1, [])
  let two := fun (xs : List (BitVec 48 × BitVec 48)) => (xs ++ [(0, 0), (0, 0)]).take 2
  { w with filt := two r.1.now ++ two r.2.1.now, filtOld := [r.1.old, r.2.1.old], mix := some (if v.silent then [] else r.2.2),
           oscs := s.writeControls w f, lfos := s.lfosAfter w f f.spf, mPrev := f.m, det := v.detNow, ampEnd := s.ampAt w f (f.spf - 1) }

/-- The task's stores are held at the core's Bridge port; one to a pair it has not declared is discarded and sets XERR (R229, R240). -/
def holdStores (k : Nat) (t : Task) (xs : List (Nat × Nat × Word24)) (s : State) : State :=
  let ok := xs.filter fun x => t.declares x.1
  let c := { s.core k with staging := ok }
  s.setCore k (if ok.length = xs.length then c else c.onCur RegSet.xerr)

/-- The template of a voice has run on core `k` (R236). -/
def markRun (k : Nat) (v : Voice) (s : State) : State :=
  s.setCore k { s.core k with resid := (s.core k).resid.map fun r =>
    if r.template = v.template then { r with lastRun := s.frameOf v.bay } else r }

/-- A voice task starts: its frame is computed once, also where its twin runs it (R164, R275). -/
def runVoiceTask (k ctx : Nat) (t : Task) (s : State) : State :=
  let i := t.slot.toNat
  let v := s.voice i
  let v1 := if v.mix.isSome then v else s.voiceFrame k ctx i v
  holdStores k t (v1.mix.getD []) (markRun k v1 (s.setVoice i v1))

/-- TASK_DISPATCH (R248): a free core takes its first ready task. A voice task computes its frame (R164 to R180). -/
def dispatchTask (k : Nat) (s : State) : State :=
  match startTask k false s with
  | none => s
  | some (ctx, t, s1) => if t.kind = 0 then runVoiceTask k ctx t s1 else s1

/-- TASK_DISPATCH (R248). -/
def execTaskDispatch (k : Nat) (s : State) : Outcome := withUnit k 64 (.next (dispatchTask k s))

end Sys2Proof.Machine
end

