-- ==== Sys2Proof/Machine/VoiceEvents.lean ====
section
/-! DEFINITION. Events in a voice's life and around it: onset, envelope segments, the end of a Scarf, quarantine, override groups,
template residency (R102, R105, R118, R154, R174, R184, R236). -/

namespace Sys2Proof.Machine

/-- First stamp after the present frame of a Bay's timeline: an event at stamp `t` belongs to it or to one before when `t` lies
before that. -/
def State.frameEnd (s : State) (b : Nat) : Word := s.stampOf b + BitVec.ofNat 32 s.tpf

/-- A stamp has been reached by the present frame of a Bay. -/
def State.reached (s : State) (b : Nat) (t : Word) : Bool := decide (stampDist t (s.frameEnd b) < 0)

/-- ONSET: a voice in PRE-ROLL reaches its first unsuppressed sample (R105, R154). -/
def voiceOnset (i : Nat) (s : State) : State :=
  let v := s.voice i
  if v.inUse ∧ v.st = .preRoll ∧ ¬ v.toFree ∧ s.reached v.bay (sampleCeil v.onset) then s.setVoice i { v with st := .held } else s

/-- ONSET (R154). -/
def execOnset (slot : Nat) (s : State) : Outcome := withUnit slot 8192 (.next (voiceOnset slot s))

/-- ENVELOPE_SEGMENT_END (R105, R173, R174): envelope `e` of a voice runs through the present frame: where a segment completes it loops,
holds, goes on, or ends; the end of envelope 0 frees the voice at the next boundary. -/
def segmentEnd (i e : Nat) (s : State) : State :=
  let v := s.voice i
  if v.inUse && (v.st.counted || v.st == .scarf) && !v.toFree && decide (e < v.envs.length) then
    let x := s.envThrough v (s.frameEnv i v) e
    let v1 := { v with envs := v.envs.set e x.1, envsWas := (List.range 6).map fun k => if k = e then x.2 else v.envsWas.getD k [] }
    s.setVoice i (if e = 0 ∧ x.1.done then { v1 with toFree := true, cause := if v.st = .scarf then v.cause else 1 } else v1)
  else s

/-- ENVELOPE_SEGMENT_END (R174). -/
def execEnvelopeSegmentEnd (slot env : Nat) (s : State) : Outcome := withUnit slot 8192 (withUnit env 6 (.next (segmentEnd slot env s)))

/-- SCARF_END: a voice's Scarf reaches sample N (R105, R118). -/
def voiceScarfEnd (i : Nat) (s : State) : State :=
  let v := s.voice i
  if v.inUse ∧ v.st = .scarf ∧ s.reached v.bay v.scarfEnd then s.setVoice i { v with toFree := true } else s

/-- SCARF_END (R118). -/
def execScarfEnd (slot : Nat) (s : State) : Outcome := withUnit slot 8192 (.next (voiceScarfEnd slot s))

/-- QUARANTINE_END: a slot whose quarantine has run becomes free (R102). -/
def quarantineEnd (i : Nat) (s : State) : State :=
  let v := s.voice i
  if v.inUse ∧ v.st = .free ∧ v.quarLeft = 0 then { s.setVoice i { v with inUse := false } with freed := s.freed ++ [i] } else s

/-- QUARANTINE_END (R102). -/
def execQuarantineEnd (slot : Nat) (s : State) : Outcome := withUnit slot 8192 (.next (quarantineEnd slot s))

/-- Frames after which an unused override group is released (R184). -/
def groupFrames (rate : BitVec 3) : Nat := famFrames rate 6000 5513

/-- GROUP_RELEASE: one second without a voice or a write (R184). -/
def groupRelease (g : Nat) (s : State) : State :=
  let x := s.group g
  if x.bound ∧ groupFrames s.time.rate ≤ x.idle then
    let s1 := (clearGroup g s).setGroup g {}
    { s1 with voices := s1.voices.mapVals fun _ v => if v.group = some g then { v with group := none } else v }
  else s

/-- GROUP_RELEASE (R184). -/
def execGroupRelease (g : Nat) (s : State) : Outcome := withUnit g 256 (.next (groupRelease g s))

/-- Charge the voices of a template on core `k` what applies there now (R107, R236). -/
def recost (k t : Nat) (s : State) : State :=
  { s with voices := s.voices.mapVals fun _ v =>
      if v.inUse ∧ v.core = k ∧ v.template = t ∧ (v.st.counted ∨ v.st = .scarf) then
        let c := s.costOn v v.path k
        { v with cost := c.1, nonResident := c.2 }
      else v }

/-- The COST fields of core `k`'s voice tasks follow what their voices are charged (R239). -/
def taskCosts (k : Nat) (s : State) : State :=
  s.setCore k { s.core k with tasks := (s.core k).tasks.mapVals fun _ t =>
    if t.kind = 0 then { t with cost := BitVec.ofNat 16 (s.voice t.slot.toNat).cost } else t }

/-- The words of a loaded table stand in the residency area (R206, R236): the samples of the object that holds the template's tables
(R235), in order and as external memory holds them: a protected object's are not decrypted, for plaintext goes to PROTECTED banks alone (R331, R428;
DESIGN CHOICE, log entry 139). -/
def copyTables (k t : Nat) (s : State) : State :=
  match s.imgTemplate (s.courseBay (k / 8)) t, (s.core k).resid.find? fun r => r.template == t && !r.replaced with
  | some x, some r =>
    s.setCore k { s.core k with x := putWords r.addr ((List.range r.words).map fun i => ((s.contentOf x.object.toNat).data.getD i 0).setWidth 24) (s.core k).x }
  | _, _ => s

/-- TEMPLATE_RESIDENT: the load of a template's tables completes at its boundary, and its voices run their resident path (R236). -/
def templateResident (k t : Nat) (s : State) : State :=
  let now := s.frameOf (s.timelineBay (s.courseBay (k / 8)))
  if (s.core k).resid.any fun r => r.template == t && !r.isReady && decide (r.ready ≤ now) then
    taskCosts k (recost k t (copyTables k t (s.setCore k { s.core k with resid := (s.core k).resid.map fun r =>
      if r.template = t ∧ r.ready ≤ now then { r with isReady := true } else r })))
  else s

/-- At the boundary after its tables were replaced a template is resident no more, and its voices pay their non-resident path (R236). -/
def loseReplaced (k : Nat) (s : State) : State :=
  let now := s.frameOf (s.timelineBay (s.courseBay (k / 8)))
  let lost := fun (r : Resident) => r.replaced && decide (r.lostAt ≤ now)
  let gone := (s.core k).resid.filter lost
  if gone.isEmpty then s
  else taskCosts k (gone.foldl (fun s r => recost k r.template s)
    (s.setCore k { s.core k with resid := (s.core k).resid.filter fun r => !lost r }))

/-- TEMPLATE_RESIDENT (R236). -/
def execTemplateResident (k template : Nat) (s : State) : Outcome := withUnit k 64 (withUnit template 256 (.next (templateResident k template s)))

end Sys2Proof.Machine
end

