-- ==== Sys2Proof/Machine/Plan.lean ====
section
/-! DEFINITION. What the Dispatcher plans in the Kerf (R120 to R125): the deadline watch, the program paths and charged costs of
the next frame, moves, shedding and Scarf cuts. -/

namespace Sys2Proof.Machine

/-- A Bay of the device tick that holds control and runs voices (R17, R274): PLAY or FOLLOW. -/
def State.plansInKerf (s : State) (b : Nat) : Bool :=
  s.formed b && s.inControl b && ((s.bay b).mode == .play || (s.bay b).mode == .follow)

-- the deadline watch (R125, R232) -------------------------------------------------------------------------------------------------------

/-- Contexts of core `k` whose task has not completed its instance of this frame. -/
def unfinished (c : VCore) : List Nat := (c.tasks.filter fun p => !p.2.ran && !p.2.skipped && !p.2.fresh).map fun p => p.1

/-- The kernel's Kerf code starts in the primary set, with the registers of task entry (R212, R232). -/
def startKerfCode (k : Nat) (s : State) : State :=
  s.setCore k { s.core k with prim := kerfRegs s.spf, inShadow := false, preemptReq := false }

/-- The deadline watch of one core (R125, R232): unfinished tasks are abandoned, and the event is one of the Bay's self-diagnosis (R278). -/
def abandonUnfinished (k : Nat) (s : State) : State :=
  let xs := unfinished (s.core k)
  if xs.isEmpty then s
  else
    let b := s.courseBay (k / 8)
    let s1 := xs.foldl (fun s ctx => cutTask k ctx 2 s) s
    reportEvent b 3 (s.corePos k) (traceBay 0x08 k b 0 (BitVec.ofNat 32 xs.length) 0 s1)

/-- The start of the Kerf on one core (R125, R232). -/
def watchCore (s : State) (k : Nat) : State := startKerfCode k (abandonUnfinished k s)

/-- The deadline watch of every core of the real-time Bays (R17, R125). -/
def deadlineWatch (s : State) : State :=
  (((List.range 8).filter fun b => s.formed b && (s.bay b).mode.realTime).flatMap s.bayCores).foldl watchCore s

-- the next frame as it stands fixed (R120) ----------------------------------------------------------------------------------------------

/-- A command acts at the coming device boundary (R120): one that waits for it, or a commit stamped in its frame. -/
def dueNext (s : State) (jb : Job) : Bool :=
  jb.phase == .boundary
  || (jb.phase == .timeline && jb.opcode == 0x010 && decide (stampDist jb.stamp (s.time.stamp + BitVec.ofNat 32 (2 * s.tpf)) < 0))

/-- What a waiting command does at the coming boundary to costs, budgets and marks (R120): parameter writes, a commit's values and effects, and
the floors and retirements of HEALTH.SET. -/
def foresee (s : State) (jb : Job) : State :=
  if !dueNext s jb then s
  else if jb.opcode = 0x400 then applyWrites 255 (setWrites jb.e) (setRamp jb.e) s.time.stamp s
  else if jb.opcode = 0x010 then let now := s.mbx.staged.filter fun x => !waitsRender s x; applyEffects now (now.foldl (putValue 255 s.time.stamp) s)
  else if jb.opcode = 0xB02 then applyHealthSet jb.e s
  else s

/-- Effect slots that the values due at the coming boundary set up (R120). -/
def dueEffects (render : Option Nat) (s : State) : List Nat :=
  effectSlotsOf (match render with
    | some b => (s.bay b).waiting
    | none => if s.mbx.jobs.any fun jb => jb.opcode == 0x010 && dueNext s jb then s.mbx.staged.filter fun x => !waitsRender s x else [])

/-- A task leaves its core at the coming boundary: its voice reaches FREE there (R105). -/
def State.taskEnds (s : State) (t : Task) : Bool := t.kind == 0 && (s.voice t.slot.toNat).toFree

/-- An effect task of one of the slots `new`. -/
def Task.resets (new : List Nat) (t : Task) : Bool := t.kind == 1 && new.contains t.obj.toNat

/-- The tasks of core `k` as planning counts them (R120): those that stay, and the effects placed at the coming boundary, which planning keeps
apart from the context slots. An effect that is set up anew there counts no more where it stands. -/
def viewTasks (new : List Nat) (f s : State) (k : Nat) : Tab Task :=
  (((s.core k).tasks.filter fun p => !s.taskEnds p.2).map fun p => if p.2.resets new then (p.1, { p.2 with kind := 3 }) else p)
  ++ ((f.core k).tasks.filter fun p => p.2.resets new).map fun p => (64 + p.1, p.2)

/-- The tables of core `k` as they stand at its next boundary (R120, R236): replaced ones are resident no more, and loads that complete are. -/
def viewTables (s : State) (k : Nat) : List Resident :=
  let next := s.frameOf (s.timelineBay (s.courseBay (k / 8))) + 1
  (s.core k).resid.map fun r => { r with isReady := (r.isReady || decide (r.ready ≤ next)) && !(r.replaced && decide (r.lostAt ≤ next)) }

/-- The state as planning sees it (R120): the writes, steps, marks, effects and tables fixed for the coming boundary stand, and what goes to
FREE there costs nothing and holds no context slot. `render`: the RENDER Bay whose own boundary comes, if it is one. -/
def planView (render : Option Nat) (s : State) : State :=
  let new := dueEffects render s
  let f := match render with
    | some b => applyEffects (s.bay b).waiting ((s.bay b).waiting.foldl (putValue (s.lineOf b) (s.bay b).stamp) s)
    | none => s.mbx.jobs.foldl foresee s
  { s with
    params := f.params,
    courses := f.courses.mapVals fun _ x => { x with steps := x.nextSteps },
    cores := f.cores.mapVals fun k c => { s.core k with retire := c.retire || c.retireDue, tasks := viewTasks new f s k, resid := viewTables s k },
    voices := s.voices.mapVals fun _ v => if v.toFree then { v with cost := 0 } else v }

/-- The tasks of core `k` that planning leaves: what it moved, the effects as they stood, and the tasks that end at the boundary where no move has
taken their slot (R206). -/
def keepTasks (s : State) (k : Nat) (ts : Tab Task) : Tab Task :=
  let own := (s.core k).tasks
  let kept := (ts.filter fun p => decide (p.1 < 64)).map fun p => if p.2.kind = 3 then (p.1, (own.find p.1).getD p.2) else p
  (own.filter fun p => s.taskEnds p.2 && (Tab.find kept p.1).isNone).foldl (fun ts p => Tab.put ts p.1 p.2) kept

/-- The tables of core `k` that planning leaves: the loads it asked for are to come, and what was resident is so until the boundary. -/
def keepTables (s : State) (k : Nat) (rs : List Resident) : List Resident :=
  rs.map fun r => { r with isReady := (s.core k).resid.any fun q => q.template == r.template && q.addr == r.addr && q.ready == r.ready && q.isReady }

/-- What planning leaves: voices, contexts, counters and trace; parameters, steps, marks and effects stay for the boundary. -/
def keepPlan (s p : State) : State :=
  { p with
    params := s.params,
    courses := p.courses.mapVals fun c x => { s.course c with moves := x.moves, copies := x.copies },
    cores := p.cores.mapVals fun k c => { c with retire := (s.core k).retire, retireDue := (s.core k).retireDue, retireCause := (s.core k).retireCause,
                                                 tasks := keepTasks s k c.tasks, resid := keepTables s k c.resid },
    voices := p.voices.mapVals fun i v => if (s.voice i).toFree then { v with cost := (s.voice i).cost } else v }

/-- The cores of a Bay and of its twin. -/
def State.pairCores (s : State) (b : Nat) : List Nat :=
  s.bayCores b ++ (if (s.bay b).role = 0 then [] else s.bayCores (s.partnerOf b))

/-- Every voice of Bay `b` takes the path its parameters select, and is charged for it from the coming boundary (R120, R169). -/
def replan (s : State) (b : Nat) : State :=
  let s1 := { s with voices := s.voices.mapVals fun _ v =>
    if v.inUse && !v.toFree && (v.st.counted || v.st == VState.scarf) && decide (v.core < 64) && s.courseBay (v.core / 8) == b then
      let path := s.pathOf v
      let c := s.costOn v path v.core
      { v with path := path, cfgs := s.cfgsNow v, cost := c.1, nonResident := c.2 }
    else v }
  (s1.pairCores b).foldl (fun s k => taskCosts k s) s1

-- moves (R120 to R122, R152, R153) ------------------------------------------------------------------------------------------------------

/-- Copy the words `[lo, lo + n)` of context `ctx` of a memory into context `dst` of another. -/
def copyWords (lo n ctx dst : Nat) (src m : Mem 24) : Mem 24 :=
  (List.range n).foldl (fun m i => Mem.write m (192 * dst + lo + i) (Mem.read src (192 * ctx + lo + i))) m

/-- Copy a context to core `d`, context `dst` (R121, R153): for a voice, all but the input buffer of the coming frame, whose parity
is `odd`. -/
def copyContext (voice odd : Bool) (k ctx d dst : Nat) (s : State) : State :=
  let a := s.core k
  let y := (s.core d).y
  let y1 := if voice then copyWords (if odd then 0 else 64) 64 ctx dst a.y (copyWords 128 64 ctx dst a.y y) else copyWords 0 192 ctx dst a.y y
  s.setCore d { s.core d with x := copyWords 0 192 ctx dst a.x (s.core d).x, y := y1 }

/-- Move the task of context `ctx` of core `k` to context `dst` of core `d`, rewritten first where an error struck it (R233): from the coming frame it
runs there. The decimated-block flag of a voice is raised there when its input buffer has been copied (R153). -/
def moveTask (odd : Bool) (k ctx d dst : Nat) (s : State) : State :=
  match (s.core k).tasks.find ctx with
  | none => s
  | some t =>
    let s1 := copyContext (t.kind == 0) odd k ctx d dst (rewriteSlot d dst s)
    let s2 := dropTask k ctx s1
    let t1 := { t with next := if t.kind = 0 then setBit t.next 2 false else t.next }
    s2.setCore d { s2.core d with tasks := (s2.core d).tasks.put dst t1 }

/-- Move it on the twin cores of a pair too (R275). -/
def moveTwin (odd : Bool) (k ctx d dst : Nat) (s : State) : State :=
  match s.twin k, s.twin d with
  | some a, some b => moveTask odd a ctx b dst s
  | _, _ => s

/-- Moves of a task of core `k` to core `d` (R121, R152): one for its context, and a voice's streams when it changes Course. -/
def movesOf (voice : Bool) (k d : Nat) (s : State) : Nat :=
  if voice ∧ k / 8 ≠ d / 8 then 1 + streamMoves (s.course (k / 8)).preset (osr s.time.rate) else 1

/-- Load the tables of a moved voice's template where they are missing (R236), from the coming boundary. -/
def loadMoved (v : Voice) (d : Nat) (s : State) : State :=
  match s.imgTemplate v.bay v.template with
  | none => s
  | some x =>
    let f := s.frameOf v.bay + 1
    let s1 := requestLoad d v.template x.tableWords f s
    match s1.twin d with
    | some t => if s1.shares (s1.courseBay (t / 8)) then requestLoad t v.template x.tableWords f s1 else s1
    | none => s1

/-- Move voice `i` from context `ctx` of core `k` to core `d` (R121, R137, R153). Its handle, slot, age and output do not change. -/
def moveVoice (k ctx i d : Nat) (s : State) : State :=
  let v := s.voice i
  let dst := s.freeCtx d
  let odd := s.nextOdd v.bay
  let n := movesOf true k d s
  let pair := if k / 8 = d / 8 then v.pair else (s.freePair (d / 8) 32).getD v.pair
  let written := match (s.core k).tasks.find ctx with | some t => t.next.getLsbD 2 | none => false
  let c := s.costOn v v.path d
  let s1 := moveTwin odd k ctx d dst (moveTask odd k ctx d dst s)
  let s2 := s1.setVoice i { v with core := d, ctx := dst, pair := pair, cost := c.1, nonResident := c.2, moveFrom := some (k, ctx, v.pair) }
  let s3 := if written then s2.setCourse (k / 8) { s2.course (k / 8) with copies := (s2.course (k / 8)).copies ++ [i] } else s2
  let s4 := chargeMoves n k d (loadMoved v d s3)
  traceBay 0x05 k v.bay i (pack [(n, 8), (d, 0)]) (BitVec.ofNat 32 c.1) (taskCosts d s4)

/-- Move the effect task of context `ctx` of core `k` to core `d` (R122). -/
def moveEffect (k ctx d : Nat) (t : Task) (s : State) : State :=
  let dst := s.freeCtx d
  let s1 := chargeMoves 1 k d (moveTwin false k ctx d dst (moveTask false k ctx d dst s))
  traceBay 0x05 k t.bay 0 (pack [(1, 8), (d, 0)]) (BitVec.ofNat 32 t.cost.toNat) s1

/-- The core an effect task moves to (R112, R122): first pass, with its declared cost. -/
def effectCore (cands : List Nat) (t : Task) (s : State) : Option Nat :=
  leastRank <| cands.filterMap fun k =>
    let load := s.loadL k + s.loadS k + t.cost.toNat
    if !s.unusable k && decide (s.taskCount k < 64) && decide (load ≤ s.budget k) then some (coreRank false load k, k) else none

/-- One task of a core is moved if it finds a destination and the limits allow; a moving voice never moves twice (R120, R121). -/
def tryMove (k : Nat) (s : State) (ctx : Nat) : State :=
  let cands := (s.bayCores (s.courseBay (k / 8))).filter fun d => d != k
  if s.loadL k ≤ s.budget k ∧ !s.unusable k then s
  else match (s.core k).tasks.find ctx with
    | none => s
    | some t =>
      if t.kind = 0 then
        let i := t.slot.toNat
        let v := s.voice i
        if !v.st.counted || v.toFree || v.moveFrom.isSome then s
        else match chooseCore cands .first v v.path (some (k / 8)) s with
          | none => s
          | some d => if movesFit (movesOf true k d s) k d s then moveVoice k ctx i d s else s
      else if t.kind = 1 ∧ s.unusable k then
        match effectCore cands t s with
        | none => s
        | some d => if movesFit 1 k d s then moveEffect k ctx d t s else s
      else s

/-- The order in which a core's tasks are taken for moving: highest cost first, then the lower slot (R120). -/
def moveOrder (s : State) (k : Nat) : List Nat :=
  sortBy (fun ctx => match (s.core k).tasks.find ctx with
    | some t => (2 ^ 32 - (if t.kind = 0 then (s.voice t.slot.toNat).cost else t.cost.toNat)) * 8192 + t.slot.toNat
    | none => 0) ((s.core k).tasks.map fun p => p.1)

/-- Moves from one core (R120). -/
def relieve (s : State) (k : Nat) : State :=
  if s.loadL k ≤ s.budget k ∧ !s.unusable k then s else (moveOrder s k).foldl (tryMove k) s

/-- Buffers already written when the moves were planned are copied in the order of their timetable positions (R138, R153). -/
def orderCopies (s : State) (c : Nat) : State :=
  let pairOf := fun i => match (s.voice i).moveFrom with | some m => m.2.2 | none => 0
  s.setCourse c { s.course c with copies := sortBy pairOf (s.course c).copies }

/-- The moves of a Bay, cores ascending (R120). -/
def planMoves (s : State) (b : Nat) : State := (s.bayCourses b).foldl orderCopies ((s.bayCores b).foldl relieve s)

-- shedding and Scarf cuts (R123, R124) ----------------------------------------------------------------------------------------------------

/-- Shed one voice (R123): in PRE-ROLL it goes to FREE without a Scarf, else it scarfs for 0.5 ms from the coming frame's first
sample. -/
def shedVoice (i : Nat) (s : State) : State :=
  let v := s.voice i
  let key := s.stealKey 2 i
  let s1 :=
    if v.st = .preRoll then s.setVoice i { v with silent := true, toFree := true, cause := 4, cost := 0 }
    else scarfVoice i (s.frameEnd v.bay) (samples100us s.time.rate 5) 4 s
  traceBay 0x06 v.core v.bay i (BitVec.ofNat 32 (key / 2 ^ 32)) (BitVec.ofNat 32 v.cost)
    (s1.onPart v.part fun c => { c with shed := satInc c.shed })

/-- Shed voices of core `k`, lowest LOWEST key first, until L is within the budget (R123); at most `fuel` of them. -/
def shedCore (k : Nat) : Nat → State → State
  | 0, s => s
  | fuel + 1, s =>
    if s.loadL k ≤ s.budget k then s
    else match leastRank (((s.coreVoices k).filter fun p => p.2.st.counted && !p.2.toFree).map fun p => (s.stealKey 2 p.1, p.1)) with
      | none => s
      | some i => shedCore k fuel (shedVoice i s)

/-- Cut voices in SCARF on core `k`, fewest samples left first, until L + S is within H (R124); at most `fuel` of them. What is left is
compared in stamp ticks (DESIGN CHOICE, log entry 128). -/
def cutScarfs (k : Nat) : Nat → State → State
  | 0, s => s
  | fuel + 1, s =>
    if s.loadL k + s.loadS k ≤ hardLimit s.time.rate then s
    else match leastRank (((s.coreVoices k).filter fun p => p.2.st == .scarf && !p.2.toFree).map fun p =>
        ((stampDist p.2.scarfEnd (s.frameEnd p.2.bay)).toNat * 8192 + p.1, p.1)) with
      | none => s
      | some i => let s1 := cutVoice 1 i s; cutScarfs k fuel (s1.setVoice i { s1.voice i with cost := 0 })

/-- Shedding, then Scarf cuts, of a Bay's cores (R123, R124): a core holds at most 64 tasks (R108). -/
def shedBay (s : State) (b : Nat) : State :=
  (s.bayCores b).foldl (fun s k => cutScarfs k 64 (shedCore k 64 s)) s

/-- The Bays that join those of a list (R276). -/
def joinersOf (bs : List Nat) (s : State) : List Nat := (bs.filter fun b => (s.bay b).role != 0).map s.partnerOf

/-- Planning in the Kerf of the device frame (R120 to R124), then the clones of joining Bays (R276). -/
def planKerf (s : State) : State :=
  let bs := (List.range 8).filter s.plansInKerf
  (joinersOf bs s).foldl cloneSome (keepPlan s (bs.foldl shedBay (bs.foldl planMoves (bs.foldl replan (planView none s)))))

/-- Planning after the last task of a frame of RENDER Bay `b` (R109, R120, R276): moves, then clones. -/
def planRender (b : Nat) (s : State) : State := (joinersOf [b] s).foldl cloneSome (keepPlan s (planMoves (replan (planView (some b) s) b) b))

-- PLACE.LOAD (R134) --------------------------------------------------------------------------------------------------------------------

/-- The core whose voices load core `k`: a MIRROR Bay's cores carry those of its partner (R275, R276). -/
def State.loadCore (s : State) (k : Nat) : Nat :=
  if (s.bay (s.courseBay (k / 8))).mode = .mirror then (s.twin k).getD k else k

/-- The loads and limits planned for the next frame of Bay `b`, with all that is fixed for it so far (R120, R134); a mirror's are its home's. -/
def loadView (b : Nat) (s : State) : State :=
  let c := if (s.bay b).mode = .mirror then s.partnerOf b else b
  replan (planView (if s.ownTimeline c then some c else none) s) c

/-- The two words of PLACE.LOAD for a core (R134). -/
def loadWords (s : State) (k : Nat) : List Word :=
  let j := s.loadCore k
  [pack [(k, 24), (s.taskCount k, 16), (Nat.min (s.loadL j) 0xFFFF, 0)], pack [(s.budget k, 16), (Nat.min (s.loadS j) 0xFFFF, 0)]]

/-- PLACE.LOAD (R134). -/
def cardPlaceLoad : Card where
  opcode := 0x311
  device := false
  modes := [.play, .follow, .render, .mirror]
  len := fun e => e.payload.length == 0
  run := fun e s =>
    let ks := s.bayCores (s.acting e.target.toNat)
    finishNow 0x311 e (BitVec.ofNat 32 ks.length :: ks.flatMap (loadWords (loadView (s.acting e.target.toNat) s))) s

end Sys2Proof.Machine
end

