-- ==== Sys2Proof/Machine/Kerf.lean ====
section
/-! DEFINITION. The close of the bus sums (R18, R351, R352, R355, R356) and the talker packets (R363), and the start of the Kerf. -/

namespace Sys2Proof.Machine

-- closing buses (R351, R282) --------------------------------------------------------------------------------------------------------------

/-- The render buses of the device (R354). -/
def State.renderBuses (s : State) : List Nat :=
  (((List.range 8).filter fun b => s.formed b && (s.bay b).mode == .render).flatMap fun b => declaredBuses b s).eraseDups

/-- Bay of a contribution key. -/
def contribBay (key : Nat) : Nat := key / 8192
/-- Bus of a contribution key. -/
def contribBus (key : Nat) : Nat := key % 8192 / 32

/-- Gain of the Scarf in of a Bay's contribution at sample `n`, with 23 fraction bits (R118, R282). -/
def State.fadeInGain (s : State) (b n : Nat) : Int :=
  let N := halfMs s.time.rate
  let left := (s.bay b).fadeIn
  if left ≤ n then 2 ^ 23 else 2 ^ 23 - (scarfGain (16 * N) (16 * (N - left + n))).toInt

/-- A contribution under its Bay's Scarf in. -/
def State.faded (s : State) (p : Nat × BitVec 40) : Nat × BitVec 40 :=
  let g := s.fadeInGain (contribBay p.1) (p.1 % 32)
  (p.1, if g = 2 ^ 23 then p.2 else scaleAcc p.2 g)

/-- Keys of the bus samples that hold a sum in the frame that leaves, on the buses `mine`. -/
def closedKeys (mine : Nat → Bool) (s : State) : List Nat :=
  ((s.bridge.closed.map fun (p : Nat × BitVec 40) => p.1) ++ s.bridge.leaving.map fun (p : Nat × BitVec 40) => p.1 % 8192).eraseDups.filter fun k => mine (k / 32)

/-- The magnitude of a sample: that of -1.0 is the largest positive value. -/
def magnitude (x : Word24) : Nat := Nat.min x.toInt.natAbs 0x7FFFFF

/-- The largest magnitude on a bus. -/
def peakOf (xs : Tab Word24) (b : Nat) : Nat := (xs.filter fun (p : Nat × Word24) => p.1 / 32 == b).foldl (fun m p => Nat.max m (magnitude p.2)) 0

/-- Bus values and peaks of the frame that leaves, from its sums, on the buses `mine`; its first stamp is `t0` (R351, R352). `count`: its
saturated samples are counted. -/
def busValues (count : Bool) (ln : Nat) (mine : Nat → Bool) (t0 : Word) (s : State) : State :=
  let vs := (closedKeys mine s).map fun k => (k, s.busValue ln (s.closedAcc (k / 32) (k % 32)) (k / 32) (t0 + BitVec.ofNat 32 (16 * (k % 32))))
  let fresh : Tab Word24 := vs.foldl (fun t p => t.put p.1 p.2.1) (s.bridge.values.filter fun p => !mine (p.1 / 32))
  let peaks : Tab Word := ((vs.map fun p => p.1 / 32).eraseDups).foldl (fun t b => t.put b (BitVec.ofNat 32 (peakOf fresh b)))
    (s.bridge.peaks.filter fun p => !mine p.1)
  let n := if count then (vs.filter fun p => p.2.2).length else 0
  { s with bridge := { s.bridge with values := fresh, peaks := peaks }, audio := { s.audio with busSat := satAdd s.audio.busSat n } }

/-- Close the sums of the buses `mine` (R18, R351): the sums and the contributions of the Bays in control are those that leave; the other
Bay's contributions stay until the decision (R282). -/
def closeBuses (ln : Nat) (mine : Nat → Bool) (t0 : Word) (s : State) : State :=
  let br := s.bridge
  let out := fun (p : Nat × BitVec 40) => mine (contribBus p.1) && s.inControl (contribBay p.1)
  let s1 := { s with bridge := { br with
    closed := (br.acc.filter fun p => mine (p.1 / 32)).foldl (fun t p => t.put p.1 p.2) (br.closed.filter fun p => !mine (p.1 / 32)),
    acc := br.acc.filter fun p => !mine (p.1 / 32),
    leaving := ((br.contrib.filter out).map s.faded).foldl (fun t p => t.put p.1 p.2) (br.leaving.filter fun p => !mine (contribBus p.1)),
    contrib := br.contrib.filter fun p => !out p } }
  busValues true ln mine t0 s1

/-- A Bay's Scarf in has run one frame. -/
def runFadeIns (mine : Nat → Bool) (s : State) : State :=
  { s with bays := s.bays.mapVals fun b x => if mine b then { x with fadeIn := x.fadeIn - s.spf } else x }

/-- At the tick the frame that was closed leaves the outputs; the Bridge keeps it while the next is summed (R18, R282). -/
def leaveFrame (s : State) : State :=
  let br := s.bridge
  { s with bridge := { br with
      outClosed := br.closed, outLeaving := br.leaving, outValues := br.values, outStamp := br.closedStamp, outRoutes := br.routes, outFades := br.fades } }

/-- The contribution of Bay `b` to the frame that leaves now is 0 from sample `n0` on (R282). -/
def silenceOut (b n0 : Nat) (s : State) : State :=
  let br := s.bridge
  let lv := br.outLeaving.filter fun p => contribBay p.1 != b || decide (p.1 % 32 < n0)
  let gone := (br.outLeaving.filter fun p => contribBay p.1 == b && decide (n0 ≤ p.1 % 32)).map fun p => p.1 % 8192
  { s with bridge := { br with
      outLeaving := lv,
      outValues := gone.foldl (fun t k =>
        t.put k (s.busValue (s.lineOf b) (sumAcc br.outClosed lv (k / 32) (k % 32)) (k / 32) (br.outStamp + BitVec.ofNat 32 (16 * (k % 32)))).1) br.outValues } }

-- destinations and talker packets (R355, R356, R363) -----------------------------------------------------------------------------------------

/-- Sample `n` of a destination: its bus, a crossfade from its old bus, or 0 (R355, R356). -/
def State.carried (s : State) (values : Tab Word24) (routes : Tab Nat) (fades : Tab (Option Nat × Nat)) (dest n : Nat) : Word24 :=
  let v := fun (b : Option Nat) => match b with | some b => values.look (busKey b n) 0 | none => 0
  let new := v (routes.find dest)
  match fades.find dest with
  | none => new
  | some (old, left) =>
    let N := halfMs s.time.rate
    if left ≤ n then new else crossfade (scarfGain (16 * N) (16 * (N - left + n))) (v old) new

/-- Sample `n` of a destination in the frame that has closed. -/
def State.destSample (s : State) (dest n : Nat) : Word24 := s.carried s.bridge.values s.bridge.routes s.bridge.fades dest n

/-- Sample `n` of a destination in the frame that leaves the outputs now (R282, R360): a late fault of its Bay's output path reads as 0 in it. -/
def State.outSample (s : State) (dest n : Nat) : Word24 := s.carried s.bridge.outValues s.bridge.outRoutes s.bridge.outFades dest n

/-- What an output slot of a width carries for a sample, MSB first (R358): 16 bits rounded as R149 states and saturated, or 24, or 32 with 8
zero bits. -/
def slotOut (width : Nat) (x : Word24) : Word :=
  if width = 16 then ((BitVec.ofInt 16 (min ((x.toInt + 128) / 256) 0x7FFF)).setWidth 32)
  else if width = 24 then x.setWidth 32
  else x.setWidth 32 <<< 8

/-- Slot `k` of output port `p` for sample `n` of the frame that leaves (R355, R358); a disabled port and a slot beyond its count carry none. -/
def State.tdmOut (s : State) (p k n : Nat) : Option Word :=
  let w := s.tdmOf p
  if bit w 31 ∧ k ≤ bits w 20 16 then some (slotOut (slotBits w) (s.outSample (0x100 + 32 * p + k) n)) else none

/-- The words that slot `k` of a slave port sends in a frame with drifts (R360): of two samples in one TDM frame the older is dropped, and a TDM frame
without a new sample repeats the previous one. -/
def State.sentWords (s : State) (slips : List Slip) (p k : Nat) : List Word :=
  (List.range s.spf).flatMap fun n =>
    let w := (s.tdmOut p k n).getD 0
    let here := slips.filter fun x => !x.input && x.port == p && x.n == n
    if here.any fun x => x.extra then [] else w :: here.map fun _ => w

/-- A drift of a port that can slip: an enabled slave (R360); input port p is TDM unit 8 + p (R370). -/
def State.slips (s : State) (x : Slip) : Bool :=
  let w := s.tdmOf (if x.input then 8 + x.port else x.port)
  decide (x.port < 8) && decide (x.n < s.spf) && bit w 31 && !bit w 30

/-- The drifts of the frame that ends are counted, and what the output ports that slipped have sent is kept (R360). -/
def recordSlips (slips : List Slip) (s : State) : State :=
  let xs := slips.filter s.slips
  let ports := ((xs.filter fun x => !x.input).map fun x => x.port).eraseDups
  let keys := ports.flatMap fun p => (List.range (bits (s.tdmOf p) 20 16 + 1)).map fun k => (p, k)
  { s with audio := { s.audio with slip := satAdd s.audio.slip xs.length },
           bridge := { s.bridge with sent := keys.foldl (fun t q => t.put (32 * q.1 + q.2) (s.sentWords xs q.1 q.2)) [] } }

/-- The samples of a talker's packet: sample by sample, its channels ascending (R363). -/
def packetSamples (t : Nat) (s : State) : List Word24 :=
  (List.range s.spf).flatMap fun n => (List.range (s.stm t).channels).map fun c => s.destSample (0x200 + 8 * t + c) n

/-- A talker stream that sends (R363): enabled, declared ready, and the clock of record is not LOCAL. -/
def State.talks (s : State) (t : Nat) : Bool :=
  let x := s.stm t
  x.enable && !x.listener && x.ready && s.time.activeCor != 0

/-- TALKER_PACKET_BUILD of one stream (R363); its times are those of the coming tick. -/
def buildPacket (s : State) (t : Nat) : State :=
  let x := s.stm t
  let q := x.seqNum + 1
  let s1 := s.setStm t { x with seqNum := q }
  let l : Launch := { port := x.port.toNat, classB := x.classB, stm := t, seq := q, samples := packetSamples t s, due := true }
  judgeHead l.port l.classB { s1 with audio := { s1.audio with launch := s1.audio.launch ++ [l] } }

/-- Every talker's packet of the frame, streams ascending (R363). -/
def buildPackets (s : State) : State := ((List.range 32).filter s.talks).foldl buildPacket s

/-- The packets of the frame carry the values as they stand now: a decision may have replaced a Bay's frame (R281). -/
def refreshPackets (s : State) : State :=
  { s with audio := { s.audio with launch := s.audio.launch.map fun (x : Launch) => if x.due then { x with samples := packetSamples x.stm s } else x } }

/-- The tick gives the packets built before it their times (R363): its Device Time, and the clock-of-record domain's time plus
MAX_TRANSIT. -/
def timePackets (s : State) : State :=
  let now := s.time.deviceTime
  let dom := now + (s.dom (corDom s.time.activeCor.toNat)).offset
  { s with audio := { s.audio with launch := s.audio.launch.map fun (x : Launch) =>
      if x.due then { x with due := false, launch := now.setWidth 32, avtpTs := dom.setWidth 32 + BitVec.ofNat 32 (s.stm x.stm).transit } else x } }

-- render records (R357) --------------------------------------------------------------------------------------------------------------------

/-- The number whose destinations are the render ring of Bay `c`: its own, or in a pair the home's (R355, R281). -/
def State.ringNumber (s : State) (c : Nat) : Nat := if (s.bay c).role = 0 then c else s.homeOf c

/-- Room in a Bay's render ring for one more record; a Bay without a ring always has it (R357). -/
def State.ringRoom (s : State) (c : Nat) : Bool :=
  let x := s.bay c
  let i := fun k => (Mem.word s.mem.win (x.ringBase.toNat / 4 + k)).toNat % x.ringF
  x.ringBase == 0 || decide ((i 0 + x.ringF - i 1) % x.ringF < x.ringF - 1)

/-- The record of the frame that Bay `c` has closed enters its render ring, then the producer index advances (R357). -/
def writeRecord (c : Nat) (s : State) : State :=
  let x := s.bay c
  if x.ringBase = 0 then s
  else
    let base := x.ringBase.toNat / 4
    let p := (Mem.word s.mem.win base).toNat % x.ringF
    let dest := 0x400 + 32 * s.ringNumber c
    let rec_ := (List.range s.spf).flatMap fun n => (List.range x.ringC).map fun ch => (s.destSample (dest + ch) n).signExtend 32
    let m1 := Mem.putWords s.mem.win (base + 4 + p * (s.spf * x.ringC)) rec_
    let m2 := Mem.putWord m1 (base + 3) (x.frameCount.setWidth 32) 0xF
    { s with mem := { s.mem with win := Mem.putWord m2 base (BitVec.ofNat 32 ((p + 1) % x.ringF)) 0xF } }

/-- A record that waited for the pair's decision is written (R279, R357). -/
def recordNow (c : Nat) (s : State) : State :=
  if (s.bay c).recordDue then (writeRecord c s).onBay c fun x => { x with recordDue := false } else s

-- the start of the Kerf ------------------------------------------------------------------------------------------------------------------------

/-- A bus closes with the device frame: every one but a render bus (R351, R354). -/
def State.deviceBus (s : State) : Nat → Bool := let rs := s.renderBuses; fun b => !rs.contains b

/-- The start of the Kerf (R18, R120 to R125, R232, R351, R363): unfinished tasks are abandoned, the bus sums close, the talker packets of
the frame are built, and the next frame is planned. -/
def kerfStart (s : State) : State :=
  let s1 := deadlineWatch s
  let mine := s1.deviceBus
  let s2 := runFadeIns (fun b => (s1.bay b).mode != .render) (closeBuses 255 mine s1.time.stamp s1)
  planKerf (buildPackets { s2 with bridge := { s2.bridge with closedStamp := s1.time.stamp } })

/-- KERF_START (R18); none while the frame tick stands. -/
def execKerfStart (s : State) : Outcome := .next (if s.time.ticking ∧ !s.inReset then kerfStart s else s)

end Sys2Proof.Machine
end

