-- ==== Sys2Proof/Machine/PairChecks.lean ====
section
/-! DEFINITION. The frame check of a mirrored pair and its decision (R277 to R284): mismatches, the yield, the drop, the return home; the
self-test of a yielded Bay (R461). -/

namespace Sys2Proof.Machine

-- who is in control ------------------------------------------------------------------------------------------------------------------

/-- The Bay in control of the pair of Bay `b` (R274, R281). -/
def State.controlOf (s : State) (b : Nat) : Nat := s.acting (s.homeOf b)

/-- Corresponding Courses of Bay `b` and its partner (R274). -/
def courseTwins (s : State) (b : Nat) : List (Nat × Nat) := (s.bayCourses b).zip (s.bayCourses (s.partnerOf b))

/-- Corresponding Courses whose hashes differ (R277). -/
def mismatched (s : State) (b : Nat) : List (Nat × Nat) := (courseTwins s b).filter fun p => (s.course p.1).hash != (s.course p.2).hash

/-- Sum of frames within which a recent list is kept, and what is recent now. -/
def recentFrames (window : Nat) (now : BitVec 48) (xs : List (BitVec 48)) : List (BitVec 48) :=
  now :: xs.filter fun f => decide ((now - f).toNat < window)

-- FRAME_CHECK (R279) ---------------------------------------------------------------------------------------------------------------------

/-- The hashes of a pair in lockstep are compared (R276, R279); on a mismatch the local checks of those Courses run, and the cores in
`fails` fail theirs (R278). -/
def frameCheck (b : Nat) (fails : List Nat) (s : State) : State :=
  let bad := mismatched s b
  if !s.inLockstep b || bad.isEmpty then s
  else
    let s1 := s.onBay (s.homeOf b) fun x => { x with mismatches := satInc x.mismatches }
    (fails.filter fun k => bad.any fun p => k / 8 == p.1 || k / 8 == p.2).foldl (fun s k => reportEvent (s.courseBay (k / 8)) 4 (s.corePos k) s) s1

/-- FRAME_CHECK (R279). -/
def execFrameCheck (bay : Nat) (fails : List Nat) (s : State) : Outcome := withUnit bay 8 (.next (frameCheck bay fails s))

-- FRAME_CHECK_DECISION (R280 to R283) ------------------------------------------------------------------------------------------------------

/-- Events of one Bay that its partner does not have too (R278). -/
def ownEvents (s : State) (b : Nat) : List (Nat × Nat) :=
  (s.bay b).events.filter fun e => !(s.bay (s.partnerOf b)).events.contains e

/-- The buses that a Bay's frame closes: a RENDER Bay its render buses, any other the device's (R354). -/
def State.closesBus (s : State) (b : Nat) : Nat → Bool :=
  if (s.bay b).mode = .render then fun n => (declaredBuses b s).contains n else s.deviceBus

/-- First stamp of the frame that leaves on a Bay's timeline. -/
def State.leavingStamp (s : State) (b : Nat) : Word := if (s.bay b).mode = .render then (s.bay b).stamp else s.bridge.closedStamp

/-- The frame of Bay `a` is replaced by that of Bay `o` (R281, R282), with a Scarf in when a late fault of the output path made `a` yield. -/
def takeFrame (late : Bool) (a o : Nat) (s : State) : State :=
  let s0 := if late then s.onBay o fun x => { x with fadeIn := halfMs s.time.rate } else s
  let mine := fun (p : Nat × BitVec 40) => contribBay p.1 == o
  let xs := (s0.bridge.contrib.filter mine).map s0.faded
  let s1 := { s0 with bridge := { s0.bridge with
    leaving := xs.foldl (fun (t : Tab (BitVec 40)) (p : Nat × BitVec 40) => t.put p.1 p.2) (s0.bridge.leaving.filter fun p => contribBay p.1 != a),
    contrib := s0.bridge.contrib.filter fun p => !mine p } }
  let s2 := s1.onBay o fun x => { x with fadeIn := x.fadeIn - s.spf }
  refreshPackets (busValues false (s.lineOf a) (s.closesBus a) (s.leavingStamp a) s2)

/-- The mirror in control yields to the home that runs in lockstep: the table with the roles exchanged (R280). -/
def yieldMirror (h : Nat) (s : State) : State :=
  let m := s.partnerOf h
  let n := (s.bay h).returns
  let s1 := passHome h (voidCuts m s)
  let s2 := s1.onBay h fun x => { x with returns := n, yields := satInc x.yields }
  (clearTasks m s2).onBay m fun x => { x with role := 7, mode := .service, selfTest := true, lockstep := false, joined := false, resyncLeft := 0 }

/-- The Bay in control of the pair of home `h` yields (R280, R281): the frame is taken from the other Bay now, and control changes at the boundary. -/
def yieldControl (h : Nat) (s : State) : State :=
  let c := s.controlOf h
  (takeFrame ((ownEvents s c).any fun e => e.1 == 6) c (s.partnerOf c) s).onBay h fun x => { x with yieldDue := true }

/-- The boundary of a pair's timeline, before anything else acts: a Bay that has yielded gives up control (R281). -/
def tickYield (s : State) (h : Nat) : State :=
  if (s.bay h).yieldDue then
    let s1 := s.onBay h fun x => { x with yieldDue := false }
    if s1.controlOf h = h then yieldHome h s1 else yieldMirror h s1
  else s

/-- The home that resynchronises is dropped, the roles exchanged (R280): it returns to its self-test. -/
def dropHome (h : Nat) (s : State) : State :=
  (clearTasks h s).onBay h fun x =>
    { x with role := 5, mode := .service, selfTest := true, lockstep := false, joined := false, resyncLeft := 0, goHome := false, drops := satInc x.drops }

/-- The Bay that is not in control is dropped (R280). -/
def dropOther (h : Nat) (s : State) : State := if s.controlOf h = h then dropMirror h s else dropHome h s

/-- The faulty cores of the Bay that keeps control are handled as failed (R280, R285): those its own events name. -/
def failFaulty (c : Nat) (es : List (Nat × Nat)) (s : State) : State :=
  (((es.filter fun e => e.1 == 1 || e.1 == 3 || e.1 == 4).map fun e => 8 * (s.bay c).first.toNat + e.2).eraseDups).foldl (fun s k => failCore k s) s

/-- An unresolved mismatch (R280): the other Bay resynchronises at once; the third within 10 s drops it. -/
def unresolved (h : Nat) (s : State) : State :=
  let fs := recentFrames (famFrames s.time.rate 60000 55125) s.time.frameCount (s.bay h).unresFrames
  let s1 := s.onBay h fun x => { x with unresolved := satInc x.unresolved, unresFrames := fs }
  if 3 ≤ fs.length then dropOther h s1
  else
    let o := s.partnerOf (s.controlOf h)
    startResync o (clearTasks o s1)

/-- The events of the frame have been judged, the buffer of the Bay that is not in control is released (R278, R282), and the record of a
RENDER pair's frame is written by the Bay that is in control now (R279, R357). -/
def endDecision (h : Nat) (s0 : State) : State :=
  let m := s0.partnerOf h
  let c := s0.controlOf h
  let due := (s0.bay h).recordDue || (s0.bay m).recordDue
  let mark := fun (b : Nat) (s : State) => s.onBay b fun x => { x with recordDue := b == c }
  let s := if due then recordNow c (mark h (mark m s0)) else s0
  let s1 := (s.onBay h fun x => { x with events := [] }).onBay m fun x => { x with events := [] }
  { s1 with bridge := { s1.bridge with contrib := s1.bridge.contrib.filter fun p => contribBay p.1 != h && contribBay p.1 != m } }

/-- The decision for a frame of a pair in lockstep (R280, R283). -/
def frameDecision (b : Nat) (s : State) : State :=
  if !s.inLockstep b || (s.bay (s.homeOf b)).yieldDue then s
  else
    let h := s.homeOf b
    let c := s.controlOf b
    let o := s.partnerOf c
    let mine := ownEvents s c
    let others := ownEvents s o
    let s1 :=
      match mine.isEmpty, others.isEmpty with
      | true, true =>
        if !(mismatched s c).isEmpty then unresolved h s
        else if c != h then s.onBay h fun x => { x with goHome := true }
        else s
      | false, true => yieldControl h s
      | true, false => dropOther h s
      | false, false => failFaulty c mine (dropOther h s)
    endDecision h s1

/-- FRAME_CHECK_DECISION (R280). -/
def execFrameCheckDecision (bay : Nat) (s : State) : Outcome := withUnit bay 8 (.next (frameDecision bay s))

/-- RETURN_HOME: at the tick after the matching frame, control passes back to the home (R283). -/
def execReturnHome (bay : Nat) (s : State) : Outcome :=
  withUnit bay 8 (.next (let h := s.homeOf bay; if (s.bay h).role = 3 ∧ (s.bay h).goHome ∧ s.inLockstep h then passHome h s else s))

-- faults of a Bay (R278, R282) ---------------------------------------------------------------------------------------------------------------

/-- OUTPUT_PATH_FAULT of the Bay in control of a pair (R282): its contribution to the frame that leaves the outputs reads 0 from the first sample
that cannot be read, which the fault decides (log entry 10); the event is judged with the frame now summed. -/
def outputFault (b : Nat) (s : State) : State :=
  if (s.bay b).role = 0 ∨ !s.inControl b then reportEvent b 6 0 s
  else
    let n0 := (Config.free32 s.freeCtr).toNat % s.spf
    let s1 := (reportEvent b 6 0 s.fresh).onBay (s.homeOf b) fun x => { x with lateOut := satInc x.lateOut }
    if (s.bay b).mode != .render then silenceOut b n0 s1
    else busValues false (s.lineOf b) (s.closesBus b) (s.leavingStamp b)
      { s1 with bridge := { s1.bridge with leaving := s1.bridge.leaving.filter fun p => contribBay p.1 != b || decide (p.1 % 32 < n0) } }

/-- OUTPUT_PATH_FAULT (R282). -/
def execOutputPathFault (bay : Nat) (s : State) : Outcome := withUnit bay 8 (.next (outputFault bay s))

/-- RESIDUE_CHECK_FAILURE of an oscillator lane (0 to 7) or a CIC lane (8 to 11) of a Course (R278): an event of its Bay. -/
def execResidueCheckFailure (course lane : Nat) (s : State) : Outcome :=
  withUnit course 8 (withUnit lane 12 (.next (let b := s.courseBay course; reportEvent b 2 (16 * (course - (s.bay b).first.toNat) + lane) s)))

-- the self-test of a yielded or dropped Bay (R283, R461) ----------------------------------------------------------------------------------------

/-- Yields of home `h` within the last 60 s (R283). -/
def recentYields (s : State) (h : Nat) : List (BitVec 48) :=
  (s.bay h).yieldFrames.filter fun f => decide ((s.time.frameCount - f).toNat < famFrames s.time.rate 360000 330750)

/-- SELF_TEST_END (R283, R458, R461): a core that fails is retired; a test that passes lets the Bay rejoin, but a home that has yielded three times
in the last 60 s stays at ROLE 6; one that fails is run again. -/
def selfTestEnd (b : Nat) (pass : Bool) (failed : List Nat) (s : State) : State :=
  if !(s.bay b).selfTest then s
  else
    let s1 := (failed.filter fun k => (s.bayCores b).contains k).foldl (dueRetire 2) s
    if pass then s1.onBay b fun x => { x with selfTest := false, role := if x.role = 5 ∧ 3 ≤ (recentYields s1 b).length then 6 else x.role } else s1

/-- SELF_TEST_END (R461). -/
def execSelfTestEnd (bay : Nat) (pass : Bool) (failed : List Nat) (s : State) : Outcome := withUnit bay 8 (.next (selfTestEnd bay pass failed s))

/-- A boundary of the pair's timeline: a yielded home or a dropped mirror that meets the conditions starts to rejoin (R276, R283). -/
def tickRejoin (s : State) (b : Nat) : State :=
  let x := s.bay b
  let h := s.homeOf b
  if (x.role = 5 ∨ x.role = 7) ∧ !x.selfTest ∧ (s.bay h).returnHome ∧ !holdsBay s b ∧ !holdsBay s (s.partnerOf b) ∧ (recentYields s h).length < 3 then startReturn b s
  else s

end Sys2Proof.Machine
end

