-- ==== Sys2Proof/Machine/Boundary.lean ====
section
/-! DEFINITION. What a frame boundary does to the voices, tasks, Courses and buses of one timeline: the device's, or that of one RENDER
Bay (R18, R102, R105, R148, R236, R240, R243 to R246, R353, R365). -/

namespace Sys2Proof.Machine

-- whose boundary -----------------------------------------------------------------------------------------------------------------------

/-- The Bays of the device timeline (R28, R29). -/
def State.onDevice (s : State) (b : Nat) : Bool := !s.ownTimeline b

/-- The Bays on the timeline of RENDER Bay `c`: those that it acts for, itself and its mirror (R29, R284). -/
def State.onRender (s : State) (c b : Nat) : Bool := s.ownTimeline b && s.timelineBay b == s.timelineBay c

/-- The formed Bays that a predicate picks. -/
def State.baysWith (s : State) (mine : Nat → Bool) : List Nat := (List.range 8).filter fun b => s.formed b && mine b

/-- The cores of those Bays. -/
def State.coresWith (s : State) (mine : Nat → Bool) : List Nat := (s.baysWith mine).flatMap s.bayCores

-- voices (R102, R105, R148, R152, R158, R159) -----------------------------------------------------------------------------------------------

/-- The voices of a timeline that reach FREE at its boundary (R105). -/
def freeVoices (mine : Nat → Bool) (extra : Nat) (s : State) : State := freeEach (fun v => mine v.bay) extra s

/-- The voices that were cancelled at the boundary itself reach FREE at it (R105, R106). -/
def freeCancelled (mine : Nat → Bool) (extra : Nat) (s : State) : State :=
  freeEach (fun v => v.cause == 7 && !v.cancelLater && mine v.bay) extra s

/-- A device frame of quarantine has passed (R102). -/
def quarantineFrame (s : State) : State :=
  { s with voices := s.voices.mapVals fun _ v => if v.inUse && v.st == .free then { v with quarLeft := v.quarLeft - 1 } else v }

/-- Oscillator controls are latched for the block rendered in the frame that begins (R138, R147, R148). -/
def Osc.latch (o : Osc) : Osc :=
  { o with incStart := o.incEnd, incEnd := o.nextInc, levStart := o.levEnd, levEnd := o.nextLev, cfg := o.nextCfg, depth := o.nextDepth }

/-- A stamp lies before another. -/
def earlier (t u : Word) : Bool := decide (stampDist t u < 0)

/-- A voice at a boundary of its timeline; `t1` is the first stamp of the frame whose blocks are rendered now. -/
def boundaryVoice (s : State) (t1 : Word) (v : Voice) : Voice :=
  latchDetectors s { v with
    cutFrom := none, moveFrom := none, envsWas := [], mix := none, notesWas := v.notesWas.filter fun r => earlier (s.stampOf v.bay) r.until_,
    glideUs := if 0 < v.glideUs ∧ ((v.glideUs * (16 * baseRate s.time.rate) : Nat) : Int) ≤ stampDist t1 v.glideAt * 1000000 then 0 else v.glideUs,
    resyncs := v.resyncs.filter fun r => !earlier r.2 t1, quietTo := v.quietTo.filter fun r => earlier t1 r,
    oscs := v.oscs.map Osc.latch }

/-- The voices of a timeline at its boundary. -/
def boundaryVoices (mine : Nat → Bool) (s : State) : State :=
  { s with voices := s.voices.mapVals fun _ v =>
      if v.inUse && (v.st.counted || v.st == .scarf) && mine v.bay then boundaryVoice s (s.nextStamp v.bay) v else v }

/-- Changes of the frame that ended need not be remembered any more, on the timelines `mine` (R189). -/
def forgetWrites (mine : Nat → Bool) (s : State) : State :=
  { s with params := { s.params with recent := s.params.recent.filter fun r => !mine r.line } }

-- Courses, cores and Bays ---------------------------------------------------------------------------------------------------------------------

/-- The Courses and Bays of a timeline begin a frame: moves, hashes and waiting copies are those of the frame (R121, R153, R277); a Bay
without a partner in lockstep drops its events (R278). -/
def boundaryCourses (mine : Nat → Bool) (s : State) : State :=
  let s1 := ((s.baysWith mine).flatMap s.bayCourses).foldl (fun s c => s.setCourse c { s.course c with moves := 0, hash := 0, copies := [] }) s
  let s2 := (s.baysWith mine).foldl (fun s b => if s.inLockstep b then s else s.onBay b fun x => { x with events := [] }) s1
  let s3 := (s.coresWith mine).foldl (fun s k => loseReplaced k (s.setCore k { s.core k with preempts := 0, preemptReq := false })) s2
  { s3 with bridge := { s3.bridge with contrib := s3.bridge.contrib.filter fun p => !mine (contribBay p.1) } }

/-- The effect tasks of a failed core are placed again with state cleared (R110, R285): on the core of the Bay whose effect costs plus the
task's are lowest and within the budget; else the task is dropped and the drop reported to COND. -/
def replaceEffect (k : Nat) (s : State) (p : Nat × Task) : State :=
  let s0 := dropTask k p.1 s
  let b := s.courseBay (k / 8)
  match effectHome b p.2.cost.toNat (fun d => d != k) s0 with
  | none => hwPostNew 1 4 s0
  | some d => putEffect d (s0.freeCtx d) p.2 s0

/-- A core that a retirement marked, or that failed, is retired once no task is left on it (R122, R285). -/
def retireCore (s : State) (k : Nat) : State :=
  let s1 := if (s.core k).failed then ((s.core k).tasks.filter fun p => p.2.kind == 1).foldl (replaceEffect k) s else s
  let c := s1.core k
  if c.retire && c.tasks.isEmpty && !c.retired then traceBay 0x0F k (s1.courseBay (k / 8)) 0 0 0 (s1.setCore k { c with retired := true }) else s1

/-- Retirements at a boundary, cores ascending. -/
def retireCores (mine : Nat → Bool) (s : State) : State := (s.coresWith mine).foldl retireCore s

-- flags (R243 to R246) ---------------------------------------------------------------------------------------------------------------------------

/-- The flags of a task at its tick, at clk `now` (R243), and its instance begins. -/
def Task.tick (now : Nat) (t : Task) : Task :=
  { t with flags := (t.next &&& 6) ||| 1 ||| (t.flags &&& 8), next := 0, fresh := false, ran := false, skipped := false,
           raisedClk := now, passed := false }

/-- Every task of a timeline's Bays at the tick (R243). -/
def tickTasks (mine : Nat → Bool) (s : State) : State :=
  (s.coresWith mine).foldl (fun s k => s.setCore k { s.core k with tasks := (s.core k).tasks.mapVals fun _ t => t.tick s.time.clkCount }) s

/-- O, D and S that a task's MASK holds and that are missing; a pair goes by the Bay in control (R244, R245). -/
def State.missing (s : State) (k ctx : Nat) (t : Task) : Byte :=
  let from_ :=
    if s.inControl (s.courseBay (k / 8)) then t
    else match s.twin k with
      | some w => ((s.core w).tasks.find ctx).getD t
      | none => t
  from_.mask &&& 0x0E &&& ~~~from_.flags

/-- An instance is skipped and counted; the Bay in control counts for the pair (R244, R245, R262). -/
def skipInstance (k : Nat) (s : State) (p : Nat × Task) : State :=
  let m := s.missing k p.1 p.2
  if m = 0 then s
  else
    let s1 := s.setCore k { s.core k with tasks := (s.core k).tasks.put p.1 { p.2 with skipped := true, skips := satInc p.2.skips } }
    if s.inControl (s.courseBay (k / 8)) then
      traceBay 0x0A k (s.courseBay (k / 8)) p.2.slot.toNat (pack [(p.1, 0), (m.toNat, 8)]) 0
        { s1 with dsp := { s1.dsp with skipped := satInc s1.dsp.skipped } }
    else s1

/-- The skip decisions of a device tick, INSTANCE_SKIP (R244). -/
def skipInstances (mine : Nat → Bool) (s : State) : State :=
  (s.coresWith mine).foldl (fun s k => (s.core k).tasks.foldl (skipInstance k) s) s

/-- The bus pairs a voice declares for the frame that begins: those in force at its first sample, then those a released write names before
its last (R240). -/
def State.framePairs (s : State) (v : Voice) : List Nat :=
  let at_ := fun n => (List.range 5).map fun i => (s.endpointAt (s.lineOf v.bay) (partAddr v.part (2 + i)) (s.stampOf v.bay + BitVec.ofNat 32 (16 * n))).toNat / 2
  ((List.range (Nat.max 1 (s.spf - 1))).flatMap at_).eraseDups

/-- The output pairs of a timeline's voice tasks for the frame (R240). -/
def declareOuts (mine : Nat → Bool) (s : State) : State :=
  (s.coresWith mine).foldl (fun s k => s.setCore k { s.core k with tasks := (s.core k).tasks.mapVals fun _ t =>
    if t.kind = 0 then { t with outs := packOuts (s.framePairs (s.voice t.slot.toNat)) } else t }) s

/-- The instances of the frame that count as writers: those of the Bays in control that are not skipped (R246). -/
def State.writersOf (s : State) (mine : Nat → Bool) (q : Nat) : Nat :=
  (((s.coresWith mine).filter fun k => s.inControl (s.courseBay (k / 8))).map fun k =>
    ((s.core k).tasks.filter fun p => !p.2.fresh && !p.2.skipped && p.2.pairs.contains q).length).foldl (· + ·) 0

/-- The input bits of a task whose pairs have no writer left (R246). -/
def State.openInputs (s : State) (t : Task) : Byte :=
  (((List.range 4).filter fun i => t.ins.getLsbD (8 * i + 7)).map fun i => (t.ins.toNat / 2 ^ (8 * i)) % 128).foldl
    (fun f q => if s.bridge.writers.look q 0 = 0 then f ||| inputBits t q else f) 0

/-- Writer counts at a boundary, for the pairs `pairs`; a pair without a writer is complete at once (R246). -/
def countWriters (mine : Nat → Bool) (pairs : List Nat) (s : State) : State :=
  let w := pairs.foldl (fun (t : Tab Nat) q => let n := s.writersOf mine q; if n = 0 then t.del q else t.put q n) s.bridge.writers
  let s1 := { s with bridge := { s.bridge with writers := w } }
  (s1.coresWith mine).foldl (fun s k => s.setCore k { s.core k with tasks := (s.core k).tasks.mapVals fun _ t =>
    if t.kind = 1 then { t with flags := t.flags ||| s1.openInputs t } else t }) s1

-- inputs (R353, R365) -------------------------------------------------------------------------------------------------------------------------------

/-- A TDM slot or PDM input that is enabled and exists (R352); input port p is TDM unit 8 + p (R370). -/
def State.inputOn (s : State) (code : Nat) : Bool :=
  if 0x100 ≤ code ∧ code < 0x200 then
    let w := s.tdmOf (8 + (code - 0x100) / 32)
    bit w 31 && decide (code % 32 ≤ bits w 20 16)
  else decide (0x300 ≤ code) && decide (code < 0x308) && s.audio.pdm.getLsbD (code - 0x300)

/-- What an input gives for the sample taken (R358): a slot is taken MSB first, and a 16-bit slot is extended with zeros. -/
def State.slotIn (s : State) (code : Nat) (x : Word24) : Word24 :=
  if code < 0x200 ∧ slotBits (s.tdmOf (8 + (code - 0x100) / 32)) = 16 then x &&& 0xFFFF00 else x

/-- The samples of a listener stream's channel for the frame that begins; one that never came reads 0 (R365). -/
def listenerInputs (s : State) (t : Nat) : List (Nat × Word24) :=
  let x := s.stm t
  if x.enable && x.listener then
    (x.buf.filter fun b => decide (0 ≤ stampDist b.1 s.time.stamp) && decide (stampDist b.1 s.time.stamp < s.tpf) && decide (b.2.1 < x.channels)).map fun b =>
      (32 * (0x200 + 8 * t + b.2.1) + (stampDist b.1 s.time.stamp).toNat / 16, b.2.2)
  else []

/-- The samples of the TDM inputs since the last tick: of two for one sample period the later is taken, and where no TDM frame ended the previous
sample is repeated (R353, R360). -/
def tdmInputs (words : List (Nat × Word24)) (slips : List Slip) (s : State) : List (Nat × Word24) :=
  let given := (words.filter fun p => decide (p.1 / 32 < 0x200) && s.inputOn (p.1 / 32) && decide (p.1 % 32 < s.spf)).map fun p => (p.1, s.slotIn (p.1 / 32) p.2)
  let t0 : Tab Word24 := given.foldl (fun (t : Tab Word24) p => t.put p.1 p.2) []
  let codes := fun (x : Slip) => ((List.range 32).map fun k => 0x100 + 32 * x.port + k).filter s.inputOn
  let again := fun (t : Tab Word24) (x : Slip) => (codes x).foldl (fun (t : Tab Word24) c =>
    t.put (32 * c + x.n) (if x.n = 0 then s.bridge.inputs.look (32 * c + (s.spf - 1)) 0 else t.look (32 * c + (x.n - 1)) 0)) t
  (slips.filter fun x => x.input && !x.extra && s.slips x).foldl again t0

/-- Tap `i` of the PDM decimator: linear-phase about its group delay of 768 PDM clocks (R361; DESIGN CHOICE, log entry 10). -/
def pdmTap (rate : BitVec 3) (i : Nat) : Int := if i ≤ 1536 then Config.pdmTap rate (Nat.min i (1536 - i)) else 0

/-- A decimated sample from the bits of a pin, newest first: a ones-density d gives 2d - 1 (R361). -/
def pdmSample (rate : BitVec 3) (bs : List Bool) : Word24 :=
  (satQ23 (round46 (((bs.take 1537).zipIdx.map fun p => if p.1 then pdmTap rate p.2 else -pdmTap rate p.2).foldl (· + ·) 0))).1

/-- Bits of PDM pin `i` for the frame, oldest first, at the edge that its EDGE chooses (R361). -/
def State.pdmNew (s : State) (pdm : List (Nat × List (Bool × Bool))) (i : Nat) : List Bool :=
  ((pdm.find? fun p => p.1 == i).map Prod.snd).getD [] |>.map fun b => if s.audio.pdmEdge.getLsbD i then b.2 else b.1

/-- The samples of PDM pin `i` in the frame: 512 PDM clocks a frame (R15, R361). -/
def pdmInputs (pdm : List (Nat × List (Bool × Bool))) (s : State) (i : Nat) : List (Nat × Word24) :=
  (List.range s.spf).map fun n =>
    (32 * (0x300 + i) + n, pdmSample s.time.rate (((s.pdmNew pdm i).take ((n + 1) * (512 / s.spf))).reverse ++ s.audio.pdmBits.look i []))

/-- The PDM pins that run. -/
def State.pdmOn (s : State) : List Nat := (List.range 8).filter fun i => s.inputOn (0x300 + i)

/-- The bits that the decimators keep (R361). -/
def keepBits (pdm : List (Nat × List (Bool × Bool))) (s : State) : Tab (List Bool) :=
  s.pdmOn.map fun i => (i, ((s.pdmNew pdm i).reverse ++ s.audio.pdmBits.look i []).take 1537)

/-- The input samples of the frame that begins: those of the TDM and PDM inputs since the last tick, and the listener streams' (R353, R360, R361,
R365). -/
def takeInputs (inputs : Inputs) (slips : List Slip) (s : State) : State :=
  let all := tdmInputs inputs.words slips s ++ s.pdmOn.flatMap (pdmInputs inputs.pdm s) ++ (List.range 32).flatMap (listenerInputs s)
  let used := fun (x : Stm) => { x with buf := x.buf.filter fun b => decide (0 ≤ stampDist b.1 (s.time.stamp + BitVec.ofNat 32 s.tpf)) }
  { s with bridge := { s.bridge with inputs := all.foldl (fun (t : Tab Word24) p => t.put p.1 p.2) [] },
           audio := { s.audio with streams := s.audio.streams.mapVals fun _ x => used x, pdmBits := keepBits inputs.pdm s } }

/-- The inputs of one bus are added into its sums (R352, R353). -/
def addInput (s : State) (b : Nat) : State :=
  (List.range s.spf).foldl (fun s n =>
    let t := s.time.stamp + BitVec.ofNat 32 (16 * n)
    let code := (s.endpointAt 255 (busAddr b 2) t).toNat
    let x := s.bridge.inputs.look (32 * code + n) 0
    if code = 0 ∨ x = 0 then s else addBus b n (mulQ x ((s.smoothed 255 (busAddr b 3) t).setWidth 24)) s) s

/-- The buses that take an input in the frame: those whose INPUT is listed or was changed in it. -/
def State.inputBuses (s : State) : List Nat :=
  ((s.params.endpoints.filter fun p => p.1 / 65536 == 3 && p.1 % 256 == 2).map fun p => p.1 / 256 % 256)

/-- Input contributions of the frame, device buses cleared before (R351, R353). -/
def addInputs (s : State) : State := s.inputBuses.foldl addInput s

/-- The sums of the buses `mine` start the frame at 0 (R351). -/
def clearSums (mine : Nat → Bool) (s : State) : State := { s with bridge := { s.bridge with acc := s.bridge.acc.filter fun p => !mine (p.1 / 32) } }

-- the outputs at the boundary (R381, R383) ---------------------------------------------------------------------------------------------------------

/-- The code of sample `n` that enters a channel's interpolator: the value of its route's bus under the Scarf in of which `left` samples remain, rounded
to 16 bits as R149 states and saturated; 0 without a route (R118, R383). -/
def State.enterCode (s : State) (d left n : Nat) : BitVec 16 :=
  let v := s.outSample (0x300 + d) n
  let N := halfMs s.time.rate
  let w := if left ≤ n then v else crossfade (scarfGain (16 * N) (16 * (N - left + n))) 0 v
  sat16 ((w.toInt + 128) / 256)

/-- The frame that leaves enters a channel's interpolator, the one before goes to its past (R383, R384). -/
def State.feedFrame (s : State) (d left : Nat) (x : DacCh) : List (BitVec 16) × List (BitVec 16) :=
  let f := x.feed.getD ([], [])
  ((f.2.reverse ++ f.1).take 48, (List.range s.spf).map (s.enterCode d left))

/-- A device frame boundary for the channels (R381, R383): an AUDIO channel that was in SAFE before it becomes ACTIVE under its entry Scarf; one in
ACTIVE goes on. A ramp runs on over the interpolator's codes (R388). -/
def tickDac (s : State) : State :=
  (List.range 32).foldl (fun s d =>
    let x := s.dacCh d
    if x.state = dacRamp ∧ x.feed.isSome then s.setDacCh d { x with feed := some (s.feedFrame d x.scarfLeft x), scarfLeft := x.scarfLeft - s.spf }
    else if x.mode then s
    else if (x.state = dacSafe ∧ x.rested = true) ∨ x.state = dacActive then
      let left := if x.state = dacSafe then halfMs s.time.rate else x.scarfLeft
      s.setDacCh d { x with state := dacActive, code := 0, feed := some (s.feedFrame d left x), scarfLeft := left - s.spf }
    else s) s

-- crossfades of destinations (R356) ----------------------------------------------------------------------------------------------------------------------

/-- The Bay whose render ring a destination is, if it is one (R355). -/
def ringOf (dest : Nat) : Option Nat := if 0x400 ≤ dest ∧ dest < 0x500 then some ((dest - 0x400) / 32) else none

/-- The destination's crossfades run one frame on (R356). -/
def runFades (mine : Nat → Bool) (s : State) : State :=
  { s with bridge := { s.bridge with fades :=
      (s.bridge.fades.map fun p => if mine p.1 then (p.1, (p.2.1, p.2.2 - s.spf)) else p).filter fun p => p.2.2 != 0 } }

/-- A destination leaves with the device's frames: all but the rings of RENDER Bays. -/
def State.deviceDest (s : State) (d : Nat) : Bool := match ringOf d with | some b => !s.ownTimeline b | none => true

end Sys2Proof.Machine
end

