-- ==== Sys2Proof/Machine/Power.lean ====
section
/-! DEFINITION. Resets, the boot phases, NAP and SLEEP, and what an empty queue does (chapter 17). -/

namespace Sys2Proof.Machine

-- resets (R469, R470, R478) ---------------------------------------------------------------------------------------------------------

/-- What the margin ledger's newer copy gives a Course, at `hours` of powered time (R453): STALE after 90 days without a cycle (R451, R462). -/
def loadCourse (hours : Word) (x : LedgerCourse) : Course :=
  { steps := x.steps, nextSteps := x.steps, floor := x.floor, slackLife := x.slackLife, slackHour := x.slackHour.map fun p => (p.1, [(0, p.2)]), ringOsc := x.ringOsc,
    margins := x.margins, bankMargins := x.bankMargins, hours := x.hours, lastCycle := x.lastCycle,
    stale := decide (2160 ≤ hours.toNat - x.lastCycle.toNat) }

/-- The newer valid ledger copy: a write that a reset or a loss of power cuts short leaves the other one (R453; that a reset cuts it short is a DESIGN
CHOICE, log entry 136). -/
def Health.newerCopy (h : Health) : Bool := if h.ledgerOpen then !h.ledgerCopy else h.ledgerCopy

/-- What that copy holds. -/
def State.ledgerCopyNow (s : State) : Ledger := s.health.ledgers.look (b2n s.health.newerCopy) {}

/-- Load the newer ledger copy of `old` (R453, R459, R460): steps, floors, retirements, margins and marks. -/
def loadLedger (old : State) (s : State) : State :=
  let l := old.ledgerCopyNow
  let s1 := { s with
    courses := l.courses.map fun p => (p.1, loadCourse l.poweredHours p.2),
    health := { s.health with ledgers := old.health.ledgers, ledgerCopy := old.health.newerCopy, ledgerSeq := old.health.ledgerSeq,
                              setpoint := l.setpoint, wanted := l.setpoint, poweredHours := l.poweredHours } }
  let s2 := l.retired.foldl (fun s p => s.setCore p.1 { s.core p.1 with retired := true, retireCause := p.2 }) s1
  let s3 := l.degraded.foldl (fun s d => s.setDacCh d { s.dacCh d with degraded := true }) s2
  l.weak.foldl (fun s n => s.setBank n { s.bank n with weak := true }) s3

/-- What the Vault keeps through a reset: fuses, and the battery domain (R422, R424, R431, R434, R470). -/
def keptVault (v : Vault) : Vault :=
  { life := v.life, level := v.level, keylock := v.keylock, vbatOk := v.vbatOk, drk := v.drk, drkOff := v.drkOff, ik := v.ik, serial := v.serial,
    grade := v.grade, mks := v.mks, levels := v.levels, tinEn := v.tinEn, active := v.active, raised := v.raised, erases := v.erases, log := v.log,
    refuseAll := v.keylock, slowAcc := v.slowAcc, slowTicks := v.slowTicks }

/-- The state right after a reset begins (R470): reset values, but for what a reset keeps. -/
def resetState (cold : Bool) (cause : BitVec 5) (s : State) : State :=
  let p := s.power
  let base := { State.reset with
    mbx := { State.reset.mbx with journal := s.mbx.journal, nextJ := s.mbx.nextJ, switches := if cold then 0 else s.mbx.switches },
    vault := keptVault s.vault,
    power := { host := if cold then 0 else p.host, resets := if cold then 0 else satInc p.resets,
               cause := cause, holdPor := p.holdPor, holdWrst := p.holdWrst, bootSlot := p.bootSlot, headerSeq := p.headerSeq,
               fwVersion := p.fwVersion, altVersion := p.altVersion, fusesRead := p.fusesRead,
               flash := { headers := p.flash.headers, slots := p.flash.slots, copy := p.flash.copy } },
    freeCtr := s.freeCtr, pending := s.pending }
  loadLedger s base

/-- A reset source acts (R469, R478): CAUSE gathers the sources of one reset while one of them holds it. -/
def resetBy (cold : Bool) (source : BitVec 5) (s : State) : State :=
  if s.inReset && (!cold || s.power.holdPor) then { s with power := { s.power with cause := s.power.cause ||| source } }
  else resetState cold (if s.inReset then s.power.cause ||| source else source) s

/-- Hold or release reset by POR_N or the power-on monitor. -/
def holdPor (b : Bool) (s : State) : State := { s with power := { s.power with holdPor := b } }

/-- Hold or release reset by WRST_N. -/
def holdWrst (b : Bool) (s : State) : State := { s with power := { s.power with holdWrst := b } }

/-- POWER_ON_RESET (R467, R468): held until POR_N rises. -/
def execPowerOnReset (s : State) : Outcome := .next (holdPor true (resetBy true 0x10 s))

/-- POR_N (R468, R469). -/
def execPorN (low : Bool) (s : State) : Outcome := .next (if low then holdPor true (resetBy true 0x08 s) else holdPor false s)

/-- WRST_N (R469). -/
def execWrstN (low : Bool) (s : State) : Outcome := .next (if low then holdWrst true (resetBy false 0x04 s) else holdWrst false s)

/-- DEVICE_WATCHDOG (R469, R481): it stops with the frame tick. -/
def execDeviceWatchdog (s : State) : Outcome := .next (if s.time.ticking && s.power.state != 2 then resetBy false 0x01 s else s)

/-- PCIE_HOT_RESET (R470): the link retrains; the firmware, the configuration and the mailboxes go on. -/
def execPcieHotReset (s : State) : Outcome := .next s

/-- SYS.RESET's reset begins (R484). -/
def sysResetNow (s : State) : State := resetBy false 0x02 s

/-- SYS.RESET (R484). -/
def cardSysReset : Card where
  opcode := 0x002
  len := fun e => e.payload.length == 1
  range := fun e _ => e.pw 0 == 0x52535400
  post := fun _ s => need (!s.mbx.running.any fun x => decide (x.finalAt ≤ x.done)) eBusy
  run := fun e s =>
    let s1 := finishNow 0x002 e [] s
    { s1 with power := { s1.power with resetDue := true, resetAt := s1.time.deviceTime + 1000000, resetTicks := 0 } }

/-- The reset of a SYS.RESET begins 1 ms after its answer: by Device Time, or at the sixth frame tick after it when the ticks
come first (R484; log entry 40). -/
def dueReset (s : State) : State := if s.power.resetDue && decide (s.power.resetAt.toNat ≤ s.time.deviceTime.toNat) then sysResetNow s else s

/-- One device frame tick of that delay. -/
def tickReset (s : State) : State :=
  if s.power.resetDue then
    if 5 ≤ s.power.resetTicks then sysResetNow s else { s with power := { s.power with resetTicks := s.power.resetTicks + 1 } }
  else s

/-- The host's strobe has ended, and BSY_N goes high (R337): the model ends a strobe with the access or with the clk after it (DESIGN CHOICE, log
entry 136). -/
def strobeEnd (s : State) : State := { s with mem := { s.mem with bsyN := true } }

/-- What an empty queue does: one clk passes (DESIGN CHOICE, log entry 1). -/
def idle (s : State) : State := dueReset (strobeEnd (clkPass s))

-- boot (R471 to R477) --------------------------------------------------------------------------------------------------------------------

/-- The boot stops in PHASE 15 with an error (R475). -/
def bootHalt (err : Byte) (s : State) : State := { s with power := { s.power with phase := 15, error := err } }

/-- The boot reaches a phase. -/
def bootTo (n : BitVec 4) (s : State) : State := { s with power := { s.power with phase := n } }

/-- The reset that started this boot was cold. -/
def State.coldBoot (s : State) : Bool := s.power.cause.getLsbD 4 || s.power.cause.getLsbD 3

/-- The fuses are read; those that LIFE.ADVANCE blows at the move to FIELD hold from then on (R422, R431, R436). Before FIELD the assignment of the
tamper sources is the battery domain's. -/
def readFuses (f : Fuses) (v : Vault) : Vault :=
  { v with life := f.life, ik := if f.life = 0 then 0 else f.ik, drk := f.drk, grade := f.grade, serial := f.serial, drkOff := decide (f.life = 3),
           levels := if f.life.toNat < 2 then v.levels else f.levels, tinEn := if f.life.toNat < 2 then v.tinEn else f.tinEn }

/-- Phase 0 completes (R471, R475): straps after a cold reset; the fuses, which never change but by LIFE.ADVANCE, once. -/
def bootStraps (host : BitVec 2) (f : Fuses) (s : State) : State :=
  let s1 := if s.coldBoot then { s with power := { s.power with host := host } } else s
  let s2 := if s1.power.fusesRead then s1 else { s1 with vault := readFuses f s1.vault, power := { s1.power with fusesRead := true } }
  if s2.power.host = 3 then bootHalt 0x01 s2 else bootTo 1 s2

/-- A boot header copy is valid (R474): its magic and its tag. -/
def headerValid (ik : BitVec 256) (h : List Word) : Bool :=
  decide (h.length = 16) && bits (h.getD 0 0) 31 16 == 0x4248 && imageTagOk ik h

/-- Which of the two copies is in force (R474): the valid one, of two the one with the greater SEQ by serial arithmetic; true is copy 1. -/
def headerPick (ik : BitVec 256) (a b : List Word) : Option Bool :=
  if headerValid ik a && headerValid ik b then some (decide (0 < (b.getD 1 0 - a.getD 1 0).toInt))
  else if headerValid ik a then some false
  else if headerValid ik b then some true
  else none

/-- The header in force. -/
def headerOf (ik : BitVec 256) (a b : List Word) : Option (List Word) := (headerPick ik a b).map fun c => if c then b else a

/-- The boot flash with what a boot finds in it (R473): what the device has read or written before stands; the rest is what was placed there. -/
def Flash.found (f : Flash) (copy0 copy1 : List Word) : Flash :=
  { f with headers := (f.headers.put 0 (f.headers.look 0 copy0)).put 1 (f.headers.look 1 copy1) }

/-- The accepted header: from then on the ROM reads in 8D-8D-8D at its clock and dummy cycles (R473, R474). -/
def Flash.accept (f : Flash) (c : Bool) (w : Word) : Flash :=
  { f with copy := c, octal := true, clock := BitVec.ofNat 8 (bits w 23 16), dummy := BitVec.ofNat 8 (bits w 7 0) }

/-- Phase 2 completes (R474, R476): without a valid copy the ROM takes slot 0, goes on at 25 MHz, and takes 1 GB on channel 0 alone. -/
def bootHeader (copy0 copy1 : List Word) (s : State) : State :=
  let f := s.power.flash.found copy0 copy1
  match headerPick s.vault.ik (f.headers.look 0 []) (f.headers.look 1 []) with
  | some c =>
    let ws := f.headers.look (b2n c) []
    let slot := bit (ws.getD 0 0) 0
    bootTo 3 { s with power := { s.power with flash := f.accept c (ws.getD 2 0), slot := slot, bootSlot := slot, headerSeq := ws.getD 1 0 },
                      mem := { s.mem with ddr := (ws.getD 3 0).setWidth 8 } }
  | none =>
    bootTo 3 { s with power := { s.power with flash := f, slot := false, bootSlot := false, fallback := true }, mem := { s.mem with ddr := 0x01 } }

/-- Phase 3 (R476): the other slot, or recovery; Conductor B in A's place. The flash holds an image that FW.UPDATE has written (R292, R473). -/
def bootImage (chosen0 other0 : List Word) (aOk bOk : Bool) (s : State) : State :=
  let chosen := s.power.flash.slots.look (b2n s.power.slot) chosen0
  let other := s.power.flash.slots.look (b2n !s.power.slot) other0
  let s1 := { s with mbx := { s.mbx with activeB := !aOk } }
  if !aOk && !bOk then bootHalt 0x06 s1
  else if imageTagOk s.vault.ik chosen then bootTo 4 s1
  else if imageTagOk s.vault.ik other then bootTo 4 { s1 with power := { s1.power with slot := !s1.power.slot, fallback := true } }
  else { s1 with power := { s1.power with recovery := true, error := 0x03 } }

/-- The journal is restored from the Vault (R90): what had not ended is rolled back, its count of steps completed left as recorded (DESIGN
CHOICE, log entry 128); each channel's last journalled command is known again (R73). Without VBAT_VAULT the journal is empty. -/
def restoreJournal (vbat : Bool) (s : State) : State :=
  if vbat then
    let ended := fun (x : JEntry) =>
      if x.unfinished then { x with st := .rolledBack, status := pRolledBack, owed := false, frame := s.time.frameCount.setWidth 32, epoch := s.mbx.epoch }
      else { x with owed := false }
    let s1 := s.mbx.journal.foldr (fun x t => t.setChan x.ch { t.chan x.ch with lastJ := x.idx }) s
    { s1 with mbx := { s1.mbx with journal := s.mbx.journal.map ended } }
  else { s with mbx := { s.mbx with journal := [], nextJ := 1 } }

/-- The battery domain at start-up (R424, R431, R435): found without VBAT_VAULT it has lost the maker keys, the alarm state and,
before FIELD, the assignment; source 5 is then raised. -/
def restoreBattery (vbat : Bool) (s : State) : State :=
  if vbat then { s with vault := { s.vault with vbatOk := true } }
  else
    let v := s.vault
    let s1 := { s with vault := { v with mks := [], log := [], level := 0, keylock := false, refuseAll := false, raised := 0, active := 0,
                                         levels := if v.life.toNat < 2 then 0x555 else v.levels, tinEn := if v.life.toNat < 2 then 0 else v.tinEn } }
    raiseSources 0x20 [] true s1.time.deviceTime s1

/-- Phase 4 completes (R475, R479): the channels of external memory run, released from their resets. -/
def bootTrained (s : State) : State := bootTo 5 { s with power := { s.power with ddrRstN := true } }

/-- The firmware kernel in a core's local memories: program words 0x0000 to 0x00FF and the Y kernel area (R14, R206). -/
def putKernel (k : Nat) (c : VCore) : VCore :=
  { c with prog := (List.range 0x100).foldl (fun m i => Mem.write m i (Config.kernelProgram k i)) c.prog,
           y := (List.range 0x800).foldl (fun m i => Mem.write m (0x3000 + i) (Config.kernelData k i)) c.y }

/-- The Conductor writes the kernel of every core, at start-up only (R14, R206). -/
def loadKernels (s : State) : State := (List.range 64).foldl (fun s k => s.setCore k (putKernel k (s.core k))) s

/-- The firmware applies the ledger's setpoint over PMBus once it has read VOUT_MODE (R454, R475). -/
def applySetpoint (vout : Byte) (s : State) : State :=
  State.send { s with health := { s.health with voutMode := vout } } .vout [(Config.voutCode vout s.health.setpoint).toNat]

/-- Phase 5 completes (R14, R454, R472, R475, R498): the supply, the journal, the kernel of every voice core, ETH_PHYRST_N released, and the frame tick. -/
def bootFirmware (vbat : Bool) (vout : Byte) (s : State) : State :=
  let s1 := loadKernels (restoreBattery vbat (restoreJournal vbat (applySetpoint vout s)))
  bootTo 6 { s1 with power := { s1.power with phyRstN := true }, time := { s1.time with ticking := true, tickDt := s1.time.deviceTime, clk := 0 } }

/-- Phase 6 (R194, R476): a failed core is retired until the next reset; the standard banks are built. -/
def bootSelfTest (failed : List Nat) (s : State) : State :=
  let s1 := (failed.filter fun k => decide (k < 64)).foldl (fun s k => s.setCore k { s.core k with failed := true, retired := true }) s
  let s2 := buildBanks s1
  { s2 with power := { s2.power with tested := true } }

/-- An event of the boot phase under way (R475); one of another phase, or in reset, is none. -/
def bootEvent (ev : BootEvent) (s : State) : State :=
  if s.inReset then s
  else match s.power.phase.toNat, ev with
  | 0, .straps host f => bootStraps host f s
  | 1, .clocks => bootTo 2 s
  | 2, .header a b => bootHeader a b s
  | 2, .noFlash => bootHalt 0x02 s
  | 3, .image c o a b => if s.power.recovery then s else bootImage c o a b s
  | 3, .noFlash => if s.power.recovery then s else bootHalt 0x02 s
  | 4, .trained ok => if ok then bootTrained s else bootHalt 0x05 s
  | 5, .firmware vbat vout => bootFirmware vbat vout s
  | 6, .selfTest failed => bootSelfTest failed s
  | _, _ => s

/-- BOOT_PHASE (R475). -/
def execBootPhase (ev : BootEvent) (s : State) : Outcome := .next (bootEvent ev s)

/-- Instructions of the JTAG port (R500): those that FIELD and RETURN leave, and any other. -/
inductive JtagInstr where
  | bypass | idcode | samplePreload | extest | other (code : Nat)
deriving DecidableEq, Repr

/-- What the JTAG port offers (R500): in FIELD and RETURN only BYPASS, IDCODE, SAMPLE/PRELOAD and EXTEST. What another instruction does in an
earlier life cycle is not stated, and no command of the table reaches the port. -/
def State.jtagOffers (s : State) (i : JtagInstr) : Bool :=
  match i with
  | .other _ => decide (s.vault.life.toNat < 2)
  | _ => true

/-- SYS_BOOT (R478). -/
def State.sysBoot (s : State) : Word :=
  pack [(s.power.phase.toNat, 28), (s.power.host.toNat, 26), (b2n s.power.slot, 25), (b2n s.power.fallback, 24), (b2n s.power.recovery, 23),
        (s.power.error.toNat, 8)]

/-- SYS_RSTC (R478). -/
def State.sysRstc (s : State) : Word := pack [(s.power.resets.toNat, 16), (s.power.cause.toNat, 0)]

/-- SYS_BOOT_CTL (R476, R478): in recovery, GO checks the host's image and runs it from phase 4 on. -/
def bootCtl (v : Word) (s : State) : State :=
  let n := bits v 16 0
  if s.inReset || !s.power.recovery || !bit v 31 then s
  else if decide (1 ≤ n) && decide (n ≤ 114688) && imageTagOk s.vault.ik (Mem.words s.mem.win 0x10000 n) then
    bootTo 4 { s with power := { s.power with recovery := false } }
  else { s with power := { s.power with error := 0x04 } }

/-- SYS_BOOT_CTL (R478). -/
def execSysBootCtl (v : Word) (s : State) : Outcome := .next (bootCtl v s)

-- power states (R480 to R485) --------------------------------------------------------------------------------------------------------------

/-- The entry conditions of SLEEP (R480). -/
def State.maySleep (s : State) : Bool :=
  s.allLoad && ((List.range 32).all fun d => (s.dacCh d).off) && s.mbx.running.isEmpty

/-- The state a SYS.POWER asks for. -/
def powerWanted (e : Entry) : Nat := bits (e.pw 0) 1 0

/-- SYS.POWER (R480, R485). -/
def cardSysPower : Card where
  opcode := 0x003
  len := fun e => e.payload.length == 1
  range := fun e _ => bits (e.pw 0) 31 2 == 0 && powerWanted e != 3
  post := fun e s =>
    firstFail [ need (powerWanted e != s.power.state.toNat) eState,
                need (powerWanted e != 1 || s.allLoad) eState,
                need (powerWanted e != 2 || s.maySleep) eState ]
  run := fun e s =>
    let s1 := finishNow 0x003 e [s.sysPwr] s
    if powerWanted e = 2 then { s1 with power := { s1.power with sleepDue := true } }
    else { s1 with power := { s1.power with state := BitVec.ofNat 2 (powerWanted e) } }

/-- Entry to SLEEP at a frame boundary (R26, R415, R481): the ledger, the tick, the roll-back; a running swap Scarf ends and the
UARTs stop. -/
def enterSleep (s : State) : State :=
  let s1 := writeLedger s
  let s2 := { s1 with time := { s1.time with ticking := false }, health := { s1.health with ledgerOpen := false } }
  let s3 := (rollAll s2).1
  { s3 with params := endScarfs s3.params,
            uarts := s3.uarts.mapVals fun _ u => u.sleep,
            power := { s3.power with state := 2, sleepDue := false } }

/-- A wake (R415, R481 to R483): Device Time has advanced by `n` slow-clock periods, the timers make up their time, transmitters go on with
their FIFOs, and the frame tick restarts at the next multiple of 0x200. -/
def wakeUp (sources : Byte) (n : Nat) (s0 : State) : State :=
  let total := s0.time.dtFrac + n * Config.slowPeriod * 10 ^ 6
  let dt := s0.time.deviceTime + BitVec.ofNat 64 (total / 10 ^ 12)
  let s := tickPhase { s0 with time := { s0.time with deviceTime := dt } }
  let st := alignStamp s.time.stamp
  wakeTimers n
    { s with time := { s.time with deviceTime := dt, dtFrac := total % 10 ^ 12, stamp := st, reach := st, stampHold := true, ticking := true,
                                   tickDt := dt, clk := 0 },
             uarts := s.uarts.mapVals fun _ u => u.startTx s.time.clkCount,
             mbx := { s.mbx with missed := 0, silentFrames := 0 },
             vault := { s.vault with slowTicks := s.vault.slowTicks + n },
             power := { s.power with state := 0, wakeSrc := sources &&& 0x0F, wakeHold := true } }

/-- WAKE (R482): in SLEEP alone. -/
def execWake (sources : Byte) (n : Nat) (s : State) : Outcome :=
  .next (if s.power.state = 2 && !s.inReset then wakeUp sources n s else s)

end Sys2Proof.Machine
end

