-- ==== Sys2Proof/Machine/Serve.lean ====
section
/-! DEFINITION. The Conductor serves the mailbox channels (R58, R62, R70 to R72): entries are read from the command rings and each is taken by
its card. -/

namespace Sys2Proof.Machine

/-- Every command card of the mailboxes (R9). -/
def cards : List Card :=
  [cardRouteSet, cardTdmSet, cardAudioClockSet, cardStreamSet, cardRenderSet, cardAudioStatus, cardBayForm, cardBayMode,
   cardBayStatus, cardBayRecover, cardCoefLoad, cardCoefSwap, cardCoefStatus, cardVprogLoad, cardCondSwitch, cardFwUpdate,
   cardDacSet, cardDacWrite, cardDacStatus, cardDispatchSet, cardDispatchStatus, cardTraceSet, cardTraceStatus, cardHealthStatus,
   cardHealthLedger, cardHealthSet, cardBankGive, cardBankStatus, cardHwRegionSet, cardContentPin, cardParamGet, cardParamSet,
   cardEnvWrite, cardSysReset, cardSysPower, cardSessionList, cardSessionQuery, cardSessionSet, cardSessionClose, cardEventSend,
   cardSysNop, cardConfigEpoch, cardJournalQuery, cardConfigCommit, cardConfigDiscard, cardTimerSet, cardTimerRead, cardTimeGet,
   cardTimeClockSelect, cardTimeDomainSet, cardTimeRateSet, cardUartSend, cardUartSet, cardUartRecv, cardPkgWrite, cardPkgCommit,
   cardPkgDrop, cardVaultStatus, cardKeyWrap, cardKeyLoad, cardTamperSet, cardTamperClear, cardLifeAdvance, cardVoiceStart,
   cardVoiceRelease, cardVoiceEnd, cardVoiceQuery, cardPartCounters, cardPlaceLoad, cardDecimSet, cardDecimStatus]

/-- The card of an opcode, if it is assigned (R70). -/
def cardOf (op : Nat) : Option Card := cards.find? fun c => c.opcode == op

/-- The Conductor takes the entry at the consumer index of a channel (R70, R71). -/
def takeNext (ch : Nat) (s0 : State) : State :=
  let s := { s0 with mbx := { s0.mbx with lastServed := ch } }
  let r := readEntry ch s
  if !r.2.2 then desync r.2.1 s
  else match cardOf r.1 with
    | some c => takeEntry c r.2.1 s
    | none => unassigned r.1 r.2.1 s

/-- A channel's command ring holds words (R58). -/
def State.holdsCommand (s : State) (ch : Nat) : Bool := (s.chan ch).cmdPi != (s.chan ch).cmdCi

/-- The next channel to serve among those that `want` picks: in rotation from the one after the last (R72). -/
def nextChan (want : State → Nat → Bool) (s : State) : Option Nat :=
  ((List.range 16).map fun k => (s.mbx.lastServed + 1 + k) % 16).find? fun ch => s.holdsCommand ch && want s ch

/-- Serve the channels that `want` picks while the Conductor serves; at most `n` entries. -/
def drain (want : State → Nat → Bool) : Nat → State → State
  | 0, s => s
  | n + 1, s =>
    if s.serving then
      match nextChan want s with
      | some ch => drain want n (takeNext ch s)
      | none => s
    else s

/-- The most entries that the sixteen rings can hold: two words each at the least (R58, R66). -/
def mostEntries : Nat := 16384

/-- The Conductor scans every channel (R62, R88). -/
def serveAll (s : State) : State := drain (fun _ _ => true) mostEntries s

/-- The Conductor serves the channels whose doorbell is raised (R62). -/
def serveRung (s : State) : State := drain (fun s ch => (s.chan ch).doorbell) mostEntries s

/-- Ring the doorbells of a mask (R62). -/
def ringBells (v : Word) (s : State) : State :=
  ((List.range 16).filter fun n => bit v n).foldl (fun s n => s.setChan n { s.chan n with doorbell := true }) s

/-- HW_DB_CMD (R62, R72): rung channels are served, while the device has a host port (R22). -/
def execHwDbCmd (v : Word) (s : State) : Outcome := .next (if s.hostOff then s else serveRung (ringBells v s))

/-- Channel resets requested by a mask (R65). -/
def requestResets (v : Word) (s : State) : State :=
  ((List.range 16).filter fun n => bit v n).foldl (fun s n => s.setChan n { s.chan n with resetReq := true }) s

/-- HW_MBX_RESET (R65): the channels reset at the next device frame boundary. -/
def execHwMbxReset (v : Word) (s : State) : Outcome := .next (if s.hostOff then s else requestResets v s)

/-- CHANNEL_RESET of one channel at its boundary (R65): what is journalled goes on, and owes the channel no response. It is a closing cause of
the channel's session (R300, R312). -/
def resetChan (s : State) (n : Nat) : State :=
  let c := s.chan n
  let s1 := s.setChan n { c with cmdPi := 0, cmdCi := 0, rspPi := 0, rspCi := 0, seqFree := true, rspFull := false, desync := false, held := [],
                                 resetReq := false, doorbell := false }
  let s2 := match mailboxSession n s1 with | some i => markClosing i none s1 | none => s1
  setDbRsp n { s2 with mbx := { s2.mbx with journal := s2.mbx.journal.map fun x => if x.ch = n then { x with owed := false } else x } }

/-- The channel resets of a device frame boundary (R65). -/
def resetChans (s : State) : State := ((List.range 16).filter fun n => (s.chan n).resetReq).foldl resetChan s

/-- The device advertises its Network MIDI 2.0 service `_midi2._udp` by mDNS on each Ethernet port, with UDP port 5504 and its UMP Endpoint
Name (R300). That the advertisement is sent once, at READY, is the model's choice (DESIGN CHOICE, log entry 135). -/
def advertise (s : State) : State :=
  (List.range 2).foldl (fun s p => s.send .mdnsAdvertise ([p, 5504] ++ s.endpointName)) s

/-- READY (R475): phase 6 completes, the Conductor serves the mailboxes, and the network sessions can be discovered (R300). -/
def becomeReady (s : State) : State :=
  if s.power.phase = 6 ∧ s.power.tested ∧ !s.inReset then serveAll (advertise { s with power := { s.power with phase := 7 } }) else s

/-- READY (R475). -/
def execReady (s : State) : Outcome := .next (becomeReady s)

/-- CONDUCTOR_FAILOVER (R287, R88): the standby takes over, and each channel is resumed from its consumer index. -/
def execConductorFailover (s : State) : Outcome :=
  .next (if s.mbx.fenced ∧ s.mbx.standbyReady ∧ !s.inReset then serveAll (failover s) else s)

/-- RESTART_ALONE_DONE (R289, R88). -/
def execRestartAloneDone (s : State) : Outcome :=
  .next (if s.mbx.fenced ∧ !s.mbx.standbyReady ∧ !s.inReset then serveAll (restartDone s) else s)

end Sys2Proof.Machine
end

