-- ==== Sys2Proof/Machine/Streams.lean ====
section
/-! DEFINITION. The stream buffers of the voices: what they hold, their refills, and the sample-data flag (R242, R340, R342, R344,
R433). -/

namespace Sys2Proof.Machine

-- what the buffers hold (R138, R342, R344) -------------------------------------------------------------------------------------------------

/-- Indexes about `i` in a reader's direction: from the point behind it on, `n` source samples and the four points of an interpolation (R141). -/
def readSpan (back : Bool) (n : Nat) (i : Int) : List Int := (List.range (n + 4)).map fun (d : Nat) => if back then i + 2 - d else i - 1 + d

/-- An oscillator with a stream buffer, as the service cores see its reader. -/
structure Reader where
  slot : Nat
  osc : Nat
  obj : Nat
  header : List Word
  buf : StreamBuf
  /-- present index, direction, and whether indexes below the loop start wrap -/
  index : Int
  back : Bool
  low : Bool

/-- The reader of oscillator `k` of voice `i`: its direction is that of the increment it goes to (DESIGN CHOICE, log entry 139). -/
def State.reader (s : State) (i k : Nat) (b : StreamBuf) : Reader :=
  let v := s.voice i
  let o := s.oscObject v k
  let h := (s.contentOf o).header
  let x := v.oscs.getD k {}
  { slot := i, osc := k, obj := o, header := h, buf := b, index := readerPos x.phase / 65536, back := decide (x.nextInc.toInt < 0),
    low := loops h && reachedLoop h x.looped x.phase }

/-- The streams of a voice. -/
def State.streamsOf (s : State) (i : Nat) : List Reader := (s.voice i).bufs.map fun q => s.reader i q.1 q.2

/-- Source samples beyond the head that the reader meets within `n` of its index, with the indexes that lead to them (R342, R343). -/
def Reader.meets (x : Reader) (n : Nat) : List (Int × Nat) :=
  (readSpan x.back n x.index).filterMap fun v =>
    match sourceIndex x.header x.low (loops x.header) v with
    | some j => if 2048 ≤ j then some (v, j) else none
    | none => none

/-- The buffer holds every source sample that the next two oscillator blocks can read: 128 a block at the limit of R143 (R344). -/
def Reader.ready (x : Reader) : Bool := (x.meets 256).all fun p => (x.buf.place x.header false p.2).isSome

/-- A half to fill next: the samples that the reader meets within 512 and that no half has or awaits go into one that the next two blocks do not
need (R344; how far ahead is a DESIGN CHOICE, log entry 139). -/
def Reader.next (x : Reader) : Option (Nat × Half) :=
  match (x.meets 512).find? fun p => (x.buf.place x.header true p.2).isNone with
  | none => none
  | some p =>
    let idle := fun (n : Nat) => match x.buf.halves.find n with | none => true | some y => (x.meets 256).all fun q => (y.offset x.header q.2).isNone
    ([0, 1].find? idle).map fun n => (n, { first := if x.back then p.1 - 511 else p.1, low := x.low })

-- refills (R340, R344) ----------------------------------------------------------------------------------------------------------------------

/-- Change half `n` of a stream buffer. -/
def putHalf (i k n : Nat) (y : Option Half) (s : State) : State :=
  let v := s.voice i
  let b := v.bufs.look k {}
  s.setVoice i { v with bufs := v.bufs.put k { b with halves := match y with | some h => b.halves.put n h | none => b.halves.del n } }

/-- A service core asks for a half (R340, R344); of a protected sample also for its decryption (R428). -/
def askHalf (s : State) (x : Reader) : State :=
  match x.next with
  | none => s
  | some (n, y) =>
    let key := some (x.slot, x.osc, n)
    let s1 := { s with mem := { s.mem with requests := s.mem.requests.filter fun r => r.refill != key } }
    let b := (s.voice x.slot).bay
    enterRequest { cls := MemUse.refill.classIn (s.bay (s.acting b)).mode, bay := b, stream := true, object := x.obj, refill := key }
      (postCrypt (s.contentOf x.obj).prot (putHalf x.slot x.osc n (some y) s1))

/-- The halves that the streams of a voice ask for, two of each at most. -/
def askVoice (s : State) (i : Nat) : State :=
  let go := fun (s : State) => (s.streamsOf i).foldl askHalf s
  if (s.voice i).bufs = [] then s else go (go s)

/-- The refills of every placed voice of the Bays `mine`. -/
def askRefills (mine : Nat → Bool) (s : State) : State := ((s.voicesWith fun v => mine v.bay).map Prod.fst).foldl askVoice s

/-- Word `d` of a half: the source sample at its index, in the clear (R341, R342, R428). -/
def State.halfWord (s : State) (o : Nat) (y : Half) (d : Nat) : Word :=
  let h := (s.contentOf o).header
  match sourceIndex h y.low (loops h) (y.first + d) with | some j => s.objWord o (7 + j) | none => 0

/-- A refill is complete: the 512 words lie in the half, in a bank that is protected with it (R331, R344). One that the Vault refuses fills nothing
(R433). -/
def fillHalf (s : State) (i k n : Nat) : State :=
  let v := s.voice i
  let b := v.bufs.look k {}
  let o := s.oscObject v k
  let c := s.contentOf o
  match b.halves.find n with
  | none => s
  | some y =>
    if c.prot && s.noDecrypt (v.guard && v.st == .scarf) then putHalf i k n none s
    else
      putHalf i k n (some { y with filled := true })
        (protectBanks c.prot b.at_ (putRun b.at_ (512 * n) ((List.range 512).map (s.halfWord o y)) s))

/-- Refills that have been served by a device tick: every one of class 1, which takes at most 20 us, and of the others those that nothing else stands
before (R340; the moment is a DESIGN CHOICE, log entry 139). -/
def State.refillsDone (s : State) : List MemReq :=
  let rs := s.mem.requests
  (rs.filter fun r => r.refill.isSome && r.cls == 1) ++ (rs.filter fun r => r.cls != 1).takeWhile fun r => r.refill.isSome

/-- Complete them. -/
def completeRefills (s : State) : State :=
  let done := s.refillsDone
  done.foldl (fun s r => match r.refill with | some (i, k, n) => fillHalf s i k n | none => s)
    { s with mem := { s.mem with requests := s.mem.requests.filter fun r => !done.contains r } }

-- the sample-data flag (R242, R344) -----------------------------------------------------------------------------------------------------------

/-- The buffers of a voice hold what its next two blocks can read. -/
def State.streamsReady (s : State) (i : Nat) : Bool := (s.streamsOf i).all Reader.ready

/-- S of a task whose MASK holds it (R242, R344). -/
def State.markTask (s : State) (t : Task) : Task :=
  if t.kind = 0 ∧ t.mask.getLsbD 3 = true then { t with flags := setBit t.flags 3 (s.streamsReady t.slot.toNat) } else t

/-- The service cores set and clear S of the voice tasks on the Bays `mine` (R242, R344). -/
def markStreams (mine : Nat → Bool) (s : State) : State :=
  (s.coresWith mine).foldl (fun s k => s.setCore k { s.core k with tasks := (s.core k).tasks.mapVals fun _ t => s.markTask t }) s

/-- The service cores at a device tick before its skip decisions (R244, R344): refills that are complete, then the flags. -/
def serveStreams (s : State) : State := markStreams (fun _ => true) (completeRefills s)

end Sys2Proof.Machine
end

