-- ==== Sys2Proof/Machine/Frame.lean ====
section
/-! DEFINITION. The device frame tick (R18, R28, R32, R62, R65, R75, R81, R84, R257, R287, R312). -/

namespace Sys2Proof.Machine

-- time (R28, R30, R303) --------------------------------------------------------------------------------------------------------------------

/-- The counters at the tick (R28): the first one after reset is frame 0, and after a restart Stamp32 reads as it stands (R25, R472, R482). -/
def tickCounters (s : State) : State :=
  let t := s.time
  { s with
    time := { t with clk := 0, tickDt := t.deviceTime, frameCount := if t.countHold then t.frameCount else t.frameCount + 1,
                     stamp := if t.stampHold then t.stamp else t.stamp + BitVec.ofNat 32 s.tpf, countHold := false, stampHold := false },
    power := { s.power with wakeHold := false } }

/-- The clocks at the tick: a ramp's phase, counters, packet times, a clock switch, the ramp of a rate, media offsets, and what the gPTP
ports send by time (R28, R38, R41, R42, R44, R363). -/
def tickClocks (s : State) : State := tickPtp (tickMedia (tickRamp (tickSwitch (timePackets (tickCounters (tickPhase s))))))

-- configuration (R75, R81, R84) ------------------------------------------------------------------------------------------------------------

/-- The first stamp after the frame that the tick begins (R32). -/
def State.tickEnd (s : State) : Word := s.time.stamp + BitVec.ofNat 32 s.tpf

/-- A stamped commit whose frame the tick begins (R81). -/
def dueCommit (s : State) (jb : Job) : Bool := jb.phase == .timeline && jb.opcode == 0x010 && earlier jb.stamp s.tickEnd

/-- A command that waits for the boundary but acts in another part of the tick, at an event of its own, or at a RENDER Bay's boundary. -/
def actsElsewhere (s : State) (jb : Job) : Bool :=
  jb.opcode == 0x101 || jb.opcode == 0x203 || jb.opcode == 0x300 || ((jb.opcode == 0x301 || jb.opcode == 0x302) && s.ownTimeline jb.bay)

/-- The commands that take effect at the boundary (R75): while no Conductor serves, stamped commits alone (R288). -/
def boundaryJobs (s : State) : List Job :=
  s.mbx.jobs.filter fun jb => dueCommit s jb || (!s.condDown && jb.phase == .boundary && !actsElsewhere s jb)

/-- Opcodes whose boundary gives LIVE or STAGED fields a value (R84). -/
def fieldOpcodes : List Nat := [0x102, 0x202, 0x400, 0x410, 0x502, 0x701, 0x702, 0x710, 0x711, 0x800, 0x900, 0x910, 0xA10, 0xB02, 0xC00]

/-- Values of the staged set that a commit gives at the device boundary. -/
def State.stagedNow (s : State) : Bool := s.mbx.staged.any fun x => !waitsRender s x

/-- A command at this boundary gives a LIVE or STAGED field its value (R84). -/
def takesField (s : State) (jb : Job) : Bool :=
  fieldOpcodes.contains jb.opcode || (jb.opcode == 0x010 && s.stagedNow) || (jb.opcode == 0x603 && recoverOp jb.e == 0)

/-- A stamped PARAM.SET that a boundary of the Bays `mine` releases (R84). -/
def stampedWrite (mine : Nat → Bool) (limit : Word) (jb : Job) : Bool :=
  jb.phase == .timeline && jb.opcode == 0x400 && (jb.bay == 255 || mine jb.bay) && earlier jb.stamp limit

/-- The epoch advances at a boundary at which a field takes a value from a command (R84). -/
def tickEpoch (s : State) : State :=
  let gives := !s.condDown && s.mbx.running.any fun st => st.opcode == 0x500 && st.done == 1
  if gives || (boundaryJobs s).any (takesField s) || s.mbx.jobs.any (stampedWrite s.onDevice s.tickEnd) then bumpEpoch s else s

/-- The writes of an unstamped PARAM.SET: each takes effect at the first stamp of the next frame of its Bay's timeline (R29, R189). -/
def boundaryWrites (e : Entry) (s : State) : State :=
  (setWrites e).foldl (fun s w =>
    let b := fieldBay w.1 s
    writeEndpoint (s.lineOf b) w.1 w.2 (setRamp e) (if b < 8 ∧ s.ownTimeline b then s.reachOf b else s.time.stamp) s) s

/-- The commit of the staged set at its boundary (R75, R81): its staging commands become DONE with it, also those whose values still wait for
the boundary of a RENDER Bay: the rule does not say when a commit with such values is DONE (DESIGN CHOICE, log entry 136). -/
def boundaryCommit (jb : Job) (s : State) : State :=
  let js := s.mbx.stagedCmds
  let r := applyCommit s
  completeJob jb stDone [r.1.mbx.epoch, BitVec.ofNat 32 r.2] (js.foldl doneStaging r.1)

/-- Take a stamped command off the timeline. -/
def offTimeline (j : Word) (s : State) : State := { s with se := { s.se with timeline := s.se.timeline.filter fun t => t.act != .cmd j } }

/-- What a command does at the device frame boundary, with its result words; a commit, a swap and DAC.SET are answered by themselves. -/
def boundaryEffect (jb : Job) (s : State) : Option (State × List Word) :=
  let op := jb.opcode
  if op = 0x102 then some (applyClockSelect jb.e s)
  else if op = 0x202 then some (applySessionSet jb.e s, [])
  else if op = 0x301 then some (applyRelease jb.e s.time.stamp s, [])
  else if op = 0x302 then some (applyEnd jb.e s.time.stamp s, [])
  else if op = 0x400 then some (boundaryWrites jb.e s, [])
  else if op = 0x410 then some (applyEnvs (bits (jb.e.pw 0) 7 0) (envsOf jb.e) s, [])
  else if op = 0x502 then some (applyRegionSet jb.e s, [])
  else if op = 0x522 then some (applyPkgDrop jb.e s, [])
  else if op = 0x603 then some (applyBayRecover jb.e s, [])
  else if op = 0x701 then some (applyTdmSet jb.e s, [])
  else if op = 0x702 then some (applyAudioClock jb.e s)
  else if op = 0x710 then some (applyStreamSet jb.e s)
  else if op = 0x711 then some (applyRenderSet jb.e s, [])
  else if op = 0x900 then some (applyUartSet jb.e s, [])
  else if op = 0x901 then some (sendNow false jb.e s, [])
  else if op = 0x910 then some (applyTimerSet jb.e s, [])
  else if op = 0xA10 then some (applyTamperSet jb.e s, [])
  else if op = 0xB02 then let t := applyHealthSet jb.e s; some (t, [t.hmVcore])
  else if op = 0xC00 then some (applyTraceSet jb.e s, [])
  else none

/-- One waiting command takes effect at the boundary (R75). -/
def applyJob (s : State) (jb : Job) : State :=
  let s1 := offTimeline jb.j (dropJob jb.j s)
  if jb.opcode = 0x010 then boundaryCommit jb s1
  else if jb.opcode = 0x420 ∨ jb.opcode = 0x421 then applySwap jb s1
  else match boundaryEffect jb s1 with
    | some r => completeJob jb stDone r.2 r.1
    | none => completeJob jb stDone [] s1

/-- The channels at the boundary: every DAC.SET, taken together for each channel, then what the boundary itself does to them; the answers give the
states after both (R382, R383, R389, R397). -/
def applyDacJobs (js : List Job) (s : State) : State :=
  let s1 := tickDac (applyDacSets (js.map fun jb => jb.e) (js.foldl (fun s jb => dropJob jb.j s) s))
  js.foldl (fun s jb => completeJob jb stDone (dacStates s) s) s1

/-- Pins that can no longer be met (R350): the object left the content store, or the Bay holds no coefficient area. -/
def failPins (s : State) : State :=
  (s.mbx.jobs.filter fun jb => jb.phase == .content).foldl (fun s jb =>
    if (s.mem.content.find (jb.e.pw 1).toNat).isNone then completeJob jb eRange [] (dropJob jb.j s)
    else if !(s.bay jb.bay).coefArea then completeJob jb eState [] (dropJob jb.j s)
    else s) s

/-- The commands of the boundary, in journal order (R72, R75, R81). -/
def applyJobs (s : State) : State :=
  let js := boundaryJobs s
  let dac := js.filter fun jb => jb.opcode == 0x800
  failPins (applyDacJobs dac ((js.filter fun jb => jb.opcode != 0x800).foldl applyJob s))

-- the release of events (R32, R309, R311) ------------------------------------------------------------------------------------------------------

/-- A released item acts at its stamp (R32, R75, R307). -/
def releaseItem (s : State) (x : TEvent) : State :=
  match x.act with
  | .cmd j =>
    (match s.mbx.jobs.find? fun jb => jb.j == j with
     | none => s
     | some jb =>
       if jb.opcode = 0x300 then (if jb.slot < 8192 then releaseStart jb.slot s else completeJob jb stDone [] (dropJob j s))
       else if jb.opcode = 0x301 then completeJob jb stDone [] (applyRelease jb.e x.stamp (dropJob j s))
       else if jb.opcode = 0x302 then completeJob jb stDone [] (applyEnd jb.e x.stamp (dropJob j s))
       else if jb.opcode = 0x400 then completeJob jb stDone [] (applyWrites (s.lineOf x.bay) (setWrites jb.e) (setRamp jb.e) x.stamp (dropJob j s))
       else if jb.opcode = 0x901 then releaseSend j s
       else s)
  | _ => actAt x s

/-- The merge order of the Session Engine (R309): stamp against the reach point, higher RANK, earlier entry. -/
def comesBefore (s : State) (ref : Word) (a b : TEvent) : Bool :=
  let da := stampDist a.stamp ref
  let db := stampDist b.stamp ref
  let ra := (s.rankOf a.session).toNat
  let rb := (s.rankOf b.session).toNat
  decide (da < db) || (decide (da = db) && (decide (rb < ra) || (decide (ra = rb) && decide (a.order < b.order))))

/-- Insert an item in merge order. -/
def insertItem (s : State) (ref : Word) (x : TEvent) : List TEvent → List TEvent
  | [] => [x]
  | y :: r => if comesBefore s ref x y then x :: y :: r else y :: insertItem s ref x r

/-- Items in merge order (R309). -/
def mergeItems (s : State) (ref : Word) (xs : List TEvent) : List TEvent := xs.foldl (fun acc x => insertItem s ref x acc) []

/-- A timeline item is a stamped commit, which the Conductor applies at the boundary (R81). -/
def isCommit (s : State) (t : TEvent) : Bool :=
  match t.act with
  | .cmd j => s.mbx.jobs.any fun jb => jb.j == j && jb.opcode == 0x010
  | _ => false

/-- Unstamped VOICE.STARTs of a timeline that its tick releases (R129): those already decided wait in another way, and while no Conductor
acts all of them wait (R288). -/
def unstampedStarts (own : Nat → Bool) (s : State) : List TEvent :=
  (s.mbx.jobs.filter fun jb => !s.condDown && jb.opcode == 0x300 && jb.phase == .boundary && own jb.bay && decide (jb.slot < 8192)
      && !(s.voice jb.slot).waitContent && !(s.voice jb.slot).deferred).map fun jb =>
    { stamp := (s.voice jb.slot).stamp, key := jb.stamp, bay := jb.bay, order := s.se.order, act := .start jb.slot }

/-- EVENT_RELEASE (R32): the items of a timeline that are due before `limit` act in merge order; those of the timeline `own`, with `extra`. -/
def releaseDue (own : TEvent → Bool) (ref limit : Word) (extra : List TEvent) (s : State) : State :=
  let due := fun (t : TEvent) => own t && earlier t.key limit && !isCommit s t
  let s1 := { s with se := { s.se with timeline := s.se.timeline.filter fun t => !due t } }
  (mergeItems s ref ((s.se.timeline.filter due) ++ extra)).foldl releaseItem s1

/-- An item of the device timeline (R29). -/
def State.onDeviceItem (s : State) (t : TEvent) : Bool := t.bay == 255 || s.onDevice t.bay

/-- The release of a device tick (R32): the reach point advances with the tick, and what enters after is tested against it. -/
def releaseDevice (s : State) : State :=
  let s1 := { s with time := { s.time with reach := s.tickEnd } }
  releaseDue s.onDeviceItem s.time.reach s.tickEnd (unstampedStarts s.onDevice s) s1

-- upkeep of a frame (R126, R184, R190, R366, R368) -----------------------------------------------------------------------------------------------

/-- A voice of a part and note that is placed (R184). -/
def State.plays (s : State) (part note : Nat) : Bool :=
  s.voices.any fun p => p.2.inUse && (p.2.st.counted || p.2.st == VState.scarf) && p.2.part == part && p.2.note == note

/-- A group without a voice counts a frame (R184). -/
def idleGroups (s : State) : State :=
  { s with params := { s.params with groups := s.params.groups.mapVals fun _ g =>
      if g.bound then { g with idle := if s.plays g.part g.note then 0 else g.idle + 1 } else g } }

/-- A listener stream counts a tick without a packet; the STREAM reference is lost at the first tick 4 fr or more after its last packet, the fifth
without one (R368). -/
def idleStreams (s : State) : State :=
  let s1 := { s with audio := { s.audio with streams := s.audio.streams.mapVals fun _ x => { x with idleFrames := x.idleFrames + 1 } } }
  if s1.audio.ref = 3 ∧ 5 ≤ (s1.stm s1.audio.refStream).idleFrames then loseReference s1 else s1

/-- Heat decays, and every 100 ms a promotion of content falls due (R126): 600 frames, and 551 for the 551.25 of the 44.1 kHz family (DESIGN
CHOICE, log entry 128). -/
def tickContent (s : State) : State :=
  let s1 := decayHeat s
  if s1.time.frameCount.toNat % famFrames s1.time.rate 600 551 = 0 then { s1 with mem := { s1.mem with promoteDue := true } } else s1

/-- What a device frame boundary counts and drops. -/
def tickUpkeep (s : State) : State := idleStreams (pruneRamps (tickContent (idleGroups s)))

-- the tick -------------------------------------------------------------------------------------------------------------------------------------

/-- The tick before any command acts: kept posts are posted again before any new one (R257), and what the frame that ended leaves to its boundary (R102, R105, R197, R257, R285, R356, R385, R406, R433, R434). -/
def tickEnds (s : State) : State :=
  let dev := s.onDevice
  let s0 := (s.baysWith dev).foldl tickYield s
  let s1 := freeVoices dev 0 (tickVault (quarantineFrame (repostWork (leaveFrame (flushSends s0.time.stamp (flushCv 256 (restDac s0)))))))
  let s2 := forgetWrites (fun b => b == 255 || dev b) (boundaryCourses dev (boundaryVoices dev s1))
  let s3 := retireCores dev (tickSteps dev (tickRetire (tickLedger s2)))
  let s5 := runFades s3.deviceDest (tickBanks s3)
  { s5 with mem := { s5.mem with banks := s5.mem.banks.mapVals fun _ x => { x with suspended := false } } }

/-- Bays of the device timeline whose mode or pair changes at the boundary (R272, R276, R283). -/
def tickBays (s : State) : State :=
  (s.baysWith s.onDevice).foldl (fun s b => tickRejoin (tickJoin (tickCopy (tickLoad (if s.condDown then s else tickMode s b) b) b) b) b) s

/-- The configuration of the boundary (R75, R81, R330): its commands, the switch of banks, and the Bays' modes. -/
def tickConfig (s : State) : State :=
  let s1 := applyJobs (tickEpoch s)
  tickBays (if s1.condDown then s1 else tickBankGive s1)

/-- Outputs that follow the boundary on their own (R460). -/
def tickOutputs (s : State) : State := tickRecal s

/-- Closings at the boundary, before the release (R312), and the intake's next frame (R310); they wait while no Conductor is active. -/
def tickClosings (s : State) : State :=
  let s1 := if s.condDown then s else closeAll s
  { s1 with se := { s1.se with intakeTaken := 0 } }

/-- Receive buffers that have waited for the Conductor, promotions and the events of parked sessions: after the release, against the advanced reach
point (R32, R288, R313, R314); they wait while no Conductor is active (R288, R314). -/
def tickSessions (s : State) : State := if s.condDown then s else handOverAll (promoteAll 96 (takeBuffers s))

/-- The flags of the frame with what the service cores have streamed, then its released events, and the refills that follow (R18, R243, R344, R113,
R32). -/
def tickRelease (s : State) : State :=
  let s1 := skipInstances s.onDevice (tickTasks s.onDevice (clearSums s.deviceBus (serveStreams s)))
  askRefills (fun _ => true) (freeCancelled s.onDevice 0 (releaseDevice (deferredRetry s1.onDevice s1)))

/-- What the released writes fix for the frame: declared pairs, writer counts, inputs (R240, R246, R353). -/
def tickSums (inputs : Inputs) (slips : List Slip) (s : State) : State :=
  let dev := s.onDevice
  let pairs := (List.range 128).filter fun q => s.deviceBus (2 * q)
  addInputs (takeInputs inputs slips (countWriters dev pairs (declareOuts dev s)))

/-- The mailboxes at the boundary (R62, R65). -/
def tickMailbox (s : State) : State := serveAll (if s.condDown then s else resetChans s)

/-- The frame tick (R18). -/
def frameTick (check : CondCheck) (inputs : Inputs) (slips : List Slip) (s : State) : State :=
  let s1 := tickConductor check (tickClocks (recordSlips slips s))
  let s2 := tickOutputs (tickConfig (tickEnds s1))
  let s3 := tickSums inputs slips (tickSessions (tickRelease (tickClosings s2)))
  let s4 := tickReset (tickMailbox (tickUpkeep s3))
  if s4.power.sleepDue then enterSleep s4 else tickMirror s4

/-- FRAME_TICK (R18, R28): none while the tick stands. -/
def execFrameTick (check : CondCheck) (inputs : Inputs) (slips : List Slip) (s : State) : Outcome :=
  .next (if s.time.ticking ∧ !s.inReset then frameTick check inputs slips s else s)

end Sys2Proof.Machine
end

