-- ==== Sys2Proof/Machine/Registers.lean ====
section
/-! DEFINITION. Writes of registers: from the host port, from the inside, and of the work registers (R7, R50, R60, R259, R260, R346, R409, R416). -/

namespace Sys2Proof.Machine

-- the host's control page (R60 to R65, R259, R346, R478) ---------------------------------------------------------------------------------

/-- HW_DB_RSP: each 1 clears a bit (R63). -/
def writeDbRsp (v : Word) (s : State) : State := { s with mbx := { s.mbx with dbRsp := s.mbx.dbRsp &&& ~~~(v.setWidth 17) } }

/-- HW_DB_RSP_EN (R63): a bit that is set and becomes enabled signals the host. -/
def writeDbEn (v : Word) (s : State) : State :=
  let s1 := { s with mbx := { s.mbx with dbRspEn := v.setWidth 17 } }
  ((List.range 17).filter fun n => bit v n && s.mbx.dbRsp.getLsbD n && !s.mbx.dbRspEn.getLsbD n).foldl (fun s n => signalHost n s) s1

/-- SS_APERTURE (R346): a write of 3 leaves ALIAS as it is. -/
def writeAperture (v : Word) (s : State) : State :=
  { s with mem := { s.mem with apBank := BitVec.ofNat 6 (bits v 13 8), apPage := BitVec.ofNat 3 (bits v 2 0),
                               apAlias := if bits v 4 3 = 3 then s.mem.apAlias else BitVec.ofNat 2 (bits v 4 3) } }

/-- A write through the aperture: word `i` of the page shown, plain or through an alias, the strobed lanes (R321, R322, R346). -/
def apertureWrite (i : Nat) (v : Word) (strobes : BitVec 4) (s : State) : State :=
  let kind : WriteKind := if s.mem.apAlias = 1 then .set else if s.mem.apAlias = 2 then .clear else .plain
  writeStore .host kind (65536 * s.mem.apBank.toNat + 8192 * s.mem.apPage.toNat + i) v strobes s

/-- The mailbox index and status registers of a channel that the host writes (R61, R64); `r` is the offset in its block. -/
def writeChan (n r : Nat) (v : Word) (s : State) : State :=
  let c := s.chan n
  if r = 0x00 then s.setChan n { c with cmdPi := v.setWidth 11 }
  else if r = 0x0C then s.setChan n { c with rspCi := v.setWidth 11 }
  else if r = 0x10 then s.setChan n { c with desync := c.desync && !bit v 0 }
  else s

/-- A write of the control page from the host port (R7, R60): what is not writable ignores it. Only the aperture's words have byte strobes (R321). -/
def hostWrite (off : Nat) (v : Word) (strobes : BitVec 4) (s : State) : State :=
  if 0x8000 ≤ off then apertureWrite ((off - 0x8000) / 4) v strobes s
  else if off = 0x000C then bootCtl v s
  else if off = 0x0200 then serveRung (ringBells v s)
  else if off = 0x0204 then writeDbRsp v s
  else if off = 0x0208 then writeDbEn v s
  else if off = 0x020C then requestResets v s
  else if off = 0x030C then { s with dsp := { s.dsp with trRi := v.setWidth 15 } }
  else if 0x0400 ≤ off ∧ off < 0x0600 then writeChan ((off - 0x0400) / 0x20) ((off - 0x0400) % 0x20) v s
  else if off = 0x0804 then writeAperture v s
  else s

-- the active Conductor's view (R51, R61, R409, R416) ------------------------------------------------------------------------------------------

/-- A value where it is allowed, else the old one (R51). -/
def allowed (ok : Bool) (new old : Nat) : Nat := if ok then new else old

/-- TM_CFG (R51): COR takes effect at the next boundary; RATE is HALTED, and changes while no frame tick runs. A write of COR meets none of the tests
of TIME.CLOCK.SELECT, of FOLLOW Bays and locked domains: the rule names none for the register (DESIGN CHOICE, log entry 136). -/
def writeTmCfg (v : Word) (s : State) : State :=
  let t := s.time
  let num := bits v 31 24
  let s1 := putDomField 0 (allowed (decide (1 ≤ num) && decide (num ≤ 127)) num t.dom2Num.toNat) s
  let s2 := putDomField 1 (allowed (decide (bits v 19 18 < 2)) (bits v 19 18) t.dom2Port.toNat) s1
  let s3 := putDomField 2 (allowed (decide (bits v 17 16 < 2)) (bits v 17 16) t.dom0Port.toNat) s2
  let cor : BitVec 2 := BitVec.ofNat 2 (allowed (decide (bits v 9 8 < 3)) (bits v 9 8) t.cor.toNat)
  let rate : BitVec 3 := BitVec.ofNat 3 (allowed (!t.ticking && decide (bits v 2 0 < 6)) (bits v 2 0) t.rate.toNat)
  { s3 with time := { s3.time with autoSwitch := bit v 11, cor := cor, corDue := t.corDue || cor != t.cor, rate := rate } }

/-- A whole block register: LIVE fields of the mask take the value, HALTED ones only while the block is stopped (R78). -/
def blockValue (enabled : Bool) (live halted old v : Word) : Word :=
  if enabled then (old &&& ~~~live) ||| (v &&& live) else (old &&& ~~~(live ||| halted)) ||| (v &&& (live ||| halted))

/-- UART_CFG, UART_DIV and UART_STATUS as the active Conductor writes them (R409); PARITY 3 and a DIV out of range leave the field. -/
def innerUart (u r : Nat) (v : Word) (s : State) : State :=
  let x := s.uart u
  if r = 0x0 then
    let w := if bits v 24 23 = 3 then (v &&& ~~~(0x01800000 : Word)) ||| (x.cfg &&& 0x01800000) else v
    setUartCfg (blockValue x.enable 0x80000000 uartHalted x.cfg w) (x.div.setWidth 32) s u
  else if r = 0x4 then (if 1067 ≤ bits v 23 0 then setUartCfg x.cfg (v &&& 0xFFFFFF) s u else s)
  else if r = 0x8 then s.setUart u { x with brk := x.brk && !bit v 4, overrun := x.overrun && !bit v 3 }
  else s

/-- TMR_CFG, TMR_PERIOD and TMR_STATUS as the active Conductor writes them (R416); MODE 3 leaves the field. -/
def innerTimer (t r : Nat) (v : Word) (s : State) : State :=
  let x := s.timer t
  if r = 0x0 then
    let w := if bits v 30 29 = 3 then (v &&& ~~~(0x60000000 : Word)) ||| (x.cfg &&& 0x60000000) else v
    setTimerCfg (blockValue x.enable 0x9C000000 tmrHalted x.cfg w) x.period s t
  else if r = 0x4 then setTimerCfg x.cfg v s t
  else if r = 0xC then s.setTimer t { x with overflow := x.overflow && !bit v 2, irq := x.irq && !bit v 1 }
  else s

/-- A write of the control page by the active Conductor (R50, R61, R409, R416). -/
def innerWrite (off : Nat) (v : Word) (s : State) : State :=
  if off = 0x0100 then writeTmCfg v s
  else if 0x0400 ≤ off ∧ off < 0x0600 then
    let n := (off - 0x0400) / 0x20
    if off % 0x20 = 0x04 then s.setChan n { s.chan n with cmdCi := v.setWidth 11 }
    else if off % 0x20 = 0x08 then s.setChan n { s.chan n with rspPi := v.setWidth 11 }
    else s
  else if 0x0C00 ≤ off ∧ off < 0x0C80 then innerUart ((off - 0x0C00) / 0x10) (off % 0x10) v s
  else if 0x0D00 ≤ off ∧ off < 0x0F00 then innerTimer ((off - 0x0D00) / 0x20) (off % 0x20) v s
  else s

-- the work registers (R260) ---------------------------------------------------------------------------------------------------------------------

/-- A write of a work register by service core or Conductor `n` (R260). -/
def workWrite (n off : Nat) (v : Word) (s : State) : State :=
  let c := s.svc n
  if 0x14 ≤ off ∧ off < 0x24 ∧ off % 4 = 0 then
    s.setSvc n { c with post := (List.range 4).map fun i => if i = (off - 0x14) / 4 then v else c.post.getD i 0 }
  else if off = 0x28 ∧ n < 4 then s.setSvc n { c with mask := BitVec.ofNat 4 (bits v 3 0) }
  else if off = 0x2C then setTaskFlag v s
  else s

/-- REGISTER_WRITE (R7, R50, R60, R260): none while reset holds. -/
def execRegisterWrite (sp : RegSpace) (off : BitVec 16) (v : Word) (s : State) : Outcome :=
  match sp with
  | .host => .next (if s.hostOff then s else hostWrite off.toNat v 0xF s)
  | .inner => .next (if s.inReset then s else innerWrite off.toNat v s)
  | .work n => withUnit n 6 (.next (if s.inReset then s else workWrite n off.toNat v s))

end Sys2Proof.Machine
end

