-- ==== Sys2Proof/Machine/HostPort.lean ====
section
/-! DEFINITION. The host port (R22, R23, R471, R493, R494): the control page as it is read (R7, R50, R60, R259, R270, R346, R409, R416, R478), the halves of the
parallel port (R338) and the quad-SPI transactions (R494) over the Host Window and the control page. -/

namespace Sys2Proof.Machine

-- the control page as it reads (R7) ------------------------------------------------------------------------------------------------------

/-- SYS_ID (R23): part 0x6480, major revision 1, minor revision 0, and the grade fuse. -/
def State.sysId (s : State) : Word := pack [(0x6480, 16), (1, 8), (s.vault.grade.toNat, 0)]

/-- A stepped command of channel `n` is running: HW_MBX_STATUS.STEPPED (R64). -/
def State.steppedOn (s : State) (n : Nat) : Bool := s.mbx.running.any fun r => r.e.ch == n

/-- The device ID that the PCIe endpoint reports (R495). -/
def pcieDeviceId : BitVec 16 := 0x6480
/-- The class code that the PCIe endpoint reports (R495). -/
def pcieClassCode : BitVec 24 := 0x040100

/-- HW_MBX_STATUS of channel `n` (R64). -/
def State.mbxStatus (s : State) (n : Nat) : Word :=
  let c := s.chan n
  pack [(c.expectSeq.toNat, 16), (b2n (s.steppedOn n), 3), (b2n c.seqFree, 2), (b2n c.rspFull, 1), (b2n c.desync, 0)]

/-- DSP_CFG (R259). -/
def State.dspCfg (s : State) : Word := pack [(b2n s.dsp.traceEn, 1), (b2n s.dsp.backpressure, 0)]

/-- SS_APERTURE (R346). -/
def State.ssAperture (s : State) : Word := pack [(s.mem.apBank.toNat, 8), (s.mem.apAlias.toNat, 3), (s.mem.apPage.toNat, 0)]

/-- The system registers (R23, R478); SYS_BOOT_CTL is write-only. -/
def State.sysReg (s : State) (off : Nat) : Word :=
  if off = 0x00 then s.sysId
  else if off = 0x04 then s.sysBoot
  else if off = 0x08 then s.sysRstc
  else if off = 0x10 then s.sysPwr
  else 0

/-- The time registers (R50); what TM_DTIME_LO buffers is read from the buffers (R30). -/
def State.timeReg (s : State) (off : Nat) : Word :=
  if off = 0x100 then s.tmCfg
  else if off = 0x104 then s.tmStatus
  else if off = 0x108 then s.time.deviceTime.setWidth 32
  else if off = 0x10C then s.time.bufDtHi
  else if off = 0x110 then s.time.bufFcLo
  else if off = 0x114 then s.time.bufFcHi
  else if off = 0x118 then s.time.bufStamp
  else 0

/-- The handshake registers (R60 to R65) and the Dispatcher's (R259); HW_DB_CMD and HW_MBX_RESET are write-only. -/
def State.handshakeReg (s : State) (off : Nat) : Word :=
  if off = 0x204 then s.mbx.dbRsp.setWidth 32
  else if off = 0x208 then s.mbx.dbRspEn.setWidth 32
  else if off = 0x210 then s.mbx.epoch
  else if off = 0x214 then s.condStatus
  else if off = 0x300 then s.dspCfg
  else if off = 0x304 then s.dspStatus
  else if off = 0x308 then s.dsp.trWi.setWidth 32
  else if off = 0x30C then s.dsp.trRi.setWidth 32
  else 0

/-- The registers of channel `n` (R61, R64). -/
def State.chanReg (s : State) (n r : Nat) : Word :=
  let c := s.chan n
  if r = 0x00 then c.cmdPi.setWidth 32
  else if r = 0x04 then c.cmdCi.setWidth 32
  else if r = 0x08 then c.rspPi.setWidth 32
  else if r = 0x0C then c.rspCi.setWidth 32
  else if r = 0x10 then s.mbxStatus n
  else 0

/-- The memory registers (R346). -/
def State.memReg (s : State) (off : Nat) : Word :=
  if off < 0x800 then s.ssOwner ((off - 0x700) / 4)
  else if off = 0x800 then s.ssStatus
  else if off = 0x804 then s.ssAperture
  else if off = 0x808 then s.hwRegionMode
  else if off = 0x80C then s.hwStatus
  else 0

/-- The audio registers (R370, R371) and the DAC's (R396). -/
def State.audioReg (s : State) (off : Nat) : Word :=
  if off < 0x940 then s.tdmOf ((off - 0x900) / 4)
  else if off = 0x940 then s.audStatus
  else if off < 0xA00 then 0
  else if off < 0xA80 then (s.dacCh ((off - 0xA00) / 4)).cfg
  else if off < 0xB00 then (s.dacCode (s.dacCh ((off - 0xA80) / 4))).setWidth 32
  else if off = 0xB00 then s.dac.short
  else if off = 0xB04 then s.dac.fault
  else 0

/-- The registers of UART `u` (R409). -/
def State.uartReg (s : State) (u r : Nat) : Word :=
  let x := s.uart u
  if r = 0x0 then x.cfg else if r = 0x4 then x.div.setWidth 32 else if r = 0x8 then x.statusWord else x.holdWord

/-- The registers of timer `t` (R416); TMR_CAPQ reads 0 from the host (R414). -/
def State.timerReg (s : State) (t r : Nat) : Word :=
  let x := s.timer t
  if r = 0x00 then x.cfg
  else if r = 0x04 then x.period
  else if r = 0x08 then x.count
  else if r = 0x0C then s.tmrStatus t
  else if r = 0x14 then x.capCnt
  else if r = 0x18 then x.capLo
  else if r = 0x1C then x.capHi
  else 0

/-- The registers of the Health Monitor (R462) and of the Vault (R438). -/
def State.healthReg (s : State) (off : Nat) : Word :=
  if off = 0xF00 then s.hmStatus
  else if off = 0xF04 then s.hmVcore
  else if 0xF10 ≤ off ∧ off < 0xF30 then s.hmCourse ((off - 0xF10) / 4)
  else if off = 0x1000 then s.vltStatus
  else if off = 0x1004 then s.vltTamperCfg
  else if off = 0x1008 then s.vltAlarm
  else 0

/-- A register of the control page as the host reads it, `off` a multiple of 4 below 0x8000; what no field map names reads 0 (R7). -/
def State.pageReg (s : State) (off : Nat) : Word :=
  if off < 0x100 then s.sysReg off
  else if off < 0x200 then s.timeReg off
  else if off < 0x400 then s.handshakeReg off
  else if off < 0x600 then s.chanReg ((off - 0x400) / 0x20) (off % 0x20)
  else if off = 0x600 then s.seStatus
  else if off < 0x620 then 0
  else if off < 0x640 then s.bayState ((off - 0x620) / 4)
  else if off < 0x700 then 0
  else if off < 0x900 then s.memReg off
  else if off < 0xC00 then s.audioReg off
  else if off < 0xC80 then s.uartReg ((off - 0xC00) / 0x10) (off % 0x10)
  else if off < 0xD00 then 0
  else if off < 0xF00 then s.timerReg ((off - 0xD00) / 0x20) (off % 0x20)
  else s.healthReg off

/-- A read of the control page from the host port: a read of TM_DTIME_LO fills the read buffers (R30), one of the aperture reads the
Sound Store (R346), and no other clears or changes anything (R50, R60, R409). -/
def hostRead (off : Nat) (s : State) : Word × State :=
  if 0x8000 ≤ off then
    let r := readStore .host (65536 * s.mem.apBank.toNat + 8192 * s.mem.apPage.toNat + (off - 0x8000) / 4) false s
    (r.1, r.2.2)
  else if off = 0x108 then (s.pageReg off, readDtimeLo s)
  else (s.pageReg off, s)

/-- A read of a register by the active Conductor (R7, R409, R416): an RC field returns its value and clears. -/
def innerReadReg (off : Nat) (s : State) : Word × State :=
  if 0xC00 ≤ off ∧ off < 0xC80 ∧ off % 0x10 = 0xC then
    let u := (off - 0xC00) / 0x10
    (s.pageReg off, s.onUart u fun x => { x with holdPerr := false, holdFerr := false, holdValid := false, holdData := 0 })
  else if 0xD00 ≤ off ∧ off < 0xF00 ∧ off % 0x20 = 0xC then
    let t := (off - 0xD00) / 0x20
    (s.pageReg off, s.setTimer t { s.timer t with missed := 0, lost := 0 })
  else if off < 0x8000 then hostRead off s
  else (0, s)

-- host addresses (R493) ----------------------------------------------------------------------------------------------------------------------

/-- A word of the map of the host port, or of the Conductor's view of the same: the Host Window at byte 0, the control page at byte 0x10_0000 (R493). -/
def hostPlace (word : Nat) : Bool := decide (word < 0x44000)

/-- The accesses lie where something lies: in the Host Window or on the control page (R10, R493). -/
def inMap (inner outer : List WordAcc) : Bool := (inner.all fun a => hostPlace a.word) && outer.all fun a => hostPlace a.word

/-- The host port serves accesses: neither in reset nor in SLEEP. -/
def State.portUp (s : State) : Bool := !s.hostOff && s.power.state != 2

/-- An internal access by itself, the Host Window's or the active Conductor's on the control page (R7, R51, R409, R416): the words read. A register takes
a whole word, whatever the strobes (DESIGN CHOICE, log entry 136). -/
def innerAccess (i : WordAcc) (s : State) : List Word × State :=
  if i.word < 0x40000 then (innerRead (some i) s, putWin i s)
  else
    let off := 4 * (i.word - 0x40000)
    match i.wr with
    | some v => ([], innerWrite off v s)
    | none => let r := innerReadReg off s; ([r.1], r.2)

/-- The internal access of a clk, if there is one; in reset there is none (R472). -/
def innerSide (inner : Option WordAcc) (s : State) : List Word × State :=
  match inner with
  | some i => if s.inReset then ([], s) else innerAccess i s
  | none => ([], s)

/-- One external access of a word, which may meet an internal one in the Host Window (R336, R346). In reset it does nothing; in SLEEP it finds the
window busy until the wake that it asks for (R482, R483). What such a read returns is left open. -/
def hostAccess (inner : Option WordAcc) (o : WordAcc) (s : State) : HostSide :=
  if !s.portUp then
    let s1 := (innerSide inner s).2
    { read := Config.free32 s1.freeCtr, busy := !s.inReset, st := s1.fresh }
  else if o.word < 0x40000 ∧ (inner.all fun i => decide (i.word < 0x40000)) then windowAccess s.pcieForm inner o s
  else
    let s1 := (innerSide inner s).2
    if o.word < 0x40000 then windowAccess s.pcieForm none o s1
    else
      let off := 4 * (o.word - 0x40000)
      match o.wr with
      | some v => { st := hostWrite off v o.strobes s1 }
      | none => let r := hostRead off s1; { read := r.1, st := r.2 }

/-- HOST_WINDOW_ACCESS (R336): `lastRead` holds the internal read, then the external one; BSY_N is low on a busy access of the parallel port
(R337). Without a host port the external side does nothing (R22). -/
def execHostWindowAccess (inner : Option WordAcc) (outer : Option WordAcc) (s : State) : Outcome :=
  if !inMap inner.toList outer.toList then .fault .noSuchAddress
  else
    let ir := innerSide inner s
    match (if s.power.host == 3 then none else outer) with
    | none => .next { ir.2 with mem := { ir.2.mem with lastRead := ir.1 } }
    | some o =>
      let h := hostAccess inner o s
      .next { h.st with mem := { h.st.mem with lastRead := ir.1 ++ (if o.wr.isNone then [h.read] else []), bsyN := !(h.busy && s.power.host == 1) } }

/-- Host port forms (R471): an access through a form that the straps did not choose finds its inputs ignored (R22). -/
def withForm (form : BitVec 2) (s : State) (o : Outcome) : Outcome := if s.power.host = form then o else .next s

-- the parallel port (R338) -------------------------------------------------------------------------------------------------------------------

/-- LOWER_HALF_READ (R338): the whole word is read and its upper half latched; `lastRead` holds the half the host sees. -/
def execLowerHalfRead (word : Nat) (inner : Option WordAcc) (s : State) : Outcome :=
  if !inMap inner.toList [{ word := word }] then .fault .noSuchAddress
  else withForm 1 s <|
    let h := hostAccess inner { word := word } s
    .next { h.st with mem := { h.st.mem with rdLatch := (h.read >>> 16).setWidth 16, bsyN := !h.busy,
                                             lastRead := (innerSide inner s).1 ++ [(h.read.setWidth 16 : BitVec 16).setWidth 32] } }

/-- UPPER_HALF_READ (R338): the latch; it meets no collision, so BSY_N stands high (R337). -/
def execUpperHalfRead (s : State) : Outcome :=
  withForm 1 s (.next { s with mem := { s.mem with lastRead := [s.mem.rdLatch.setWidth 32], bsyN := true } })

/-- LOWER_HALF_WRITE (R338): latched; it meets no collision (R337). -/
def execLowerHalfWrite (word : Nat) (v : BitVec 16) (s : State) : Outcome :=
  if !hostPlace word then .fault .noSuchAddress
  else withForm 1 s (.next { s with mem := { s.mem with wrLatch := v, wrAddr := word, bsyN := true } })

/-- UPPER_HALF_WRITE (R338): the whole word goes to the array; the latch is kept. -/
def execUpperHalfWrite (word : Nat) (v : BitVec 16) (inner : Option WordAcc) (s : State) : Outcome :=
  if !inMap inner.toList [{ word := word }] then .fault .noSuchAddress
  else withForm 1 s <|
    let h := hostAccess inner { word := word, wr := some (v ++ s.mem.wrLatch) } s
    .next { h.st with mem := { h.st.mem with bsyN := !h.busy, lastRead := (innerSide inner s).1 } }

-- quad SPI (R494) -----------------------------------------------------------------------------------------------------------------------------

/-- The words of one quad-SPI transaction, in order; it stops at the first word that collides with busy (R494). Answers the
words read and the index of the first word not performed. -/
def qspiWords (inner : List WordAcc) (as : List WordAcc) (i : Nat) (got : List Word) (s : State) : List Word × Option Nat × State :=
  match as with
  | [] => (got, none, s)
  | a :: r =>
    let h := hostAccess (inner.find? fun x => x.word == a.word) a s
    if h.busy then
      (got ++ (List.range (r.length + 1)).map fun k => Config.free32 (h.st.freeCtr + k), some i, { h.st with freeCtr := h.st.freeCtr + r.length + 1 })
    else qspiWords inner r (i + 1) (if a.wr.isNone then got ++ [h.read] else got) h.st

/-- A quad-SPI transaction of 1 to 64 words, with its status byte (R494). -/
def qspiRun (as inner : List WordAcc) (s : State) : Outcome :=
  withUnit (as.length - 1) (if as.isEmpty then 0 else 64) <|
    if !inMap inner as then .fault .noSuchAddress
    else withForm 2 s <|
      let r := qspiWords inner as 0 [] s
      let stb : BitVec 8 := match r.2.1 with | none => 0 | some i => BitVec.ofNat 8 (2 * i + 1)
      .next { r.2.2 with mem := { r.2.2.mem with lastRead := r.1, qspiStatus := stb } }

/-- QSPI_READ (R494). -/
def execQspiRead (word : Nat) (n : Nat) (inner : List WordAcc) (s : State) : Outcome :=
  qspiRun ((List.range n).map fun i => { word := word + i }) inner s

/-- QSPI_WRITE (R494). -/
def execQspiWrite (word : Nat) (ws : List Word) (inner : List WordAcc) (s : State) : Outcome :=
  qspiRun (ws.zipIdx.map fun p => { word := word + p.2, wr := some p.1 }) inner s

/-- QSPI_UNKNOWN_COMMAND (R494): status 0x01, nothing performed. -/
def execQspiUnknownCommand (cmd : Byte) (s : State) : Outcome :=
  withForm 2 s <| .next { s with mem := { s.mem with qspiStatus := if cmd = 0xEB ∨ cmd = 0x38 then s.mem.qspiStatus else 1 } }

end Sys2Proof.Machine
end

