-- ==== Sys2Proof/Machine/MailboxRows.lean ====
section
/-! DEFINITION. The mailbox command rows: the host writes an entry and rings, and the Conductor takes it by its card (R58, R62, R72). -/

namespace Sys2Proof.Machine

/-- The entry is longer than 1,024 words: it cannot be framed (R71). -/
def unframed (e : Entry) : Bool := decide (1024 < entryLen e)

/-- A mailbox command row (log entry 2): the host writes the entry into the channel's ring and rings the doorbell. While the Conductor serves the
mailboxes it takes the entry at once in a ring that held nothing before, and otherwise serves the channels rung until the entry's turn has come (R62,
R72). With no host port, in reset or under the reserved strap value, there is no such write (R22, R471). -/
def command (c : Card) (e : Entry) (s : State) : Outcome :=
  withUnit e.ch 16 <|
    let empty := (s.chan e.ch).cmdPi == (s.chan e.ch).cmdCi
    let put := hostPut c.opcode e s
    if s.hostOff then .next s
    else if !s.serving then .next put
    else if !empty then .next (serveRung put)
    else .next (if unframed e then desync e put else takeEntry c e put)

/-- ROUTE.SET (R372). -/
def execRouteSet (e : Entry) (s : State) : Outcome := command cardRouteSet e s

/-- TDM.SET (R373). -/
def execTdmSet (e : Entry) (s : State) : Outcome := command cardTdmSet e s

/-- AUDIO.CLOCK.SET (R374). -/
def execAudioClockSet (e : Entry) (s : State) : Outcome := command cardAudioClockSet e s

/-- STREAM.SET (R375). -/
def execStreamSet (e : Entry) (s : State) : Outcome := command cardStreamSet e s

/-- RENDER.SET (R376). -/
def execRenderSet (e : Entry) (s : State) : Outcome := command cardRenderSet e s

/-- AUDIO.STATUS (R377). -/
def execAudioStatus (e : Entry) (s : State) : Outcome := command cardAudioStatus e s

/-- BAY.FORM (R293). -/
def execBayForm (e : Entry) (s : State) : Outcome := command cardBayForm e s

/-- BAY.MODE (R294). -/
def execBayMode (e : Entry) (s : State) : Outcome := command cardBayMode e s

/-- BAY.STATUS (R295). -/
def execBayStatus (e : Entry) (s : State) : Outcome := command cardBayStatus e s

/-- BAY.RECOVER (R296). -/
def execBayRecover (e : Entry) (s : State) : Outcome := command cardBayRecover e s

/-- COEF.LOAD (R202). -/
def execCoefLoad (e : Entry) (s : State) : Outcome := command cardCoefLoad e s

/-- COEF.SWAP (R203). -/
def execCoefSwap (e : Entry) (s : State) : Outcome := command cardCoefSwap e s

/-- COEF.STATUS (R204). -/
def execCoefStatus (e : Entry) (s : State) : Outcome := command cardCoefStatus e s

/-- VPROG.LOAD (R238). -/
def execVprogLoad (e : Entry) (s : State) : Outcome := command cardVprogLoad e s

/-- COND.SWITCH (R297). -/
def execCondSwitch (e : Entry) (s : State) : Outcome := command cardCondSwitch e s

/-- FW.UPDATE (R298). -/
def execFwUpdate (e : Entry) (s : State) : Outcome := command cardFwUpdate e s

/-- DAC.SET (R397). -/
def execDacSet (e : Entry) (s : State) : Outcome := command cardDacSet e s

/-- DAC.WRITE (R398). -/
def execDacWrite (e : Entry) (s : State) : Outcome := command cardDacWrite e s

/-- DAC.STATUS (R399). -/
def execDacStatus (e : Entry) (s : State) : Outcome := command cardDacStatus e s

/-- DISPATCH.SET (R264). -/
def execDispatchSet (e : Entry) (s : State) : Outcome := command cardDispatchSet e s

/-- DISPATCH.STATUS (R265). -/
def execDispatchStatus (e : Entry) (s : State) : Outcome := command cardDispatchStatus e s

/-- TRACE.SET (R266). -/
def execTraceSet (e : Entry) (s : State) : Outcome := command cardTraceSet e s

/-- TRACE.STATUS (R267). -/
def execTraceStatus (e : Entry) (s : State) : Outcome := command cardTraceStatus e s

/-- HEALTH.STATUS (R463). -/
def execHealthStatus (e : Entry) (s : State) : Outcome := command cardHealthStatus e s

/-- HEALTH.LEDGER (R464). -/
def execHealthLedger (e : Entry) (s : State) : Outcome := command cardHealthLedger e s

/-- HEALTH.SET (R465). -/
def execHealthSet (e : Entry) (s : State) : Outcome := command cardHealthSet e s

/-- BANK.GIVE (R330). -/
def execBankGive (e : Entry) (s : State) : Outcome := command cardBankGive e s

/-- BANK.STATUS (R348). -/
def execBankStatus (e : Entry) (s : State) : Outcome := command cardBankStatus e s

/-- HW.REGION.SET (R349). -/
def execHwRegionSet (e : Entry) (s : State) : Outcome := command cardHwRegionSet e s

/-- CONTENT.PIN (R345). -/
def execContentPin (e : Entry) (s : State) : Outcome := command cardContentPin e s

/-- PARAM.GET (R200). -/
def execParamGet (e : Entry) (s : State) : Outcome := command cardParamGet e s

/-- PARAM.SET (R199). -/
def execParamSet (e : Entry) (s : State) : Outcome := command cardParamSet e s

/-- ENV.WRITE (R201). -/
def execEnvWrite (e : Entry) (s : State) : Outcome := command cardEnvWrite e s

/-- SYS.RESET (R484). -/
def execSysReset (e : Entry) (s : State) : Outcome := command cardSysReset e s

/-- SYS.POWER (R485). -/
def execSysPower (e : Entry) (s : State) : Outcome := command cardSysPower e s

/-- SESSION.LIST (R316). -/
def execSessionList (e : Entry) (s : State) : Outcome := command cardSessionList e s

/-- SESSION.QUERY (R317). -/
def execSessionQuery (e : Entry) (s : State) : Outcome := command cardSessionQuery e s

/-- SESSION.SET (R318). -/
def execSessionSet (e : Entry) (s : State) : Outcome := command cardSessionSet e s

/-- SESSION.CLOSE (R319). -/
def execSessionClose (e : Entry) (s : State) : Outcome := command cardSessionClose e s

/-- EVENT.SEND (R320). -/
def execEventSend (e : Entry) (s : State) : Outcome := command cardEventSend e s

/-- SYS.NOP (R92). -/
def execSysNop (e : Entry) (s : State) : Outcome := command cardSysNop e s

/-- CONFIG.EPOCH (R95). -/
def execConfigEpoch (e : Entry) (s : State) : Outcome := command cardConfigEpoch e s

/-- JOURNAL.QUERY (R96). -/
def execJournalQuery (e : Entry) (s : State) : Outcome := command cardJournalQuery e s

/-- CONFIG.COMMIT (R93). -/
def execConfigCommit (e : Entry) (s : State) : Outcome := command cardConfigCommit e s

/-- CONFIG.DISCARD (R94). -/
def execConfigDiscard (e : Entry) (s : State) : Outcome := command cardConfigDiscard e s

/-- TIMER.SET (R420). -/
def execTimerSet (e : Entry) (s : State) : Outcome := command cardTimerSet e s

/-- TIMER.READ (R421). -/
def execTimerRead (e : Entry) (s : State) : Outcome := command cardTimerRead e s

/-- TIME.GET (R53). -/
def execTimeGet (e : Entry) (s : State) : Outcome := command cardTimeGet e s

/-- TIME.CLOCK.SELECT (R55). -/
def execTimeClockSelect (e : Entry) (s : State) : Outcome := command cardTimeClockSelect e s

/-- TIME.DOMAIN.SET (R56). -/
def execTimeDomainSet (e : Entry) (s : State) : Outcome := command cardTimeDomainSet e s

/-- TIME.RATE.SET (R54). -/
def execTimeRateSet (e : Entry) (s : State) : Outcome := command cardTimeRateSet e s

/-- UART.SEND (R418). -/
def execUartSend (e : Entry) (s : State) : Outcome := command cardUartSend e s

/-- UART.SET (R417). -/
def execUartSet (e : Entry) (s : State) : Outcome := command cardUartSet e s

/-- UART.RECV (R419). -/
def execUartRecv (e : Entry) (s : State) : Outcome := command cardUartRecv e s

/-- PKG.WRITE (R439). -/
def execPkgWrite (e : Entry) (s : State) : Outcome := command cardPkgWrite e s

/-- PKG.COMMIT (R440). -/
def execPkgCommit (e : Entry) (s : State) : Outcome := command cardPkgCommit e s

/-- PKG.DROP (R429). -/
def execPkgDrop (e : Entry) (s : State) : Outcome := command cardPkgDrop e s

/-- VAULT.STATUS (R442). -/
def execVaultStatus (e : Entry) (s : State) : Outcome := command cardVaultStatus e s

/-- VAULT.KEY.WRAP (R443). -/
def execVaultKeyWrap (e : Entry) (s : State) : Outcome := command cardKeyWrap e s

/-- VAULT.KEY.LOAD (R444). -/
def execVaultKeyLoad (e : Entry) (s : State) : Outcome := command cardKeyLoad e s

/-- TAMPER.SET (R445). -/
def execTamperSet (e : Entry) (s : State) : Outcome := command cardTamperSet e s

/-- TAMPER.CLEAR (R446). -/
def execTamperClear (e : Entry) (s : State) : Outcome := command cardTamperClear e s

/-- LIFE.ADVANCE (R447). -/
def execLifeAdvance (e : Entry) (s : State) : Outcome := command cardLifeAdvance e s

/-- VOICE.START (R129). -/
def execVoiceStart (e : Entry) (s : State) : Outcome := command cardVoiceStart e s

/-- VOICE.RELEASE (R130). -/
def execVoiceRelease (e : Entry) (s : State) : Outcome := command cardVoiceRelease e s

/-- VOICE.END (R131). -/
def execVoiceEnd (e : Entry) (s : State) : Outcome := command cardVoiceEnd e s

/-- VOICE.QUERY (R132). -/
def execVoiceQuery (e : Entry) (s : State) : Outcome := command cardVoiceQuery e s

/-- PART.COUNTERS (R133). -/
def execPartCounters (e : Entry) (s : State) : Outcome := command cardPartCounters e s

/-- PLACE.LOAD (R134). -/
def execPlaceLoad (e : Entry) (s : State) : Outcome := command cardPlaceLoad e s

/-- DECIM.SET (R162). -/
def execDecimSet (e : Entry) (s : State) : Outcome := command cardDecimSet e s

/-- DECIM.STATUS (R163). -/
def execDecimStatus (e : Entry) (s : State) : Outcome := command cardDecimStatus e s

end Sys2Proof.Machine
end

