-- ==== Sys2Proof/Machine/Render.lean ====
section
/-! DEFINITION. The frames of a RENDER Bay on its own timeline (R17, R29, R138, R198, R245, R279, R357). -/

namespace Sys2Proof.Machine

/-- A Bay may stand at the boundary of a RENDER frame: it renders, in control of its pair, between two frames (R17, R29, R274). -/
def State.betweenFrames (s : State) (c : Nat) : Bool :=
  s.formed c && (s.bay c).mode == .render && s.inControl c && !(s.bay c).inFrame && !s.inReset

/-- A task is ready for the next frame of a RENDER Bay: S is set where its MASK holds it, and its decimated block has been written (R138, R245). -/
def readyTask (t : Task) : Bool := (!t.mask.getLsbD 3 || t.flags.getLsbD 3) && (t.kind != 0 || t.next.getLsbD 2)

/-- The next frame may start (R138, R153, R245, R279, R357). -/
def State.mayRender (s : State) (c : Nat) : Bool :=
  let mine := s.onRender c
  (s.coresWith mine).all (fun k => (s.core k).tasks.all fun p => readyTask p.2)
    && ((s.baysWith mine).flatMap s.bayCourses).all (fun x => (s.course x).copies.isEmpty)
    && !((s.bay c).recordDue && s.inLockstep c) && s.ringRoom c

/-- The counters of the Bay's timeline: the first frame after the entry into RENDER is frame 0 (R29). -/
def renderCounters (c : Nat) (s : State) : State :=
  s.onBay c fun x =>
    if x.reach = x.stamp then x else { x with frameCount := x.frameCount + 1, stamp := x.stamp + BitVec.ofNat 32 s.tpf }

/-- The boundary before any command acts (R81, R102, R105, R198, R356, R457). -/
def renderEnds (c : Nat) (s : State) : State :=
  let mine := s.onRender c
  let s1 := boundaryCourses mine (boundaryVoices mine (freeVoices mine 1 s))
  let s2 := retireCores mine (tickSteps mine (forgetWrites (fun b => b != 255 && mine b) s1))
  let n := s2.ringNumber c
  renderSwaps c (runFades (fun d => ringOf d == some n) s2)

/-- VOICE.RELEASE and VOICE.END without a stamp that wait for the Bay's boundary (R106, R118). -/
def renderJobs (c : Nat) (s : State) : State :=
  let t := (s.bay c).stamp
  (s.mbx.jobs.filter fun jb => jb.phase == .boundary && (jb.opcode == 0x301 || jb.opcode == 0x302) && s.onRender c jb.bay).foldl (fun s jb =>
    let s1 := dropJob jb.j s
    completeJob jb stDone [] (if jb.opcode = 0x301 then applyRelease jb.e t s1 else applyEnd jb.e t s1)) s

/-- The configuration of the boundary: committed values, the epoch of a released write, and waiting commands (R75, R81, R84). -/
def renderConfig (c : Nat) (s : State) : State :=
  let limit := (s.bay c).stamp + BitVec.ofNat 32 s.tpf
  let s1 := renderCommit c s
  renderJobs c (if (s.bay c).waiting.isEmpty && s.mbx.jobs.any (fun jb => jb.bay != 255 && stampedWrite (s.onRender c) limit jb) then bumpEpoch s1 else s1)

/-- The flags and the release of the frame (R32, R113, R243); a RENDER Bay never skips (R245). -/
def renderRelease (c : Nat) (s : State) : State :=
  let mine := s.onRender c
  let old := (s.bay c).reach
  let limit := (s.bay c).stamp + BitVec.ofNat 32 s.tpf
  let buses := declaredBuses c s
  let s1 := deferredRetry mine (tickTasks mine (clearSums (fun b => buses.contains b) s))
  let s2 := s1.onBay c fun x => { x with reach := limit }
  freeCancelled mine 1 (releaseDue (fun t => t.bay != 255 && mine t.bay) old limit (unstampedStarts mine s1) s2)

/-- Declared pairs and writer counts of the frame (R240, R246). -/
def renderSums (c : Nat) (s : State) : State :=
  let mine := s.onRender c
  let s1 := declareOuts mine s
  countWriters mine (((declaredBuses c s1).map fun b => b / 2).eraseDups) s1

/-- The modes and the pair at the Bay's boundary (R272, R276, R283). -/
def renderBays (c : Nat) (s : State) : State :=
  (s.baysWith (s.onRender c)).foldl (fun s b => tickRejoin (tickJoin (tickCopy (tickLoad (if s.condDown then s else tickMode s b) b) b) b) b) s

/-- A RENDER frame starts when it may, after the record that still waits and a change of mode that waits for this boundary (R272). -/
def renderBegin (c : Nat) (s : State) : State :=
  let s0 := renderBays c (if (s.bay c).recordDue && !s.inLockstep c then recordNow c s else s)
  if s0.betweenFrames c && s0.mayRender c then
    let s1 := renderConfig c (renderEnds c (renderCounters c s0))
    (renderSums c (renderRelease c s1)).onBay c fun x => { x with inFrame := true, startClk := s.time.clkCount }
  else s0

/-- RENDER_FRAME_START of the Bay that acts: a change of control comes first (R281). -/
def renderStart (c : Nat) (s : State) : State :=
  if !s.betweenFrames c then s
  else
    let s1 := (s.baysWith (s.onRender c)).foldl tickYield s
    renderBegin (if s1.inControl c then c else s1.partnerOf c) s1

/-- RENDER_FRAME_START (R17, R357). -/
def execRenderFrameStart (bay : Nat) (s : State) : Outcome := withUnit bay 8 (.next (renderStart (s.acting bay) s))

/-- Every task of the Bay's frame has run (R279). -/
def State.frameDone (s : State) (c : Nat) : Bool := (s.coresWith (s.onRender c)).all fun k => (unfinished (s.core k)).isEmpty

/-- RENDER_FRAME_END of the Bay that acts (R109, R120, R344, R351, R357): its sums close, the stream buffers are looked after, moves are planned, and the record is written; that of a
pair in lockstep waits for the decision (R279). -/
def renderEnd (c : Nat) (s : State) : State :=
  if (s.bay c).inFrame && (s.bay c).mode == .render && s.inControl c && s.frameDone c then
    let buses := declaredBuses c s
    let s1 := runFadeIns (s.onRender c) (closeBuses (s.lineOf c) (fun b => buses.contains b) (s.bay c).stamp s)
    let s2 := (planRender c (askRefills (s.onRender c) (markStreams (s.onRender c) s1))).onBay c fun x => { x with inFrame := false, recordDue := true }
    if s2.inLockstep c then s2 else recordNow c s2
  else s

/-- RENDER_FRAME_END (R357). -/
def execRenderFrameEnd (bay : Nat) (s : State) : Outcome := withUnit bay 8 (.next (renderEnd (s.acting bay) s))

end Sys2Proof.Machine
end

