-- ==== Sys2Proof/Machine/Dispatch.lean ====
section
/-! DEFINITION. One arm per command: each is one direct call of its meaning. -/

namespace Sys2Proof.Machine

/-- The effect of a command on everything but the queue. -/
def exec (i : Instr) (s : State) : Host.Outcome State Fault Refusal :=
  match i with
  | .timeGet e => Sys2Proof.Machine.execTimeGet e s
  | .timeRateSet e => Sys2Proof.Machine.execTimeRateSet e s
  | .rateChangeComplete => Sys2Proof.Machine.execRateChangeComplete s
  | .timeClockSelect e => Sys2Proof.Machine.execTimeClockSelect e s
  | .timeDomainSet e => Sys2Proof.Machine.execTimeDomainSet e s
  | .sysNop e => Sys2Proof.Machine.execSysNop e s
  | .configCommit e => Sys2Proof.Machine.execConfigCommit e s
  | .configDiscard e => Sys2Proof.Machine.execConfigDiscard e s
  | .configEpoch e => Sys2Proof.Machine.execConfigEpoch e s
  | .journalQuery e => Sys2Proof.Machine.execJournalQuery e s
  | .commandDesync e => Sys2Proof.Machine.execCommandDesync e s
  | .responseReleased ch => Sys2Proof.Machine.execResponseReleased ch s
  | .voiceStart e => Sys2Proof.Machine.execVoiceStart e s
  | .voiceRelease e => Sys2Proof.Machine.execVoiceRelease e s
  | .voiceEnd e => Sys2Proof.Machine.execVoiceEnd e s
  | .voiceQuery e => Sys2Proof.Machine.execVoiceQuery e s
  | .partCounters e => Sys2Proof.Machine.execPartCounters e s
  | .placeLoad e => Sys2Proof.Machine.execPlaceLoad e s
  | .decimSet e => Sys2Proof.Machine.execDecimSet e s
  | .decimStatus e => Sys2Proof.Machine.execDecimStatus e s
  | .paramSet e => Sys2Proof.Machine.execParamSet e s
  | .paramGet e => Sys2Proof.Machine.execParamGet e s
  | .envWrite e => Sys2Proof.Machine.execEnvWrite e s
  | .coefLoad e => Sys2Proof.Machine.execCoefLoad e s
  | .coefSwap e => Sys2Proof.Machine.execCoefSwap e s
  | .coefStatus e => Sys2Proof.Machine.execCoefStatus e s
  | .swapScarfEnd bank => Sys2Proof.Machine.execSwapScarfEnd bank s
  | .vprogLoad e => Sys2Proof.Machine.execVprogLoad e s
  | .dispatchSet e => Sys2Proof.Machine.execDispatchSet e s
  | .dispatchStatus e => Sys2Proof.Machine.execDispatchStatus e s
  | .traceSet e => Sys2Proof.Machine.execTraceSet e s
  | .traceStatus e => Sys2Proof.Machine.execTraceStatus e s
  | .bayForm e => Sys2Proof.Machine.execBayForm e s
  | .bayMode e => Sys2Proof.Machine.execBayMode e s
  | .bayModeDrainEnd bay => Sys2Proof.Machine.execBayModeDrainEnd bay s
  | .bayStatus e => Sys2Proof.Machine.execBayStatus e s
  | .bayRecover e => Sys2Proof.Machine.execBayRecover e s
  | .condSwitch e => Sys2Proof.Machine.execCondSwitch e s
  | .plannedSwitch => Sys2Proof.Machine.execPlannedSwitch s
  | .fwUpdate e => Sys2Proof.Machine.execFwUpdate e s
  | .sessionList e => Sys2Proof.Machine.execSessionList e s
  | .sessionQuery e => Sys2Proof.Machine.execSessionQuery e s
  | .sessionSet e => Sys2Proof.Machine.execSessionSet e s
  | .sessionClose e => Sys2Proof.Machine.execSessionClose e s
  | .eventSend e => Sys2Proof.Machine.execEventSend e s
  | .bankGive e => Sys2Proof.Machine.execBankGive e s
  | .bankStatus e => Sys2Proof.Machine.execBankStatus e s
  | .hwRegionSet e => Sys2Proof.Machine.execHwRegionSet e s
  | .contentPin e => Sys2Proof.Machine.execContentPin e s
  | .routeSet e => Sys2Proof.Machine.execRouteSet e s
  | .tdmSet e => Sys2Proof.Machine.execTdmSet e s
  | .audioClockSet e => Sys2Proof.Machine.execAudioClockSet e s
  | .streamSet e => Sys2Proof.Machine.execStreamSet e s
  | .renderSet e => Sys2Proof.Machine.execRenderSet e s
  | .audioStatus e => Sys2Proof.Machine.execAudioStatus e s
  | .dacSet e => Sys2Proof.Machine.execDacSet e s
  | .dacWrite e => Sys2Proof.Machine.execDacWrite e s
  | .dacStatus e => Sys2Proof.Machine.execDacStatus e s
  | .uartSet e => Sys2Proof.Machine.execUartSet e s
  | .uartSend e => Sys2Proof.Machine.execUartSend e s
  | .uartRecv e => Sys2Proof.Machine.execUartRecv e s
  | .timerSet e => Sys2Proof.Machine.execTimerSet e s
  | .timerRead e => Sys2Proof.Machine.execTimerRead e s
  | .pkgWrite e => Sys2Proof.Machine.execPkgWrite e s
  | .pkgCommit e => Sys2Proof.Machine.execPkgCommit e s
  | .pkgDrop e => Sys2Proof.Machine.execPkgDrop e s
  | .vaultStatus e => Sys2Proof.Machine.execVaultStatus e s
  | .vaultKeyWrap e => Sys2Proof.Machine.execVaultKeyWrap e s
  | .vaultKeyLoad e => Sys2Proof.Machine.execVaultKeyLoad e s
  | .tamperSet e => Sys2Proof.Machine.execTamperSet e s
  | .tamperClear e => Sys2Proof.Machine.execTamperClear e s
  | .lifeAdvance e => Sys2Proof.Machine.execLifeAdvance e s
  | .healthStatus e => Sys2Proof.Machine.execHealthStatus e s
  | .healthLedger e => Sys2Proof.Machine.execHealthLedger e s
  | .healthSet e => Sys2Proof.Machine.execHealthSet e s
  | .sysReset e => Sys2Proof.Machine.execSysReset e s
  | .sysPower e => Sys2Proof.Machine.execSysPower e s
  | .registerWrite sp off v => Sys2Proof.Machine.execRegisterWrite sp off v s
  | .hwDbCmd v => Sys2Proof.Machine.execHwDbCmd v s
  | .hwMbxReset v => Sys2Proof.Machine.execHwMbxReset v s
  | .tmDtimeLo => Sys2Proof.Machine.execTmDtimeLo s
  | .setAliasWrite who bank word v strobes => Sys2Proof.Machine.execSetAliasWrite who bank word v strobes s
  | .clearAliasWrite who bank word v strobes => Sys2Proof.Machine.execClearAliasWrite who bank word v strobes s
  | .soundStoreAccess bank reqs => Sys2Proof.Machine.execSoundStoreAccess bank reqs s
  | .hostWindowAccess inner outer => Sys2Proof.Machine.execHostWindowAccess inner outer s
  | .lowerHalfRead word inner => Sys2Proof.Machine.execLowerHalfRead word inner s
  | .upperHalfRead => Sys2Proof.Machine.execUpperHalfRead s
  | .lowerHalfWrite word v => Sys2Proof.Machine.execLowerHalfWrite word v s
  | .upperHalfWrite word v inner => Sys2Proof.Machine.execUpperHalfWrite word v inner s
  | .qspiRead word n inner => Sys2Proof.Machine.execQspiRead word n inner s
  | .qspiWrite word ws inner => Sys2Proof.Machine.execQspiWrite word ws inner s
  | .qspiUnknownCommand cmd => Sys2Proof.Machine.execQspiUnknownCommand cmd s
  | .uartHold u => Sys2Proof.Machine.execUartHold u s
  | .tmrCapq host t => Sys2Proof.Machine.execTmrCapq host t s
  | .dspAsk who => Sys2Proof.Machine.execDspAsk who s
  | .dspPostGo who => Sys2Proof.Machine.execDspPostGo who s
  | .stallTimeout who => Sys2Proof.Machine.execStallTimeout who s
  | .dspFlag who v => Sys2Proof.Machine.execDspFlag who v s
  | .sysBootCtl v => Sys2Proof.Machine.execSysBootCtl v s
  | .hold k pt => Sys2Proof.Machine.execHold k pt s
  | .add k wd src pt => Sys2Proof.Machine.execAdd k wd src pt s
  | .sub k wd src pt => Sys2Proof.Machine.execSub k wd src pt s
  | .cmp k wd src pt => Sys2Proof.Machine.execCmp k wd src pt s
  | .neg k wd src pt => Sys2Proof.Machine.execNeg k wd src pt s
  | .abs k wd src pt => Sys2Proof.Machine.execAbs k wd src pt s
  | .clr k wd src pt => Sys2Proof.Machine.execClr k wd src pt s
  | .copy k wd src pt => Sys2Proof.Machine.execCopy k wd src pt s
  | .andW k wd src pt => Sys2Proof.Machine.execAndW k wd src pt s
  | .orW k wd src pt => Sys2Proof.Machine.execOrW k wd src pt s
  | .xorW k wd src pt => Sys2Proof.Machine.execXorW k wd src pt s
  | .shl1 k wd src pt => Sys2Proof.Machine.execShl1 k wd src pt s
  | .shr1 k wd src pt => Sys2Proof.Machine.execShr1 k wd src pt s
  | .rndf k wd src pt => Sys2Proof.Machine.execRndf k wd src pt s
  | .satf k wd src pt => Sys2Proof.Machine.execSatf k wd src pt s
  | .mac k wd sign ui vj pt => Sys2Proof.Machine.execMac k wd sign ui vj pt s
  | .mul k wd sign ui vj pt => Sys2Proof.Machine.execMul k wd sign ui vj pt s
  | .qmac k sign z ui quad pt => Sys2Proof.Machine.execQmac k sign z ui quad pt s
  | .qmacx k sign z ui quad pt => Sys2Proof.Machine.execQmacx k sign z ui quad pt s
  | .xmac k sign z pt => Sys2Proof.Machine.execXmac k sign z pt s
  | .min k wd ui pt => Sys2Proof.Machine.execMin k wd ui pt s
  | .max k wd ui pt => Sys2Proof.Machine.execMax k wd ui pt s
  | .minuw k wd ui pt => Sys2Proof.Machine.execMinuw k wd ui pt s
  | .maxuw k wd ui pt => Sys2Proof.Machine.execMaxuw k wd ui pt s
  | .addc k wd pt => Sys2Proof.Machine.execAddc k wd pt s
  | .subc k wd pt => Sys2Proof.Machine.execSubc k wd pt s
  | .mulsu k wd ui pt => Sys2Proof.Machine.execMulsu k wd ui pt s
  | .muluu k wd ui pt => Sys2Proof.Machine.execMuluu k wd ui pt s
  | .move k dst src => Sys2Proof.Machine.execMove k dst src s
  | .ldk k dst c => Sys2Proof.Machine.execLdk k dst c s
  | .movm k reg store y mode => Sys2Proof.Machine.execMovm k reg store y mode s
  | .nop k => Sys2Proof.Machine.execNop k s
  | .endTask k => Sys2Proof.Machine.execEndTask k s
  | .fwait k => Sys2Proof.Machine.execFwait k s
  | .jmp k target => Sys2Proof.Machine.execJmp k target s
  | .call k target => Sys2Proof.Machine.execCall k target s
  | .ret k => Sys2Proof.Machine.execRet k s
  | .brCc k cond off => Sys2Proof.Machine.execBrCc k cond off s
  | .loop k count body => Sys2Proof.Machine.execLoop k count body s
  | .loopv k ui body => Sys2Proof.Machine.execLoopv k ui body s
  | .leave k => Sys2Proof.Machine.execLeave k s
  | .rpt k n => Sys2Proof.Machine.execRpt k n s
  | .fetch k y ptr ui words => Sys2Proof.Machine.execFetch k y ptr ui words s
  | .fetchComplete k dbe => Sys2Proof.Machine.execFetchComplete k dbe s
  | .fifthFetchStart k => Sys2Proof.Machine.execFifthFetchStart k s
  | .padd k ptr imm => Sys2Proof.Machine.execPadd k ptr imm s
  | .sra k wd sh => Sys2Proof.Machine.execSra k wd sh s
  | .sla k wd sh => Sys2Proof.Machine.execSla k wd sh s
  | .srl k wd sh => Sys2Proof.Machine.execSrl k wd sh s
  | .cls k wd => Sys2Proof.Machine.execCls k wd s
  | .dstep k wd ui => Sys2Proof.Machine.execDstep k wd ui s
  | .clrcnt k => Sys2Proof.Machine.execClrcnt k s
  | .reservedEncoding k => Sys2Proof.Machine.execReservedEncoding k s
  | .taskDispatch k => Sys2Proof.Machine.execTaskDispatch k s
  | .preemption k => Sys2Proof.Machine.execPreemption k s
  | .localMemoryError k m addr double => Sys2Proof.Machine.execLocalMemoryError k m addr double s
  | .frameTick check inputs slips => Sys2Proof.Machine.execFrameTick check inputs slips s
  | .watchdogTakeover => Sys2Proof.Machine.execWatchdogTakeover s
  | .conductorFailover => Sys2Proof.Machine.execConductorFailover s
  | .conductorRestart => Sys2Proof.Machine.execConductorRestart s
  | .takeControlBack => Sys2Proof.Machine.execTakeControlBack s
  | .oscillatorBlockFlag course pos => Sys2Proof.Machine.execOscillatorBlockFlag course pos s
  | .decimatedBlockFlag course pos => Sys2Proof.Machine.execDecimatedBlockFlag course pos s
  | .inputBufferCopy slot => Sys2Proof.Machine.execInputBufferCopy slot s
  | .onset slot => Sys2Proof.Machine.execOnset slot s
  | .envelopeSegmentEnd slot env => Sys2Proof.Machine.execEnvelopeSegmentEnd slot env s
  | .scarfEnd slot => Sys2Proof.Machine.execScarfEnd slot s
  | .quarantineEnd slot => Sys2Proof.Machine.execQuarantineEnd slot s
  | .groupRelease g => Sys2Proof.Machine.execGroupRelease g s
  | .templateResident k template => Sys2Proof.Machine.execTemplateResident k template s
  | .contentResident bay object => Sys2Proof.Machine.execContentResident bay object s
  | .promotion => Sys2Proof.Machine.execPromotion s
  | .kerfStart => Sys2Proof.Machine.execKerfStart s
  | .frameCheck bay fails => Sys2Proof.Machine.execFrameCheck bay fails s
  | .frameCheckDecision bay => Sys2Proof.Machine.execFrameCheckDecision bay s
  | .outputPathFault bay => Sys2Proof.Machine.execOutputPathFault bay s
  | .residueCheckFailure course lane => Sys2Proof.Machine.execResidueCheckFailure course lane s
  | .resynchronisationEnd bay => Sys2Proof.Machine.execResynchronisationEnd bay s
  | .selfTestEnd bay pass failed => Sys2Proof.Machine.execSelfTestEnd bay pass failed s
  | .returnHome bay => Sys2Proof.Machine.execReturnHome bay s
  | .renderFrameStart bay => Sys2Proof.Machine.execRenderFrameStart bay s
  | .renderFrameEnd bay => Sys2Proof.Machine.execRenderFrameEnd bay s
  | .networkMidiPacket sid umpSeq r ps => Sys2Proof.Machine.execNetworkMidiPacket sid umpSeq r ps s
  | .invitation port identity auth => Sys2Proof.Machine.execInvitation port identity auth s
  | .bye sid => Sys2Proof.Machine.execBye sid s
  | .jrClock sid r c => Sys2Proof.Machine.execJrClock sid r c s
  | .endpointDiscovery sid => Sys2Proof.Machine.execEndpointDiscovery sid s
  | .streamConfigurationRequest sid midi2 => Sys2Proof.Machine.execStreamConfigurationRequest sid midi2 s
  | .functionBlockDiscovery sid => Sys2Proof.Machine.execFunctionBlockDiscovery sid s
  | .ping sid => Sys2Proof.Machine.execPing sid s
  | .keepaliveTimeout sid => Sys2Proof.Machine.execKeepaliveTimeout sid s
  | .intakeFifoExit => Sys2Proof.Machine.execIntakeFifoExit s
  | .uartCharacterComplete u line parity stop r => Sys2Proof.Machine.execUartCharacterComplete u line parity stop r s
  | .rawCharacterTaken u => Sys2Proof.Machine.execRawCharacterTaken u s
  | .uartStampedSend j => Sys2Proof.Machine.execUartStampedSend j s
  | .gptpEventMessage dom port m entry => Sys2Proof.Machine.execGptpEventMessage dom port m entry s
  | .domainLock dom offset ratePpt => Sys2Proof.Machine.execDomainLock dom offset ratePpt s
  | .domainUnlock dom => Sys2Proof.Machine.execDomainUnlock dom s
  | .rampEnd => Sys2Proof.Machine.execRampEnd s
  | .frameLaunch port classB => Sys2Proof.Machine.execFrameLaunch port classB s
  | .listenerPacket t streamId format seq ts samples => Sys2Proof.Machine.execListenerPacket t streamId format seq ts samples s
  | .acmpConnect t streamId => Sys2Proof.Machine.execAcmpConnect t streamId s
  | .acmpDisconnect t => Sys2Proof.Machine.execAcmpDisconnect t s
  | .entityAvailable ctl => Sys2Proof.Machine.execEntityAvailable ctl s
  | .readDescriptor ctl type index => Sys2Proof.Machine.execReadDescriptor ctl type index s
  | .acquireEntity ctl release => Sys2Proof.Machine.execAcquireEntity ctl release s
  | .lockEntity ctl unlock => Sys2Proof.Machine.execLockEntity ctl unlock s
  | .getStreamFormat ctl t => Sys2Proof.Machine.execGetStreamFormat ctl t s
  | .setStreamFormat ctl t format => Sys2Proof.Machine.execSetStreamFormat ctl t format s
  | .getStreamInfo ctl t => Sys2Proof.Machine.execGetStreamInfo ctl t s
  | .getCounters ctl t => Sys2Proof.Machine.execGetCounters ctl t s
  | .listenerReady t => Sys2Proof.Machine.execListenerReady t s
  | .referenceLost => Sys2Proof.Machine.execReferenceLost s
  | .referenceReturn => Sys2Proof.Machine.execReferenceReturn s
  | .bankRetention b => Sys2Proof.Machine.execBankRetention b s
  | .bankWake b => Sys2Proof.Machine.execBankWake b s
  | .zeroiseDone b => Sys2Proof.Machine.execZeroiseDone b s
  | .cvWriteEffect => Sys2Proof.Machine.execCvWriteEffect s
  | .dacShort d => Sys2Proof.Machine.execDacShort d s
  | .shortToFault d => Sys2Proof.Machine.execShortToFault d s
  | .vddaDacLow => Sys2Proof.Machine.execVddaDacLow s
  | .dacClockAbsent => Sys2Proof.Machine.execDacClockAbsent s
  | .rampComplete d => Sys2Proof.Machine.execRampComplete d s
  | .settleEnd d => Sys2Proof.Machine.execSettleEnd d s
  | .recalibrationPass d => Sys2Proof.Machine.execRecalibrationPass d s
  | .periodEvent t => Sys2Proof.Machine.execPeriodEvent t s
  | .capture t rising => Sys2Proof.Machine.execCapture t rising s
  | .healthPeriodEnd r vdd off25 ack => Sys2Proof.Machine.execHealthPeriodEnd r vdd off25 ack s
  | .pmbusRetry ack => Sys2Proof.Machine.execPmbusRetry ack s
  | .courseClockAlarm alarm => Sys2Proof.Machine.execCourseClockAlarm alarm s
  | .courseSupplyAlarm course => Sys2Proof.Machine.execCourseSupplyAlarm course s
  | .ledgerWrite => Sys2Proof.Machine.execLedgerWrite s
  | .serviceCycle course res => Sys2Proof.Machine.execServiceCycle course res s
  | .stale course => Sys2Proof.Machine.execStale course s
  | .vmaxStep => Sys2Proof.Machine.execVmaxStep s
  | .tamperRaised seen mainPower time => Sys2Proof.Machine.execTamperRaised seen mainPower time s
  | .powerOnReset => Sys2Proof.Machine.execPowerOnReset s
  | .porN low => Sys2Proof.Machine.execPorN low s
  | .wrstN low => Sys2Proof.Machine.execWrstN low s
  | .deviceWatchdog => Sys2Proof.Machine.execDeviceWatchdog s
  | .pcieHotReset => Sys2Proof.Machine.execPcieHotReset s
  | .bootPhase ev => Sys2Proof.Machine.execBootPhase ev s
  | .ready => Sys2Proof.Machine.execReady s
  | .wake sources n => Sys2Proof.Machine.execWake sources n s
  | .stepEffectsComplete j err data => Sys2Proof.Machine.execStepEffectsComplete j err data s
  | .standbyReady => Sys2Proof.Machine.execStandbyReady s
  | .restartAloneDone => Sys2Proof.Machine.execRestartAloneDone s
  | .plannedSwitchTimeout => Sys2Proof.Machine.execPlannedSwitchTimeout s
  | .audioPllLock => Sys2Proof.Machine.execAudioPllLock s
  | .startBit u => Sys2Proof.Machine.execStartBit u s
  | .receiverReturnsToIdle u => Sys2Proof.Machine.execReceiverReturnsToIdle u s
  | .lineIdleTenBitTimes u => Sys2Proof.Machine.execLineIdleTenBitTimes u s
  | .uartCharacterSent u => Sys2Proof.Machine.execUartCharacterSent u s
  | .dacShortEnd d => Sys2Proof.Machine.execDacShortEnd d s
  | .tamperSourceInactive source => Sys2Proof.Machine.execTamperSourceInactive source s
  | .listenerReadyWithdrawn t => Sys2Proof.Machine.execListenerReadyWithdrawn t s
  | .acmpGetState t => Sys2Proof.Machine.execAcmpGetState t s
  | .adpDiscover => Sys2Proof.Machine.execAdpDiscover s
  | .announce dom vec => Sys2Proof.Machine.execAnnounce dom vec s
  | .followUp dom origin => Sys2Proof.Machine.execFollowUp dom origin s
  | .pdelayRespFollowUp dom delay => Sys2Proof.Machine.execPdelayRespFollowUp dom delay s
  | .signaling dom interval => Sys2Proof.Machine.execSignaling dom interval s
  | .peerDelayInterval dom => Sys2Proof.Machine.execPeerDelayInterval dom s

end Sys2Proof.Machine
end

