-- ==== Sys2Proof/Machine/Pins.lean ====
section
/-! DEFINITION. What the output balls carry (R358, R406, R411, R430, R471, R479, R498). -/

namespace Sys2Proof.Machine

/-- The output balls of the table Quiet states (R479). -/
inductive OutBall where
  /-- both legs of DAC channel `d` -/
  | dacLegs (d : Nat)
  /-- BCLK and FS of TDM output port `p` -/
  | tdmClock (p : Nat)
  /-- SD of TDM output port `p` -/
  | tdmData (p : Nat)
  | pdmClk
  | uartTxd (u : Nat)
  | tmrOut (t : Nat)
  /-- TXC, TXD and TX_CTL -/
  | rgmiiTx
  | ethPhyRstN
  | ddrRstN
  /-- clock and data of the PMBus -/
  | pmbus
  /-- the data pins of the parallel host port, the four data pins of the quad-SPI one, and the outputs of the PCIe lane -/
  | hd
  | qspiIo
  | pcieTx
  | hostIrqN
  | bsyN
  | flashCs
  | tampOut (k : Nat)
deriving DecidableEq, Repr

/-- What drives a ball: a level, nothing but a pull, or its unit as the unit's own rules say. -/
inductive Drive where
  | highZ
  | pullUp
  | pullDown
  | low
  | high
  /-- carries what its unit sends -/
  | unit
  /-- the currents of two legs, in IFS / 65,536 nA (R378) -/
  | legs (p n : Nat)
deriving DecidableEq, Repr

/-- A level as a drive. -/
def Drive.level (b : Bool) : Drive := if b then .high else .low

/-- While POR_N or the power-on monitor holds reset (R479, first column); no host port form is chosen yet (R471). -/
def quietInReset : OutBall → Drive
  | .dacLegs _ | .rgmiiTx | .pmbus | .hd | .qspiIo | .pcieTx => .highZ
  | .tdmClock _ | .tdmData _ | .pdmClk | .tmrOut _ => .pullDown
  | .uartTxd _ | .hostIrqN | .bsyN | .flashCs => .pullUp
  | .ethPhyRstN | .ddrRstN => .low
  | .tampOut _ => .unit

/-- A port that runs its clock outputs: enabled, and not in SLEEP, where a master port drives them low (R481). -/
def State.tdmRuns (s : State) (p : Nat) : Bool := bit (s.tdmOf p) 31 && s.power.state != 2

/-- A ball outside that reset (R479, second column, and the rules of its unit): quiet until its block is configured. A slave port takes BCLK and FS
from the balls (R358); the balls of a host port form that was not chosen are high impedance (R471). -/
def State.driven (s : State) (b : OutBall) : Drive :=
  match b with
  | .dacLegs d => (match s.legs d with | some x => .legs x.1 x.2 | none => .highZ)
  | .tdmClock p => if !bit (s.tdmOf p) 31 then .low else if !bit (s.tdmOf p) 30 then .highZ else if s.tdmRuns p then .unit else .low
  | .tdmData p => if bit (s.tdmOf p) 31 then .unit else .low
  | .pdmClk => if s.audio.pdm = 0 then .low else .unit
  | .uartTxd u => Drive.level ((s.uart u).txd s.time.clkCount)
  | .tmrOut t => Drive.level (s.timer t).out
  | .rgmiiTx => if s.power.phyRstN then .unit else .low
  | .ethPhyRstN => Drive.level s.power.phyRstN
  | .ddrRstN => Drive.level s.power.ddrRstN
  | .pmbus => if s.power.phase.toNat < 5 || s.power.phase == 15 then .highZ else .unit
  | .hd => if s.power.host = 1 then .unit else .highZ
  | .qspiIo => if s.power.host = 2 then .unit else .highZ
  | .pcieTx => if s.power.host = 0 then .unit else .highZ
  | .hostIrqN => if s.power.host = 1 ∨ s.power.host = 2 then Drive.level s.hostIrqN else .highZ
  | .bsyN => if s.power.host = 1 then Drive.level s.mem.bsyN else .highZ
  | .flashCs => .unit
  | .tampOut k => (match s.tampOut k with | some b => Drive.level b | none => .unit)

/-- What an output ball carries now (R479); TAMP_OUT is the Vault's whenever VBAT_VAULT is present, in reset or not. -/
def State.ball (s : State) (b : OutBall) : Drive := if s.power.holdPor && !(match b with | .tampOut _ => true | _ => false) then quietInReset b else s.driven b

end Sys2Proof.Machine
end

