-- ==== Sys2Proof/WellFormed.lean ====
section
/-! DEFINITION. Well-formed commands: every unit, channel, address and domain that a command names exists on the device (R7, R10, R57,
R205, R268, R321). A command that is not well formed is no command of this hardware; its meaning stops by name. -/

namespace Sys2Proof

/-- gPTP domains are 0 and 2 (R40): the unit that a domain number names. -/
def domUnit (d : Nat) : Nat × Nat := (if d = 0 ∨ d = 2 then 0 else 1, 1)

/-- The words of the Host Window and the control page that a list of accesses names (R10, R493). -/
def windowUnits (as : List (Option WordAcc)) : List (Nat × Nat) :=
  as.filterMap fun a => a.map fun x => (x.word, 0x44000)

/-- The unit that an initiator of Sound Store accesses is: a Course's array, a voice core, a service core (R10, R323). -/
def whoUnits (who : Initiator) : List (Nat × Nat) :=
  match who with
  | .array c => [(c, 8)]
  | .core k => [(k, 64)]
  | .service n => [(n, 4)]
  | .copy _ => []
  | .conductor => []
  | .host => []
  | .test => []
  | .vault => []

/-- The set of work registers that a register space names (R260). -/
def workUnit (sp : RegSpace) : List (Nat × Nat) := match sp with | .work n => [(n, 6)] | .host => [] | .inner => []

/-- The units that a command names: each a number and how many of the kind the device has. -/
def Instr.units (i : Instr) : List (Nat × Nat) :=
  match i with
  | .timeGet e => [(e.ch, 16)]
  | .timeRateSet e => [(e.ch, 16)]
  | .rateChangeComplete => []
  | .timeClockSelect e => [(e.ch, 16)]
  | .timeDomainSet e => [(e.ch, 16)]
  | .sysNop e => [(e.ch, 16)]
  | .configCommit e => [(e.ch, 16)]
  | .configDiscard e => [(e.ch, 16)]
  | .configEpoch e => [(e.ch, 16)]
  | .journalQuery e => [(e.ch, 16)]
  | .commandDesync e => [(e.ch, 16)]
  | .responseReleased ch => [(ch, 16)]
  | .voiceStart e => [(e.ch, 16)]
  | .voiceRelease e => [(e.ch, 16)]
  | .voiceEnd e => [(e.ch, 16)]
  | .voiceQuery e => [(e.ch, 16)]
  | .partCounters e => [(e.ch, 16)]
  | .placeLoad e => [(e.ch, 16)]
  | .decimSet e => [(e.ch, 16)]
  | .decimStatus e => [(e.ch, 16)]
  | .paramSet e => [(e.ch, 16)]
  | .paramGet e => [(e.ch, 16)]
  | .envWrite e => [(e.ch, 16)]
  | .coefLoad e => [(e.ch, 16)]
  | .coefSwap e => [(e.ch, 16)]
  | .coefStatus e => [(e.ch, 16)]
  | .swapScarfEnd bank => [(bank, 64)]
  | .vprogLoad e => [(e.ch, 16)]
  | .dispatchSet e => [(e.ch, 16)]
  | .dispatchStatus e => [(e.ch, 16)]
  | .traceSet e => [(e.ch, 16)]
  | .traceStatus e => [(e.ch, 16)]
  | .bayForm e => [(e.ch, 16)]
  | .bayMode e => [(e.ch, 16)]
  | .bayModeDrainEnd bay => [(bay, 8)]
  | .bayStatus e => [(e.ch, 16)]
  | .bayRecover e => [(e.ch, 16)]
  | .condSwitch e => [(e.ch, 16)]
  | .plannedSwitch => []
  | .fwUpdate e => [(e.ch, 16)]
  | .sessionList e => [(e.ch, 16)]
  | .sessionQuery e => [(e.ch, 16)]
  | .sessionSet e => [(e.ch, 16)]
  | .sessionClose e => [(e.ch, 16)]
  | .eventSend e => [(e.ch, 16)]
  | .bankGive e => [(e.ch, 16)]
  | .bankStatus e => [(e.ch, 16)]
  | .hwRegionSet e => [(e.ch, 16)]
  | .contentPin e => [(e.ch, 16)]
  | .routeSet e => [(e.ch, 16)]
  | .tdmSet e => [(e.ch, 16)]
  | .audioClockSet e => [(e.ch, 16)]
  | .streamSet e => [(e.ch, 16)]
  | .renderSet e => [(e.ch, 16)]
  | .audioStatus e => [(e.ch, 16)]
  | .dacSet e => [(e.ch, 16)]
  | .dacWrite e => [(e.ch, 16)]
  | .dacStatus e => [(e.ch, 16)]
  | .uartSet e => [(e.ch, 16)]
  | .uartSend e => [(e.ch, 16)]
  | .uartRecv e => [(e.ch, 16)]
  | .timerSet e => [(e.ch, 16)]
  | .timerRead e => [(e.ch, 16)]
  | .pkgWrite e => [(e.ch, 16)]
  | .pkgCommit e => [(e.ch, 16)]
  | .pkgDrop e => [(e.ch, 16)]
  | .vaultStatus e => [(e.ch, 16)]
  | .vaultKeyWrap e => [(e.ch, 16)]
  | .vaultKeyLoad e => [(e.ch, 16)]
  | .tamperSet e => [(e.ch, 16)]
  | .tamperClear e => [(e.ch, 16)]
  | .lifeAdvance e => [(e.ch, 16)]
  | .healthStatus e => [(e.ch, 16)]
  | .healthLedger e => [(e.ch, 16)]
  | .healthSet e => [(e.ch, 16)]
  | .sysReset e => [(e.ch, 16)]
  | .sysPower e => [(e.ch, 16)]
  | .registerWrite sp _ _ => workUnit sp
  | .hwDbCmd _ => []
  | .hwMbxReset _ => []
  | .tmDtimeLo => []
  | .setAliasWrite who bank word _ _ => [(bank, 64), (word, 65536)] ++ whoUnits who
  | .clearAliasWrite who bank word _ _ => [(bank, 64), (word, 65536)] ++ whoUnits who
  | .soundStoreAccess bank reqs => [(bank, 64)] ++ (reqs.map fun r => (r.acc.word, 65536)) ++ (reqs.flatMap fun r => whoUnits r.who)
  | .hostWindowAccess inner outer => windowUnits [inner, outer]
  | .lowerHalfRead word inner => [(word, 0x44000)] ++ windowUnits [inner]
  | .upperHalfRead => []
  | .lowerHalfWrite word _ => [(word, 0x44000)]
  | .upperHalfWrite word _ inner => [(word, 0x44000)] ++ windowUnits [inner]
  | .qspiRead word n inner => [(n - 1, if n = 0 then 0 else 64), (word + n - 1, 0x44000)] ++ windowUnits (inner.map some)
  | .qspiWrite word ws inner => [(ws.length - 1, if ws = [] then 0 else 64), (word + ws.length - 1, 0x44000)] ++ windowUnits (inner.map some)
  | .qspiUnknownCommand _ => []
  | .uartHold u => [(u, 8)]
  | .tmrCapq _ t => [(t, 16)]
  | .dspAsk who => [(who, 6)]
  | .dspPostGo who => [(who, 6)]
  | .stallTimeout who => [(who, 6)]
  | .dspFlag who _ => [(who, 6)]
  | .sysBootCtl _ => []
  | .hold k _ => [(k, 64)]
  | .add k _ _ _ => [(k, 64)]
  | .sub k _ _ _ => [(k, 64)]
  | .cmp k _ _ _ => [(k, 64)]
  | .neg k _ _ _ => [(k, 64)]
  | .abs k _ _ _ => [(k, 64)]
  | .clr k _ _ _ => [(k, 64)]
  | .copy k _ _ _ => [(k, 64)]
  | .andW k _ _ _ => [(k, 64)]
  | .orW k _ _ _ => [(k, 64)]
  | .xorW k _ _ _ => [(k, 64)]
  | .shl1 k _ _ _ => [(k, 64)]
  | .shr1 k _ _ _ => [(k, 64)]
  | .rndf k _ _ _ => [(k, 64)]
  | .satf k _ _ _ => [(k, 64)]
  | .mac k _ _ _ _ _ => [(k, 64)]
  | .mul k _ _ _ _ _ => [(k, 64)]
  | .qmac k _ _ _ _ _ => [(k, 64)]
  | .qmacx k _ _ _ _ _ => [(k, 64)]
  | .xmac k _ _ _ => [(k, 64)]
  | .min k _ _ _ => [(k, 64)]
  | .max k _ _ _ => [(k, 64)]
  | .minuw k _ _ _ => [(k, 64)]
  | .maxuw k _ _ _ => [(k, 64)]
  | .addc k _ _ => [(k, 64)]
  | .subc k _ _ => [(k, 64)]
  | .mulsu k _ _ _ => [(k, 64)]
  | .muluu k _ _ _ => [(k, 64)]
  | .move k _ _ => [(k, 64)]
  | .ldk k _ _ => [(k, 64)]
  | .movm k _ _ _ _ => [(k, 64)]
  | .nop k => [(k, 64)]
  | .endTask k => [(k, 64)]
  | .fwait k => [(k, 64)]
  | .jmp k _ => [(k, 64)]
  | .call k _ => [(k, 64)]
  | .ret k => [(k, 64)]
  | .brCc k _ _ => [(k, 64)]
  | .loop k _ _ => [(k, 64)]
  | .loopv k _ _ => [(k, 64)]
  | .leave k => [(k, 64)]
  | .rpt k _ => [(k, 64)]
  | .fetch k _ _ _ _ => [(k, 64)]
  | .fetchComplete k _ => [(k, 64)]
  | .fifthFetchStart k => [(k, 64)]
  | .padd k _ _ => [(k, 64)]
  | .sra k _ _ => [(k, 64)]
  | .sla k _ _ => [(k, 64)]
  | .srl k _ _ => [(k, 64)]
  | .cls k _ => [(k, 64)]
  | .dstep k _ _ => [(k, 64)]
  | .clrcnt k => [(k, 64)]
  | .reservedEncoding k => [(k, 64)]
  | .taskDispatch k => [(k, 64)]
  | .preemption k => [(k, 64)]
  | .localMemoryError k m addr _ => [(k, 64), (addr, if m = .prog then 0x2000 else 0x4000)]
  | .frameTick _ _ _ => []
  | .watchdogTakeover => []
  | .conductorFailover => []
  | .conductorRestart => []
  | .takeControlBack => []
  | .oscillatorBlockFlag course pos => [(course, 8), (pos, 128)]
  | .decimatedBlockFlag course pos => [(course, 8), (pos, 128)]
  | .inputBufferCopy slot => [(slot, 8192)]
  | .onset slot => [(slot, 8192)]
  | .envelopeSegmentEnd slot env => [(slot, 8192), (env, 6)]
  | .scarfEnd slot => [(slot, 8192)]
  | .quarantineEnd slot => [(slot, 8192)]
  | .groupRelease g => [(g, 256)]
  | .templateResident k template => [(k, 64), (template, 256)]
  | .contentResident bay _ => [(bay, 8)]
  | .promotion => []
  | .kerfStart => []
  | .frameCheck bay _ => [(bay, 8)]
  | .frameCheckDecision bay => [(bay, 8)]
  | .outputPathFault bay => [(bay, 8)]
  | .residueCheckFailure course lane => [(course, 8), (lane, 12)]
  | .resynchronisationEnd bay => [(bay, 8)]
  | .selfTestEnd bay _ _ => [(bay, 8)]
  | .returnHome bay => [(bay, 8)]
  | .renderFrameStart bay => [(bay, 8)]
  | .renderFrameEnd bay => [(bay, 8)]
  | .networkMidiPacket sid _ _ _ => [(sid, 256)]
  | .invitation port _ _ => [(port, 2)]
  | .bye sid => [(sid, 256)]
  | .jrClock sid _ _ => [(sid, 256)]
  | .endpointDiscovery sid => [(sid, 256)]
  | .streamConfigurationRequest sid _ => [(sid, 256)]
  | .functionBlockDiscovery sid => [(sid, 256)]
  | .ping sid => [(sid, 256)]
  | .keepaliveTimeout sid => [(sid, 256)]
  | .intakeFifoExit => []
  | .uartCharacterComplete u _ _ _ _ => [(u, 8)]
  | .rawCharacterTaken u => [(u, 8)]
  | .uartStampedSend _ => []
  | .gptpEventMessage dom port _ _ => [domUnit dom, (port, 2)]
  | .domainLock dom _ _ => [domUnit dom]
  | .domainUnlock dom => [domUnit dom]
  | .rampEnd => []
  | .frameLaunch port _ => [(port, 2)]
  | .listenerPacket t _ _ _ _ _ => [(t, 32)]
  | .acmpConnect t _ => [(t, 32)]
  | .acmpDisconnect t => [(t, 32)]
  | .entityAvailable _ => []
  | .readDescriptor _ _ _ => []
  | .acquireEntity _ _ => []
  | .lockEntity _ _ => []
  | .getStreamFormat _ t => [(t, 32)]
  | .setStreamFormat _ t _ => [(t, 32)]
  | .getStreamInfo _ t => [(t, 32)]
  | .getCounters _ t => [(t, 32)]
  | .listenerReady t => [(t, 32)]
  | .referenceLost => []
  | .referenceReturn => []
  | .bankRetention b => [(b, 64)]
  | .bankWake b => [(b, 64)]
  | .zeroiseDone b => [(b, 64)]
  | .cvWriteEffect => []
  | .dacShort d => [(d, 32)]
  | .shortToFault d => [(d, 32)]
  | .vddaDacLow => []
  | .dacClockAbsent => []
  | .rampComplete d => [(d, 32)]
  | .settleEnd d => [(d, 32)]
  | .recalibrationPass d => [(d, 32)]
  | .periodEvent t => [(t, 16)]
  | .capture t _ => [(t, 16)]
  | .healthPeriodEnd _ _ _ _ => []
  | .pmbusRetry _ => []
  | .courseClockAlarm alarm => [(alarm.course, 8)]
  | .courseSupplyAlarm course => [(course, 8)]
  | .ledgerWrite => []
  | .serviceCycle course _ => [(course, 8)]
  | .stale course => [(course, 8)]
  | .vmaxStep => []
  | .tamperRaised _ _ _ => []
  | .powerOnReset => []
  | .porN _ => []
  | .wrstN _ => []
  | .deviceWatchdog => []
  | .pcieHotReset => []
  | .bootPhase _ => []
  | .ready => []
  | .wake _ _ => []
  | .stepEffectsComplete _ _ _ => []
  | .standbyReady => []
  | .restartAloneDone => []
  | .plannedSwitchTimeout => []
  | .audioPllLock => []
  | .startBit u => [(u, 8)]
  | .receiverReturnsToIdle u => [(u, 8)]
  | .lineIdleTenBitTimes u => [(u, 8)]
  | .uartCharacterSent u => [(u, 8)]
  | .dacShortEnd d => [(d, 32)]
  | .tamperSourceInactive source => [(source, 6)]
  | .listenerReadyWithdrawn t => [(t, 32)]
  | .acmpGetState t => [(t, 32)]
  | .adpDiscover => []
  | .announce dom _ => [domUnit dom]
  | .followUp dom _ => [domUnit dom]
  | .pdelayRespFollowUp dom _ => [domUnit dom]
  | .signaling dom _ => [domUnit dom]
  | .peerDelayInterval dom => [domUnit dom]

/-- Every unit that the command names exists. -/
def Instr.wf (i : Instr) : Bool := i.units.all fun u => decide (u.1 < u.2)

end Sys2Proof
end

