-- ==== Sys2Proof/Safety.lean ====
section
/-! DEFINITION. What counts as a safe run, in the terms the statements use: the canonical form of the memories, when a mailbox command is
taken and carried out, when a voice core issues an instruction, and what a meaning leaves as it was. -/

namespace Sys2Proof.Machine

-- memories ---------------------------------------------------------------------------------------------------------------------

/-- Every sparse memory of the state is in its canonical form: the Sound Store, the Host Window, the working area of the Vault, the private memories
of the Conductors and service cores, and the local memories of every listed core. -/
def State.memWf (s : State) : Bool :=
  Mem.wf s.mem.store && Mem.wf s.mem.win && Mem.wf s.vault.work && (s.dsp.sc.all fun p => Mem.wf p.2.priv) && s.cores.all fun p => Mem.wf p.2.x && Mem.wf p.2.y && Mem.wf p.2.prog

-- mailbox commands (R58, R66 to R72) ---------------------------------------------------------------------------------------------

/-- The Conductor takes the entry `e` of card `c` at once and admits it: it serves, the ring held nothing, the entry can be framed, its
version and sequence are right, and a journal slot is free (R58, R66 to R71, R74, R85). -/
structure Taken (c : Card) (e : Entry) (s : State) : Prop where
  channel : e.ch < 16
  serves : s.serving = true
  empty : (s.chan e.ch).cmdPi = (s.chan e.ch).cmdCi
  framed : entryLen e ≤ 1024
  version : e.version = 1
  sequence : (s.chan e.ch).seqFree = true ∨ e.seq = (s.chan e.ch).expectSeq
  journal : journalFull s = false

/-- The state in which an admitted entry is validated: it stands in the ring, the consumer index is past it, and its sequence is consumed
(R58, R68, R72). -/
def entered (c : Card) (e : Entry) (s : State) : State :=
  let s1 := advanceCi e (hostPut c.opcode e s)
  consumeSeq e { s1 with mbx := { s1.mbx with lastServed := e.ch } }

/-- The state in which a command that passed every check is carried out: a stamped one has opened its session and counted its lateness
(R34, R36). -/
def begun (c : Card) (e : Entry) (s : State) : State := stampAdmit c e (entered c e s)

/-- The Conductor takes the entry, and every check of the table Validation order passes (R70). -/
structure Accepted (c : Card) (e : Entry) (s : State) : Prop where
  taken : Taken c e s
  checks : validate c e (entered c e s) = none

/-- The journal entry that a command creates at validation (R85, R86). -/
def newEntry (op : Nat) (e : Entry) (st : JState) (status : Status) (steps : Nat) (s : State) : JEntry :=
  { idx := s.mbx.nextJ, ch := e.ch, seq := e.seq, opcode := BitVec.ofNat 12 op, target := e.target, stage := e.stage,
    stamped := e.stamped, quiet := e.quiet, st := st, steps := BitVec.ofNat 8 steps, status := status,
    frame := s.time.frameCount.setWidth 32, epoch := s.mbx.epoch, owed := st != .done }

/-- The command is carried out at validation on `b`: a DONE entry, DONE answered with the result words `ws` (R75, R86). -/
def DoneNow (i : Instr) (s : State) (op : Nat) (e : Entry) (ws : List Word) (b : State) : Prop :=
  exec i s = .next (finishNow op e ws b)

/-- The command waits: QUEUED in the journal, a job for the next boundary, and nothing answered yet (R75, R78, R86). -/
def WaitsBoundary (i : Instr) (s : State) (op : Nat) (e : Entry) (bay : Nat) (b : State) : Prop :=
  exec i s = .next (queueBoundary op e { bay := bay } b)

/-- The command joins the staged set with the fields `fs`: STAGED is answered (R75, R80). -/
def JoinsStage (i : Instr) (s : State) (op : Nat) (e : Entry) (fs : List Staged) (b : State) : Prop :=
  exec i s = .next (stageFields op e fs b)

/-- The command starts as a stepped one of `n` steps, `finalAt` the first final one: ACCEPTED is answered (R76, R77). -/
def StartsSteps (i : Instr) (s : State) (op : Nat) (e : Entry) (n finalAt : Nat) (undo : List Word) (b : State) : Prop :=
  exec i s = .next (startStepped op e n finalAt undo b)

-- voice cores ---------------------------------------------------------------------------------------------------------------------

/-- Core `k` issues its next instruction once: it exists, waits for no fetch, no RPT stands before it, and it holds no request for a preemption,
which would be taken up after the instruction (R216, R223, R230). -/
structure Issues (s : State) (k : Nat) : Prop where
  exists_ : k < 64
  runs : (s.core k).waits = false
  once : (s.core k).cur.rpt = none
  noReq : (s.core k).preemptReq = false

/-- The register set of core `k` in use (R209, R230). -/
def State.regs (s : State) (k : Nat) : RegSet := (s.core k).cur

/-- CSR as an instruction of core `k` sees it, after a late write of the instruction before (R226). -/
def State.csrSeen (s : State) (k : Nat) : Word24 := (s.regs k).csrOld.getD (s.regs k).csr

/-- Nothing but core `k` differs between `s` and `t`. -/
def OnlyCore (k : Nat) (s t : State) : Prop := t = s.setCore k (t.core k)

/-- The instruction completes on core `k` and leaves the accumulators as `w` says; nothing else of the machine but the core changes. -/
def LeavesAccs (i : Instr) (k : Nat) (s : State) (w : Nat → Acc) : Prop :=
  ∃ t, exec i s = .next t ∧ OnlyCore k s t ∧ ∀ d, d < 4 → (t.regs k).wr d = w d

/-- One accumulator takes a value, the others stay. -/
def oneAcc (r : RegSet) (wd : BitVec 2) (x : Acc) (d : Nat) : Acc := if d = wd.toNat then x else r.wr d

/-- The flag bits of CSR that results set: CY, ZR, NEG, XU (R211). -/
def RegSet.flag (r : RegSet) (n : Nat) : Bool := r.csr.getLsbD n

/-- NEG, ZR and XU stand as the accumulator value `x` gives them (R216). -/
def FlagsOf (x : Acc) (r : RegSet) : Prop :=
  r.flag csrNEG = x.msb ∧ r.flag csrZR = decide (x = 0) ∧ r.flag csrXU = decide ((x.setWidth 48).signExtend 56 ≠ x)

/-- The instruction completes: NEG, ZR and XU come from `x`, CY and WRAP stand as named (R210, R211, R216). -/
def SetsFlags (i : Instr) (k : Nat) (s : State) (x : Acc) (cy wrap : Bool) : Prop :=
  ∃ t, exec i s = .next t ∧ FlagsOf x (t.regs k) ∧ (t.regs k).flag csrCY = cy ∧ (t.regs k).flag csrWRAP = wrap

/-- A search instruction completes: `v` against Wd, `hit` when it is strictly better (R221). -/
def Searches (i : Instr) (k : Nat) (wd : BitVec 2) (s : State) (v : Acc) (hit : Bool) : Prop :=
  ∃ t, exec i s = .next t ∧ OnlyCore k s t ∧
    (∀ d, d < 4 → (t.regs k).wr d = oneAcc (s.regs k) wd (if hit then v else (s.regs k).wr wd.toNat) d) ∧
    (∀ d, d < 4 → (t.regs k).ix.look d 0 = if hit ∧ d = wd.toNat then (s.regs k).ecnt else (s.regs k).ix.look d 0) ∧
    (t.regs k).flag csrCY = hit ∧ (t.regs k).ecnt = (s.regs k).ecnt + 1

/-- Operand b of an arithmetic instruction (R216): W(d XOR 1), or U0 in the place of the F view. -/
def arithOperand (r : RegSet) (wd : BitVec 2) (src : ArithSrc) : Acc :=
  match src with
  | .pairW => r.wr (wd ^^^ 1).toNat
  | .u0 => (r.ur 0 ++ (0 : BitVec 24)).signExtend 56

/-- Wd saturated to the range of the F view (R216; the value below the top one is DEDUCED, log entry 20). -/
def saturated (a : Acc) : Acc :=
  if (a.setWidth 48).signExtend 56 = a then a else if a.msb then 0xFF800000000000 else 0x007FFFFFFFFFFF

/-- A multiplier's product (R215): exact, shifted left by PSH, as 56 bits. -/
def shiftedProduct (psh : Nat) (u v : Word24) : Acc := (u.signExtend 56 * v.signExtend 56) <<< psh

/-- An accumulator after a multiply: added or subtracted, or replaced when Z is 1 (R215). -/
def macced (z sign : Bool) (a p : Acc) : Acc := (if z then 0 else a) + (if sign then -p else p)

/-- What an instruction sees of the hazards of the one before (R226). -/
def State.view (s : State) (k : Nat) : View :=
  { ag := (s.regs k).agOld.getD (s.regs k).ptrs, csr := s.csrSeen k, st := (s.regs k).stOld, spf := samplesPerFrame s.time.rate }

/-- The instruction completes on core `k`, changes nothing of the machine but that core, and leaves its registers as `P` says. -/
def CoreDoes (i : Instr) (k : Nat) (s : State) (P : RegSet → Prop) : Prop := ∃ t, exec i s = .next t ∧ OnlyCore k s t ∧ P (t.regs k)

/-- The registers that software reads stand the same in two sets (R209). -/
structure SameRegs (r q : RegSet) : Prop where
  u : q.u = r.u
  v : q.v = r.v
  w : q.w = r.w
  p : q.p = r.p
  n : q.n = r.n
  st : q.st = r.st
  en : q.en = r.en
  ix : q.ix = r.ix
  ecnt : q.ecnt = r.ecnt
  csr : q.csr = r.csr

/-- A core that issues, outside delay slots and the last two words of a running loop's body (R224, R226). -/
structure Flows (s : State) (k : Nat) : Prop where
  issues : Issues s k
  noSlot : (s.regs k).delay = none
  noEnd : (s.regs k).bodyEnd = false

/-- Where the PC stands after an instruction of `len` words outside delay slots: the next word, or the start of a loop body whose last
word was passed with iterations left (R224). -/
def nextPc (r : RegSet) (len : Nat) : BitVec 13 := (loopBack (r.pc + BitVec.ofNat 13 len - 1) (r.pc + BitVec.ofNat 13 len) r.loops).1


-- the mailbox rows -----------------------------------------------------------------------------------------------------------------

/-- The mailbox command rows of the table, with their cards (R9, R66). -/
def mailboxRows : List ((Entry → Instr) × Card) :=
  [(.timeGet, cardTimeGet), (.timeRateSet, cardTimeRateSet), (.timeClockSelect, cardTimeClockSelect), (.timeDomainSet, cardTimeDomainSet),
   (.sysNop, cardSysNop), (.configCommit, cardConfigCommit), (.configDiscard, cardConfigDiscard), (.configEpoch, cardConfigEpoch),
   (.journalQuery, cardJournalQuery), (.voiceStart, cardVoiceStart), (.voiceRelease, cardVoiceRelease), (.voiceEnd, cardVoiceEnd),
   (.voiceQuery, cardVoiceQuery), (.partCounters, cardPartCounters), (.placeLoad, cardPlaceLoad), (.decimSet, cardDecimSet),
   (.decimStatus, cardDecimStatus), (.paramSet, cardParamSet), (.paramGet, cardParamGet), (.envWrite, cardEnvWrite),
   (.coefLoad, cardCoefLoad), (.coefSwap, cardCoefSwap), (.coefStatus, cardCoefStatus), (.vprogLoad, cardVprogLoad),
   (.dispatchSet, cardDispatchSet), (.dispatchStatus, cardDispatchStatus), (.traceSet, cardTraceSet), (.traceStatus, cardTraceStatus),
   (.bayForm, cardBayForm), (.bayMode, cardBayMode), (.bayStatus, cardBayStatus), (.bayRecover, cardBayRecover),
   (.condSwitch, cardCondSwitch), (.fwUpdate, cardFwUpdate), (.sessionList, cardSessionList), (.sessionQuery, cardSessionQuery),
   (.sessionSet, cardSessionSet), (.sessionClose, cardSessionClose), (.eventSend, cardEventSend), (.bankGive, cardBankGive),
   (.bankStatus, cardBankStatus), (.hwRegionSet, cardHwRegionSet), (.contentPin, cardContentPin), (.routeSet, cardRouteSet),
   (.tdmSet, cardTdmSet), (.audioClockSet, cardAudioClockSet), (.streamSet, cardStreamSet), (.renderSet, cardRenderSet),
   (.audioStatus, cardAudioStatus), (.dacSet, cardDacSet), (.dacWrite, cardDacWrite), (.dacStatus, cardDacStatus), (.uartSet, cardUartSet),
   (.uartSend, cardUartSend), (.uartRecv, cardUartRecv), (.timerSet, cardTimerSet), (.timerRead, cardTimerRead), (.pkgWrite, cardPkgWrite),
   (.pkgCommit, cardPkgCommit), (.pkgDrop, cardPkgDrop), (.vaultStatus, cardVaultStatus), (.vaultKeyWrap, cardKeyWrap),
   (.vaultKeyLoad, cardKeyLoad), (.tamperSet, cardTamperSet), (.tamperClear, cardTamperClear), (.lifeAdvance, cardLifeAdvance),
   (.healthStatus, cardHealthStatus), (.healthLedger, cardHealthLedger), (.healthSet, cardHealthSet), (.sysReset, cardSysReset),
   (.sysPower, cardSysPower)]

/-- The entry stands at the head of its ring, framed, and the Conductor serves: it reads the entry at once (R58, R71, R72). -/
structure Reads (e : Entry) (s : State) : Prop where
  channel : e.ch < 16
  serves : s.serving = true
  empty : (s.chan e.ch).cmdPi = (s.chan e.ch).cmdCi
  framed : entryLen e ≤ 1024

/-- The state in which a read entry is judged: it stands in the ring, and the consumer index is past it (R58, R72). -/
def readAt (c : Card) (e : Entry) (s : State) : State :=
  let s1 := advanceCi e (hostPut c.opcode e s)
  { s1 with mbx := { s1.mbx with lastServed := e.ch } }

/-- Word `i` of the command ring of channel `ch` (R57, R58). -/
def State.cmdWord (s : State) (ch i : Nat) : Word := Mem.word s.mem.win (cmdRingWord ch i)

/-- Word `i` of the response ring of channel `ch` (R57, R58). -/
def State.rspWord (s : State) (ch i : Nat) : Word := Mem.word s.mem.win (rspRingWord ch i)

/-- The response `r` stands in the ring of channel `ch` at the producer index that `s` held; the index is past it and the channel's bit of
HW_DB_RSP is set (R58, R63, R67). -/
structure Answered (ch : Nat) (r : Resp) (s t : State) : Prop where
  words : ∀ i w, (respWords r)[i]? = some w → t.rspWord ch ((s.chan ch).rspPi.toNat + i) = w
  index : (t.chan ch).rspPi = (s.chan ch).rspPi + BitVec.ofNat 11 (respWords r).length
  bell : t.mbx.dbRsp.getLsbD ch = true

/-- Nothing but the mailbox, the Host Window and what the device sends out differs (R58, R63). -/
def OnlyMailbox (s t : State) : Prop := t = { s with mbx := t.mbx, mem := { s.mem with win := t.mem.win }, out := t.out }

/-- An unsuppressed answer finds room: no response waits, and the ring has space for it (R64, R66). -/
structure HasRoom (e : Entry) (st : Status) (ws : List Word) (s : State) : Prop where
  loud : e.quiet = true → 2 < st.toNat
  first : (s.chan e.ch).held = []
  room : 2 + ws.length ≤ ringFree (s.chan e.ch).rspPi (s.chan e.ch).rspCi
  win : Mem.wf s.mem.win = true
  channel : e.ch < 16

/-- The command is carried out at validation (R75, R86): DONE with the result words `ws`, on the state that `f` leaves. -/
def Completes (i : Entry → Instr) (c : Card) (ws : Entry → State → List Word) (f : Entry → State → State) : Prop :=
  ∀ e s, Accepted c e s → DoneNow (i e) s c.opcode e (ws e (begun c e s)) (f e (begun c e s))

/-- The command waits for the next device frame boundary (R75, R86): QUEUED, one job more, nothing answered yet. -/
def Waits (i : Entry → Instr) (c : Card) (bay : Entry → Nat) : Prop :=
  ∀ e s, Accepted c e s → WaitsBoundary (i e) s c.opcode e (bay e) (begun c e s)

/-- What a waiting command does at the boundary, with its result words (R75). -/
def ActsAtBoundary (c : Card) (f : Entry → State → State × List Word) : Prop :=
  ∀ (jb : Job) (s : State), jb.opcode = c.opcode → boundaryEffect jb s = some (f jb.e s)
end Sys2Proof.Machine
end

