-- ==== Sys2Proof/Certificates/Slice0/Obligations.lean ====
section
/-! DEFINITION. The statements for the provers. -/

open Sys2Proof Sys2Proof.Machine

-- the block as a whole ----------------------------------------------------------------------------------------------------
/-- The machine right after reset (R2, R28, R64, R90, R257, R268, R327, R466, R473): B0 holds C0 to C7 in LOAD and no other Bay is formed; the banks
have their owners and none is secure or protected; the time counters are 0 and no tick runs; every channel takes its first sequence as given; the
journal, the staged set and the queues are empty, BACKPRESSURE is off, and every memory is in its canonical form. -/
def Obligations.StateAfterReset : Prop :=
  let s := State.reset
  s.memWf = true ∧ s.pending = [] ∧ s.serving = false ∧ s.inReset = false ∧ s.power.phase = 0 ∧
  s.time.deviceTime = 0 ∧ s.time.frameCount = 0 ∧ s.time.stamp = 0 ∧ s.time.ticking = false ∧
  (s.bay 0).count = 8 ∧ (s.bay 0).first = 0 ∧ (s.bay 0).mode = .load ∧ (∀ b, b ≠ 0 → s.formed b = false) ∧
  (∀ b, b < 56 → (s.bank b).owner = 0) ∧ (∀ n, n < 4 → (s.bank (56 + n)).owner = BitVec.ofNat 4 (8 + n)) ∧
  (s.bank 60).owner = 0xC ∧ (s.bank 61).owner = 0xC ∧ (s.bank 62).owner = 0xD ∧ (s.bank 63).owner = 0xD ∧
  (∀ b, b < 64 → (s.bank b).prot = false ∧ (s.bank b).state = 0) ∧
  (∀ n, n < 16 → (s.chan n).seqFree = true ∧ (s.chan n).cmdPi = 0 ∧ (s.chan n).cmdCi = 0 ∧ (s.chan n).rspPi = 0 ∧ (s.chan n).rspCi = 0) ∧
  s.mbx.journal = [] ∧ s.mbx.nextJ = 1 ∧ s.mbx.staged = [] ∧ s.mbx.dbRsp = 0 ∧ s.dsp.backpressure = false ∧
  (∀ q, s.queue q = []) ∧ (∀ i, (s.session i).isOpen = false) ∧ (∀ d, (s.dacCh d).state = dacHiz)

/-- A step runs the command at the front of the queue on the state with the queue's rest; on an empty queue one clk passes (the model's choice, log
entry 1). -/
def Obligations.StepRunsTheFrontCommand : Prop :=
  (∀ (c : Instr) (rest : List Instr) (s : State), step { s with pending := c :: rest } = exec c { s with pending := rest }) ∧
  ∀ s : State, s.pending = [] → step s = .next (idle s) ∧ (s.power.resetDue = false → (idle s).mbx = s.mbx ∧ (idle s).mem = { s.mem with bsyN := true })

/-- Every command that names units, channels, addresses and domains of this device completes, in every state; one that names another is no command of
this hardware and stops by name (R7, R10, R57, R205, R268, R321). -/
def Obligations.CommandsOfTheDeviceComplete : Prop :=
  ∀ (i : Instr) (s : State),
    (i.wf = true → ∃ t, exec i s = .next t) ∧
    (i.wf = false → exec i s = .refused .noSuchUnit ∨ exec i s = .fault .noSuchAddress)

/-- Instruction words written out from the tables Instruction formats and Operations, one or more of each class (R213 to R216). -/
def Obligations.WrittenWordsDecode : Prop :=
  let none_ : Ports := { x := { op := .none, reg := 0, ptr := 0 }, y := { op := .none, reg := 0, ptr := 0 } }
  decodeCore 3 0xC00000 0 = .nop 3 ∧ decodeCore 0 0xC10000 0 = .endTask 0 ∧ decodeCore 5 0xC30123 0 = .jmp 5 0x123 ∧
  decodeCore 1 0xC61FFE 0 = .brCc 1 1 0xFFE ∧ decodeCore 1 0xC70301 0 = .loop 1 3 1 ∧ decodeCore 7 0x22C000 0 = .add 7 1 .u0 none_ ∧
  decodeCore 7 0x57C000 0 = .mul 7 2 true 1 3 none_ ∧ decodeCore 63 0x614000 0 = .qmac 63 false false 2 1 none_ ∧
  decodeCore 2 0x838000 0 = .min 2 3 2 none_ ∧ decodeCore 2 0xA40020 0x123456 = .ldk 2 0x10 0x123456 ∧ decodeCore 0 0x020018 0 = .sra 0 0 24 ∧
  decodeCore 4 0x201300 0 = .hold 4 { x := { op := .load, reg := 1, ptr := 2 }, y := { op := .none, reg := 0, ptr := 0 } } ∧
  decodeCore 9 0xE00000 0 = .reservedEncoding 9 ∧ decodeCore 9 0x3E0000 0 = .reservedEncoding 9

/-- Instruction words (R213 to R217): what the formats give for an instruction of a voice core, with every operand at every value, is decoded to that
instruction again; a load of a constant and an access to an address take the extension word. -/
def Obligations.InstructionWordsReadBack : Prop :=
  ∀ (i : Instr) (w : Word24) (x : Option Word24), encodeCore i = some (w, x) →
    decodeCore i.coreOf w (x.getD 0) = i ∧
    (x.isSome = true ↔ (∃ k d c, i = .ldk k d c) ∨ ∃ k r st y m, i = .movm k r st y m)

/-- The Conductor reads the entry that the host wrote (R57, R58, R66): in an empty ring, wherever its indices stand, a framed entry with an opcode of
12 bits is read back with every field of its header, its stamp and its payload. -/
def Obligations.EntriesReadBack : Prop :=
  ∀ (op : Nat) (e : Entry) (s : State), op < 4096 → e.ch < 16 → Mem.wf s.mem.win = true → (s.chan e.ch).cmdPi = (s.chan e.ch).cmdCi →
    entryLen e ≤ 1024 → (e.stamped = false → e.stamp = 0) → readEntry e.ch (hostPut op e s) = (op, e, true)

/-- A headline invariant: from every state whose memories are in canonical form, whatever command stands in front of the queue, a step leaves every
memory in canonical form: the Sound Store, the Host Window, the Vault's working area and the local memories of every core (R10, R206, R321, R437). -/
def Obligations.EveryStepKeepsTheMemoryForm : Prop :=
  ∀ s t : State, s.memWf = true → step s = .next t → t.memWf = true

/-- The memories stay in their canonical form, strictly rising addresses and no entry equal to what an unlisted address reads as, under every memory
access: aliases, Sound Store, Host Window (beyond it lie registers), halves, quad SPI, and the loads, stores and fetches of the voice cores (R10,
R206, R228, R321). -/
def Obligations.MemoriesKeepTheirForm : Prop :=
  ∀ (s t : State), s.memWf = true →
    (∀ who b w v st, exec (.setAliasWrite who b w v st) s = .next t → t.memWf = true) ∧
    (∀ who b w v st, exec (.clearAliasWrite who b w v st) s = .next t → t.memWf = true) ∧
    (∀ b rs, exec (.soundStoreAccess b rs) s = .next t → t.memWf = true) ∧
    (∀ i o, (∀ a : WordAcc, o = some a → a.word < 0x40000) → exec (.hostWindowAccess i o) s = .next t → t.memWf = true) ∧
    (∀ w i, exec (.lowerHalfRead w i) s = .next t → t.memWf = true) ∧ (∀ w v, exec (.lowerHalfWrite w v) s = .next t → t.memWf = true) ∧
    (∀ w v i, w < 0x40000 → exec (.upperHalfWrite w v i) s = .next t → t.memWf = true) ∧
    (∀ w n i, exec (.qspiRead w n i) s = .next t → t.memWf = true) ∧ (∀ w ws i, w + ws.length ≤ 0x40000 → exec (.qspiWrite w ws i) s = .next t → t.memWf = true) ∧
    (∀ k r st y m, exec (.movm k r st y m) s = .next t → t.memWf = true) ∧ (∀ k pt, exec (.hold k pt) s = .next t → t.memWf = true) ∧
    (∀ k d, exec (.fetchComplete k d) s = .next t → t.memWf = true)

-- mailbox -----------------------------------------------------------------------------------------------------------------
/-- SYS.NOP (R92) checks a channel end to end and changes nothing: its response is HW_COND_STATUS as read at validation and the configuration epoch; a
payload is E_LENGTH, a reserved header bit or a TARGET other than the device E_RANGE, STAGE or STAMPED E_CONFLICT. -/
def Obligations.SysNopChangesNothing : Prop :=
  ∀ (e : Entry) (s : State), Reads e s → e.version = 1 → ((s.chan e.ch).seqFree = true ∨ e.seq = (s.chan e.ch).expectSeq) →
    journalFull s = false →
    let b := entered cardSysNop e s
    OnlyMailbox s b ∧ b.mbx.journal = s.mbx.journal ∧ b.mbx.epoch = s.mbx.epoch ∧
    (e.payload ≠ [] → exec (.sysNop e) s = .next (answer e eLength 0 [] true b)) ∧
    (e.payload = [] → (e.rsv ≠ 0 ∨ e.target ≠ 0xFF) → exec (.sysNop e) s = .next (answer e eRange 0 [] true b)) ∧
    (e.payload = [] → e.rsv = 0 → e.target = 0xFF → (e.stage = true ∨ e.stamped = true) →
      exec (.sysNop e) s = .next (answer e eConflict 0 [] true b)) ∧
    (e.payload = [] → e.rsv = 0 → e.target = 0xFF → e.stage = false → e.stamped = false →
      exec (.sysNop e) s = .next (answer e stDone 0 [s.condStatus, s.mbx.epoch] true b))

/-- The table Validation order (R70): a mailbox command that the Conductor reads at once and whose every check passes is carried out as its card says,
from the state in which its entry is read and its sequence consumed. That a row writes the entry, rings, and is read at once in an empty ring is the
model's choice (log entry 2). The table Validation order (R70): the first check of steps 4 to 15 that fails gives the status. The command changes
nothing but what its card says of a refusal; a journalled one is DONE in the journal with that status (R86), one that is not journalled is answered
with index 0 (R91). -/
def Obligations.CommandsAreCarriedOutOrRefused : Prop :=
  -- CommandsCarriedOut
  (∀ p ∈ mailboxRows, ∀ (e : Entry) (s : State), Accepted p.2 e s → exec (p.1 e) s = .next (p.2.run e (begun p.2 e s))) ∧
  -- RefusedCommandsAnswer
  (∀ p ∈ mailboxRows, ∀ (e : Entry) (s : State) (f : Fail), Taken p.2 e s → validate p.2 e (entered p.2 e s) = some f →
      let b := p.2.onFail e f (entered p.2 e s)
      (p.2.journalled = true → exec (p.1 e) s = .next (rejectNow p.2.opcode e f b)) ∧
      (p.2.journalled = false → exec (p.1 e) s = .next (answer e f.1 0 f.2 true b)))

/-- Steps 1 and 2, the journal slot, and framing (R68, R70, R71, R85): another VERSION is E_OPCODE and a wrong sequence E_SEQUENCE with the expected
one and the last journal index, neither journalled nor consumed; a full journal is E_NOSLOT for any command, unjournalled and consumed; an entry that
cannot be framed is E_LENGTH, the ring is discarded, DESYNC and SEQ_FREE set. COMMAND_DESYNC does the last to a ring's entry. -/
def Obligations.AdmissionRefuses : Prop :=
  (∀ p ∈ mailboxRows, ∀ (e : Entry) (s : State), Reads e s →
    let b := readAt p.2 e s
    let seqOk := (s.chan e.ch).seqFree = true ∨ e.seq = (s.chan e.ch).expectSeq
    (e.version ≠ 1 → exec (p.1 e) s = .next (answer e eOpcode 0 [] true b)) ∧
    (e.version = 1 → ¬ seqOk →
      exec (p.1 e) s = .next (answer e eSequence 0 [(s.chan e.ch).expectSeq.setWidth 32, (s.chan e.ch).lastJ] true b)) ∧
    (e.version = 1 → seqOk → journalFull s = true →
      exec (p.1 e) s = .next (answer e eNoslot 0 [] true (consumeSeq e b)))) ∧
  (∀ p ∈ mailboxRows, ∀ (e : Entry) (s : State), e.ch < 16 → s.serving = true → (s.chan e.ch).cmdPi = (s.chan e.ch).cmdCi →
    1024 < entryLen e → exec (p.1 e) s = .next (desync e (hostPut p.2.opcode e s))) ∧
  ∀ (e : Entry) (s : State), e.ch < 16 → s.serving = true →
    ∃ t, exec (.commandDesync e) s = .next t ∧ (t.chan e.ch).cmdCi = (s.chan e.ch).cmdPi ∧ (t.chan e.ch).desync = true ∧
      (t.chan e.ch).seqFree = true ∧ t.mbx.journal = s.mbx.journal

/-- The command ring (R57, R58, R66, R68): the host writes the header and the payload at the producer index, wrapping past ring word 2,047, and
advances the index past them; every other byte of the Host Window stays. While no Conductor serves the entry stands there; behind others it rings, and
what is rung for is served in its order (R72); one that is taken leaves the ring empty and its sequence consumed. -/
def Obligations.EntriesStandInTheRing : Prop :=
  (∀ p ∈ mailboxRows, ∀ (e : Entry) (s : State), e.ch < 16 → s.hostOff = false → Mem.wf s.mem.win = true →
    entryLen e ≤ ringFree (s.chan e.ch).cmdPi (s.chan e.ch).cmdCi → s.serving = false →
    ∃ t, exec (p.1 e) s = .next t ∧ OnlyMailbox s t ∧
      (t.chan e.ch).cmdPi = (s.chan e.ch).cmdPi + BitVec.ofNat 11 (entryLen e) ∧ (t.chan e.ch).cmdCi = (s.chan e.ch).cmdCi ∧
      (∀ i w, (entryWords p.2.opcode e)[i]? = some w → t.cmdWord e.ch ((s.chan e.ch).cmdPi.toNat + i) = w) ∧
      (∀ a, (∀ i, i < entryLen e → a / 4 ≠ cmdRingWord e.ch ((s.chan e.ch).cmdPi.toNat + i)) → Mem.read t.mem.win a = Mem.read s.mem.win a)) ∧
  (∀ p ∈ mailboxRows, ∀ (e : Entry) (s : State), e.ch < 16 → s.serving = true → (s.chan e.ch).cmdPi ≠ (s.chan e.ch).cmdCi →
    exec (p.1 e) s = .next (serveRung (hostPut p.2.opcode e s))) ∧
  ∀ p ∈ mailboxRows, ∀ (e : Entry) (s : State), Taken p.2 e s →
    let b := entered p.2 e s
    (b.chan e.ch).cmdPi = (b.chan e.ch).cmdCi ∧ (b.chan e.ch).expectSeq = e.seq + 1 ∧ (b.chan e.ch).seqFree = false ∧
    b.mbx.lastServed = e.ch ∧ b.mbx.journal = s.mbx.journal ∧ OnlyMailbox s b

/-- What a command leaves in the journal and in the response ring when it completes at validation, is refused, starts as a stepped command, waits for
the boundary, or joins the staged set (R63, R67, R75, R76, R80, R85, R86): one entry in front of the last 4,095, and DONE, the status, ACCEPTED with
the step count, nothing yet, or STAGED. A response that finds no room is held with RSP_FULL set, behind those that wait; RESPONSE_RELEASED writes the
first held one once room has appeared, and RSP_FULL clears with the last (R64). -/
def Obligations.JournalEntriesAndAnswers : Prop :=
  -- JournalEntriesAndAnswers
  (∀ (op : Nat) (e : Entry) (s : State),
      let j := s.mbx.nextJ
      let kept := s.mbx.journal.take 4095
      let next := nextIndex j
      (∀ ws, HasRoom e stDone ws s → let t := finishNow op e ws s
        t.mbx.journal = newEntry op e .done stDone 0 s :: kept ∧ t.mbx.nextJ = next ∧
        Answered e.ch { status := stDone, seq := e.seq, jindex := j, words := ws } s t ∧ OnlyMailbox s t) ∧
      (∀ f, HasRoom e f.1 f.2 s → let t := rejectNow op e f s
        t.mbx.journal = newEntry op e .done f.1 0 s :: kept ∧ t.mbx.nextJ = next ∧
        Answered e.ch { status := f.1, seq := e.seq, jindex := j, words := f.2 } s t ∧ OnlyMailbox s t) ∧
      (∀ n final undo, HasRoom e stAccepted [BitVec.ofNat 32 n] s → let t := startStepped op e n final undo s
        t.mbx.journal = newEntry op e .step 0 n s :: kept ∧ t.mbx.nextJ = next ∧
        t.mbx.running = s.mbx.running ++ [{ j := j, opcode := op, e := e, n := n, finalAt := final, undo := undo }] ∧
        Answered e.ch { status := stAccepted, seq := e.seq, jindex := j, words := [BitVec.ofNat 32 n] } s t ∧ OnlyMailbox s t) ∧
      (∀ jb, let t := queueBoundary op e jb s
        t.mbx.journal = newEntry op e .queued 0 0 s :: kept ∧ t.mbx.nextJ = next ∧
        t.mbx.jobs = s.mbx.jobs ++ [{ jb with j := j, opcode := op, e := e, phase := .boundary }] ∧
        (t.chan e.ch).rspPi = (s.chan e.ch).rspPi ∧ (t.chan e.ch).held = (s.chan e.ch).held ∧ OnlyMailbox s t) ∧
      (∀ fs, HasRoom e stStaged [] s → let t := stageFields op e fs s
        (∃ x, t.mbx.journal.head? = some x ∧ x.idx = j ∧ x.st = .queued ∧ x.answered = true) ∧
        t.mbx.stagedCmds = s.mbx.stagedCmds ++ [j] ∧ t.mbx.nextJ = next ∧
        (∀ f ∈ fs, ∃ x ∈ t.mbx.staged, x.field = f.field ∧ x.j = j) ∧
        Answered e.ch { status := stStaged, seq := e.seq, jindex := j, words := [] } s t ∧ OnlyMailbox s t)) ∧
  -- ResponsesWaitForRoom
  (∀ (ch : Nat) (r : Resp) (s : State), ch < 16 →
      (((s.chan ch).held ≠ [] ∨ ringFree (s.chan ch).rspPi (s.chan ch).rspCi < (respWords r).length) →
        ((respond ch r s).chan ch).held = (s.chan ch).held ++ [r] ∧ ((respond ch r s).chan ch).rspFull = true ∧
        ((respond ch r s).chan ch).rspPi = (s.chan ch).rspPi ∧ (respond ch r s).mem = s.mem) ∧
      (∀ rest, s.serving = true → Mem.wf s.mem.win = true → (s.chan ch).held = r :: rest →
        (respWords r).length ≤ ringFree (s.chan ch).rspPi (s.chan ch).rspCi →
        ∃ t, exec (.responseReleased ch) s = .next t ∧ Answered ch r s t ∧ (t.chan ch).held = rest ∧
          (t.chan ch).rspFull = decide (rest ≠ []) ∧ OnlyMailbox s t))

/-- TIME.GET, TIME.CLOCK.SELECT, TIME.DOMAIN.SET and TIME.RATE.SET (R25, R43, R53 to R56, R84): a snapshot, whose bit 0 clears the launch counters; a
wait for the boundary, which writes COR and AUTO and starts the switch; nine staged fields; a tick that stands from validation on, and an epoch that
the HALTED field's write advances. SYS.NOP, CONFIG.EPOCH and JOURNAL.QUERY answer without a journal entry; CONFIG.COMMIT waits for the boundary, or
for its stamp with ACCEPTED; CONFIG.DISCARD empties the staged set, rolls its commands back and answers with their number (R81, R82, R91 to R96).
SESSION.LIST and SESSION.QUERY read and clear on request; SESSION.SET waits for the boundary or joins the staged set; SESSION.CLOSE marks its session
to close at the boundary; EVENT.SEND opens the channel's session and enters its packets, answering with how many were late (R300, R316 to R320). -/
def Obligations.TimeStagingAndSessionCommands : Prop :=
  -- TimeCommands
  (Completes .timeGet cardTimeGet (fun e b => timeWords e.target.toNat b)
      (fun e b => if bit (e.pw 0) 0 then { b with time := { b.time with launchDrop := 0, launchLate := 0, tsCollide := 0 } } else b) ∧
    Waits .timeClockSelect cardTimeClockSelect (fun _ => 255) ∧
    (∀ (jb : Job) (s : State), jb.opcode = 0x102 → ∃ t ws, boundaryEffect jb s = some (t, ws) ∧
      t.time.cor.toNat = bits (jb.e.pw 0) 9 8 ∧ t.time.autoSwitch = bit (jb.e.pw 0) 11 ∧ ws = [t.tmStatus &&& 0xFF]) ∧
    (∀ e s, Accepted cardTimeDomainSet e s → JoinsStage (.timeDomainSet e) s 0x103 e (domFields e) (begun cardTimeDomainSet e s)) ∧
    (∀ e s, Accepted cardTimeRateSet e s → let b := begun cardTimeRateSet e s
      ∃ t, exec (.timeRateSet e) s = .next t ∧ t.time.ticking = false ∧ t.time.newRate.toNat = bits (e.pw 0) 2 0 ∧ t.time.stamp = b.liveStamp ∧
        t.mbx.journal = newEntry 0x101 e .queued 0 0 b :: b.mbx.journal.take 4095 ∧ t.time.frameCount = b.time.frameCount ∧
        t.mbx.epoch = nextEpoch b.mbx.epoch)) ∧
  -- JournalAndStagingCommands
  ((∀ e s, Accepted cardSysNop e s → let b := begun cardSysNop e s
      exec (.sysNop e) s = .next (answer e stDone 0 [b.condStatus, b.mbx.epoch] true b)) ∧
    (∀ e s, Accepted cardConfigEpoch e s → let b := begun cardConfigEpoch e s
      exec (.configEpoch e) s = .next
        (answer e stDone 0 [b.mbx.epoch, pack [(b.mbx.stagedCmds.length, 16), (b.mbx.staged.length, 0)], stampedCommit b] true b)) ∧
    (∀ e s, Accepted cardJournalQuery e s → let b := begun cardJournalQuery e s
      (∀ x, journalSeek e b = some (some x) → exec (.journalQuery e) s = .next (answer e stDone 0 (journalWords x) true b)) ∧
      (journalSeek e b = some none →
        exec (.journalQuery e) s = .next (answer e stDone 0 [0, 0, 0, pack [(bits (e.pw 0) 19 0, 0)], 0, 0] true b))) ∧
    (∀ e s, Accepted cardConfigCommit e s → let b := begun cardConfigCommit e s
      (e.stamped = false → WaitsBoundary (.configCommit e) s 0x010 e 255 b) ∧
      (e.stamped = true → let t := if classify e.stamp b.time.reach = .late then b.time.reach else e.stamp
        exec (.configCommit e) s = .next (queueStamped 0x010 e { stamp := t } t [] b))) ∧
    ∀ e s, Accepted cardConfigDiscard e s → let b := begun cardConfigDiscard e s
      ∃ t, exec (.configDiscard e) s = .next (finishNow 0x011 e [BitVec.ofNat 32 b.mbx.stagedCmds.length] t) ∧ t.mbx.staged = [] ∧
        t.mbx.stagedCmds = [] ∧
        (∀ x ∈ t.mbx.journal, b.mbx.stagedCmds.contains x.idx = true → x.st = .rolledBack ∧ x.status = pRolledBack) ∧
        t.mbx.journal.length = b.mbx.journal.length) ∧
  -- SessionCommands
  (Completes .sessionList cardSessionList
      (fun _ b => b.seStatus :: BitVec.ofNat 32 (openSessions b).length :: (openSessions b).map (sessionWord b))
      (fun e b => if bit (e.pw 0) 0 then { b with se := { b.se with intakeDrop := 0, refused := 0 } } else b) ∧
    Completes .sessionQuery cardSessionQuery (fun e b => queryWords (namedId e) b)
      (fun e b => if bit (e.pw 0) 16 then b.onSession (namedId e) fun x =>
          { x with events := 0, late := 0, maxLate := 0, droppedLate := 0, range := 0, overflow := 0, ignored := 0 } else b) ∧
    (∀ e s, Accepted cardSessionSet e s → let b := begun cardSessionSet e s
      (e.stage = true → JoinsStage (.sessionSet e) s 0x202 e (sessionFields e) b) ∧
      (e.stage = false → WaitsBoundary (.sessionSet e) s 0x202 e 255 b)) ∧
    (∀ e s, Accepted cardSessionClose e s → let b := begun cardSessionClose e s
      ∃ t, exec (.sessionClose e) s = .next t ∧ (∃ jb ∈ t.mbx.jobs, jb.opcode = 0x203 ∧ jb.e = e ∧ jb.phase = .boundary) ∧
        t.session (namedId e) = if (b.session (namedId e)).isOpen then { b.session (namedId e) with closing := some (bit (e.pw 0) 16) }
          else b.session (namedId e)) ∧
    ∀ e s i, Accepted cardEventSend e s → let b1 := ensureMailboxSession e.ch (begun cardEventSend e s)
      mailboxSession e.ch b1 = some i → let r := enterPackets e i (packetsOf e) b1
        DoneNow (.eventSend e) s 0x210 e [pack [(i, 0), ((r.1.session i).tag.toNat, 8)], BitVec.ofNat 32 r.2] r.1)

/-- VOICE.START takes the slot of the longest free voice for the part, template, note and velocity it names, and waits for the boundary, or for its
stamp with the handle in its ACCEPTED; VOICE.RELEASE and VOICE.END wait likewise (R75, R98, R99, R129 to R131). VOICE.QUERY, PART.COUNTERS,
PLACE.LOAD, DECIM.SET and DECIM.STATUS (R132 to R134, R162, R163): answered at validation; the clearing bit of PART.COUNTERS zeroes the part's
counters, DECIM.STATUS clears its Course's, DECIM.SET writes every Course of the Bay and advances the epoch. -/
def Obligations.VoiceAndPartCommands : Prop :=
  -- VoiceCommands
  ((∀ e s, Accepted cardVoiceStart e s → let b := begun cardVoiceStart e s
      ∃ i s1 t, takeSlot b = some (i, s1) ∧ exec (.voiceStart e) s = .next t ∧ (t.voice i).st = .pending ∧ (t.voice i).inUse = true ∧
        (t.voice i).part = bits (e.pw 0) 7 0 ∧ (t.voice i).note = bits (e.pw 1) 14 8 ∧ (t.voice i).velocity.toNat = bits (e.pw 1) 31 16 ∧
        (t.voice i).template = (startOf e b).template ∧ (t.voice i).gen = nextGen (s1.voice i).gen ∧
        (e.stamped = false → t.mbx.nextJ = nextIndex b.mbx.nextJ ∧ (∃ jb ∈ t.mbx.jobs, jb.j = b.mbx.nextJ ∧ jb.slot = i ∧ jb.phase = .boundary)) ∧
        (e.stamped = true → t.se.order = b.se.order + 1)) ∧
    (∀ e s, Accepted cardVoiceRelease e s → exec (.voiceRelease e) s = .next (runOnVoice 0x301 e (begun cardVoiceRelease e s))) ∧
    (∀ e s, Accepted cardVoiceEnd e s → exec (.voiceEnd e) s = .next (runOnVoice 0x302 e (begun cardVoiceEnd e s))) ∧
    ∀ (op : Nat) (e : Entry) (s : State),
      (e.stamped = false → runOnVoice op e s = queueBoundary op e { bay := e.target.toNat } s) ∧
      (e.stamped = true → ∃ at_, runOnVoice op e s = queueStamped op e { stamp := at_, bay := e.target.toNat } at_ [] s ∧
        (at_ = e.stamp ∨ at_ = s.reachOf e.target.toNat))) ∧
  -- VoiceStatusCommands
  (Completes .voiceQuery cardVoiceQuery (fun e b => voiceWords e.target.toNat b (b.voice (bits (e.pw 0) 15 0))) (fun _ b => b) ∧
    Completes .partCounters cardPartCounters
      (fun e b => let c := b.partCtr (bits (e.pw 0) 7 0)
        [BitVec.ofNat 32 (b.voiceCount (bits (e.pw 0) 7 0)), c.starts, c.steals, c.stolen, c.refused, c.deferred, c.shed, c.cut, c.contentMiss])
      (fun e b => if bit (e.pw 0) 8 then b.setPartCtr (bits (e.pw 0) 7 0) {} else b) ∧
    Completes .placeLoad cardPlaceLoad
      (fun e b => let ks := b.bayCores (b.acting e.target.toNat)
        BitVec.ofNat 32 ks.length :: ks.flatMap (loadWords (loadView (b.acting e.target.toNat) b))) (fun _ b => b) ∧
    (∀ e s, Accepted cardDecimSet e s → let b := begun cardDecimSet e s
      ∃ t, DoneNow (.decimSet e) s 0x620 e [] t ∧ t.mbx.epoch = nextEpoch b.mbx.epoch ∧
        (∀ c ∈ b.bayCourses e.target.toNat, (t.course c).preset = (e.pw 0).setWidth 2) ∧
        (∀ c, c ∉ b.bayCourses e.target.toNat → t.course c = b.course c)) ∧
    Completes .decimStatus cardDecimStatus
      (fun e b => let n := bits (e.pw 0) 2 0
        [(b.course n).preset.setWidth 32, b.deStatus n, BitVec.ofNat 32 (b.courseBay n)])
      (fun e b => b.setCourse (bits (e.pw 0) 2 0) { b.course (bits (e.pw 0) 2 0) with sat := 0, clamp := 0 }))

/-- PARAM.GET reads; PARAM.SET and ENV.WRITE wait for the boundary, or join the staged set, and a stamped PARAM.SET waits for its stamp (R199 to
R201). At the boundary ENV.WRITE replaces the tables it names. COEF.LOAD fills the back set of the bank it names from the Host Window, DONE once the
copy of a running swap is complete (R329), and with its SWAP bit goes on as COEF.SWAP does; COEF.SWAP waits for the boundary, or is held while a scarf
runs; COEF.STATUS reads (R191 to R193, R202 to R204). SWAP_SCARF_END marks a scarf in its last frame as ended. -/
def Obligations.ParameterAndCoefficientCommands : Prop :=
  -- ParameterCommands
  (Completes .paramGet cardParamGet
      (fun e b => if bit (e.pw 0) 31 then (getAddrs e).flatMap descWords else (getAddrs e).map fun w => b.endpoint w.toNat) (fun _ b => b) ∧
    (∀ e s, Accepted cardParamSet e s → let b := begun cardParamSet e s
      (setStages e = true → JoinsStage (.paramSet e) s 0x400 e (setFields e b) b) ∧
      (setStages e = false → e.stamped = false → WaitsBoundary (.paramSet e) s 0x400 e 255 b) ∧
      (setStages e = false → e.stamped = true → ∃ at_, exec (.paramSet e) s =
        .next (queueStamped 0x400 e { stamp := at_, bay := e.target.toNat } at_ [] b) ∧ (at_ = e.stamp ∨ at_ = b.reachOf e.target.toNat))) ∧
    (∀ e s, Accepted cardEnvWrite e s → let b := begun cardEnvWrite e s
      (e.stage = true → JoinsStage (.envWrite e) s 0x410 e (envFields e) b) ∧ (e.stage = false → WaitsBoundary (.envWrite e) s 0x410 e 255 b)) ∧
    ∀ (jb : Job) (s : State) (n : Nat) (ws : List Word), jb.opcode = 0x410 → envsOf jb.e = [(n, ws)] →
      ∃ t, boundaryEffect jb s = some (t, []) ∧ t.params.envs.look (8 * bits (jb.e.pw 0) 7 0 + n) [] = ws) ∧
  -- CoefficientCommands
  ((∀ e s, Accepted cardCoefLoad e s → let b := begun cardCoefLoad e s
      let n := bankNamed e
      let h := loadHeader e b
      let x : CoefSet :=
        { valid := true, sections := BitVec.ofNat 1 (bits h 24 24), words := Mem.words b.mem.win ((e.pw 1).toNat / 4 + 1) (setWords h - 1) }
      let b1 := b.setCoef n { b.coef n with back := x }
      (bit (e.pw 0) 8 = false → copyDue n b = false → DoneNow (.coefLoad e) s 0x420 e [0, 0] b1) ∧
      (bit (e.pw 0) 8 = false → copyDue n b = true → exec (.coefLoad e) s =
        .next (addJob { j := b1.mbx.nextJ, opcode := 0x420, e := e, phase := .copy } (journalAdd 0x420 e .queued 0 0 b1))) ∧
      (bit (e.pw 0) 8 = true → exec (.coefLoad e) s = .next (requestSwap 0x420 e b1))) ∧
    (∀ e s, Accepted cardCoefSwap e s → exec (.coefSwap e) s = .next (requestSwap 0x421 e (begun cardCoefSwap e s))) ∧
    (∀ op e (s : State), (s.coef (bankNamed e)).scarfing = false → requestSwap op e s = queueBoundary op e {} s) ∧
    (∀ op e (s : State), (s.coef (bankNamed e)).scarfing = true → (s.coef (bankNamed e)).held = none →
      ((requestSwap op e s).coef (bankNamed e)).held = some s.mbx.nextJ ∧ ((requestSwap op e s).coef (bankNamed e)).heldLen = bits (e.pw 0) 31 16) ∧
    Completes .coefStatus cardCoefStatus (fun e b => coefWords (b.ticksInto / 16) (b.coef (bankNamed e))) (fun _ b => b) ∧
    ∀ (n : Nat) (s : State), n < 64 →
      ((s.coef n).scarfLeft ≠ 0 ∧ (s.coef n).scarfLeft ≤ s.spf →
        exec (.swapScarfEnd n) s = .next (s.setCoef n { s.coef n with ended := true })) ∧
      (¬ ((s.coef n).scarfLeft ≠ 0 ∧ (s.coef n).scarfLeft ≤ s.spf) → exec (.swapScarfEnd n) s = .next s))

/-- VPROG.LOAD starts 2 steps and one for each Course, the last of them final; DISPATCH.SET stages BACKPRESSURE; DISPATCH.STATUS clears its counters
on request; TRACE.SET waits, and at the boundary starts an empty trace; TRACE.STATUS reads (R238, R264 to R267). BAY.FORM gives the Bays their Courses
at validation and advances the epoch; BAY.MODE starts 3 steps, the final one the second where the Bay drains; BAY.STATUS reads; BAY.RECOVER waits;
COND.SWITCH waits for a boundary that meets R291; FW.UPDATE starts 4 steps (R293 to R298). -/
def Obligations.ProgramTraceAndBayCommands : Prop :=
  -- ProgramAndTraceCommands
  ((∀ e s, Accepted cardVprogLoad e s → let b := begun cardVprogLoad e s
      let n := 2 + (b.bay e.target.toNat).count.toNat
      StartsSteps (.vprogLoad e) s 0x530 e n n [] b) ∧
    (∀ e s, Accepted cardDispatchSet e s →
      JoinsStage (.dispatchSet e) s 0x030 e [{ field := .backpressure, value := [e.pw 0] }] (begun cardDispatchSet e s)) ∧
    Completes .dispatchStatus cardDispatchStatus (fun _ b => dispatchWords b)
      (fun e b => if bit (e.pw 0) 0 then { b with dsp := { b.dsp with refused := 0, stalled := 0, skipped := 0, preemptHeld := 0 } } else b) ∧
    Waits .traceSet cardTraceSet (fun _ => 255) ∧
    ActsAtBoundary cardTraceSet (fun e s =>
      ({ s with dsp := { s.dsp with traceEn := bit (e.pw 0) 0, trBase := e.pw 1, trK := BitVec.ofNat 4 (bits (e.pw 2) 3 0),
                                    trMask := e.pw 3, trWi := 0, trRi := 0, trLost := 0, trGap := 0 } }, [])) ∧
    Completes .traceStatus cardTraceStatus
      (fun _ b => [pack [(b.dsp.trK.toNat, 4), (b2n b.dsp.traceEn, 0)], b.dsp.trBase, b.dsp.trLost, pack [(b.dsp.trRi.toNat, 16), (b.dsp.trWi.toNat, 0)]])
      (fun _ b => b)) ∧
  -- BayCommands
  (Completes .bayForm cardBayForm (fun _ _ => []) (fun e b => bumpEpoch ((formChanging e b).foldl (reform e) b)) ∧
    (∀ (e : Entry) (s : State) (b : Nat), b < 8 →
      ((reform e s b).bay b).count = BitVec.ofNat 4 (formCount e b) ∧ ((reform e s b).bay b).first = BitVec.ofNat 3 (formFirst e b) ∧
      ((reform e s b).bay b).mode = .load ∧ ((reform e s b).bay b).returnHome = (s.bay b).returnHome ∧
      ∀ n, n ≠ b → (reform e s b).bay n = s.bay n) ∧
    (∀ e s, Accepted cardBayMode e s → let b := begun cardBayMode e s
      ∃ c, changeOf (b.bay e.target.toNat).mode (modeWanted e) = some c ∧
        StartsSteps (.bayMode e) s 0x601 e 3 (if c.drains then 2 else 3) [BitVec.ofNat 32 (b.bay e.target.toNat).mode.code, b.bayState e.target.toNat] b) ∧
    Completes .bayStatus cardBayStatus (fun e b => bayWords e.target.toNat b) (fun _ b => b) ∧
    Waits .bayRecover cardBayRecover (fun _ => 255) ∧
    (∀ e s, Accepted cardCondSwitch e s → let b := begun cardCondSwitch e s
      exec (.condSwitch e) s = .next
        (addJob { j := b.mbx.nextJ, opcode := 0x040, e := e, phase := .planned } (journalAdd 0x040 e .queued 0 0 b))) ∧
    ∀ e s, Accepted cardFwUpdate e s → StartsSteps (.fwUpdate e) s 0x041 e 4 4 [] (begun cardFwUpdate e s))

/-- BANK.GIVE starts 2 steps; BANK.STATUS reads and clears on request; HW.REGION.SET waits or joins the staged set and at the boundary gives the fast
regions; CONTENT.PIN pins and unpins, at once where the object is resident, else when it comes (R347 to R350). ROUTE.SET joins the staged set;
TDM.SET, AUDIO.CLOCK.SET, STREAM.SET and RENDER.SET wait, and the boundary gives their fields; AUDIO.STATUS reads and clears on request (R372 to
R377). -/
def Obligations.MemoryAndAudioCommands : Prop :=
  -- MemoryCommands
  ((∀ e s, Accepted cardBankGive e s → StartsSteps (.bankGive e) s 0x500 e 2 2 [] (begun cardBankGive e s)) ∧
    Completes .bankStatus cardBankStatus (fun _ b => bankWords b)
      (fun e b => if bit (e.pw 0) 0 then { b with mem := { b.mem with denied := 0, dbe := 0, suspend := 0, wake := 0, hwBusy := 0, hwSafe := 0 } } else b) ∧
    (∀ e s, Accepted cardHwRegionSet e s → let b := begun cardHwRegionSet e s
      (e.stage = true → JoinsStage (.hwRegionSet e) s 0x502 e [{ field := .hwRegion, value := [e.pw 0] }] b) ∧
      (e.stage = false → WaitsBoundary (.hwRegionSet e) s 0x502 e 255 b)) ∧
    ActsAtBoundary cardHwRegionSet (fun e s => ({ s with mem := { s.mem with fast := BitVec.ofNat 12 (bits (e.pw 0) 12 1) } }, [])) ∧
    ∀ e s, Accepted cardContentPin e s → let b := begun cardContentPin e s
      let bay := e.target.toNat
      let o := (e.pw 1).toNat
      (bit (e.pw 0) 0 = false → let b1 := b.onResid bay o fun r => { r with pinned := false }
        DoneNow (.contentPin e) s 0x510 e [BitVec.ofNat 32 (pinsOf bay b1)] b1) ∧
      (bit (e.pw 0) 0 = true → let b1 := ((claimCopy bay false none o b).getD b).onResid bay o fun r => { r with pinned := true }
        (b.objResident bay o = true → DoneNow (.contentPin e) s 0x510 e [BitVec.ofNat 32 (pinsOf bay b1)] b1) ∧
        (b.objResident bay o = false → exec (.contentPin e) s =
          .next (addJob { j := b1.mbx.nextJ, opcode := 0x510, e := e, phase := .content, bay := bay } (journalAdd 0x510 e .queued 0 0 b1))))) ∧
  -- AudioCommands
  ((∀ e s, Accepted cardRouteSet e s → let b := begun cardRouteSet e s
      JoinsStage (.routeSet e) s 0x700 e ((routeWords e).map fun w => { field := .route (bits w 31 20), value := [w], bay := routeBay b w }) b) ∧
    Waits .tdmSet cardTdmSet (fun _ => 255) ∧
    ActsAtBoundary cardTdmSet (fun e s => let u := (e.pw 0).toNat
      (if u < 16 then { s with audio := { s.audio with tdm := s.audio.tdm.put u (e.pw 1) } }
       else { s with audio := { s.audio with pdm := setBit s.audio.pdm (u - 16) (bit (e.pw 1) 31), pdmEdge := setBit s.audio.pdmEdge (u - 16) (bit (e.pw 1) 0) } }, [])) ∧
    Waits .audioClockSet cardAudioClockSet (fun _ => 255) ∧
    ActsAtBoundary cardAudioClockSet (fun e s => let w := e.pw 0
      let t := gptpRef { s with audio := { s.audio with ref := BitVec.ofNat 2 (bits w 1 0), refStream := bits w 8 4,
                                                        mclkForm := BitVec.ofNat 2 (bits w 13 12), lock := false, refLost := false } }
      (t, [t.audStatus &&& 0xF])) ∧
    Waits .streamSet cardStreamSet (fun _ => 255) ∧
    (∀ (jb : Job) (s : State), jb.opcode = 0x710 → let t := bits (jb.e.pw 0) 4 0
      ∃ s1 ws, boundaryEffect jb s = some (s1, ws) ∧ (s1.stm t).buf = [] ∧ (s1.stm t).enable = (streamOf jb.e (s.stm t)).enable ∧ ws.length = 1 ∧
        ∀ n, n ≠ t → s1.stm n = s.stm n) ∧
    Waits .renderSet cardRenderSet (fun e => e.target.toNat) ∧
    (∀ (jb : Job) (s : State), jb.opcode = 0x711 → jb.e.target.toNat < 8 → let b := s.acting jb.e.target.toNat
      ∃ s1, boundaryEffect jb s = some (s1, []) ∧ (s1.bay b).ringBase = jb.e.pw 0 ∧ (s1.bay b).ringC = bits (jb.e.pw 1) 7 0 ∧
        (s1.bay b).ringF = bits (jb.e.pw 1) 23 8) ∧
    Completes .audioStatus cardAudioStatus (fun _ b => audioWords b)
      (fun e b => if bit (e.pw 0) 0 then
          { b with audio := { b.audio with slip := 0, busSat := 0, streamErr := 0,
                                           streams := b.audio.streams.mapVals fun _ x => { x with late := 0, early := 0, missing := 0 } } } else b))

/-- DAC.SET waits; DAC.WRITE writes codes at once, or queues them for its stamp; DAC.STATUS reads and clears on request; UART.SEND waits for the
boundary or its stamp, UART.SET waits; UART.RECV takes the bytes it asks for out of the ring; TIMER.SET waits; TIMER.READ empties the capture queue
and clears the timer's flag and counts (R397 to R399, R417 to R421). -/
def Obligations.DacUartAndTimerCommands : Prop :=
  Waits .dacSet cardDacSet (fun _ => 255) ∧
  (∀ e s, Accepted cardDacWrite e s → let b := begun cardDacWrite e s
    (e.stamped = false → DoneNow (.dacWrite e) s 0x801 e [] ((dacWrites e).foldl writeCv b)) ∧
    (e.stamped = true → exec (.dacWrite e) s = .next (runStampedCv e b))) ∧
  (∀ (d : Nat) (v : BitVec 16) (s : State), (s.dacCh d).mode = true → (s.dacCh d).live = true →
    writeCv s (d, v) = s.setDacCh d { s.dacCh d with code := v, written := true, state := dacActive }) ∧
  Completes .dacStatus cardDacStatus (fun _ b => dacWords b)
    (fun e b => if bit (e.pw 0) 0 then { b with dac := { b.dac with short := b.shortNow, fault := 0, dropped := 0 } } else b) ∧
  (∀ e s, Accepted cardUartSend e s → let b := begun cardUartSend e s
    (e.stamped = false → WaitsBoundary (.uartSend e) s 0x901 e 255 b) ∧
    (e.stamped = true → let t := if classify e.stamp b.time.reach = .late then b.time.reach else e.stamp
      exec (.uartSend e) s = .next (queueStamped 0x901 e { stamp := t } t [] b))) ∧
  Waits .uartSet cardUartSet (fun _ => 255) ∧
  (∀ e s, Accepted cardUartRecv e s → let b := begun cardUartRecv e s
    let u := bits (e.pw 0) 2 0
    let x := b.uart u
    let got := x.ring.take (bits (e.pw 0) 25 16)
    ∃ y, DoneNow (.uartRecv e) s 0x902 e ([x.statusWord, pack [(x.lateTx.toNat, 16), (got.length, 0)]] ++ packBytes got) (b.setUart u y) ∧
      x.ring = got ++ y.ring ∧ y.fifo = x.fifo ∧ (bit (e.pw 0) 8 = false → y.lateTx = x.lateTx ∧ y.overruns = x.overruns) ∧
      (bit (e.pw 0) 8 = true → y.lateTx = 0 ∧ y.overruns = 0 ∧ y.framing = 0 ∧ y.parityErr = 0 ∧ y.brk = false ∧ y.overrun = false)) ∧
  Waits .timerSet cardTimerSet (fun _ => 255) ∧
  Completes .timerRead cardTimerRead
    (fun e b => let n := bits (e.pw 0) 3 0
      [b.tmrStatus n, (b.timer n).count, BitVec.ofNat 32 (b.timer n).queue.length]
        ++ (b.timer n).queue.flatMap fun (c : Cap) => [c.count, c.time.setWidth 32, (c.time >>> 32).setWidth 32])
    (fun e b => b.setTimer (bits (e.pw 0) 3 0) { b.timer (bits (e.pw 0) 3 0) with queue := [], irq := false, missed := 0, lost := 0 })

/-- PKG.WRITE extends the staging area; PKG.COMMIT starts 2 steps; PKG.DROP waits; VAULT.STATUS reads; KEY.WRAP and KEY.LOAD put the slot's key,
TAMPER.SET waits and at the boundary gives the levels and enables; TAMPER.CLEAR lowers the level and lifts the locks; LIFE.ADVANCE starts 2 steps
(R439 to R447). HEALTH.STATUS and HEALTH.LEDGER read, the first clearing its counters on request; HEALTH.SET waits; SYS.RESET is answered DONE and the
reset follows; SYS.POWER changes the state, SLEEP after the tick (R463 to R465, R480, R484, R485). -/
def Obligations.VaultHealthAndSystemCommands : Prop :=
  -- VaultCommands
  (Completes .pkgWrite cardPkgWrite (fun e b => [BitVec.ofNat 32 (4 * (stagedAfter e b).length)])
      (fun e b => { b with mem := { b.mem with stage := stagedAfter e b, stageOpen := true } }) ∧
    (∀ e s, Accepted cardPkgCommit e s → StartsSteps (.pkgCommit e) s 0x521 e 2 2 [] (begun cardPkgCommit e s)) ∧
    Waits .pkgDrop cardPkgDrop (fun _ => 255) ∧
    Completes .vaultStatus cardVaultStatus
      (fun e b => let xs := b.vault.log.take (bits (e.pw 0) 4 0)
        [b.vltStatus, b.vltTamperCfg, b.vltAlarm, b.vault.erases,
          pack [(b.mem.pkgs.length, 16), ((b.mem.pkgs.filter fun p => p.2).length, 0)], BitVec.ofNat 32 xs.length] ++ xs.flatMap logWords)
      (fun _ b => b) ∧
    (∀ e s, Accepted cardKeyWrap e s → let b := begun cardKeyWrap e s
      let slot := bits (e.pw 0) 3 0
      let mk := keyOfWords (e.payload.drop 1)
      ∃ t ws, DoneNow (.vaultKeyWrap e) s 0xA01 e ws t ∧ ws = keyWrap (wrapKey b slot) mk ∧ t.vault.mks = b.vault.mks.put slot mk) ∧
    (∀ e s mk, Accepted cardKeyLoad e s → let b := begun cardKeyLoad e s
      unwrapBlob e b = some mk → ∃ t, DoneNow (.vaultKeyLoad e) s 0xA02 e [BitVec.ofNat 32 t.mkeys] t ∧
        t.vault.mks = b.vault.mks.put (bits (e.pw 0) 3 0) mk) ∧
    Waits .tamperSet cardTamperSet (fun _ => 255) ∧
    ActsAtBoundary cardTamperSet (fun e s =>
      let tin : BitVec 2 := BitVec.ofNat 2 (bits (e.pw 0) 17 16)
      (if 2 ≤ s.vault.life.toNat then s else { s with vault := { s.vault with
          levels := BitVec.ofNat 12 (bits (e.pw 0) 11 0), tinEn := tin, active := s.vault.active &&& (0xF#4 ++ tin) } }, [])) ∧
    (∀ e s, Accepted cardTamperClear e s → let b := begun cardTamperClear e s
      let t := { b with vault := { b.vault with level := 0, raised := 0, keylock := false, refuseAll := false } }
      DoneNow (.tamperClear e) s 0xA11 e [t.vltStatus] t) ∧
    ∀ e s, Accepted cardLifeAdvance e s → StartsSteps (.lifeAdvance e) s 0xA20 e 2 2 [] (begun cardLifeAdvance e s)) ∧
  -- HealthAndSystemCommands
  (Completes .healthStatus cardHealthStatus (fun _ b => healthWords b)
      (fun e b => if bit (e.pw 0) 0 then { b with health := { b.health with clkAlarms := 0, supplyAlarms := 0 } } else b) ∧
    Completes .healthLedger cardHealthLedger (fun e b => ledgerWords (bits (e.pw 0) 2 0) b) (fun _ b => b) ∧
    Waits .healthSet cardHealthSet (fun _ => 255) ∧
    (∀ e s, Accepted cardSysReset e s → let t := finishNow 0x002 e [] (begun cardSysReset e s)
      exec (.sysReset e) s = .next { t with power := { t.power with resetDue := true, resetAt := t.time.deviceTime + 1000000, resetTicks := 0 } }) ∧
    ∀ e s, Accepted cardSysPower e s → let b := begun cardSysPower e s
      ∃ t, exec (.sysPower e) s = .next t ∧ t.mbx.journal = newEntry 0x003 e .done stDone 0 b :: b.mbx.journal.take 4095 ∧
        (powerWanted e = 2 → t.power = { b.power with sleepDue := true }) ∧
        (powerWanted e ≠ 2 → t.power = { b.power with state := BitVec.ofNat 2 (powerWanted e) }))

-- voice cores -------------------------------------------------------------------------------------------------------------
/-- Every arithmetic instruction completes on a core that issues, with any allowed port fields, and leaves the accumulators as the table Operations
says: Wd takes the result, the other accumulators and the rest of the machine stay (R210, R216). The flags of the arithmetic instructions: NEG, ZR and
XU come from the value (of CMP, from Wd minus the source); ADD and SUB set CY to the carry out of bit 55 or the borrow, the others leave it; a result
that wrapped sets the sticky WRAP; HOLD sets no flag (R210, R216, R222). The stay of CY and WRAP where no rule names them is the model's reading (log
entry 20). -/
def Obligations.ArithmeticOfTheCores : Prop :=
  -- ArithmeticLeavesAccumulators
  (∀ (k : Nat) (wd : BitVec 2) (src : ArithSrc) (pt : Ports) (s : State), Issues s k → portsOk pt = true →
      let r := s.regs k
      let a := r.wr wd.toNat
      let b := arithOperand r wd src
      LeavesAccs (.hold k pt) k s r.wr ∧
      LeavesAccs (.add k wd src pt) k s (oneAcc r wd (a + b)) ∧
      LeavesAccs (.sub k wd src pt) k s (oneAcc r wd (a - b)) ∧
      LeavesAccs (.cmp k wd src pt) k s r.wr ∧
      LeavesAccs (.neg k wd src pt) k s (oneAcc r wd (-a)) ∧
      LeavesAccs (.abs k wd src pt) k s (oneAcc r wd (if a.msb then -a else a)) ∧
      LeavesAccs (.clr k wd src pt) k s (oneAcc r wd 0) ∧
      LeavesAccs (.copy k wd src pt) k s (oneAcc r wd b) ∧
      LeavesAccs (.andW k wd src pt) k s (oneAcc r wd ((a &&& 0xFF000000FFFFFF) ||| (a &&& b &&& 0x00FFFFFF000000))) ∧
      LeavesAccs (.orW k wd src pt) k s (oneAcc r wd ((a &&& 0xFF000000FFFFFF) ||| ((a ||| b) &&& 0x00FFFFFF000000))) ∧
      LeavesAccs (.xorW k wd src pt) k s (oneAcc r wd ((a &&& 0xFF000000FFFFFF) ||| ((a ^^^ b) &&& 0x00FFFFFF000000))) ∧
      LeavesAccs (.shl1 k wd src pt) k s (oneAcc r wd (a + a)) ∧
      LeavesAccs (.shr1 k wd src pt) k s (oneAcc r wd (a.sshiftRight 1)) ∧
      LeavesAccs (.rndf k wd src pt) k s (oneAcc r wd ((a + 0x800000) &&& 0xFFFFFFFF000000)) ∧
      LeavesAccs (.satf k wd src pt) k s (oneAcc r wd (saturated a))) ∧
  -- ArithmeticSetsFlags
  (∀ (k : Nat) (wd : BitVec 2) (src : ArithSrc) (pt : Ports) (s : State), Issues s k → portsOk pt = true →
      let r := s.regs k
      let a := r.wr wd.toNat
      let b := arithOperand r wd src
      let cy := r.flag csrCY
      let wr := r.flag csrWRAP
      (∃ t, exec (.hold k pt) s = .next t ∧ ∀ n, n ∈ [csrCY, csrZR, csrNEG, csrXU, csrWRAP] → (t.regs k).flag n = r.flag n) ∧
      SetsFlags (.add k wd src pt) k s (a + b) (decide (2 ^ 56 ≤ a.toNat + b.toNat)) (wr || decide ((a + b).toInt ≠ a.toInt + b.toInt)) ∧
      SetsFlags (.sub k wd src pt) k s (a - b) (decide (a.toNat < b.toNat)) (wr || decide ((a - b).toInt ≠ a.toInt - b.toInt)) ∧
      SetsFlags (.cmp k wd src pt) k s (a - b) cy wr ∧
      SetsFlags (.neg k wd src pt) k s (-a) cy (wr || decide (a = BitVec.intMin 56)) ∧
      SetsFlags (.abs k wd src pt) k s (if a.msb then -a else a) cy (wr || decide (a = BitVec.intMin 56)) ∧
      SetsFlags (.clr k wd src pt) k s 0 cy wr ∧
      SetsFlags (.copy k wd src pt) k s b cy wr ∧
      SetsFlags (.andW k wd src pt) k s ((a &&& 0xFF000000FFFFFF) ||| (a &&& b &&& 0x00FFFFFF000000)) cy wr ∧
      SetsFlags (.orW k wd src pt) k s ((a &&& 0xFF000000FFFFFF) ||| ((a ||| b) &&& 0x00FFFFFF000000)) cy wr ∧
      SetsFlags (.xorW k wd src pt) k s ((a &&& 0xFF000000FFFFFF) ||| ((a ^^^ b) &&& 0x00FFFFFF000000)) cy wr ∧
      SetsFlags (.shl1 k wd src pt) k s (a + a) cy (wr || decide ((a + a).toInt ≠ a.toInt + a.toInt)) ∧
      SetsFlags (.shr1 k wd src pt) k s (a.sshiftRight 1) cy wr ∧
      SetsFlags (.rndf k wd src pt) k s ((a + 0x800000) &&& 0xFFFFFFFF000000) cy (wr || decide (2 ^ 55 - 2 ^ 23 ≤ a.toInt)) ∧
      SetsFlags (.satf k wd src pt) k s (saturated a) cy wr)

/-- Every multiply completes on a core that issues, with any allowed port fields, and leaves the accumulators as R215 states: MAC and MUL one
accumulator, QMAC all four by one factor, QMACX moved down one place, XMAC by the four products of U0, U1, V0 and V1. The sign of a replacing product
is the model's reading (log entry 20). ADDC and SUBC add or subtract the other accumulator of the pair and CY, and set CY to the carry or borrow;
MULSU and MULUU add the product of Ui and Vi, signed by unsigned or unsigned by unsigned, unshifted (R216, R222). -/
def Obligations.MultipliesOfTheCores : Prop :=
  -- MultipliesLeaveAccumulators
  (∀ (k : Nat) (wd : BitVec 2) (sign z : Bool) (u1 : BitVec 1) (vj ui : BitVec 2) (quad : BitVec 1) (pt : Ports) (s : State),
      Issues s k → portsOk pt = true →
      let r := s.regs k
      let p := fun u v => shiftedProduct (pshOf (s.csrSeen k)) (r.ur u) (r.vr v)
      let four := fun d => macced z sign (r.wr d) (p ui.toNat (4 * quad.toNat + d))
      LeavesAccs (.mac k wd sign u1 vj pt) k s (oneAcc r wd (macced false sign (r.wr wd.toNat) (p u1.toNat vj.toNat))) ∧
      LeavesAccs (.mul k wd sign u1 vj pt) k s (oneAcc r wd (macced true sign (r.wr wd.toNat) (p u1.toNat vj.toNat))) ∧
      LeavesAccs (.qmac k sign z ui quad pt) k s four ∧
      LeavesAccs (.qmacx k sign z ui quad pt) k s (fun d => if d = 3 then 0 else four (d + 1)) ∧
      LeavesAccs (.xmac k sign z pt) k s (fun d => macced z sign (r.wr d) (p (d / 2) (d % 2)))) ∧
  -- ExtendedPrecision
  (∀ (k : Nat) (wd ui : BitVec 2) (pt : Ports) (s : State), Issues s k → portsOk pt = true →
      let r := s.regs k
      let a := r.wr wd.toNat
      let b := r.wr (wd ^^^ 1).toNat
      let c := (r.flag csrCY).toNat
      LeavesAccs (.addc k wd pt) k s (oneAcc r wd (a + b + BitVec.ofNat 56 c)) ∧
      (∀ t, exec (.addc k wd pt) s = .next t → (t.regs k).flag csrCY = decide (2 ^ 56 ≤ a.toNat + b.toNat + c)) ∧
      LeavesAccs (.subc k wd pt) k s (oneAcc r wd (a - b - BitVec.ofNat 56 c)) ∧
      (∀ t, exec (.subc k wd pt) s = .next t → (t.regs k).flag csrCY = decide (a.toNat < b.toNat + c)) ∧
      LeavesAccs (.mulsu k wd ui pt) k s (oneAcc r wd (a + (r.ur ui.toNat).signExtend 56 * (r.vr ui.toNat).setWidth 56)) ∧
      LeavesAccs (.muluu k wd ui pt) k s (oneAcc r wd (a + (r.ur ui.toNat).setWidth 56 * (r.vr ui.toNat).setWidth 56)))

/-- MIN, MAX, MINUW and MAXUW: when the value is strictly better than Wd, Wd takes it, IX(d) takes ECNT and CY is 1; otherwise Wd and IX stay and CY
is 0; ECNT then counts modulo 2^16 (R221). -/
def Obligations.SearchesKeepTheFirstBest : Prop :=
  ∀ (k : Nat) (wd ui : BitVec 2) (pt : Ports) (s : State), Issues s k → portsOk pt = true →
    let r := s.regs k
    let a := r.wr wd.toNat
    let f := (r.ur ui.toNat ++ (0 : BitVec 24)).signExtend 56
    let uv := (r.ur ui.toNat ++ r.vr ui.toNat).setWidth 56
    Searches (.min k wd ui pt) k wd s f (decide (f.toInt < a.toInt)) ∧
    Searches (.max k wd ui pt) k wd s f (decide (a.toInt < f.toInt)) ∧
    Searches (.minuw k wd ui pt) k wd s uv (decide (uv.toNat < a.toNat)) ∧
    Searches (.maxuw k wd ui pt) k wd s uv (decide (a.toNat < uv.toNat))

/-- The shifts of the address class by 1 to 56 places: Wd is shifted, CY takes the last bit shifted out, and SLA sets the sticky WRAP when the result
wrapped; another amount is not allowed and sets XERR alone. CLS puts the redundant sign bits of Wd, 0 to 55, into IX(d) (R213, R216). -/
def Obligations.ShiftsAndSignCount : Prop :=
  ∀ (k : Nat) (wd : BitVec 2) (sh : BitVec 6) (s : State), Issues s k →
    let r := s.regs k
    let a := r.wr wd.toNat
    let n := sh.toNat
    (1 ≤ n ∧ n ≤ 56 →
      CoreDoes (.sra k wd sh) k s (fun q => (∀ d, d < 4 → q.wr d = oneAcc r wd (a.sshiftRight n) d) ∧ q.flag csrCY = a.getLsbD (n - 1)) ∧
      CoreDoes (.srl k wd sh) k s (fun q => (∀ d, d < 4 → q.wr d = oneAcc r wd (a >>> n) d) ∧ q.flag csrCY = a.getLsbD (n - 1)) ∧
      CoreDoes (.sla k wd sh) k s (fun q => (∀ d, d < 4 → q.wr d = oneAcc r wd (a <<< n) d) ∧ q.flag csrCY = a.getLsbD (56 - n) ∧
        q.flag csrWRAP = (r.flag csrWRAP || decide ((a <<< n).toInt ≠ a.toInt * 2 ^ n)))) ∧
    (¬(1 ≤ n ∧ n ≤ 56) → ∀ i, i ∈ [Instr.sra k wd sh, .sla k wd sh, .srl k wd sh] → CoreDoes i k s (fun q => SameRegs r.xerr q)) ∧
    CoreDoes (.cls k wd) k s (fun q => q.w = r.w ∧ ∃ m, q.ix.look wd.toNat 0 = BitVec.ofNat 16 m ∧ m ≤ 55 ∧
      (∀ i, i < m → a.getLsbD (54 - i) = a.msb) ∧ (m < 55 → a.getLsbD (54 - m) ≠ a.msb))

/-- DSTEP writes Wd alone (its value is free, log entry 12); CLRCNT zeroes ECNT alone; PADD moves one pointer through its ring; a reserved encoding
sets XERR alone (R213, R216, R218). The wrap of a ring (R218): with EN above ST the result lies from ST up to EN - 1 and differs from the address by a
multiple of the length; otherwise the address is taken modulo 2^16. -/
def Obligations.AddressClassAndRings : Prop :=
  -- AddressClassCompletes
  (∀ (k : Nat) (wd ui : BitVec 2) (ptr : BitVec 3) (imm : BitVec 12) (s : State), Issues s k →
      let r := s.regs k
      CoreDoes (.dstep k wd ui) k s (fun q => ∃ x, SameRegs (r.setW wd.toNat x) q) ∧
      CoreDoes (.clrcnt k) k s (fun q => SameRegs { r with ecnt := 0 } q) ∧
      CoreDoes (.padd k ptr imm) k s (fun q => SameRegs
        (r.setP ptr.toNat (ringWrap (r.st.look ptr.toNat 0) (r.en.look ptr.toNat 0) ((r.p.look ptr.toNat 0).toNat + imm.toInt))) q) ∧
      CoreDoes (.reservedEncoding k) k s (fun q => SameRegs r.xerr q)) ∧
  -- RingsWrap
  (∀ (st en : BitVec 16) (a : Int),
      (st.toNat < en.toNat → st.toNat ≤ (ringWrap st en a).toNat ∧ (ringWrap st en a).toNat < en.toNat ∧
        ((en.toNat : Int) - st.toNat) ∣ (((ringWrap st en a).toNat : Int) - a)) ∧
      (en.toNat ≤ st.toNat → ((ringWrap st en a).toNat : Int) = a % 2 ^ 16))

/-- MOVE and LDK complete: an assigned code is written with the source's value or the constant, and nothing else of the machine but the core changes;
a code that is not assigned sets XERR alone (R209, R213, R216). MOVM: a load brings the word of the address into the register; a store writes the
register's word at the address that R218 forms and leaves every other word of the core's memories; unassigned addresses load 0 and set XERR (R216,
R218, R219). -/
def Obligations.TransfersAndLocalMemory : Prop :=
  -- TransfersComplete
  (∀ (k : Nat) (dst src : RegCode) (c : Word24) (s : State), Issues s k →
      let r := s.regs k
      let x := readCode (s.core k).inShadow (s.csrSeen k) src r
      (codeOk dst = true → codeOk src = true → CoreDoes (.move k dst src) k s (fun q => SameRegs (writeCode dst x.1 x.2) q)) ∧
      (codeOk dst = true → CoreDoes (.ldk k dst c) k s (fun q => SameRegs (writeCode dst c r) q)) ∧
      ((codeOk dst && codeOk src) = false → CoreDoes (.move k dst src) k s (fun q => SameRegs r.xerr q)) ∧
      (codeOk dst = false → CoreDoes (.ldk k dst c) k s (fun q => SameRegs r.xerr q))) ∧
  -- MovmReachesLocalMemory
  (∀ (k : Nat) (reg : RegCode) (y : Bool) (m : MovMode) (s : State), Issues s k → codeOk reg = true → (s.regs k).stOld = [] →
      let r := s.regs k
      let a := movmAddr (s.view k) m
      let mem := fun (t : State) (z : Bool) (b : Nat) => Mem.read (if z then (t.core k).y else (t.core k).x) b
      (a < 0x4000 → CoreDoes (.movm k reg false y m) k s (fun q => SameRegs (writeCode reg (mem s y a) r) q)) ∧
      (0x4000 ≤ a → CoreDoes (.movm k reg false y m) k s (fun q => SameRegs (writeCode reg 0 r.xerr) q)) ∧
      (a < 0x4000 → (Mem.wf (s.core k).x && Mem.wf (s.core k).y) = true →
        ∃ t, exec (.movm k reg true y m) s = .next t ∧ OnlyCore k s t ∧
          mem t y a = (readCode (s.core k).inShadow (s.csrSeen k) reg r).1 ∧
          ∀ z b, ¬(z = y ∧ b = a) → mem t z b = mem s z b))

/-- Registers and views (R209 to R211): what was written reads back, pointer and index registers as 16 bits, steps sign-extended, the E view as 8 bits
sign-extended; a write of a view leaves the other bits of its accumulator, one of the F view clears [23:0] and fills [55:48] with copies of bit 47;
writes of LCNT are ignored. A write of CSR (R211): PSH, OSH, SATO, TRN, XU, NEG, ZR and CY take the value; a 1 clears XERR, FERR, SATD or WRAP and a 0
leaves it; every other bit stays. -/
def Obligations.RegisterCodesAndCsr : Prop :=
  -- RegisterCodesReadBack
  (∀ (c : RegCode) (shd : Bool) (csr x : Word24) (r : RegSet),
      let n := c.toNat
      let back := (readCode shd csr c (writeCode c x r)).1
      (n ≤ 0x0B → back = x) ∧
      (0x10 ≤ n ∧ n ≤ 0x13 → (writeCode c x r).wr (n - 0x10) = (x ++ (0 : BitVec 24)).signExtend 56) ∧
      (0x14 ≤ n ∧ n ≤ 0x17 → back = x ∧ ((writeCode c x r).wr (n - 0x14)) >>> 24 = (r.wr (n - 0x14)) >>> 24) ∧
      (0x18 ≤ n ∧ n ≤ 0x1B → back = (x.setWidth 8).signExtend 24 ∧ ((writeCode c x r).wr (n - 0x18)).setWidth 48 = (r.wr (n - 0x18)).setWidth 48) ∧
      (0x20 ≤ n ∧ n ≤ 0x27 ∨ 0x30 ≤ n ∧ n ≤ 0x44 → back = (x.setWidth 16).setWidth 24) ∧
      (0x28 ≤ n ∧ n ≤ 0x2F → back = (x.setWidth 16).signExtend 24) ∧
      (n = 0x46 → writeCode c x r = r)) ∧
  -- CsrWrite
  (∀ (x : Word24) (r : RegSet) (i : Nat), i < 24 →
      (writeCode 0x45 x r).csr.getLsbD i =
        (if i ∈ [0, 1, 2, 3, 14, 15, 16, 17, 18, 19] then x.getLsbD i
         else if i ∈ [8, 9, 10, 11] then r.csr.getLsbD i && !x.getLsbD i else r.csr.getLsbD i))

/-- Ports (R214, R218): a store writes the register's old word at Pn, a load brings the word at Pn into its register, and each steps its pointer by Nn
through its ring. Shown for HOLD with one port in use. A port value that the table Port fields marks as not allowed makes the instruction a NOP that
sets XERR (R213, R214). -/
def Obligations.PortsMoveOrAreRefused : Prop :=
  -- PortsLoadAndStore
  (∀ (k : Nat) (reg : BitVec 3) (ptr : BitVec 2) (s : State), Issues s k → reg.toNat < 4 → (s.regs k).agOld = none → (s.regs k).stOld = [] →
      let r := s.regs k
      let n := ptr.toNat
      let a := (r.p.look n 0).toNat
      let step := ringWrap (r.st.look n 0) (r.en.look n 0) ((r.p.look n 0).toNat + (r.n.look n 0).toInt)
      let load : Ports := { x := { op := .load, reg := reg, ptr := ptr } }
      let store : Ports := { x := { op := .store, reg := reg, ptr := ptr } }
      a < 0x4000 →
        CoreDoes (.hold k load) k s (fun q => q.ur reg.toNat = Mem.read (s.core k).x a ∧ q.p.look n 0 = step ∧ q.w = r.w ∧ q.v = r.v ∧ q.csr = r.csr) ∧
        (Mem.wf (s.core k).x = true → ∃ t, exec (.hold k store) s = .next t ∧ OnlyCore k s t ∧ Mem.read (t.core k).x a = r.ur reg.toNat ∧
          (∀ b, b ≠ a → Mem.read (t.core k).x b = Mem.read (s.core k).x b) ∧ (t.core k).y = (s.core k).y ∧
          (t.regs k).p.look n 0 = step ∧ (t.regs k).u = r.u ∧ (t.regs k).w = r.w ∧ (t.regs k).csr = r.csr)) ∧
  -- PortsNotAllowed
  (∀ (k : Nat) (wd : BitVec 2) (src : ArithSrc) (pt : Ports) (s : State), Issues s k → portsOk pt = false →
      ∀ i, i ∈ [Instr.hold k pt, .add k wd src pt, .sub k wd src pt, .copy k wd src pt, .mac k wd false 0 0 pt, .qmac k false false 0 0 pt,
                .min k wd 0 pt, .addc k wd pt, .mulsu k wd 0 pt] →
        CoreDoes i k s (fun q => SameRegs (s.regs k).xerr q))

/-- Flow outside delay slots and loop ends: NOP goes on; JMP, CALL, RET and a taken BR.cc set two delay slots before their target, CALL with its
return address to come and RET taking the return stack; a BR.cc that is not taken goes on, its two slots being delay slots all the same; RPT marks n
repetitions; FWAIT goes on when no fetch is outstanding and waits otherwise; LEAVE takes the innermost loop off and goes on after its last word (R216,
R217, R223, R224, R226). The conditions of BR.cc (R217): EQ, NE, MI, PL, CS, CC, XS, XC, GT, LE, WS, SS, FDN, FPD and AL; 15 is never taken. -/
def Obligations.FlowAndConditions : Prop :=
  -- FlowCompletes
  (∀ (k : Nat) (target : BitVec 13) (cond : BitVec 4) (off : BitVec 12) (n : BitVec 7) (s : State), Flows s k →
      let r := s.regs k
      let goesTo := fun (q : RegSet) (x : BitVec 13) (call : Bool) => q.delay = some { left := 2, target := x, call := call } ∧ q.pc = r.pc + 1
      CoreDoes (.nop k) k s (fun q => q.pc = nextPc r 1 ∧ SameRegs r q) ∧
      CoreDoes (.jmp k target) k s (fun q => goesTo q target false ∧ SameRegs r q) ∧
      (r.rets.length < 8 → ∃ t, exec (.call k target) s = .next t ∧ goesTo (t.regs k) target true ∧ SameRegs r (t.regs k)) ∧
      (∀ x rest, r.rets = x :: rest → ∃ t, exec (.ret k) s = .next t ∧ goesTo (t.regs k) x false ∧ (t.regs k).rets = rest ∧ SameRegs r (t.regs k)) ∧
      (cond ≠ 15 → branchTaken r.csr (s.core k).fetching cond = true →
        CoreDoes (.brCc k cond off) k s (fun q => goesTo q (r.pc + off.signExtend 13) false ∧ SameRegs r q)) ∧
      (cond ≠ 15 → branchTaken r.csr (s.core k).fetching cond = false →
        CoreDoes (.brCc k cond off) k s (fun q => q.pc = nextPc r 1 ∧ q.delay = some { left := 2, taken := false } ∧ SameRegs r q)) ∧
      CoreDoes (.brCc k 15 off) k s (fun q => q.pc = nextPc r 1 ∧ SameRegs r.xerr q) ∧
      CoreDoes (.rpt k n) k s (fun q => q.rpt = some (n.toNat + 1) ∧ q.pc = nextPc r 1 ∧ SameRegs r q) ∧
      ((s.core k).fetching = false → CoreDoes (.fwait k) k s (fun q => q.pc = nextPc r 1 ∧ q.waitFetch = r.waitFetch ∧ SameRegs r q)) ∧
      ((s.core k).fetching = true → CoreDoes (.fwait k) k s (fun q => q.pc = r.pc ∧ q.waitFetch = true ∧ SameRegs r q)) ∧
      (∀ f rest, r.loops = f :: rest → CoreDoes (.leave k) k s (fun q => goesTo q (f.last + 1) false ∧ q.loops = rest ∧ SameRegs r q))) ∧
  -- BranchConditions
  (∀ (r : RegSet) (fetching : Bool),
      let z := r.flag csrZR
      let n := r.flag csrNEG
      (List.range 16).map (fun i => branchTaken r.csr fetching (BitVec.ofNat 4 i)) =
        [z, !z, n, !n, r.flag csrCY, !r.flag csrCY, r.flag csrXU, !r.flag csrXU, !n && !z, n || z, r.flag csrWRAP, r.flag csrSATD,
         !fetching, fetching, true, false])

/-- Delay slots and loop-backs (R217, R224, R226): after the second slot of a taken branch the PC takes the target, and a CALL then pushes the address
after that slot; after the second slot of one not taken flow goes on; passing a body's last word with iterations left goes back to its start and
counts, and the last iteration pops the loop. LOOP and LOOPV push a loop over the words that follow (R216, R224): LOOP's count and body from its
fields, LOOPV's count from Ui [15:0]; a LOOPV count of 0 skips the body. The frame takes the repeat cache when its body has 16 words or fewer (R225).
-/
def Obligations.DelaySlotsLoopsAndLoopBacks : Prop :=
  -- DelaySlotsAndLoopBacks
  (∀ (r : RegSet),
      (∀ d, r.delay = some d → d.left = 1 → d.taken = true → (advance 1 r).pc = d.target ∧ (advance 1 r).delay = none ∧
        (advance 1 r).rets = if d.call then ((r.pc + 1) :: r.rets).take 8 else r.rets) ∧
      (∀ d, r.delay = some d → d.left = 1 → d.taken = false → (advance 1 r).pc = nextPc r 1 ∧ (advance 1 r).delay = none ∧ (advance 1 r).rets = r.rets) ∧
      (∀ d, r.delay = some d → d.left = 2 → (advance 1 r).delay = some { d with left := 1 }) ∧
      (∀ f rest, r.delay = none → r.loops = f :: rest → r.pc = f.last → 1 < f.count.toNat →
        (advance 1 r).pc = f.start ∧ (advance 1 r).loops = { f with count := f.count - 1 } :: rest) ∧
      (∀ f, r.delay = none → r.loops = [f] → r.pc = f.last → f.count.toNat ≤ 1 → (advance 1 r).pc = r.pc + 1 ∧ (advance 1 r).loops = [])) ∧
  -- LoopsPush
  (∀ (k : Nat) (count body : Byte) (ui : BitVec 2) (s : State), Flows s k → (s.regs k).loops.length < 4 →
      let r := s.regs k
      let c : BitVec 16 := (r.ur ui.toNat).setWidth 16
      let pushed := fun (q : RegSet) (n : BitVec 16) => q.pc = r.pc + 1 ∧ q.loops.length = r.loops.length + 1 ∧ SameRegs r q ∧
        q.loops.head? = some { start := r.pc + 1, last := r.pc + 1 + body.setWidth 13, count := n, cached := decide (body.toNat < 16) }
      CoreDoes (.loop k count body) k s (fun q => pushed q (count.setWidth 16 + 1)) ∧
      (c ≠ 0 → CoreDoes (.loopv k ui body) k s (fun q => pushed q c)) ∧
      (c = 0 → r.loops = [] → CoreDoes (.loopv k ui body) k s (fun q => q.pc = r.pc + 1 + (body.setWidth 13 + 1) ∧ SameRegs r q)))

/-- FETCH (R228): a Sound Store address below 2^22 queues a fetch of 1 to 64 words at the pointer, which then steps past them through its ring; the
fifth outstanding one waits; FIFTH_FETCH_START lets the first waiting fetch take a free place. FETCH_COMPLETE (R228): the oldest fetch of a core
leaves its queue. One of a word from a bank that the core's Course reaches, plain and not retained, into local memory writes the word's bits [23:0] at
its address. -/
def Obligations.FetchesQueueAndComplete : Prop :=
  -- FetchesQueue
  (∀ (k : Nat) (y : Bool) (ptr : BitVec 3) (ui : BitVec 2) (words : BitVec 6) (s : State), Issues s k → (s.regs k).agOld = none →
      let r := s.regs k
      let n := ptr.toNat
      let count := words.toNat + 1
      let p := r.p.look n 0
      let begun := (s.core k).fetches.filter fun f => !f.waiting
      ((r.ur ui.toNat).toNat < 2 ^ 22 → ∃ t f, exec (.fetch k y ptr ui words) s = .next t ∧ OnlyCore k s t ∧
        (t.core k).fetches = (s.core k).fetches ++ [f] ∧ f.src = (r.ur ui.toNat).toNat ∧ f.words = count ∧ f.isY = y ∧ f.dst = p ∧
        f.waiting = decide (4 ≤ begun.length) ∧
        (t.regs k).p.look n 0 = ringWrap (r.st.look n 0) (r.en.look n 0) (p.toNat + count)) ∧
      (2 ^ 22 ≤ (r.ur ui.toNat).toNat → CoreDoes (.fetch k y ptr ui words) k s (fun q => SameRegs r.xerr q)) ∧
      (∀ fs f rest, (s.core k).fetches = fs ++ f :: rest → (∀ g ∈ fs, g.waiting = false) → f.waiting = true →
        (((s.core k).fetches.filter fun g => !g.waiting).length < 4) →
        ∃ t, exec (.fifthFetchStart k) s = .next t ∧ OnlyCore k s t ∧ (t.core k).fetches = fs ++ { f with waiting := false } :: rest)) ∧
  -- FetchCompletes
  (∀ (k : Nat) (s : State) (f : Fetch) (rest : List Fetch), k < 64 → (s.core k).fetches = f :: rest → f.waiting = false → f.words = 1 →
      f.len = 0 → f.dst.toNat < 0x4000 → f.src < 2 ^ 22 → portReaches (k / 8) (f.src / 65536) s = true → (s.bank (f.src / 65536)).state = 0 →
      (Mem.wf (s.core k).x && Mem.wf (s.core k).y) = true →
      ∃ t, exec (.fetchComplete k []) s = .next t ∧ (t.core k).fetches = rest ∧
        Mem.read (if f.isY then (t.core k).y else (t.core k).x) f.dst.toNat = (Mem.word s.mem.store f.src).setWidth 24)

/-- TASK_DISPATCH (R248, R212): a free core takes its first ready task into the primary set, with S in U0, the pointers at its context's block, steps
of 1, the PC at the task's entry, and every other register 0: shown for a task that is no voice task, whose work its instructions do. A core that runs
a task, or has no ready one, starts none. A voice task that starts is entered the same way, and the core runs it (R164, R248). TASK_DISPATCH on a core
that runs a task, or that has no ready one, changes nothing (R248). PREEMPTION (R230, R249, R250), by the first ready LEVEL 1 task that no earlier
request passed over: none, or a LEVEL 1 task running, changes nothing; a request in the shadow set, or at a point that is not interruptible, is held;
a free core starts a ready LEVEL 1 task in the primary set; at the limit of 7 the waiting tasks are counted and passed over; otherwise the task takes
the shadow set, and the primary set and its task stay as they were. -/
def Obligations.TasksEnterTheCores : Prop :=
  -- DispatchEntersTask
  (∀ (k : Nat) (s : State) (ctx : Nat) (task : Task), k < 64 → (s.core k).current = none → (s.core k).inShadow = false →
      firstReady false (s.core k) = some ctx → (s.core k).tasks.find ctx = some task → task.kind ≠ 0 →
      ∃ t, exec (.taskDispatch k) s = .next t ∧ OnlyCore k s t ∧ (t.core k).current = some ctx ∧ (t.core k).staging = [] ∧
        (t.regs k).pc = task.entry ∧ (t.regs k).ur 0 = BitVec.ofNat 24 (samplesPerFrame s.time.rate) ∧ (∀ i, i ≠ 0 → (t.regs k).ur i = 0) ∧
        (t.regs k).p.look 0 0 = BitVec.ofNat 16 (192 * ctx) ∧ (t.regs k).p.look 4 0 = BitVec.ofNat 16 (192 * ctx) ∧
        (∀ i, i < 8 → (t.regs k).n.look i 0 = 1) ∧ (∀ d, (t.regs k).wr d = 0) ∧ (∀ i, (t.regs k).vr i = 0)) ∧
  -- DispatchEntersVoiceTask
  (∀ (k : Nat) (s : State) (ctx : Nat) (task : Task), k < 64 → (s.core k).current = none → (s.core k).inShadow = false →
      firstReady false (s.core k) = some ctx → (s.core k).tasks.find ctx = some task → task.kind = 0 →
      ∃ t, exec (.taskDispatch k) s = .next t ∧ (t.core k).current = some ctx ∧ ((t.voice task.slot.toNat).mix).isSome = true) ∧
  -- DispatchStartsNone
  (∀ (k : Nat) (s : State), k < 64 →
      (((s.core k).current.isSome || (s.core k).inShadow) = true ∨ firstReady false (s.core k) = none) → exec (.taskDispatch k) s = .next s) ∧
  -- PreemptionTakesShadow
  (∀ (k : Nat) (s : State), k < 64 →
      let c := s.core k
      let first := firstWith (fun t => t.kind == 1 && !t.passed) c
      (first = none → exec (.preemption k) s = .next s) ∧
      ∀ ctx task, first = some ctx → c.tasks.find ctx = some task →
        (c.inShadow = true → exec (.preemption k) s = .next (s.setCore k { c with preemptReq := true })) ∧
        (c.inShadow = false → c.current = none → ∃ t, exec (.preemption k) s = .next t ∧ OnlyCore k s t ∧ (t.core k).inShadow = false ∧
          (t.core k).current.isSome = true ∧ (t.core k).current = firstReady true c) ∧
        (c.inShadow = false → c.current.isSome = true → c.runsLevel0 = false → exec (.preemption k) s = .next s) ∧
        (c.inShadow = false → c.runsLevel0 = true → 7 ≤ c.preempts → ∃ t, exec (.preemption k) s = .next t ∧ (t.core k).prim = c.prim ∧
          (t.core k).current = c.current ∧ (t.core k).inShadow = false ∧ (t.core k).preempts = c.preempts ∧
          t.dsp.preemptHeld = satAdd s.dsp.preemptHeld (c.tasks.filter fun p => p.2.claims).length ∧
          ∀ p ∈ (t.core k).tasks, p.2.claims = false) ∧
        (c.inShadow = false → c.runsLevel0 = true → c.preempts < 7 → c.interruptible = false →
          exec (.preemption k) s = .next (s.setCore k { c with preemptReq := true })) ∧
        (c.inShadow = false → c.runsLevel0 = true → c.preempts < 7 → c.interruptible = true →
          ∃ t, exec (.preemption k) s = .next t ∧ (t.core k).inShadow = true ∧ (t.core k).shCurrent = some ctx ∧
            (t.core k).preempts = c.preempts + 1 ∧ (t.core k).preemptReq = false ∧ (t.core k).prim = c.prim ∧ (t.core k).current = c.current ∧
            (t.regs k).pc = task.entry))

/-- END (R216, R224, R227, R229, R230): the task of the set in use has run, its held stores leave the core, and the core is free, or back in the
primary set, which goes on where it was; without a task END only goes on; in a delay slot or at a loop's end it is a NOP that sets XERR. -/
def Obligations.EndCompletesTask : Prop :=
  ∀ (k : Nat) (s : State), Issues s k →
    let c := s.core k
    let r := s.regs k
    let forbidden := r.delay.isSome || r.bodyEnd
    let running := if c.inShadow then c.shCurrent else c.current
    (forbidden = true → CoreDoes (.endTask k) k s (fun q => SameRegs r.xerr q)) ∧
    (forbidden = false → running = none → CoreDoes (.endTask k) k s (fun q => q.pc = nextPc r 1 ∧ SameRegs r q)) ∧
    (forbidden = false → ∀ ctx, running = some ctx → ∃ t, exec (.endTask k) s = .next t ∧ (t.core k).inShadow = false ∧
      (c.inShadow = false → (t.core k).current = none ∧ (t.core k).staging = []) ∧
      (c.inShadow = true → (t.core k).shCurrent = none ∧ (t.core k).shStaging = [] ∧ (t.core k).current = c.current ∧
        (t.core k).staging = c.staging ∧ (c.prim.waitFetch = false → (t.core k).prim = c.prim)) ∧
      ∀ task, c.tasks.find ctx = some task → ∃ task', (t.core k).tasks.find ctx = some task' ∧ task'.ran = true ∧ task'.skips = 0)

/-- LOCAL_MEMORY_ERROR (R233): a single-bit error is corrected and counted, saturating; a double-bit error is reported to the core's Bay (R278) and
the struck word holds a free value (log entry 10): in a context's block it cuts that context's task at once, elsewhere it cuts every task and fails
the core, which is retired unless a partner can take control (R285). An address beyond the memory does not exist (R205, R206). -/
def Obligations.LocalMemoryErrors : Prop :=
  ∀ (k : Nat) (m : LocalMem) (a : Nat) (s : State), k < 64 →
    let b := s.courseBay (k / 8)
    let reported := (s.bay b).events ++ [(1, s.corePos k)]
    let cap := if m = .prog then 0x2000 else 0x4000
    (a < cap → exec (.localMemoryError k m a false) s = .next (s.setCore k { s.core k with corrected := satInc (s.core k).corrected })) ∧
    (m ≠ .prog → a < 0x3000 → (s.core k).tasks.find (a / 192) = none →
      ∃ t, exec (.localMemoryError k m a true) s = .next t ∧ (t.bay b).events = reported ∧
        (t.core k).tasks = (s.core k).tasks ∧ (t.core k).struck = (m == .y, a) :: (s.core k).struck) ∧
    (m ≠ .prog → a < 0x3000 → ∀ task, (s.core k).tasks.find (a / 192) = some task →
      ∃ t, exec (.localMemoryError k m a true) s = .next t ∧ (t.core k).current ≠ some (a / 192) ∧ (t.core k).shCurrent ≠ some (a / 192) ∧
        (t.core k).tasks.find (a / 192) = some { task with ran := true } ∧
        (task.kind = 0 → (s.voice task.slot.toNat).core = k → (t.voice task.slot.toNat).silent = true)) ∧
    (a < cap → (m = .prog ∨ 0x3000 ≤ a) →
      ∃ t, exec (.localMemoryError k m a true) s = .next t ∧
        (∀ ctx task, (t.core k).tasks.find ctx = some task → task.ran = true) ∧
        (s.covered b = false → (t.core k).failed = true ∧ (t.core k).retire = true) ∧
        (s.covered b = true → (t.core k).failed = (s.core k).failed ∧ (t.core k).retire = (s.core k).retire)) ∧
    (cap ≤ a → ∀ double, exec (.localMemoryError k m a double) s = .fault .noSuchAddress)

-- registers and work ports ------------------------------------------------------------------------------------------------
/-- A register write of the host, of a Conductor and of a service core (R8, R15, R22, R62 to R65, R253, R261, R266, R325): in reset none acts, and
none of the host's without a host port; a write-one-to-clear bit clears and an enable is given whole; ring indices, the trace read index, the
aperture, the post words and the queue mask take their fields; a field of TM_CFG takes a value it may have, and RATE stays while the tick runs. -/
def Obligations.RegisterWrites : Prop :=
  (∀ (sp : RegSpace) off v (s : State), (∀ n, sp = .work n → n < 6) → s.inReset = true → exec (.registerWrite sp off v) s = .next s) ∧
  (∀ off v (s : State), s.power.host = 3 → exec (.registerWrite .host off v) s = .next s) ∧
  ∀ (v : Word) (s : State), s.hostOff = false →
    exec (.registerWrite .host 0x0204 v) s = .next { s with mbx := { s.mbx with dbRsp := s.mbx.dbRsp &&& ~~~(v.setWidth 17) } } ∧
    (∃ t, exec (.registerWrite .host 0x0208 v) s = .next t ∧ t.mbx = { s.mbx with dbRspEn := v.setWidth 17 }) ∧
    exec (.registerWrite .host 0x030C v) s = .next { s with dsp := { s.dsp with trRi := v.setWidth 15 } } ∧
    (∃ t, exec (.registerWrite .host 0x0804 v) s = .next t ∧ t.mem.apBank.toNat = bits v 13 8 ∧ t.mem.apPage.toNat = bits v 2 0 ∧
      t.mem.apAlias.toNat = (if bits v 4 3 = 3 then s.mem.apAlias.toNat else bits v 4 3) ∧ t.mem.win = s.mem.win ∧ t.mem.store = s.mem.store) ∧
    (∀ n, n < 16 →
      exec (.registerWrite .host (BitVec.ofNat 16 (0x400 + 0x20 * n)) v) s = .next (s.setChan n { s.chan n with cmdPi := v.setWidth 11 }) ∧
      exec (.registerWrite .host (BitVec.ofNat 16 (0x40C + 0x20 * n)) v) s = .next (s.setChan n { s.chan n with rspCi := v.setWidth 11 }) ∧
      exec (.registerWrite .host (BitVec.ofNat 16 (0x410 + 0x20 * n)) v) s =
        .next (s.setChan n { s.chan n with desync := (s.chan n).desync && !bit v 0 }) ∧
      exec (.registerWrite .inner (BitVec.ofNat 16 (0x404 + 0x20 * n)) v) s = .next (s.setChan n { s.chan n with cmdCi := v.setWidth 11 }) ∧
      exec (.registerWrite .inner (BitVec.ofNat 16 (0x408 + 0x20 * n)) v) s = .next (s.setChan n { s.chan n with rspPi := v.setWidth 11 })) ∧
    (∃ t, exec (.registerWrite .inner 0x0100 v) s = .next t ∧ t.time.autoSwitch = bit v 11 ∧
      t.time.cor.toNat = (if bits v 9 8 < 3 then bits v 9 8 else s.time.cor.toNat) ∧
      (s.time.ticking = true → t.time.rate = s.time.rate) ∧
      (s.time.ticking = false → bits v 2 0 < 6 → t.time.rate.toNat = bits v 2 0) ∧ t.time.stamp = s.time.stamp) ∧
    (∀ n i, n < 6 → i < 4 → ∃ t, exec (.registerWrite (.work n) (BitVec.ofNat 16 (0x14 + 4 * i)) v) s = .next t ∧ (t.svc n).post.getD i 0 = v ∧
      ∀ j, j < 4 → j ≠ i → (t.svc n).post.getD j 0 = (s.svc n).post.getD j 0) ∧
    ∀ n, n < 4 → exec (.registerWrite (.work n) 0x28 v) s = .next (s.setSvc n { s.svc n with mask := BitVec.ofNat 4 (bits v 3 0) })

/-- HW_DB_CMD, where the device has a host port (R22), rings the bell of each channel whose bit is 1, and a Conductor that serves takes the entries of
rung channels in rotation from the one after the last served (R62, R72); HW_MBX_RESET requests the reset of each channel whose bit is 1, which waits
for the boundary. The reset empties both rings, sets SEQ_FREE and the response bit, clears DESYNC and RSP_FULL, leaves no response owed, and its
session is to close (R65, R300). -/
def Obligations.DoorbellsRing : Prop :=
  ∀ (v : Word) (s : State),
    (s.hostOff = true → exec (.hwDbCmd v) s = .next s ∧ exec (.hwMbxReset v) s = .next s) ∧
    (∀ n, n < 16 →
      (ringBells v s).chan n = { s.chan n with doorbell := bit v n || (s.chan n).doorbell } ∧
      (requestResets v s).chan n = { s.chan n with resetReq := bit v n || (s.chan n).resetReq }) ∧
    (s.hostOff = false → exec (.hwMbxReset v) s = .next (requestResets v s)) ∧
    (s.hostOff = false → (s.serving = false ∨ ∀ n, n < 16 → (s.chan n).cmdPi = (s.chan n).cmdCi) → exec (.hwDbCmd v) s = .next (ringBells v s)) ∧
    (∀ n, s.serving = true → nextChan (fun t ch => (t.chan ch).doorbell) (ringBells v s) = some n →
      exec (.hwDbCmd v) s = .next (drain (fun t ch => (t.chan ch).doorbell) 16383 (takeNext n (ringBells v s)))) ∧
    ∀ n, n < 16 → let t := resetChan s n
      (t.chan n).cmdPi = 0 ∧ (t.chan n).cmdCi = 0 ∧ (t.chan n).rspPi = 0 ∧ (t.chan n).rspCi = 0 ∧ (t.chan n).seqFree = true ∧
      (t.chan n).desync = false ∧ (t.chan n).rspFull = false ∧ t.mbx.dbRsp.getLsbD n = true ∧ (∀ x ∈ t.mbx.journal, x.ch = n → x.owed = false) ∧
      ∀ i, mailboxSession n s = some i → (t.session i).closing.isSome = true

/-- Requests for work (R252 to R254, R257 to R259): a read takes the oldest entry of the first allowed queue that holds one, with the preference field
of its first word cleared; with nothing there the reader waits. A post into an empty queue goes to a unit that waits for it, and behind the others
otherwise; into a full queue it is refused and counted, or under BACKPRESSURE stalls its producer and is counted. The end of a stall (R259) frees the
producer with a failed post, counted as refused; a flag write (R246, R260) sets flag P of a task that exists, and any other write of it is refused and
counted. -/
def Obligations.WorkIsAskedPostedAndStalled : Prop :=
  -- WorkIsAskedAndPosted
  (∀ (who : Nat) (s : State), who < 6 →
      let allowed := if who < 4 then (List.range 4).filter fun q => (s.svc who).mask.getLsbD q else if who = s.activeCond then [4] else []
      let e := (List.range 4).map fun i => (s.svc who).post.getD i 0
      let q := if bits (e.getD 0 0) 31 30 = 3 then 4 else bits (e.getD 0 0) 18 16
      ((∀ q ∈ allowed, s.queue q = []) → exec (.dspAsk who) s = .next (s.setSvc who { s.svc who with waiting := true, waited := 0 })) ∧
      (∀ q x r, allowed.find? (fun q => !(s.queue q).isEmpty) = some q → s.queue q = x :: r → s.dsp.stalls = [] →
        ∃ t, exec (.dspAsk who) s = .next t ∧ t.queue q = r ∧
          (t.svc who).task = (if q < 4 then x.getD 0 0 &&& ~~~0x00F80000 else x.getD 0 0) :: (x.drop 1).take 3 ∧ (t.svc who).waiting = false) ∧
      ((s.svc who).stall ≠ none → exec (.dspPostGo who) s = .next s) ∧
      (∀ w, (s.svc who).stall = none → q < 5 → s.queue q = [] → pickWaiter q e s = some w →
        ∃ t, exec (.dspPostGo who) s = .next t ∧ t.queue q = [] ∧ (t.svc w).waiting = false ∧ (t.svc who).goResult = 0 ∧
          (t.svc w).task = (if q < 4 then e.getD 0 0 &&& ~~~0x00F80000 else e.getD 0 0) :: (e.drop 1).take 3) ∧
      ((s.svc who).stall = none → q < 5 → (s.queue q ≠ [] ∨ pickWaiter q e s = none) → (s.queue q).length < queueDepth q →
        ∃ t, exec (.dspPostGo who) s = .next t ∧ t.queue q = s.queue q ++ [e] ∧ (t.svc who).goResult = 0) ∧
      ((s.svc who).stall = none → q < 5 → queueDepth q ≤ (s.queue q).length → s.dsp.backpressure = false →
        ∃ t, exec (.dspPostGo who) s = .next t ∧ t.queue q = s.queue q ∧ (t.svc who).goResult = 1 ∧ t.dsp.refused = satInc s.dsp.refused) ∧
      ((s.svc who).stall = none → q < 5 → queueDepth q ≤ (s.queue q).length → s.dsp.backpressure = true →
        ∃ t, exec (.dspPostGo who) s = .next t ∧ (t.svc who).stall = some q ∧ t.dsp.stalls = s.dsp.stalls ++ [who] ∧
          t.dsp.stalled = satInc s.dsp.stalled ∧ t.dsp.refused = s.dsp.refused)) ∧
  -- StallsEndAndFlagsAreSet
  (∀ (who : Nat) (s : State), who < 6 →
      ((s.svc who).stall = none → exec (.stallTimeout who) s = .next s) ∧
      (∀ q, (s.svc who).stall = some q → ∃ t, exec (.stallTimeout who) s = .next t ∧ (t.svc who).stall = none ∧ (t.svc who).goResult = 1 ∧
        t.dsp.refused = satInc s.dsp.refused ∧ who ∉ t.dsp.stalls) ∧
      (∀ v x, (s.core (bits v 21 16)).tasks.find (bits v 13 8) = some x →
        (bits v 3 0 = 3 → ∃ t, exec (.dspFlag who v) s = .next t ∧ OnlyCore (bits v 21 16) s t ∧
          (t.core (bits v 21 16)).tasks.find (bits v 13 8) = some { x with flags := setBit x.flags 3 (bit v 24) }) ∧
        (bits v 3 0 ≠ 3 → exec (.dspFlag who v) s = .next { s with dsp := { s.dsp with refused := satInc s.dsp.refused } })) ∧
      (∀ v, (s.core (bits v 21 16)).tasks.find (bits v 13 8) = none →
        exec (.dspFlag who v) s = .next { s with dsp := { s.dsp with refused := satInc s.dsp.refused } }))

/-- Reads with an effect and the recovery boot (R30, R411, R416, R474): TM_DTIME_LO freezes the high half, the Frame Count and Stamp32; UART_HOLD
reads and empties the holding register; TMR_CAPQ takes the oldest capture for the Conductor and nothing for the host; SYS_BOOT_CTL.GO in recovery mode
starts the Conductor image of the Host Window when its authentication value is right, else gives the error code 0x04. -/
def Obligations.ReadsAndRecoveryBoot : Prop :=
  (∀ s : State, ∃ t, exec .tmDtimeLo s = .next t ∧ t.mem.lastRead = [s.time.deviceTime.setWidth 32] ∧
    t.time.bufDtHi = (s.time.deviceTime >>> 32).setWidth 32 ∧ t.time.bufFcLo = s.time.frameCount.setWidth 32 ∧
    t.time.bufFcHi = (s.time.frameCount >>> 32).setWidth 32 ∧ t.time.bufStamp = s.liveStamp ∧ t.time.stamp = s.time.stamp) ∧
  (∀ (u : Nat) (s : State), u < 8 → ∃ t, exec (.uartHold u) s = .next t ∧ t.mem.lastRead = [(s.uart u).holdWord] ∧
    t.uart u = { s.uart u with holdData := 0, holdValid := false, holdFerr := false, holdPerr := false }) ∧
  (∀ (n : Nat) (s : State), n < 16 →
    (∃ t, exec (.tmrCapq true n) s = .next t ∧ t.mem.lastRead = [0] ∧ t.timers = s.timers) ∧
    ((s.timer n).queue = [] → exec (.tmrCapq false n) s = .next (s.setTimer n { s.timer n with capqRead := 0 })) ∧
    ∀ c r, (s.timer n).queue = c :: r → ∃ t, exec (.tmrCapq false n) s = .next t ∧ (t.timer n).queue = r ∧ (t.timer n).capCnt = c.count ∧
      (t.timer n).capLo = c.time.setWidth 32 ∧ (t.timer n).capHi = (c.time >>> 32).setWidth 32) ∧
  ∀ (v : Word) (s : State),
    let n := bits v 16 0
    let good := 1 ≤ n ∧ n ≤ 114688 ∧ imageTagOk s.vault.ik (Mem.words s.mem.win 0x10000 n) = true
    ((s.inReset = true ∨ s.power.recovery = false ∨ bit v 31 = false) → exec (.sysBootCtl v) s = .next s) ∧
    (s.inReset = false → s.power.recovery = true → bit v 31 = true → good →
      exec (.sysBootCtl v) s = .next { s with power := { s.power with recovery := false, phase := 4 } }) ∧
    (s.inReset = false → s.power.recovery = true → bit v 31 = true → ¬ good →
      exec (.sysBootCtl v) s = .next { s with power := { s.power with error := 0x04 } })

-- memory ------------------------------------------------------------------------------------------------------------------
/-- Alias writes (R322, R325, R326): a write of v through the set alias stores w | v, through the clear alias w & ~v, with the lanes it does not
strobe taken as 0; no other byte changes, and the requests that wait at the bank stall for its 2 clk. A write that its initiator may not make changes
no memory and is counted where R326 says so; the Vault has no alias (R321); a unit that the device does not have makes none (R10). -/
def Obligations.AliasWrites : Prop :=
  ∀ (who : Initiator) (bank word : Nat) (v : Word) (strobes : BitVec 4) (s : State),
    let w := 65536 * bank + word
    let lanes : Word := BitVec.ofNat 32 ((b2n (strobes.getLsbD 0) + 256 * b2n (strobes.getLsbD 1) + 65536 * b2n (strobes.getLsbD 2)
      + 16777216 * b2n (strobes.getLsbD 3)) * 255)
    bank < 64 → word < 65536 →
    (initiatorIs who = false → exec (.setAliasWrite who bank word v strobes) s = .refused .noSuchUnit ∧
      exec (.clearAliasWrite who bank word v strobes) s = .refused .noSuchUnit) ∧
    (reachesWord who w true s = true → who ≠ .vault → ((s.bank bank).state = 0 ∨ who = .test) → Mem.wf s.mem.store = true →
      (∃ t m, exec (.setAliasWrite who bank word v strobes) s = .next t ∧ Mem.word m w = Mem.word s.mem.store w ||| (v &&& lanes) ∧
        (∀ a, a / 4 ≠ w → Mem.read m a = Mem.read s.mem.store a) ∧
        t = stallMore bank 2 { s with mem := { s.mem with store := m, bad := s.mem.bad.filter (· != w) } }) ∧
      (∃ t m, exec (.clearAliasWrite who bank word v strobes) s = .next t ∧ Mem.word m w = Mem.word s.mem.store w &&& ~~~(v &&& lanes) ∧
        (∀ a, a / 4 ≠ w → Mem.read m a = Mem.read s.mem.store a) ∧
        t = stallMore bank 2 { s with mem := { s.mem with store := m, bad := s.mem.bad.filter (· != w) } })) ∧
    (initiatorIs who = true → (reachesWord who w true s = false ∨ who = .vault) → ∃ t, exec (.setAliasWrite who bank word v strobes) s = .next t ∧
      exec (.clearAliasWrite who bank word v strobes) s = .next t ∧
      t = stallMore bank 2 { s with mem := { s.mem with denied := if deniedCounted who then satInc s.mem.denied else s.mem.denied } })

/-- One access is served at a bank in a clk, that of lowest rank, and every other stalls and requests again; one that stalled 16 clk goes before
others, the longest first (R323, R324). A write stores the strobed lanes and no other byte, a read delivers the word (in a coefficient area the
coefficient that R328 places there), or 0 with DBE counted for a double-bit error; an access of an initiator that does not reach the word reads 0,
changes no memory and is counted or sets CSR.FERR (R321, R325, R326). Banks and copies (R330, R332, R339, R340, R341, R342, R345, R350): a bank that
may be retained enters retention and a wake brings it back, counted; the end of a zeroising makes a bank plain again; an object whose copy arrives
becomes resident, its words stand where its copy has room and its request ends; a protected one is not decrypted under KEYLOCK (R433); a pin that
waited for it is DONE, and an object that asked for nothing, or whose request is not the one in service, stays as it was. Requests that wait stay in
the order of their classes, and one that is posted goes behind those of its rank. That one request is in service at a time is the model's choice (log
entry 134). No two addresses of LPDDR4X name one byte of one channel. -/
def Obligations.SoundStoreAndBanks : Prop :=
  -- SoundStoreAccesses
  (∀ (bank : Nat) (rs : List BankReq) (s : State), bank < 64 → (∀ r ∈ rs, r.acc.word < 65536) → (∀ r ∈ rs, initiatorIs r.who = true) →
      (∀ x ∈ (s.bank bank).waiting, 16 ≤ x.2 → x.2 < 2 ^ 32 → (∀ y ∈ (s.bank bank).waiting, initiatorIs y.1.who = true ∧ (y ≠ x → y.2 < x.2)) →
        firstRequest s (standing bank rs s) = some x) ∧
      ((s.bank bank).waiting = [] →
        (rs = [] → exec (.soundStoreAccess bank rs) s = .next s) ∧
        (rs.Pairwise (fun a b => a.who ≠ b.who) → ∀ r ∈ rs, (∀ q ∈ rs, q ≠ r → s.requestKey (r, 0) < s.requestKey (q, 0) ∧ sameLine s r q = false) →
          ((s.bank bank).state = 0 ∨ r.who = .test) → Mem.wf s.mem.store = true →
          let w := 65536 * bank + r.acc.word
          let u := s.setBank bank { s.bank bank with waiting := (rs.filter fun q => q.who != r.who).map fun q => (q, 1) }
          (∀ v, r.acc.wr = some v → r.acc.strobes = 0xF → reachesWord r.who w true s = true →
            ∃ t m, exec (.soundStoreAccess bank rs) s = .next t ∧ Mem.word m w = v ∧ (∀ a, a / 4 ≠ w → Mem.read m a = Mem.read s.mem.store a) ∧
              t = { u with mem := { u.mem with store := m, bad := s.mem.bad.filter (· != w), lastRead := [] } }) ∧
          (r.acc.wr = none → reachesWord r.who w false s = true → r.dbe = false → s.mem.bad.contains w = false →
            exec (.soundStoreAccess bank rs) s = .next { u with mem := { u.mem with lastRead := [shownWord w s] } }) ∧
          (r.acc.wr = none → reachesWord r.who w false s = true → (r.dbe = true ∨ s.mem.bad.contains w = true) →
            ∃ t, exec (.soundStoreAccess bank rs) s = .next t ∧ t.mem.lastRead = [0] ∧ t.mem.dbe = satInc s.mem.dbe ∧ t.mem.store = s.mem.store ∧
              t.health.storeDbe.look bank 0 = s.health.storeDbe.look bank 0 + 1) ∧
          (r.acc.wr = none → reachesWord r.who w false s = false → deniedCounted r.who = true →
            exec (.soundStoreAccess bank rs) s = .next { u with mem := { u.mem with lastRead := [0], denied := satInc s.mem.denied } }) ∧
          (∀ k, r.who = .core k → r.acc.wr = none → reachesWord r.who w false s = false →
            ∃ t, exec (.soundStoreAccess bank rs) s = .next t ∧ t.mem = { u.mem with lastRead := [0] } ∧ (t.regs k).flag csrFERR = true)))) ∧
  -- BanksAndContent
  ((∀ c0 c1 x y p, ddrPlace c0 c1 x = some p → ddrPlace c0 c1 y = some p → x = y) ∧
    ∀ (b : Nat) (s : State), b < 64 →
      (mayRetain b s = true → exec (.bankRetention b) s = .next (s.setBank b { s.bank b with state := 1 })) ∧
      (mayRetain b s = false → exec (.bankRetention b) s = .next s) ∧
      ((s.bank b).state = 1 → ∃ t, exec (.bankWake b) s = .next t ∧ t.bank b = { s.bank b with state := 0 } ∧ t.mem.wake = satInc s.mem.wake) ∧
      ((s.bank b).state ≠ 1 → exec (.bankWake b) s = .next s) ∧
      ((s.bank b).state = 3 → ∃ t, exec (.zeroiseDone b) s = .next t ∧ (t.bank b).state = 0 ∧ (t.bank b).owner = (s.bank b).owner ∧
        t.mem.store = s.mem.store) ∧
      ((s.bank b).state ≠ 3 → exec (.zeroiseDone b) s = .next s) ∧
      ∀ (bay o : Nat), bay < 8 →
        ((s.resid bay o).loading = false ∨ s.inStore o = false ∨ s.servedNow bay o = false → exec (.contentResident bay o) s = .next s) ∧
        ((s.resid bay o).loading = true → s.inStore o = true → s.servedNow bay o = true →
          (s.noDecrypt false = false ∨ (s.contentOf o).prot = false) → pinJobs bay o s = [] →
          ∃ t, exec (.contentResident bay o) s = .next t ∧ t.objResident bay o = true ∧ (t.resid bay o).loading = false ∧
            (∀ r ∈ t.mem.requests, r.bay = bay → r.object = o → r.refill ≠ none) ∧
            ∀ a n, (s.resid bay o).at_ = [(a, n)] → n = objWords (s.contentOf o).header → Mem.wf s.mem.store = true →
              ∀ i, i < n → Mem.word t.mem.store (a + i) = s.objWord o i) ∧
        ((s.resid bay o).loading = true → s.inStore o = true → s.servedNow bay o = true → s.noDecrypt false = true → (s.contentOf o).prot = true →
          ∃ t, exec (.contentResident bay o) s = .next t ∧ t.objResident bay o = s.objResident bay o ∧ (t.resid bay o).loading = false ∧
            t.mem.store = s.mem.store) ∧
        ∀ (stream : Bool) (r : MemReq) (rs : List MemReq), s.mem.requests = r :: rs → rs.Pairwise (fun x y => memRank x ≤ memRank y) →
          ∃ us, (postRequest bay o stream s).mem.requests = r :: us ∧ us.Pairwise (fun x y => memRank x ≤ memRank y) ∧
            ∃ q, us.Perm (q :: rs) ∧ q.bay = bay ∧ q.object = o ∧ q.cls = requestClass bay stream s)

/-- An access of the Host Window from the inside and one from the outside in the same clk (R335, R336, R337): where they do not collide both are done;
a collision in a SAFE region delivers the old word to a reader outside and writes the inside first, counted in HW_STATUS.SAFE; in a FAST region two
reads both return the word, and any other outer access is busy, its write not performed, counted in HW_STATUS.BUSY, and on PCIe the bridge repeats it.
Beyond the window lies the control page (R493): a host write writes its register, and a read of TMR_STATUS by the Conductor clears MISSED and LOST
(R416). Without a host port the outer access does nothing (R22). A quad SPI transaction, when that is the host port form (R22, R471), moves 1 to 64
words and ends with its status byte 0 when none met a collision (R337, R493); an unknown command byte gives status 1 and moves nothing. In SLEEP the
status reads busy (R483). In another form nothing is done. -/
def Obligations.HostWindowAndQuadSpi : Prop :=
  -- HostWindowAccesses
  (∀ (i o : WordAcc) (s : State), i.word < 0x40000 → o.word < 0x40000 →
      let read : List Word := if o.wr.isNone then [Mem.word s.mem.win o.word] else []
      (exec (.hostWindowAccess none none) s = .next { s with mem := { s.mem with lastRead := [] } }) ∧
      (s.power.host = 3 → exec (.hostWindowAccess none (some o)) s = .next { s with mem := { s.mem with lastRead := [] } }) ∧
      (s.inReset = false →
        (∃ t, exec (.hostWindowAccess (some i) none) s = .next t ∧ t.mem.win = (putWin i s).mem.win ∧ t.mem.lastRead = innerRead (some i) s) ∧
        ∀ n, n < 16 → ∃ t, exec (.hostWindowAccess (some { word := 0x40000 + (0xD0C + 0x20 * n) / 4 }) none) s = .next t ∧
          t.mem.lastRead = [s.tmrStatus n] ∧ t.timer n = { s.timer n with missed := 0, lost := 0 }) ∧
      (s.portUp = true →
        (∃ t, exec (.hostWindowAccess none (some o)) s = .next t ∧ t.mem.win = (putWin o s).mem.win ∧ t.mem.lastRead = read ∧ t.mem.bsyN = true) ∧
        (∀ (off : Nat) (v : Word), off % 4 = 0 → off < 0x10000 → ∃ t,
          exec (.hostWindowAccess none (some { word := 0x40000 + off / 4, wr := some v })) s = .next t ∧
          t = { hostWrite off v 0xF s with mem := { (hostWrite off v 0xF s).mem with lastRead := [], bsyN := true } }) ∧
        ((collides i o = false ∨ (bothRead i o = true ∧ s.fastWord o.word = true)) → ∃ t, exec (.hostWindowAccess (some i) (some o)) s = .next t ∧
          t.mem.win = (putWin o (putWin i s)).mem.win ∧ t.mem.lastRead = innerRead (some i) s ++ read ∧
          t.mem.bsyN = true ∧ t.mem.hwBusy = s.mem.hwBusy ∧ t.mem.hwSafe = s.mem.hwSafe) ∧
        (collides i o = true → s.fastWord o.word = false → ∃ t, exec (.hostWindowAccess (some i) (some o)) s = .next t ∧
          t.mem.win = (putWin o (putWin i s)).mem.win ∧ t.mem.bsyN = true ∧ t.mem.hwSafe = satInc s.mem.hwSafe ∧
          t.mem.lastRead = innerRead (some i) s ++ read) ∧
        (collides i o = true → bothRead i o = false → s.fastWord o.word = true → s.pcieForm = false →
          ∃ t, exec (.hostWindowAccess (some i) (some o)) s = .next t ∧
            t.mem.win = (putWin i s).mem.win ∧ t.mem.bsyN = (s.power.host != 1) ∧ t.mem.hwBusy = satInc s.mem.hwBusy) ∧
        (collides i o = true → bothRead i o = false → s.fastWord o.word = true → s.pcieForm = true →
          ∃ t, exec (.hostWindowAccess (some i) (some o)) s = .next t ∧
            t.mem.win = (putWin o (putWin i s)).mem.win ∧ t.mem.bsyN = true ∧ t.mem.hwBusy = satInc s.mem.hwBusy))) ∧
  -- QspiTransactions
  ((∀ (word n : Nat) (s : State), 1 ≤ n → n ≤ 64 → word + n ≤ 0x40000 → s.power.host = 2 → s.portUp = true → ∃ t, exec (.qspiRead word n []) s = .next t ∧
      t.mem.lastRead = (List.range n).map (fun i => Mem.word s.mem.win (word + i)) ∧ t.mem.qspiStatus = 0 ∧ t.mem.win = s.mem.win) ∧
    (∀ (word : Nat) (ws : List Word) (s : State), 1 ≤ ws.length → ws.length ≤ 64 → word + ws.length ≤ 0x40000 → Mem.wf s.mem.win = true → s.power.host = 2 → s.portUp = true →
      ∃ t, exec (.qspiWrite word ws []) s = .next t ∧ (∀ i w, ws[i]? = some w → Mem.word t.mem.win (word + i) = w) ∧ t.mem.qspiStatus = 0 ∧
        ∀ a, (a / 4 < word ∨ word + ws.length ≤ a / 4) → Mem.read t.mem.win a = Mem.read s.mem.win a) ∧
    (∀ (word n : Nat) (s : State), 1 ≤ n → n ≤ 64 → word + n ≤ 0x40000 → s.power.host = 2 → s.inReset = false → s.power.state = 2 →
      ∃ t, exec (.qspiRead word n []) s = .next t ∧ t.mem.qspiStatus = 1 ∧ t.mem.win = s.mem.win) ∧
    (∀ (cmd : Byte) (s : State), s.power.host = 2 → exec (.qspiUnknownCommand cmd) s =
      .next { s with mem := { s.mem with qspiStatus := if cmd = 0xEB ∨ cmd = 0x38 then s.mem.qspiStatus else 1 } }) ∧
    ∀ (word n : Nat) (ws : List Word) (cmd : Byte) (s : State), s.power.host ≠ 2 → 1 ≤ n → n ≤ 64 → word + n ≤ 0x40000 → ws.length = n →
      exec (.qspiRead word n []) s = .next s ∧ exec (.qspiWrite word ws []) s = .next s ∧ exec (.qspiUnknownCommand cmd) s = .next s)

/-- The parallel port, when it is the host port form (R22, R471), moves a word as two halves (R338): a read of the lower half latches the upper half,
a read of the upper half returns the latch, a write of the lower half is latched, a write of the upper half writes the word, and the latch is kept
until the next lower-half write. Collisions arise only at lower-half reads and upper-half writes, BSY_N stands high after an access of another half
(R337), and a busy upper-half write keeps the latch for its repeat. Beyond the Host Window the halves move the words of the control page. In SLEEP the
port is busy and nothing moves (R483). In another form its accesses do nothing. -/
def Obligations.ParallelPortHalves : Prop :=
  ∀ (word : Nat) (v : BitVec 16) (i : WordAcc) (s : State), word < 0x40000 → i.word < 0x40000 → Mem.wf s.mem.win = true → s.power.host = 1 → s.portUp = true →
    let x := Mem.word s.mem.win word
    let mine : WordAcc := { word := word, wr := some (v ++ s.mem.wrLatch) }
    (∃ t, exec (.lowerHalfRead word none) s = .next t ∧ t.mem.rdLatch = (x >>> 16).setWidth 16 ∧
      t.mem.lastRead = [((x.setWidth 16 : BitVec 16).setWidth 32 : Word)] ∧ t.mem.bsyN = true ∧ t.mem.win = s.mem.win) ∧
    exec .upperHalfRead s = .next { s with mem := { s.mem with lastRead := [s.mem.rdLatch.setWidth 32], bsyN := true } } ∧
    exec (.lowerHalfWrite word v) s = .next { s with mem := { s.mem with wrLatch := v, wrAddr := word, bsyN := true } } ∧
    (∃ t, exec (.upperHalfWrite word v none) s = .next t ∧ Mem.word t.mem.win word = v ++ s.mem.wrLatch ∧ t.mem.wrLatch = s.mem.wrLatch ∧
      t.mem.bsyN = true ∧ ∀ a, a / 4 ≠ word → Mem.read t.mem.win a = Mem.read s.mem.win a) ∧
    (collides i { word := word } = true → i.wr.isSome = true → s.fastWord word = true →
      ∃ t, exec (.lowerHalfRead word (some i)) s = .next t ∧ t.mem.bsyN = false ∧ t.mem.hwBusy = satInc s.mem.hwBusy) ∧
    (collides i mine = true → s.fastWord word = true → ∃ t, exec (.upperHalfWrite word v (some i)) s = .next t ∧ t.mem.bsyN = false ∧
      t.mem.wrLatch = s.mem.wrLatch ∧ t.mem.hwBusy = satInc s.mem.hwBusy ∧ t.mem.win = (putWin i s).mem.win) ∧
    (∀ off : Nat, off % 4 = 0 → off < 0x10000 →
      (∃ t, exec (.lowerHalfRead (0x40000 + off / 4) none) s = .next t ∧ t.mem.rdLatch = ((hostRead off s).1 >>> 16).setWidth 16) ∧
      (∃ t, exec (.upperHalfWrite (0x40000 + off / 4) v none) s = .next t ∧ t.mem.win = (hostWrite off (v ++ s.mem.wrLatch) 0xF s).mem.win)) ∧
    (let u := { s with power := { s.power with state := 2 } };
      (∃ t, exec (.lowerHalfRead word none) u = .next t ∧ t.mem.bsyN = false ∧ t.mem.win = s.mem.win) ∧
      ∃ t, exec (.upperHalfWrite word v none) u = .next t ∧ t.mem.bsyN = false ∧ t.mem.win = s.mem.win ∧ t.mem.wrLatch = s.mem.wrLatch) ∧
    ∀ p : BitVec 2, p ≠ 1 → let u := { s with power := { s.power with host := p } }
      exec (.lowerHalfRead word none) u = .next u ∧ exec .upperHalfRead u = .next u ∧ exec (.lowerHalfWrite word v) u = .next u ∧
      exec (.upperHalfWrite word v none) u = .next u

-- frame and Conductors ----------------------------------------------------------------------------------------------------
/-- FRAME_TICK (R18, R28, R32, R75, R286): none while the tick stands or in reset. A tick begins a frame at the Device Time it falls at: Frame Count
advances by one, Stamp32 reads the value of the tick before plus the ticks of a frame, and both keep a value that a reset or a restart gave them. Then
come in this order the active Conductor's check (R287), what the frame that ended leaves, the commands of the boundary (R75), closings (R312), the
release of events (R32), receive buffers, promotions and parked events (R288, R313, R314), the inputs (R353), the mailboxes (R62, R65), a reset that
is due (R484), and SLEEP (R482) or the copy into the standby's mirror. A waiting command that acts at the boundary becomes DONE with its words; one
without an entry there is DONE as it stands. -/
def Obligations.FrameTickAdvances : Prop :=
  ∀ (check : CondCheck) (inputs : Inputs) (slips : List Slip) (s : State),
    ((s.time.ticking = false ∨ s.inReset = true) → exec (.frameTick check inputs slips) s = .next s) ∧
    (s.time.ticking = true → s.inReset = false → ∃ u v t, exec (.frameTick check inputs slips) s = .next t ∧
      u.time.clk = 0 ∧ u.time.tickDt = s.time.deviceTime ∧
      u.time.frameCount = (if s.time.countHold then s.time.frameCount else s.time.frameCount + 1) ∧
      u.time.stamp = (if s.time.stampHold then s.time.stamp else s.time.stamp + BitVec.ofNat 32 s.tpf) ∧
      u.time.countHold = false ∧ u.time.stampHold = false ∧ u.power.wakeHold = false ∧
      v = tickReset (tickMailbox (tickUpkeep (tickSums inputs slips (tickSessions (tickRelease (tickClosings
        (tickOutputs (tickConfig (tickEnds (tickConductor check u)))))))))) ∧
      (v.power.sleepDue = true → t.power.state = 2 ∧ t.power.sleepDue = false ∧ t.time.ticking = false) ∧
      (v.power.sleepDue = false → t = { v with se := t.se } ∧ (t.mbx.standbyReady = true → t.condDown = false → t.se.mirror = mirrorOf t))) ∧
    (∀ jb t ws, jb.opcode ≠ 0x010 → jb.opcode ≠ 0x420 → jb.opcode ≠ 0x421 → boundaryEffect jb (offTimeline jb.j (dropJob jb.j s)) = some (t, ws) →
      applyJob s jb = endCommand .done jb.j jb.e stDone ws t) ∧
    ∀ jb ∈ boundaryJobs s, takesField s jb = true → (tickEpoch s).mbx.epoch = nextEpoch s.mbx.epoch

/-- The active Conductor's reports, and who gives up (R287, R289, R290): a check that passes resets the count of silent boundaries, a silent one adds
one, a failed one and the watchdog after two fence the Conductor and record the loss; a lone Conductor that restarts does the same, and the standby's
mirror becomes ready in phase 7 only, while a Conductor acts. How a new Conductor takes over (R47, R88, R286 to R289): a switch names the other
Conductor, advances SWITCHES and sets FAILOVER; the new Conductor goes on from its mirror's clock domains, what their ports have still to send being
the hardware's, and from its parameter values, and takes the receive buffers over last; after a failover or a lone restart the journal's owed answers,
and a final response that still waits for room, are F_FAILOVER, running stepped commands are resolved, and the mailboxes are served. A planned switch
(R290, R291, R297): it takes place only when no stepped command runs and no other command awaits its response; COND.SWITCH is then DONE with
HW_COND_STATUS, and one that waits too long is DONE with E_BUSY. A Conductor that gave up takes control back after 1 s of STANDBY_READY, unless it
lost control 3 times in 60 s. -/
def Obligations.ConductorsGiveUpAndTakeOver : Prop :=
  -- ConductorsGiveUp
  (∀ s : State,
      (s.mbx.fenced = false → (tickConductor .pass s).mbx.missed = 0) ∧
      (s.mbx.fenced = false → (tickConductor .silent s).mbx.missed = s.mbx.missed + 1 ∧
        (tickConductor .fail s).mbx.fenced = true) ∧
      (s.mbx.missed < 2 → exec .watchdogTakeover s = .next s) ∧
      (2 ≤ s.mbx.missed → s.mbx.fenced = false → ∃ t, exec .watchdogTakeover s = .next t ∧ t.mbx.fenced = true ∧
        t.mbx.lost.head? = some (s.mbx.activeB, s.time.frameCount) ∧ t = { s with mbx := t.mbx } ∧ t.mbx.journal = s.mbx.journal) ∧
      (s.mbx.fenced = false → s.mbx.standbyReady = false → ∃ t, exec .conductorRestart s = .next t ∧ t.mbx.fenced = true ∧ t.mbx.activeB = s.mbx.activeB) ∧
      (s.mbx.fenced = true → s.mbx.standbyReady = true → ∃ t, exec .conductorRestart s = .next t ∧ t.mbx.standbyReady = false ∧
        t.mbx.activeB = !s.mbx.activeB ∧ t.mbx.fenced = true) ∧
      (s.power.phase = 7 → s.condDown = false → ∃ t, exec .standbyReady s = .next t ∧ t.mbx.standbyReady = true ∧ t.mbx.activeB = s.mbx.activeB) ∧
      ((s.power.phase ≠ 7 ∨ s.condDown = true) → exec .standbyReady s = .next s)) ∧
  -- ConductorsTakeOver
  (∀ s : State,
      ((switchOver s).mbx.activeB = !s.mbx.activeB ∧ (switchOver s).mbx.switches = satInc s.mbx.switches ∧
        (switchOver s).mbx.dbRsp.getLsbD 16 = true ∧ (switchOver s).mbx.journal = s.mbx.journal) ∧
      (s.mbx.fenced = true → s.mbx.standbyReady = true → s.inReset = false →
        exec .conductorFailover s = .next (serveAll (failover s)) ∧ ∃ t, failover s = takeBuffers t ∧ t.mbx.fenced = false ∧
          t.mbx.standbyReady = false ∧ t.mbx.gaveUp = true) ∧
      (¬ (s.mbx.fenced = true ∧ s.mbx.standbyReady = true ∧ s.inReset = false) → exec .conductorFailover s = .next s) ∧
      (s.mbx.fenced = true → s.mbx.standbyReady = false → s.inReset = false →
        exec .restartAloneDone s = .next (serveAll (restartDone s)) ∧ ∃ t, restartDone s = takeBuffers t ∧ t.mbx.fenced = false ∧
          t.mbx.missed = 0) ∧
      (∀ d, (d = 0 ∨ d = 2) → (takeMirror s).dom d = { s.se.mirror.doms.look d {} with sent := (s.dom d).sent }) ∧
      (takeMirror s).params.endpoints = s.se.mirror.endpoints ∧ (takeMirror s).params.envs = s.se.mirror.envs ∧
      (s.mbx.running = [] → ∀ y ∈ s.mbx.journal, y.owed = true →
        ∃ t, failover s = takeBuffers t ∧ ∃ x ∈ t.mbx.journal, x.idx = y.idx ∧ x.failover = true ∧ (x.owed = true → y.unfinished = true)) ∧
      ∀ n r x, n < 16 → (s.chan n).held = [r] → r.final = true → r.status ≠ fFailover → journalFind r.jindex s = some x →
        ∃ q, ((oweFailover s).chan n).held = [q] ∧ q.status = fFailover ∧ q.seq = r.seq ∧ q.words.head? = some x.stateWord) ∧
  -- PlannedSwitches
  (∀ s : State,
      ((s.condDown = true ∨ s.mbx.standbyReady = false) → exec .plannedSwitch s = .next s ∧ exec .takeControlBack s = .next s) ∧
      (∀ jb, s.condDown = false → s.mbx.standbyReady = true → switchJob s = some jb →
        (plannedOk none s = false → exec .plannedSwitch s = .next s) ∧
        (plannedOk none s = true → ∃ t, exec .plannedSwitch s = .next t ∧ t.mbx.activeB = !s.mbx.activeB ∧ t.mbx.switches = satInc s.mbx.switches ∧
          t.mbx.gaveUp = false) ∧
        exec .plannedSwitchTimeout s = .next (endCommand .done jb.j jb.e eBusy [] (dropJob jb.j s)) ∧ exec .takeControlBack s = .next s) ∧
      (switchJob s = none → exec .plannedSwitchTimeout s = .next s) ∧
      (s.condDown = false → s.mbx.standbyReady = true → s.mbx.gaveUp = true → switchJob s = none → plannedOk none s = true →
        famFrames s.time.rate 6000 5513 ≤ s.mbx.readyFrames → ((recentLosses s).filter fun p => p.1 != s.mbx.activeB).length < 3 →
        ∃ t, exec .takeControlBack s = .next t ∧ t.mbx.activeB = !s.mbx.activeB ∧ t.mbx.gaveUp = false))

/-- Steps (R76, R77): while no Conductor serves and for a command that does not run nothing happens; a step that fails ends its command with
P_PARTIAL, the step and its status, and a failure under the probation of FW.UPDATE first ends it (R292); a step whose effects are complete is
recorded, and the last one ends the command with DONE. Steps 2 and 4 of FW.UPDATE write the image into the alternate slot of the boot flash and the
older copy of the boot header (R292, R474). -/
def Obligations.StepsAreRecorded : Prop :=
  (∀ (st : Stepped) (data : List Word) (s : State), ∃ t u ws, fwStep st 2 data s = some (.ok (t, [])) ∧ fwStep st 4 data s = some (.ok (u, ws)) ∧
    let other := b2n !s.power.bootSlot
    t.power.flash.slots.look other [] = fwImage st.e s ∧ t.power.flash.slots.look (b2n s.power.bootSlot) [] = s.power.flash.slots.look (b2n s.power.bootSlot) [] ∧
    t.mbx.standbyReady = true ∧ u.power.bootSlot = !s.power.bootSlot ∧ u.power.headerSeq = s.power.headerSeq + 1 ∧
    u.power.flash.copy = !s.power.flash.copy ∧
    u.power.flash.headers.look (b2n s.power.flash.copy) [] = s.power.flash.headers.look (b2n s.power.flash.copy) [] ∧
    (u.power.flash.headers.look (b2n u.power.flash.copy) []).length = 16 ∧
    (u.power.flash.headers.look (b2n u.power.flash.copy) []).getD 1 0 = s.power.headerSeq + 1) ∧
  ∀ (j : Word) (err : BitVec 16) (data : List Word) (s : State),
    (s.condDown = true → exec (.stepEffectsComplete j err data) s = .next s) ∧
    ((s.mbx.running.find? fun x => x.j == j) = none → exec (.stepEffectsComplete j err data) s = .next s) ∧
    ∀ st r, s.condDown = false → (s.mbx.running.find? fun x => x.j == j) = some st → stepEffects st (st.done + 1) data s = some r →
      let k := st.done + 1
      (err ≠ 0 → exec (.stepEffectsComplete j err data) s =
        .next (endStepped .done st pPartial [pack [(k, 16), (st.n, 0)], err.setWidth 32] (endProbation st s))) ∧
      ((st.opcode ≠ 0x041 ∨ s.power.probation = false) → endProbation st s = s) ∧
      (st.opcode = 0x041 → s.power.probation = true → (endProbation st s).power.probation = false ∧ (endProbation st s).mbx.standbyReady = false ∧
        (endProbation st s).mbx.activeB = if s.mbx.standbyReady then !s.mbx.activeB else s.mbx.activeB) ∧
      (∀ x, err = 0 → r = .error x → exec (.stepEffectsComplete j err data) s =
        .next (endStepped .done st pPartial [pack [(k, 16), (st.n, 0)], x.setWidth 32] s)) ∧
      (∀ t ws, err = 0 → r = .ok (t, ws) →
        let u := recordStep st k (onRunning j (fun x => { x with words := x.words ++ ws }) t)
        exec (.stepEffectsComplete j err data) s = .next (if k = st.n then endStepped .done st stDone (st.words ++ ws) u else u))

/-- KERF_START, RATE_CHANGE_COMPLETE and BAY_MODE_DRAIN_END (R25, R125, R273, R294, R353): the Kerf closes the buses of the frame at its stamp; a rate
change starts the tick again at the new rate, Stamp32 rounded up to a multiple of 512, and ends its command; the end of a drain, when no voice of the
Bay sounds, records step 2 of BAY.MODE, and the Bay's next frame boundary puts it into the mode asked for and ends the command (R272). -/
def Obligations.KerfRateAndDrain : Prop :=
  ∀ s : State,
    ((s.time.ticking = false ∨ s.inReset = true) → exec .kerfStart s = .next s) ∧
    (s.time.ticking = true → s.inReset = false → ∃ t, exec .kerfStart s = .next t ∧ t.bridge.closedStamp = s.time.stamp ∧
      t.params.endpoints = s.params.endpoints) ∧
    ((s.mbx.jobs.find? fun jb => jb.opcode == 0x101) = none → exec .rateChangeComplete s = .next s) ∧
    (∀ jb, (s.mbx.jobs.find? fun jb => jb.opcode == 0x101) = some jb → ∃ t, exec .rateChangeComplete s = .next t ∧ t.time.ticking = true ∧
      t.time.clk = 0 ∧ t.time.stamp.toNat % 512 = 0 ∧ t.time.reach = t.time.stamp) ∧
    ∀ b, b < 8 →
      (modeChange b s = none → exec (.bayModeDrainEnd b) s = .next s) ∧
      ∀ st, modeChange b s = some st → (changeKind st).drains = true →
        (st.done = 1 → drained b s = true → exec (.bayModeDrainEnd b) s = .next (recordStep st 2 s)) ∧
        (st.done ≠ 1 ∨ drained b s = false → exec (.bayModeDrainEnd b) s = .next s) ∧
        (st.done = 2 → ((tickMode s b).bay b).mode = modeWanted st.e ∧ ∀ x ∈ (tickMode s b).mbx.running, x.j ≠ st.j)

-- voices ------------------------------------------------------------------------------------------------------------------
/-- The flags of the blocks (R138, R152, R243, R246): when the oscillator block of a position is rendered, flag O of the next instance of each task
there, and of a lane test's task on the Course (R242, R450), is raised; when its decimated block is, the buffers of the task's context hold the two
streams and flag D is raised. A position with no voice, on either Course of a pair, changes nothing else. The buffer of a voice that moved is copied
in its turn (R153): the voice at the head of its old Course's queue leaves it, flag D of its task on the new core is raised, and the 64 words of the
buffer on the old core, with the new block in place of theirs, stand in its new one; any other copy waits. -/
def Obligations.BlockFlagsAndMovedBuffers : Prop :=
  -- BlockFlags
  (∀ (c p : Nat) (s : State), c < 8 → p < 128 →
      (s.flagged c p = [] → s.atPosition c p = [] → exec (.oscillatorBlockFlag c p) s = .next (raiseTestBlocks c s) ∧
        exec (.decimatedBlockFlag c p) s = .next s) ∧
      (∀ k ctx x, k / 8 = c → (s.core k).tasks.find ctx = some x →
        ((raiseTestBlocks c s).core k).tasks.find ctx = some (if x.kind = 2 then { x with next := setBit x.next 1 true } else x)) ∧
      (∀ k, k / 8 ≠ c → (raiseTestBlocks c s).core k = s.core k) ∧
      ∀ i x, s.atPosition c p = [i] → s.flagged c p = [i] → (s.voice i).core / 8 = c → s.twin (s.voice i).core = none → (s.voice i).moveFrom = none →
        let k := (s.voice i).core
        let ctx := (s.voice i).ctx
        (s.core k).tasks.find ctx = some x → Mem.wf (s.core k).y = true →
        (∃ t, exec (.oscillatorBlockFlag c p) s = .next t ∧ (t.core k).tasks.find ctx = some { x with next := setBit x.next 1 true }) ∧
        (∃ t, exec (.decimatedBlockFlag c p) s = .next t ∧ (t.core k).tasks.find ctx = some { x with next := setBit x.next 2 true } ∧
          let a := 192 * ctx + (if s.nextOdd (s.voice i).bay then 64 else 0)
          (∀ j w, j < 32 → (t.voice i).strA.out[j]? = some w → Mem.read (t.core k).y (a + j) = w) ∧
          (∀ j w, j < 32 → (t.voice i).strB.out[j]? = some w → Mem.read (t.core k).y (a + 32 + j) = w))) ∧
  -- MovedBuffers
  (∀ (i : Nat) (s : State), i < 8192 →
      ((s.voice i).moveFrom = none → exec (.inputBufferCopy i) s = .next s) ∧
      ∀ m, (s.voice i).moveFrom = some m →
        ((s.course (m.1 / 8)).copies.head? ≠ some i → exec (.inputBufferCopy i) s = .next s) ∧
        (∀ x, (s.course (m.1 / 8)).copies.head? = some i → s.twin (s.voice i).core = none →
          (s.core (s.voice i).core).tasks.find (s.voice i).ctx = some x →
          ∃ t, exec (.inputBufferCopy i) s = .next t ∧ (t.course (m.1 / 8)).copies = (s.course (m.1 / 8)).copies.tail ∧
            (t.core (s.voice i).core).tasks.find (s.voice i).ctx = some { x with next := setBit x.next 2 true } ∧ t.voices = s.voices ∧
            (m.1 ≠ (s.voice i).core → (s.core m.1).tasks.find m.2.1 = none → Mem.wf (s.core (s.voice i).core).y = true →
              (s.voice i).strA.out.length = s.spf → (s.voice i).strB.out.length = s.spf → s.spf ≤ 32 →
              let lo := if s.nextOdd (s.voice i).bay then 64 else 0
              ∀ j, j < 64 → (j < s.spf ∨ (32 ≤ j ∧ j < 32 + s.spf) ∨ Mem.read (t.core (s.voice i).core).y (192 * (s.voice i).ctx + lo + j) =
                Mem.read (s.core m.1).y (192 * m.2.1 + lo + j)))))

/-- The life of a voice (R99, R102, R104, R105): at its onset a voice in PRE-ROLL is HELD; at the end of its Scarf it is marked to reach FREE; a slot
whose quarantine has run joins the free slots behind those that were there. In any other state the voice stays as it is. -/
def Obligations.VoiceLifeEvents : Prop :=
  ∀ (i : Nat) (s : State), i < 8192 →
    let v := s.voice i
    (v.inUse = true → v.st = .preRoll → v.toFree = false → s.reached v.bay (sampleCeil v.onset) = true →
      exec (.onset i) s = .next (s.setVoice i { v with st := .held })) ∧
    ((v.st ≠ .preRoll ∨ s.reached v.bay (sampleCeil v.onset) = false) → exec (.onset i) s = .next s) ∧
    (v.inUse = true → v.st = .scarf → s.reached v.bay v.scarfEnd = true → exec (.scarfEnd i) s = .next (s.setVoice i { v with toFree := true })) ∧
    ((v.st ≠ .scarf ∨ s.reached v.bay v.scarfEnd = false) → exec (.scarfEnd i) s = .next s) ∧
    (v.inUse = true → v.st = .free → v.quarLeft = 0 → ∃ t, exec (.quarantineEnd i) s = .next t ∧ t.freed = s.freed ++ [i] ∧ t.voice i = { v with inUse := false } ∧
      ∀ n, n ≠ i → t.voice n = s.voice n) ∧
    ((v.st ≠ .free ∨ v.quarLeft ≠ 0) → exec (.quarantineEnd i) s = .next s)

/-- Envelope segments, override groups and templates (R105, R109, R169 to R175, R184): a sounding voice's envelope runs through the present frame,
where a segment that has ended, with no event waiting before it, is followed as the header says (it loops, holds, goes on or ends), and a voice whose
envelope 0 is done is marked to reach FREE; a group idle for its time gives its values back and unbinds; a template whose tables have come is ready in
its core. -/
def Obligations.SegmentsGroupsAndTemplates : Prop :=
  (∀ (i n : Nat) (s : State), i < 8192 → n < 6 →
    let v := s.voice i
    let x := v.envs.getD n {}
    let y := (s.envThrough v (s.frameEnv i v) n).1
    let runs := v.inUse = true ∧ (v.st.counted = true ∨ v.st = .scarf) ∧ v.toFree = false ∧ n < v.envs.length
    (¬ runs → exec (.envelopeSegmentEnd i n) s = .next s) ∧
    (runs → ∃ t, exec (.envelopeSegmentEnd i n) s = .next t ∧ (t.voice i).envs = v.envs.set n y ∧
      (t.voice i).st = v.st ∧ (t.voice i).toFree = (n == 0 && y.done) ∧ (∀ m, m ≠ i → t.voice m = s.voice m)) ∧
    ∀ (sc : EnvScale) (limit : Word), x.pend = [] → x.ns ≠ 0 →
      (x.hold = false → tickDist (segFin x) limit < 0 → envNext sc v n limit x = some (nextSeg sc v n x)) ∧
      (x.hold = true ∨ 0 ≤ tickDist (segFin x) limit → envNext sc v n limit x = none)) ∧
  (∀ (g : Nat) (s : State), g < 256 →
    (((s.group g).bound = false ∨ (s.group g).idle < groupFrames s.time.rate) → exec (.groupRelease g) s = .next s) ∧
    ((s.group g).bound = true → groupFrames s.time.rate ≤ (s.group g).idle → ∃ t, exec (.groupRelease g) s = .next t ∧ (t.group g).bound = false ∧
      (∀ p ∈ t.params.endpoints, p.1 / 256 ≠ 0x200 + g) ∧ ∀ p ∈ t.voices, p.2.group ≠ some g)) ∧
  ∀ (k n : Nat) (s : State), k < 64 → n < 256 →
    let now := s.frameOf (s.timelineBay (s.courseBay (k / 8)))
    ((∀ r ∈ (s.core k).resid, r.template = n → r.isReady = true ∨ now < r.ready) → exec (.templateResident k n) s = .next s) ∧
    ∀ r ∈ (s.core k).resid, r.template = n → r.isReady = false → r.ready ≤ now →
      ∃ t, exec (.templateResident k n) s = .next t ∧ (∀ q ∈ (t.core k).resid, q.template = n → q.ready ≤ now → q.isReady = true)

-- pairs and render --------------------------------------------------------------------------------------------------------
/-- The frame check and its events (R274, R278, R279, R282): outside lockstep, or with equal hashes, it does nothing; hashes that differ are counted
at the pair's home. A residue check that fails, and a fault of an output path, are events of the Bay; the latter is counted at the home of a pair
whose Bay in control it hits. The table Frame check outcomes for a home in control (R280, R281): with no fault on either side and equal hashes nothing
changes; a fault of the home alone makes it yield, the frame being taken from the mirror at once and control passing at the boundary, a fault of the
mirror alone drops the mirror, and hashes that differ without a fault are counted as unresolved. The frame's events are gone after it. -/
def Obligations.FrameChecksAndDecisions : Prop :=
  -- FrameChecks
  ((∀ (b : Nat) (fails : List Nat) (s : State), b < 8 →
      ((s.inLockstep b = false ∨ mismatched s b = []) → exec (.frameCheck b fails) s = .next s) ∧
      (s.inLockstep b = true → mismatched s b ≠ [] → ∃ t, exec (.frameCheck b fails) s = .next t ∧
        (t.bay (s.homeOf b)).mismatches = satInc (s.bay (s.homeOf b)).mismatches ∧ t.courses = s.courses ∧ t.voices = s.voices)) ∧
    (∀ (c lane : Nat) (s : State), c < 8 → lane < 12 → let b := s.courseBay c
      ∃ t, exec (.residueCheckFailure c lane) s = .next t ∧
        t.bay b = { s.bay b with events := (s.bay b).events ++ [(2, 16 * (c - (s.bay b).first.toNat) + lane)] } ∧ ∀ n, n ≠ b → t.bay n = s.bay n) ∧
    ∀ (b : Nat) (s : State), b < 8 →
      ((s.bay b).role = 0 → exec (.outputPathFault b) s = .next (s.setBay b { s.bay b with events := (s.bay b).events ++ [(6, 0)] })) ∧
      ((s.bay b).role ≠ 0 → s.inControl b = true → ∃ t, exec (.outputPathFault b) s = .next t ∧ (6, 0) ∈ (t.bay b).events ∧
        (t.bay (s.homeOf b)).lateOut = satInc (s.bay (s.homeOf b)).lateOut)) ∧
  -- FrameDecisions
  (∀ (b : Nat) (s : State), b < 8 →
      ((s.inLockstep b = false ∨ (s.bay (s.homeOf b)).yieldDue = true) → exec (.frameCheckDecision b) s = .next s) ∧
      (s.inLockstep b = true → (s.bay (s.homeOf b)).yieldDue = false → let h := s.homeOf b
        let m := s.partnerOf h
        s.controlOf h = h → m ≠ h → ∃ t, exec (.frameCheckDecision b) s = .next t ∧ (t.bay h).events = [] ∧ (t.bay m).events = [] ∧
          (ownEvents s h = [] → ownEvents s m = [] → mismatched s h = [] →
            (t.bay h).role = (s.bay h).role ∧ (t.bay m).role = (s.bay m).role ∧ (t.bay h).unresolved = (s.bay h).unresolved) ∧
          (ownEvents s h = [] → ownEvents s m = [] → mismatched s h ≠ [] → (t.bay h).unresolved = satInc (s.bay h).unresolved) ∧
          (ownEvents s h ≠ [] → ownEvents s m = [] → (t.bay h).yieldDue = true ∧ (t.bay m).role = (s.bay m).role ∧ (t.bay h).role = (s.bay h).role ∧
            (t.bay h).mode = (s.bay h).mode ∧ let u := tickYield t h
              (u.bay m).role = 4 ∧ (u.bay m).mode = (s.bay h).mode ∧ (u.bay h).mode = .service ∧ (u.bay h).yieldDue = false ∧
                (u.bay h).role = 5 ∧ (u.bay h).yields = satInc (s.bay h).yields ∧ (u.bay h).selfTest = true) ∧
          (ownEvents s h = [] → ownEvents s m ≠ [] → (t.bay m).role = 7 ∧ (t.bay m).mode = .service ∧ (t.bay h).role = (s.bay h).role ∧
            (t.bay h).drops = satInc (s.bay h).drops)))

/-- The way back to a whole pair (R274 to R276, R281, R283, R456): a Bay that resynchronises has joined once every word is copied and every task
cloned, with nothing left to copy; a self-test that passes ends it, and failed cores are to be retired; after a third yield within 60 s the home then
keeps off (role 6); a home in lockstep that is to return takes the mirror's mode and counts the return, and the mirror is a mirror again. RENDER
frames (R17, R29, R245, R281, R366): a frame starts only between frames of a RENDER Bay in control, after a change of control that is due, once every
task is ready, no copy waits and the ring has room; it ends once every task has run, and then the record is due or written. -/
def Obligations.PairsComeBackAndRender : Prop :=
  -- PairsComeBack
  (∀ (b : Nat) (s : State), b < 8 →
      (((s.bay b).role ≠ 3 ∨ (s.bay b).joined = true ∨ (s.bay b).lockstep = true ∨ s.resynced b = false) → exec (.resynchronisationEnd b) s = .next s) ∧
      ((s.bay b).role = 3 → (s.bay b).joined = false → (s.bay b).lockstep = false → s.resynced b = true →
        ∃ t, exec (.resynchronisationEnd b) s = .next t ∧ (t.bay b).joined = true ∧ (t.bay b).resyncLeft = 0 ∧ (t.bay b).mode = (s.bay b).mode) ∧
      (∀ failed, (s.bay b).selfTest = false → exec (.selfTestEnd b true failed) s = .next s ∧ exec (.selfTestEnd b false failed) s = .next s) ∧
      (∀ pass failed, (s.bay b).selfTest = true → ∃ t, exec (.selfTestEnd b pass failed) s = .next t ∧ (t.bay b).selfTest = !pass ∧
        (t.bay b).role = (if pass = true ∧ (s.bay b).role = 5 ∧ 3 ≤ (recentYields s b).length then 6 else (s.bay b).role) ∧
        ∀ k ∈ failed, (s.bayCores b).contains k = true → s.gone k = false → (t.core k).retireDue = true) ∧
      (let h := s.homeOf b
        let m := s.partnerOf h
        (¬ ((s.bay h).role = 3 ∧ (s.bay h).goHome = true ∧ s.inLockstep h = true) → exec (.returnHome b) s = .next s) ∧
        ((s.bay h).role = 3 → (s.bay h).goHome = true → s.inLockstep h = true → m ≠ h → ∃ t, exec (.returnHome b) s = .next t ∧
          (t.bay h).role = 1 ∧ (t.bay h).mode = (s.bay m).mode ∧ (t.bay h).returns = satInc (s.bay h).returns ∧ (t.bay h).goHome = false ∧
          (t.bay m).role = 2 ∧ (t.bay m).mode = .mirror ∧ (t.bay m).lockstep = true))) ∧
  -- RenderFrames
  (∀ (b : Nat) (s : State), b < 8 →
      let c := s.acting b
      let s1 := (s.baysWith (s.onRender c)).foldl tickYield s
      let d := if s1.inControl c then c else s1.partnerOf c
      let s0 := renderBays d (if (s1.bay d).recordDue && !s1.inLockstep d then recordNow d s1 else s1)
      (s.betweenFrames c = false → exec (.renderFrameStart b) s = .next s) ∧
      (s.betweenFrames c = true → (s0.betweenFrames d = false ∨ s0.mayRender d = false) → exec (.renderFrameStart b) s = .next s0) ∧
      (s.betweenFrames c = true → s0.betweenFrames d = true → s0.mayRender d = true →
        ∃ t, exec (.renderFrameStart b) s = .next t ∧ (t.bay d).inFrame = true) ∧
      (¬ ((s.bay c).inFrame = true ∧ (s.bay c).mode = .render ∧ s.inControl c = true ∧ s.frameDone c = true) → exec (.renderFrameEnd b) s = .next s) ∧
      ((s.bay c).inFrame = true → (s.bay c).mode = .render → s.inControl c = true → s.frameDone c = true →
        ∃ t, exec (.renderFrameEnd b) s = .next t ∧ (t.bay c).inFrame = false))

-- partners and sessions ---------------------------------------------------------------------------------------------------
/-- Packets of a network session (R288, R303 to R308, R313): while the MAC stands nothing arrives, and while no Conductor is active a packet waits in
the port's receive buffer; outside phase 7 or without its session it is ignored; else its messages are taken in their order after the check of the
packet's sequence number, which asks once for the packets of a gap and ignores an older number. A JR timestamp is kept for the next message; what
another message does goes to the intake, or is held while the session is parked. An event that enters (R31 to R35, R311): a stamp beyond the future
limit is counted in RANGE, a late one under DROP_LATE in its counter, another one without room in OVERFLOW, and none of these takes a place on the
timeline. The oldest event of the intake FIFO leaves it while the frame's intake has room, and its stamp is tested then (R310). PROMOTION fetches, for
each Bay with a coefficient area, the candidates that find room, once its 100 ms have passed (R126, R343). -/
def Obligations.PacketsAndEvents : Prop :=
  -- NetworkPackets
  (∀ (sid : Nat) (q : BitVec 16) (r : BitVec 64) (ps : List Ump) (s : State), sid < 256 →
      (s.macUp = false → exec (.networkMidiPacket sid q r ps) s = .next s) ∧
      (s.macUp = true → s.condDown = true → exec (.networkMidiPacket sid q r ps) s = .next (holdFrame (.networkMidiPacket sid q ps) s)) ∧
      (s.macUp = true → s.condDown = false → (s.netSession sid = false ∨ s.power.phase ≠ 7) → exec (.networkMidiPacket sid q r ps) s = .next s) ∧
      (s.macUp = true → s.condDown = false → s.netSession sid = true → s.power.phase = 7 →
        exec (.networkMidiPacket sid q r ps) s = .next (ps.foldl (networkPacket sid r) (checkSeq sid q s)) ∧
        (∀ p, bits (p.getD 0 0) 31 28 = 0 → bits (p.getD 0 0) 23 20 = 2 →
          networkPacket sid r s p = s.setSession sid { s.session sid with jrPending := some ((p.getD 0 0).setWidth 16) }) ∧
        (∀ p, ¬ (bits (p.getD 0 0) 31 28 = 0 ∧ bits (p.getD 0 0) 23 20 = 2) →
          let m := umpMessage p
          let u := s.setSession sid { s.session sid with jrPending := none }
          let a := messageAct sid m.1 (u.partOf sid m.1) m.2 u
          (a.2 = none → networkPacket sid r s p = a.1) ∧
          ∀ act, a.2 = some act → networkPacket sid r s p = deliver sid none act (u.stampEvent sid act.part (s.session sid).jrPending r) a.1) ∧
        (∀ (act : Action) (stamp : Word) (u : State),
          (u.parked sid = true → u.roomFor (some sid) 1 = true → deliver sid none act stamp u = u.setSession sid { u.session sid with
            parkedEvents := (u.session sid).parkedEvents ++ [{ stamp := stamp, session := some sid, act := act }] }) ∧
          (u.parked sid = false → deliver sid none act stamp u = intakeEvent sid act stamp false u)) ∧
        ((s.session sid).umpSeq = none → checkSeq sid q s = s.setSession sid { s.session sid with umpSeq := some q }) ∧
        (∀ l, (s.session sid).umpSeq = some l →
          ((q - l).toInt ≤ 0 → checkSeq sid q s = s) ∧
          (q = l + 1 → checkSeq sid q s = s.setSession sid { s.session sid with umpSeq := some q }) ∧
          (1 < (q - l).toInt → checkSeq sid q s =
            (s.setSession sid { s.session sid with umpSeq := some q }).send .retransmitRequest [sid, (l + 1).toNat, (q - l).toInt.toNat - 1])))) ∧
  -- EventsEnter
  ((∀ (i : Nat) (act : Action) (stamp : Word) (s : State),
      let reach := s.reachOf (s.partBay act.part)
      let x := s.session i
      (∀ held, classify stamp reach = .range → enterEvent i act stamp held s = s.setSession i { x with range := satInc x.range }) ∧
      (classify stamp reach ≠ .range → ¬ (classify stamp reach = .late ∧ x.dropLate = true) → s.roomFor (some i) 1 = false →
        enterEvent i act stamp false s = s.setSession i { x with overflow := satInc x.overflow }) ∧
      (∀ held, classify stamp reach = .late → x.dropLate = true →
        enterEvent i act stamp held s = s.setSession i { x with droppedLate := satInc x.droppedLate })) ∧
    ∀ s : State,
      ((s.se.fifo = [] ∨ intakePerFrame s.time.rate ≤ s.se.intakeTaken) → exec .intakeFifoExit s = .next s) ∧
      (∀ e r i, s.se.fifo = e :: r → e.session = some i → s.se.intakeTaken < intakePerFrame s.time.rate →
        exec .intakeFifoExit s = .next (enterEvent i e.act e.stamp false { s with se := { s.se with fifo := r, intakeTaken := s.se.intakeTaken + 1 } })) ∧
      (s.mem.promoteDue = false → exec .promotion s = .next s) ∧
      (s.mem.promoteDue = true → let s1 := { s with mem := { s.mem with promoteDue := false } }
        exec .promotion s = .next (((List.range 8).filter fun b => s.formed b && (s.bay b).coefArea).foldl promoteBay s1)) ∧
      (∀ b, candidates b s = [] → promoteBay s b = s) ∧
      (∀ b o, candidates b s = [o] → s.objResident b o = false → (s.resid b o).loading = false →
        (allocate b (objWords (s.contentOf o).header) (s.contentOf o).prot (s.bayBanks b) s).isSome = true →
        ((promoteBay s b).resid b o).loading = true ∧ ∃ q ∈ (promoteBay s b).mem.requests, q.bay = b ∧ q.object = o))

/-- Sessions of network partners (R288, R299 to R304, R308), while a Conductor is active: an invitation opens a session of the first free number with
the partner's identity, closing one of the same identity at the boundary, or is refused and counted; BYE and a silent partner close theirs; a JR
clock, the endpoint and function block enquiries, a stream configuration and a ping are answered as stated. With no Conductor active a message waits
in its receive buffer; while the MAC stands (R479, R480) none arrives. -/
def Obligations.PartnersAndSessions : Prop :=
  (∀ (port : Nat) (id : BitVec 64) (s : State), port < 2 →
    (s.macUp = false → ∀ au, exec (.invitation port id au) s = .next s) ∧
    (s.macUp = true → s.condDown = true → ∀ au, exec (.invitation port id au) s = .next (holdFrame (.invitation port id au) s)) ∧
    (s.macUp = true → s.condDown = false → s.power.phase ≠ 7 → exec (.invitation port id false) s = .next s ∧ exec (.invitation port id true) s = .next s) ∧
    (s.macUp = true → s.condDown = false → s.power.phase = 7 → exec (.invitation port id true) s = .next (s.send .bye [port, id.toNat]) ∧
      (openSession 0 port id s = none → exec (.invitation port id false) s =
        .next ({ s with se := { s.se with refused := satInc s.se.refused } }.send .bye [port, id.toNat])) ∧
      (∀ i s1, openSession 0 port id s = some (i, s1) → ∃ t, exec (.invitation port id false) s = .next t ∧
        (t.session i).isOpen = true ∧ (t.session i).identity = id ∧ (t.session i).transport = 0 ∧
        (∀ n, n ≠ i → n < 256 → (s.session n).isOpen = true → (s.session n).transport = 0 → (s.session n).identity = id →
          (t.session n).closing.isSome = true)))) ∧
  ∀ (sid : Nat) (s : State), sid < 256 →
    (s.macUp = false → exec (.bye sid) s = .next s ∧ exec (.endpointDiscovery sid) s = .next s ∧ exec (.functionBlockDiscovery sid) s = .next s ∧
      (∀ m, exec (.streamConfigurationRequest sid m) s = .next s) ∧ ∀ r c, exec (.jrClock sid r c) s = .next s) ∧
    (s.macUp = true → s.condDown = true →
      exec (.bye sid) s = .next (holdFrame (.bye sid) s) ∧ exec (.endpointDiscovery sid) s = .next (holdFrame (.endpointDiscovery sid) s) ∧
      exec (.functionBlockDiscovery sid) s = .next (holdFrame (.functionBlockDiscovery sid) s) ∧
      (∀ m, exec (.streamConfigurationRequest sid m) s = .next (holdFrame (.streamConfigurationRequest sid m) s)) ∧
      ∀ r c, exec (.jrClock sid r c) s = .next (holdFrame (.jrClock sid c) s)) ∧
    (s.macUp = true → s.condDown = false → s.netSession sid = false → exec (.bye sid) s = .next s ∧ exec (.ping sid) s = .next s ∧ exec (.endpointDiscovery sid) s = .next s ∧
      exec (.functionBlockDiscovery sid) s = .next s ∧ (∀ m, exec (.streamConfigurationRequest sid m) s = .next s) ∧
      ∀ r c, exec (.jrClock sid r c) s = .next s) ∧
    (s.macUp = true → s.condDown = false → s.netSession sid = true →
      (∃ t, exec (.bye sid) s = .next t ∧ (t.session sid).closing.isSome = true ∧ t.se.timeline = s.se.timeline) ∧
      exec (.ping sid) s = .next (s.send .ping [sid]) ∧ exec (.functionBlockDiscovery sid) s = .next (s.send .functionBlock [sid, 0, 0, 16]) ∧
      exec (.endpointDiscovery sid) s = .next ((((s.send .endpointInfo [sid, 1, 1, 1, 1, 0, 16, 1]).send .deviceIdentity (sid :: Config.deviceIdentity)).send
        .endpointName (sid :: s.endpointName)).send .productInstance [sid, s.vault.serial.toNat]) ∧
      (∀ m, exec (.streamConfigurationRequest sid m) s =
        .next ((s.setSession sid { s.session sid with midi2 := m }).send .streamConfigNotify [sid, b2n m, 1, 0])) ∧
      (∀ r c, ∃ t, exec (.jrClock sid r c) s = .next t ∧ (t.session sid).jr.length ≤ 16 ∧ (∀ x ∈ (t.session sid).jr, (r - x.2).toInt ≤ 2000000000) ∧
        (∀ x ∈ (t.session sid).jr, (t.session sid).offset.toInt ≤ x.1.toInt))) ∧
    (keepsAlive (s.session sid) = false → exec (.keepaliveTimeout sid) s = .next s) ∧
    (keepsAlive (s.session sid) = true → ∃ t, exec (.keepaliveTimeout sid) s = .next t ∧ (t.session sid).closing.isSome = true)

-- units -------------------------------------------------------------------------------------------------------------------
/-- Receiving (R400 to R404, R408, R410): a start bit makes an enabled, idle receiver busy; the receiver's return to idle takes the divider that
stands then; after ten idle bit times an enabled receiver accepts start bits; a character of a disabled or waiting receiver is lost; one in RAW mode
is held with its error bits, one that is held already is lost and counted; a wrong stop bit or parity is counted and ends the MIDI message; a parity
bit makes the number of ones even or odd, and on a SIR line no pulse below 100 ns counts; and the Conductor moves a held RAW character into the ring
of 1,024 bytes while there is room. Sending (R400, R406, R418): the line carries the bits of the character that goes out, start bit first, for 16 DIV
/ 256 clk each; a character that has been sent leaves the shifter, and the oldest byte of the FIFO enters it; a stamped send whose moment has come,
after those of earlier stamps, puts its bytes behind those in the FIFO of an enabled UART, counts a late transmission when there were any, and is
DONE; before its moment nothing happens. -/
def Obligations.UartsReceiveAndSend : Prop :=
  -- UartReceives
  (∀ (u : Nat) (s : State), u < 8 → let x := s.uart u
      (x.enable = true → x.idleWait = false → x.rxBusy = false →
        exec (.startBit u) s = .next (s.setUart u { x with rxBusy := true, rxDiv := x.div })) ∧
      ((x.enable = false ∨ x.idleWait = true ∨ x.rxBusy = true) → exec (.startBit u) s = .next s) ∧
      exec (.receiverReturnsToIdle u) s = .next (s.setUart u { x with rxBusy := false, rxDiv := x.div }) ∧
      (x.enable = true → s.power.state ≠ 2 → exec (.lineIdleTenBitTimes u) s = .next (s.setUart u { x with idleWait := false })) ∧
      (∀ l p st r, (x.enable = false ∨ x.idleWait = true) → exec (.uartCharacterComplete u l p st r) s = .next s) ∧
      (∀ d p st, x.judge p st (.levels d) = (x.dataOf d, p, st)) ∧
      (∀ p st ps, (∀ q ∈ ps, q.2 < 20) → x.judge p st (.pulses ps) = (if x.data8 then 0xFF else 0x7F, true, true)) ∧
      (∀ d, (x.parity = 1 → x.parityOf d = decide (((List.range 8).filter d.getLsbD).length % 2 = 1)) ∧
        (x.parity = 2 → x.parityOf d = decide (((List.range 8).filter d.getLsbD).length % 2 = 0))) ∧
      (∀ l p0 st0 d p st r, x.judge p0 st0 l = (d, p, st) → x.enable = true → x.idleWait = false → x.raw = true →
        ∃ t, exec (.uartCharacterComplete u l p0 st0 r) s = .next t ∧ (t.uart u).holdValid = true ∧ (t.uart u).holdFerr = !st ∧
          (t.uart u).holdPerr = (x.parity != 0 && p != x.parityOf d) ∧ (t.uart u).holdData = d ∧
          (t.uart u).overruns = (if x.holdValid then satInc x.overruns else x.overruns) ∧
          (t.uart u).framing = (if st then x.framing else satInc x.framing) ∧ (t.uart u).ring = x.ring) ∧
      (∀ l p0 st0 d p st r, x.judge p0 st0 l = (d, p, st) → x.enable = true → x.idleWait = false → x.raw = false →
        (st = false ∨ (x.parity ≠ 0 ∧ p ≠ x.parityOf d)) →
        ∃ t, exec (.uartCharacterComplete u l p0 st0 r) s = .next t ∧ (t.uart u).args = [] ∧ (t.uart u).status = 0 ∧ t.se = s.se) ∧
      ((x.raw = false ∨ x.holdValid = false ∨ s.condDown = true) → exec (.rawCharacterTaken u) s = .next s) ∧
      (x.raw = true → x.holdValid = true → s.condDown = false → ∃ t, exec (.rawCharacterTaken u) s = .next t ∧ (t.uart u).holdValid = false ∧
        (x.ring.length < 1024 → (t.uart u).ring = x.ring ++ [x.holdData] ∧ (t.uart u).overruns = x.overruns) ∧
        (1024 ≤ x.ring.length → (t.uart u).ring = x.ring ∧ (t.uart u).overruns = satInc x.overruns))) ∧
  -- UartSends
  ((∀ (u : Nat) (s : State), u < 8 → let x := s.uart u
      (x.txShift = none → exec (.uartCharacterSent u) s = .next (s.setUart u x)) ∧
      (∀ b, x.txShift = some b → ∃ t, exec (.uartCharacterSent u) s = .next t ∧ (t.uart u).sent = x.sent ++ [if x.data8 then b else b &&& 0x7F] ∧
        (t.uart u).txShift = x.fifo.head? ∧ (t.uart u).fifo = x.fifo.tail) ∧
      ∀ b k now, x.txShift = some b → x.sir = false → 16 * x.txDiv.toNat * k ≤ 256 * (now - x.txClk) →
        256 * (now - x.txClk) < 16 * x.txDiv.toNat * (k + 1) → k < (x.charBits b).length →
        x.txd now = (if k = 0 then false else if k ≤ x.dataBits then b.getLsbD (k - 1)
          else if k = x.dataBits + 1 ∧ x.parity ≠ 0 then x.parityOf (x.dataOf b) else true)) ∧
    ∀ (j : Word) (s : State),
      ((s.mbx.jobs.find? fun jb => jb.j == j && s.sendDue jb) = none → exec (.uartStampedSend j) s = .next s) ∧
      (∀ jb, (s.mbx.jobs.find? fun jb => jb.j == j && s.sendDue jb) = some jb →
        ∃ t, exec (.uartStampedSend j) s = .next t ∧ (∀ y ∈ t.mbx.jobs, y.j ≠ j)) ∧
      ∀ jb, s.sendDue jb = true →
        (s.mbx.jobs.filter fun y => sendHeld y && (y.j == j || decide (stampDist y.stamp jb.stamp < 0))) = [jb] → jb.j = j →
        (let x := s.uart (bits (jb.e.pw 0) 2 0)
         x.enable = true → x.txShift.isSome = true → ∃ t, exec (.uartStampedSend j) s = .next t ∧
          (t.uart (bits (jb.e.pw 0) 2 0)).fifo = x.fifo ++ sendBytes jb.e ∧
          (t.uart (bits (jb.e.pw 0) 2 0)).lateTx = if x.fifo = [] then x.lateTx else satInc x.lateTx))

/-- Timers (R411 to R415): a period event falls due where the timer runs and its count has reached PERIOD; it sets IRQ, restarts the count and the
prescaler, inverts an enabled output, and ends ONE-SHOT; a selected capture edge queues the count with the Device Time of 10 ns before, with four
waiting it is counted lost and OVERFLOW sets, and a second edge in one clk makes no other entry. -/
def Obligations.TimersCountAndCapture : Prop :=
  ∀ (n : Nat) (s : State), n < 16 → let x := s.timer n
    (x.enable = true → x.mode ≠ 0 → s.power.state ≠ 2 → x.period.toNat ≤ x.count.toNat → ∃ t, exec (.periodEvent n) s = .next t ∧
      (t.timer n).irq = true ∧ (t.timer n).count = 0 ∧ (t.timer n).presc = 0 ∧
      (t.timer n).out = (if x.outEn then !x.out else x.out) ∧ (x.mode = 2 → bit (t.timer n).cfg 31 = false) ∧
      (x.mode ≠ 2 → (t.timer n).cfg = x.cfg) ∧ (t.timer n).queue = x.queue) ∧
    ((x.enable = false ∨ x.mode = 0 ∨ s.power.state = 2 ∨ x.count.toNat < x.period.toNat) → exec (.periodEvent n) s = .next s) ∧
    ∀ rising, let sel := if rising then x.edges = 1 ∨ x.edges = 3 else x.edges = 2 ∨ x.edges = 3
      let first := x.capClk ≠ some s.time.clkCount
      ((¬ sel ∨ s.power.state = 2 ∨ ¬ first) → exec (.capture n rising) s = .next s) ∧
      (sel → s.power.state ≠ 2 → first → x.queue.length < 4 → exec (.capture n rising) s =
        .next (s.setTimer n { x with capClk := some s.time.clkCount, queue := x.queue ++ [{ count := x.count, time := s.time.deviceTime - 10 }] })) ∧
      (sel → s.power.state ≠ 2 → first → 4 ≤ x.queue.length → exec (.capture n rising) s =
        .next (s.setTimer n { x with capClk := some s.time.clkCount, overflow := true, lost := satInc x.lost }))

/-- Analogue channels (R378, R380, R381, R383, R385 to R394, R398): a short is noted while the channel is on and faults it if it lasts; VDDA_DAC low
faults every channel outside reset, and so does a DAC clock that stays away while the tick runs; the two legs of a channel that is on share the
current of its span by the code, and the legs of one that is off source none; the ramp's end leads to the settle time where the span changes, else to
SAFE, which also ends the settle time; a recalibration pass starts on a live channel, the spare cell standing in for its first cell; the first waiting
code takes effect at its DAC clock edge in the frame after the one that contains its stamp. -/
def Obligations.AnalogueChannels : Prop :=
  (∀ (d : Nat) (s : State), d < 32 → let x := s.dacCh d
    (x.off = true → exec (.dacShort d) s = .next s) ∧
    (x.off = false → ∃ t, exec (.dacShort d) s = .next t ∧ (t.dacCh d).shorted = true ∧ t.dac.short.getLsbD d = true ∧ (t.dacCh d).state = x.state) ∧
    exec (.dacShortEnd d) s = .next (s.setDacCh d { x with shorted := false }) ∧
    ((x.shorted = false ∨ x.off = true) → exec (.shortToFault d) s = .next s) ∧
    (x.shorted = true → x.off = false → ∃ t, exec (.shortToFault d) s = .next t ∧ (t.dacCh d).state = dacFault ∧ (t.dacCh d).enable = false ∧
      t.dac.fault.getLsbD d = true ∧ ∀ n, n ≠ d → t.dacCh n = s.dacCh n) ∧
    (x.state ≠ dacRamp → ∃ t, exec (.rampComplete d) s = .next t ∧ t.dacCh d = x) ∧
    (x.state = dacRamp → ∃ t, exec (.rampComplete d) s = .next t ∧ (t.dacCh d).code = 0 ∧ (t.dacCh d).legSpan = x.span ∧
      (t.dacCh d).state = if x.rampSpan then dacSettle else dacSafe) ∧
    (x.state = dacSettle → exec (.settleEnd d) s = .next (s.setDacCh d x.enterSafe)) ∧
    (x.live = true → x.recalOn = false → exec (.recalibrationPass d) s = .next (s.setDacCh d { x with recalOn := true, recalCell := 0 })) ∧
    (x.live = true → x.recalOn = false → ({ x with recalOn := true, recalCell := 0 } : DacCh).spareFor = some 0) ∧
    ((x.live = false ∨ x.recalOn = true) → exec (.recalibrationPass d) s = .next s) ∧
    (x.off = true → s.legs d = none) ∧
    (x.off = false → ∃ p n, s.legs d = some (p, n) ∧ p + n = 65536 * spanUa x.legSpan ∧ (s.dacCode x = 0 → p = n) ∧
      (s.dacCode x = BitVec.intMin 16 → p = 0))) ∧
  ∀ s : State,
    (s.inReset = true → exec .vddaDacLow s = .next s) ∧
    (s.inReset = false → ∃ t, exec .vddaDacLow s = .next t ∧ ∀ d, d < 32 → (t.dacCh d).state = dacFault) ∧
    (s.time.ticking = false → exec .dacClockAbsent s = .next s) ∧
    (s.time.ticking = true → ∃ t, exec .dacClockAbsent s = .next t ∧ ∀ d, d < 32 → (t.dacCh d).state = dacFault) ∧
    (s.dac.queue = [] → exec .cvWriteEffect s = .next s) ∧
    (∀ x r, s.dac.queue = x :: r → ((s.tpf : Int) ≤ stampDist x.stamp (s.time.stamp - BitVec.ofNat 32 s.tpf) → s.cvDue x = false) ∧ (s.cvDue x = false → exec .cvWriteEffect s = .next s)) ∧
    ∀ x r, s.dac.queue = x :: r → s.cvDue x = true → ∃ t, exec .cvWriteEffect s = .next t ∧ t.dac.queue = r ∧
      ((s.dacCh x.ch).mode = true → (s.dacCh x.ch).live = true → (t.dacCh x.ch).code = x.code ∧ (t.dacCh x.ch).state = dacActive)

-- network time and streams ------------------------------------------------------------------------------------------------
/-- gPTP event messages (R41, R45 to R47): each takes its timestamp 30 ns and the PHY latency before its interrupt, which is entered `late` ns from
now; two less than 100 ns apart lose the second, which is counted, and spoil the exchange or the Sync they belong to; a message on another port than
the domain's is left; a two-step Sync waits for its FOLLOW_UP, a one-step Sync moves the servo, a master leaves both; a PDELAY_REQ is answered with
its receive time; a message sent takes its own time, which a PDELAY_REQ keeps and a response or Sync is followed up with. With no Conductor active
nothing is timestamped, and a message that passes its point then is followed up by nothing. Domains and the clock of record (R16, R38, R41 to R44,
R46), while a Conductor is active: FOLLOW_UP and PDELAY_RESP_FOLLOW_UP complete what waits for them and nothing else; the better master vector is
kept; SIGNALING sets the message interval; each peer delay interval asks again; a lock within 100 ppm gives the domain its offset and, for the clock
of record, ends holdover and sets the target rate, and beyond it the domain is not locked; an unlock of it starts holdover and forgets the master, and
the audio clock that follows it loses and regains its reference so (R368); a ramp ends at its target once it has moved that far. -/
def Obligations.PtpMessagesAndDomains : Prop :=
  -- PtpEventMessages
  (∀ (d port : Nat) (late : BitVec 64) (s : State), (d = 0 ∨ d = 2) → port < 2 →
      let now := s.time.deviceTime
      let got := takenTime s port false late
      let left := takenTime s port true late
      let s1 := { s with time := { s.time with lastTs := some now } }
      let x := s.dom d
      ((s.condDown = true ∨ s.macUp = false) → ∀ m, (m ≠ .sent ∨ s.macUp = false ∨ s.domPort d ≠ port) →
        exec (.gptpEventMessage d port m late) s = .next s) ∧
      (s.condDown = true → s.macUp = true → s.domPort d = port → exec (.gptpEventMessage d port .sent late) s =
        .next (s.setDom d { x with sent := x.sent.tail })) ∧
      (∀ m t0, s.condDown = false → s.macUp = true → s.time.lastTs = some t0 → (now - t0).toNat < 100 → ∃ t, exec (.gptpEventMessage d port m late) s = .next t ∧
        t.time.tsCollide = satInc s.time.tsCollide ∧ t.time.lastTs = some now ∧ (t.dom d).offset = x.offset ∧
        (m = .pdelayResp → s.domPort d = port → (t.dom d).pdelayBad = true) ∧
        (m = .sent → s.domPort d = port → x.sent.head? = some .pdelayReq → (t.dom d).pdelayBad = true)) ∧
      (s.condDown = false → s.macUp = true → (∀ t0, s.time.lastTs = some t0 → 100 ≤ (now - t0).toNat) →
        (∀ m, s.domPort d ≠ port → exec (.gptpEventMessage d port m late) s = .next s1) ∧
        (s.domPort d = port →
          (∀ o, x.master = true → exec (.gptpEventMessage d port (.sync o) late) s = .next s1) ∧
          (∀ o, x.master = false → exec (.gptpEventMessage d port (.sync (some o)) late) s = .next (servoSync d o got s1)) ∧
          (x.master = false → exec (.gptpEventMessage d port (.sync none) late) s = .next (s1.setDom d { x with lastSync := got, syncWait := true })) ∧
          exec (.gptpEventMessage d port .pdelayResp late) s = .next (s1.setDom d { x with pdelayWait := true, respAt := got }) ∧
          (∃ t, exec (.gptpEventMessage d port .pdelayReq late) s = .next t ∧ t.out = ⟨.pdelayResp, [d, port, got.toNat]⟩ :: s.out ∧
            t.dom d = { x with sent := x.sent ++ [.pdelayResp] }) ∧
          (∃ t, exec (.gptpEventMessage d port .sent late) s = .next t ∧ (t.dom d).sent = x.sent.tail ∧
            (x.sent.head? = some .pdelayReq → (t.dom d).reqAt = some left ∧ t.out = s.out) ∧
            (x.sent.head? = some .pdelayResp → t.out = ⟨.pdelayRespFollowUp, [d, port, left.toNat]⟩ :: s.out) ∧
            (x.sent.head? = some .sync → t.out = ⟨.followUp, [d, port, (left + x.offset).toNat]⟩ :: s.out)))) ∧
      got = now + late - 30 - (if port = 0 then s.time.phyIn0 else s.time.phyIn1).setWidth 64 ∧
      left = now + late - 30 - (if port = 0 then s.time.phyOut0 else s.time.phyOut1).setWidth 64) ∧
  -- DomainsAndRamps
  ((∀ (d : Nat) (s : State), (d = 0 ∨ d = 2) → s.macUp = true → s.condDown = false → let x := s.dom d
      let mine := s.time.activeCor ≠ 0 ∧ corDom s.time.activeCor.toNat = d
      (∀ o, x.syncWait = false → exec (.followUp d o) s = .next s) ∧
      (∀ o, x.syncWait = true → exec (.followUp d o) s = .next (servoSync d o x.lastSync s)) ∧
      (∀ v t0, x.reqAt = some t0 → x.pdelayWait = true → x.pdelayBad = false → exec (.pdelayRespFollowUp d v) s = .next
        (s.setDom d { x with pdelay := peerDelay t0 x.respAt v, pdelayWait := false })) ∧
      (∀ v, (x.reqAt = none ∨ x.pdelayWait = false ∨ x.pdelayBad = true) → exec (.pdelayRespFollowUp d v) s =
        .next (s.setDom d { x with pdelayWait := false })) ∧
      (∀ vec, (x.best = [] ∨ Config.betterMaster vec x.best = true) → exec (.announce d vec) s = .next (s.setDom d { x with best := vec })) ∧
      (∀ vec, x.best ≠ [] → Config.betterMaster vec x.best = false → exec (.announce d vec) s = .next s) ∧
      (∀ n, exec (.signaling d n) s = .next (s.setDom d { x with msgInterval := intervalAsked x.msgInterval n })) ∧
      (∃ t, exec (.peerDelayInterval d) s = .next t ∧ t.out = ⟨.pdelayReq, [d, s.domPort d]⟩ :: s.out ∧
        t.dom d = { x with pdelayWait := false, pdelayBad := false, reqAt := none, sent := x.sent ++ [.pdelayReq] }) ∧
      (∀ off r, rateOk r = false → ∃ t, exec (.domainLock d off r) s = .next t ∧ (t.dom d).locked = false ∧ (x.locked = false → t = s)) ∧
      (∀ off r, rateOk r = true → ∃ t, exec (.domainLock d off r) s = .next t ∧ (t.dom d).locked = true ∧ (t.dom d).everLocked = true ∧ (t.dom d).offset = off ∧
        (t.dom d).ratePpt = r ∧ t.time.dtFrac = s.time.dtFrac ∧
        (mine → t.time.holdover = false ∧ t.time.targetPpt = r ∧ (s.audio.ref = 2 → t.audio.refLost = false)) ∧ (¬ mine → t.time.targetPpt = s.time.targetPpt ∧ t.time.holdover = s.time.holdover)) ∧
      (x.locked = false → exec (.domainUnlock d) s = .next (s.setDom d { x with best := [] })) ∧
      (x.locked = true → ∃ t, exec (.domainUnlock d) s = .next t ∧ (t.dom d).locked = false ∧ (t.dom d).best = [] ∧ t.time.ratePpt = s.time.ratePpt ∧
        (mine → t.time.holdover = true ∧ t.time.targetPpt = s.time.ratePpt ∧ (s.audio.ref = 2 → t.audio.refLost = true ∧ t.audio.holdover = true)))) ∧
    ∀ s : State, let fin := rampDone s (s.time.rampFrames + 1)
      ((s.time.switching && fin) = true → ∃ t, exec .rampEnd s = .next t ∧ t.time.ratePpt = s.time.targetPpt ∧ t.time.switching = false) ∧
      ((s.time.switching && fin) = false → exec .rampEnd s = .next s))

/-- Talker launches (R49, R363): the head of a port's class queue is judged once: dropped and counted when its time lies more than 125 us back or 1 s
ahead, and the next one is judged; found late it is counted and sent at once; else it waits for its time and is sent then; an empty queue sends
nothing. Listener streams and their control (R361 to R369, R492), while a Conductor is active: a packet that the stream does not take, of another
stream or of another format, changes nothing, one that it takes starts its silence anew; readiness, the loss and the return of the reference, and the
lock of the audio PLL are kept; a connection opens its session and its end closes it, each answered; a format that the stream cannot take is refused,
and an AEM command is answered with its status, which another controller's lock or acquisition makes an error without effect. MCLK_OUT runs while the
audio PLL is locked. -/
def Obligations.StreamsAndTheirControl : Prop :=
  -- FrameLaunches
  (∀ (port : Nat) (classB : Bool) (s : State), port < 2 →
      (s.audio.launch.find? (inQueue port classB) = none → exec (.frameLaunch port classB) s = .next s) ∧
      ∀ x, s.audio.launch.find? (inQueue port classB) = some x →
        let d := s.untilLaunch x
        let popped := popHead port classB s
        (x.judged = true → x.late = false → 0 < d → exec (.frameLaunch port classB) s = .next s) ∧
        (x.judged = true → (x.late = true ∨ d ≤ 0) → exec (.frameLaunch port classB) s = .next (sendFrame x popped)) ∧
        (x.judged = false → exec (.frameLaunch port classB) s = .next (judgeHead port classB s)) ∧
        ∀ rest, s.audio.launch = x :: rest → x.judged = false → let t := judgeHead port classB s
          ((d < -125000 ∨ 1000000000 < d) → rest.all (fun y => !inQueue port classB y) = true →
            t.time.launchDrop = satInc s.time.launchDrop ∧ t.audio.launch = rest ∧ t.time.launchLate = s.time.launchLate) ∧
          (-125000 ≤ d → d < 0 → rest.all (fun y => !(inQueue port classB y && y.judged)) = true →
            t.time.launchLate = satInc s.time.launchLate ∧ t.audio.launch = { x with judged := true, late := true } :: rest) ∧
          (0 ≤ d → d ≤ 1000000000 → x.late = false → t.audio.launch = { x with judged := true } :: rest ∧ t.time.launchLate = s.time.launchLate ∧
            t.time.launchDrop = s.time.launchDrop)) ∧
  -- ListenersAndControl
  ((∀ (t : Nat) (s : State), t < 32 → let x := s.stm t
      (∀ id f q ts samples, ¬ (s.macUp = true ∧ x.enable = true ∧ x.listener = true ∧ x.streamId = id ∧ id ≠ 0 ∧ s.formatMatches x f = true) →
        exec (.listenerPacket t id f q ts samples) s = .next s) ∧
      (∀ f q ts, s.macUp = true → x.enable = true → x.listener = true → x.streamId ≠ 0 → s.formatMatches x f = true → seqGap x.rxSeq q = 0 →
        ∃ u, exec (.listenerPacket t x.streamId f q ts []) s = .next u ∧
        (u.stm t).rxSeq = some q ∧ (u.stm t).idleFrames = 0 ∧ (u.stm t).missing = x.missing) ∧
      exec (.listenerReady t) s = .next (s.setStm t { x with ready := true }) ∧
      exec (.listenerReadyWithdrawn t) s = .next (s.setStm t { x with ready := false })) ∧
    (∀ (t : Nat) (s : State), t < 32 → s.macUp = true → s.condDown = false → let x := s.stm t
      (x.listener = false → ∀ id, exec (.acmpConnect t id) s = .next ((s.setStm t { x with connected := true }).send .acmpResponse [t, 0])) ∧
      (x.listener = true → ∀ id,
        (∀ i, s.boundTo t id = some i → exec (.acmpConnect t id) s = .next (bindStream t i id s)) ∧
        (s.boundTo t id = none →
          (∀ i s1, openSession 1 x.port.toNat id s = some (i, s1) → exec (.acmpConnect t id) s = .next (bindStream t i id (endStream t s1))) ∧
          (openSession 1 x.port.toNat id s = none → exec (.acmpConnect t id) s =
            .next ({ s with se := { s.se with refused := satInc s.se.refused } }.send .acmpResponse [t, 1]))) ∧
        ∀ i, let u := bindStream t i id s
          (u.stm t).connected = true ∧ (u.stm t).streamId = id ∧ (u.stm t).bound = some id ∧ u.out.head? = some ⟨.acmpResponse, [t, 0]⟩) ∧
      (∃ u, exec (.acmpDisconnect t) s = .next u ∧ (u.stm t).connected = false ∧ (u.stm t).bound = none ∧ (u.stm t).sess = none ∧
        (x.bound = some x.streamId → (u.stm t).streamId = 0) ∧ (∀ i, s.stmSession t = some i → (u.session i).closing.isSome = true) ∧
        u.out.head? = some ⟨.acmpResponse, [t, 0]⟩) ∧
      exec (.acmpGetState t) s = .next (s.send .acmpResponse [t, 0, b2n x.connected, (s.streamIdOf t).toNat]) ∧
      (∀ ctl, exec (.getStreamFormat ctl t) s = .next (s.send .aemResponse [ctl.toNat, 0, t, (s.streamFormat x).toNat])) ∧
      (∀ ctl f, s.aemStatus ctl = 0 → s.formatOk x.listener f = true → ∃ u, exec (.setStreamFormat ctl t f) s = .next u ∧
        (u.stm t).channels = (readFormat f).channels ∧ ∀ n, n ≠ t → u.stm n = s.stm n) ∧
      (∀ ctl f, (s.aemStatus ctl ≠ 0 ∨ s.formatOk x.listener f = false) → exec (.setStreamFormat ctl t f) s = .next (s.send .aemResponse
        [ctl.toNat, if s.aemStatus ctl ≠ 0 then s.aemStatus ctl else 11, t, (s.streamFormat x).toNat])) ∧
      (1 ≤ x.channels → x.channels ≤ 8 → (x.listener = true ∨ x.int24 ≠ some true) →
        s.formatOk x.listener (s.streamFormat x) = true ∧ (readFormat (s.streamFormat x)).channels = x.channels) ∧
      (∀ ctl, exec (.getStreamInfo ctl t) s = .next (s.send .aemResponse [ctl.toNat, 0, t, b2n x.connected, (s.streamIdOf t).toNat, (s.streamFormat x).toNat])) ∧
      (∀ ctl, exec (.getCounters ctl t) s = .next (s.send .aemResponse [ctl.toNat, 0, t, x.late.toNat, x.early.toNat, x.missing.toNat]))) ∧
    (∀ s : State,
      (s.power.state ≠ 2 → s.mclkOut = s.audio.lock) ∧
      (s.audio.ref ≠ 0 → exec .referenceLost s = .next { s with audio := { s.audio with refLost := true, lock := false, holdover := true } }) ∧
      (s.audio.ref = 0 → exec .referenceLost s = .next s) ∧
      exec .referenceReturn s = .next { s with audio := { s.audio with refLost := false } } ∧
      (s.audio.refLost = false → exec .audioPllLock s = .next { s with audio := { s.audio with lock := true, holdover := false } }) ∧
      (s.audio.refLost = true → exec .audioPllLock s = .next s)) ∧
    ∀ (ctl : BitVec 64) (s : State), s.macUp = true → s.condDown = false →
      exec .adpDiscover s = .next (s.send .adpAdvertise) ∧
      exec (.entityAvailable ctl) s = .next (s.send .aemResponse [ctl.toNat, 0]) ∧
      (∀ ty ix, exec (.readDescriptor ctl ty ix) s = .next (s.send .aemResponse (ctl.toNat :: 0 :: ty :: ix :: Config.descriptor ty ix))) ∧
      (∀ rel, ∃ u, exec (.acquireEntity ctl rel) s = .next u ∧
        u.audio.acquired = (if s.aemStatus ctl = 0 then (if rel then none else some ctl) else s.audio.acquired)) ∧
      (∀ un, ∃ u, exec (.lockEntity ctl un) s = .next u ∧
        u.audio.lockedBy = (if s.aemStatus ctl = 0 then (if un then none else some ctl) else s.audio.lockedBy)))

-- health, tamper and resets -----------------------------------------------------------------------------------------------
/-- Health, Ageing and Margins (R449 to R461): a period takes the temperatures and never moves the setpoint past its limits, nor without an
acknowledgement; a PMBus write that failed is tried again, with a setpoint that is still allowed; the limit VMAX lowers the setpoint by 5 mV at a step
whose write is acknowledged, which is a free value (log entry 10); a Course alarm is counted and an event of its Bay, and a clock alarm ends the
period at once; each powered hour is counted and kept in the ledger, which waits while no Conductor acts; STALE sets once 90 days of powered time have
passed without a cycle; a SERVICE cycle runs its steps in their order in a SERVICE Bay, the lane tests give up their tasks, and its end, once every
bank has been tested, clears STALE. Tamper (R430 to R434): sources that are not monitored or active already raise nothing, nor does a TAMP_IN pin that
follows its TAMP_OUT; a source that becomes active is marked and logged with its level, the level of the device is at least its own and never falls;
one that becomes inactive is no longer marked. -/
def Obligations.HealthAndTamper : Prop :=
  -- HealthKeeps
  ((∀ s : State,
      (∃ t, exec .ledgerWrite s = .next t ∧ t.health.poweredHours = s.health.poweredHours + 1 ∧
        (s.condDown = false → t.health.ledgerCopy = !s.health.ledgerCopy ∧ t.health.ledgerSeq = s.health.ledgerSeq + 1 ∧ t.health.ledgerDue = false) ∧
        (s.condDown = true → t.health.ledgers = s.health.ledgers ∧ t.health.ledgerCopy = s.health.ledgerCopy ∧ t.health.ledgerDue = true)) ∧
      (∀ a, s.health.pmbusFail = false → exec (.pmbusRetry a) s = .next s) ∧
      (s.health.pmbusFail = true →
        (∃ t, exec (.pmbusRetry true) s = .next t ∧ t.health.setpoint = s.health.retryValue ∧ t.health.pmbusFail = false) ∧
        (∃ t, exec (.pmbusRetry false) s = .next t ∧ t.health.setpoint = s.health.setpoint ∧ t.health.pmbusFail = true)) ∧
      s.health.retryValue ≤ Nat.max s.health.setpoint s.health.vmax ∧ (s.health.avsEn = false → s.health.retryValue ≤ s.health.setpoint) ∧
      (s.health.setpoint ≤ s.health.vmax ∨ s.health.pmbusFail = true → exec .vmaxStep s = .next s) ∧
      (s.health.vmax < s.health.setpoint → s.health.pmbusFail = false →
        ∃ t, exec .vmaxStep s = .next t ∧ t.health.pmbusFail = !s.acked ∧
          t.health.setpoint = (if s.acked then Nat.max (s.health.setpoint - 5) s.health.vmax else s.health.setpoint)) ∧
      (∀ r vdd off25 ack, ∃ t, exec (.healthPeriodEnd r vdd off25 ack) s = .next t ∧ t.health.vmax = s.health.vmax ∧ t.health.periodAt = s.time.deviceTime ∧
        (∀ c, c < 8 → (t.course c).temp = r.temps.getD c (s.course c).temp) ∧ t.health.setpoint ≤ Nat.max s.health.setpoint s.health.vmax ∧
        (s.health.avsEn = false ∨ s.health.pmbusFail = true ∨ ack = false → t.health.setpoint = s.health.setpoint))) ∧
    ∀ (c : Nat) (s : State), c < 8 → let b := s.courseBay c
      (∀ a : ClockAlarm, a.course = c → ∃ t, exec (.courseClockAlarm a) s = .next t ∧ t.health.clkAlarms = satInc s.health.clkAlarms ∧
        t.health.periodAt = s.time.deviceTime ∧
        (t.bay b).events = (s.bay b).events ++ [(5, 8 * (c - (s.bay b).first.toNat))]) ∧
      (∃ t, exec (.courseSupplyAlarm c) s = .next t ∧ t.health.supplyAlarms = satInc s.health.supplyAlarms ∧
        (t.bay b).events = (s.bay b).events ++ [(5, 8 * (c - (s.bay b).first.toNat))]) ∧
      (2160 ≤ (s.health.poweredHours - (s.course c).lastCycle).toNat → exec (.stale c) s = .next (s.setCourse c { s.course c with stale := true })) ∧
      ((s.health.poweredHours - (s.course c).lastCycle).toNat < 2160 → exec (.stale c) s = .next s) ∧
      (∀ r, (s.bay b).mode ≠ .service → exec (.serviceCycle c r) s = .next s) ∧
      ((s.bay b).mode = .service →
        (∀ f, (s.course c).cycleStep = 1 → exec (.serviceCycle c (.residue f)) s =
          .next (laneTests c false (residueEvents c f (s.setCourse c { s.course c with cycleStep := 2 })))) ∧
        (∀ f, (s.course c).cycleStep ≠ 0 → exec (.serviceCycle c (.knownAnswer f)) s = .next s) ∧
        (∀ f, (s.course c).cycleStep ≠ 1 → exec (.serviceCycle c (.residue f)) s = .next s) ∧
        (∀ m, (s.course c).cycleStep ≠ 2 → exec (.serviceCycle c (.margins m)) s = .next s) ∧
        (∀ k, ((laneTests c false s).core k).tasks = if k / 8 = c then (s.core k).tasks.filter (fun p => p.2.kind != 2) else (s.core k).tasks) ∧
        (((s.course c).cycleStep < 3 ∨ (s.course c).testBank ≠ none ∨ banksTested c s = false) → exec (.serviceCycle c .finish) s = .next s) ∧
        (3 ≤ (s.course c).cycleStep → (s.course c).testBank = none → banksTested c s = true → exec (.serviceCycle c .finish) s =
          .next (s.setCourse c { s.course c with cycleStep := 0, tested := [], lastCycle := s.health.poweredHours, stale := false })))) ∧
  -- TamperSources
  ((∀ (src : BitVec 6) (tin : List (Bool × Bool)) (main : Bool) (time : BitVec 64) (s : State),
      (∀ i, 2 ≤ i → s.sourceHolds src tin main time i = src.getLsbD i) ∧
      (∀ k, k < 2 → s.sourceHolds src tin main time k = true → ∃ x, tin[k]? = some x ∧ x.1 ≠ Config.tampBit k (s.slowNow main time - 1) ∧
        x.2 ≠ Config.tampBit k (s.slowNow main time)) ∧
      ((∀ i, i < 6 → s.sourceHolds src tin main time i = true → s.vault.active.getLsbD i = true ∨ monitored s main i = false) →
        exec (.tamperRaised { sources := src, tin := tin } main time) s = .next s) ∧
      (∀ i, i < 6 → s.sourceHolds src tin main time i = true → s.vault.active.getLsbD i = false → monitored s main i = true →
        ∃ t, exec (.tamperRaised { sources := src, tin := tin } main time) s = .next t ∧ t.vault.active.getLsbD i = true ∧ s.vault.level.toNat ≤ t.vault.level.toNat ∧
          sourceLevel s i ≤ t.vault.level.toNat ∧ (2 ≤ sourceLevel s i → t.vault.keylock = true) ∧
          ∃ x ∈ t.vault.log, x.source = i ∧ x.level.toNat = sourceLevel s i ∧ x.slow = !main)) ∧
    ∀ (i : Nat) (s : State), i < 6 → ∃ t, exec (.tamperSourceInactive i) s = .next t ∧ t.vault.active.getLsbD i = false ∧
      t.vault.level = s.vault.level ∧ t.vault.log = s.vault.log)

/-- Resets (R467 to R472, R90): a power-on reset or POR_N low clears everything that power holds and keeps the device in reset while the pin or the
monitor holds it; WRST_N low, SYS.RESET's and the watchdog's reset keep the switch count, count themselves and keep the host port form; each gives its
cause; the journal stays for the Vault; a second reset in reset only adds its cause, and a PCIe hot reset changes nothing. Start-up and the end of
SLEEP (R300, R473 to R483, R498, R500): each phase leads to the next, a flash that does not answer, an invalid strap, untrained memory and two failed
Conductors halt the boot with their codes, an invalid header falls back, the images that the flash holds are judged by their tags, and with none
authentic the device waits in recovery mode; the Conductor writes the kernel into the program of every core; READY opens the mailboxes and advertises
the network service on each port; in FIELD and RETURN the JTAG port offers its four instructions alone; a wake aligns Stamp32 to a multiple of 512 and
starts the tick. Quiet outputs (R471, R479, R481): while POR_N or the power-on monitor holds reset every ball but the Vault's TAMP_OUT is high
impedance, pulled or low as its column says; from the rise of POR_N the DAC legs are high impedance, TDM, PDM, timer and network outputs are low,
UART_TXD is high, the resets of the PHY and of external memory are low and the PMBus is released. A port that was disabled drives low, and a running
one its clock, but low in SLEEP; a host interrupt shows on the chosen form alone; the legs of a channel that is on carry its currents, UART_TXD its
character. -/
def Obligations.ResetsBootAndWake : Prop :=
  -- ResetsRestart
  (∀ s : State,
      exec .pcieHotReset s = .next s ∧
      (∃ t, exec (.porN false) s = .next t ∧ t = { s with power := { s.power with holdPor := false } }) ∧
      (∃ t, exec (.wrstN false) s = .next t ∧ t = { s with power := { s.power with holdWrst := false } }) ∧
      (s.inReset = false →
        (∃ t, exec .powerOnReset s = .next t ∧ t.power.cause = 0x10 ∧ t.power.phase = 0 ∧ t.power.holdPor = true ∧ t.power.resets = 0 ∧
          t.time.frameCount = 0 ∧ t.time.stamp = 0 ∧ t.mbx.journal = s.mbx.journal ∧ t.voices = State.reset.voices ∧ t.bays = State.reset.bays ∧
          t.mem.store = State.reset.mem.store) ∧
        (∃ t, exec (.porN true) s = .next t ∧ t.power.cause = 0x08 ∧ t.power.phase = 0 ∧ t.inReset = true ∧ t.time.frameCount = 0) ∧
        (∃ t, exec (.wrstN true) s = .next t ∧ t.power.cause = 0x04 ∧ t.power.phase = 0 ∧ t.inReset = true ∧ t.power.host = s.power.host ∧
          t.power.resets = satInc s.power.resets ∧ t.mbx.switches = s.mbx.switches ∧ t.mbx.epoch = State.reset.mbx.epoch ∧ t.se = State.reset.se)) ∧
      (s.power.holdPor = true → ∃ t, exec (.wrstN true) s = .next t ∧ t.power.cause = s.power.cause ||| 0x04 ∧ t.time = s.time) ∧
      ((s.time.ticking = false ∨ s.power.state = 2) → exec .deviceWatchdog s = .next s) ∧
      (s.time.ticking = true → s.power.state ≠ 2 → s.inReset = false → ∃ t, exec .deviceWatchdog s = .next t ∧ t.power.cause = 0x01 ∧
        t.time.ticking = false ∧ t.inReset = false)) ∧
  -- BootAndWake
  (∀ s : State, s.inReset = false →
      (∀ h f, s.power.phase = 0 → ∃ t, exec (.bootPhase (.straps h f)) s = .next t ∧
        (s.coldBoot = true → h ≠ 3 → t.power.phase = 1 ∧ t.power.host = h) ∧ (s.coldBoot = true → h = 3 → t.power.phase = 15 ∧ t.power.error = 0x01) ∧
        (s.power.fusesRead = false → t.vault.life = f.life ∧ t.vault.drk = f.drk ∧ t.vault.ik = if f.life = 0 then 0 else f.ik) ∧
        (s.power.fusesRead = true → t.vault = s.vault)) ∧
      (s.power.phase = 1 → exec (.bootPhase .clocks) s = .next { s with power := { s.power with phase := 2 } }) ∧
      (s.power.phase = 2 →
        (∀ a b, headerOf s.vault.ik (s.power.flash.headers.look 0 a) (s.power.flash.headers.look 1 b) = none →
          ∃ t, exec (.bootPhase (.header a b)) s = .next t ∧ t.power.phase = 3 ∧ t.power.fallback = true ∧ t.power.slot = false ∧ t.mem.ddr = 0x01) ∧
        (∀ a b h, headerOf s.vault.ik (s.power.flash.headers.look 0 a) (s.power.flash.headers.look 1 b) = some h → ∃ t, exec (.bootPhase (.header a b)) s = .next t ∧ t.power.phase = 3 ∧
          t.power.slot = bit (h.getD 0 0) 0 ∧ t.mem.ddr = (h.getD 3 0).setWidth 8 ∧ t.power.fallback = s.power.fallback ∧ t.power.headerSeq = h.getD 1 0 ∧
          t.power.flash.octal = true) ∧
        (∀ a b, headerValid s.vault.ik a = true → headerValid s.vault.ik b = true → 0 < (b.getD 1 0 - a.getD 1 0).toInt →
          headerOf s.vault.ik a b = some b) ∧
        exec (.bootPhase .noFlash) s = .next { s with power := { s.power with phase := 15, error := 0x02 } }) ∧
      (s.power.phase = 3 → s.power.recovery = false →
        (∀ x y a b, (a = true ∨ b = true) →
          let mine := imageTagOk s.vault.ik (s.power.flash.slots.look (b2n s.power.slot) x)
          let others := imageTagOk s.vault.ik (s.power.flash.slots.look (b2n !s.power.slot) y)
          ∃ t, exec (.bootPhase (.image x y a b)) s = .next t ∧ t.mbx.activeB = !a ∧
            (mine = true → t.power.phase = 4 ∧ t.power.slot = s.power.slot) ∧
            (mine = false → others = true → t.power.phase = 4 ∧ t.power.slot = !s.power.slot ∧ t.power.fallback = true) ∧
            (mine = false → others = false → t.power.recovery = true ∧ t.power.error = 0x03 ∧ t.power.phase = 3)) ∧
        (∀ c o, ∃ t, exec (.bootPhase (.image c o false false)) s = .next t ∧ t.power.phase = 15 ∧ t.power.error = 0x06)) ∧
      (s.power.phase = 4 → exec (.bootPhase (.trained true)) s = .next { s with power := { s.power with phase := 5, ddrRstN := true } } ∧
        exec (.bootPhase (.trained false)) s = .next { s with power := { s.power with phase := 15, error := 0x05 } }) ∧
      (s.power.phase = 5 → ∀ v vo, ∃ t, exec (.bootPhase (.firmware v vo)) s = .next t ∧ t.power.phase = 6 ∧ t.time.ticking = true ∧ t.power.phyRstN = true ∧
        t.health.voutMode = vo ∧ (∀ k i, k < 64 → i < 0x100 → Mem.wf (s.core k).prog = true → Mem.read (t.core k).prog i = Config.kernelProgram k i) ∧
        (v = false → t.mbx.journal = [] ∧ t.mbx.nextJ = 1) ∧ (v = true → ∀ x ∈ t.mbx.journal, x.unfinished = false)) ∧
      (s.power.phase = 6 → ∀ ks, ∃ t, exec (.bootPhase (.selfTest ks)) s = .next t ∧ t.power.tested = true ∧
        ∀ k ∈ ks, k < 64 → (t.core k).failed = true ∧ (t.core k).retired = true) ∧
      ((s.power.phase ≠ 6 ∨ s.power.tested = false) → exec .ready s = .next s) ∧
      (s.power.phase = 6 → s.power.tested = true → exec .ready s =
        .next (serveAll (advertise { s with power := { s.power with phase := 7 } }))) ∧
      (advertise s).out = ⟨.mdnsAdvertise, [1, 5504] ++ s.endpointName⟩ :: ⟨.mdnsAdvertise, [0, 5504] ++ s.endpointName⟩ :: s.out ∧
      (2 ≤ s.vault.life.toNat → ∀ c, s.jtagOffers (.other c) = false) ∧ (∀ i, (∀ c, i ≠ .other c) → s.jtagOffers i = true) ∧
      (∀ src n, s.power.state ≠ 2 → exec (.wake src n) s = .next s) ∧
      (∀ src n, s.power.state = 2 → ∃ t, exec (.wake src n) s = .next t ∧ t.power.state = 0 ∧ t.power.wakeSrc = src &&& 0x0F ∧ t.time.ticking = true ∧
        t.time.stamp.toNat % 512 = 0 ∧ t.time.reach = t.time.stamp)) ∧
  -- QuietOutputs
  ((∀ (s : State) (b : OutBall), s.power.holdPor = true → (∀ k, b ≠ .tampOut k) → s.ball b = quietInReset b) ∧
    (∀ (s : State) (k : Nat), s.vault.tinEn.getLsbD k = true → s.ball (.tampOut k) = Drive.level (Config.tampBit k s.vault.slowTicks)) ∧
    (∀ s : State, s.inReset = false → ∃ t u, exec .powerOnReset s = .next t ∧ exec (.porN false) t = .next u ∧
      (∀ d, u.ball (.dacLegs d) = .highZ) ∧ (∀ p, u.ball (.tdmClock p) = .low ∧ u.ball (.tdmData p) = .low) ∧ u.ball .pdmClk = .low ∧
      (∀ n, u.ball (.uartTxd n) = .high ∧ u.ball (.tmrOut n) = .low) ∧ u.ball .rgmiiTx = .low ∧ u.ball .ethPhyRstN = .low ∧
      u.ball .ddrRstN = .low ∧ u.ball .pmbus = .highZ) ∧
    ∀ (s : State), s.power.holdPor = false →
      (∀ p, bit (s.tdmOf p) 31 = false → s.ball (.tdmClock p) = .low ∧ s.ball (.tdmData p) = .low) ∧
      (∀ p, bit (s.tdmOf p) 31 = true → bit (s.tdmOf p) 30 = true →
        s.ball (.tdmClock p) = (if s.power.state = 2 then .low else .unit) ∧ s.ball (.tdmData p) = .unit) ∧
      (s.power.host = 1 ∨ s.power.host = 2 → (s.ball .hostIrqN = .low ↔ s.mbx.dbRsp &&& s.mbx.dbRspEn ≠ 0)) ∧
      (s.power.host = 0 → s.ball .hostIrqN = .highZ ∧ s.ball .bsyN = .highZ) ∧
      (s.power.host ≠ 1 → s.ball .hd = .highZ) ∧ (s.power.host ≠ 2 → s.ball .qspiIo = .highZ) ∧ (s.power.host ≠ 0 → s.ball .pcieTx = .highZ) ∧
      (∀ u, s.ball (.uartTxd u) = Drive.level ((s.uart u).txd s.time.clkCount)) ∧
      ∀ d, (s.legs d = none → s.ball (.dacLegs d) = .highZ) ∧ ∀ p n, s.legs d = some (p, n) → s.ball (.dacLegs d) = .legs p n)
end

