-- ==== Sys2Proof/Laws/Tab.lean ====
section
/-! SUPPORT. Sparse tables and sparse memories: a read after a write, a write elsewhere, and the canonical form that every write keeps. -/

namespace Sys2Proof

@[simp] theorem Tab.look_nil {α : Type} (k : Nat) (d : α) : Tab.look ([] : Tab α) k d = d := rfl

/-- A record that was just written reads back. -/
@[simp] theorem Tab.look_put_same {α : Type} (t : Tab α) (k : Nat) (v d : α) : Tab.look (Tab.put t k v) k d = v := by
  induction t with
  | nil => simp [Tab.put, Tab.look]
  | cons p r ih =>
    obtain ⟨j, w⟩ := p
    simp only [Tab.put]
    split
    · simp [Tab.look]
    · split
      · simp [Tab.look]
      · rename_i h _
        simp [Tab.look, Ne.symm h, ih]

/-- Another record is not touched by a write. -/
@[simp] theorem Tab.look_put_other {α : Type} (t : Tab α) (k n : Nat) (v d : α) (h : n ≠ k) : Tab.look (Tab.put t k v) n d = Tab.look t n d := by
  induction t with
  | nil => simp [Tab.put, Tab.look, Ne.symm h]
  | cons p r ih =>
    obtain ⟨j, w⟩ := p
    simp only [Tab.put]
    split
    · subst_vars
      simp [Tab.look, Ne.symm h]
    · split
      · simp [Tab.look, Ne.symm h]
      · simp only [Tab.look]
        rw [ih]

/-- The record at `n` after a write at `k`. -/
theorem Tab.look_put {α : Type} (t : Tab α) (k n : Nat) (v d : α) :
    Tab.look (Tab.put t k v) n d = if n = k then v else Tab.look t n d := by
  by_cases h : n = k
  · subst h; simp
  · simp [h]

/-- Changing every listed record changes the one that is read, when the default stays as it is. -/
theorem Tab.look_mapVals {α : Type} (f : Nat → α → α) (t : Tab α) (k : Nat) (d : α) (h : f k d = d) :
    Tab.look (Tab.mapVals f t) k d = f k (Tab.look t k d) := by
  induction t with
  | nil => simp [Tab.mapVals, Tab.look, h]
  | cons p r ih =>
    obtain ⟨j, w⟩ := p
    simp only [Tab.mapVals, List.map_cons, Tab.look]
    split
    · subst_vars; rfl
    · exact ih

-- memories -------------------------------------------------------------------------------------------------------------

/-- A canonical memory whose entries start at `lo` lists nothing below it. -/
theorem Mem.look_below {w : Nat} (m : Mem w) (lo a : Nat) (h : Mem.wfFrom lo m = true) (ha : a < lo) :
    Tab.look m a (Mem.fill w) = Mem.fill w := by
  induction m generalizing lo with
  | nil => rfl
  | cons p r ih =>
    obtain ⟨j, v⟩ := p
    simp only [Mem.wfFrom, Bool.and_eq_true, decide_eq_true_eq] at h
    simp only [Tab.look]
    rw [if_neg (by omega)]
    exact ih (j + 1) h.2 (by omega)

/-- The bound of a canonical memory may fall. -/
theorem Mem.wfFrom_mono {w : Nat} (m : Mem w) (lo lo' : Nat) (h : Mem.wfFrom lo m = true) (hl : lo' ≤ lo) : Mem.wfFrom lo' m = true := by
  cases m with
  | nil => rfl
  | cons p r =>
    obtain ⟨j, v⟩ := p
    simp only [Mem.wfFrom, Bool.and_eq_true, decide_eq_true_eq] at h ⊢
    exact ⟨⟨by omega, h.1.2⟩, h.2⟩

/-- Removing an address keeps the canonical form. -/
theorem Mem.wfFrom_del {w : Nat} (m : Mem w) (lo a : Nat) (h : Mem.wfFrom lo m = true) : Mem.wfFrom lo (Tab.del m a) = true := by
  induction m generalizing lo with
  | nil => rfl
  | cons p r ih =>
    obtain ⟨j, v⟩ := p
    simp only [Mem.wfFrom, Bool.and_eq_true, decide_eq_true_eq] at h
    simp only [Tab.del]
    split
    · exact Mem.wfFrom_mono r (j + 1) lo h.2 (by omega)
    · simp only [Mem.wfFrom, Bool.and_eq_true, decide_eq_true_eq]
      exact ⟨h.1, ih (j + 1) h.2⟩

/-- Listing a value other than the fill value keeps the canonical form. -/
theorem Mem.wfFrom_put {w : Nat} (m : Mem w) (lo a : Nat) (v : BitVec w) (h : Mem.wfFrom lo m = true) (ha : lo ≤ a) (hv : v ≠ Mem.fill w) :
    Mem.wfFrom lo (Tab.put m a v) = true := by
  induction m generalizing lo with
  | nil => simp [Tab.put, Mem.wfFrom, ha, hv]
  | cons p r ih =>
    obtain ⟨j, x⟩ := p
    simp only [Mem.wfFrom, Bool.and_eq_true, decide_eq_true_eq] at h
    simp only [Tab.put]
    split
    · subst_vars
      simp only [Mem.wfFrom, Bool.and_eq_true, decide_eq_true_eq]
      exact ⟨⟨ha, hv⟩, h.2⟩
    · split
      · simp only [Mem.wfFrom, Bool.and_eq_true, decide_eq_true_eq]
        exact ⟨⟨ha, hv⟩, ⟨by omega, h.1.2⟩, h.2⟩
      · simp only [Mem.wfFrom, Bool.and_eq_true, decide_eq_true_eq]
        exact ⟨h.1, ih (j + 1) h.2 (by omega)⟩

/-- Every write of a cell keeps the canonical form. -/
theorem Mem.wf_write {w : Nat} (m : Mem w) (a : Nat) (v : BitVec w) (h : Mem.wf m = true) : Mem.wf (Mem.write m a v) = true := by
  unfold Mem.write Mem.wf at *
  split
  · exact Mem.wfFrom_del m 0 a h
  · exact Mem.wfFrom_put m 0 a v h (Nat.zero_le a) ‹_›

/-- A removed address of a canonical memory reads as the fill value. -/
theorem Mem.look_del_same {w : Nat} (m : Mem w) (lo a : Nat) (h : Mem.wfFrom lo m = true) : Tab.look (Tab.del m a) a (Mem.fill w) = Mem.fill w := by
  induction m generalizing lo with
  | nil => rfl
  | cons p r ih =>
    obtain ⟨j, v⟩ := p
    simp only [Mem.wfFrom, Bool.and_eq_true, decide_eq_true_eq] at h
    simp only [Tab.del]
    split
    · subst_vars
      exact Mem.look_below r (j + 1) j h.2 (by omega)
    · simp only [Tab.look]
      rw [if_neg (by rename_i hne; exact fun e => hne e.symm)]
      exact ih (j + 1) h.2

/-- Another address is not touched by a removal. -/
theorem Tab.look_del_other {α : Type} (t : Tab α) (k n : Nat) (d : α) (h : n ≠ k) : Tab.look (Tab.del t k) n d = Tab.look t n d := by
  induction t with
  | nil => rfl
  | cons p r ih =>
    obtain ⟨j, w⟩ := p
    simp only [Tab.del]
    split
    · subst_vars
      simp [Tab.look, Ne.symm h]
    · simp only [Tab.look]
      rw [ih]

/-- A cell that was just written reads back. -/
theorem Mem.read_write_same {w : Nat} (m : Mem w) (a : Nat) (v : BitVec w) (h : Mem.wf m = true) : Mem.read (Mem.write m a v) a = v := by
  unfold Mem.read Mem.write
  split
  · subst_vars
    exact Mem.look_del_same m 0 a h
  · exact Tab.look_put_same m a v _

/-- Another cell is not touched by a write. -/
theorem Mem.read_write_other {w : Nat} (m : Mem w) (a b : Nat) (v : BitVec w) (h : b ≠ a) : Mem.read (Mem.write m a v) b = Mem.read m b := by
  unfold Mem.read Mem.write
  split
  · exact Tab.look_del_other m a b _ h
  · exact Tab.look_put_other m a b v _ h

/-- The strobed lanes of a word, one after the other, keep the canonical form. -/
theorem Mem.wf_putWord (m : Mem 8) (i : Nat) (v : Word) (st : BitVec 4) (h : Mem.wf m = true) : Mem.wf (Mem.putWord m i v st) = true := by
  unfold Mem.putWord
  generalize List.range 4 = ls
  induction ls generalizing m with
  | nil => exact h
  | cons l r ih =>
    simp only [List.foldl_cons]
    apply ih
    split
    · exact Mem.wf_write m _ _ h
    · exact h

/-- A run of words keeps the canonical form. -/
theorem Mem.wf_putWords (m : Mem 8) (i : Nat) (ws : List Word) (h : Mem.wf m = true) : Mem.wf (Mem.putWords m i ws) = true := by
  induction ws generalizing m i with
  | nil => exact h
  | cons w r ih => exact ih _ _ (Mem.wf_putWord m i w 0xF h)

/-- A byte outside word `i` is not touched by a write of that word. -/
theorem Mem.read_putWord_other (m : Mem 8) (i : Nat) (v : Word) (st : BitVec 4) (a : Nat) (h : a < 4 * i ∨ 4 * i + 4 ≤ a) :
    Mem.read (Mem.putWord m i v st) a = Mem.read m a := by
  have aux : ∀ (ls : List Nat) (m : Mem 8), (∀ l ∈ ls, l < 4) →
      Mem.read (ls.foldl (fun m l => if st.getLsbD l then Mem.write m (4 * i + l) (lane v l) else m) m) a = Mem.read m a := by
    intro ls
    induction ls with
    | nil => intro m _; rfl
    | cons l r ih =>
      intro m hl
      simp only [List.foldl_cons]
      rw [ih _ (fun x hx => hl x (List.mem_cons_of_mem _ hx))]
      split
      · exact Mem.read_write_other m _ a _ (by have := hl l (by simp); omega)
      · rfl
  exact aux (List.range 4) m (fun l hl => List.mem_range.mp hl)

/-- A word that was just written with every strobe reads back. -/
theorem Mem.word_putWord_same (m : Mem 8) (i : Nat) (v : Word) (h : Mem.wf m = true) : Mem.word (Mem.putWord m i v 0xF) i = v := by
  have h0 := Mem.wf_write m (4 * i) (lane v 0) h
  have h1 := Mem.wf_write _ (4 * i + 1) (lane v 1) h0
  have h2 := Mem.wf_write _ (4 * i + 2) (lane v 2) h1
  have e : Mem.putWord m i v 0xF =
      Mem.write (Mem.write (Mem.write (Mem.write m (4 * i) (lane v 0)) (4 * i + 1) (lane v 1)) (4 * i + 2) (lane v 2)) (4 * i + 3) (lane v 3) := rfl
  rw [e]
  unfold Mem.word
  rw [Mem.read_write_same _ _ _ h2, Mem.read_write_other _ _ _ _ (by omega), Mem.read_write_same _ _ _ h1,
    Mem.read_write_other _ _ _ _ (by omega), Mem.read_write_other _ _ _ _ (by omega), Mem.read_write_same _ _ _ h0,
    Mem.read_write_other _ _ _ _ (by omega), Mem.read_write_other _ _ _ _ (by omega), Mem.read_write_other _ _ _ _ (by omega),
    Mem.read_write_same _ _ _ h]
  apply BitVec.eq_of_toNat_eq
  simp only [lane, BitVec.toNat_append, BitVec.toNat_setWidth, BitVec.toNat_ushiftRight, Nat.shiftRight_eq_div_pow]
  have hv := v.isLt
  rw [← Nat.shiftLeft_add_eq_or_of_lt (by omega), ← Nat.shiftLeft_add_eq_or_of_lt (by omega), ← Nat.shiftLeft_add_eq_or_of_lt (by omega)]
  simp only [Nat.shiftLeft_eq]
  omega

end Sys2Proof
end

