-- ==== Sys2Proof/Laws/State.lean ====
section
/-! SUPPORT. What each update of the state leaves as it was, field by field, and what an accessor reads after an update. -/

namespace Sys2Proof.Machine

-- setChan
@[simp] theorem State.setChan_time (s : State) (n : Nat) (v : Chan) : (s.setChan n v).time = s.time := rfl
@[simp] theorem State.setChan_params (s : State) (n : Nat) (v : Chan) : (s.setChan n v).params = s.params := rfl
@[simp] theorem State.setChan_voices (s : State) (n : Nat) (v : Chan) : (s.setChan n v).voices = s.voices := rfl
@[simp] theorem State.setChan_freed (s : State) (n : Nat) (v : Chan) : (s.setChan n v).freed = s.freed := rfl
@[simp] theorem State.setChan_nextFresh (s : State) (n : Nat) (v : Chan) : (s.setChan n v).nextFresh = s.nextFresh := rfl
@[simp] theorem State.setChan_startCtr (s : State) (n : Nat) (v : Chan) : (s.setChan n v).startCtr = s.startCtr := rfl
@[simp] theorem State.setChan_parts (s : State) (n : Nat) (v : Chan) : (s.setChan n v).parts = s.parts := rfl
@[simp] theorem State.setChan_cores (s : State) (n : Nat) (v : Chan) : (s.setChan n v).cores = s.cores := rfl
@[simp] theorem State.setChan_courses (s : State) (n : Nat) (v : Chan) : (s.setChan n v).courses = s.courses := rfl
@[simp] theorem State.setChan_bays (s : State) (n : Nat) (v : Chan) : (s.setChan n v).bays = s.bays := rfl
@[simp] theorem State.setChan_dsp (s : State) (n : Nat) (v : Chan) : (s.setChan n v).dsp = s.dsp := rfl
@[simp] theorem State.setChan_bridge (s : State) (n : Nat) (v : Chan) : (s.setChan n v).bridge = s.bridge := rfl
@[simp] theorem State.setChan_se (s : State) (n : Nat) (v : Chan) : (s.setChan n v).se = s.se := rfl
@[simp] theorem State.setChan_mem (s : State) (n : Nat) (v : Chan) : (s.setChan n v).mem = s.mem := rfl
@[simp] theorem State.setChan_audio (s : State) (n : Nat) (v : Chan) : (s.setChan n v).audio = s.audio := rfl
@[simp] theorem State.setChan_dac (s : State) (n : Nat) (v : Chan) : (s.setChan n v).dac = s.dac := rfl
@[simp] theorem State.setChan_uarts (s : State) (n : Nat) (v : Chan) : (s.setChan n v).uarts = s.uarts := rfl
@[simp] theorem State.setChan_timers (s : State) (n : Nat) (v : Chan) : (s.setChan n v).timers = s.timers := rfl
@[simp] theorem State.setChan_vault (s : State) (n : Nat) (v : Chan) : (s.setChan n v).vault = s.vault := rfl
@[simp] theorem State.setChan_health (s : State) (n : Nat) (v : Chan) : (s.setChan n v).health = s.health := rfl
@[simp] theorem State.setChan_power (s : State) (n : Nat) (v : Chan) : (s.setChan n v).power = s.power := rfl
@[simp] theorem State.setChan_out (s : State) (n : Nat) (v : Chan) : (s.setChan n v).out = s.out := rfl
@[simp] theorem State.setChan_freeCtr (s : State) (n : Nat) (v : Chan) : (s.setChan n v).freeCtr = s.freeCtr := rfl
@[simp] theorem State.setChan_pending (s : State) (n : Nat) (v : Chan) : (s.setChan n v).pending = s.pending := rfl
@[simp] theorem State.setChan_mbx_dbRsp (s : State) (n : Nat) (v : Chan) : (s.setChan n v).mbx.dbRsp = s.mbx.dbRsp := rfl
@[simp] theorem State.setChan_mbx_dbRspEn (s : State) (n : Nat) (v : Chan) : (s.setChan n v).mbx.dbRspEn = s.mbx.dbRspEn := rfl
@[simp] theorem State.setChan_mbx_epoch (s : State) (n : Nat) (v : Chan) : (s.setChan n v).mbx.epoch = s.mbx.epoch := rfl
@[simp] theorem State.setChan_mbx_switches (s : State) (n : Nat) (v : Chan) : (s.setChan n v).mbx.switches = s.mbx.switches := rfl
@[simp] theorem State.setChan_mbx_standbyReady (s : State) (n : Nat) (v : Chan) : (s.setChan n v).mbx.standbyReady = s.mbx.standbyReady := rfl
@[simp] theorem State.setChan_mbx_activeB (s : State) (n : Nat) (v : Chan) : (s.setChan n v).mbx.activeB = s.mbx.activeB := rfl
@[simp] theorem State.setChan_mbx_lastServed (s : State) (n : Nat) (v : Chan) : (s.setChan n v).mbx.lastServed = s.mbx.lastServed := rfl
@[simp] theorem State.setChan_mbx_journal (s : State) (n : Nat) (v : Chan) : (s.setChan n v).mbx.journal = s.mbx.journal := rfl
@[simp] theorem State.setChan_mbx_nextJ (s : State) (n : Nat) (v : Chan) : (s.setChan n v).mbx.nextJ = s.mbx.nextJ := rfl
@[simp] theorem State.setChan_mbx_jobs (s : State) (n : Nat) (v : Chan) : (s.setChan n v).mbx.jobs = s.mbx.jobs := rfl
@[simp] theorem State.setChan_mbx_staged (s : State) (n : Nat) (v : Chan) : (s.setChan n v).mbx.staged = s.mbx.staged := rfl
@[simp] theorem State.setChan_mbx_stagedCmds (s : State) (n : Nat) (v : Chan) : (s.setChan n v).mbx.stagedCmds = s.mbx.stagedCmds := rfl
@[simp] theorem State.setChan_mbx_running (s : State) (n : Nat) (v : Chan) : (s.setChan n v).mbx.running = s.mbx.running := rfl
@[simp] theorem State.setChan_mbx_fenced (s : State) (n : Nat) (v : Chan) : (s.setChan n v).mbx.fenced = s.mbx.fenced := rfl
@[simp] theorem State.setChan_mbx_missed (s : State) (n : Nat) (v : Chan) : (s.setChan n v).mbx.missed = s.mbx.missed := rfl
@[simp] theorem State.setChan_mbx_reported (s : State) (n : Nat) (v : Chan) : (s.setChan n v).mbx.reported = s.mbx.reported := rfl
@[simp] theorem State.setChan_mbx_silentFrames (s : State) (n : Nat) (v : Chan) : (s.setChan n v).mbx.silentFrames = s.mbx.silentFrames := rfl
@[simp] theorem State.setChan_mbx_lost (s : State) (n : Nat) (v : Chan) : (s.setChan n v).mbx.lost = s.mbx.lost := rfl
@[simp] theorem State.setChan_mbx_gaveUp (s : State) (n : Nat) (v : Chan) : (s.setChan n v).mbx.gaveUp = s.mbx.gaveUp := rfl
@[simp] theorem State.setChan_mbx_readyFrames (s : State) (n : Nat) (v : Chan) : (s.setChan n v).mbx.readyFrames = s.mbx.readyFrames := rfl
@[simp] theorem State.setChan_same (s : State) (n : Nat) (v : Chan) : (s.setChan n v).chan n = v := Tab.look_put_same _ n v _
@[simp] theorem State.setChan_other (s : State) (n : Nat) (v : Chan) (k : Nat) (h : k ≠ n) : (s.setChan n v).chan k = s.chan k := Tab.look_put_other _ n k v _ h
@[simp] theorem State.setChan_bay_at (s : State) (n : Nat) (v : Chan) (k : Nat) : (s.setChan n v).bay k = s.bay k := rfl
@[simp] theorem State.setChan_course_at (s : State) (n : Nat) (v : Chan) (k : Nat) : (s.setChan n v).course k = s.course k := rfl
@[simp] theorem State.setChan_core_at (s : State) (n : Nat) (v : Chan) (k : Nat) : (s.setChan n v).core k = s.core k := rfl
@[simp] theorem State.setChan_voice_at (s : State) (n : Nat) (v : Chan) (k : Nat) : (s.setChan n v).voice k = s.voice k := rfl
@[simp] theorem State.setChan_partCtr_at (s : State) (n : Nat) (v : Chan) (k : Nat) : (s.setChan n v).partCtr k = s.partCtr k := rfl
@[simp] theorem State.setChan_session_at (s : State) (n : Nat) (v : Chan) (k : Nat) : (s.setChan n v).session k = s.session k := rfl
@[simp] theorem State.setChan_bank_at (s : State) (n : Nat) (v : Chan) (k : Nat) : (s.setChan n v).bank k = s.bank k := rfl
@[simp] theorem State.setChan_dacCh_at (s : State) (n : Nat) (v : Chan) (k : Nat) : (s.setChan n v).dacCh k = s.dacCh k := rfl
@[simp] theorem State.setChan_uart_at (s : State) (n : Nat) (v : Chan) (k : Nat) : (s.setChan n v).uart k = s.uart k := rfl
@[simp] theorem State.setChan_timer_at (s : State) (n : Nat) (v : Chan) (k : Nat) : (s.setChan n v).timer k = s.timer k := rfl
@[simp] theorem State.setChan_dom_at (s : State) (n : Nat) (v : Chan) (k : Nat) : (s.setChan n v).dom k = s.dom k := rfl
@[simp] theorem State.setChan_stm_at (s : State) (n : Nat) (v : Chan) (k : Nat) : (s.setChan n v).stm k = s.stm k := rfl
@[simp] theorem State.setChan_coef_at (s : State) (n : Nat) (v : Chan) (k : Nat) : (s.setChan n v).coef k = s.coef k := rfl
@[simp] theorem State.setChan_group_at (s : State) (n : Nat) (v : Chan) (k : Nat) : (s.setChan n v).group k = s.group k := rfl
@[simp] theorem State.setChan_svc_at (s : State) (n : Nat) (v : Chan) (k : Nat) : (s.setChan n v).svc k = s.svc k := rfl

-- setBay
@[simp] theorem State.setBay_time (s : State) (n : Nat) (v : Bay) : (s.setBay n v).time = s.time := rfl
@[simp] theorem State.setBay_mbx (s : State) (n : Nat) (v : Bay) : (s.setBay n v).mbx = s.mbx := rfl
@[simp] theorem State.setBay_params (s : State) (n : Nat) (v : Bay) : (s.setBay n v).params = s.params := rfl
@[simp] theorem State.setBay_voices (s : State) (n : Nat) (v : Bay) : (s.setBay n v).voices = s.voices := rfl
@[simp] theorem State.setBay_freed (s : State) (n : Nat) (v : Bay) : (s.setBay n v).freed = s.freed := rfl
@[simp] theorem State.setBay_nextFresh (s : State) (n : Nat) (v : Bay) : (s.setBay n v).nextFresh = s.nextFresh := rfl
@[simp] theorem State.setBay_startCtr (s : State) (n : Nat) (v : Bay) : (s.setBay n v).startCtr = s.startCtr := rfl
@[simp] theorem State.setBay_parts (s : State) (n : Nat) (v : Bay) : (s.setBay n v).parts = s.parts := rfl
@[simp] theorem State.setBay_cores (s : State) (n : Nat) (v : Bay) : (s.setBay n v).cores = s.cores := rfl
@[simp] theorem State.setBay_courses (s : State) (n : Nat) (v : Bay) : (s.setBay n v).courses = s.courses := rfl
@[simp] theorem State.setBay_dsp (s : State) (n : Nat) (v : Bay) : (s.setBay n v).dsp = s.dsp := rfl
@[simp] theorem State.setBay_bridge (s : State) (n : Nat) (v : Bay) : (s.setBay n v).bridge = s.bridge := rfl
@[simp] theorem State.setBay_se (s : State) (n : Nat) (v : Bay) : (s.setBay n v).se = s.se := rfl
@[simp] theorem State.setBay_mem (s : State) (n : Nat) (v : Bay) : (s.setBay n v).mem = s.mem := rfl
@[simp] theorem State.setBay_audio (s : State) (n : Nat) (v : Bay) : (s.setBay n v).audio = s.audio := rfl
@[simp] theorem State.setBay_dac (s : State) (n : Nat) (v : Bay) : (s.setBay n v).dac = s.dac := rfl
@[simp] theorem State.setBay_uarts (s : State) (n : Nat) (v : Bay) : (s.setBay n v).uarts = s.uarts := rfl
@[simp] theorem State.setBay_timers (s : State) (n : Nat) (v : Bay) : (s.setBay n v).timers = s.timers := rfl
@[simp] theorem State.setBay_vault (s : State) (n : Nat) (v : Bay) : (s.setBay n v).vault = s.vault := rfl
@[simp] theorem State.setBay_health (s : State) (n : Nat) (v : Bay) : (s.setBay n v).health = s.health := rfl
@[simp] theorem State.setBay_power (s : State) (n : Nat) (v : Bay) : (s.setBay n v).power = s.power := rfl
@[simp] theorem State.setBay_out (s : State) (n : Nat) (v : Bay) : (s.setBay n v).out = s.out := rfl
@[simp] theorem State.setBay_freeCtr (s : State) (n : Nat) (v : Bay) : (s.setBay n v).freeCtr = s.freeCtr := rfl
@[simp] theorem State.setBay_pending (s : State) (n : Nat) (v : Bay) : (s.setBay n v).pending = s.pending := rfl
@[simp] theorem State.setBay_same (s : State) (n : Nat) (v : Bay) : (s.setBay n v).bay n = v := Tab.look_put_same _ n v _
@[simp] theorem State.setBay_other (s : State) (n : Nat) (v : Bay) (k : Nat) (h : k ≠ n) : (s.setBay n v).bay k = s.bay k := Tab.look_put_other _ n k v _ h
@[simp] theorem State.setBay_chan_at (s : State) (n : Nat) (v : Bay) (k : Nat) : (s.setBay n v).chan k = s.chan k := rfl
@[simp] theorem State.setBay_course_at (s : State) (n : Nat) (v : Bay) (k : Nat) : (s.setBay n v).course k = s.course k := rfl
@[simp] theorem State.setBay_core_at (s : State) (n : Nat) (v : Bay) (k : Nat) : (s.setBay n v).core k = s.core k := rfl
@[simp] theorem State.setBay_voice_at (s : State) (n : Nat) (v : Bay) (k : Nat) : (s.setBay n v).voice k = s.voice k := rfl
@[simp] theorem State.setBay_partCtr_at (s : State) (n : Nat) (v : Bay) (k : Nat) : (s.setBay n v).partCtr k = s.partCtr k := rfl
@[simp] theorem State.setBay_session_at (s : State) (n : Nat) (v : Bay) (k : Nat) : (s.setBay n v).session k = s.session k := rfl
@[simp] theorem State.setBay_bank_at (s : State) (n : Nat) (v : Bay) (k : Nat) : (s.setBay n v).bank k = s.bank k := rfl
@[simp] theorem State.setBay_dacCh_at (s : State) (n : Nat) (v : Bay) (k : Nat) : (s.setBay n v).dacCh k = s.dacCh k := rfl
@[simp] theorem State.setBay_uart_at (s : State) (n : Nat) (v : Bay) (k : Nat) : (s.setBay n v).uart k = s.uart k := rfl
@[simp] theorem State.setBay_timer_at (s : State) (n : Nat) (v : Bay) (k : Nat) : (s.setBay n v).timer k = s.timer k := rfl
@[simp] theorem State.setBay_dom_at (s : State) (n : Nat) (v : Bay) (k : Nat) : (s.setBay n v).dom k = s.dom k := rfl
@[simp] theorem State.setBay_stm_at (s : State) (n : Nat) (v : Bay) (k : Nat) : (s.setBay n v).stm k = s.stm k := rfl
@[simp] theorem State.setBay_coef_at (s : State) (n : Nat) (v : Bay) (k : Nat) : (s.setBay n v).coef k = s.coef k := rfl
@[simp] theorem State.setBay_group_at (s : State) (n : Nat) (v : Bay) (k : Nat) : (s.setBay n v).group k = s.group k := rfl
@[simp] theorem State.setBay_svc_at (s : State) (n : Nat) (v : Bay) (k : Nat) : (s.setBay n v).svc k = s.svc k := rfl

-- setCourse
@[simp] theorem State.setCourse_time (s : State) (n : Nat) (v : Course) : (s.setCourse n v).time = s.time := rfl
@[simp] theorem State.setCourse_mbx (s : State) (n : Nat) (v : Course) : (s.setCourse n v).mbx = s.mbx := rfl
@[simp] theorem State.setCourse_params (s : State) (n : Nat) (v : Course) : (s.setCourse n v).params = s.params := rfl
@[simp] theorem State.setCourse_voices (s : State) (n : Nat) (v : Course) : (s.setCourse n v).voices = s.voices := rfl
@[simp] theorem State.setCourse_freed (s : State) (n : Nat) (v : Course) : (s.setCourse n v).freed = s.freed := rfl
@[simp] theorem State.setCourse_nextFresh (s : State) (n : Nat) (v : Course) : (s.setCourse n v).nextFresh = s.nextFresh := rfl
@[simp] theorem State.setCourse_startCtr (s : State) (n : Nat) (v : Course) : (s.setCourse n v).startCtr = s.startCtr := rfl
@[simp] theorem State.setCourse_parts (s : State) (n : Nat) (v : Course) : (s.setCourse n v).parts = s.parts := rfl
@[simp] theorem State.setCourse_cores (s : State) (n : Nat) (v : Course) : (s.setCourse n v).cores = s.cores := rfl
@[simp] theorem State.setCourse_bays (s : State) (n : Nat) (v : Course) : (s.setCourse n v).bays = s.bays := rfl
@[simp] theorem State.setCourse_dsp (s : State) (n : Nat) (v : Course) : (s.setCourse n v).dsp = s.dsp := rfl
@[simp] theorem State.setCourse_bridge (s : State) (n : Nat) (v : Course) : (s.setCourse n v).bridge = s.bridge := rfl
@[simp] theorem State.setCourse_se (s : State) (n : Nat) (v : Course) : (s.setCourse n v).se = s.se := rfl
@[simp] theorem State.setCourse_mem (s : State) (n : Nat) (v : Course) : (s.setCourse n v).mem = s.mem := rfl
@[simp] theorem State.setCourse_audio (s : State) (n : Nat) (v : Course) : (s.setCourse n v).audio = s.audio := rfl
@[simp] theorem State.setCourse_dac (s : State) (n : Nat) (v : Course) : (s.setCourse n v).dac = s.dac := rfl
@[simp] theorem State.setCourse_uarts (s : State) (n : Nat) (v : Course) : (s.setCourse n v).uarts = s.uarts := rfl
@[simp] theorem State.setCourse_timers (s : State) (n : Nat) (v : Course) : (s.setCourse n v).timers = s.timers := rfl
@[simp] theorem State.setCourse_vault (s : State) (n : Nat) (v : Course) : (s.setCourse n v).vault = s.vault := rfl
@[simp] theorem State.setCourse_health (s : State) (n : Nat) (v : Course) : (s.setCourse n v).health = s.health := rfl
@[simp] theorem State.setCourse_power (s : State) (n : Nat) (v : Course) : (s.setCourse n v).power = s.power := rfl
@[simp] theorem State.setCourse_out (s : State) (n : Nat) (v : Course) : (s.setCourse n v).out = s.out := rfl
@[simp] theorem State.setCourse_freeCtr (s : State) (n : Nat) (v : Course) : (s.setCourse n v).freeCtr = s.freeCtr := rfl
@[simp] theorem State.setCourse_pending (s : State) (n : Nat) (v : Course) : (s.setCourse n v).pending = s.pending := rfl
@[simp] theorem State.setCourse_same (s : State) (n : Nat) (v : Course) : (s.setCourse n v).course n = v := Tab.look_put_same _ n v _
@[simp] theorem State.setCourse_other (s : State) (n : Nat) (v : Course) (k : Nat) (h : k ≠ n) : (s.setCourse n v).course k = s.course k := Tab.look_put_other _ n k v _ h
@[simp] theorem State.setCourse_chan_at (s : State) (n : Nat) (v : Course) (k : Nat) : (s.setCourse n v).chan k = s.chan k := rfl
@[simp] theorem State.setCourse_bay_at (s : State) (n : Nat) (v : Course) (k : Nat) : (s.setCourse n v).bay k = s.bay k := rfl
@[simp] theorem State.setCourse_core_at (s : State) (n : Nat) (v : Course) (k : Nat) : (s.setCourse n v).core k = s.core k := rfl
@[simp] theorem State.setCourse_voice_at (s : State) (n : Nat) (v : Course) (k : Nat) : (s.setCourse n v).voice k = s.voice k := rfl
@[simp] theorem State.setCourse_partCtr_at (s : State) (n : Nat) (v : Course) (k : Nat) : (s.setCourse n v).partCtr k = s.partCtr k := rfl
@[simp] theorem State.setCourse_session_at (s : State) (n : Nat) (v : Course) (k : Nat) : (s.setCourse n v).session k = s.session k := rfl
@[simp] theorem State.setCourse_bank_at (s : State) (n : Nat) (v : Course) (k : Nat) : (s.setCourse n v).bank k = s.bank k := rfl
@[simp] theorem State.setCourse_dacCh_at (s : State) (n : Nat) (v : Course) (k : Nat) : (s.setCourse n v).dacCh k = s.dacCh k := rfl
@[simp] theorem State.setCourse_uart_at (s : State) (n : Nat) (v : Course) (k : Nat) : (s.setCourse n v).uart k = s.uart k := rfl
@[simp] theorem State.setCourse_timer_at (s : State) (n : Nat) (v : Course) (k : Nat) : (s.setCourse n v).timer k = s.timer k := rfl
@[simp] theorem State.setCourse_dom_at (s : State) (n : Nat) (v : Course) (k : Nat) : (s.setCourse n v).dom k = s.dom k := rfl
@[simp] theorem State.setCourse_stm_at (s : State) (n : Nat) (v : Course) (k : Nat) : (s.setCourse n v).stm k = s.stm k := rfl
@[simp] theorem State.setCourse_coef_at (s : State) (n : Nat) (v : Course) (k : Nat) : (s.setCourse n v).coef k = s.coef k := rfl
@[simp] theorem State.setCourse_group_at (s : State) (n : Nat) (v : Course) (k : Nat) : (s.setCourse n v).group k = s.group k := rfl
@[simp] theorem State.setCourse_svc_at (s : State) (n : Nat) (v : Course) (k : Nat) : (s.setCourse n v).svc k = s.svc k := rfl

-- setCore
@[simp] theorem State.setCore_time (s : State) (n : Nat) (v : VCore) : (s.setCore n v).time = s.time := rfl
@[simp] theorem State.setCore_mbx (s : State) (n : Nat) (v : VCore) : (s.setCore n v).mbx = s.mbx := rfl
@[simp] theorem State.setCore_params (s : State) (n : Nat) (v : VCore) : (s.setCore n v).params = s.params := rfl
@[simp] theorem State.setCore_voices (s : State) (n : Nat) (v : VCore) : (s.setCore n v).voices = s.voices := rfl
@[simp] theorem State.setCore_freed (s : State) (n : Nat) (v : VCore) : (s.setCore n v).freed = s.freed := rfl
@[simp] theorem State.setCore_nextFresh (s : State) (n : Nat) (v : VCore) : (s.setCore n v).nextFresh = s.nextFresh := rfl
@[simp] theorem State.setCore_startCtr (s : State) (n : Nat) (v : VCore) : (s.setCore n v).startCtr = s.startCtr := rfl
@[simp] theorem State.setCore_parts (s : State) (n : Nat) (v : VCore) : (s.setCore n v).parts = s.parts := rfl
@[simp] theorem State.setCore_courses (s : State) (n : Nat) (v : VCore) : (s.setCore n v).courses = s.courses := rfl
@[simp] theorem State.setCore_bays (s : State) (n : Nat) (v : VCore) : (s.setCore n v).bays = s.bays := rfl
@[simp] theorem State.setCore_dsp (s : State) (n : Nat) (v : VCore) : (s.setCore n v).dsp = s.dsp := rfl
@[simp] theorem State.setCore_bridge (s : State) (n : Nat) (v : VCore) : (s.setCore n v).bridge = s.bridge := rfl
@[simp] theorem State.setCore_se (s : State) (n : Nat) (v : VCore) : (s.setCore n v).se = s.se := rfl
@[simp] theorem State.setCore_mem (s : State) (n : Nat) (v : VCore) : (s.setCore n v).mem = s.mem := rfl
@[simp] theorem State.setCore_audio (s : State) (n : Nat) (v : VCore) : (s.setCore n v).audio = s.audio := rfl
@[simp] theorem State.setCore_dac (s : State) (n : Nat) (v : VCore) : (s.setCore n v).dac = s.dac := rfl
@[simp] theorem State.setCore_uarts (s : State) (n : Nat) (v : VCore) : (s.setCore n v).uarts = s.uarts := rfl
@[simp] theorem State.setCore_timers (s : State) (n : Nat) (v : VCore) : (s.setCore n v).timers = s.timers := rfl
@[simp] theorem State.setCore_vault (s : State) (n : Nat) (v : VCore) : (s.setCore n v).vault = s.vault := rfl
@[simp] theorem State.setCore_health (s : State) (n : Nat) (v : VCore) : (s.setCore n v).health = s.health := rfl
@[simp] theorem State.setCore_power (s : State) (n : Nat) (v : VCore) : (s.setCore n v).power = s.power := rfl
@[simp] theorem State.setCore_out (s : State) (n : Nat) (v : VCore) : (s.setCore n v).out = s.out := rfl
@[simp] theorem State.setCore_freeCtr (s : State) (n : Nat) (v : VCore) : (s.setCore n v).freeCtr = s.freeCtr := rfl
@[simp] theorem State.setCore_pending (s : State) (n : Nat) (v : VCore) : (s.setCore n v).pending = s.pending := rfl
@[simp] theorem State.setCore_same (s : State) (n : Nat) (v : VCore) : (s.setCore n v).core n = v := Tab.look_put_same _ n v _
@[simp] theorem State.setCore_other (s : State) (n : Nat) (v : VCore) (k : Nat) (h : k ≠ n) : (s.setCore n v).core k = s.core k := Tab.look_put_other _ n k v _ h
@[simp] theorem State.setCore_chan_at (s : State) (n : Nat) (v : VCore) (k : Nat) : (s.setCore n v).chan k = s.chan k := rfl
@[simp] theorem State.setCore_bay_at (s : State) (n : Nat) (v : VCore) (k : Nat) : (s.setCore n v).bay k = s.bay k := rfl
@[simp] theorem State.setCore_course_at (s : State) (n : Nat) (v : VCore) (k : Nat) : (s.setCore n v).course k = s.course k := rfl
@[simp] theorem State.setCore_voice_at (s : State) (n : Nat) (v : VCore) (k : Nat) : (s.setCore n v).voice k = s.voice k := rfl
@[simp] theorem State.setCore_partCtr_at (s : State) (n : Nat) (v : VCore) (k : Nat) : (s.setCore n v).partCtr k = s.partCtr k := rfl
@[simp] theorem State.setCore_session_at (s : State) (n : Nat) (v : VCore) (k : Nat) : (s.setCore n v).session k = s.session k := rfl
@[simp] theorem State.setCore_bank_at (s : State) (n : Nat) (v : VCore) (k : Nat) : (s.setCore n v).bank k = s.bank k := rfl
@[simp] theorem State.setCore_dacCh_at (s : State) (n : Nat) (v : VCore) (k : Nat) : (s.setCore n v).dacCh k = s.dacCh k := rfl
@[simp] theorem State.setCore_uart_at (s : State) (n : Nat) (v : VCore) (k : Nat) : (s.setCore n v).uart k = s.uart k := rfl
@[simp] theorem State.setCore_timer_at (s : State) (n : Nat) (v : VCore) (k : Nat) : (s.setCore n v).timer k = s.timer k := rfl
@[simp] theorem State.setCore_dom_at (s : State) (n : Nat) (v : VCore) (k : Nat) : (s.setCore n v).dom k = s.dom k := rfl
@[simp] theorem State.setCore_stm_at (s : State) (n : Nat) (v : VCore) (k : Nat) : (s.setCore n v).stm k = s.stm k := rfl
@[simp] theorem State.setCore_coef_at (s : State) (n : Nat) (v : VCore) (k : Nat) : (s.setCore n v).coef k = s.coef k := rfl
@[simp] theorem State.setCore_group_at (s : State) (n : Nat) (v : VCore) (k : Nat) : (s.setCore n v).group k = s.group k := rfl
@[simp] theorem State.setCore_svc_at (s : State) (n : Nat) (v : VCore) (k : Nat) : (s.setCore n v).svc k = s.svc k := rfl

-- setVoice
@[simp] theorem State.setVoice_time (s : State) (n : Nat) (v : Voice) : (s.setVoice n v).time = s.time := rfl
@[simp] theorem State.setVoice_mbx (s : State) (n : Nat) (v : Voice) : (s.setVoice n v).mbx = s.mbx := rfl
@[simp] theorem State.setVoice_params (s : State) (n : Nat) (v : Voice) : (s.setVoice n v).params = s.params := rfl
@[simp] theorem State.setVoice_freed (s : State) (n : Nat) (v : Voice) : (s.setVoice n v).freed = s.freed := rfl
@[simp] theorem State.setVoice_nextFresh (s : State) (n : Nat) (v : Voice) : (s.setVoice n v).nextFresh = s.nextFresh := rfl
@[simp] theorem State.setVoice_startCtr (s : State) (n : Nat) (v : Voice) : (s.setVoice n v).startCtr = s.startCtr := rfl
@[simp] theorem State.setVoice_parts (s : State) (n : Nat) (v : Voice) : (s.setVoice n v).parts = s.parts := rfl
@[simp] theorem State.setVoice_cores (s : State) (n : Nat) (v : Voice) : (s.setVoice n v).cores = s.cores := rfl
@[simp] theorem State.setVoice_courses (s : State) (n : Nat) (v : Voice) : (s.setVoice n v).courses = s.courses := rfl
@[simp] theorem State.setVoice_bays (s : State) (n : Nat) (v : Voice) : (s.setVoice n v).bays = s.bays := rfl
@[simp] theorem State.setVoice_dsp (s : State) (n : Nat) (v : Voice) : (s.setVoice n v).dsp = s.dsp := rfl
@[simp] theorem State.setVoice_bridge (s : State) (n : Nat) (v : Voice) : (s.setVoice n v).bridge = s.bridge := rfl
@[simp] theorem State.setVoice_se (s : State) (n : Nat) (v : Voice) : (s.setVoice n v).se = s.se := rfl
@[simp] theorem State.setVoice_mem (s : State) (n : Nat) (v : Voice) : (s.setVoice n v).mem = s.mem := rfl
@[simp] theorem State.setVoice_audio (s : State) (n : Nat) (v : Voice) : (s.setVoice n v).audio = s.audio := rfl
@[simp] theorem State.setVoice_dac (s : State) (n : Nat) (v : Voice) : (s.setVoice n v).dac = s.dac := rfl
@[simp] theorem State.setVoice_uarts (s : State) (n : Nat) (v : Voice) : (s.setVoice n v).uarts = s.uarts := rfl
@[simp] theorem State.setVoice_timers (s : State) (n : Nat) (v : Voice) : (s.setVoice n v).timers = s.timers := rfl
@[simp] theorem State.setVoice_vault (s : State) (n : Nat) (v : Voice) : (s.setVoice n v).vault = s.vault := rfl
@[simp] theorem State.setVoice_health (s : State) (n : Nat) (v : Voice) : (s.setVoice n v).health = s.health := rfl
@[simp] theorem State.setVoice_power (s : State) (n : Nat) (v : Voice) : (s.setVoice n v).power = s.power := rfl
@[simp] theorem State.setVoice_out (s : State) (n : Nat) (v : Voice) : (s.setVoice n v).out = s.out := rfl
@[simp] theorem State.setVoice_freeCtr (s : State) (n : Nat) (v : Voice) : (s.setVoice n v).freeCtr = s.freeCtr := rfl
@[simp] theorem State.setVoice_pending (s : State) (n : Nat) (v : Voice) : (s.setVoice n v).pending = s.pending := rfl
@[simp] theorem State.setVoice_same (s : State) (n : Nat) (v : Voice) : (s.setVoice n v).voice n = v := Tab.look_put_same _ n v _
@[simp] theorem State.setVoice_other (s : State) (n : Nat) (v : Voice) (k : Nat) (h : k ≠ n) : (s.setVoice n v).voice k = s.voice k := Tab.look_put_other _ n k v _ h
@[simp] theorem State.setVoice_chan_at (s : State) (n : Nat) (v : Voice) (k : Nat) : (s.setVoice n v).chan k = s.chan k := rfl
@[simp] theorem State.setVoice_bay_at (s : State) (n : Nat) (v : Voice) (k : Nat) : (s.setVoice n v).bay k = s.bay k := rfl
@[simp] theorem State.setVoice_course_at (s : State) (n : Nat) (v : Voice) (k : Nat) : (s.setVoice n v).course k = s.course k := rfl
@[simp] theorem State.setVoice_core_at (s : State) (n : Nat) (v : Voice) (k : Nat) : (s.setVoice n v).core k = s.core k := rfl
@[simp] theorem State.setVoice_partCtr_at (s : State) (n : Nat) (v : Voice) (k : Nat) : (s.setVoice n v).partCtr k = s.partCtr k := rfl
@[simp] theorem State.setVoice_session_at (s : State) (n : Nat) (v : Voice) (k : Nat) : (s.setVoice n v).session k = s.session k := rfl
@[simp] theorem State.setVoice_bank_at (s : State) (n : Nat) (v : Voice) (k : Nat) : (s.setVoice n v).bank k = s.bank k := rfl
@[simp] theorem State.setVoice_dacCh_at (s : State) (n : Nat) (v : Voice) (k : Nat) : (s.setVoice n v).dacCh k = s.dacCh k := rfl
@[simp] theorem State.setVoice_uart_at (s : State) (n : Nat) (v : Voice) (k : Nat) : (s.setVoice n v).uart k = s.uart k := rfl
@[simp] theorem State.setVoice_timer_at (s : State) (n : Nat) (v : Voice) (k : Nat) : (s.setVoice n v).timer k = s.timer k := rfl
@[simp] theorem State.setVoice_dom_at (s : State) (n : Nat) (v : Voice) (k : Nat) : (s.setVoice n v).dom k = s.dom k := rfl
@[simp] theorem State.setVoice_stm_at (s : State) (n : Nat) (v : Voice) (k : Nat) : (s.setVoice n v).stm k = s.stm k := rfl
@[simp] theorem State.setVoice_coef_at (s : State) (n : Nat) (v : Voice) (k : Nat) : (s.setVoice n v).coef k = s.coef k := rfl
@[simp] theorem State.setVoice_group_at (s : State) (n : Nat) (v : Voice) (k : Nat) : (s.setVoice n v).group k = s.group k := rfl
@[simp] theorem State.setVoice_svc_at (s : State) (n : Nat) (v : Voice) (k : Nat) : (s.setVoice n v).svc k = s.svc k := rfl

-- setPartCtr
@[simp] theorem State.setPartCtr_time (s : State) (n : Nat) (v : PartCtr) : (s.setPartCtr n v).time = s.time := rfl
@[simp] theorem State.setPartCtr_mbx (s : State) (n : Nat) (v : PartCtr) : (s.setPartCtr n v).mbx = s.mbx := rfl
@[simp] theorem State.setPartCtr_params (s : State) (n : Nat) (v : PartCtr) : (s.setPartCtr n v).params = s.params := rfl
@[simp] theorem State.setPartCtr_voices (s : State) (n : Nat) (v : PartCtr) : (s.setPartCtr n v).voices = s.voices := rfl
@[simp] theorem State.setPartCtr_freed (s : State) (n : Nat) (v : PartCtr) : (s.setPartCtr n v).freed = s.freed := rfl
@[simp] theorem State.setPartCtr_nextFresh (s : State) (n : Nat) (v : PartCtr) : (s.setPartCtr n v).nextFresh = s.nextFresh := rfl
@[simp] theorem State.setPartCtr_startCtr (s : State) (n : Nat) (v : PartCtr) : (s.setPartCtr n v).startCtr = s.startCtr := rfl
@[simp] theorem State.setPartCtr_cores (s : State) (n : Nat) (v : PartCtr) : (s.setPartCtr n v).cores = s.cores := rfl
@[simp] theorem State.setPartCtr_courses (s : State) (n : Nat) (v : PartCtr) : (s.setPartCtr n v).courses = s.courses := rfl
@[simp] theorem State.setPartCtr_bays (s : State) (n : Nat) (v : PartCtr) : (s.setPartCtr n v).bays = s.bays := rfl
@[simp] theorem State.setPartCtr_dsp (s : State) (n : Nat) (v : PartCtr) : (s.setPartCtr n v).dsp = s.dsp := rfl
@[simp] theorem State.setPartCtr_bridge (s : State) (n : Nat) (v : PartCtr) : (s.setPartCtr n v).bridge = s.bridge := rfl
@[simp] theorem State.setPartCtr_se (s : State) (n : Nat) (v : PartCtr) : (s.setPartCtr n v).se = s.se := rfl
@[simp] theorem State.setPartCtr_mem (s : State) (n : Nat) (v : PartCtr) : (s.setPartCtr n v).mem = s.mem := rfl
@[simp] theorem State.setPartCtr_audio (s : State) (n : Nat) (v : PartCtr) : (s.setPartCtr n v).audio = s.audio := rfl
@[simp] theorem State.setPartCtr_dac (s : State) (n : Nat) (v : PartCtr) : (s.setPartCtr n v).dac = s.dac := rfl
@[simp] theorem State.setPartCtr_uarts (s : State) (n : Nat) (v : PartCtr) : (s.setPartCtr n v).uarts = s.uarts := rfl
@[simp] theorem State.setPartCtr_timers (s : State) (n : Nat) (v : PartCtr) : (s.setPartCtr n v).timers = s.timers := rfl
@[simp] theorem State.setPartCtr_vault (s : State) (n : Nat) (v : PartCtr) : (s.setPartCtr n v).vault = s.vault := rfl
@[simp] theorem State.setPartCtr_health (s : State) (n : Nat) (v : PartCtr) : (s.setPartCtr n v).health = s.health := rfl
@[simp] theorem State.setPartCtr_power (s : State) (n : Nat) (v : PartCtr) : (s.setPartCtr n v).power = s.power := rfl
@[simp] theorem State.setPartCtr_out (s : State) (n : Nat) (v : PartCtr) : (s.setPartCtr n v).out = s.out := rfl
@[simp] theorem State.setPartCtr_freeCtr (s : State) (n : Nat) (v : PartCtr) : (s.setPartCtr n v).freeCtr = s.freeCtr := rfl
@[simp] theorem State.setPartCtr_pending (s : State) (n : Nat) (v : PartCtr) : (s.setPartCtr n v).pending = s.pending := rfl
@[simp] theorem State.setPartCtr_same (s : State) (n : Nat) (v : PartCtr) : (s.setPartCtr n v).partCtr n = v := Tab.look_put_same _ n v _
@[simp] theorem State.setPartCtr_other (s : State) (n : Nat) (v : PartCtr) (k : Nat) (h : k ≠ n) : (s.setPartCtr n v).partCtr k = s.partCtr k := Tab.look_put_other _ n k v _ h
@[simp] theorem State.setPartCtr_chan_at (s : State) (n : Nat) (v : PartCtr) (k : Nat) : (s.setPartCtr n v).chan k = s.chan k := rfl
@[simp] theorem State.setPartCtr_bay_at (s : State) (n : Nat) (v : PartCtr) (k : Nat) : (s.setPartCtr n v).bay k = s.bay k := rfl
@[simp] theorem State.setPartCtr_course_at (s : State) (n : Nat) (v : PartCtr) (k : Nat) : (s.setPartCtr n v).course k = s.course k := rfl
@[simp] theorem State.setPartCtr_core_at (s : State) (n : Nat) (v : PartCtr) (k : Nat) : (s.setPartCtr n v).core k = s.core k := rfl
@[simp] theorem State.setPartCtr_voice_at (s : State) (n : Nat) (v : PartCtr) (k : Nat) : (s.setPartCtr n v).voice k = s.voice k := rfl
@[simp] theorem State.setPartCtr_session_at (s : State) (n : Nat) (v : PartCtr) (k : Nat) : (s.setPartCtr n v).session k = s.session k := rfl
@[simp] theorem State.setPartCtr_bank_at (s : State) (n : Nat) (v : PartCtr) (k : Nat) : (s.setPartCtr n v).bank k = s.bank k := rfl
@[simp] theorem State.setPartCtr_dacCh_at (s : State) (n : Nat) (v : PartCtr) (k : Nat) : (s.setPartCtr n v).dacCh k = s.dacCh k := rfl
@[simp] theorem State.setPartCtr_uart_at (s : State) (n : Nat) (v : PartCtr) (k : Nat) : (s.setPartCtr n v).uart k = s.uart k := rfl
@[simp] theorem State.setPartCtr_timer_at (s : State) (n : Nat) (v : PartCtr) (k : Nat) : (s.setPartCtr n v).timer k = s.timer k := rfl
@[simp] theorem State.setPartCtr_dom_at (s : State) (n : Nat) (v : PartCtr) (k : Nat) : (s.setPartCtr n v).dom k = s.dom k := rfl
@[simp] theorem State.setPartCtr_stm_at (s : State) (n : Nat) (v : PartCtr) (k : Nat) : (s.setPartCtr n v).stm k = s.stm k := rfl
@[simp] theorem State.setPartCtr_coef_at (s : State) (n : Nat) (v : PartCtr) (k : Nat) : (s.setPartCtr n v).coef k = s.coef k := rfl
@[simp] theorem State.setPartCtr_group_at (s : State) (n : Nat) (v : PartCtr) (k : Nat) : (s.setPartCtr n v).group k = s.group k := rfl
@[simp] theorem State.setPartCtr_svc_at (s : State) (n : Nat) (v : PartCtr) (k : Nat) : (s.setPartCtr n v).svc k = s.svc k := rfl

-- setSession
@[simp] theorem State.setSession_time (s : State) (n : Nat) (v : Session) : (s.setSession n v).time = s.time := rfl
@[simp] theorem State.setSession_mbx (s : State) (n : Nat) (v : Session) : (s.setSession n v).mbx = s.mbx := rfl
@[simp] theorem State.setSession_params (s : State) (n : Nat) (v : Session) : (s.setSession n v).params = s.params := rfl
@[simp] theorem State.setSession_voices (s : State) (n : Nat) (v : Session) : (s.setSession n v).voices = s.voices := rfl
@[simp] theorem State.setSession_freed (s : State) (n : Nat) (v : Session) : (s.setSession n v).freed = s.freed := rfl
@[simp] theorem State.setSession_nextFresh (s : State) (n : Nat) (v : Session) : (s.setSession n v).nextFresh = s.nextFresh := rfl
@[simp] theorem State.setSession_startCtr (s : State) (n : Nat) (v : Session) : (s.setSession n v).startCtr = s.startCtr := rfl
@[simp] theorem State.setSession_parts (s : State) (n : Nat) (v : Session) : (s.setSession n v).parts = s.parts := rfl
@[simp] theorem State.setSession_cores (s : State) (n : Nat) (v : Session) : (s.setSession n v).cores = s.cores := rfl
@[simp] theorem State.setSession_courses (s : State) (n : Nat) (v : Session) : (s.setSession n v).courses = s.courses := rfl
@[simp] theorem State.setSession_bays (s : State) (n : Nat) (v : Session) : (s.setSession n v).bays = s.bays := rfl
@[simp] theorem State.setSession_dsp (s : State) (n : Nat) (v : Session) : (s.setSession n v).dsp = s.dsp := rfl
@[simp] theorem State.setSession_bridge (s : State) (n : Nat) (v : Session) : (s.setSession n v).bridge = s.bridge := rfl
@[simp] theorem State.setSession_mem (s : State) (n : Nat) (v : Session) : (s.setSession n v).mem = s.mem := rfl
@[simp] theorem State.setSession_audio (s : State) (n : Nat) (v : Session) : (s.setSession n v).audio = s.audio := rfl
@[simp] theorem State.setSession_dac (s : State) (n : Nat) (v : Session) : (s.setSession n v).dac = s.dac := rfl
@[simp] theorem State.setSession_uarts (s : State) (n : Nat) (v : Session) : (s.setSession n v).uarts = s.uarts := rfl
@[simp] theorem State.setSession_timers (s : State) (n : Nat) (v : Session) : (s.setSession n v).timers = s.timers := rfl
@[simp] theorem State.setSession_vault (s : State) (n : Nat) (v : Session) : (s.setSession n v).vault = s.vault := rfl
@[simp] theorem State.setSession_health (s : State) (n : Nat) (v : Session) : (s.setSession n v).health = s.health := rfl
@[simp] theorem State.setSession_power (s : State) (n : Nat) (v : Session) : (s.setSession n v).power = s.power := rfl
@[simp] theorem State.setSession_out (s : State) (n : Nat) (v : Session) : (s.setSession n v).out = s.out := rfl
@[simp] theorem State.setSession_freeCtr (s : State) (n : Nat) (v : Session) : (s.setSession n v).freeCtr = s.freeCtr := rfl
@[simp] theorem State.setSession_pending (s : State) (n : Nat) (v : Session) : (s.setSession n v).pending = s.pending := rfl
@[simp] theorem State.setSession_se_timeline (s : State) (n : Nat) (v : Session) : (s.setSession n v).se.timeline = s.se.timeline := rfl
@[simp] theorem State.setSession_se_fifo (s : State) (n : Nat) (v : Session) : (s.setSession n v).se.fifo = s.se.fifo := rfl
@[simp] theorem State.setSession_se_order (s : State) (n : Nat) (v : Session) : (s.setSession n v).se.order = s.se.order := rfl
@[simp] theorem State.setSession_se_intakeDrop (s : State) (n : Nat) (v : Session) : (s.setSession n v).se.intakeDrop = s.se.intakeDrop := rfl
@[simp] theorem State.setSession_se_rxHeld (s : State) (n : Nat) (v : Session) : (s.setSession n v).se.rxHeld = s.se.rxHeld := rfl
@[simp] theorem State.setSession_se_mirror (s : State) (n : Nat) (v : Session) : (s.setSession n v).se.mirror = s.se.mirror := rfl
@[simp] theorem State.setSession_se_refused (s : State) (n : Nat) (v : Session) : (s.setSession n v).se.refused = s.se.refused := rfl
@[simp] theorem State.setSession_se_opened (s : State) (n : Nat) (v : Session) : (s.setSession n v).se.opened = s.se.opened := rfl
@[simp] theorem State.setSession_se_intakeTaken (s : State) (n : Nat) (v : Session) : (s.setSession n v).se.intakeTaken = s.se.intakeTaken := rfl
@[simp] theorem State.setSession_same (s : State) (n : Nat) (v : Session) : (s.setSession n v).session n = v := Tab.look_put_same _ n v _
@[simp] theorem State.setSession_other (s : State) (n : Nat) (v : Session) (k : Nat) (h : k ≠ n) : (s.setSession n v).session k = s.session k := Tab.look_put_other _ n k v _ h
@[simp] theorem State.setSession_chan_at (s : State) (n : Nat) (v : Session) (k : Nat) : (s.setSession n v).chan k = s.chan k := rfl
@[simp] theorem State.setSession_bay_at (s : State) (n : Nat) (v : Session) (k : Nat) : (s.setSession n v).bay k = s.bay k := rfl
@[simp] theorem State.setSession_course_at (s : State) (n : Nat) (v : Session) (k : Nat) : (s.setSession n v).course k = s.course k := rfl
@[simp] theorem State.setSession_core_at (s : State) (n : Nat) (v : Session) (k : Nat) : (s.setSession n v).core k = s.core k := rfl
@[simp] theorem State.setSession_voice_at (s : State) (n : Nat) (v : Session) (k : Nat) : (s.setSession n v).voice k = s.voice k := rfl
@[simp] theorem State.setSession_partCtr_at (s : State) (n : Nat) (v : Session) (k : Nat) : (s.setSession n v).partCtr k = s.partCtr k := rfl
@[simp] theorem State.setSession_bank_at (s : State) (n : Nat) (v : Session) (k : Nat) : (s.setSession n v).bank k = s.bank k := rfl
@[simp] theorem State.setSession_dacCh_at (s : State) (n : Nat) (v : Session) (k : Nat) : (s.setSession n v).dacCh k = s.dacCh k := rfl
@[simp] theorem State.setSession_uart_at (s : State) (n : Nat) (v : Session) (k : Nat) : (s.setSession n v).uart k = s.uart k := rfl
@[simp] theorem State.setSession_timer_at (s : State) (n : Nat) (v : Session) (k : Nat) : (s.setSession n v).timer k = s.timer k := rfl
@[simp] theorem State.setSession_dom_at (s : State) (n : Nat) (v : Session) (k : Nat) : (s.setSession n v).dom k = s.dom k := rfl
@[simp] theorem State.setSession_stm_at (s : State) (n : Nat) (v : Session) (k : Nat) : (s.setSession n v).stm k = s.stm k := rfl
@[simp] theorem State.setSession_coef_at (s : State) (n : Nat) (v : Session) (k : Nat) : (s.setSession n v).coef k = s.coef k := rfl
@[simp] theorem State.setSession_group_at (s : State) (n : Nat) (v : Session) (k : Nat) : (s.setSession n v).group k = s.group k := rfl
@[simp] theorem State.setSession_svc_at (s : State) (n : Nat) (v : Session) (k : Nat) : (s.setSession n v).svc k = s.svc k := rfl

-- setBank
@[simp] theorem State.setBank_time (s : State) (n : Nat) (v : BankRec) : (s.setBank n v).time = s.time := rfl
@[simp] theorem State.setBank_mbx (s : State) (n : Nat) (v : BankRec) : (s.setBank n v).mbx = s.mbx := rfl
@[simp] theorem State.setBank_params (s : State) (n : Nat) (v : BankRec) : (s.setBank n v).params = s.params := rfl
@[simp] theorem State.setBank_voices (s : State) (n : Nat) (v : BankRec) : (s.setBank n v).voices = s.voices := rfl
@[simp] theorem State.setBank_freed (s : State) (n : Nat) (v : BankRec) : (s.setBank n v).freed = s.freed := rfl
@[simp] theorem State.setBank_nextFresh (s : State) (n : Nat) (v : BankRec) : (s.setBank n v).nextFresh = s.nextFresh := rfl
@[simp] theorem State.setBank_startCtr (s : State) (n : Nat) (v : BankRec) : (s.setBank n v).startCtr = s.startCtr := rfl
@[simp] theorem State.setBank_parts (s : State) (n : Nat) (v : BankRec) : (s.setBank n v).parts = s.parts := rfl
@[simp] theorem State.setBank_cores (s : State) (n : Nat) (v : BankRec) : (s.setBank n v).cores = s.cores := rfl
@[simp] theorem State.setBank_courses (s : State) (n : Nat) (v : BankRec) : (s.setBank n v).courses = s.courses := rfl
@[simp] theorem State.setBank_bays (s : State) (n : Nat) (v : BankRec) : (s.setBank n v).bays = s.bays := rfl
@[simp] theorem State.setBank_dsp (s : State) (n : Nat) (v : BankRec) : (s.setBank n v).dsp = s.dsp := rfl
@[simp] theorem State.setBank_bridge (s : State) (n : Nat) (v : BankRec) : (s.setBank n v).bridge = s.bridge := rfl
@[simp] theorem State.setBank_se (s : State) (n : Nat) (v : BankRec) : (s.setBank n v).se = s.se := rfl
@[simp] theorem State.setBank_audio (s : State) (n : Nat) (v : BankRec) : (s.setBank n v).audio = s.audio := rfl
@[simp] theorem State.setBank_dac (s : State) (n : Nat) (v : BankRec) : (s.setBank n v).dac = s.dac := rfl
@[simp] theorem State.setBank_uarts (s : State) (n : Nat) (v : BankRec) : (s.setBank n v).uarts = s.uarts := rfl
@[simp] theorem State.setBank_timers (s : State) (n : Nat) (v : BankRec) : (s.setBank n v).timers = s.timers := rfl
@[simp] theorem State.setBank_vault (s : State) (n : Nat) (v : BankRec) : (s.setBank n v).vault = s.vault := rfl
@[simp] theorem State.setBank_health (s : State) (n : Nat) (v : BankRec) : (s.setBank n v).health = s.health := rfl
@[simp] theorem State.setBank_power (s : State) (n : Nat) (v : BankRec) : (s.setBank n v).power = s.power := rfl
@[simp] theorem State.setBank_out (s : State) (n : Nat) (v : BankRec) : (s.setBank n v).out = s.out := rfl
@[simp] theorem State.setBank_freeCtr (s : State) (n : Nat) (v : BankRec) : (s.setBank n v).freeCtr = s.freeCtr := rfl
@[simp] theorem State.setBank_pending (s : State) (n : Nat) (v : BankRec) : (s.setBank n v).pending = s.pending := rfl
@[simp] theorem State.setBank_mem_store (s : State) (n : Nat) (v : BankRec) : (s.setBank n v).mem.store = s.mem.store := rfl
@[simp] theorem State.setBank_mem_win (s : State) (n : Nat) (v : BankRec) : (s.setBank n v).mem.win = s.mem.win := rfl
@[simp] theorem State.setBank_mem_denied (s : State) (n : Nat) (v : BankRec) : (s.setBank n v).mem.denied = s.mem.denied := rfl
@[simp] theorem State.setBank_mem_dbe (s : State) (n : Nat) (v : BankRec) : (s.setBank n v).mem.dbe = s.mem.dbe := rfl
@[simp] theorem State.setBank_mem_suspend (s : State) (n : Nat) (v : BankRec) : (s.setBank n v).mem.suspend = s.mem.suspend := rfl
@[simp] theorem State.setBank_mem_wake (s : State) (n : Nat) (v : BankRec) : (s.setBank n v).mem.wake = s.mem.wake := rfl
@[simp] theorem State.setBank_mem_apBank (s : State) (n : Nat) (v : BankRec) : (s.setBank n v).mem.apBank = s.mem.apBank := rfl
@[simp] theorem State.setBank_mem_apAlias (s : State) (n : Nat) (v : BankRec) : (s.setBank n v).mem.apAlias = s.mem.apAlias := rfl
@[simp] theorem State.setBank_mem_apPage (s : State) (n : Nat) (v : BankRec) : (s.setBank n v).mem.apPage = s.mem.apPage := rfl
@[simp] theorem State.setBank_mem_fast (s : State) (n : Nat) (v : BankRec) : (s.setBank n v).mem.fast = s.mem.fast := rfl
@[simp] theorem State.setBank_mem_hwBusy (s : State) (n : Nat) (v : BankRec) : (s.setBank n v).mem.hwBusy = s.mem.hwBusy := rfl
@[simp] theorem State.setBank_mem_hwSafe (s : State) (n : Nat) (v : BankRec) : (s.setBank n v).mem.hwSafe = s.mem.hwSafe := rfl
@[simp] theorem State.setBank_mem_rdLatch (s : State) (n : Nat) (v : BankRec) : (s.setBank n v).mem.rdLatch = s.mem.rdLatch := rfl
@[simp] theorem State.setBank_mem_wrLatch (s : State) (n : Nat) (v : BankRec) : (s.setBank n v).mem.wrLatch = s.mem.wrLatch := rfl
@[simp] theorem State.setBank_mem_wrAddr (s : State) (n : Nat) (v : BankRec) : (s.setBank n v).mem.wrAddr = s.mem.wrAddr := rfl
@[simp] theorem State.setBank_mem_lastRead (s : State) (n : Nat) (v : BankRec) : (s.setBank n v).mem.lastRead = s.mem.lastRead := rfl
@[simp] theorem State.setBank_mem_qspiStatus (s : State) (n : Nat) (v : BankRec) : (s.setBank n v).mem.qspiStatus = s.mem.qspiStatus := rfl
@[simp] theorem State.setBank_mem_bsyN (s : State) (n : Nat) (v : BankRec) : (s.setBank n v).mem.bsyN = s.mem.bsyN := rfl
@[simp] theorem State.setBank_mem_content (s : State) (n : Nat) (v : BankRec) : (s.setBank n v).mem.content = s.mem.content := rfl
@[simp] theorem State.setBank_mem_resid (s : State) (n : Nat) (v : BankRec) : (s.setBank n v).mem.resid = s.mem.resid := rfl
@[simp] theorem State.setBank_mem_requests (s : State) (n : Nat) (v : BankRec) : (s.setBank n v).mem.requests = s.mem.requests := rfl
@[simp] theorem State.setBank_mem_kept (s : State) (n : Nat) (v : BankRec) : (s.setBank n v).mem.kept = s.mem.kept := rfl
@[simp] theorem State.setBank_mem_bad (s : State) (n : Nat) (v : BankRec) : (s.setBank n v).mem.bad = s.mem.bad := rfl
@[simp] theorem State.setBank_mem_promoteDue (s : State) (n : Nat) (v : BankRec) : (s.setBank n v).mem.promoteDue = s.mem.promoteDue := rfl
@[simp] theorem State.setBank_mem_ddr (s : State) (n : Nat) (v : BankRec) : (s.setBank n v).mem.ddr = s.mem.ddr := rfl
@[simp] theorem State.setBank_mem_prevImages (s : State) (n : Nat) (v : BankRec) : (s.setBank n v).mem.prevImages = s.mem.prevImages := rfl
@[simp] theorem State.setBank_mem_stage (s : State) (n : Nat) (v : BankRec) : (s.setBank n v).mem.stage = s.mem.stage := rfl
@[simp] theorem State.setBank_mem_stageOpen (s : State) (n : Nat) (v : BankRec) : (s.setBank n v).mem.stageOpen = s.mem.stageOpen := rfl
@[simp] theorem State.setBank_mem_pkgs (s : State) (n : Nat) (v : BankRec) : (s.setBank n v).mem.pkgs = s.mem.pkgs := rfl
@[simp] theorem State.setBank_same (s : State) (n : Nat) (v : BankRec) : (s.setBank n v).bank n = v := Tab.look_put_same _ n v _
@[simp] theorem State.setBank_other (s : State) (n : Nat) (v : BankRec) (k : Nat) (h : k ≠ n) : (s.setBank n v).bank k = s.bank k := Tab.look_put_other _ n k v _ h
@[simp] theorem State.setBank_chan_at (s : State) (n : Nat) (v : BankRec) (k : Nat) : (s.setBank n v).chan k = s.chan k := rfl
@[simp] theorem State.setBank_bay_at (s : State) (n : Nat) (v : BankRec) (k : Nat) : (s.setBank n v).bay k = s.bay k := rfl
@[simp] theorem State.setBank_course_at (s : State) (n : Nat) (v : BankRec) (k : Nat) : (s.setBank n v).course k = s.course k := rfl
@[simp] theorem State.setBank_core_at (s : State) (n : Nat) (v : BankRec) (k : Nat) : (s.setBank n v).core k = s.core k := rfl
@[simp] theorem State.setBank_voice_at (s : State) (n : Nat) (v : BankRec) (k : Nat) : (s.setBank n v).voice k = s.voice k := rfl
@[simp] theorem State.setBank_partCtr_at (s : State) (n : Nat) (v : BankRec) (k : Nat) : (s.setBank n v).partCtr k = s.partCtr k := rfl
@[simp] theorem State.setBank_session_at (s : State) (n : Nat) (v : BankRec) (k : Nat) : (s.setBank n v).session k = s.session k := rfl
@[simp] theorem State.setBank_dacCh_at (s : State) (n : Nat) (v : BankRec) (k : Nat) : (s.setBank n v).dacCh k = s.dacCh k := rfl
@[simp] theorem State.setBank_uart_at (s : State) (n : Nat) (v : BankRec) (k : Nat) : (s.setBank n v).uart k = s.uart k := rfl
@[simp] theorem State.setBank_timer_at (s : State) (n : Nat) (v : BankRec) (k : Nat) : (s.setBank n v).timer k = s.timer k := rfl
@[simp] theorem State.setBank_dom_at (s : State) (n : Nat) (v : BankRec) (k : Nat) : (s.setBank n v).dom k = s.dom k := rfl
@[simp] theorem State.setBank_stm_at (s : State) (n : Nat) (v : BankRec) (k : Nat) : (s.setBank n v).stm k = s.stm k := rfl
@[simp] theorem State.setBank_coef_at (s : State) (n : Nat) (v : BankRec) (k : Nat) : (s.setBank n v).coef k = s.coef k := rfl
@[simp] theorem State.setBank_group_at (s : State) (n : Nat) (v : BankRec) (k : Nat) : (s.setBank n v).group k = s.group k := rfl
@[simp] theorem State.setBank_svc_at (s : State) (n : Nat) (v : BankRec) (k : Nat) : (s.setBank n v).svc k = s.svc k := rfl

-- setDacCh
@[simp] theorem State.setDacCh_time (s : State) (n : Nat) (v : DacCh) : (s.setDacCh n v).time = s.time := rfl
@[simp] theorem State.setDacCh_mbx (s : State) (n : Nat) (v : DacCh) : (s.setDacCh n v).mbx = s.mbx := rfl
@[simp] theorem State.setDacCh_params (s : State) (n : Nat) (v : DacCh) : (s.setDacCh n v).params = s.params := rfl
@[simp] theorem State.setDacCh_voices (s : State) (n : Nat) (v : DacCh) : (s.setDacCh n v).voices = s.voices := rfl
@[simp] theorem State.setDacCh_freed (s : State) (n : Nat) (v : DacCh) : (s.setDacCh n v).freed = s.freed := rfl
@[simp] theorem State.setDacCh_nextFresh (s : State) (n : Nat) (v : DacCh) : (s.setDacCh n v).nextFresh = s.nextFresh := rfl
@[simp] theorem State.setDacCh_startCtr (s : State) (n : Nat) (v : DacCh) : (s.setDacCh n v).startCtr = s.startCtr := rfl
@[simp] theorem State.setDacCh_parts (s : State) (n : Nat) (v : DacCh) : (s.setDacCh n v).parts = s.parts := rfl
@[simp] theorem State.setDacCh_cores (s : State) (n : Nat) (v : DacCh) : (s.setDacCh n v).cores = s.cores := rfl
@[simp] theorem State.setDacCh_courses (s : State) (n : Nat) (v : DacCh) : (s.setDacCh n v).courses = s.courses := rfl
@[simp] theorem State.setDacCh_bays (s : State) (n : Nat) (v : DacCh) : (s.setDacCh n v).bays = s.bays := rfl
@[simp] theorem State.setDacCh_dsp (s : State) (n : Nat) (v : DacCh) : (s.setDacCh n v).dsp = s.dsp := rfl
@[simp] theorem State.setDacCh_bridge (s : State) (n : Nat) (v : DacCh) : (s.setDacCh n v).bridge = s.bridge := rfl
@[simp] theorem State.setDacCh_se (s : State) (n : Nat) (v : DacCh) : (s.setDacCh n v).se = s.se := rfl
@[simp] theorem State.setDacCh_mem (s : State) (n : Nat) (v : DacCh) : (s.setDacCh n v).mem = s.mem := rfl
@[simp] theorem State.setDacCh_audio (s : State) (n : Nat) (v : DacCh) : (s.setDacCh n v).audio = s.audio := rfl
@[simp] theorem State.setDacCh_uarts (s : State) (n : Nat) (v : DacCh) : (s.setDacCh n v).uarts = s.uarts := rfl
@[simp] theorem State.setDacCh_timers (s : State) (n : Nat) (v : DacCh) : (s.setDacCh n v).timers = s.timers := rfl
@[simp] theorem State.setDacCh_vault (s : State) (n : Nat) (v : DacCh) : (s.setDacCh n v).vault = s.vault := rfl
@[simp] theorem State.setDacCh_health (s : State) (n : Nat) (v : DacCh) : (s.setDacCh n v).health = s.health := rfl
@[simp] theorem State.setDacCh_power (s : State) (n : Nat) (v : DacCh) : (s.setDacCh n v).power = s.power := rfl
@[simp] theorem State.setDacCh_out (s : State) (n : Nat) (v : DacCh) : (s.setDacCh n v).out = s.out := rfl
@[simp] theorem State.setDacCh_freeCtr (s : State) (n : Nat) (v : DacCh) : (s.setDacCh n v).freeCtr = s.freeCtr := rfl
@[simp] theorem State.setDacCh_pending (s : State) (n : Nat) (v : DacCh) : (s.setDacCh n v).pending = s.pending := rfl
@[simp] theorem State.setDacCh_dac_short (s : State) (n : Nat) (v : DacCh) : (s.setDacCh n v).dac.short = s.dac.short := rfl
@[simp] theorem State.setDacCh_dac_fault (s : State) (n : Nat) (v : DacCh) : (s.setDacCh n v).dac.fault = s.dac.fault := rfl
@[simp] theorem State.setDacCh_dac_dropped (s : State) (n : Nat) (v : DacCh) : (s.setDacCh n v).dac.dropped = s.dac.dropped := rfl
@[simp] theorem State.setDacCh_dac_queue (s : State) (n : Nat) (v : DacCh) : (s.setDacCh n v).dac.queue = s.dac.queue := rfl
@[simp] theorem State.setDacCh_same (s : State) (n : Nat) (v : DacCh) : (s.setDacCh n v).dacCh n = v := Tab.look_put_same _ n v _
@[simp] theorem State.setDacCh_other (s : State) (n : Nat) (v : DacCh) (k : Nat) (h : k ≠ n) : (s.setDacCh n v).dacCh k = s.dacCh k := Tab.look_put_other _ n k v _ h
@[simp] theorem State.setDacCh_chan_at (s : State) (n : Nat) (v : DacCh) (k : Nat) : (s.setDacCh n v).chan k = s.chan k := rfl
@[simp] theorem State.setDacCh_bay_at (s : State) (n : Nat) (v : DacCh) (k : Nat) : (s.setDacCh n v).bay k = s.bay k := rfl
@[simp] theorem State.setDacCh_course_at (s : State) (n : Nat) (v : DacCh) (k : Nat) : (s.setDacCh n v).course k = s.course k := rfl
@[simp] theorem State.setDacCh_core_at (s : State) (n : Nat) (v : DacCh) (k : Nat) : (s.setDacCh n v).core k = s.core k := rfl
@[simp] theorem State.setDacCh_voice_at (s : State) (n : Nat) (v : DacCh) (k : Nat) : (s.setDacCh n v).voice k = s.voice k := rfl
@[simp] theorem State.setDacCh_partCtr_at (s : State) (n : Nat) (v : DacCh) (k : Nat) : (s.setDacCh n v).partCtr k = s.partCtr k := rfl
@[simp] theorem State.setDacCh_session_at (s : State) (n : Nat) (v : DacCh) (k : Nat) : (s.setDacCh n v).session k = s.session k := rfl
@[simp] theorem State.setDacCh_bank_at (s : State) (n : Nat) (v : DacCh) (k : Nat) : (s.setDacCh n v).bank k = s.bank k := rfl
@[simp] theorem State.setDacCh_uart_at (s : State) (n : Nat) (v : DacCh) (k : Nat) : (s.setDacCh n v).uart k = s.uart k := rfl
@[simp] theorem State.setDacCh_timer_at (s : State) (n : Nat) (v : DacCh) (k : Nat) : (s.setDacCh n v).timer k = s.timer k := rfl
@[simp] theorem State.setDacCh_dom_at (s : State) (n : Nat) (v : DacCh) (k : Nat) : (s.setDacCh n v).dom k = s.dom k := rfl
@[simp] theorem State.setDacCh_stm_at (s : State) (n : Nat) (v : DacCh) (k : Nat) : (s.setDacCh n v).stm k = s.stm k := rfl
@[simp] theorem State.setDacCh_coef_at (s : State) (n : Nat) (v : DacCh) (k : Nat) : (s.setDacCh n v).coef k = s.coef k := rfl
@[simp] theorem State.setDacCh_group_at (s : State) (n : Nat) (v : DacCh) (k : Nat) : (s.setDacCh n v).group k = s.group k := rfl
@[simp] theorem State.setDacCh_svc_at (s : State) (n : Nat) (v : DacCh) (k : Nat) : (s.setDacCh n v).svc k = s.svc k := rfl

-- setUart
@[simp] theorem State.setUart_time (s : State) (n : Nat) (v : Uart) : (s.setUart n v).time = s.time := rfl
@[simp] theorem State.setUart_mbx (s : State) (n : Nat) (v : Uart) : (s.setUart n v).mbx = s.mbx := rfl
@[simp] theorem State.setUart_params (s : State) (n : Nat) (v : Uart) : (s.setUart n v).params = s.params := rfl
@[simp] theorem State.setUart_voices (s : State) (n : Nat) (v : Uart) : (s.setUart n v).voices = s.voices := rfl
@[simp] theorem State.setUart_freed (s : State) (n : Nat) (v : Uart) : (s.setUart n v).freed = s.freed := rfl
@[simp] theorem State.setUart_nextFresh (s : State) (n : Nat) (v : Uart) : (s.setUart n v).nextFresh = s.nextFresh := rfl
@[simp] theorem State.setUart_startCtr (s : State) (n : Nat) (v : Uart) : (s.setUart n v).startCtr = s.startCtr := rfl
@[simp] theorem State.setUart_parts (s : State) (n : Nat) (v : Uart) : (s.setUart n v).parts = s.parts := rfl
@[simp] theorem State.setUart_cores (s : State) (n : Nat) (v : Uart) : (s.setUart n v).cores = s.cores := rfl
@[simp] theorem State.setUart_courses (s : State) (n : Nat) (v : Uart) : (s.setUart n v).courses = s.courses := rfl
@[simp] theorem State.setUart_bays (s : State) (n : Nat) (v : Uart) : (s.setUart n v).bays = s.bays := rfl
@[simp] theorem State.setUart_dsp (s : State) (n : Nat) (v : Uart) : (s.setUart n v).dsp = s.dsp := rfl
@[simp] theorem State.setUart_bridge (s : State) (n : Nat) (v : Uart) : (s.setUart n v).bridge = s.bridge := rfl
@[simp] theorem State.setUart_se (s : State) (n : Nat) (v : Uart) : (s.setUart n v).se = s.se := rfl
@[simp] theorem State.setUart_mem (s : State) (n : Nat) (v : Uart) : (s.setUart n v).mem = s.mem := rfl
@[simp] theorem State.setUart_audio (s : State) (n : Nat) (v : Uart) : (s.setUart n v).audio = s.audio := rfl
@[simp] theorem State.setUart_dac (s : State) (n : Nat) (v : Uart) : (s.setUart n v).dac = s.dac := rfl
@[simp] theorem State.setUart_timers (s : State) (n : Nat) (v : Uart) : (s.setUart n v).timers = s.timers := rfl
@[simp] theorem State.setUart_vault (s : State) (n : Nat) (v : Uart) : (s.setUart n v).vault = s.vault := rfl
@[simp] theorem State.setUart_health (s : State) (n : Nat) (v : Uart) : (s.setUart n v).health = s.health := rfl
@[simp] theorem State.setUart_power (s : State) (n : Nat) (v : Uart) : (s.setUart n v).power = s.power := rfl
@[simp] theorem State.setUart_out (s : State) (n : Nat) (v : Uart) : (s.setUart n v).out = s.out := rfl
@[simp] theorem State.setUart_freeCtr (s : State) (n : Nat) (v : Uart) : (s.setUart n v).freeCtr = s.freeCtr := rfl
@[simp] theorem State.setUart_pending (s : State) (n : Nat) (v : Uart) : (s.setUart n v).pending = s.pending := rfl
@[simp] theorem State.setUart_same (s : State) (n : Nat) (v : Uart) : (s.setUart n v).uart n = v := Tab.look_put_same _ n v _
@[simp] theorem State.setUart_other (s : State) (n : Nat) (v : Uart) (k : Nat) (h : k ≠ n) : (s.setUart n v).uart k = s.uart k := Tab.look_put_other _ n k v _ h
@[simp] theorem State.setUart_chan_at (s : State) (n : Nat) (v : Uart) (k : Nat) : (s.setUart n v).chan k = s.chan k := rfl
@[simp] theorem State.setUart_bay_at (s : State) (n : Nat) (v : Uart) (k : Nat) : (s.setUart n v).bay k = s.bay k := rfl
@[simp] theorem State.setUart_course_at (s : State) (n : Nat) (v : Uart) (k : Nat) : (s.setUart n v).course k = s.course k := rfl
@[simp] theorem State.setUart_core_at (s : State) (n : Nat) (v : Uart) (k : Nat) : (s.setUart n v).core k = s.core k := rfl
@[simp] theorem State.setUart_voice_at (s : State) (n : Nat) (v : Uart) (k : Nat) : (s.setUart n v).voice k = s.voice k := rfl
@[simp] theorem State.setUart_partCtr_at (s : State) (n : Nat) (v : Uart) (k : Nat) : (s.setUart n v).partCtr k = s.partCtr k := rfl
@[simp] theorem State.setUart_session_at (s : State) (n : Nat) (v : Uart) (k : Nat) : (s.setUart n v).session k = s.session k := rfl
@[simp] theorem State.setUart_bank_at (s : State) (n : Nat) (v : Uart) (k : Nat) : (s.setUart n v).bank k = s.bank k := rfl
@[simp] theorem State.setUart_dacCh_at (s : State) (n : Nat) (v : Uart) (k : Nat) : (s.setUart n v).dacCh k = s.dacCh k := rfl
@[simp] theorem State.setUart_timer_at (s : State) (n : Nat) (v : Uart) (k : Nat) : (s.setUart n v).timer k = s.timer k := rfl
@[simp] theorem State.setUart_dom_at (s : State) (n : Nat) (v : Uart) (k : Nat) : (s.setUart n v).dom k = s.dom k := rfl
@[simp] theorem State.setUart_stm_at (s : State) (n : Nat) (v : Uart) (k : Nat) : (s.setUart n v).stm k = s.stm k := rfl
@[simp] theorem State.setUart_coef_at (s : State) (n : Nat) (v : Uart) (k : Nat) : (s.setUart n v).coef k = s.coef k := rfl
@[simp] theorem State.setUart_group_at (s : State) (n : Nat) (v : Uart) (k : Nat) : (s.setUart n v).group k = s.group k := rfl
@[simp] theorem State.setUart_svc_at (s : State) (n : Nat) (v : Uart) (k : Nat) : (s.setUart n v).svc k = s.svc k := rfl

-- setTimer
@[simp] theorem State.setTimer_time (s : State) (n : Nat) (v : Timer) : (s.setTimer n v).time = s.time := rfl
@[simp] theorem State.setTimer_mbx (s : State) (n : Nat) (v : Timer) : (s.setTimer n v).mbx = s.mbx := rfl
@[simp] theorem State.setTimer_params (s : State) (n : Nat) (v : Timer) : (s.setTimer n v).params = s.params := rfl
@[simp] theorem State.setTimer_voices (s : State) (n : Nat) (v : Timer) : (s.setTimer n v).voices = s.voices := rfl
@[simp] theorem State.setTimer_freed (s : State) (n : Nat) (v : Timer) : (s.setTimer n v).freed = s.freed := rfl
@[simp] theorem State.setTimer_nextFresh (s : State) (n : Nat) (v : Timer) : (s.setTimer n v).nextFresh = s.nextFresh := rfl
@[simp] theorem State.setTimer_startCtr (s : State) (n : Nat) (v : Timer) : (s.setTimer n v).startCtr = s.startCtr := rfl
@[simp] theorem State.setTimer_parts (s : State) (n : Nat) (v : Timer) : (s.setTimer n v).parts = s.parts := rfl
@[simp] theorem State.setTimer_cores (s : State) (n : Nat) (v : Timer) : (s.setTimer n v).cores = s.cores := rfl
@[simp] theorem State.setTimer_courses (s : State) (n : Nat) (v : Timer) : (s.setTimer n v).courses = s.courses := rfl
@[simp] theorem State.setTimer_bays (s : State) (n : Nat) (v : Timer) : (s.setTimer n v).bays = s.bays := rfl
@[simp] theorem State.setTimer_dsp (s : State) (n : Nat) (v : Timer) : (s.setTimer n v).dsp = s.dsp := rfl
@[simp] theorem State.setTimer_bridge (s : State) (n : Nat) (v : Timer) : (s.setTimer n v).bridge = s.bridge := rfl
@[simp] theorem State.setTimer_se (s : State) (n : Nat) (v : Timer) : (s.setTimer n v).se = s.se := rfl
@[simp] theorem State.setTimer_mem (s : State) (n : Nat) (v : Timer) : (s.setTimer n v).mem = s.mem := rfl
@[simp] theorem State.setTimer_audio (s : State) (n : Nat) (v : Timer) : (s.setTimer n v).audio = s.audio := rfl
@[simp] theorem State.setTimer_dac (s : State) (n : Nat) (v : Timer) : (s.setTimer n v).dac = s.dac := rfl
@[simp] theorem State.setTimer_uarts (s : State) (n : Nat) (v : Timer) : (s.setTimer n v).uarts = s.uarts := rfl
@[simp] theorem State.setTimer_vault (s : State) (n : Nat) (v : Timer) : (s.setTimer n v).vault = s.vault := rfl
@[simp] theorem State.setTimer_health (s : State) (n : Nat) (v : Timer) : (s.setTimer n v).health = s.health := rfl
@[simp] theorem State.setTimer_power (s : State) (n : Nat) (v : Timer) : (s.setTimer n v).power = s.power := rfl
@[simp] theorem State.setTimer_out (s : State) (n : Nat) (v : Timer) : (s.setTimer n v).out = s.out := rfl
@[simp] theorem State.setTimer_freeCtr (s : State) (n : Nat) (v : Timer) : (s.setTimer n v).freeCtr = s.freeCtr := rfl
@[simp] theorem State.setTimer_pending (s : State) (n : Nat) (v : Timer) : (s.setTimer n v).pending = s.pending := rfl
@[simp] theorem State.setTimer_same (s : State) (n : Nat) (v : Timer) : (s.setTimer n v).timer n = v := Tab.look_put_same _ n v _
@[simp] theorem State.setTimer_other (s : State) (n : Nat) (v : Timer) (k : Nat) (h : k ≠ n) : (s.setTimer n v).timer k = s.timer k := Tab.look_put_other _ n k v _ h
@[simp] theorem State.setTimer_chan_at (s : State) (n : Nat) (v : Timer) (k : Nat) : (s.setTimer n v).chan k = s.chan k := rfl
@[simp] theorem State.setTimer_bay_at (s : State) (n : Nat) (v : Timer) (k : Nat) : (s.setTimer n v).bay k = s.bay k := rfl
@[simp] theorem State.setTimer_course_at (s : State) (n : Nat) (v : Timer) (k : Nat) : (s.setTimer n v).course k = s.course k := rfl
@[simp] theorem State.setTimer_core_at (s : State) (n : Nat) (v : Timer) (k : Nat) : (s.setTimer n v).core k = s.core k := rfl
@[simp] theorem State.setTimer_voice_at (s : State) (n : Nat) (v : Timer) (k : Nat) : (s.setTimer n v).voice k = s.voice k := rfl
@[simp] theorem State.setTimer_partCtr_at (s : State) (n : Nat) (v : Timer) (k : Nat) : (s.setTimer n v).partCtr k = s.partCtr k := rfl
@[simp] theorem State.setTimer_session_at (s : State) (n : Nat) (v : Timer) (k : Nat) : (s.setTimer n v).session k = s.session k := rfl
@[simp] theorem State.setTimer_bank_at (s : State) (n : Nat) (v : Timer) (k : Nat) : (s.setTimer n v).bank k = s.bank k := rfl
@[simp] theorem State.setTimer_dacCh_at (s : State) (n : Nat) (v : Timer) (k : Nat) : (s.setTimer n v).dacCh k = s.dacCh k := rfl
@[simp] theorem State.setTimer_uart_at (s : State) (n : Nat) (v : Timer) (k : Nat) : (s.setTimer n v).uart k = s.uart k := rfl
@[simp] theorem State.setTimer_dom_at (s : State) (n : Nat) (v : Timer) (k : Nat) : (s.setTimer n v).dom k = s.dom k := rfl
@[simp] theorem State.setTimer_stm_at (s : State) (n : Nat) (v : Timer) (k : Nat) : (s.setTimer n v).stm k = s.stm k := rfl
@[simp] theorem State.setTimer_coef_at (s : State) (n : Nat) (v : Timer) (k : Nat) : (s.setTimer n v).coef k = s.coef k := rfl
@[simp] theorem State.setTimer_group_at (s : State) (n : Nat) (v : Timer) (k : Nat) : (s.setTimer n v).group k = s.group k := rfl
@[simp] theorem State.setTimer_svc_at (s : State) (n : Nat) (v : Timer) (k : Nat) : (s.setTimer n v).svc k = s.svc k := rfl

-- setDom
@[simp] theorem State.setDom_mbx (s : State) (n : Nat) (v : Dom) : (s.setDom n v).mbx = s.mbx := rfl
@[simp] theorem State.setDom_params (s : State) (n : Nat) (v : Dom) : (s.setDom n v).params = s.params := rfl
@[simp] theorem State.setDom_voices (s : State) (n : Nat) (v : Dom) : (s.setDom n v).voices = s.voices := rfl
@[simp] theorem State.setDom_freed (s : State) (n : Nat) (v : Dom) : (s.setDom n v).freed = s.freed := rfl
@[simp] theorem State.setDom_nextFresh (s : State) (n : Nat) (v : Dom) : (s.setDom n v).nextFresh = s.nextFresh := rfl
@[simp] theorem State.setDom_startCtr (s : State) (n : Nat) (v : Dom) : (s.setDom n v).startCtr = s.startCtr := rfl
@[simp] theorem State.setDom_parts (s : State) (n : Nat) (v : Dom) : (s.setDom n v).parts = s.parts := rfl
@[simp] theorem State.setDom_cores (s : State) (n : Nat) (v : Dom) : (s.setDom n v).cores = s.cores := rfl
@[simp] theorem State.setDom_courses (s : State) (n : Nat) (v : Dom) : (s.setDom n v).courses = s.courses := rfl
@[simp] theorem State.setDom_bays (s : State) (n : Nat) (v : Dom) : (s.setDom n v).bays = s.bays := rfl
@[simp] theorem State.setDom_dsp (s : State) (n : Nat) (v : Dom) : (s.setDom n v).dsp = s.dsp := rfl
@[simp] theorem State.setDom_bridge (s : State) (n : Nat) (v : Dom) : (s.setDom n v).bridge = s.bridge := rfl
@[simp] theorem State.setDom_se (s : State) (n : Nat) (v : Dom) : (s.setDom n v).se = s.se := rfl
@[simp] theorem State.setDom_mem (s : State) (n : Nat) (v : Dom) : (s.setDom n v).mem = s.mem := rfl
@[simp] theorem State.setDom_audio (s : State) (n : Nat) (v : Dom) : (s.setDom n v).audio = s.audio := rfl
@[simp] theorem State.setDom_dac (s : State) (n : Nat) (v : Dom) : (s.setDom n v).dac = s.dac := rfl
@[simp] theorem State.setDom_uarts (s : State) (n : Nat) (v : Dom) : (s.setDom n v).uarts = s.uarts := rfl
@[simp] theorem State.setDom_timers (s : State) (n : Nat) (v : Dom) : (s.setDom n v).timers = s.timers := rfl
@[simp] theorem State.setDom_vault (s : State) (n : Nat) (v : Dom) : (s.setDom n v).vault = s.vault := rfl
@[simp] theorem State.setDom_health (s : State) (n : Nat) (v : Dom) : (s.setDom n v).health = s.health := rfl
@[simp] theorem State.setDom_power (s : State) (n : Nat) (v : Dom) : (s.setDom n v).power = s.power := rfl
@[simp] theorem State.setDom_out (s : State) (n : Nat) (v : Dom) : (s.setDom n v).out = s.out := rfl
@[simp] theorem State.setDom_freeCtr (s : State) (n : Nat) (v : Dom) : (s.setDom n v).freeCtr = s.freeCtr := rfl
@[simp] theorem State.setDom_pending (s : State) (n : Nat) (v : Dom) : (s.setDom n v).pending = s.pending := rfl
@[simp] theorem State.setDom_time_deviceTime (s : State) (n : Nat) (v : Dom) : (s.setDom n v).time.deviceTime = s.time.deviceTime := rfl
@[simp] theorem State.setDom_time_dtFrac (s : State) (n : Nat) (v : Dom) : (s.setDom n v).time.dtFrac = s.time.dtFrac := rfl
@[simp] theorem State.setDom_time_clkCount (s : State) (n : Nat) (v : Dom) : (s.setDom n v).time.clkCount = s.time.clkCount := rfl
@[simp] theorem State.setDom_time_frameCount (s : State) (n : Nat) (v : Dom) : (s.setDom n v).time.frameCount = s.time.frameCount := rfl
@[simp] theorem State.setDom_time_stamp (s : State) (n : Nat) (v : Dom) : (s.setDom n v).time.stamp = s.time.stamp := rfl
@[simp] theorem State.setDom_time_reach (s : State) (n : Nat) (v : Dom) : (s.setDom n v).time.reach = s.time.reach := rfl
@[simp] theorem State.setDom_time_tickDt (s : State) (n : Nat) (v : Dom) : (s.setDom n v).time.tickDt = s.time.tickDt := rfl
@[simp] theorem State.setDom_time_phaseDt (s : State) (n : Nat) (v : Dom) : (s.setDom n v).time.phaseDt = s.time.phaseDt := rfl
@[simp] theorem State.setDom_time_clk (s : State) (n : Nat) (v : Dom) : (s.setDom n v).time.clk = s.time.clk := rfl
@[simp] theorem State.setDom_time_ticking (s : State) (n : Nat) (v : Dom) : (s.setDom n v).time.ticking = s.time.ticking := rfl
@[simp] theorem State.setDom_time_countHold (s : State) (n : Nat) (v : Dom) : (s.setDom n v).time.countHold = s.time.countHold := rfl
@[simp] theorem State.setDom_time_stampHold (s : State) (n : Nat) (v : Dom) : (s.setDom n v).time.stampHold = s.time.stampHold := rfl
@[simp] theorem State.setDom_time_bufDtHi (s : State) (n : Nat) (v : Dom) : (s.setDom n v).time.bufDtHi = s.time.bufDtHi := rfl
@[simp] theorem State.setDom_time_bufFcLo (s : State) (n : Nat) (v : Dom) : (s.setDom n v).time.bufFcLo = s.time.bufFcLo := rfl
@[simp] theorem State.setDom_time_bufFcHi (s : State) (n : Nat) (v : Dom) : (s.setDom n v).time.bufFcHi = s.time.bufFcHi := rfl
@[simp] theorem State.setDom_time_bufStamp (s : State) (n : Nat) (v : Dom) : (s.setDom n v).time.bufStamp = s.time.bufStamp := rfl
@[simp] theorem State.setDom_time_dom2Num (s : State) (n : Nat) (v : Dom) : (s.setDom n v).time.dom2Num = s.time.dom2Num := rfl
@[simp] theorem State.setDom_time_dom2Port (s : State) (n : Nat) (v : Dom) : (s.setDom n v).time.dom2Port = s.time.dom2Port := rfl
@[simp] theorem State.setDom_time_dom0Port (s : State) (n : Nat) (v : Dom) : (s.setDom n v).time.dom0Port = s.time.dom0Port := rfl
@[simp] theorem State.setDom_time_autoSwitch (s : State) (n : Nat) (v : Dom) : (s.setDom n v).time.autoSwitch = s.time.autoSwitch := rfl
@[simp] theorem State.setDom_time_cor (s : State) (n : Nat) (v : Dom) : (s.setDom n v).time.cor = s.time.cor := rfl
@[simp] theorem State.setDom_time_rate (s : State) (n : Nat) (v : Dom) : (s.setDom n v).time.rate = s.time.rate := rfl
@[simp] theorem State.setDom_time_newRate (s : State) (n : Nat) (v : Dom) : (s.setDom n v).time.newRate = s.time.newRate := rfl
@[simp] theorem State.setDom_time_launchDrop (s : State) (n : Nat) (v : Dom) : (s.setDom n v).time.launchDrop = s.time.launchDrop := rfl
@[simp] theorem State.setDom_time_launchLate (s : State) (n : Nat) (v : Dom) : (s.setDom n v).time.launchLate = s.time.launchLate := rfl
@[simp] theorem State.setDom_time_tsCollide (s : State) (n : Nat) (v : Dom) : (s.setDom n v).time.tsCollide = s.time.tsCollide := rfl
@[simp] theorem State.setDom_time_holdover (s : State) (n : Nat) (v : Dom) : (s.setDom n v).time.holdover = s.time.holdover := rfl
@[simp] theorem State.setDom_time_switchTo (s : State) (n : Nat) (v : Dom) : (s.setDom n v).time.switchTo = s.time.switchTo := rfl
@[simp] theorem State.setDom_time_corDue (s : State) (n : Nat) (v : Dom) : (s.setDom n v).time.corDue = s.time.corDue := rfl
@[simp] theorem State.setDom_time_switching (s : State) (n : Nat) (v : Dom) : (s.setDom n v).time.switching = s.time.switching := rfl
@[simp] theorem State.setDom_time_activeCor (s : State) (n : Nat) (v : Dom) : (s.setDom n v).time.activeCor = s.time.activeCor := rfl
@[simp] theorem State.setDom_time_phyIn0 (s : State) (n : Nat) (v : Dom) : (s.setDom n v).time.phyIn0 = s.time.phyIn0 := rfl
@[simp] theorem State.setDom_time_phyOut0 (s : State) (n : Nat) (v : Dom) : (s.setDom n v).time.phyOut0 = s.time.phyOut0 := rfl
@[simp] theorem State.setDom_time_phyIn1 (s : State) (n : Nat) (v : Dom) : (s.setDom n v).time.phyIn1 = s.time.phyIn1 := rfl
@[simp] theorem State.setDom_time_phyOut1 (s : State) (n : Nat) (v : Dom) : (s.setDom n v).time.phyOut1 = s.time.phyOut1 := rfl
@[simp] theorem State.setDom_time_ratePpt (s : State) (n : Nat) (v : Dom) : (s.setDom n v).time.ratePpt = s.time.ratePpt := rfl
@[simp] theorem State.setDom_time_targetPpt (s : State) (n : Nat) (v : Dom) : (s.setDom n v).time.targetPpt = s.time.targetPpt := rfl
@[simp] theorem State.setDom_time_rampFrom (s : State) (n : Nat) (v : Dom) : (s.setDom n v).time.rampFrom = s.time.rampFrom := rfl
@[simp] theorem State.setDom_time_rampFrames (s : State) (n : Nat) (v : Dom) : (s.setDom n v).time.rampFrames = s.time.rampFrames := rfl
@[simp] theorem State.setDom_time_lastUnlock (s : State) (n : Nat) (v : Dom) : (s.setDom n v).time.lastUnlock = s.time.lastUnlock := rfl
@[simp] theorem State.setDom_time_lastTs (s : State) (n : Nat) (v : Dom) : (s.setDom n v).time.lastTs = s.time.lastTs := rfl
@[simp] theorem State.setDom_same (s : State) (n : Nat) (v : Dom) : (s.setDom n v).dom n = v := Tab.look_put_same _ n v _
@[simp] theorem State.setDom_other (s : State) (n : Nat) (v : Dom) (k : Nat) (h : k ≠ n) : (s.setDom n v).dom k = s.dom k := Tab.look_put_other _ n k v _ h
@[simp] theorem State.setDom_chan_at (s : State) (n : Nat) (v : Dom) (k : Nat) : (s.setDom n v).chan k = s.chan k := rfl
@[simp] theorem State.setDom_bay_at (s : State) (n : Nat) (v : Dom) (k : Nat) : (s.setDom n v).bay k = s.bay k := rfl
@[simp] theorem State.setDom_course_at (s : State) (n : Nat) (v : Dom) (k : Nat) : (s.setDom n v).course k = s.course k := rfl
@[simp] theorem State.setDom_core_at (s : State) (n : Nat) (v : Dom) (k : Nat) : (s.setDom n v).core k = s.core k := rfl
@[simp] theorem State.setDom_voice_at (s : State) (n : Nat) (v : Dom) (k : Nat) : (s.setDom n v).voice k = s.voice k := rfl
@[simp] theorem State.setDom_partCtr_at (s : State) (n : Nat) (v : Dom) (k : Nat) : (s.setDom n v).partCtr k = s.partCtr k := rfl
@[simp] theorem State.setDom_session_at (s : State) (n : Nat) (v : Dom) (k : Nat) : (s.setDom n v).session k = s.session k := rfl
@[simp] theorem State.setDom_bank_at (s : State) (n : Nat) (v : Dom) (k : Nat) : (s.setDom n v).bank k = s.bank k := rfl
@[simp] theorem State.setDom_dacCh_at (s : State) (n : Nat) (v : Dom) (k : Nat) : (s.setDom n v).dacCh k = s.dacCh k := rfl
@[simp] theorem State.setDom_uart_at (s : State) (n : Nat) (v : Dom) (k : Nat) : (s.setDom n v).uart k = s.uart k := rfl
@[simp] theorem State.setDom_timer_at (s : State) (n : Nat) (v : Dom) (k : Nat) : (s.setDom n v).timer k = s.timer k := rfl
@[simp] theorem State.setDom_stm_at (s : State) (n : Nat) (v : Dom) (k : Nat) : (s.setDom n v).stm k = s.stm k := rfl
@[simp] theorem State.setDom_coef_at (s : State) (n : Nat) (v : Dom) (k : Nat) : (s.setDom n v).coef k = s.coef k := rfl
@[simp] theorem State.setDom_group_at (s : State) (n : Nat) (v : Dom) (k : Nat) : (s.setDom n v).group k = s.group k := rfl
@[simp] theorem State.setDom_svc_at (s : State) (n : Nat) (v : Dom) (k : Nat) : (s.setDom n v).svc k = s.svc k := rfl

-- setStm
@[simp] theorem State.setStm_time (s : State) (n : Nat) (v : Stm) : (s.setStm n v).time = s.time := rfl
@[simp] theorem State.setStm_mbx (s : State) (n : Nat) (v : Stm) : (s.setStm n v).mbx = s.mbx := rfl
@[simp] theorem State.setStm_params (s : State) (n : Nat) (v : Stm) : (s.setStm n v).params = s.params := rfl
@[simp] theorem State.setStm_voices (s : State) (n : Nat) (v : Stm) : (s.setStm n v).voices = s.voices := rfl
@[simp] theorem State.setStm_freed (s : State) (n : Nat) (v : Stm) : (s.setStm n v).freed = s.freed := rfl
@[simp] theorem State.setStm_nextFresh (s : State) (n : Nat) (v : Stm) : (s.setStm n v).nextFresh = s.nextFresh := rfl
@[simp] theorem State.setStm_startCtr (s : State) (n : Nat) (v : Stm) : (s.setStm n v).startCtr = s.startCtr := rfl
@[simp] theorem State.setStm_parts (s : State) (n : Nat) (v : Stm) : (s.setStm n v).parts = s.parts := rfl
@[simp] theorem State.setStm_cores (s : State) (n : Nat) (v : Stm) : (s.setStm n v).cores = s.cores := rfl
@[simp] theorem State.setStm_courses (s : State) (n : Nat) (v : Stm) : (s.setStm n v).courses = s.courses := rfl
@[simp] theorem State.setStm_bays (s : State) (n : Nat) (v : Stm) : (s.setStm n v).bays = s.bays := rfl
@[simp] theorem State.setStm_dsp (s : State) (n : Nat) (v : Stm) : (s.setStm n v).dsp = s.dsp := rfl
@[simp] theorem State.setStm_bridge (s : State) (n : Nat) (v : Stm) : (s.setStm n v).bridge = s.bridge := rfl
@[simp] theorem State.setStm_se (s : State) (n : Nat) (v : Stm) : (s.setStm n v).se = s.se := rfl
@[simp] theorem State.setStm_mem (s : State) (n : Nat) (v : Stm) : (s.setStm n v).mem = s.mem := rfl
@[simp] theorem State.setStm_dac (s : State) (n : Nat) (v : Stm) : (s.setStm n v).dac = s.dac := rfl
@[simp] theorem State.setStm_uarts (s : State) (n : Nat) (v : Stm) : (s.setStm n v).uarts = s.uarts := rfl
@[simp] theorem State.setStm_timers (s : State) (n : Nat) (v : Stm) : (s.setStm n v).timers = s.timers := rfl
@[simp] theorem State.setStm_vault (s : State) (n : Nat) (v : Stm) : (s.setStm n v).vault = s.vault := rfl
@[simp] theorem State.setStm_health (s : State) (n : Nat) (v : Stm) : (s.setStm n v).health = s.health := rfl
@[simp] theorem State.setStm_power (s : State) (n : Nat) (v : Stm) : (s.setStm n v).power = s.power := rfl
@[simp] theorem State.setStm_out (s : State) (n : Nat) (v : Stm) : (s.setStm n v).out = s.out := rfl
@[simp] theorem State.setStm_freeCtr (s : State) (n : Nat) (v : Stm) : (s.setStm n v).freeCtr = s.freeCtr := rfl
@[simp] theorem State.setStm_pending (s : State) (n : Nat) (v : Stm) : (s.setStm n v).pending = s.pending := rfl
@[simp] theorem State.setStm_audio_tdm (s : State) (n : Nat) (v : Stm) : (s.setStm n v).audio.tdm = s.audio.tdm := rfl
@[simp] theorem State.setStm_audio_pdm (s : State) (n : Nat) (v : Stm) : (s.setStm n v).audio.pdm = s.audio.pdm := rfl
@[simp] theorem State.setStm_audio_pdmEdge (s : State) (n : Nat) (v : Stm) : (s.setStm n v).audio.pdmEdge = s.audio.pdmEdge := rfl
@[simp] theorem State.setStm_audio_pdmBits (s : State) (n : Nat) (v : Stm) : (s.setStm n v).audio.pdmBits = s.audio.pdmBits := rfl
@[simp] theorem State.setStm_audio_slip (s : State) (n : Nat) (v : Stm) : (s.setStm n v).audio.slip = s.audio.slip := rfl
@[simp] theorem State.setStm_audio_busSat (s : State) (n : Nat) (v : Stm) : (s.setStm n v).audio.busSat = s.audio.busSat := rfl
@[simp] theorem State.setStm_audio_streamErr (s : State) (n : Nat) (v : Stm) : (s.setStm n v).audio.streamErr = s.audio.streamErr := rfl
@[simp] theorem State.setStm_audio_holdover (s : State) (n : Nat) (v : Stm) : (s.setStm n v).audio.holdover = s.audio.holdover := rfl
@[simp] theorem State.setStm_audio_lock (s : State) (n : Nat) (v : Stm) : (s.setStm n v).audio.lock = s.audio.lock := rfl
@[simp] theorem State.setStm_audio_ref (s : State) (n : Nat) (v : Stm) : (s.setStm n v).audio.ref = s.audio.ref := rfl
@[simp] theorem State.setStm_audio_refLost (s : State) (n : Nat) (v : Stm) : (s.setStm n v).audio.refLost = s.audio.refLost := rfl
@[simp] theorem State.setStm_audio_refStream (s : State) (n : Nat) (v : Stm) : (s.setStm n v).audio.refStream = s.audio.refStream := rfl
@[simp] theorem State.setStm_audio_mclkForm (s : State) (n : Nat) (v : Stm) : (s.setStm n v).audio.mclkForm = s.audio.mclkForm := rfl
@[simp] theorem State.setStm_audio_launch (s : State) (n : Nat) (v : Stm) : (s.setStm n v).audio.launch = s.audio.launch := rfl
@[simp] theorem State.setStm_audio_acquired (s : State) (n : Nat) (v : Stm) : (s.setStm n v).audio.acquired = s.audio.acquired := rfl
@[simp] theorem State.setStm_audio_lockedBy (s : State) (n : Nat) (v : Stm) : (s.setStm n v).audio.lockedBy = s.audio.lockedBy := rfl
@[simp] theorem State.setStm_same (s : State) (n : Nat) (v : Stm) : (s.setStm n v).stm n = v := Tab.look_put_same _ n v _
@[simp] theorem State.setStm_other (s : State) (n : Nat) (v : Stm) (k : Nat) (h : k ≠ n) : (s.setStm n v).stm k = s.stm k := Tab.look_put_other _ n k v _ h
@[simp] theorem State.setStm_chan_at (s : State) (n : Nat) (v : Stm) (k : Nat) : (s.setStm n v).chan k = s.chan k := rfl
@[simp] theorem State.setStm_bay_at (s : State) (n : Nat) (v : Stm) (k : Nat) : (s.setStm n v).bay k = s.bay k := rfl
@[simp] theorem State.setStm_course_at (s : State) (n : Nat) (v : Stm) (k : Nat) : (s.setStm n v).course k = s.course k := rfl
@[simp] theorem State.setStm_core_at (s : State) (n : Nat) (v : Stm) (k : Nat) : (s.setStm n v).core k = s.core k := rfl
@[simp] theorem State.setStm_voice_at (s : State) (n : Nat) (v : Stm) (k : Nat) : (s.setStm n v).voice k = s.voice k := rfl
@[simp] theorem State.setStm_partCtr_at (s : State) (n : Nat) (v : Stm) (k : Nat) : (s.setStm n v).partCtr k = s.partCtr k := rfl
@[simp] theorem State.setStm_session_at (s : State) (n : Nat) (v : Stm) (k : Nat) : (s.setStm n v).session k = s.session k := rfl
@[simp] theorem State.setStm_bank_at (s : State) (n : Nat) (v : Stm) (k : Nat) : (s.setStm n v).bank k = s.bank k := rfl
@[simp] theorem State.setStm_dacCh_at (s : State) (n : Nat) (v : Stm) (k : Nat) : (s.setStm n v).dacCh k = s.dacCh k := rfl
@[simp] theorem State.setStm_uart_at (s : State) (n : Nat) (v : Stm) (k : Nat) : (s.setStm n v).uart k = s.uart k := rfl
@[simp] theorem State.setStm_timer_at (s : State) (n : Nat) (v : Stm) (k : Nat) : (s.setStm n v).timer k = s.timer k := rfl
@[simp] theorem State.setStm_dom_at (s : State) (n : Nat) (v : Stm) (k : Nat) : (s.setStm n v).dom k = s.dom k := rfl
@[simp] theorem State.setStm_coef_at (s : State) (n : Nat) (v : Stm) (k : Nat) : (s.setStm n v).coef k = s.coef k := rfl
@[simp] theorem State.setStm_group_at (s : State) (n : Nat) (v : Stm) (k : Nat) : (s.setStm n v).group k = s.group k := rfl
@[simp] theorem State.setStm_svc_at (s : State) (n : Nat) (v : Stm) (k : Nat) : (s.setStm n v).svc k = s.svc k := rfl

-- setCoef
@[simp] theorem State.setCoef_time (s : State) (n : Nat) (v : CoefBank) : (s.setCoef n v).time = s.time := rfl
@[simp] theorem State.setCoef_mbx (s : State) (n : Nat) (v : CoefBank) : (s.setCoef n v).mbx = s.mbx := rfl
@[simp] theorem State.setCoef_voices (s : State) (n : Nat) (v : CoefBank) : (s.setCoef n v).voices = s.voices := rfl
@[simp] theorem State.setCoef_freed (s : State) (n : Nat) (v : CoefBank) : (s.setCoef n v).freed = s.freed := rfl
@[simp] theorem State.setCoef_nextFresh (s : State) (n : Nat) (v : CoefBank) : (s.setCoef n v).nextFresh = s.nextFresh := rfl
@[simp] theorem State.setCoef_startCtr (s : State) (n : Nat) (v : CoefBank) : (s.setCoef n v).startCtr = s.startCtr := rfl
@[simp] theorem State.setCoef_parts (s : State) (n : Nat) (v : CoefBank) : (s.setCoef n v).parts = s.parts := rfl
@[simp] theorem State.setCoef_cores (s : State) (n : Nat) (v : CoefBank) : (s.setCoef n v).cores = s.cores := rfl
@[simp] theorem State.setCoef_courses (s : State) (n : Nat) (v : CoefBank) : (s.setCoef n v).courses = s.courses := rfl
@[simp] theorem State.setCoef_bays (s : State) (n : Nat) (v : CoefBank) : (s.setCoef n v).bays = s.bays := rfl
@[simp] theorem State.setCoef_dsp (s : State) (n : Nat) (v : CoefBank) : (s.setCoef n v).dsp = s.dsp := rfl
@[simp] theorem State.setCoef_bridge (s : State) (n : Nat) (v : CoefBank) : (s.setCoef n v).bridge = s.bridge := rfl
@[simp] theorem State.setCoef_se (s : State) (n : Nat) (v : CoefBank) : (s.setCoef n v).se = s.se := rfl
@[simp] theorem State.setCoef_mem (s : State) (n : Nat) (v : CoefBank) : (s.setCoef n v).mem = s.mem := rfl
@[simp] theorem State.setCoef_audio (s : State) (n : Nat) (v : CoefBank) : (s.setCoef n v).audio = s.audio := rfl
@[simp] theorem State.setCoef_dac (s : State) (n : Nat) (v : CoefBank) : (s.setCoef n v).dac = s.dac := rfl
@[simp] theorem State.setCoef_uarts (s : State) (n : Nat) (v : CoefBank) : (s.setCoef n v).uarts = s.uarts := rfl
@[simp] theorem State.setCoef_timers (s : State) (n : Nat) (v : CoefBank) : (s.setCoef n v).timers = s.timers := rfl
@[simp] theorem State.setCoef_vault (s : State) (n : Nat) (v : CoefBank) : (s.setCoef n v).vault = s.vault := rfl
@[simp] theorem State.setCoef_health (s : State) (n : Nat) (v : CoefBank) : (s.setCoef n v).health = s.health := rfl
@[simp] theorem State.setCoef_power (s : State) (n : Nat) (v : CoefBank) : (s.setCoef n v).power = s.power := rfl
@[simp] theorem State.setCoef_out (s : State) (n : Nat) (v : CoefBank) : (s.setCoef n v).out = s.out := rfl
@[simp] theorem State.setCoef_freeCtr (s : State) (n : Nat) (v : CoefBank) : (s.setCoef n v).freeCtr = s.freeCtr := rfl
@[simp] theorem State.setCoef_pending (s : State) (n : Nat) (v : CoefBank) : (s.setCoef n v).pending = s.pending := rfl
@[simp] theorem State.setCoef_params_endpoints (s : State) (n : Nat) (v : CoefBank) : (s.setCoef n v).params.endpoints = s.params.endpoints := rfl
@[simp] theorem State.setCoef_params_envs (s : State) (n : Nat) (v : CoefBank) : (s.setCoef n v).params.envs = s.params.envs := rfl
@[simp] theorem State.setCoef_params_anchors (s : State) (n : Nat) (v : CoefBank) : (s.setCoef n v).params.anchors = s.params.anchors := rfl
@[simp] theorem State.setCoef_params_noteStacks (s : State) (n : Nat) (v : CoefBank) : (s.setCoef n v).params.noteStacks = s.params.noteStacks := rfl
@[simp] theorem State.setCoef_params_groups (s : State) (n : Nat) (v : CoefBank) : (s.setCoef n v).params.groups = s.params.groups := rfl
@[simp] theorem State.setCoef_params_ramps (s : State) (n : Nat) (v : CoefBank) : (s.setCoef n v).params.ramps = s.params.ramps := rfl
@[simp] theorem State.setCoef_params_recent (s : State) (n : Nat) (v : CoefBank) : (s.setCoef n v).params.recent = s.params.recent := rfl
@[simp] theorem State.setCoef_params_pnMiss (s : State) (n : Nat) (v : CoefBank) : (s.setCoef n v).params.pnMiss = s.params.pnMiss := rfl
@[simp] theorem State.setCoef_same (s : State) (n : Nat) (v : CoefBank) : (s.setCoef n v).coef n = v := Tab.look_put_same _ n v _
@[simp] theorem State.setCoef_other (s : State) (n : Nat) (v : CoefBank) (k : Nat) (h : k ≠ n) : (s.setCoef n v).coef k = s.coef k := Tab.look_put_other _ n k v _ h
@[simp] theorem State.setCoef_chan_at (s : State) (n : Nat) (v : CoefBank) (k : Nat) : (s.setCoef n v).chan k = s.chan k := rfl
@[simp] theorem State.setCoef_bay_at (s : State) (n : Nat) (v : CoefBank) (k : Nat) : (s.setCoef n v).bay k = s.bay k := rfl
@[simp] theorem State.setCoef_course_at (s : State) (n : Nat) (v : CoefBank) (k : Nat) : (s.setCoef n v).course k = s.course k := rfl
@[simp] theorem State.setCoef_core_at (s : State) (n : Nat) (v : CoefBank) (k : Nat) : (s.setCoef n v).core k = s.core k := rfl
@[simp] theorem State.setCoef_voice_at (s : State) (n : Nat) (v : CoefBank) (k : Nat) : (s.setCoef n v).voice k = s.voice k := rfl
@[simp] theorem State.setCoef_partCtr_at (s : State) (n : Nat) (v : CoefBank) (k : Nat) : (s.setCoef n v).partCtr k = s.partCtr k := rfl
@[simp] theorem State.setCoef_session_at (s : State) (n : Nat) (v : CoefBank) (k : Nat) : (s.setCoef n v).session k = s.session k := rfl
@[simp] theorem State.setCoef_bank_at (s : State) (n : Nat) (v : CoefBank) (k : Nat) : (s.setCoef n v).bank k = s.bank k := rfl
@[simp] theorem State.setCoef_dacCh_at (s : State) (n : Nat) (v : CoefBank) (k : Nat) : (s.setCoef n v).dacCh k = s.dacCh k := rfl
@[simp] theorem State.setCoef_uart_at (s : State) (n : Nat) (v : CoefBank) (k : Nat) : (s.setCoef n v).uart k = s.uart k := rfl
@[simp] theorem State.setCoef_timer_at (s : State) (n : Nat) (v : CoefBank) (k : Nat) : (s.setCoef n v).timer k = s.timer k := rfl
@[simp] theorem State.setCoef_dom_at (s : State) (n : Nat) (v : CoefBank) (k : Nat) : (s.setCoef n v).dom k = s.dom k := rfl
@[simp] theorem State.setCoef_stm_at (s : State) (n : Nat) (v : CoefBank) (k : Nat) : (s.setCoef n v).stm k = s.stm k := rfl
@[simp] theorem State.setCoef_group_at (s : State) (n : Nat) (v : CoefBank) (k : Nat) : (s.setCoef n v).group k = s.group k := rfl
@[simp] theorem State.setCoef_svc_at (s : State) (n : Nat) (v : CoefBank) (k : Nat) : (s.setCoef n v).svc k = s.svc k := rfl

-- setGroup
@[simp] theorem State.setGroup_time (s : State) (n : Nat) (v : Group) : (s.setGroup n v).time = s.time := rfl
@[simp] theorem State.setGroup_mbx (s : State) (n : Nat) (v : Group) : (s.setGroup n v).mbx = s.mbx := rfl
@[simp] theorem State.setGroup_voices (s : State) (n : Nat) (v : Group) : (s.setGroup n v).voices = s.voices := rfl
@[simp] theorem State.setGroup_freed (s : State) (n : Nat) (v : Group) : (s.setGroup n v).freed = s.freed := rfl
@[simp] theorem State.setGroup_nextFresh (s : State) (n : Nat) (v : Group) : (s.setGroup n v).nextFresh = s.nextFresh := rfl
@[simp] theorem State.setGroup_startCtr (s : State) (n : Nat) (v : Group) : (s.setGroup n v).startCtr = s.startCtr := rfl
@[simp] theorem State.setGroup_parts (s : State) (n : Nat) (v : Group) : (s.setGroup n v).parts = s.parts := rfl
@[simp] theorem State.setGroup_cores (s : State) (n : Nat) (v : Group) : (s.setGroup n v).cores = s.cores := rfl
@[simp] theorem State.setGroup_courses (s : State) (n : Nat) (v : Group) : (s.setGroup n v).courses = s.courses := rfl
@[simp] theorem State.setGroup_bays (s : State) (n : Nat) (v : Group) : (s.setGroup n v).bays = s.bays := rfl
@[simp] theorem State.setGroup_dsp (s : State) (n : Nat) (v : Group) : (s.setGroup n v).dsp = s.dsp := rfl
@[simp] theorem State.setGroup_bridge (s : State) (n : Nat) (v : Group) : (s.setGroup n v).bridge = s.bridge := rfl
@[simp] theorem State.setGroup_se (s : State) (n : Nat) (v : Group) : (s.setGroup n v).se = s.se := rfl
@[simp] theorem State.setGroup_mem (s : State) (n : Nat) (v : Group) : (s.setGroup n v).mem = s.mem := rfl
@[simp] theorem State.setGroup_audio (s : State) (n : Nat) (v : Group) : (s.setGroup n v).audio = s.audio := rfl
@[simp] theorem State.setGroup_dac (s : State) (n : Nat) (v : Group) : (s.setGroup n v).dac = s.dac := rfl
@[simp] theorem State.setGroup_uarts (s : State) (n : Nat) (v : Group) : (s.setGroup n v).uarts = s.uarts := rfl
@[simp] theorem State.setGroup_timers (s : State) (n : Nat) (v : Group) : (s.setGroup n v).timers = s.timers := rfl
@[simp] theorem State.setGroup_vault (s : State) (n : Nat) (v : Group) : (s.setGroup n v).vault = s.vault := rfl
@[simp] theorem State.setGroup_health (s : State) (n : Nat) (v : Group) : (s.setGroup n v).health = s.health := rfl
@[simp] theorem State.setGroup_power (s : State) (n : Nat) (v : Group) : (s.setGroup n v).power = s.power := rfl
@[simp] theorem State.setGroup_out (s : State) (n : Nat) (v : Group) : (s.setGroup n v).out = s.out := rfl
@[simp] theorem State.setGroup_freeCtr (s : State) (n : Nat) (v : Group) : (s.setGroup n v).freeCtr = s.freeCtr := rfl
@[simp] theorem State.setGroup_pending (s : State) (n : Nat) (v : Group) : (s.setGroup n v).pending = s.pending := rfl
@[simp] theorem State.setGroup_params_endpoints (s : State) (n : Nat) (v : Group) : (s.setGroup n v).params.endpoints = s.params.endpoints := rfl
@[simp] theorem State.setGroup_params_envs (s : State) (n : Nat) (v : Group) : (s.setGroup n v).params.envs = s.params.envs := rfl
@[simp] theorem State.setGroup_params_anchors (s : State) (n : Nat) (v : Group) : (s.setGroup n v).params.anchors = s.params.anchors := rfl
@[simp] theorem State.setGroup_params_noteStacks (s : State) (n : Nat) (v : Group) : (s.setGroup n v).params.noteStacks = s.params.noteStacks := rfl
@[simp] theorem State.setGroup_params_ramps (s : State) (n : Nat) (v : Group) : (s.setGroup n v).params.ramps = s.params.ramps := rfl
@[simp] theorem State.setGroup_params_recent (s : State) (n : Nat) (v : Group) : (s.setGroup n v).params.recent = s.params.recent := rfl
@[simp] theorem State.setGroup_params_banks (s : State) (n : Nat) (v : Group) : (s.setGroup n v).params.banks = s.params.banks := rfl
@[simp] theorem State.setGroup_params_pnMiss (s : State) (n : Nat) (v : Group) : (s.setGroup n v).params.pnMiss = s.params.pnMiss := rfl
@[simp] theorem State.setGroup_same (s : State) (n : Nat) (v : Group) : (s.setGroup n v).group n = v := Tab.look_put_same _ n v _
@[simp] theorem State.setGroup_other (s : State) (n : Nat) (v : Group) (k : Nat) (h : k ≠ n) : (s.setGroup n v).group k = s.group k := Tab.look_put_other _ n k v _ h
@[simp] theorem State.setGroup_chan_at (s : State) (n : Nat) (v : Group) (k : Nat) : (s.setGroup n v).chan k = s.chan k := rfl
@[simp] theorem State.setGroup_bay_at (s : State) (n : Nat) (v : Group) (k : Nat) : (s.setGroup n v).bay k = s.bay k := rfl
@[simp] theorem State.setGroup_course_at (s : State) (n : Nat) (v : Group) (k : Nat) : (s.setGroup n v).course k = s.course k := rfl
@[simp] theorem State.setGroup_core_at (s : State) (n : Nat) (v : Group) (k : Nat) : (s.setGroup n v).core k = s.core k := rfl
@[simp] theorem State.setGroup_voice_at (s : State) (n : Nat) (v : Group) (k : Nat) : (s.setGroup n v).voice k = s.voice k := rfl
@[simp] theorem State.setGroup_partCtr_at (s : State) (n : Nat) (v : Group) (k : Nat) : (s.setGroup n v).partCtr k = s.partCtr k := rfl
@[simp] theorem State.setGroup_session_at (s : State) (n : Nat) (v : Group) (k : Nat) : (s.setGroup n v).session k = s.session k := rfl
@[simp] theorem State.setGroup_bank_at (s : State) (n : Nat) (v : Group) (k : Nat) : (s.setGroup n v).bank k = s.bank k := rfl
@[simp] theorem State.setGroup_dacCh_at (s : State) (n : Nat) (v : Group) (k : Nat) : (s.setGroup n v).dacCh k = s.dacCh k := rfl
@[simp] theorem State.setGroup_uart_at (s : State) (n : Nat) (v : Group) (k : Nat) : (s.setGroup n v).uart k = s.uart k := rfl
@[simp] theorem State.setGroup_timer_at (s : State) (n : Nat) (v : Group) (k : Nat) : (s.setGroup n v).timer k = s.timer k := rfl
@[simp] theorem State.setGroup_dom_at (s : State) (n : Nat) (v : Group) (k : Nat) : (s.setGroup n v).dom k = s.dom k := rfl
@[simp] theorem State.setGroup_stm_at (s : State) (n : Nat) (v : Group) (k : Nat) : (s.setGroup n v).stm k = s.stm k := rfl
@[simp] theorem State.setGroup_coef_at (s : State) (n : Nat) (v : Group) (k : Nat) : (s.setGroup n v).coef k = s.coef k := rfl
@[simp] theorem State.setGroup_svc_at (s : State) (n : Nat) (v : Group) (k : Nat) : (s.setGroup n v).svc k = s.svc k := rfl

-- setSvc
@[simp] theorem State.setSvc_time (s : State) (n : Nat) (v : ServiceCore) : (s.setSvc n v).time = s.time := rfl
@[simp] theorem State.setSvc_mbx (s : State) (n : Nat) (v : ServiceCore) : (s.setSvc n v).mbx = s.mbx := rfl
@[simp] theorem State.setSvc_params (s : State) (n : Nat) (v : ServiceCore) : (s.setSvc n v).params = s.params := rfl
@[simp] theorem State.setSvc_voices (s : State) (n : Nat) (v : ServiceCore) : (s.setSvc n v).voices = s.voices := rfl
@[simp] theorem State.setSvc_freed (s : State) (n : Nat) (v : ServiceCore) : (s.setSvc n v).freed = s.freed := rfl
@[simp] theorem State.setSvc_nextFresh (s : State) (n : Nat) (v : ServiceCore) : (s.setSvc n v).nextFresh = s.nextFresh := rfl
@[simp] theorem State.setSvc_startCtr (s : State) (n : Nat) (v : ServiceCore) : (s.setSvc n v).startCtr = s.startCtr := rfl
@[simp] theorem State.setSvc_parts (s : State) (n : Nat) (v : ServiceCore) : (s.setSvc n v).parts = s.parts := rfl
@[simp] theorem State.setSvc_cores (s : State) (n : Nat) (v : ServiceCore) : (s.setSvc n v).cores = s.cores := rfl
@[simp] theorem State.setSvc_courses (s : State) (n : Nat) (v : ServiceCore) : (s.setSvc n v).courses = s.courses := rfl
@[simp] theorem State.setSvc_bays (s : State) (n : Nat) (v : ServiceCore) : (s.setSvc n v).bays = s.bays := rfl
@[simp] theorem State.setSvc_bridge (s : State) (n : Nat) (v : ServiceCore) : (s.setSvc n v).bridge = s.bridge := rfl
@[simp] theorem State.setSvc_se (s : State) (n : Nat) (v : ServiceCore) : (s.setSvc n v).se = s.se := rfl
@[simp] theorem State.setSvc_mem (s : State) (n : Nat) (v : ServiceCore) : (s.setSvc n v).mem = s.mem := rfl
@[simp] theorem State.setSvc_audio (s : State) (n : Nat) (v : ServiceCore) : (s.setSvc n v).audio = s.audio := rfl
@[simp] theorem State.setSvc_dac (s : State) (n : Nat) (v : ServiceCore) : (s.setSvc n v).dac = s.dac := rfl
@[simp] theorem State.setSvc_uarts (s : State) (n : Nat) (v : ServiceCore) : (s.setSvc n v).uarts = s.uarts := rfl
@[simp] theorem State.setSvc_timers (s : State) (n : Nat) (v : ServiceCore) : (s.setSvc n v).timers = s.timers := rfl
@[simp] theorem State.setSvc_vault (s : State) (n : Nat) (v : ServiceCore) : (s.setSvc n v).vault = s.vault := rfl
@[simp] theorem State.setSvc_health (s : State) (n : Nat) (v : ServiceCore) : (s.setSvc n v).health = s.health := rfl
@[simp] theorem State.setSvc_power (s : State) (n : Nat) (v : ServiceCore) : (s.setSvc n v).power = s.power := rfl
@[simp] theorem State.setSvc_out (s : State) (n : Nat) (v : ServiceCore) : (s.setSvc n v).out = s.out := rfl
@[simp] theorem State.setSvc_freeCtr (s : State) (n : Nat) (v : ServiceCore) : (s.setSvc n v).freeCtr = s.freeCtr := rfl
@[simp] theorem State.setSvc_pending (s : State) (n : Nat) (v : ServiceCore) : (s.setSvc n v).pending = s.pending := rfl
@[simp] theorem State.setSvc_dsp_queues (s : State) (n : Nat) (v : ServiceCore) : (s.setSvc n v).dsp.queues = s.dsp.queues := rfl
@[simp] theorem State.setSvc_dsp_stalls (s : State) (n : Nat) (v : ServiceCore) : (s.setSvc n v).dsp.stalls = s.dsp.stalls := rfl
@[simp] theorem State.setSvc_dsp_repost (s : State) (n : Nat) (v : ServiceCore) : (s.setSvc n v).dsp.repost = s.dsp.repost := rfl
@[simp] theorem State.setSvc_dsp_backpressure (s : State) (n : Nat) (v : ServiceCore) : (s.setSvc n v).dsp.backpressure = s.dsp.backpressure := rfl
@[simp] theorem State.setSvc_dsp_traceEn (s : State) (n : Nat) (v : ServiceCore) : (s.setSvc n v).dsp.traceEn = s.dsp.traceEn := rfl
@[simp] theorem State.setSvc_dsp_refused (s : State) (n : Nat) (v : ServiceCore) : (s.setSvc n v).dsp.refused = s.dsp.refused := rfl
@[simp] theorem State.setSvc_dsp_stalled (s : State) (n : Nat) (v : ServiceCore) : (s.setSvc n v).dsp.stalled = s.dsp.stalled := rfl
@[simp] theorem State.setSvc_dsp_skipped (s : State) (n : Nat) (v : ServiceCore) : (s.setSvc n v).dsp.skipped = s.dsp.skipped := rfl
@[simp] theorem State.setSvc_dsp_preemptHeld (s : State) (n : Nat) (v : ServiceCore) : (s.setSvc n v).dsp.preemptHeld = s.dsp.preemptHeld := rfl
@[simp] theorem State.setSvc_dsp_trWi (s : State) (n : Nat) (v : ServiceCore) : (s.setSvc n v).dsp.trWi = s.dsp.trWi := rfl
@[simp] theorem State.setSvc_dsp_trRi (s : State) (n : Nat) (v : ServiceCore) : (s.setSvc n v).dsp.trRi = s.dsp.trRi := rfl
@[simp] theorem State.setSvc_dsp_trBase (s : State) (n : Nat) (v : ServiceCore) : (s.setSvc n v).dsp.trBase = s.dsp.trBase := rfl
@[simp] theorem State.setSvc_dsp_trK (s : State) (n : Nat) (v : ServiceCore) : (s.setSvc n v).dsp.trK = s.dsp.trK := rfl
@[simp] theorem State.setSvc_dsp_trMask (s : State) (n : Nat) (v : ServiceCore) : (s.setSvc n v).dsp.trMask = s.dsp.trMask := rfl
@[simp] theorem State.setSvc_dsp_trLost (s : State) (n : Nat) (v : ServiceCore) : (s.setSvc n v).dsp.trLost = s.dsp.trLost := rfl
@[simp] theorem State.setSvc_dsp_trGap (s : State) (n : Nat) (v : ServiceCore) : (s.setSvc n v).dsp.trGap = s.dsp.trGap := rfl
@[simp] theorem State.setSvc_same (s : State) (n : Nat) (v : ServiceCore) : (s.setSvc n v).svc n = v := Tab.look_put_same _ n v _
@[simp] theorem State.setSvc_other (s : State) (n : Nat) (v : ServiceCore) (k : Nat) (h : k ≠ n) : (s.setSvc n v).svc k = s.svc k := Tab.look_put_other _ n k v _ h
@[simp] theorem State.setSvc_chan_at (s : State) (n : Nat) (v : ServiceCore) (k : Nat) : (s.setSvc n v).chan k = s.chan k := rfl
@[simp] theorem State.setSvc_bay_at (s : State) (n : Nat) (v : ServiceCore) (k : Nat) : (s.setSvc n v).bay k = s.bay k := rfl
@[simp] theorem State.setSvc_course_at (s : State) (n : Nat) (v : ServiceCore) (k : Nat) : (s.setSvc n v).course k = s.course k := rfl
@[simp] theorem State.setSvc_core_at (s : State) (n : Nat) (v : ServiceCore) (k : Nat) : (s.setSvc n v).core k = s.core k := rfl
@[simp] theorem State.setSvc_voice_at (s : State) (n : Nat) (v : ServiceCore) (k : Nat) : (s.setSvc n v).voice k = s.voice k := rfl
@[simp] theorem State.setSvc_partCtr_at (s : State) (n : Nat) (v : ServiceCore) (k : Nat) : (s.setSvc n v).partCtr k = s.partCtr k := rfl
@[simp] theorem State.setSvc_session_at (s : State) (n : Nat) (v : ServiceCore) (k : Nat) : (s.setSvc n v).session k = s.session k := rfl
@[simp] theorem State.setSvc_bank_at (s : State) (n : Nat) (v : ServiceCore) (k : Nat) : (s.setSvc n v).bank k = s.bank k := rfl
@[simp] theorem State.setSvc_dacCh_at (s : State) (n : Nat) (v : ServiceCore) (k : Nat) : (s.setSvc n v).dacCh k = s.dacCh k := rfl
@[simp] theorem State.setSvc_uart_at (s : State) (n : Nat) (v : ServiceCore) (k : Nat) : (s.setSvc n v).uart k = s.uart k := rfl
@[simp] theorem State.setSvc_timer_at (s : State) (n : Nat) (v : ServiceCore) (k : Nat) : (s.setSvc n v).timer k = s.timer k := rfl
@[simp] theorem State.setSvc_dom_at (s : State) (n : Nat) (v : ServiceCore) (k : Nat) : (s.setSvc n v).dom k = s.dom k := rfl
@[simp] theorem State.setSvc_stm_at (s : State) (n : Nat) (v : ServiceCore) (k : Nat) : (s.setSvc n v).stm k = s.stm k := rfl
@[simp] theorem State.setSvc_coef_at (s : State) (n : Nat) (v : ServiceCore) (k : Nat) : (s.setSvc n v).coef k = s.coef k := rfl
@[simp] theorem State.setSvc_group_at (s : State) (n : Nat) (v : ServiceCore) (k : Nat) : (s.setSvc n v).group k = s.group k := rfl

-- messages and free values
@[simp] theorem State.send_time (s : State) (k : MsgKind) (d : List Nat) : (s.send k d).time = s.time := rfl
@[simp] theorem State.fresh_time (s : State) : s.fresh.time = s.time := rfl
@[simp] theorem State.send_mbx (s : State) (k : MsgKind) (d : List Nat) : (s.send k d).mbx = s.mbx := rfl
@[simp] theorem State.fresh_mbx (s : State) : s.fresh.mbx = s.mbx := rfl
@[simp] theorem State.send_params (s : State) (k : MsgKind) (d : List Nat) : (s.send k d).params = s.params := rfl
@[simp] theorem State.fresh_params (s : State) : s.fresh.params = s.params := rfl
@[simp] theorem State.send_voices (s : State) (k : MsgKind) (d : List Nat) : (s.send k d).voices = s.voices := rfl
@[simp] theorem State.fresh_voices (s : State) : s.fresh.voices = s.voices := rfl
@[simp] theorem State.send_freed (s : State) (k : MsgKind) (d : List Nat) : (s.send k d).freed = s.freed := rfl
@[simp] theorem State.fresh_freed (s : State) : s.fresh.freed = s.freed := rfl
@[simp] theorem State.send_nextFresh (s : State) (k : MsgKind) (d : List Nat) : (s.send k d).nextFresh = s.nextFresh := rfl
@[simp] theorem State.fresh_nextFresh (s : State) : s.fresh.nextFresh = s.nextFresh := rfl
@[simp] theorem State.send_startCtr (s : State) (k : MsgKind) (d : List Nat) : (s.send k d).startCtr = s.startCtr := rfl
@[simp] theorem State.fresh_startCtr (s : State) : s.fresh.startCtr = s.startCtr := rfl
@[simp] theorem State.send_parts (s : State) (k : MsgKind) (d : List Nat) : (s.send k d).parts = s.parts := rfl
@[simp] theorem State.fresh_parts (s : State) : s.fresh.parts = s.parts := rfl
@[simp] theorem State.send_cores (s : State) (k : MsgKind) (d : List Nat) : (s.send k d).cores = s.cores := rfl
@[simp] theorem State.fresh_cores (s : State) : s.fresh.cores = s.cores := rfl
@[simp] theorem State.send_courses (s : State) (k : MsgKind) (d : List Nat) : (s.send k d).courses = s.courses := rfl
@[simp] theorem State.fresh_courses (s : State) : s.fresh.courses = s.courses := rfl
@[simp] theorem State.send_bays (s : State) (k : MsgKind) (d : List Nat) : (s.send k d).bays = s.bays := rfl
@[simp] theorem State.fresh_bays (s : State) : s.fresh.bays = s.bays := rfl
@[simp] theorem State.send_dsp (s : State) (k : MsgKind) (d : List Nat) : (s.send k d).dsp = s.dsp := rfl
@[simp] theorem State.fresh_dsp (s : State) : s.fresh.dsp = s.dsp := rfl
@[simp] theorem State.send_bridge (s : State) (k : MsgKind) (d : List Nat) : (s.send k d).bridge = s.bridge := rfl
@[simp] theorem State.fresh_bridge (s : State) : s.fresh.bridge = s.bridge := rfl
@[simp] theorem State.send_se (s : State) (k : MsgKind) (d : List Nat) : (s.send k d).se = s.se := rfl
@[simp] theorem State.fresh_se (s : State) : s.fresh.se = s.se := rfl
@[simp] theorem State.send_mem (s : State) (k : MsgKind) (d : List Nat) : (s.send k d).mem = s.mem := rfl
@[simp] theorem State.fresh_mem (s : State) : s.fresh.mem = s.mem := rfl
@[simp] theorem State.send_audio (s : State) (k : MsgKind) (d : List Nat) : (s.send k d).audio = s.audio := rfl
@[simp] theorem State.fresh_audio (s : State) : s.fresh.audio = s.audio := rfl
@[simp] theorem State.send_dac (s : State) (k : MsgKind) (d : List Nat) : (s.send k d).dac = s.dac := rfl
@[simp] theorem State.fresh_dac (s : State) : s.fresh.dac = s.dac := rfl
@[simp] theorem State.send_uarts (s : State) (k : MsgKind) (d : List Nat) : (s.send k d).uarts = s.uarts := rfl
@[simp] theorem State.fresh_uarts (s : State) : s.fresh.uarts = s.uarts := rfl
@[simp] theorem State.send_timers (s : State) (k : MsgKind) (d : List Nat) : (s.send k d).timers = s.timers := rfl
@[simp] theorem State.fresh_timers (s : State) : s.fresh.timers = s.timers := rfl
@[simp] theorem State.send_vault (s : State) (k : MsgKind) (d : List Nat) : (s.send k d).vault = s.vault := rfl
@[simp] theorem State.fresh_vault (s : State) : s.fresh.vault = s.vault := rfl
@[simp] theorem State.send_health (s : State) (k : MsgKind) (d : List Nat) : (s.send k d).health = s.health := rfl
@[simp] theorem State.fresh_health (s : State) : s.fresh.health = s.health := rfl
@[simp] theorem State.send_power (s : State) (k : MsgKind) (d : List Nat) : (s.send k d).power = s.power := rfl
@[simp] theorem State.fresh_power (s : State) : s.fresh.power = s.power := rfl
@[simp] theorem State.fresh_out (s : State) : s.fresh.out = s.out := rfl
@[simp] theorem State.send_freeCtr (s : State) (k : MsgKind) (d : List Nat) : (s.send k d).freeCtr = s.freeCtr := rfl
@[simp] theorem State.send_pending (s : State) (k : MsgKind) (d : List Nat) : (s.send k d).pending = s.pending := rfl
@[simp] theorem State.fresh_pending (s : State) : s.fresh.pending = s.pending := rfl
@[simp] theorem State.send_out (s : State) (k : MsgKind) (d : List Nat) : (s.send k d).out = ⟨k, d⟩ :: s.out := rfl
@[simp] theorem State.fresh_freeCtr (s : State) : s.fresh.freeCtr = s.freeCtr + 1 := rfl
@[simp] theorem State.send_chan_at (s : State) (k : MsgKind) (d : List Nat) (n : Nat) : (s.send k d).chan n = s.chan n := rfl
@[simp] theorem State.send_bay_at (s : State) (k : MsgKind) (d : List Nat) (n : Nat) : (s.send k d).bay n = s.bay n := rfl
@[simp] theorem State.send_course_at (s : State) (k : MsgKind) (d : List Nat) (n : Nat) : (s.send k d).course n = s.course n := rfl
@[simp] theorem State.send_core_at (s : State) (k : MsgKind) (d : List Nat) (n : Nat) : (s.send k d).core n = s.core n := rfl
@[simp] theorem State.send_voice_at (s : State) (k : MsgKind) (d : List Nat) (n : Nat) : (s.send k d).voice n = s.voice n := rfl
@[simp] theorem State.send_partCtr_at (s : State) (k : MsgKind) (d : List Nat) (n : Nat) : (s.send k d).partCtr n = s.partCtr n := rfl
@[simp] theorem State.send_session_at (s : State) (k : MsgKind) (d : List Nat) (n : Nat) : (s.send k d).session n = s.session n := rfl
@[simp] theorem State.send_bank_at (s : State) (k : MsgKind) (d : List Nat) (n : Nat) : (s.send k d).bank n = s.bank n := rfl
@[simp] theorem State.send_dacCh_at (s : State) (k : MsgKind) (d : List Nat) (n : Nat) : (s.send k d).dacCh n = s.dacCh n := rfl
@[simp] theorem State.send_uart_at (s : State) (k : MsgKind) (d : List Nat) (n : Nat) : (s.send k d).uart n = s.uart n := rfl
@[simp] theorem State.send_timer_at (s : State) (k : MsgKind) (d : List Nat) (n : Nat) : (s.send k d).timer n = s.timer n := rfl
@[simp] theorem State.send_dom_at (s : State) (k : MsgKind) (d : List Nat) (n : Nat) : (s.send k d).dom n = s.dom n := rfl
@[simp] theorem State.send_stm_at (s : State) (k : MsgKind) (d : List Nat) (n : Nat) : (s.send k d).stm n = s.stm n := rfl
@[simp] theorem State.send_coef_at (s : State) (k : MsgKind) (d : List Nat) (n : Nat) : (s.send k d).coef n = s.coef n := rfl
@[simp] theorem State.send_group_at (s : State) (k : MsgKind) (d : List Nat) (n : Nat) : (s.send k d).group n = s.group n := rfl
@[simp] theorem State.send_svc_at (s : State) (k : MsgKind) (d : List Nat) (n : Nat) : (s.send k d).svc n = s.svc n := rfl

end Sys2Proof.Machine
end

