-- ==== Sys2Proof/Laws/Core.lean ====
section
/-! SUPPORT. What the operations around a voice core instruction do to its registers, said once: the register set in use, the ports, the
hazards and the advance of the PC. -/

namespace Sys2Proof.Machine

-- the register set in use --------------------------------------------------------------------------------------------------------

@[simp] theorem VCore.cur_setCur (c : VCore) (r : RegSet) : (c.setCur r).cur = r := by
  unfold VCore.cur VCore.setCur
  cases h : c.inShadow <;> simp

@[simp] theorem VCore.inShadow_setCur (c : VCore) (r : RegSet) : (c.setCur r).inShadow = c.inShadow := by
  unfold VCore.setCur
  cases h : c.inShadow <;> simp

@[simp] theorem VCore.setCur_setCur (c : VCore) (r q : RegSet) : (c.setCur r).setCur q = c.setCur q := by
  unfold VCore.setCur
  cases h : c.inShadow <;> simp

@[simp] theorem VCore.setCur_cur (c : VCore) : c.setCur c.cur = c := by
  unfold VCore.setCur VCore.cur
  by_cases h : c.inShadow = true
  · rw [if_pos h, if_pos h]
  · rw [if_neg h, if_neg h]

@[simp] theorem VCore.cur_onCur (c : VCore) (f : RegSet → RegSet) : (c.onCur f).cur = f c.cur := by simp [VCore.onCur]

@[simp] theorem VCore.inShadow_onCur (c : VCore) (f : RegSet → RegSet) : (c.onCur f).inShadow = c.inShadow := by simp [VCore.onCur]

-- bits ------------------------------------------------------------------------------------------------------------------------------

/-- A bit after `setBit`. -/
theorem getLsbD_setBit {w : Nat} (x : BitVec w) (n : Nat) (b : Bool) (i : Nat) (hn : n < w) :
    (setBit x n b).getLsbD i = if i = n then b else x.getLsbD i := by
  unfold setBit
  by_cases hi : i = n
  · subst hi
    cases b <;> simp [hn]
  · have hd : (BitVec.ofNat w 1 <<< n).getLsbD i = false := by
      simp only [BitVec.getLsbD_shiftLeft, BitVec.getLsbD_ofNat]
      by_cases h1 : i < n
      · simp [h1]
      · have : Nat.testBit 1 (i - n) = false := by
          rw [Nat.testBit_eq_decide_div_mod_eq]
          have : 1 / 2 ^ (i - n) = 0 := Nat.div_eq_of_lt (Nat.one_lt_two_pow (by omega))
          simp [this]
        simp [this]
    cases b <;> simp only [hi, if_false, Bool.false_eq_true, if_true, BitVec.getLsbD_or, BitVec.getLsbD_and, BitVec.getLsbD_not, hd]
    · by_cases hw : i < w
      · simp [hw]
      · simp [BitVec.getLsbD_of_ge x i (by omega)]
    · simp

/-- A sticky bit leaves the other bits of CSR. -/
theorem sticky_csr (r : RegSet) (n : Nat) (b : Bool) (i : Nat) (hn : n < 24) (hi : i ≠ n) : (r.sticky n b).csr.getLsbD i = r.csr.getLsbD i := by
  unfold RegSet.sticky
  cases b
  · rfl
  · simp [getLsbD_setBit _ _ _ _ hn, hi]

-- what ports leave ---------------------------------------------------------------------------------------------------------------

/-- The registers that an operation reads stand as they were: only pointers, SATD, XERR and hazard bookkeeping may differ. -/
structure SameOps (r q : RegSet) : Prop where
  u : q.u = r.u
  v : q.v = r.v
  w : q.w = r.w
  ix : q.ix = r.ix
  ecnt : q.ecnt = r.ecnt
  csr : ∀ i, i ≠ csrSATD → i ≠ csrXERR → q.csr.getLsbD i = r.csr.getLsbD i

theorem SameOps.refl (r : RegSet) : SameOps r r := ⟨rfl, rfl, rfl, rfl, rfl, fun _ _ _ => rfl⟩

theorem SameOps.trans {a b c : RegSet} (h : SameOps a b) (g : SameOps b c) : SameOps a c :=
  ⟨g.u.trans h.u, g.v.trans h.v, g.w.trans h.w, g.ix.trans h.ix, g.ecnt.trans h.ecnt, fun i h1 h2 => (g.csr i h1 h2).trans (h.csr i h1 h2)⟩

theorem SameOps.sticky_satd (r : RegSet) (b : Bool) : SameOps r (r.sticky csrSATD b) := by
  refine ⟨?_, ?_, ?_, ?_, ?_, fun i h1 _ => sticky_csr r csrSATD b i (by decide) h1⟩ <;> (cases b <;> rfl)

theorem SameOps.sticky_xerr (r : RegSet) : SameOps r r.xerr := by
  refine ⟨rfl, rfl, rfl, rfl, rfl, fun i _ h2 => sticky_csr r csrXERR true i (by decide) h2⟩

theorem SameOps.setP (r : RegSet) (n : Nat) (x : BitVec 16) : SameOps r (r.setP n x) := ⟨rfl, rfl, rfl, rfl, rfl, fun _ _ _ => rfl⟩

theorem SameOps.stOld (r : RegSet) (x : List (Bool × Nat × Word24)) : SameOps r { r with stOld := x } := ⟨rfl, rfl, rfl, rfl, rfl, fun _ _ _ => rfl⟩

theorem SameOps.hazards (r : RegSet) (a : Option PtrView) (b : Option Word24) (x : List (Bool × Nat × Word24)) (n : Option Nat) :
    SameOps r { r with agOld := a, csrOld := b, stOld := x, rpt := n } := ⟨rfl, rfl, rfl, rfl, rfl, fun _ _ _ => rfl⟩

theorem SameOps.advance (len : Nat) (r : RegSet) : SameOps r (advance len r) := by
  unfold Machine.advance
  dsimp only
  split
  · split
    · exact ⟨rfl, rfl, rfl, rfl, rfl, fun _ _ _ => rfl⟩
    · split <;> exact ⟨rfl, rfl, rfl, rfl, rfl, fun _ _ _ => rfl⟩
  · exact ⟨rfl, rfl, rfl, rfl, rfl, fun _ _ _ => rfl⟩

theorem portSource_same (v : View) (y : Bool) (p : Port) (r : RegSet) : SameOps r (portSource v y p r).2 := by
  unfold portSource
  split
  · exact SameOps.sticky_satd r _
  · exact SameOps.refl r

theorem stepPtr_same (v : View) (n : Nat) (r : RegSet) : SameOps r (stepPtr v n r) := SameOps.setP r n _

theorem bridgeStore_same (v : View) (a : Nat) (x : Word24) (c : VCore) :
    SameOps c.cur (bridgeStore v a x c).cur ∧ (bridgeStore v a x c).inShadow = c.inShadow := by
  unfold bridgeStore
  dsimp only
  split
  · split
    · exact ⟨SameOps.refl _, rfl⟩
    · exact ⟨SameOps.refl _, rfl⟩
  · simp [SameOps.sticky_xerr]

theorem localStore_same (v : View) (y : Bool) (a : Nat) (x : Word24) (c : VCore) :
    SameOps c.cur (localStore v y a x c).cur ∧ (localStore v y a x c).inShadow = c.inShadow := by
  unfold localStore
  split
  · dsimp only
    cases y <;> simp only [VCore.cur_onCur, VCore.inShadow_onCur] <;> exact ⟨SameOps.stOld _ _, rfl⟩
  · split
    · exact bridgeStore_same v a x c
    · simp [SameOps.sticky_xerr]

theorem localLoad_same (v : View) (y : Bool) (a : Nat) (c : VCore) :
    SameOps c.cur (localLoad v y a c).2.cur ∧ (localLoad v y a c).2.inShadow = c.inShadow := by
  unfold localLoad
  split
  · split <;> exact ⟨SameOps.refl _, rfl⟩
  · simp [SameOps.sticky_xerr]

theorem portStart_same (v : View) (y : Bool) (p : Port) (c : VCore) :
    SameOps c.cur (portStart v y p c).cur ∧ (portStart v y p c).inShadow = c.inShadow := by
  unfold portStart
  split
  · dsimp only
    have h := localStore_same v y (v.p (portPtr y p)).toNat (portSource v y p c.cur).1 (c.setCur (portSource v y p c.cur).2)
    rw [VCore.cur_setCur, VCore.inShadow_setCur] at h
    rw [VCore.cur_onCur, VCore.inShadow_onCur]
    exact ⟨((portSource_same v y p c.cur).trans h.1).trans (stepPtr_same v _ _), h.2⟩
  · dsimp only
    have h := localStore_same v y (v.p (portPtr y p)).toNat (portSource v y p c.cur).1 (c.setCur (portSource v y p c.cur).2)
    rw [VCore.cur_setCur, VCore.inShadow_setCur] at h
    rw [VCore.cur_onCur, VCore.inShadow_onCur]
    exact ⟨((portSource_same v y p c.cur).trans h.1).trans (stepPtr_same v _ _), h.2⟩
  · exact ⟨SameOps.refl _, rfl⟩

theorem portLoad_same (v : View) (y : Bool) (p : Port) (c : VCore) :
    SameOps c.cur (portLoad v y p c).2.cur ∧ (portLoad v y p c).2.inShadow = c.inShadow := by
  unfold portLoad
  split
  · dsimp only
    have h := localLoad_same v y (v.p (portPtr y p)).toNat c
    rw [VCore.cur_onCur, VCore.inShadow_onCur]
    exact ⟨h.1.trans (stepPtr_same v _ _), h.2⟩
  · exact ⟨SameOps.refl _, rfl⟩

/-- A load at the end of an instruction writes U or V and nothing else. -/
theorem portEnd_keeps (y : Bool) (p : Port) (w : Option Word24) (c : VCore) :
    (portEnd y p w c).cur.w = c.cur.w ∧ (portEnd y p w c).cur.csr = c.cur.csr ∧ (portEnd y p w c).cur.ix = c.cur.ix ∧
    (portEnd y p w c).cur.ecnt = c.cur.ecnt ∧ (portEnd y p w c).inShadow = c.inShadow := by
  unfold portEnd
  split
  · exact ⟨rfl, rfl, rfl, rfl, rfl⟩
  · cases y <;> simp [RegSet.setU, RegSet.setV]

/-- What an operation with allowed ports leaves: accumulators, CSR, IX and ECNT are the operation's, on registers as they were. -/
theorem withPorts_result (pt : Ports) (op : View → RegSet → RegSet) (v : View) (c : VCore) (h : portsOk pt = true) :
    ∃ q, SameOps c.cur q ∧ (withPorts pt op v c).cur.w = (op v q).w ∧ (withPorts pt op v c).cur.csr = (op v q).csr ∧
      (withPorts pt op v c).cur.ix = (op v q).ix ∧ (withPorts pt op v c).cur.ecnt = (op v q).ecnt := by
  unfold withPorts
  rw [if_pos h]
  dsimp only
  have a1 := (portStart_same v false pt.x c).1
  have a2 := (portStart_same v true pt.y (portStart v false pt.x c)).1
  have a3 := (portLoad_same v false pt.x (portStart v true pt.y (portStart v false pt.x c))).1
  have a4 := (portLoad_same v true pt.y (portLoad v false pt.x (portStart v true pt.y (portStart v false pt.x c))).2).1
  refine ⟨_, ((a1.trans a2).trans a3).trans a4, ?_⟩
  have e1 := fun w c => portEnd_keeps true pt.y w c
  have e2 := fun w c => portEnd_keeps false pt.x w c
  refine ⟨?_, ?_, ?_, ?_⟩
  · rw [(e1 _ _).1, (e2 _ _).1, VCore.cur_onCur]
  · rw [(e1 _ _).2.1, (e2 _ _).2.1, VCore.cur_onCur]
  · rw [(e1 _ _).2.2.1, (e2 _ _).2.2.1, VCore.cur_onCur]
  · rw [(e1 _ _).2.2.2.1, (e2 _ _).2.2.2.1, VCore.cur_onCur]

-- one instruction ---------------------------------------------------------------------------------------------------------------

/-- A core that issues: one execution, then the advance of the PC. -/
theorem issue_once (spf len : Nat) (rep ptrWr : Bool) (body : View → VCore → VCore) (c : VCore) (hw : c.waits = false) (hr : c.cur.rpt = none) :
    issue spf len rep ptrWr body c = (once spf ptrWr body (c.onCur fun r => { r with rpt := none })).onCur (advance len) := by
  unfold issue
  simp [hw, hr]

/-- An operation with ports on a core that issues: accumulators, CSR, IX and ECNT are the operation's. -/
theorem portOp_result (k : Nat) (pt : Ports) (op : View → RegSet → RegSet) (s : State) (h : Issues s k) (hp : portsOk pt = true) :
    ∃ t q, portOp k pt op s = .next t ∧ OnlyCore k s t ∧ SameOps (s.regs k) q ∧ (t.regs k).w = (op (s.view k) q).w ∧
      (∀ i, i ≠ csrSATD → i ≠ csrXERR → (t.regs k).csr.getLsbD i = (op (s.view k) q).csr.getLsbD i) ∧
      (t.regs k).ix = (op (s.view k) q).ix ∧ (t.regs k).ecnt = (op (s.view k) q).ecnt := by
  have hc : (s.core k).cur.rpt = none := h.once
  let c0 := (s.core k).onCur fun r => { r with rpt := none }
  let v : View := { ag := c0.cur.agOld.getD c0.cur.ptrs, csr := c0.cur.csrOld.getD c0.cur.csr, st := c0.cur.stOld, spf := samplesPerFrame s.time.rate }
  have hv : v = s.view k := by simp [v, c0, State.view, State.regs, State.csrSeen, RegSet.ptrs]
  obtain ⟨q, hq, w1, w2, w3, w4⟩ := withPorts_result pt op v (c0.setCur { c0.cur with agOld := none, csrOld := none, stOld := [] }) hp
  refine ⟨s.setCore k (issue (samplesPerFrame s.time.rate) 1 true false (withPorts pt op) (s.core k)), q, ?_, ?_, ?_, ?_⟩
  · simp [portOp, onCore, withUnit, h.exists_, afterIssue, h.noReq]
  · simp [OnlyCore]
  · refine SameOps.trans ?_ hq
    simp only [VCore.cur_setCur, c0, VCore.cur_onCur]
    exact SameOps.hazards _ _ _ _ _
  · rw [hv] at w1 w2 w3 w4
    have e : ((s.setCore k (issue (samplesPerFrame s.time.rate) 1 true false (withPorts pt op) (s.core k))).regs k)
        = advance 1 ((once (samplesPerFrame s.time.rate) false (withPorts pt op) c0).cur) := by
      simp only [State.regs, State.setCore_same]
      rw [issue_once _ _ _ _ _ _ h.runs hc, VCore.cur_onCur]
    rw [e]
    have a := SameOps.advance 1 (once (samplesPerFrame s.time.rate) false (withPorts pt op) c0).cur
    have b : ∀ r : RegSet, (once (samplesPerFrame s.time.rate) false (withPorts pt op) c0).cur = r →
        r.w = (withPorts pt op (s.view k) (c0.setCur { c0.cur with agOld := none, csrOld := none, stOld := [] })).cur.w ∧
        r.csr = (withPorts pt op (s.view k) (c0.setCur { c0.cur with agOld := none, csrOld := none, stOld := [] })).cur.csr ∧
        r.ix = (withPorts pt op (s.view k) (c0.setCur { c0.cur with agOld := none, csrOld := none, stOld := [] })).cur.ix ∧
        r.ecnt = (withPorts pt op (s.view k) (c0.setCur { c0.cur with agOld := none, csrOld := none, stOld := [] })).cur.ecnt := by
      intro r hr
      rw [← hr, ← hv]
      unfold once
      simp only [VCore.cur_onCur]
      exact ⟨rfl, rfl, rfl, rfl⟩
    obtain ⟨b1, b2, b3, b4⟩ := b _ rfl
    refine ⟨?_, ?_, ?_, ?_⟩
    · rw [a.w, b1, w1]
    · intro i h1 h2
      rw [a.csr i h1 h2, b2, w2]
    · rw [a.ix, b3, w3]
    · rw [a.ecnt, b4, w4]

/-- The registers that an instruction starts on: the marks of RPT and of the hazards are taken off. -/
def RegSet.cleared (r : RegSet) : RegSet := { r with rpt := none, agOld := none, csrOld := none, stOld := [] }

/-- An instruction of `len` words on a core that issues, whatever its body does. -/
theorem issue_result (k len : Nat) (rep ptrWr : Bool) (body : View → VCore → VCore) (s : State) (h : Issues s k) :
    ∃ t, onCore k (fun spf => issue spf len rep ptrWr body) s = .next t ∧ OnlyCore k s t ∧
      t.core k = ((body (s.view k) ((s.core k).setCur (s.regs k).cleared)).onCur fun r1 =>
        { r1 with
          agOld := if ptrWr ∧ r1.ptrs ≠ (s.regs k).ptrs then some (s.regs k).ptrs else none,
          csrOld := if (r1.csr ^^^ (s.regs k).csr) &&& csrLate = 0 then none else some (s.regs k).csr }).onCur (advance len) := by
  have hc : (s.core k).cur.rpt = none := h.once
  refine ⟨s.setCore k (issue (samplesPerFrame s.time.rate) len rep ptrWr body (s.core k)), ?_, ?_, ?_⟩
  · simp [onCore, withUnit, h.exists_, afterIssue, h.noReq]
  · simp [OnlyCore]
  · rw [State.setCore_same, issue_once _ _ _ _ _ _ h.runs hc]
    unfold once
    simp only [VCore.onCur, VCore.cur_setCur, VCore.setCur_setCur]
    rfl

/-- What the advance of the PC leaves: every register but the PC, the loop and return stacks, and the delay slots. -/
theorem advance_keeps (len : Nat) (r : RegSet) :
    (advance len r).w = r.w ∧ (advance len r).u = r.u ∧ (advance len r).v = r.v ∧ (advance len r).csr = r.csr ∧ (advance len r).ix = r.ix ∧
    (advance len r).ecnt = r.ecnt ∧ (advance len r).p = r.p ∧ (advance len r).n = r.n ∧ (advance len r).st = r.st ∧ (advance len r).en = r.en := by
  unfold advance
  dsimp only
  split
  · split
    · exact ⟨rfl, rfl, rfl, rfl, rfl, rfl, rfl, rfl, rfl, rfl⟩
    · split <;> exact ⟨rfl, rfl, rfl, rfl, rfl, rfl, rfl, rfl, rfl, rfl⟩
  · exact ⟨rfl, rfl, rfl, rfl, rfl, rfl, rfl, rfl, rfl, rfl⟩

/-- `onCur` changes the registers of the set in use alone. -/
theorem VCore.onCur_keeps (c : VCore) (f : RegSet → RegSet) :
    (c.onCur f).x = c.x ∧ (c.onCur f).y = c.y ∧ (c.onCur f).prog = c.prog ∧ (c.onCur f).fetches = c.fetches ∧ (c.onCur f).held = c.held ∧
    (c.onCur f).current = c.current ∧ (c.onCur f).tasks = c.tasks := by
  unfold VCore.onCur VCore.setCur VCore.held
  cases c.inShadow <;> exact ⟨rfl, rfl, rfl, rfl, rfl, rfl, rfl⟩

/-- An instruction whose body acts on the registers alone: what it leaves of them. -/
theorem regOp_result (k len : Nat) (rep ptrWr : Bool) (body : View → VCore → VCore) (g : RegSet → RegSet) (s : State) (h : Issues s k)
    (hb : ∀ c, body (s.view k) c = c.onCur g) :
    ∃ t, onCore k (fun spf => issue spf len rep ptrWr body) s = .next t ∧ OnlyCore k s t ∧
      (t.regs k).w = (g (s.regs k).cleared).w ∧ (t.regs k).u = (g (s.regs k).cleared).u ∧ (t.regs k).v = (g (s.regs k).cleared).v ∧
      (t.regs k).csr = (g (s.regs k).cleared).csr ∧ (t.regs k).ix = (g (s.regs k).cleared).ix ∧
      (t.regs k).ecnt = (g (s.regs k).cleared).ecnt ∧ (t.regs k).p = (g (s.regs k).cleared).p ∧ (t.regs k).n = (g (s.regs k).cleared).n ∧
      (t.regs k).st = (g (s.regs k).cleared).st ∧ (t.regs k).en = (g (s.regs k).cleared).en ∧
      (t.core k).x = (s.core k).x ∧ (t.core k).y = (s.core k).y := by
  obtain ⟨t, h1, h2, h3⟩ := issue_result k len rep ptrWr body s h
  refine ⟨t, h1, h2, ?_⟩
  have e : t.regs k = (t.core k).cur := rfl
  rw [e, h3, hb]
  simp only [VCore.cur_onCur, VCore.cur_setCur]
  obtain ⟨a1, a2, a3, a4, a5, a6, a7, a8, a9, a10⟩ := advance_keeps len
    { g (s.regs k).cleared with
      agOld := if ptrWr ∧ (g (s.regs k).cleared).ptrs ≠ (s.regs k).ptrs then some (s.regs k).ptrs else none,
      csrOld := if ((g (s.regs k).cleared).csr ^^^ (s.regs k).csr) &&& csrLate = 0 then none else some (s.regs k).csr }
  refine ⟨a1, a2, a3, a4, a5, a6, a7, a8, a9, a10, ?_, ?_⟩
  · rw [(VCore.onCur_keeps _ _).1, (VCore.onCur_keeps _ _).1, (VCore.onCur_keeps _ _).1]
    unfold VCore.setCur
    cases (s.core k).inShadow <;> rfl
  · rw [(VCore.onCur_keeps _ _).2.1, (VCore.onCur_keeps _ _).2.1, (VCore.onCur_keeps _ _).2.1]
    unfold VCore.setCur
    cases (s.core k).inShadow <;> rfl

/-- A flow instruction outside delay slots and loop ends acts on the cleared registers. -/
theorem issueFlow_flows (s : State) (k : Nat) (ef : Bool) (act : VCore → VCore) (h : Flows s k) :
    issueFlow ef act (s.core k) = act ((s.core k).setCur (s.regs k).cleared) := by
  have h1 : (s.core k).cur.delay = none := h.noSlot
  have h2 : (s.core k).cur.bodyEnd = false := h.noEnd
  have h3 : (s.core k).cur.rpt = none := h.issues.once
  unfold issueFlow
  dsimp only
  rw [if_neg (by simp [h.issues.runs]), if_neg (by simp [h1, h2])]
  congr 1
  unfold VCore.onCur
  congr 1
  dsimp only
  rw [if_neg (by simp [h3])]
  rfl

/-- A write of an accumulator. -/
theorem wr_setW (r : RegSet) (n d : Nat) (x : Acc) : (r.setW n x).wr d = if d = n then x else r.wr d := Tab.look_put _ _ _ _ _

end Sys2Proof.Machine
end

