-- ==== Sys2Proof/Laws/CoreWords.lean ====
section
/-! SUPPORT. Fields of the instruction words that the encoder of a voice core forms (R213 to R216): each field of a class's word reads back
what was put there. -/

namespace Sys2Proof

/-- A field that lies above the lower part of a concatenation. -/
theorem extract_append_high {n m : Nat} (a : BitVec n) (b : BitVec m) (lo len : Nat) (h : m ≤ lo) :
    (a ++ b).extractLsb' lo len = a.extractLsb' (lo - m) len := by
  apply BitVec.eq_of_getLsbD_eq
  intro i hi
  simp only [BitVec.getLsbD_extractLsb', hi, decide_true, Bool.true_and, BitVec.getLsbD_append]
  rw [if_neg (by omega)]
  congr 1
  omega

/-- A field that lies within the lower part of a concatenation. -/
theorem extract_append_low {n m : Nat} (a : BitVec n) (b : BitVec m) (lo len : Nat) (h : lo + len ≤ m) :
    (a ++ b).extractLsb' lo len = b.extractLsb' lo len := by
  apply BitVec.eq_of_getLsbD_eq
  intro i hi
  simp only [BitVec.getLsbD_extractLsb', hi, decide_true, Bool.true_and, BitVec.getLsbD_append]
  rw [if_pos (by omega)]

@[simp] theorem decodeSrc_encodeSrc (x : ArithSrc) : decodeSrc (encodeSrc x) = x := by cases x <;> rfl
@[simp] theorem decodePortOp_encodePortOp (x : PortOp) : decodePortOp (encodePortOp x) = x := by cases x <;> decide
@[simp] theorem flagOf_bitOf (x : Bool) : flagOf (bitOf x) = x := by cases x <;> decide

/-- The fields of the two ports. -/
theorem encodePorts_fields (pt : Ports) :
    (encodePorts pt).extractLsb' 12 2 = encodePortOp pt.x.op ∧ (encodePorts pt).extractLsb' 9 3 = pt.x.reg ∧
    (encodePorts pt).extractLsb' 7 2 = pt.x.ptr ∧ (encodePorts pt).extractLsb' 5 2 = encodePortOp pt.y.op ∧
    (encodePorts pt).extractLsb' 2 3 = pt.y.reg ∧ (encodePorts pt).extractLsb' 0 2 = pt.y.ptr := by
  refine ⟨?_, ?_, ?_, ?_, ?_, ?_⟩
  · change (((encodePortOp pt.x.op ++ pt.x.reg ++ pt.x.ptr) ++ (encodePortOp pt.y.op ++ pt.y.reg ++ pt.y.ptr))).extractLsb' 12 2 = _
    rw [extract_append_high _ _ _ _ (by omega), extract_append_high _ _ _ _ (by omega), extract_append_high _ _ _ _ (by omega)]
    simp
  · change (((encodePortOp pt.x.op ++ pt.x.reg ++ pt.x.ptr) ++ (encodePortOp pt.y.op ++ pt.y.reg ++ pt.y.ptr))).extractLsb' 9 3 = _
    rw [extract_append_high _ _ _ _ (by omega), extract_append_high _ _ _ _ (by omega), extract_append_low _ _ _ _ (by omega)]
    simp
  · change (((encodePortOp pt.x.op ++ pt.x.reg ++ pt.x.ptr) ++ (encodePortOp pt.y.op ++ pt.y.reg ++ pt.y.ptr))).extractLsb' 7 2 = _
    rw [extract_append_high _ _ _ _ (by omega), extract_append_low _ _ _ _ (by omega)]
    simp
  · change (((encodePortOp pt.x.op ++ pt.x.reg ++ pt.x.ptr) ++ (encodePortOp pt.y.op ++ pt.y.reg ++ pt.y.ptr))).extractLsb' 5 2 = _
    rw [extract_append_low _ _ _ _ (by omega), extract_append_high _ _ _ _ (by omega), extract_append_high _ _ _ _ (by omega)]
    simp
  · change (((encodePortOp pt.x.op ++ pt.x.reg ++ pt.x.ptr) ++ (encodePortOp pt.y.op ++ pt.y.reg ++ pt.y.ptr))).extractLsb' 2 3 = _
    rw [extract_append_low _ _ _ _ (by omega), extract_append_high _ _ _ _ (by omega), extract_append_low _ _ _ _ (by omega)]
    simp
  · change (((encodePortOp pt.x.op ++ pt.x.reg ++ pt.x.ptr) ++ (encodePortOp pt.y.op ++ pt.y.reg ++ pt.y.ptr))).extractLsb' 0 2 = _
    rw [extract_append_low _ _ _ _ (by omega), extract_append_low _ _ _ _ (by omega)]
    simp

@[simp] theorem arithWord_class (op : BitVec 4) (wd : BitVec 2) (src : ArithSrc) (pt : Ports) : fieldOf (arithWord op wd src pt) 21 3 = 1 := by
  change ((1 : BitVec 3) ++ op ++ wd ++ encodeSrc src ++ encodePorts pt).extractLsb' 21 3 = _
  rw [extract_append_high _ _ _ _ (by omega), extract_append_high _ _ _ _ (by omega), extract_append_high _ _ _ _ (by omega), extract_append_high _ _ _ _ (by omega)]
  simp
@[simp] theorem arithWord_op (op : BitVec 4) (wd : BitVec 2) (src : ArithSrc) (pt : Ports) : fieldOf (arithWord op wd src pt) 17 4 = op := by
  change ((1 : BitVec 3) ++ op ++ wd ++ encodeSrc src ++ encodePorts pt).extractLsb' 17 4 = _
  rw [extract_append_high _ _ _ _ (by omega), extract_append_high _ _ _ _ (by omega), extract_append_high _ _ _ _ (by omega), extract_append_low _ _ _ _ (by omega)]
  simp
@[simp] theorem arithWord_wd (op : BitVec 4) (wd : BitVec 2) (src : ArithSrc) (pt : Ports) : fieldOf (arithWord op wd src pt) 15 2 = wd := by
  change ((1 : BitVec 3) ++ op ++ wd ++ encodeSrc src ++ encodePorts pt).extractLsb' 15 2 = _
  rw [extract_append_high _ _ _ _ (by omega), extract_append_high _ _ _ _ (by omega), extract_append_low _ _ _ _ (by omega)]
  simp
@[simp] theorem arithWord_src (op : BitVec 4) (wd : BitVec 2) (src : ArithSrc) (pt : Ports) : fieldOf (arithWord op wd src pt) 14 1 = encodeSrc src := by
  change ((1 : BitVec 3) ++ op ++ wd ++ encodeSrc src ++ encodePorts pt).extractLsb' 14 1 = _
  rw [extract_append_high _ _ _ _ (by omega), extract_append_low _ _ _ _ (by omega)]
  simp
@[simp] theorem arithWord_ports (op : BitVec 4) (wd : BitVec 2) (src : ArithSrc) (pt : Ports) : decodePorts (arithWord op wd src pt) = pt := by
  change Ports.mk (Port.mk (decodePortOp (((1 : BitVec 3) ++ op ++ wd ++ encodeSrc src ++ encodePorts pt).extractLsb' 12 2)) (((1 : BitVec 3) ++ op ++ wd ++ encodeSrc src ++ encodePorts pt).extractLsb' 9 3) (((1 : BitVec 3) ++ op ++ wd ++ encodeSrc src ++ encodePorts pt).extractLsb' 7 2)) (Port.mk (decodePortOp (((1 : BitVec 3) ++ op ++ wd ++ encodeSrc src ++ encodePorts pt).extractLsb' 5 2)) (((1 : BitVec 3) ++ op ++ wd ++ encodeSrc src ++ encodePorts pt).extractLsb' 2 3) (((1 : BitVec 3) ++ op ++ wd ++ encodeSrc src ++ encodePorts pt).extractLsb' 0 2)) = _
  obtain ⟨h1, h2, h3, h4, h5, h6⟩ := encodePorts_fields pt
  iterate 6 rw [extract_append_low (b := encodePorts pt) (h := by omega)]
  rw [h1, h2, h3, h4, h5, h6, decodePortOp_encodePortOp, decodePortOp_encodePortOp]

@[simp] theorem mulWord_class (wd : BitVec 2) (sign z : Bool) (ui : BitVec 1) (vj : BitVec 2) (pt : Ports) : fieldOf (mulWord wd sign z ui vj pt) 21 3 = 2 := by
  change ((2 : BitVec 3) ++ wd ++ bitOf sign ++ bitOf z ++ ui ++ vj ++ encodePorts pt).extractLsb' 21 3 = _
  rw [extract_append_high _ _ _ _ (by omega), extract_append_high _ _ _ _ (by omega), extract_append_high _ _ _ _ (by omega), extract_append_high _ _ _ _ (by omega), extract_append_high _ _ _ _ (by omega), extract_append_high _ _ _ _ (by omega)]
  simp
@[simp] theorem mulWord_wd (wd : BitVec 2) (sign z : Bool) (ui : BitVec 1) (vj : BitVec 2) (pt : Ports) : fieldOf (mulWord wd sign z ui vj pt) 19 2 = wd := by
  change ((2 : BitVec 3) ++ wd ++ bitOf sign ++ bitOf z ++ ui ++ vj ++ encodePorts pt).extractLsb' 19 2 = _
  rw [extract_append_high _ _ _ _ (by omega), extract_append_high _ _ _ _ (by omega), extract_append_high _ _ _ _ (by omega), extract_append_high _ _ _ _ (by omega), extract_append_high _ _ _ _ (by omega), extract_append_low _ _ _ _ (by omega)]
  simp
@[simp] theorem mulWord_sign (wd : BitVec 2) (sign z : Bool) (ui : BitVec 1) (vj : BitVec 2) (pt : Ports) : fieldOf (mulWord wd sign z ui vj pt) 18 1 = bitOf sign := by
  change ((2 : BitVec 3) ++ wd ++ bitOf sign ++ bitOf z ++ ui ++ vj ++ encodePorts pt).extractLsb' 18 1 = _
  rw [extract_append_high _ _ _ _ (by omega), extract_append_high _ _ _ _ (by omega), extract_append_high _ _ _ _ (by omega), extract_append_high _ _ _ _ (by omega), extract_append_low _ _ _ _ (by omega)]
  simp
@[simp] theorem mulWord_z (wd : BitVec 2) (sign z : Bool) (ui : BitVec 1) (vj : BitVec 2) (pt : Ports) : fieldOf (mulWord wd sign z ui vj pt) 17 1 = bitOf z := by
  change ((2 : BitVec 3) ++ wd ++ bitOf sign ++ bitOf z ++ ui ++ vj ++ encodePorts pt).extractLsb' 17 1 = _
  rw [extract_append_high _ _ _ _ (by omega), extract_append_high _ _ _ _ (by omega), extract_append_high _ _ _ _ (by omega), extract_append_low _ _ _ _ (by omega)]
  simp
@[simp] theorem mulWord_ui (wd : BitVec 2) (sign z : Bool) (ui : BitVec 1) (vj : BitVec 2) (pt : Ports) : fieldOf (mulWord wd sign z ui vj pt) 16 1 = ui := by
  change ((2 : BitVec 3) ++ wd ++ bitOf sign ++ bitOf z ++ ui ++ vj ++ encodePorts pt).extractLsb' 16 1 = _
  rw [extract_append_high _ _ _ _ (by omega), extract_append_high _ _ _ _ (by omega), extract_append_low _ _ _ _ (by omega)]
  simp
@[simp] theorem mulWord_vj (wd : BitVec 2) (sign z : Bool) (ui : BitVec 1) (vj : BitVec 2) (pt : Ports) : fieldOf (mulWord wd sign z ui vj pt) 14 2 = vj := by
  change ((2 : BitVec 3) ++ wd ++ bitOf sign ++ bitOf z ++ ui ++ vj ++ encodePorts pt).extractLsb' 14 2 = _
  rw [extract_append_high _ _ _ _ (by omega), extract_append_low _ _ _ _ (by omega)]
  simp
@[simp] theorem mulWord_ports (wd : BitVec 2) (sign z : Bool) (ui : BitVec 1) (vj : BitVec 2) (pt : Ports) : decodePorts (mulWord wd sign z ui vj pt) = pt := by
  change Ports.mk (Port.mk (decodePortOp (((2 : BitVec 3) ++ wd ++ bitOf sign ++ bitOf z ++ ui ++ vj ++ encodePorts pt).extractLsb' 12 2)) (((2 : BitVec 3) ++ wd ++ bitOf sign ++ bitOf z ++ ui ++ vj ++ encodePorts pt).extractLsb' 9 3) (((2 : BitVec 3) ++ wd ++ bitOf sign ++ bitOf z ++ ui ++ vj ++ encodePorts pt).extractLsb' 7 2)) (Port.mk (decodePortOp (((2 : BitVec 3) ++ wd ++ bitOf sign ++ bitOf z ++ ui ++ vj ++ encodePorts pt).extractLsb' 5 2)) (((2 : BitVec 3) ++ wd ++ bitOf sign ++ bitOf z ++ ui ++ vj ++ encodePorts pt).extractLsb' 2 3) (((2 : BitVec 3) ++ wd ++ bitOf sign ++ bitOf z ++ ui ++ vj ++ encodePorts pt).extractLsb' 0 2)) = _
  obtain ⟨h1, h2, h3, h4, h5, h6⟩ := encodePorts_fields pt
  iterate 6 rw [extract_append_low (b := encodePorts pt) (h := by omega)]
  rw [h1, h2, h3, h4, h5, h6, decodePortOp_encodePortOp, decodePortOp_encodePortOp]

@[simp] theorem quadWord_class (form : BitVec 2) (sign z : Bool) (ui : BitVec 2) (quad : BitVec 1) (pt : Ports) : fieldOf (quadWord form sign z ui quad pt) 21 3 = 3 := by
  change ((3 : BitVec 3) ++ form ++ bitOf sign ++ bitOf z ++ ui ++ quad ++ encodePorts pt).extractLsb' 21 3 = _
  rw [extract_append_high _ _ _ _ (by omega), extract_append_high _ _ _ _ (by omega), extract_append_high _ _ _ _ (by omega), extract_append_high _ _ _ _ (by omega), extract_append_high _ _ _ _ (by omega), extract_append_high _ _ _ _ (by omega)]
  simp
@[simp] theorem quadWord_form (form : BitVec 2) (sign z : Bool) (ui : BitVec 2) (quad : BitVec 1) (pt : Ports) : fieldOf (quadWord form sign z ui quad pt) 19 2 = form := by
  change ((3 : BitVec 3) ++ form ++ bitOf sign ++ bitOf z ++ ui ++ quad ++ encodePorts pt).extractLsb' 19 2 = _
  rw [extract_append_high _ _ _ _ (by omega), extract_append_high _ _ _ _ (by omega), extract_append_high _ _ _ _ (by omega), extract_append_high _ _ _ _ (by omega), extract_append_high _ _ _ _ (by omega), extract_append_low _ _ _ _ (by omega)]
  simp
@[simp] theorem quadWord_sign (form : BitVec 2) (sign z : Bool) (ui : BitVec 2) (quad : BitVec 1) (pt : Ports) : fieldOf (quadWord form sign z ui quad pt) 18 1 = bitOf sign := by
  change ((3 : BitVec 3) ++ form ++ bitOf sign ++ bitOf z ++ ui ++ quad ++ encodePorts pt).extractLsb' 18 1 = _
  rw [extract_append_high _ _ _ _ (by omega), extract_append_high _ _ _ _ (by omega), extract_append_high _ _ _ _ (by omega), extract_append_high _ _ _ _ (by omega), extract_append_low _ _ _ _ (by omega)]
  simp
@[simp] theorem quadWord_z (form : BitVec 2) (sign z : Bool) (ui : BitVec 2) (quad : BitVec 1) (pt : Ports) : fieldOf (quadWord form sign z ui quad pt) 17 1 = bitOf z := by
  change ((3 : BitVec 3) ++ form ++ bitOf sign ++ bitOf z ++ ui ++ quad ++ encodePorts pt).extractLsb' 17 1 = _
  rw [extract_append_high _ _ _ _ (by omega), extract_append_high _ _ _ _ (by omega), extract_append_high _ _ _ _ (by omega), extract_append_low _ _ _ _ (by omega)]
  simp
@[simp] theorem quadWord_ui (form : BitVec 2) (sign z : Bool) (ui : BitVec 2) (quad : BitVec 1) (pt : Ports) : fieldOf (quadWord form sign z ui quad pt) 15 2 = ui := by
  change ((3 : BitVec 3) ++ form ++ bitOf sign ++ bitOf z ++ ui ++ quad ++ encodePorts pt).extractLsb' 15 2 = _
  rw [extract_append_high _ _ _ _ (by omega), extract_append_high _ _ _ _ (by omega), extract_append_low _ _ _ _ (by omega)]
  simp
@[simp] theorem quadWord_quad (form : BitVec 2) (sign z : Bool) (ui : BitVec 2) (quad : BitVec 1) (pt : Ports) : fieldOf (quadWord form sign z ui quad pt) 14 1 = quad := by
  change ((3 : BitVec 3) ++ form ++ bitOf sign ++ bitOf z ++ ui ++ quad ++ encodePorts pt).extractLsb' 14 1 = _
  rw [extract_append_high _ _ _ _ (by omega), extract_append_low _ _ _ _ (by omega)]
  simp
@[simp] theorem quadWord_ports (form : BitVec 2) (sign z : Bool) (ui : BitVec 2) (quad : BitVec 1) (pt : Ports) : decodePorts (quadWord form sign z ui quad pt) = pt := by
  change Ports.mk (Port.mk (decodePortOp (((3 : BitVec 3) ++ form ++ bitOf sign ++ bitOf z ++ ui ++ quad ++ encodePorts pt).extractLsb' 12 2)) (((3 : BitVec 3) ++ form ++ bitOf sign ++ bitOf z ++ ui ++ quad ++ encodePorts pt).extractLsb' 9 3) (((3 : BitVec 3) ++ form ++ bitOf sign ++ bitOf z ++ ui ++ quad ++ encodePorts pt).extractLsb' 7 2)) (Port.mk (decodePortOp (((3 : BitVec 3) ++ form ++ bitOf sign ++ bitOf z ++ ui ++ quad ++ encodePorts pt).extractLsb' 5 2)) (((3 : BitVec 3) ++ form ++ bitOf sign ++ bitOf z ++ ui ++ quad ++ encodePorts pt).extractLsb' 2 3) (((3 : BitVec 3) ++ form ++ bitOf sign ++ bitOf z ++ ui ++ quad ++ encodePorts pt).extractLsb' 0 2)) = _
  obtain ⟨h1, h2, h3, h4, h5, h6⟩ := encodePorts_fields pt
  iterate 6 rw [extract_append_low (b := encodePorts pt) (h := by omega)]
  rw [h1, h2, h3, h4, h5, h6, decodePortOp_encodePortOp, decodePortOp_encodePortOp]

@[simp] theorem searchWord_class (sub : BitVec 3) (wd i : BitVec 2) (pt : Ports) : fieldOf (searchWord sub wd i pt) 21 3 = 4 := by
  change ((4 : BitVec 3) ++ sub ++ wd ++ i ++ encodePorts pt).extractLsb' 21 3 = _
  rw [extract_append_high _ _ _ _ (by omega), extract_append_high _ _ _ _ (by omega), extract_append_high _ _ _ _ (by omega), extract_append_high _ _ _ _ (by omega)]
  simp
@[simp] theorem searchWord_sub (sub : BitVec 3) (wd i : BitVec 2) (pt : Ports) : fieldOf (searchWord sub wd i pt) 18 3 = sub := by
  change ((4 : BitVec 3) ++ sub ++ wd ++ i ++ encodePorts pt).extractLsb' 18 3 = _
  rw [extract_append_high _ _ _ _ (by omega), extract_append_high _ _ _ _ (by omega), extract_append_high _ _ _ _ (by omega), extract_append_low _ _ _ _ (by omega)]
  simp
@[simp] theorem searchWord_wd (sub : BitVec 3) (wd i : BitVec 2) (pt : Ports) : fieldOf (searchWord sub wd i pt) 16 2 = wd := by
  change ((4 : BitVec 3) ++ sub ++ wd ++ i ++ encodePorts pt).extractLsb' 16 2 = _
  rw [extract_append_high _ _ _ _ (by omega), extract_append_high _ _ _ _ (by omega), extract_append_low _ _ _ _ (by omega)]
  simp
@[simp] theorem searchWord_i (sub : BitVec 3) (wd i : BitVec 2) (pt : Ports) : fieldOf (searchWord sub wd i pt) 14 2 = i := by
  change ((4 : BitVec 3) ++ sub ++ wd ++ i ++ encodePorts pt).extractLsb' 14 2 = _
  rw [extract_append_high _ _ _ _ (by omega), extract_append_low _ _ _ _ (by omega)]
  simp
@[simp] theorem searchWord_ports (sub : BitVec 3) (wd i : BitVec 2) (pt : Ports) : decodePorts (searchWord sub wd i pt) = pt := by
  change Ports.mk (Port.mk (decodePortOp (((4 : BitVec 3) ++ sub ++ wd ++ i ++ encodePorts pt).extractLsb' 12 2)) (((4 : BitVec 3) ++ sub ++ wd ++ i ++ encodePorts pt).extractLsb' 9 3) (((4 : BitVec 3) ++ sub ++ wd ++ i ++ encodePorts pt).extractLsb' 7 2)) (Port.mk (decodePortOp (((4 : BitVec 3) ++ sub ++ wd ++ i ++ encodePorts pt).extractLsb' 5 2)) (((4 : BitVec 3) ++ sub ++ wd ++ i ++ encodePorts pt).extractLsb' 2 3) (((4 : BitVec 3) ++ sub ++ wd ++ i ++ encodePorts pt).extractLsb' 0 2)) = _
  obtain ⟨h1, h2, h3, h4, h5, h6⟩ := encodePorts_fields pt
  iterate 6 rw [extract_append_low (b := encodePorts pt) (h := by omega)]
  rw [h1, h2, h3, h4, h5, h6, decodePortOp_encodePortOp, decodePortOp_encodePortOp]

@[simp] theorem transferWord_class (dst mid : BitVec 7) (form : BitVec 2) : fieldOf (transferWord dst mid form) 21 3 = 5 := by
  change ((5 : BitVec 3) ++ dst ++ mid ++ form ++ (0 : BitVec 5)).extractLsb' 21 3 = _
  rw [extract_append_high _ _ _ _ (by omega), extract_append_high _ _ _ _ (by omega), extract_append_high _ _ _ _ (by omega), extract_append_high _ _ _ _ (by omega)]
  simp
@[simp] theorem transferWord_dst (dst mid : BitVec 7) (form : BitVec 2) : fieldOf (transferWord dst mid form) 14 7 = dst := by
  change ((5 : BitVec 3) ++ dst ++ mid ++ form ++ (0 : BitVec 5)).extractLsb' 14 7 = _
  rw [extract_append_high _ _ _ _ (by omega), extract_append_high _ _ _ _ (by omega), extract_append_high _ _ _ _ (by omega), extract_append_low _ _ _ _ (by omega)]
  simp
@[simp] theorem transferWord_mid (dst mid : BitVec 7) (form : BitVec 2) : fieldOf (transferWord dst mid form) 7 7 = mid := by
  change ((5 : BitVec 3) ++ dst ++ mid ++ form ++ (0 : BitVec 5)).extractLsb' 7 7 = _
  rw [extract_append_high _ _ _ _ (by omega), extract_append_high _ _ _ _ (by omega), extract_append_low _ _ _ _ (by omega)]
  simp
@[simp] theorem transferWord_form (dst mid : BitVec 7) (form : BitVec 2) : fieldOf (transferWord dst mid form) 5 2 = form := by
  change ((5 : BitVec 3) ++ dst ++ mid ++ form ++ (0 : BitVec 5)).extractLsb' 5 2 = _
  rw [extract_append_high _ _ _ _ (by omega), extract_append_low _ _ _ _ (by omega)]
  simp
@[simp] theorem transferWord_low (dst mid : BitVec 7) (form : BitVec 2) : fieldOf (transferWord dst mid form) 0 5 = 0 := by
  change ((5 : BitVec 3) ++ dst ++ mid ++ form ++ (0 : BitVec 5)).extractLsb' 0 5 = _
  rw [extract_append_low _ _ _ _ (by omega)]
  simp

@[simp] theorem flowWord_class (sub : BitVec 5) (x : BitVec 16) : fieldOf (flowWord sub x) 21 3 = 6 := by
  change ((6 : BitVec 3) ++ sub ++ x).extractLsb' 21 3 = _
  rw [extract_append_high _ _ _ _ (by omega), extract_append_high _ _ _ _ (by omega)]
  simp
@[simp] theorem flowWord_sub (sub : BitVec 5) (x : BitVec 16) : fieldOf (flowWord sub x) 16 5 = sub := by
  change ((6 : BitVec 3) ++ sub ++ x).extractLsb' 16 5 = _
  rw [extract_append_high _ _ _ _ (by omega), extract_append_low _ _ _ _ (by omega)]
  simp

@[simp] theorem addressWord_class (sub : BitVec 5) (x : BitVec 16) : fieldOf (addressWord sub x) 21 3 = 0 := by
  change ((0 : BitVec 3) ++ sub ++ x).extractLsb' 21 3 = _
  rw [extract_append_high _ _ _ _ (by omega), extract_append_high _ _ _ _ (by omega)]
  simp
@[simp] theorem addressWord_sub (sub : BitVec 5) (x : BitVec 16) : fieldOf (addressWord sub x) 16 5 = sub := by
  change ((0 : BitVec 3) ++ sub ++ x).extractLsb' 16 5 = _
  rw [extract_append_high _ _ _ _ (by omega), extract_append_low _ _ _ _ (by omega)]
  simp

/-- A field of the operand of a flow word. -/
theorem flowWord_operand (sub : BitVec 5) (x : BitVec 16) (lo n : Nat) (h : lo + n ≤ 16) :
    fieldOf (flowWord sub x) lo n = x.extractLsb' lo n :=
  extract_append_low ((6 : BitVec 3) ++ sub) x lo n h

/-- A field of the operand of an address or shift word. -/
theorem addressWord_operand (sub : BitVec 5) (x : BitVec 16) (lo n : Nat) (h : lo + n ≤ 16) :
    fieldOf (addressWord sub x) lo n = x.extractLsb' lo n :=
  extract_append_low ((0 : BitVec 3) ++ sub) x lo n h

/-- A field of the middle of a transfer word. -/
theorem transferWord_middle (dst mid : BitVec 7) (form : BitVec 2) (lo n : Nat) (h : 7 ≤ lo) (h' : lo + n ≤ 14) :
    fieldOf (transferWord dst mid form) lo n = mid.extractLsb' (lo - 7) n :=
  (extract_append_high ((5 : BitVec 3) ++ dst ++ mid ++ form) (0 : BitVec 5) lo n (by omega)).trans
    ((extract_append_high ((5 : BitVec 3) ++ dst ++ mid) form (lo - 5) n (by omega)).trans
      ((extract_append_low ((5 : BitVec 3) ++ dst) mid (lo - 5 - 2) n (by omega)).trans (by rw [Nat.sub_sub])))

end Sys2Proof
end

