-- ==== Sys2Proof/Laws/Images.lean ====
section
/-! SUPPORT. Lemmas of the image tags: the digest takes 8 words, and an image that ends with its own tag is authentic (R425). -/

namespace Sys2Proof.Machine

theorem natBytes_length (n x : Nat) : (natBytes n x).length = n := by simp [natBytes]

theorem leWords_length (xs : List Byte) : (leWords xs).length = xs.length / 4 := by
  fun_induction leWords xs with
  | case1 a b c d r ih => simp [ih]; omega
  | case2 xs h =>
    match xs, h with
    | [], _ | [_], _ | [_, _], _ | [_, _, _], _ => simp
    | a :: b :: c :: d :: r, h => exact absurd rfl (h a b c d r)

theorem digestWords_length (d : BitVec 256) : (digestWords d).length = 8 := by simp [digestWords, leWords_length, natBytes_length]

/-- Words with their tag after them are an authentic image. -/
theorem imageTagOk_tagged (k : BitVec 256) (ws : List Word) : imageTagOk k (ws ++ digestWords (hmac k (wordBytes ws))) = true := by
  simp [imageTagOk, digestWords_length]

end Sys2Proof.Machine
end

