-- ==== Sys2Proof/Laws/Mailbox.lean ====
section
/-! SUPPORT. What a mailbox command row does, said once: taken and carried out, refused, or left in its ring. -/

namespace Sys2Proof.Machine

theorem not_hostOff_of_serving {s : State} (h : s.serving = true) : s.hostOff = false := by
  simp only [State.serving, Bool.and_eq_true, Bool.not_eq_true'] at h
  exact h.2

theorem not_inReset_of_serving {s : State} (h : s.serving = true) : s.inReset = false := by
  have := not_hostOff_of_serving h
  simp only [State.hostOff, Bool.or_eq_false_iff] at this
  exact this.1

/-- An empty ring has room for every entry that can be framed (R58, R71). -/
theorem ringFree_empty (p : BitVec 11) : ringFree p p = 2047 := by
  unfold ringFree
  have := p.isLt
  omega

/-- The host's write of an entry that fits. -/
theorem hostPut_fits (op : Nat) (e : Entry) (s : State) (he : (s.chan e.ch).cmdPi = (s.chan e.ch).cmdCi) (hf : entryLen e ≤ 1024) :
    hostPut op e s =
      ({ s with mem := { s.mem with win := ringPut (cmdRingWord e.ch) (s.chan e.ch).cmdPi.toNat (entryWords op e) s.mem.win } } : State).setChan e.ch
        { s.chan e.ch with cmdPi := (s.chan e.ch).cmdPi + BitVec.ofNat 11 (entryLen e), doorbell := true } := by
  unfold hostPut
  simp only [he, ringFree_empty]
  rw [if_pos (by omega)]

/-- The host's write and the consumer's advance leave what the sequence check reads (R68). -/
theorem hostPut_seq (op : Nat) (e : Entry) (s : State) :
    ((hostPut op e s).chan e.ch).seqFree = (s.chan e.ch).seqFree ∧ ((hostPut op e s).chan e.ch).expectSeq = (s.chan e.ch).expectSeq := by
  unfold hostPut
  dsimp only
  split
  · rw [State.setChan_same]; exact ⟨rfl, rfl⟩
  · exact ⟨rfl, rfl⟩

theorem advanceCi_seq (e : Entry) (s : State) :
    ((advanceCi e s).chan e.ch).seqFree = (s.chan e.ch).seqFree ∧ ((advanceCi e s).chan e.ch).expectSeq = (s.chan e.ch).expectSeq := by
  unfold advanceCi
  rw [State.setChan_same]
  exact ⟨rfl, rfl⟩

theorem hostPut_journal (op : Nat) (e : Entry) (s : State) : journalFull (hostPut op e s) = journalFull s := by
  unfold hostPut
  dsimp only
  split <;> rfl

/-- Admission passes for an entry that is taken. -/
theorem admission_of_taken (c : Card) (e : Entry) (s : State) (h : Taken c e s) (x : State)
    (hc : x.chan e.ch = (advanceCi e (hostPut c.opcode e s)).chan e.ch) (hj : journalFull x = journalFull s) : admission c e x = none := by
  have q1 : (x.chan e.ch).seqFree = (s.chan e.ch).seqFree := by rw [hc, (advanceCi_seq e _).1, (hostPut_seq _ e s).1]
  have q2 : (x.chan e.ch).expectSeq = (s.chan e.ch).expectSeq := by rw [hc, (advanceCi_seq e _).2, (hostPut_seq _ e s).2]
  unfold admission
  rw [if_neg (by simp [h.version]), q1, q2, hj, if_neg, if_neg]
  · rw [h.journal]
    simp
  · intro k
    simp only [Bool.and_eq_true, Bool.not_eq_true', bne_iff_ne, ne_eq] at k
    rcases h.sequence with h1 | h1
    · rw [h1] at k; exact absurd k.1 (by simp)
    · exact k.2 h1

theorem admission_entered (c : Card) (e : Entry) (s : State) (h : Taken c e s) :
    admission c e { advanceCi e (hostPut c.opcode e s) with
      mbx := { (advanceCi e (hostPut c.opcode e s)).mbx with lastServed := e.ch } } = none :=
  admission_of_taken c e s h _ rfl (hostPut_journal c.opcode e s)

/-- A mailbox command row whose entry is taken at once. -/
theorem command_of_taken (c : Card) (e : Entry) (s : State) (h : Taken c e s) : command c e s = .next (takeEntry c e (hostPut c.opcode e s)) := by
  unfold command withUnit
  simp [h.channel, not_hostOff_of_serving h.serves, h.serves, h.empty, unframed, Nat.not_lt.mpr h.framed]

/-- A command that passes every check is carried out by its card (R70). -/
theorem command_accepted {c : Card} {e : Entry} {s : State} (h : Accepted c e s) : command c e s = .next (c.run e (begun c e s)) := by
  rw [command_of_taken c e s h.taken]
  unfold takeEntry
  simp only [admission_entered c e s h.taken]
  have := h.checks
  unfold entered at this
  simp only [this]
  rfl

/-- A command that fails a check is refused with that check's status; it has no effect but what its card says of a refusal (R70). -/
theorem command_refused {c : Card} {e : Entry} {s : State} {f : Fail} (h : Taken c e s) (hf : validate c e (entered c e s) = some f) :
    command c e s = .next (if c.journalled then rejectNow c.opcode e f (c.onFail e f (entered c e s))
      else answerUnjournalled e f (c.onFail e f (entered c e s))) := by
  rw [command_of_taken c e s h]
  unfold takeEntry
  simp only [admission_entered c e s h]
  unfold entered at hf
  simp only [hf]
  rfl

/-- A command that no Conductor serves stands in its ring (R58, R62). -/
theorem command_left (c : Card) (e : Entry) (s : State) (hc : e.ch < 16) (hr : s.hostOff = false) (h : s.serving = false) :
    command c e s = .next (hostPut c.opcode e s) := by
  unfold command withUnit
  simp [hc, hr, h]

/-- Behind entries of its ring a command rings the bell, and what has been rung for is served in its order (R62, R72). -/
theorem command_rung (c : Card) (e : Entry) (s : State) (hc : e.ch < 16) (hs : s.serving = true) (h : (s.chan e.ch).cmdPi ≠ (s.chan e.ch).cmdCi) :
    command c e s = .next (serveRung (hostPut c.opcode e s)) := by
  unfold command withUnit
  simp [hc, not_hostOff_of_serving hs, hs, h]

/-- The first failing check is none exactly when every check holds. -/
theorem firstFail_eq_none (cs : List (Option Fail)) : firstFail cs = none ↔ ∀ x ∈ cs, x = none := by
  induction cs with
  | nil => simp [firstFail]
  | cons x r ih => cases x with
    | none => simpa [firstFail] using ih
    | some f => simp [firstFail]

@[simp] theorem need_eq_none (ok : Bool) (st : Status) : need ok st = none ↔ ok = true := by cases ok <;> simp [need]

-- rings in the Host Window (R57, R58) -----------------------------------------------------------------------------------

theorem wf_ringPut (pos : Nat → Nat) (i : Nat) (ws : List Word) (m : Mem 8) (h : Mem.wf m = true) : Mem.wf (ringPut pos i ws m) = true := by
  induction ws generalizing i m with
  | nil => exact h
  | cons w r ih => exact ih _ _ (Mem.wf_putWord m _ w 0xF h)

theorem read_ringPut_other (pos : Nat → Nat) (i : Nat) (ws : List Word) (m : Mem 8) (a : Nat)
    (h : ∀ k, k < ws.length → a / 4 ≠ pos (i + k)) : Mem.read (ringPut pos i ws m) a = Mem.read m a := by
  induction ws generalizing i m with
  | nil => rfl
  | cons w r ih =>
    have h0 := h 0 (by simp)
    refine (ih (i + 1) _ fun k hk => ?_).trans (Mem.read_putWord_other m (pos i) w 0xF a ?_)
    · have := h (k + 1) (by simpa using hk)
      rwa [show i + 1 + k = i + (k + 1) by omega]
    · simp only [Nat.add_zero] at h0; omega

theorem word_eq_of_read {m n : Mem 8} {i : Nat} (h : ∀ a, a / 4 = i → Mem.read m a = Mem.read n a) : Mem.word m i = Mem.word n i := by
  unfold Mem.word
  rw [h (4 * i) (by omega), h (4 * i + 1) (by omega), h (4 * i + 2) (by omega), h (4 * i + 3) (by omega)]

theorem word_ringPut (pos : Nat → Nat) (i : Nat) (ws : List Word) (m : Mem 8) (h : Mem.wf m = true)
    (inj : ∀ a b, a < ws.length → b < ws.length → pos (i + a) = pos (i + b) → a = b) (k : Nat) (w : Word) (hk : ws[k]? = some w) :
    Mem.word (ringPut pos i ws m) (pos (i + k)) = w := by
  induction ws generalizing i m k with
  | nil => simp at hk
  | cons v r ih =>
    cases k with
    | zero =>
      simp only [List.getElem?_cons_zero, Option.some.injEq] at hk
      subst hk
      refine (word_eq_of_read fun a ha => read_ringPut_other pos (i + 1) r _ a fun k hk hp => ?_).trans (Mem.word_putWord_same m (pos (i + 0)) v h)
      have := inj 0 (k + 1) (by simp) (by simpa using hk) (by rw [← ha, hp, show i + 1 + k = i + (k + 1) by omega])
      omega
    | succ k =>
      have := ih (i + 1) (Mem.putWord m (pos i) v 0xF) (Mem.wf_putWord m _ v 0xF h) (fun a b ha hb e => by
        have := inj (a + 1) (b + 1) (by simpa using ha) (by simpa using hb) (by
          rw [show i + (a + 1) = i + 1 + a by omega, show i + (b + 1) = i + 1 + b by omega]; exact e)
        omega) k (by simpa using hk)
      rwa [show i + 1 + k = i + (k + 1) by omega] at this

theorem cmdRing_inj (ch i n : Nat) (hn : n ≤ 2048) (a b : Nat) (ha : a < n) (hb : b < n) (h : cmdRingWord ch (i + a) = cmdRingWord ch (i + b)) : a = b := by
  unfold cmdRingWord at h; omega
theorem rspRing_inj (ch i n : Nat) (hn : n ≤ 2048) (a b : Nat) (ha : a < n) (hb : b < n) (h : rspRingWord ch (i + a) = rspRingWord ch (i + b)) : a = b := by
  unfold rspRingWord at h; omega

theorem entryWords_length (op : Nat) (e : Entry) : (entryWords op e).length = entryLen e := by
  unfold entryWords entryLen b2n
  cases e.stamped <;> simp <;> omega

end Sys2Proof.Machine
end

