-- ==== Sys2Proof/Laws/PerInstr.lean ====
section
/-! SUPPORT. Per-command lemmas about syntax: a well-formed command that is an instruction of a voice core names a core that exists. -/

namespace Sys2Proof.Laws

/-- A well-formed command that has instruction words names one of the 64 voice cores (R205, R213). -/
def UnitWf.Statement (i : Instr) : Prop := i.wf = true → (encodeCore i).isSome = true → i.coreOf < 64

/-- One unit, as `Instr.wf` checks it. -/
theorem unit_below (n limit : Nat) (h : ([(n, limit)].all fun u => decide (u.1 < u.2)) = true) : n < limit := by simpa using h

theorem UnitWf.timeGet (e : Entry) : UnitWf.Statement (.timeGet e) := fun _ h => absurd h Bool.false_ne_true
theorem UnitWf.timeRateSet (e : Entry) : UnitWf.Statement (.timeRateSet e) := fun _ h => absurd h Bool.false_ne_true
theorem UnitWf.rateChangeComplete : UnitWf.Statement .rateChangeComplete := fun _ h => absurd h Bool.false_ne_true
theorem UnitWf.timeClockSelect (e : Entry) : UnitWf.Statement (.timeClockSelect e) := fun _ h => absurd h Bool.false_ne_true
theorem UnitWf.timeDomainSet (e : Entry) : UnitWf.Statement (.timeDomainSet e) := fun _ h => absurd h Bool.false_ne_true
theorem UnitWf.sysNop (e : Entry) : UnitWf.Statement (.sysNop e) := fun _ h => absurd h Bool.false_ne_true
theorem UnitWf.configCommit (e : Entry) : UnitWf.Statement (.configCommit e) := fun _ h => absurd h Bool.false_ne_true
theorem UnitWf.configDiscard (e : Entry) : UnitWf.Statement (.configDiscard e) := fun _ h => absurd h Bool.false_ne_true
theorem UnitWf.configEpoch (e : Entry) : UnitWf.Statement (.configEpoch e) := fun _ h => absurd h Bool.false_ne_true
theorem UnitWf.journalQuery (e : Entry) : UnitWf.Statement (.journalQuery e) := fun _ h => absurd h Bool.false_ne_true
theorem UnitWf.commandDesync (e : Entry) : UnitWf.Statement (.commandDesync e) := fun _ h => absurd h Bool.false_ne_true
theorem UnitWf.responseReleased (ch : Nat) : UnitWf.Statement (.responseReleased ch) := fun _ h => absurd h Bool.false_ne_true
theorem UnitWf.voiceStart (e : Entry) : UnitWf.Statement (.voiceStart e) := fun _ h => absurd h Bool.false_ne_true
theorem UnitWf.voiceRelease (e : Entry) : UnitWf.Statement (.voiceRelease e) := fun _ h => absurd h Bool.false_ne_true
theorem UnitWf.voiceEnd (e : Entry) : UnitWf.Statement (.voiceEnd e) := fun _ h => absurd h Bool.false_ne_true
theorem UnitWf.voiceQuery (e : Entry) : UnitWf.Statement (.voiceQuery e) := fun _ h => absurd h Bool.false_ne_true
theorem UnitWf.partCounters (e : Entry) : UnitWf.Statement (.partCounters e) := fun _ h => absurd h Bool.false_ne_true
theorem UnitWf.placeLoad (e : Entry) : UnitWf.Statement (.placeLoad e) := fun _ h => absurd h Bool.false_ne_true
theorem UnitWf.decimSet (e : Entry) : UnitWf.Statement (.decimSet e) := fun _ h => absurd h Bool.false_ne_true
theorem UnitWf.decimStatus (e : Entry) : UnitWf.Statement (.decimStatus e) := fun _ h => absurd h Bool.false_ne_true
theorem UnitWf.paramSet (e : Entry) : UnitWf.Statement (.paramSet e) := fun _ h => absurd h Bool.false_ne_true
theorem UnitWf.paramGet (e : Entry) : UnitWf.Statement (.paramGet e) := fun _ h => absurd h Bool.false_ne_true
theorem UnitWf.envWrite (e : Entry) : UnitWf.Statement (.envWrite e) := fun _ h => absurd h Bool.false_ne_true
theorem UnitWf.coefLoad (e : Entry) : UnitWf.Statement (.coefLoad e) := fun _ h => absurd h Bool.false_ne_true
theorem UnitWf.coefSwap (e : Entry) : UnitWf.Statement (.coefSwap e) := fun _ h => absurd h Bool.false_ne_true
theorem UnitWf.coefStatus (e : Entry) : UnitWf.Statement (.coefStatus e) := fun _ h => absurd h Bool.false_ne_true
theorem UnitWf.swapScarfEnd (bank : Nat) : UnitWf.Statement (.swapScarfEnd bank) := fun _ h => absurd h Bool.false_ne_true
theorem UnitWf.vprogLoad (e : Entry) : UnitWf.Statement (.vprogLoad e) := fun _ h => absurd h Bool.false_ne_true
theorem UnitWf.dispatchSet (e : Entry) : UnitWf.Statement (.dispatchSet e) := fun _ h => absurd h Bool.false_ne_true
theorem UnitWf.dispatchStatus (e : Entry) : UnitWf.Statement (.dispatchStatus e) := fun _ h => absurd h Bool.false_ne_true
theorem UnitWf.traceSet (e : Entry) : UnitWf.Statement (.traceSet e) := fun _ h => absurd h Bool.false_ne_true
theorem UnitWf.traceStatus (e : Entry) : UnitWf.Statement (.traceStatus e) := fun _ h => absurd h Bool.false_ne_true
theorem UnitWf.bayForm (e : Entry) : UnitWf.Statement (.bayForm e) := fun _ h => absurd h Bool.false_ne_true
theorem UnitWf.bayMode (e : Entry) : UnitWf.Statement (.bayMode e) := fun _ h => absurd h Bool.false_ne_true
theorem UnitWf.bayModeDrainEnd (bay : Nat) : UnitWf.Statement (.bayModeDrainEnd bay) := fun _ h => absurd h Bool.false_ne_true
theorem UnitWf.bayStatus (e : Entry) : UnitWf.Statement (.bayStatus e) := fun _ h => absurd h Bool.false_ne_true
theorem UnitWf.bayRecover (e : Entry) : UnitWf.Statement (.bayRecover e) := fun _ h => absurd h Bool.false_ne_true
theorem UnitWf.condSwitch (e : Entry) : UnitWf.Statement (.condSwitch e) := fun _ h => absurd h Bool.false_ne_true
theorem UnitWf.plannedSwitch : UnitWf.Statement .plannedSwitch := fun _ h => absurd h Bool.false_ne_true
theorem UnitWf.fwUpdate (e : Entry) : UnitWf.Statement (.fwUpdate e) := fun _ h => absurd h Bool.false_ne_true
theorem UnitWf.sessionList (e : Entry) : UnitWf.Statement (.sessionList e) := fun _ h => absurd h Bool.false_ne_true
theorem UnitWf.sessionQuery (e : Entry) : UnitWf.Statement (.sessionQuery e) := fun _ h => absurd h Bool.false_ne_true
theorem UnitWf.sessionSet (e : Entry) : UnitWf.Statement (.sessionSet e) := fun _ h => absurd h Bool.false_ne_true
theorem UnitWf.sessionClose (e : Entry) : UnitWf.Statement (.sessionClose e) := fun _ h => absurd h Bool.false_ne_true
theorem UnitWf.eventSend (e : Entry) : UnitWf.Statement (.eventSend e) := fun _ h => absurd h Bool.false_ne_true
theorem UnitWf.bankGive (e : Entry) : UnitWf.Statement (.bankGive e) := fun _ h => absurd h Bool.false_ne_true
theorem UnitWf.bankStatus (e : Entry) : UnitWf.Statement (.bankStatus e) := fun _ h => absurd h Bool.false_ne_true
theorem UnitWf.hwRegionSet (e : Entry) : UnitWf.Statement (.hwRegionSet e) := fun _ h => absurd h Bool.false_ne_true
theorem UnitWf.contentPin (e : Entry) : UnitWf.Statement (.contentPin e) := fun _ h => absurd h Bool.false_ne_true
theorem UnitWf.routeSet (e : Entry) : UnitWf.Statement (.routeSet e) := fun _ h => absurd h Bool.false_ne_true
theorem UnitWf.tdmSet (e : Entry) : UnitWf.Statement (.tdmSet e) := fun _ h => absurd h Bool.false_ne_true
theorem UnitWf.audioClockSet (e : Entry) : UnitWf.Statement (.audioClockSet e) := fun _ h => absurd h Bool.false_ne_true
theorem UnitWf.streamSet (e : Entry) : UnitWf.Statement (.streamSet e) := fun _ h => absurd h Bool.false_ne_true
theorem UnitWf.renderSet (e : Entry) : UnitWf.Statement (.renderSet e) := fun _ h => absurd h Bool.false_ne_true
theorem UnitWf.audioStatus (e : Entry) : UnitWf.Statement (.audioStatus e) := fun _ h => absurd h Bool.false_ne_true
theorem UnitWf.dacSet (e : Entry) : UnitWf.Statement (.dacSet e) := fun _ h => absurd h Bool.false_ne_true
theorem UnitWf.dacWrite (e : Entry) : UnitWf.Statement (.dacWrite e) := fun _ h => absurd h Bool.false_ne_true
theorem UnitWf.dacStatus (e : Entry) : UnitWf.Statement (.dacStatus e) := fun _ h => absurd h Bool.false_ne_true
theorem UnitWf.uartSet (e : Entry) : UnitWf.Statement (.uartSet e) := fun _ h => absurd h Bool.false_ne_true
theorem UnitWf.uartSend (e : Entry) : UnitWf.Statement (.uartSend e) := fun _ h => absurd h Bool.false_ne_true
theorem UnitWf.uartRecv (e : Entry) : UnitWf.Statement (.uartRecv e) := fun _ h => absurd h Bool.false_ne_true
theorem UnitWf.timerSet (e : Entry) : UnitWf.Statement (.timerSet e) := fun _ h => absurd h Bool.false_ne_true
theorem UnitWf.timerRead (e : Entry) : UnitWf.Statement (.timerRead e) := fun _ h => absurd h Bool.false_ne_true
theorem UnitWf.pkgWrite (e : Entry) : UnitWf.Statement (.pkgWrite e) := fun _ h => absurd h Bool.false_ne_true
theorem UnitWf.pkgCommit (e : Entry) : UnitWf.Statement (.pkgCommit e) := fun _ h => absurd h Bool.false_ne_true
theorem UnitWf.pkgDrop (e : Entry) : UnitWf.Statement (.pkgDrop e) := fun _ h => absurd h Bool.false_ne_true
theorem UnitWf.vaultStatus (e : Entry) : UnitWf.Statement (.vaultStatus e) := fun _ h => absurd h Bool.false_ne_true
theorem UnitWf.vaultKeyWrap (e : Entry) : UnitWf.Statement (.vaultKeyWrap e) := fun _ h => absurd h Bool.false_ne_true
theorem UnitWf.vaultKeyLoad (e : Entry) : UnitWf.Statement (.vaultKeyLoad e) := fun _ h => absurd h Bool.false_ne_true
theorem UnitWf.tamperSet (e : Entry) : UnitWf.Statement (.tamperSet e) := fun _ h => absurd h Bool.false_ne_true
theorem UnitWf.tamperClear (e : Entry) : UnitWf.Statement (.tamperClear e) := fun _ h => absurd h Bool.false_ne_true
theorem UnitWf.lifeAdvance (e : Entry) : UnitWf.Statement (.lifeAdvance e) := fun _ h => absurd h Bool.false_ne_true
theorem UnitWf.healthStatus (e : Entry) : UnitWf.Statement (.healthStatus e) := fun _ h => absurd h Bool.false_ne_true
theorem UnitWf.healthLedger (e : Entry) : UnitWf.Statement (.healthLedger e) := fun _ h => absurd h Bool.false_ne_true
theorem UnitWf.healthSet (e : Entry) : UnitWf.Statement (.healthSet e) := fun _ h => absurd h Bool.false_ne_true
theorem UnitWf.sysReset (e : Entry) : UnitWf.Statement (.sysReset e) := fun _ h => absurd h Bool.false_ne_true
theorem UnitWf.sysPower (e : Entry) : UnitWf.Statement (.sysPower e) := fun _ h => absurd h Bool.false_ne_true
theorem UnitWf.registerWrite (sp : RegSpace) (off : BitVec 16) (v : Word) : UnitWf.Statement (.registerWrite sp off v) := fun _ h => absurd h Bool.false_ne_true
theorem UnitWf.hwDbCmd (v : Word) : UnitWf.Statement (.hwDbCmd v) := fun _ h => absurd h Bool.false_ne_true
theorem UnitWf.hwMbxReset (v : Word) : UnitWf.Statement (.hwMbxReset v) := fun _ h => absurd h Bool.false_ne_true
theorem UnitWf.tmDtimeLo : UnitWf.Statement .tmDtimeLo := fun _ h => absurd h Bool.false_ne_true
theorem UnitWf.setAliasWrite (who : Initiator) (bank : Nat) (word : Nat) (v : Word) (strobes : BitVec 4) : UnitWf.Statement (.setAliasWrite who bank word v strobes) := fun _ h => absurd h Bool.false_ne_true
theorem UnitWf.clearAliasWrite (who : Initiator) (bank : Nat) (word : Nat) (v : Word) (strobes : BitVec 4) : UnitWf.Statement (.clearAliasWrite who bank word v strobes) := fun _ h => absurd h Bool.false_ne_true
theorem UnitWf.soundStoreAccess (bank : Nat) (reqs : List BankReq) : UnitWf.Statement (.soundStoreAccess bank reqs) := fun _ h => absurd h Bool.false_ne_true
theorem UnitWf.hostWindowAccess (inner : Option WordAcc) (outer : Option WordAcc) : UnitWf.Statement (.hostWindowAccess inner outer) := fun _ h => absurd h Bool.false_ne_true
theorem UnitWf.lowerHalfRead (word : Nat) (inner : Option WordAcc) : UnitWf.Statement (.lowerHalfRead word inner) := fun _ h => absurd h Bool.false_ne_true
theorem UnitWf.upperHalfRead : UnitWf.Statement .upperHalfRead := fun _ h => absurd h Bool.false_ne_true
theorem UnitWf.lowerHalfWrite (word : Nat) (v : BitVec 16) : UnitWf.Statement (.lowerHalfWrite word v) := fun _ h => absurd h Bool.false_ne_true
theorem UnitWf.upperHalfWrite (word : Nat) (v : BitVec 16) (inner : Option WordAcc) : UnitWf.Statement (.upperHalfWrite word v inner) := fun _ h => absurd h Bool.false_ne_true
theorem UnitWf.qspiRead (word : Nat) (n : Nat) (inner : List WordAcc) : UnitWf.Statement (.qspiRead word n inner) := fun _ h => absurd h Bool.false_ne_true
theorem UnitWf.qspiWrite (word : Nat) (ws : List Word) (inner : List WordAcc) : UnitWf.Statement (.qspiWrite word ws inner) := fun _ h => absurd h Bool.false_ne_true
theorem UnitWf.qspiUnknownCommand (cmd : Byte) : UnitWf.Statement (.qspiUnknownCommand cmd) := fun _ h => absurd h Bool.false_ne_true
theorem UnitWf.uartHold (u : Nat) : UnitWf.Statement (.uartHold u) := fun _ h => absurd h Bool.false_ne_true
theorem UnitWf.tmrCapq (host : Bool) (t : Nat) : UnitWf.Statement (.tmrCapq host t) := fun _ h => absurd h Bool.false_ne_true
theorem UnitWf.dspAsk (who : Nat) : UnitWf.Statement (.dspAsk who) := fun _ h => absurd h Bool.false_ne_true
theorem UnitWf.dspPostGo (who : Nat) : UnitWf.Statement (.dspPostGo who) := fun _ h => absurd h Bool.false_ne_true
theorem UnitWf.stallTimeout (who : Nat) : UnitWf.Statement (.stallTimeout who) := fun _ h => absurd h Bool.false_ne_true
theorem UnitWf.dspFlag (who : Nat) (v : Word) : UnitWf.Statement (.dspFlag who v) := fun _ h => absurd h Bool.false_ne_true
theorem UnitWf.sysBootCtl (v : Word) : UnitWf.Statement (.sysBootCtl v) := fun _ h => absurd h Bool.false_ne_true
theorem UnitWf.hold (k : Nat) (pt : Ports) : UnitWf.Statement (.hold k pt) := fun h _ => unit_below k 64 h
theorem UnitWf.add (k : Nat) (wd : BitVec 2) (src : ArithSrc) (pt : Ports) : UnitWf.Statement (.add k wd src pt) := fun h _ => unit_below k 64 h
theorem UnitWf.sub (k : Nat) (wd : BitVec 2) (src : ArithSrc) (pt : Ports) : UnitWf.Statement (.sub k wd src pt) := fun h _ => unit_below k 64 h
theorem UnitWf.cmp (k : Nat) (wd : BitVec 2) (src : ArithSrc) (pt : Ports) : UnitWf.Statement (.cmp k wd src pt) := fun h _ => unit_below k 64 h
theorem UnitWf.neg (k : Nat) (wd : BitVec 2) (src : ArithSrc) (pt : Ports) : UnitWf.Statement (.neg k wd src pt) := fun h _ => unit_below k 64 h
theorem UnitWf.abs (k : Nat) (wd : BitVec 2) (src : ArithSrc) (pt : Ports) : UnitWf.Statement (.abs k wd src pt) := fun h _ => unit_below k 64 h
theorem UnitWf.clr (k : Nat) (wd : BitVec 2) (src : ArithSrc) (pt : Ports) : UnitWf.Statement (.clr k wd src pt) := fun h _ => unit_below k 64 h
theorem UnitWf.copy (k : Nat) (wd : BitVec 2) (src : ArithSrc) (pt : Ports) : UnitWf.Statement (.copy k wd src pt) := fun h _ => unit_below k 64 h
theorem UnitWf.andW (k : Nat) (wd : BitVec 2) (src : ArithSrc) (pt : Ports) : UnitWf.Statement (.andW k wd src pt) := fun h _ => unit_below k 64 h
theorem UnitWf.orW (k : Nat) (wd : BitVec 2) (src : ArithSrc) (pt : Ports) : UnitWf.Statement (.orW k wd src pt) := fun h _ => unit_below k 64 h
theorem UnitWf.xorW (k : Nat) (wd : BitVec 2) (src : ArithSrc) (pt : Ports) : UnitWf.Statement (.xorW k wd src pt) := fun h _ => unit_below k 64 h
theorem UnitWf.shl1 (k : Nat) (wd : BitVec 2) (src : ArithSrc) (pt : Ports) : UnitWf.Statement (.shl1 k wd src pt) := fun h _ => unit_below k 64 h
theorem UnitWf.shr1 (k : Nat) (wd : BitVec 2) (src : ArithSrc) (pt : Ports) : UnitWf.Statement (.shr1 k wd src pt) := fun h _ => unit_below k 64 h
theorem UnitWf.rndf (k : Nat) (wd : BitVec 2) (src : ArithSrc) (pt : Ports) : UnitWf.Statement (.rndf k wd src pt) := fun h _ => unit_below k 64 h
theorem UnitWf.satf (k : Nat) (wd : BitVec 2) (src : ArithSrc) (pt : Ports) : UnitWf.Statement (.satf k wd src pt) := fun h _ => unit_below k 64 h
theorem UnitWf.mac (k : Nat) (wd : BitVec 2) (sign : Bool) (ui : BitVec 1) (vj : BitVec 2) (pt : Ports) : UnitWf.Statement (.mac k wd sign ui vj pt) := fun h _ => unit_below k 64 h
theorem UnitWf.mul (k : Nat) (wd : BitVec 2) (sign : Bool) (ui : BitVec 1) (vj : BitVec 2) (pt : Ports) : UnitWf.Statement (.mul k wd sign ui vj pt) := fun h _ => unit_below k 64 h
theorem UnitWf.qmac (k : Nat) (sign : Bool) (z : Bool) (ui : BitVec 2) (quad : BitVec 1) (pt : Ports) : UnitWf.Statement (.qmac k sign z ui quad pt) := fun h _ => unit_below k 64 h
theorem UnitWf.qmacx (k : Nat) (sign : Bool) (z : Bool) (ui : BitVec 2) (quad : BitVec 1) (pt : Ports) : UnitWf.Statement (.qmacx k sign z ui quad pt) := fun h _ => unit_below k 64 h
theorem UnitWf.xmac (k : Nat) (sign : Bool) (z : Bool) (pt : Ports) : UnitWf.Statement (.xmac k sign z pt) := fun h _ => unit_below k 64 h
theorem UnitWf.min (k : Nat) (wd : BitVec 2) (ui : BitVec 2) (pt : Ports) : UnitWf.Statement (.min k wd ui pt) := fun h _ => unit_below k 64 h
theorem UnitWf.max (k : Nat) (wd : BitVec 2) (ui : BitVec 2) (pt : Ports) : UnitWf.Statement (.max k wd ui pt) := fun h _ => unit_below k 64 h
theorem UnitWf.minuw (k : Nat) (wd : BitVec 2) (ui : BitVec 2) (pt : Ports) : UnitWf.Statement (.minuw k wd ui pt) := fun h _ => unit_below k 64 h
theorem UnitWf.maxuw (k : Nat) (wd : BitVec 2) (ui : BitVec 2) (pt : Ports) : UnitWf.Statement (.maxuw k wd ui pt) := fun h _ => unit_below k 64 h
theorem UnitWf.addc (k : Nat) (wd : BitVec 2) (pt : Ports) : UnitWf.Statement (.addc k wd pt) := fun h _ => unit_below k 64 h
theorem UnitWf.subc (k : Nat) (wd : BitVec 2) (pt : Ports) : UnitWf.Statement (.subc k wd pt) := fun h _ => unit_below k 64 h
theorem UnitWf.mulsu (k : Nat) (wd : BitVec 2) (ui : BitVec 2) (pt : Ports) : UnitWf.Statement (.mulsu k wd ui pt) := fun h _ => unit_below k 64 h
theorem UnitWf.muluu (k : Nat) (wd : BitVec 2) (ui : BitVec 2) (pt : Ports) : UnitWf.Statement (.muluu k wd ui pt) := fun h _ => unit_below k 64 h
theorem UnitWf.move (k : Nat) (dst : RegCode) (src : RegCode) : UnitWf.Statement (.move k dst src) := fun h _ => unit_below k 64 h
theorem UnitWf.ldk (k : Nat) (dst : RegCode) (c : Word24) : UnitWf.Statement (.ldk k dst c) := fun h _ => unit_below k 64 h
theorem UnitWf.movm (k : Nat) (reg : RegCode) (store : Bool) (y : Bool) (mode : MovMode) : UnitWf.Statement (.movm k reg store y mode) := fun h _ => unit_below k 64 h
theorem UnitWf.nop (k : Nat) : UnitWf.Statement (.nop k) := fun h _ => unit_below k 64 h
theorem UnitWf.endTask (k : Nat) : UnitWf.Statement (.endTask k) := fun h _ => unit_below k 64 h
theorem UnitWf.fwait (k : Nat) : UnitWf.Statement (.fwait k) := fun h _ => unit_below k 64 h
theorem UnitWf.jmp (k : Nat) (target : BitVec 13) : UnitWf.Statement (.jmp k target) := fun h _ => unit_below k 64 h
theorem UnitWf.call (k : Nat) (target : BitVec 13) : UnitWf.Statement (.call k target) := fun h _ => unit_below k 64 h
theorem UnitWf.ret (k : Nat) : UnitWf.Statement (.ret k) := fun h _ => unit_below k 64 h
theorem UnitWf.brCc (k : Nat) (cond : BitVec 4) (off : BitVec 12) : UnitWf.Statement (.brCc k cond off) := fun h _ => unit_below k 64 h
theorem UnitWf.loop (k : Nat) (count : Byte) (body : Byte) : UnitWf.Statement (.loop k count body) := fun h _ => unit_below k 64 h
theorem UnitWf.loopv (k : Nat) (ui : BitVec 2) (body : Byte) : UnitWf.Statement (.loopv k ui body) := fun h _ => unit_below k 64 h
theorem UnitWf.leave (k : Nat) : UnitWf.Statement (.leave k) := fun h _ => unit_below k 64 h
theorem UnitWf.rpt (k : Nat) (n : BitVec 7) : UnitWf.Statement (.rpt k n) := fun h _ => unit_below k 64 h
theorem UnitWf.fetch (k : Nat) (y : Bool) (ptr : BitVec 3) (ui : BitVec 2) (words : BitVec 6) : UnitWf.Statement (.fetch k y ptr ui words) := fun h _ => unit_below k 64 h
theorem UnitWf.fetchComplete (k : Nat) (dbe : List Nat) : UnitWf.Statement (.fetchComplete k dbe) := fun _ h => absurd h Bool.false_ne_true
theorem UnitWf.fifthFetchStart (k : Nat) : UnitWf.Statement (.fifthFetchStart k) := fun _ h => absurd h Bool.false_ne_true
theorem UnitWf.padd (k : Nat) (ptr : BitVec 3) (imm : BitVec 12) : UnitWf.Statement (.padd k ptr imm) := fun h _ => unit_below k 64 h
theorem UnitWf.sra (k : Nat) (wd : BitVec 2) (sh : BitVec 6) : UnitWf.Statement (.sra k wd sh) := fun h _ => unit_below k 64 h
theorem UnitWf.sla (k : Nat) (wd : BitVec 2) (sh : BitVec 6) : UnitWf.Statement (.sla k wd sh) := fun h _ => unit_below k 64 h
theorem UnitWf.srl (k : Nat) (wd : BitVec 2) (sh : BitVec 6) : UnitWf.Statement (.srl k wd sh) := fun h _ => unit_below k 64 h
theorem UnitWf.cls (k : Nat) (wd : BitVec 2) : UnitWf.Statement (.cls k wd) := fun h _ => unit_below k 64 h
theorem UnitWf.dstep (k : Nat) (wd : BitVec 2) (ui : BitVec 2) : UnitWf.Statement (.dstep k wd ui) := fun h _ => unit_below k 64 h
theorem UnitWf.clrcnt (k : Nat) : UnitWf.Statement (.clrcnt k) := fun h _ => unit_below k 64 h
theorem UnitWf.reservedEncoding (k : Nat) : UnitWf.Statement (.reservedEncoding k) := fun _ h => absurd h Bool.false_ne_true
theorem UnitWf.taskDispatch (k : Nat) : UnitWf.Statement (.taskDispatch k) := fun _ h => absurd h Bool.false_ne_true
theorem UnitWf.preemption (k : Nat) : UnitWf.Statement (.preemption k) := fun _ h => absurd h Bool.false_ne_true
theorem UnitWf.localMemoryError (k : Nat) (m : LocalMem) (addr : Nat) (double : Bool) : UnitWf.Statement (.localMemoryError k m addr double) := fun _ h => absurd h Bool.false_ne_true
theorem UnitWf.frameTick (check : CondCheck) (inputs : Inputs) (slips : List Slip) : UnitWf.Statement (.frameTick check inputs slips) := fun _ h => absurd h Bool.false_ne_true
theorem UnitWf.watchdogTakeover : UnitWf.Statement .watchdogTakeover := fun _ h => absurd h Bool.false_ne_true
theorem UnitWf.conductorFailover : UnitWf.Statement .conductorFailover := fun _ h => absurd h Bool.false_ne_true
theorem UnitWf.conductorRestart : UnitWf.Statement .conductorRestart := fun _ h => absurd h Bool.false_ne_true
theorem UnitWf.takeControlBack : UnitWf.Statement .takeControlBack := fun _ h => absurd h Bool.false_ne_true
theorem UnitWf.oscillatorBlockFlag (course : Nat) (pos : Nat) : UnitWf.Statement (.oscillatorBlockFlag course pos) := fun _ h => absurd h Bool.false_ne_true
theorem UnitWf.decimatedBlockFlag (course : Nat) (pos : Nat) : UnitWf.Statement (.decimatedBlockFlag course pos) := fun _ h => absurd h Bool.false_ne_true
theorem UnitWf.inputBufferCopy (slot : Nat) : UnitWf.Statement (.inputBufferCopy slot) := fun _ h => absurd h Bool.false_ne_true
theorem UnitWf.onset (slot : Nat) : UnitWf.Statement (.onset slot) := fun _ h => absurd h Bool.false_ne_true
theorem UnitWf.envelopeSegmentEnd (slot : Nat) (env : Nat) : UnitWf.Statement (.envelopeSegmentEnd slot env) := fun _ h => absurd h Bool.false_ne_true
theorem UnitWf.scarfEnd (slot : Nat) : UnitWf.Statement (.scarfEnd slot) := fun _ h => absurd h Bool.false_ne_true
theorem UnitWf.quarantineEnd (slot : Nat) : UnitWf.Statement (.quarantineEnd slot) := fun _ h => absurd h Bool.false_ne_true
theorem UnitWf.groupRelease (g : Nat) : UnitWf.Statement (.groupRelease g) := fun _ h => absurd h Bool.false_ne_true
theorem UnitWf.templateResident (k : Nat) (template : Nat) : UnitWf.Statement (.templateResident k template) := fun _ h => absurd h Bool.false_ne_true
theorem UnitWf.contentResident (bay : Nat) (object : Nat) : UnitWf.Statement (.contentResident bay object) := fun _ h => absurd h Bool.false_ne_true
theorem UnitWf.promotion : UnitWf.Statement .promotion := fun _ h => absurd h Bool.false_ne_true
theorem UnitWf.kerfStart : UnitWf.Statement .kerfStart := fun _ h => absurd h Bool.false_ne_true
theorem UnitWf.frameCheck (bay : Nat) (fails : List Nat) : UnitWf.Statement (.frameCheck bay fails) := fun _ h => absurd h Bool.false_ne_true
theorem UnitWf.frameCheckDecision (bay : Nat) : UnitWf.Statement (.frameCheckDecision bay) := fun _ h => absurd h Bool.false_ne_true
theorem UnitWf.outputPathFault (bay : Nat) : UnitWf.Statement (.outputPathFault bay) := fun _ h => absurd h Bool.false_ne_true
theorem UnitWf.residueCheckFailure (course : Nat) (lane : Nat) : UnitWf.Statement (.residueCheckFailure course lane) := fun _ h => absurd h Bool.false_ne_true
theorem UnitWf.resynchronisationEnd (bay : Nat) : UnitWf.Statement (.resynchronisationEnd bay) := fun _ h => absurd h Bool.false_ne_true
theorem UnitWf.selfTestEnd (bay : Nat) (pass : Bool) (failed : List Nat) : UnitWf.Statement (.selfTestEnd bay pass failed) := fun _ h => absurd h Bool.false_ne_true
theorem UnitWf.returnHome (bay : Nat) : UnitWf.Statement (.returnHome bay) := fun _ h => absurd h Bool.false_ne_true
theorem UnitWf.renderFrameStart (bay : Nat) : UnitWf.Statement (.renderFrameStart bay) := fun _ h => absurd h Bool.false_ne_true
theorem UnitWf.renderFrameEnd (bay : Nat) : UnitWf.Statement (.renderFrameEnd bay) := fun _ h => absurd h Bool.false_ne_true
theorem UnitWf.networkMidiPacket (sid : Nat) (umpSeq : BitVec 16) (r : BitVec 64) (ps : List Ump) : UnitWf.Statement (.networkMidiPacket sid umpSeq r ps) := fun _ h => absurd h Bool.false_ne_true
theorem UnitWf.invitation (port : Nat) (identity : BitVec 64) (auth : Bool) : UnitWf.Statement (.invitation port identity auth) := fun _ h => absurd h Bool.false_ne_true
theorem UnitWf.bye (sid : Nat) : UnitWf.Statement (.bye sid) := fun _ h => absurd h Bool.false_ne_true
theorem UnitWf.jrClock (sid : Nat) (r : BitVec 64) (c : BitVec 16) : UnitWf.Statement (.jrClock sid r c) := fun _ h => absurd h Bool.false_ne_true
theorem UnitWf.endpointDiscovery (sid : Nat) : UnitWf.Statement (.endpointDiscovery sid) := fun _ h => absurd h Bool.false_ne_true
theorem UnitWf.streamConfigurationRequest (sid : Nat) (midi2 : Bool) : UnitWf.Statement (.streamConfigurationRequest sid midi2) := fun _ h => absurd h Bool.false_ne_true
theorem UnitWf.functionBlockDiscovery (sid : Nat) : UnitWf.Statement (.functionBlockDiscovery sid) := fun _ h => absurd h Bool.false_ne_true
theorem UnitWf.ping (sid : Nat) : UnitWf.Statement (.ping sid) := fun _ h => absurd h Bool.false_ne_true
theorem UnitWf.keepaliveTimeout (sid : Nat) : UnitWf.Statement (.keepaliveTimeout sid) := fun _ h => absurd h Bool.false_ne_true
theorem UnitWf.intakeFifoExit : UnitWf.Statement .intakeFifoExit := fun _ h => absurd h Bool.false_ne_true
theorem UnitWf.uartCharacterComplete (u : Nat) (line : CharLine) (parity : Bool) (stop : Bool) (r : BitVec 64) : UnitWf.Statement (.uartCharacterComplete u line parity stop r) := fun _ h => absurd h Bool.false_ne_true
theorem UnitWf.rawCharacterTaken (u : Nat) : UnitWf.Statement (.rawCharacterTaken u) := fun _ h => absurd h Bool.false_ne_true
theorem UnitWf.uartStampedSend (j : Word) : UnitWf.Statement (.uartStampedSend j) := fun _ h => absurd h Bool.false_ne_true
theorem UnitWf.gptpEventMessage (dom : Nat) (port : Nat) (m : PtpEvent) (entry : BitVec 64) : UnitWf.Statement (.gptpEventMessage dom port m entry) := fun _ h => absurd h Bool.false_ne_true
theorem UnitWf.domainLock (dom : Nat) (offset : BitVec 64) (ratePpt : Int) : UnitWf.Statement (.domainLock dom offset ratePpt) := fun _ h => absurd h Bool.false_ne_true
theorem UnitWf.domainUnlock (dom : Nat) : UnitWf.Statement (.domainUnlock dom) := fun _ h => absurd h Bool.false_ne_true
theorem UnitWf.rampEnd : UnitWf.Statement .rampEnd := fun _ h => absurd h Bool.false_ne_true
theorem UnitWf.frameLaunch (port : Nat) (classB : Bool) : UnitWf.Statement (.frameLaunch port classB) := fun _ h => absurd h Bool.false_ne_true
theorem UnitWf.listenerPacket (t : Nat) (streamId : BitVec 64) (format : BitVec 64) (seq : Byte) (ts : Word) (samples : List (List Word24)) : UnitWf.Statement (.listenerPacket t streamId format seq ts samples) := fun _ h => absurd h Bool.false_ne_true
theorem UnitWf.acmpConnect (t : Nat) (streamId : BitVec 64) : UnitWf.Statement (.acmpConnect t streamId) := fun _ h => absurd h Bool.false_ne_true
theorem UnitWf.acmpDisconnect (t : Nat) : UnitWf.Statement (.acmpDisconnect t) := fun _ h => absurd h Bool.false_ne_true
theorem UnitWf.entityAvailable (ctl : BitVec 64) : UnitWf.Statement (.entityAvailable ctl) := fun _ h => absurd h Bool.false_ne_true
theorem UnitWf.readDescriptor (ctl : BitVec 64) (type : Nat) (index : Nat) : UnitWf.Statement (.readDescriptor ctl type index) := fun _ h => absurd h Bool.false_ne_true
theorem UnitWf.acquireEntity (ctl : BitVec 64) (release : Bool) : UnitWf.Statement (.acquireEntity ctl release) := fun _ h => absurd h Bool.false_ne_true
theorem UnitWf.lockEntity (ctl : BitVec 64) (unlock : Bool) : UnitWf.Statement (.lockEntity ctl unlock) := fun _ h => absurd h Bool.false_ne_true
theorem UnitWf.getStreamFormat (ctl : BitVec 64) (t : Nat) : UnitWf.Statement (.getStreamFormat ctl t) := fun _ h => absurd h Bool.false_ne_true
theorem UnitWf.setStreamFormat (ctl : BitVec 64) (t : Nat) (format : BitVec 64) : UnitWf.Statement (.setStreamFormat ctl t format) := fun _ h => absurd h Bool.false_ne_true
theorem UnitWf.getStreamInfo (ctl : BitVec 64) (t : Nat) : UnitWf.Statement (.getStreamInfo ctl t) := fun _ h => absurd h Bool.false_ne_true
theorem UnitWf.getCounters (ctl : BitVec 64) (t : Nat) : UnitWf.Statement (.getCounters ctl t) := fun _ h => absurd h Bool.false_ne_true
theorem UnitWf.listenerReady (t : Nat) : UnitWf.Statement (.listenerReady t) := fun _ h => absurd h Bool.false_ne_true
theorem UnitWf.referenceLost : UnitWf.Statement .referenceLost := fun _ h => absurd h Bool.false_ne_true
theorem UnitWf.referenceReturn : UnitWf.Statement .referenceReturn := fun _ h => absurd h Bool.false_ne_true
theorem UnitWf.bankRetention (b : Nat) : UnitWf.Statement (.bankRetention b) := fun _ h => absurd h Bool.false_ne_true
theorem UnitWf.bankWake (b : Nat) : UnitWf.Statement (.bankWake b) := fun _ h => absurd h Bool.false_ne_true
theorem UnitWf.zeroiseDone (b : Nat) : UnitWf.Statement (.zeroiseDone b) := fun _ h => absurd h Bool.false_ne_true
theorem UnitWf.cvWriteEffect : UnitWf.Statement .cvWriteEffect := fun _ h => absurd h Bool.false_ne_true
theorem UnitWf.dacShort (d : Nat) : UnitWf.Statement (.dacShort d) := fun _ h => absurd h Bool.false_ne_true
theorem UnitWf.shortToFault (d : Nat) : UnitWf.Statement (.shortToFault d) := fun _ h => absurd h Bool.false_ne_true
theorem UnitWf.vddaDacLow : UnitWf.Statement .vddaDacLow := fun _ h => absurd h Bool.false_ne_true
theorem UnitWf.dacClockAbsent : UnitWf.Statement .dacClockAbsent := fun _ h => absurd h Bool.false_ne_true
theorem UnitWf.rampComplete (d : Nat) : UnitWf.Statement (.rampComplete d) := fun _ h => absurd h Bool.false_ne_true
theorem UnitWf.settleEnd (d : Nat) : UnitWf.Statement (.settleEnd d) := fun _ h => absurd h Bool.false_ne_true
theorem UnitWf.recalibrationPass (d : Nat) : UnitWf.Statement (.recalibrationPass d) := fun _ h => absurd h Bool.false_ne_true
theorem UnitWf.periodEvent (t : Nat) : UnitWf.Statement (.periodEvent t) := fun _ h => absurd h Bool.false_ne_true
theorem UnitWf.capture (t : Nat) (rising : Bool) : UnitWf.Statement (.capture t rising) := fun _ h => absurd h Bool.false_ne_true
theorem UnitWf.healthPeriodEnd (r : HealthReading) (vdd : List Nat) (off25 : List Bool) (ack : Bool) : UnitWf.Statement (.healthPeriodEnd r vdd off25 ack) := fun _ h => absurd h Bool.false_ne_true
theorem UnitWf.pmbusRetry (ack : Bool) : UnitWf.Statement (.pmbusRetry ack) := fun _ h => absurd h Bool.false_ne_true
theorem UnitWf.courseClockAlarm (alarm : ClockAlarm) : UnitWf.Statement (.courseClockAlarm alarm) := fun _ h => absurd h Bool.false_ne_true
theorem UnitWf.courseSupplyAlarm (course : Nat) : UnitWf.Statement (.courseSupplyAlarm course) := fun _ h => absurd h Bool.false_ne_true
theorem UnitWf.ledgerWrite : UnitWf.Statement .ledgerWrite := fun _ h => absurd h Bool.false_ne_true
theorem UnitWf.serviceCycle (course : Nat) (res : ServiceResult) : UnitWf.Statement (.serviceCycle course res) := fun _ h => absurd h Bool.false_ne_true
theorem UnitWf.stale (course : Nat) : UnitWf.Statement (.stale course) := fun _ h => absurd h Bool.false_ne_true
theorem UnitWf.vmaxStep : UnitWf.Statement .vmaxStep := fun _ h => absurd h Bool.false_ne_true
theorem UnitWf.tamperRaised (seen : TamperSeen) (mainPower : Bool) (time : BitVec 64) : UnitWf.Statement (.tamperRaised seen mainPower time) := fun _ h => absurd h Bool.false_ne_true
theorem UnitWf.powerOnReset : UnitWf.Statement .powerOnReset := fun _ h => absurd h Bool.false_ne_true
theorem UnitWf.porN (low : Bool) : UnitWf.Statement (.porN low) := fun _ h => absurd h Bool.false_ne_true
theorem UnitWf.wrstN (low : Bool) : UnitWf.Statement (.wrstN low) := fun _ h => absurd h Bool.false_ne_true
theorem UnitWf.deviceWatchdog : UnitWf.Statement .deviceWatchdog := fun _ h => absurd h Bool.false_ne_true
theorem UnitWf.pcieHotReset : UnitWf.Statement .pcieHotReset := fun _ h => absurd h Bool.false_ne_true
theorem UnitWf.bootPhase (ev : BootEvent) : UnitWf.Statement (.bootPhase ev) := fun _ h => absurd h Bool.false_ne_true
theorem UnitWf.ready : UnitWf.Statement .ready := fun _ h => absurd h Bool.false_ne_true
theorem UnitWf.wake (sources : Byte) (n : Nat) : UnitWf.Statement (.wake sources n) := fun _ h => absurd h Bool.false_ne_true
theorem UnitWf.stepEffectsComplete (j : Word) (err : BitVec 16) (data : List Word) : UnitWf.Statement (.stepEffectsComplete j err data) := fun _ h => absurd h Bool.false_ne_true
theorem UnitWf.standbyReady : UnitWf.Statement .standbyReady := fun _ h => absurd h Bool.false_ne_true
theorem UnitWf.restartAloneDone : UnitWf.Statement .restartAloneDone := fun _ h => absurd h Bool.false_ne_true
theorem UnitWf.plannedSwitchTimeout : UnitWf.Statement .plannedSwitchTimeout := fun _ h => absurd h Bool.false_ne_true
theorem UnitWf.audioPllLock : UnitWf.Statement .audioPllLock := fun _ h => absurd h Bool.false_ne_true
theorem UnitWf.startBit (u : Nat) : UnitWf.Statement (.startBit u) := fun _ h => absurd h Bool.false_ne_true
theorem UnitWf.receiverReturnsToIdle (u : Nat) : UnitWf.Statement (.receiverReturnsToIdle u) := fun _ h => absurd h Bool.false_ne_true
theorem UnitWf.lineIdleTenBitTimes (u : Nat) : UnitWf.Statement (.lineIdleTenBitTimes u) := fun _ h => absurd h Bool.false_ne_true
theorem UnitWf.uartCharacterSent (u : Nat) : UnitWf.Statement (.uartCharacterSent u) := fun _ h => absurd h Bool.false_ne_true
theorem UnitWf.dacShortEnd (d : Nat) : UnitWf.Statement (.dacShortEnd d) := fun _ h => absurd h Bool.false_ne_true
theorem UnitWf.tamperSourceInactive (source : Nat) : UnitWf.Statement (.tamperSourceInactive source) := fun _ h => absurd h Bool.false_ne_true
theorem UnitWf.listenerReadyWithdrawn (t : Nat) : UnitWf.Statement (.listenerReadyWithdrawn t) := fun _ h => absurd h Bool.false_ne_true
theorem UnitWf.acmpGetState (t : Nat) : UnitWf.Statement (.acmpGetState t) := fun _ h => absurd h Bool.false_ne_true
theorem UnitWf.adpDiscover : UnitWf.Statement .adpDiscover := fun _ h => absurd h Bool.false_ne_true
theorem UnitWf.announce (dom : Nat) (vec : List Word) : UnitWf.Statement (.announce dom vec) := fun _ h => absurd h Bool.false_ne_true
theorem UnitWf.followUp (dom : Nat) (origin : BitVec 64) : UnitWf.Statement (.followUp dom origin) := fun _ h => absurd h Bool.false_ne_true
theorem UnitWf.pdelayRespFollowUp (dom : Nat) (delay : Word) : UnitWf.Statement (.pdelayRespFollowUp dom delay) := fun _ h => absurd h Bool.false_ne_true
theorem UnitWf.signaling (dom : Nat) (interval : Byte) : UnitWf.Statement (.signaling dom interval) := fun _ h => absurd h Bool.false_ne_true
theorem UnitWf.peerDelayInterval (dom : Nat) : UnitWf.Statement (.peerDelayInterval dom) := fun _ h => absurd h Bool.false_ne_true

end Sys2Proof.Laws
end

