-- ==== Sys2Proof/Tests/Slice0.lean ====
section
/-! SUPPORT. Tests: ill-formed commands that the check refuses, small steps whose results the spec gives, and for every statement with
hypotheses states and operands that meet them. -/

namespace Sys2Proof.Tests

open Sys2Proof Sys2Proof.Machine

set_option Elab.async false

-- small states ---------------------------------------------------------------------------------------------------------------------

/-- After start-up: phase 7, the tick runs (R473). -/
def ready : State := { State.reset with power := { State.reset.power with phase := 7 }, time := { State.reset.time with ticking := true } }

/-- Bay 0 in a mode, with an image of one template. -/
def inMode (m : Mode) : State :=
  ready.setBay 0 { ready.bay 0 with mode := m, coefArea := true, image := some { templates := [{}] } }

/-- A voice of generation 1 in slot 0 of Bay 0. -/
def aVoice (st : VState) : State := (inMode .play).setVoice 0 { gen := 1, st := st, inUse := true, core := 3, ctx := 2 }

/-- Bay 0 in control of a mirrored pair with Bay 1. -/
def paired : State :=
  let s := ready
  (s.setBay 0 { s.bay 0 with count := 4, mode := .play, role := 1, partner := 1, lockstep := true, coefArea := true, image := some {} }).setBay 1
    { count := 4, first := 4, mode := .mirror, role := 2, partner := 0, lockstep := true, coefArea := true, image := some {} }

/-- The standby Conductor mirrors the active one (R287). -/
def mirrored : State := { ready with mbx := { ready.mbx with standbyReady := true } }

/-- Session 0 is open. -/
def oneSession : State := ready.setSession 0 { isOpen := true, slot := 0 }

/-- Words at the foot of the host's data region (R335). -/
def withData (ws : List Word) (s : State) : State := { s with mem := { s.mem with win := Mem.putWords s.mem.win 0x10000 ws } }

/-- A command entry on channel 0. -/
def entry (target : Byte) (ws : List Word) : Entry := { target := target, payload := ws }

-- commands that do not exist --------------------------------------------------------------------------------------------------------

/-- The outcome is a stop of an ill-formed command, by its name. -/
def stopsByName (o : Host.Outcome State Fault Refusal) : Bool :=
  match o with | .refused .noSuchUnit => true | .fault .noSuchAddress => true | _ => false

/-- One ill-formed command for each check of `Instr.units`, the first number past the last unit of its kind: each is refused, and its meaning stops
by name. -/
theorem test_ill_formed_commands_are_refused :
    (([.timeGet { ch := 16 }, .commandDesync { ch := 16 }, .responseReleased 16, .sysPower { ch := 16 }, .swapScarfEnd 64, .bayModeDrainEnd 8,
    .registerWrite (.work 6) 0 0, .setAliasWrite .host 64 0 0 0, .setAliasWrite .host 0 65536 0 0, .setAliasWrite (.array 8) 0 0 0 0, .clearAliasWrite (.core 64) 0 0 0 0, .soundStoreAccess 0 [{ who := .service 4 }],
    .clearAliasWrite .host 64 0 0 0,
    .clearAliasWrite .host 0 65536 0 0, .soundStoreAccess 64 [], .soundStoreAccess 0 [{ who := .host, acc := { word := 65536 } }],
    .hostWindowAccess (some { word := 0x44000 }) none, .hostWindowAccess none (some { word := 0x44000 }), .lowerHalfRead 0x44000 none,
    .lowerHalfWrite 0x44000 0, .upperHalfWrite 0x44000 0 none, .upperHalfWrite 0 0 (some { word := 0x44000 }), .qspiRead 0 0 [], .qspiRead 0 65 [],
    .qspiRead 0x43FFF 2 [], .qspiWrite 0 [] [], .qspiWrite 0x43FFF [1, 2] [], .uartHold 8, .tmrCapq true 16, .dspAsk 6, .dspPostGo 6, .stallTimeout 6,
    .dspFlag 6 0, .nop 64, .add 64 0 .u0 {}, .fetchComplete 64 [], .taskDispatch 64, .preemption 64, .localMemoryError 64 .x 0 true,
    .localMemoryError 0 .x 0x4000 true, .localMemoryError 0 .prog 0x2000 true, .oscillatorBlockFlag 8 0, .oscillatorBlockFlag 0 128,
    .decimatedBlockFlag 8 0, .decimatedBlockFlag 0 128, .inputBufferCopy 8192, .onset 8192, .envelopeSegmentEnd 8192 0, .envelopeSegmentEnd 0 6,
    .scarfEnd 8192, .quarantineEnd 8192, .groupRelease 256, .templateResident 64 0, .templateResident 0 256, .contentResident 8 0, .frameCheck 8 [],
    .frameCheckDecision 8, .outputPathFault 8, .residueCheckFailure 8 0, .residueCheckFailure 0 12, .resynchronisationEnd 8, .selfTestEnd 8 true [],
    .returnHome 8, .renderFrameStart 8, .renderFrameEnd 8, .networkMidiPacket 256 0 0 [], .invitation 2 0 true, .bye 256, .jrClock 256 0 0,
    .endpointDiscovery 256, .streamConfigurationRequest 256 true, .functionBlockDiscovery 256, .ping 256, .keepaliveTimeout 256,
    .uartCharacterComplete 8 (.levels 0) true true 0, .rawCharacterTaken 8, .gptpEventMessage 1 0 .sent 30, .gptpEventMessage 0 2 .sent 30, .domainLock 1 0 0,
    .domainUnlock 3, .frameLaunch 2 true, .listenerPacket 32 0 0 0 0 [], .acmpConnect 32 0, .getCounters 0 32, .bankRetention 64, .bankWake 64,
    .zeroiseDone 64, .dacShort 32, .rampComplete 32, .recalibrationPass 32, .periodEvent 16, .capture 16 true, .startBit 8,
    .tamperSourceInactive 6, .courseClockAlarm { course := 8 }, .serviceCycle 8 (.residue []), .stale 8] : List Instr).all fun i =>
      !i.wf && stopsByName (exec i State.reset)) = true := by decide +kernel

theorem test_last_units_are_well_formed :
    ([Instr.timeGet { ch := 15 }, .swapScarfEnd 63, .nop 63, .onset 8191, .localMemoryError 0 .prog 0x1FFF true, .qspiRead 0x43FC0 64 [],
      .domainLock 2 0 0, .dacShort 31].all fun i => i.wf) = true := by decide +kernel

-- instruction words (R213 to R217) ------------------------------------------------------------------------------------------------------

theorem test_written_words_decode :
    decodeCore 3 0xC00000 0 = .nop 3 ∧ decodeCore 0 0xC10000 0 = .endTask 0 ∧ decodeCore 7 0x22C000 0 = .add 7 1 .u0 {} ∧
    decodeCore 2 0xA40020 0x123456 = .ldk 2 0x10 0x123456 ∧ decodeCore 9 0xE00000 0 = .reservedEncoding 9 := by decide +kernel

theorem test_encoded_words : encodeCore (.nop 3) = some (0xC00000, none) ∧ encodeCore (.ldk 2 0x10 0x123456) = some (0xA40020, some 0x123456) := by
  decide +kernel

-- mailbox commands: every card takes an entry (statements about `Taken`, `Reads` and `Accepted`) -----------------------------------------

def taken (_ : Card) (e : Entry) (s : State) : Bool :=
  decide (e.ch < 16) && s.serving && (s.chan e.ch).cmdPi == (s.chan e.ch).cmdCi && decide (entryLen e ≤ 1024) && e.version == 1
  && ((s.chan e.ch).seqFree || e.seq == (s.chan e.ch).expectSeq) && !journalFull s

def accepted (c : Card) (e : Entry) (s : State) : Bool := taken c e s && (validate c e (entered c e s)).isNone

theorem taken_of {c : Card} {e : Entry} {s : State} (h : taken c e s = true) : Taken c e s := by
  simp [taken] at h
  obtain ⟨⟨⟨⟨⟨⟨h1, h2⟩, h3⟩, h4⟩, h5⟩, h6⟩, h7⟩ := h
  exact ⟨h1, h2, h3, h4, h5, h6, h7⟩

theorem accepted_of {c : Card} {e : Entry} {s : State} (h : accepted c e s = true) : Accepted c e s := by
  simp [accepted] at h
  exact ⟨taken_of h.1, h.2⟩

theorem reads_of {c : Card} {e : Entry} {s : State} (h : Taken c e s) : Reads e s := ⟨h.channel, h.serves, h.empty, h.framed⟩

/-- An entry and a state for each row of `mailboxRows`, in its order. -/
def samples : List (Entry × State) :=
  [(entry 0xFF [], ready),                                  -- TIME.GET
   (entry 0xFF [2], ready), (entry 0xFF [0], ready), (entry 0xFF [0x01000000, 0, 0, 0], ready),   -- RATE.SET CLOCK.SELECT DOMAIN.SET
   (entry 0xFF [], ready), (entry 0xFF [0], ready), (entry 0xFF [], ready), (entry 0xFF [], ready), -- NOP COMMIT DISCARD EPOCH
   (entry 0xFF [1, 0], ready),  -- JOURNAL.QUERY
   (entry 0 [0, 0x3C00], inMode .play), (entry 0 [0x00010000], aVoice .held), (entry 0 [0x00010000, 0], aVoice .held), -- VOICE START RELEASE END
   (entry 0 [0x00010000], aVoice .held), (entry 0xFF [0], ready), (entry 0 [], inMode .play), (entry 0 [2], ready), (entry 0xFF [7], ready), -- QUERY COUNTERS LOAD DECIM.SET STATUS
   (entry 0xFF [1, 0, 0], ready), (entry 0xFF [1, 0], ready), (entry 0xFF (0x100 :: 0 :: (List.replicate 16 [100, 0]).flatten), ready), -- PARAM.SET GET ENV
   (entry 0xFF [8, 0x40000], withData [0x02000000] ready), (entry 0xFF [8], ready.setCoef 8 { back := { valid := true } }), (entry 0xFF [8], ready), -- COEF
   (entry 0 [0x40000, 258], withData [0x56500100, 1, 0x100] ready), (entry 0xFF [1], ready), (entry 0xFF [1], ready), -- VPROG DISPATCH.SET STATUS
   (entry 0xFF [1, 0x40000, 6, 0xFFFE], ready), (entry 0xFF [], ready), -- TRACE.SET STATUS
   (entry 0xFF [0x80000000, 0, 0, 0, 0, 0, 0, 0], ready), (entry 0 [0], inMode .load), (entry 0 [], ready), (entry 0 [0], paired), -- BAY
   (entry 0xFF [], mirrored), (entry 0xFF [0x40000, 8], mirrored), -- COND FW
   (entry 0xFF [1], ready), (entry 0xFF [0x10000], oneSession), (entry 0xFF [0x20000, 0, 0, 5], oneSession), (entry 0xFF [0x10000], oneSession), -- SESSION
   (entry 0xFF [1, 1, 0, 0x20903C64], ready), -- EVENT.SEND
   (entry 0xFF [0, 0x01000000, 0], ready), (entry 0xFF [1], ready), (entry 0xFF [2], ready), -- BANK GIVE STATUS REGION
   (entry 0 [0, 7], { inMode .play with mem := { ready.mem with content := [(7, {})], resid := [(residKey 0 7, { pinned := true })] } }), -- PIN
   (entry 0xFF [1, 0x10010000], ready), (entry 0xFF [0, 0x10000], ready), (entry 0xFF [0], ready), (entry 0xFF [0, 0, 0, 0], ready), -- ROUTE TDM CLOCK STREAM
   (entry 0 [0, 0x0201], ready), (entry 0xFF [1], ready), -- RENDER.SET AUDIO.STATUS
   (entry 0xFF [1, 0x80000000], ready), (entry 0xFF [1, 0x0003FFFF], ready.setDacCh 3 { enable := true, mode := true, state := dacSafe }), (entry 0xFF [1], ready), -- DAC
   (entry 0xFF [1, 0x80000000, 1067], ready), (entry 0xFF [0x000, 0x41], ready.setUart 0 { cfg := 0x80000000 }), (entry 0xFF [0x100], ready), -- UART
   (entry 0xFF [1, 0x80000000, 9], ready), (entry 0xFF [5], ready), -- TIMER
   (entry 0xFF [0x40000, 0, 1], withData [0x504B0100] { ready with mem := { ready.mem with ddr := 0x10 } }), 
   (entry 0xFF [], { ready with mem := { ready.mem with stageOpen := true, stage := [0x504B0100, 1, 1, 0] ++ List.replicate 22 0 } }),
   (entry 0xFF [1], { ready with mem := { ready.mem with pkgs := [(1, default)] } }), (entry 0xFF [0], ready), -- PKG, VAULT
   (entry 0xFF (1 :: List.replicate 8 7), ready), (entry 0xFF (1 :: List.replicate 10 7), ready), (entry 0xFF [0x10555], ready), (entry 0xFF [0, 0, 0, 0], ready),
   (entry 0xFF ((1 :: List.replicate 8 7) ++ [0, 0, 0, 0]), ready), -- LIFE
   (entry 0xFF [1], ready), (entry 0xFF [0], ready), (entry 0xFF [0x80000320, 0, 0, 0, 0], ready), (entry 0xFF [0x52535400], ready), (entry 0xFF [2], ready)]

theorem samples_accepted :
    ((mailboxRows.zip samples).all fun x => x.1.2.opcode == 0xA02 || accepted x.1.2 x.2.1 x.2.2) = true := by decide +kernel

/-- Every mailbox row but KEY.LOAD, which `witness_KeyLoad` shows, has an entry and a state in which every check passes. -/
theorem witness_CommandsCarriedOut (p : (Entry → Instr) × Card) (hp : p ∈ mailboxRows) (hk : p.2.opcode ≠ 0xA02) : ∃ e s, Accepted p.2 e s := by
  have hl : mailboxRows.length = samples.length := by decide +kernel
  obtain ⟨i, hi, rfl⟩ := List.getElem_of_mem hp
  have hz : ((mailboxRows[i]), samples[i]'(hl ▸ hi)) ∈ mailboxRows.zip samples := by
    rw [List.mem_iff_getElem]
    exact ⟨i, by simp [← hl, hi], by simp⟩
  have h := List.all_eq_true.mp samples_accepted _ hz
  simp [hk] at h
  exact ⟨_, _, accepted_of h⟩

/-- The blob of the key 7 for slot 1 of a unit whose key is 0, and the key that wraps it there (R422, R423). -/
def blob : List Word :=
  [2277529598, 800358613, 971659414, 2685240541, 742730432, 2729187477, 535305575, 1023056104, 2816694190, 2111847386]
def slotKey : BitVec 256 := 27808374198905309330031082822371007167406996501772120183694827543656183143643

theorem test_slot_key : hmac 0 [1] = slotKey := by decide +kernel
theorem test_key_unwrap : keyUnwrap slotKey blob = some 7 := by decide +kernel

/-- KEY.LOAD of that blob is accepted, and loads the key 7. -/
theorem unwrap_blob (s : State) (h : s.vault.drk = 0) : unwrapBlob (entry 0xFF (1 :: blob)) s = some 7 := by
  have hb : bits ((entry 0xFF (1 :: blob)).pw 0) 3 0 = 1 := by decide +kernel
  have hp : (entry 0xFF (1 :: blob)).payload.drop 1 = blob := rfl
  unfold unwrapBlob wrapKey
  rw [hb, hp, h, show (BitVec.ofNat 8 1 : Byte) = 1 from rfl, test_slot_key, test_key_unwrap]

theorem keyLoad_pre (e : Entry) (s : State) (hl : s.keyLocked = false) (hu : unwrapBlob e s = some 7) : cardKeyLoad.pre e s = none := by
  show firstFail [need (!s.keyLocked) eLocked, need (unwrapBlob e s).isSome eAuth] = none
  rw [hl, hu]; rfl

theorem witness_KeyLoad : Accepted cardKeyLoad (entry 0xFF (1 :: blob)) ready ∧ unwrapBlob (entry 0xFF (1 :: blob)) ready = some 7 := by
  have ht : Taken cardKeyLoad (entry 0xFF (1 :: blob)) ready := taken_of (by decide +kernel)
  refine ⟨⟨ht, ?_⟩, unwrap_blob ready (by decide +kernel)⟩
  have h' := unwrap_blob (entered cardKeyLoad (entry 0xFF (1 :: blob)) ready) (by decide +kernel)
  have hl : (entered cardKeyLoad (entry 0xFF (1 :: blob)) ready).keyLocked = false := by decide +kernel
  have hp : cardKeyLoad.pre (entry 0xFF (1 :: blob)) (entered cardKeyLoad (entry 0xFF (1 :: blob)) ready) = none :=
    keyLoad_pre _ _ hl h'
  unfold validate
  rw [hp]
  decide +kernel

def stamped (e : Entry) : Entry := { e with stamped := true, stamp := 0x40 }
def staging (e : Entry) : Entry := { e with stage := true }

/-- The clauses that ask for more than an accepted entry: a stamp, STAGE, a swap, a resident object, a pin, a sleep. -/
theorem witness_clauses_of_accepted_entries :
    accepted cardConfigCommit (stamped (entry 0xFF [0])) ready = true ∧
    accepted cardVoiceStart (stamped (entry 0 [0, 0x3C00])) (inMode .play) = true ∧
    accepted cardVoiceRelease (stamped (entry 0 [0x00010000])) (aVoice .held) = true ∧
    accepted cardParamSet (stamped (entry 0 [0x80000001, 0, 0])) (inMode .play) = true ∧
    accepted cardParamSet (staging (entry 0xFF [1, 0, 0])) ready = true ∧
    accepted cardEnvWrite (staging (entry 0xFF (0x100 :: 0 :: (List.replicate 16 [100, 0]).flatten))) ready = true ∧
    accepted cardSessionSet (staging (entry 0xFF [0x20000, 0, 0, 5])) oneSession = true ∧
    accepted cardHwRegionSet (staging (entry 0xFF [2])) ready = true ∧
    accepted cardUartSend (stamped (entry 0xFF [0x000, 0x41])) (ready.setUart 0 { cfg := 0x80000000 }) = true ∧
    accepted cardDacWrite (stamped (entry 0xFF [1, 0x0003FFFF])) ready = true ∧
    accepted cardCoefLoad (entry 0xFF [0x00050108, 0x40000]) (withData [0x02000000] ready) = true ∧
    accepted cardSysPower (entry 0xFF [1]) ready = true := by decide +kernel

/-- JOURNAL.QUERY finds an entry, or none; CONTENT.PIN meets an object that is resident, or one that is not. -/
theorem witness_JournalQuery_ContentPin :
    journalSeek (entry 0xFF [1, 0]) ready = some none ∧
    (journalSeek (entry 0xFF [0x80000000, 1]) { ready with mbx := { ready.mbx with journal := [{ idx := 1 }] } }).isSome = true ∧
    (inMode .play).objResident 0 7 = false ∧
    ({ ready with mem := { ready.mem with resid := [(residKey 0 7, { resident := true })] } } : State).objResident 0 7 = true := by decide +kernel

/-- A refused entry, another version, a wrong sequence, a full journal, a frame that cannot be, a ring that holds an entry, and reset. -/
theorem witness_RefusedCommands_Admission_Entries :
    (taken cardSysNop (entry 0xFF [1]) ready = true ∧ validate cardSysNop (entry 0xFF [1]) (entered cardSysNop (entry 0xFF [1]) ready) = some (eLength, [])) ∧
    taken cardTimeGet { entry 0xFF [] with version := 2 } ready = false ∧
    ((ready.setChan 0 { seqFree := false, expectSeq := 5 }).chan 0).expectSeq ≠ (entry 0xFF []).seq ∧
    journalFull { ready with mbx := { ready.mbx with journal := List.replicate 4096 { st := .step } } } = true ∧
    1024 < entryLen (entry 0xFF (List.replicate 1023 0)) ∧ entryLen (entry 0xFF (List.replicate 1022 0)) = 1024 ∧
    ready.serving = true ∧ State.reset.serving = false ∧ (ready.setChan 0 { cmdPi := 2 }).serving = true ∧ State.reset.hostOff = false ∧
    entryLen (entry 0xFF []) ≤ ringFree (State.reset.chan 0).cmdPi (State.reset.chan 0).cmdCi ∧ Mem.wf ready.mem.win = true := by decide +kernel

/-- Room for an answer, an answer that must wait, and one that is released. -/
theorem witness_JournalEntries_Responses :
    (ready.chan 0).held = [] ∧ 2 + 1 ≤ ringFree (ready.chan 0).rspPi (ready.chan 0).rspCi ∧ (entry 0xFF []).quiet = false ∧
    ringFree ((ready.setChan 0 { rspPi := 0, rspCi := 1 }).chan 0).rspPi ((ready.setChan 0 { rspPi := 0, rspCi := 1 }).chan 0).rspCi < (respWords {}).length ∧
    ((ready.setChan 0 { held := [{}] }).chan 0).held = {} :: [] ∧ (ready.setChan 0 { held := [{}] }).serving = true ∧
    (respWords {}).length ≤ ringFree (ready.chan 0).rspPi (ready.chan 0).rspCi := by decide +kernel

/-- Jobs, coefficient banks and channels that the clauses of the chapter statements name. -/
theorem witness_chapter_clauses :
    envsOf (entry 0xFF (0x100 :: 0 :: (List.replicate 16 [100, 0]).flatten)) = [(0, 0 :: (List.replicate 16 [100, 0]).flatten)] ∧
    (ready.coef 8).scarfing = false ∧ ((ready.setCoef 8 { scarfLeft := 9, scarfLen := 9 }).coef 8).scarfing = true ∧
    ((ready.setCoef 8 { scarfLeft := 9, scarfLen := 9 }).coef 8).held = none ∧ copyDue 8 (ready.setCoef 8 { scarfLeft := 9 }) = true ∧ copyDue 8 ready = false ∧
    (((ready.setCoef 8 { scarfLeft := 8 }).coef 8).scarfLeft ≠ 0 ∧ ((ready.setCoef 8 { scarfLeft := 8 }).coef 8).scarfLeft ≤ ready.spf) ∧
    ((ready.setDacCh 3 { enable := true, mode := true, state := dacSafe }).dacCh 3).live = true ∧
    (ensureMailboxSession 0 ready).session 0 ≠ ready.session 0 ∧ mailboxSession 0 (ensureMailboxSession 0 ready) = some 0 := by decide +kernel

/-- A SYS.NOP with a payload, with a reserved bit, with STAGE, and a good one, on a free channel. -/
theorem test_sys_nop :
    validate cardSysNop (entry 0xFF [1]) ready = some (eLength, []) ∧ validate cardSysNop { entry 0xFF [] with rsv := 1 } ready = some (eRange, []) ∧
    validate cardSysNop (entry 0 []) ready = some (eRange, []) ∧ validate cardSysNop (staging (entry 0xFF [])) ready = some (eConflict, []) ∧
    validate cardSysNop (entry 0xFF []) ready = none := by decide +kernel

-- voice cores --------------------------------------------------------------------------------------------------------------------------

def issues (s : State) (k : Nat) : Bool := decide (k < 64) && !(s.core k).waits && (s.core k).cur.rpt.isNone && !(s.core k).preemptReq

theorem issues_of {s : State} {k : Nat} (h : issues s k = true) : Issues s k := by
  simp [issues] at h
  exact ⟨h.1.1.1, h.1.1.2, h.1.2, h.2⟩

/-- Core 3 with the registers `r` in use. -/
def withRegs (r : RegSet) : State := ready.setCore 3 { prim := r }

theorem witness_Issues : Issues ready 0 ∧ Issues (withRegs {}) 63 ∧ portsOk {} = true := ⟨issues_of (by decide +kernel), issues_of (by decide +kernel), by decide⟩

theorem witness_Flows : Flows (withRegs {}) 3 := ⟨issues_of (by decide +kernel), by decide +kernel, by decide +kernel⟩

/-- A store of a register that is no accumulator through a port that takes accumulators only: no ports of the table Port fields (R214). -/
theorem witness_PortsNotAllowed : portsOk { x := { op := .storeAcc, reg := 4 } } = false ∧ portsOk { x := { op := .load, reg := 3, ptr := 3 } } = true := by
  decide +kernel

/-- The clauses of the shifts at 0, 1, 56 and 57 places, and a ring in its three orders (R213, R218). -/
theorem witness_ShiftsAndRings :
    ¬(1 ≤ (0 : BitVec 6).toNat) ∧ (1 ≤ (1 : BitVec 6).toNat ∧ (56 : BitVec 6).toNat ≤ 56) ∧ ¬((57 : BitVec 6).toNat ≤ 56) ∧
    (4 : BitVec 16).toNat < (5 : BitVec 16).toNat ∧ (5 : BitVec 16).toNat ≤ (5 : BitVec 16).toNat ∧
    ringWrap 0x2000 0x2010 0x2010 = 0x2000 ∧ ringWrap 0x2000 0x2010 0x1FFF = 0x200F ∧ ringWrap 0 0 0x10001 = 1 := by decide +kernel

/-- Register codes that are assigned and that are not; addresses below and from 0x4000 (R209, R219). -/
theorem witness_TransfersAndLocalMemory :
    codeOk 0x0B = true ∧ codeOk 0x46 = true ∧ codeOk 0x0C = false ∧ codeOk 0x7F = false ∧
    movmAddr ((withRegs {}).view 3) (.absolute 0x3FFF) < 0x4000 ∧ 0x4000 ≤ movmAddr ((withRegs {}).view 3) (.absolute 0x4000) ∧
    ((withRegs {}).regs 3).stOld = [] ∧ ((withRegs {}).regs 3).agOld = none ∧
    (Mem.wf ((withRegs {}).core 3).x && Mem.wf ((withRegs {}).core 3).y) = true ∧ (((withRegs {}).regs 3).p.look 0 0).toNat < 0x4000 := by decide +kernel

/-- What the clauses of RegisterCodesReadBack say, at the first and last code of each range (R209, R210). -/
theorem test_register_codes_read_back :
    ([0x00, 0x0B].all fun c => (readCode false 0 c (writeCode c 0xABCDEF {})).1 == 0xABCDEF) = true ∧
    ([0x10, 0x13].all fun (c : RegCode) => (writeCode c 0xABCDEF {}).wr (c.toNat - 0x10) == 0xFFABCDEF000000) = true ∧
    ([0x14, 0x17].all fun c => (readCode false 0 c (writeCode c 0xABCDEF {})).1 == 0xABCDEF) = true ∧
    ([0x18, 0x1B].all fun c => (readCode false 0 c (writeCode c 0xABCDEF {})).1 == 0xFFFFEF) = true ∧
    ([0x20, 0x27, 0x30, 0x44].all fun c => (readCode false 0 c (writeCode c 0xABCDEF {})).1 == 0xCDEF) = true ∧
    ([0x28, 0x2F].all fun c => (readCode false 0 c (writeCode c 0xABCDEF {})).1 == 0xFFCDEF) = true ∧ writeCode 0x46 5 {} = {} := by decide +kernel

/-- One step of the example of R221: 0x00_1200 is better than the value in W0, and its index is kept. -/
theorem test_min_keeps_a_better_value :
    (match exec (.min 3 0 0 {}) (withRegs { u := [(0, 0x001200)], w := [(0, 0x007FFFFF000000)], ecnt := 5 }) with
     | .next t => (t.regs 3).wr 0 == 0x00001200000000 | _ => false) = true ∧
    (match exec (.min 3 0 0 {}) (withRegs { u := [(0, 0x001200)], w := [(0, 0x007FFFFF000000)], ecnt := 5 }) with
     | .next t => (t.regs 3).ix.look 0 0 == 5 && (t.regs 3).ecnt == 6 | _ => false) = true := by decide +kernel

/-- An addition past the top of 56 bits sets CY and not WRAP for -1 + 1 (R216, R222). -/
theorem test_add_carries :
    (match exec (.add 3 0 .pairW {}) (withRegs { w := [(0, 0xFFFFFFFFFFFFFF), (1, 1)] }) with
     | .next t => (t.regs 3).wr 0 == 0 && (t.regs 3).flag csrCY && (t.regs 3).flag csrZR && !(t.regs 3).flag csrWRAP | _ => false) = true := by decide +kernel

/-- 0.5 times 0.5 with PSH = 1 is 0.25 in the F view (R215). -/
theorem test_multiply_in_the_f_view :
    (match exec (.mul 3 0 false 0 0 {}) (withRegs { u := [(0, 0x400000)], v := [(0, 0x400000)], csr := 0x040000 }) with
     | .next t => (t.regs 3).wr 0 == 0x00200000000000 | _ => false) = true := by decide +kernel

/-- The clauses of flow: returns, conditions, fetches, loops and slots (R217, R223, R224). -/
theorem witness_FlowClauses :
    ((withRegs {}).regs 3).rets.length < 8 ∧ ((withRegs { rets := [7] }).regs 3).rets = 7 :: [] ∧
    branchTaken 0 false 14 = true ∧ branchTaken 0 false 15 = false ∧ branchTaken 0 false 0 = false ∧ (0 : BitVec 4) ≠ 15 ∧
    ((withRegs {}).core 3).fetches = [] ∧ ((ready.setCore 3 { fetches := [{}] }).core 3).fetches ≠ [] ∧
    ((withRegs { loops := [{}] , pc := 9 }).regs 3).loops = {} :: [] ∧ ((withRegs {}).regs 3).loops.length < 4 ∧
    ((withRegs { u := [(0, 2)] }).regs 3).ur 0 ≠ 0 ∧ ((withRegs {}).regs 3).ur 0 = 0 := by decide +kernel

theorem witness_LoopBacks :
    (∃ r : RegSet, ∃ d, r.delay = some d ∧ d.left = 1) ∧ (∃ r : RegSet, ∃ d, r.delay = some d ∧ d.left = 2) ∧
    (∃ r : RegSet, ∃ f, r.delay = none ∧ r.loops = [f] ∧ r.pc = f.last ∧ 1 < f.count.toNat) ∧
    (∃ r : RegSet, ∃ f, r.delay = none ∧ r.loops = [f] ∧ r.pc = f.last ∧ f.count.toNat ≤ 1) :=
  ⟨⟨{ delay := some { left := 1, target := 5 } }, _, rfl, rfl⟩, ⟨{ delay := some { left := 2, target := 5 } }, _, rfl, rfl⟩,
   ⟨{ loops := [{ last := 4, count := 2 }], pc := 4 }, _, rfl, rfl, rfl, by decide⟩, ⟨{ loops := [{ last := 4, count := 1 }], pc := 4 }, _, rfl, rfl, rfl, by decide⟩⟩

/-- A store address inside and outside the Sound Store, a waiting fetch with room, one that is due, and a bank that its Course reaches (R228). -/
theorem witness_Fetches :
    (((withRegs { u := [(0, 0x3FFFFF)] }).regs 3).ur 0).toNat < 2 ^ 22 ∧ 2 ^ 22 ≤ (((withRegs { u := [(0, 0x400000)] }).regs 3).ur 0).toNat ∧
    ((ready.setCore 3 { fetches := [{ waiting := true }] }).core 3).fetches = [] ++ { waiting := true } :: [] ∧
    ((ready.setCore 3 { fetches := [{ words := 1 }] }).core 3).fetches = { words := 1 } :: [] ∧ portReaches 0 0 ready = true ∧
    (ready.bank 0).state = 0 ∧ ({ words := 1 } : Fetch).dst.toNat < 0x4000 ∧ ({ words := 1 } : Fetch).src < 2 ^ 22 := by decide +kernel

/-- Cores with a ready effect task, a ready voice task, a ready LEVEL 1 task over a running one, and a running task (R230, R248, R249). -/
theorem witness_Tasks :
    firstReady false ((ready.setCore 3 { tasks := [(2, { kind := 1, fresh := false })] }).core 3) = some 2 ∧
    firstReady false ((ready.setCore 3 { tasks := [(2, { kind := 0, fresh := false })] }).core 3) = some 2 ∧
    ((ready.setCore 3 { tasks := [(2, { fresh := false })] }).core 3).current = none ∧
    firstReady true ((ready.setCore 3 { tasks := [(1, {}), (2, { kind := 1, fresh := false })], current := some 1 }).core 3) = some 2 ∧
    ((ready.setCore 3 { tasks := [(1, {}), (2, { kind := 1, fresh := false })], current := some 1 }).core 3).tasks.find 1 = some {} ∧
    ((ready.setCore 3 { tasks := [(1, {})], current := some 1 }).core 3).current = some 1 ∧
    ((ready.setCore 3 {}).core 3).tasks.find (0x2FFF / 192) = none := by decide +kernel

-- registers, work ports and memory ---------------------------------------------------------------------------------------------------------

/-- In reset: the pin holds the device (R467). -/
def held : State := { ready with power := { ready.power with holdPor := true } }

/-- The strap form without a host port (R22). -/
def noPort : State := { ready with power := { ready.power with host := 3 } }

theorem witness_Registers :
    held.inReset = true ∧ ready.inReset = false ∧ held.hostOff = true ∧ ready.hostOff = false ∧ noPort.power.host = 3 ∧ ready.time.ticking = true ∧ State.reset.time.ticking = false ∧ bits 5 2 0 < 6 ∧ ¬(bits 6 2 0 < 6) ∧
    State.reset.serving = false ∧ (ready.chan 15).cmdPi = (ready.chan 15).cmdCi ∧
    nextChan (fun t ch => (t.chan ch).doorbell) (ringBells 1 (ready.setChan 0 { cmdPi := 2 })) = some 0 ∧ (ready.setChan 0 { cmdPi := 2 }).serving = true := by
  decide +kernel

/-- A word written to HW_DB_RSP clears the bits that are 1; DB_CMD rings the bells of its bits (R62, R63). -/
theorem test_doorbells :
    (match exec (.registerWrite .host 0x0204 5) { ready with mbx := { ready.mbx with dbRsp := 7 } } with | .next t => t.mbx.dbRsp == 2 | _ => false) = true ∧
    (match exec (.hwDbCmd 0x8001) State.reset with
     | .next t => (t.chan 0).doorbell && (t.chan 15).doorbell && !(t.chan 1).doorbell | _ => false) = true := by decide +kernel

/-- Channel 2 has a session, slot 0 of the pool (R300). -/
def withSession : State := ready.setSession 0 { isOpen := true, transport := 3, port := 2 }

/-- A channel reset empties the rings and marks the channel's session for closing (R65, R300). -/
theorem test_channel_reset :
    mailboxSession 2 withSession = some 0 ∧ ((resetChan withSession 2).session 0).closing.isSome = true ∧
    ((resetChan (withSession.setChan 2 { rspPi := 8, desync := true }) 2).chan 2).rspPi = 0 := by decide +kernel

/-- Queue 1 holds one entry; its entry has the words 0x00010000 and 9. -/
def oneEntry : State := { ready with dsp := { ready.dsp with queues := [(1, [[0x00F90000, 9, 0, 0]])] } }

theorem witness_WorkPorts :
    ready.queue 0 = [] ∧ oneEntry.queue 1 = [0x00F90000, 9, 0, 0] :: [] ∧ oneEntry.dsp.stalls = [] ∧
    ((List.range 4).filter fun q => (oneEntry.svc 0).mask.getLsbD q).find? (fun q => !(oneEntry.queue q).isEmpty) = some 1 ∧
    (ready.svc 5).stall = none ∧ ((ready.setSvc 5 { stall := some 4 }).svc 5).stall = some 4 ∧ pickWaiter 0 [0, 0, 0, 0] ready = none ∧
    (ready.queue 0).length < queueDepth 0 ∧ ready.dsp.backpressure = false ∧
    queueDepth 4 ≤ (({ ready with dsp := { ready.dsp with queues := [(4, List.replicate (queueDepth 4) [])] } } : State).queue 4).length ∧
    ((ready.setCore 63 { tasks := [(63, {})] }).core (bits 0x003F3F03 21 16)).tasks.find (bits 0x003F3F03 13 8) = some {} ∧
    bits 0x003F3F03 3 0 = 3 ∧ bits 0x003F3F02 3 0 ≠ 3 ∧ (ready.core 63).tasks.find 63 = none := by decide +kernel

/-- A request takes the oldest entry of the first allowed queue, with the preference field cleared (R257). -/
theorem test_request_for_work :
    (match exec (.dspAsk 0) oneEntry with | .next t => (t.svc 0).task == [0x00010000, 9, 0, 0] && (t.queue 1).isEmpty | _ => false) = true := by
  decide +kernel

/-- Captures waiting or not, and the recovery boot with and without an image (R414, R474). -/
theorem witness_Reads_RecoveryBoot :
    (ready.timer 15).queue = [] ∧ ((ready.setTimer 15 { queue := [{}] }).timer 15).queue = {} :: [] ∧
    ({ ready with power := { ready.power with recovery := true } } : State).power.recovery = true ∧ bit 0x80000001 31 = true ∧ bit 1 31 = false ∧
    bits 0x80000000 16 0 = 0 ∧ bits 0x8001C000 16 0 = 114688 ∧ bits 0x8001C001 16 0 = 114689 := by decide +kernel

/-- A bank with two requests that have stalled, one for more than 16 clk (R324). -/
def stalledAt (b : Nat) : State := ready.setBank b { ready.bank b with waiting := [({ who := .vault }, 3), ({ who := .service 0 }, 20)] }

/-- Bay 0 owns bank 0 after reset; service core 0 owns bank 56, the host banks 62 and 63 (R327). -/
theorem witness_Aliases_SoundStore :
    reaches .host 63 true ready = true ∧ reaches .host 0 true ready = false ∧ reaches (.service 0) 56 true ready = true ∧
    reaches (.core 63) 0 false ready = true ∧ reaches (.core 63) 63 false ready = false ∧ deniedCounted .host = true ∧
    (ready.bank 63).state = 0 ∧ Mem.wf ready.mem.store = true ∧
    sameLine ready { who := .host } { who := .host } = false ∧
    ready.requestKey ({ who := .host }, 16) < ready.requestKey ({ who := .vault }, 15) ∧ reachesWord .host (65536 * 63 + 65535) true ready = true ∧
    reachesWord .host 0 true ready = false ∧ initiatorIs .vault = true ∧
    firstRequest ready (standing 63 [{ who := .host }] (stalledAt 63)) = some ({ who := .service 0 }, 20) ∧ ready.mem.bad = [] ∧
    (List.Pairwise (fun (a b : BankReq) => a.who ≠ b.who) [{ who := .host }, { who := .vault }]) ∧
    ready.requestKey ({ who := .host }, 0) < ready.requestKey ({ who := .vault }, 0) ∧ sameLine ready { who := .host } { who := .vault } = false ∧
    ({ ready with mem := { ready.mem with bad := [65536 * 63] } } : State).mem.bad.contains (65536 * 63) = true := by decide +kernel

/-- A write through the set alias sets bits, one through the clear alias clears them (R322). -/
theorem test_aliases :
    (match exec (.setAliasWrite .host 63 65535 0x0F0 0xF) { ready with mem := { ready.mem with store := Mem.putWord [] (65536 * 64 - 1) 0x333 0xF } } with
     | .next t => Mem.word t.mem.store (65536 * 64 - 1) == 0x3F3 | _ => false) = true ∧
    (match exec (.clearAliasWrite .host 63 65535 0x0F0 0xF) { ready with mem := { ready.mem with store := Mem.putWord [] (65536 * 64 - 1) 0x333 0xF } } with
     | .next t => Mem.word t.mem.store (65536 * 64 - 1) == 0x303 | _ => false) = true := by decide +kernel

/-- Region 3 is FAST and the parallel port is strapped, as in the example of R338. -/
def fast3 : State := { ready with mem := { ready.mem with fast := 1 <<< 2 }, power := { ready.power with host := 1 } }

theorem witness_HostWindow :
    collides { word := 0x18004, wr := some 1 } { word := 0x18004 } = true ∧ collides { word := 0x18004 } { word := 0x18004 } = true ∧ collides { word := 0x18003 } { word := 0x18004 } = false ∧
    bothRead { word := 0x18004 } { word := 0x18004 } = true ∧ bothRead { word := 0x18004, wr := some 1 } { word := 0x18004 } = false ∧ fast3.portUp = true ∧
    ready.portUp = true ∧ noPort.portUp = false ∧ ({ fast3 with power := { fast3.power with state := 2 } } : State).portUp = false ∧
    fast3.fastWord 0x18004 = true ∧ ready.fastWord 0x18004 = false ∧ fast3.pcieForm = false ∧
    ({ fast3 with power := { fast3.power with host := 0 } } : State).pcieForm = true ∧
    collides { word := 0x3FFFF, wr := some 1 } { word := 0x3FFFF, wr := some 2 } = true ∧ 0x3FFC0 + 64 ≤ 0x40000 ∧ Mem.wf fast3.mem.win = true := by
  decide +kernel

/-- The example of R338: a lower-half read that meets an internal write in a FAST region is busy and counted. -/
theorem test_busy_lower_half_read :
    (match exec (.lowerHalfRead 0x18004 (some { word := 0x18004, wr := some 1 })) fast3 with
     | .next t => !t.mem.bsyN && t.mem.hwBusy == 1 | _ => false) = true ∧
    (match exec (.lowerHalfRead 0x18004 none) fast3 with | .next t => t.mem.bsyN && t.mem.hwBusy == 0 | _ => false) = true := by decide +kernel

theorem witness_BanksAndContent :
    mayRetain 5 (ready.setBank 5 { owner := 0xF }) = true ∧ mayRetain 5 ready = false ∧ ((ready.setBank 5 { state := 1 }).bank 5).state = 1 ∧
    ((ready.setBank 5 { state := 3 }).bank 5).state = 3 ∧ (ready.bank 5).state ≠ 1 ∧ (ready.resid 7 9).loading = false ∧
    (({ ready with mem := { ready.mem with content := [(9, {})], resid := [(residKey 7 9, { loading := true })] } } : State).resid 7 9).loading = true ∧
    ({ ready with mem := { ready.mem with content := [(9, {})] } } : State).inStore 9 = true ∧ pinJobs 7 9 ready = [] ∧
    ready.noDecrypt false = false ∧ (ready.contentOf 9).prot = false ∧ ({ ready with vault := { ready.vault with keylock := true } } : State).noDecrypt false = true ∧
    ({ ready with mem := { ready.mem with content := [(9, { prot := true })] } } : State).contentOf 9 = { prot := true } ∧
    ddrPlace 0x40000000 0x40000000 0x1000 = some (1, 0) ∧ ddrPlace 0x40000000 0x80000000 0x40000000 = some (1, 0) := by
  decide +kernel

-- the frame and the Conductors -------------------------------------------------------------------------------------------------------------

/-- A job that waits for the boundary, with its journal entry. -/
def waitingJob : State :=
  { ready with mbx := { ready.mbx with jobs := [{ j := 1, opcode := 0x502, e := entry 0xFF [2] }], journal := [{ idx := 1, st := .queued, owed := true }], nextJ := 2 } }

theorem witness_FrameTick :
    State.reset.time.ticking = false ∧ ready.time.ticking = true ∧ ready.inReset = false ∧ (boundaryJobs waitingJob).length = 1 ∧
    (boundaryJobs waitingJob).all (fun jb => takesField waitingJob jb) = true ∧
    ((boundaryJobs waitingJob).all fun jb => (boundaryEffect jb (offTimeline jb.j (dropJob jb.j waitingJob))).isSome) = true := by decide +kernel

/-- The first tick keeps Frame Count and Stamp32; the next advances them by 1 and by 128 ticks at 48 kHz (R18, R25, R28). -/
theorem test_tick_counts :
    (tickClocks ready).time.frameCount = 0 ∧ (tickClocks { ready with time := { ready.time with countHold := false, stampHold := false } }).time.frameCount = 1 ∧
    (tickClocks { ready with time := { ready.time with countHold := false, stampHold := false } }).time.stamp = BitVec.ofNat 32 ready.tpf ∧ ready.tpf = 128 := by
  decide +kernel

def fencedState : State := { ready with mbx := { ready.mbx with fenced := true } }

theorem witness_Conductors :
    ready.mbx.fenced = false ∧ ready.mbx.missed < 2 ∧ 2 ≤ ({ ready with mbx := { ready.mbx with missed := 2 } } : State).mbx.missed ∧
    ready.mbx.standbyReady = false ∧ mirrored.mbx.standbyReady = true ∧ fencedState.mbx.fenced = true ∧ fencedState.mbx.standbyReady = false ∧
    ({ mirrored with mbx := { mirrored.mbx with fenced := true } } : State).mbx.standbyReady = true ∧ ready.power.phase = 7 ∧ State.reset.power.phase ≠ 7 ∧
    ready.mbx.running = [] ∧ fencedState.inReset = false ∧ ready.condDown = false ∧ fencedState.condDown = true := by decide +kernel

/-- The mirror's clock domains and parameters, and a tick that ends in SLEEP or does not (R286, R482). -/
theorem witness_Mirror_Sleep :
    (mirrorOf mirrored).doms = mirrored.time.doms ∧
    (match exec (.frameTick .pass {} []) ready with | .next t => t.power.state == 0 && t.time.ticking | _ => false) = true ∧
    (match exec (.frameTick .pass {} []) { ready with power := { ready.power with sleepDue := true } } with
     | .next t => t.power.state == 2 && !t.time.ticking && !t.power.sleepDue | _ => false) = true := by decide +kernel

/-- Channel 3 holds a final response of a command that the journal has, and an answer is owed to it (R64, R88). -/
def owing : State :=
  ({ ready with mbx := { ready.mbx with journal := [{ idx := 4, ch := 3, st := .done, owed := true }, { idx := 5, ch := 3, st := .done }] } }).setChan 3
    { held := [{ status := 0x0000, seq := 9, jindex := 5 }] }

theorem witness_OwedAnswers :
    (owing.chan 3).held = [{ status := 0x0000, seq := 9, jindex := 5 }] ∧ (0x0000 : Status) ≠ fFailover ∧
    (journalFind 5 owing).isSome = true ∧ owing.mbx.running = [] ∧ owing.mbx.journal.any (fun y => y.owed) = true := by decide +kernel

/-- A failover answers what was owed with F_FAILOVER, the held response among it (R88, R89). -/
theorem test_failover_answers :
    ((failover owing).mbx.journal.all fun x => !x.owed) = true ∧
    (((failover owing).chan 3).held.map fun q => (q.status == fFailover, q.seq)).head? = some (true, 9) := by decide +kernel

/-- COND.SWITCH waits, alone and with a stepped command that runs; the standby has been ready for 1 s after a loss (R290, R291). -/
def switching : State := { mirrored with mbx := { mirrored.mbx with jobs := [{ j := 1, opcode := 0x040, phase := .planned }] } }
def gaveUpState : State := { mirrored with mbx := { mirrored.mbx with gaveUp := true, readyFrames := 6000 } }

theorem witness_PlannedSwitches :
    (switchJob switching).isSome = true ∧ plannedOk none switching = true ∧
    plannedOk none { switching with mbx := { switching.mbx with running := [{}] } } = false ∧ switchJob ready = none ∧
    plannedOk none gaveUpState = true ∧ famFrames gaveUpState.time.rate 6000 5513 ≤ gaveUpState.mbx.readyFrames ∧
    ((recentLosses gaveUpState).filter fun p => p.1 != gaveUpState.mbx.activeB).length < 3 := by decide +kernel

/-- A BANK.GIVE whose bank 0 goes to service core 0 runs; so does a BAY.MODE that drains Bay 0 (R76, R272, R298). -/
def giving : Stepped := { j := 1, opcode := 0x500, e := entry 0xFF [1, 0, 8] }
def draining : Stepped := { j := 2, opcode := 0x601, e := entry 0 [5], n := 3, finalAt := 2, done := 1, undo := [BitVec.ofNat 32 Mode.play.code] }
def stepping2 : State := { inMode .play with mbx := { ready.mbx with running := [giving, draining] } }

theorem witness_Steps :
    stepping2.mbx.running.find? (fun x => x.j == 1) = some giving ∧ stepping2.mbx.running.find? (fun x => x.j == 7) = none ∧
    (stepEffects giving (giving.done + 1) [] stepping2).isSome = true ∧ fencedState.condDown = true ∧ stepping2.condDown = false := by decide +kernel

theorem witness_KerfRateDrain :
    modeChange 0 stepping2 = some draining ∧ (changeKind draining).drains = true ∧ draining.done = 1 ∧ ({ draining with done := 0 } : Stepped).done ≠ 1 ∧
    modeChange 7 ready = none ∧ (ready.mbx.jobs.find? fun jb => jb.opcode == 0x101) = none ∧
    (({ ready with mbx := { ready.mbx with jobs := [{ opcode := 0x101 }] } } : State).mbx.jobs.find? fun jb => jb.opcode == 0x101).isSome = true := by
  decide +kernel

-- voices, pairs and render -------------------------------------------------------------------------------------------------------------------

/-- The voice of slot 0 renders on core 3 at position 0, with its task there. -/
def rendering : State := (aVoice .held).setCore 3 { tasks := [(2, {})] }

theorem witness_BlockFlags :
    rendering.atPosition 0 0 = [0] ∧ rendering.flagged 0 0 = [0] ∧ (rendering.voice 0).core / 8 = 0 ∧ rendering.twin 3 = none ∧
    (rendering.voice 0).moveFrom = none ∧ (rendering.core 3).tasks.find 2 = some {} ∧ Mem.wf (rendering.core 3).y = true ∧
    rendering.atPosition 7 127 = [] ∧ rendering.flagged 7 127 = [] := by decide +kernel

/-- The voice has moved from core 8, and its copy is first on Course 1, or not (R153). -/
def movedVoice : State :=
  (rendering.setVoice 0 { rendering.voice 0 with moveFrom := some (8, 0, 0) }).setCourse 1 { rendering.course 1 with copies := [0] }

theorem witness_MovedBuffers :
    (movedVoice.voice 0).moveFrom = some (8, 0, 0) ∧ (movedVoice.course 1).copies.head? = some 0 ∧ movedVoice.twin 3 = none ∧
    (movedVoice.core 3).tasks.find 2 = some {} ∧ ((movedVoice.setCourse 1 {}).course 1).copies.head? ≠ some 0 ∧ (ready.voice 8191).moveFrom = none := by
  decide +kernel

/-- It moved with a block in each stream, to a core where its old context is free (R153, R206). -/
theorem witness_MovedBlock :
    (let s := movedVoice.setVoice 0 { movedVoice.voice 0 with strA := { out := List.replicate 8 5 }, strB := { out := List.replicate 8 6 } }
     (s.voice 0).strA.out.length = s.spf ∧ (s.voice 0).strB.out.length = s.spf ∧ s.spf ≤ 32 ∧ (s.core 8).tasks.find 0 = none ∧
     8 ≠ (s.voice 0).core ∧ Mem.wf (s.core 3).y = true) := by decide +kernel

theorem witness_VoiceLife :
    (let v := (aVoice .preRoll).voice 0
     v.inUse = true ∧ v.st = .preRoll ∧ v.toFree = false ∧ (aVoice .preRoll).reached v.bay (sampleCeil v.onset) = true) ∧
    (aVoice .preRoll).reached 0 (sampleCeil 0x1000) = false ∧
    (let v := (aVoice .scarf).voice 0
     v.inUse = true ∧ v.st = .scarf ∧ (aVoice .scarf).reached v.bay v.scarfEnd = true) ∧ (aVoice .scarf).reached 0 0x1000 = false ∧
    (let v := (aVoice .free).voice 0
     v.inUse = true ∧ v.st = .free ∧ v.quarLeft = 0) ∧ (({} : Voice).quarLeft = 0 ∧ ({ quarLeft := 1 } : Voice).quarLeft ≠ 0) := by decide +kernel

/-- A voice with one envelope whose segment ends now; a bound group idle long enough, and not; a template whose tables have come, and have not. -/
def withEnvs : State := (aVoice .held).setVoice 0 { (aVoice .held).voice 0 with envs := [{ ns := 1 }] }

theorem witness_Segments_Groups_Templates :
    (let v := withEnvs.voice 0
     let x := v.envs.getD 0 {}
     v.inUse = true ∧ v.st.counted = true ∧ v.toFree = false ∧ 0 < v.envs.length ∧ x.hold = false ∧
       withEnvs.reached v.bay (x.origin + BitVec.ofNat 32 (16 * x.ns)) = true) ∧ (withEnvs.voice 8191).inUse = false ∧
    (let s : State := { ready with params := { ready.params with groups := [(255, { bound := true, idle := 6000 })] } }
     (s.group 255).bound = true ∧ groupFrames s.time.rate ≤ (s.group 255).idle ∧ (s.group 0).bound = false) ∧
    (let s := ready.setCore 63 { resid := [{ template := 255 }] }
     (s.core 63).resid = [{ template := 255 }] ∧ ({ template := 255 } : Resident).ready ≤ s.frameOf (s.timelineBay (s.courseBay 7))) ∧
    (ready.core 0).resid = [] := by decide +kernel

/-- The pair in lockstep with equal hashes, with hashes that differ, and with a fault of one Bay's own (R278 to R281). -/
def differing : State := paired.setCourse 0 { paired.course 0 with hash := 1 }
def faulty (b : Nat) (s : State) : State := s.setBay b { s.bay b with events := [(1, 3)] }

theorem witness_FrameChecks :
    paired.inLockstep 0 = true ∧ mismatched paired 0 = [] ∧ mismatched differing 0 ≠ [] ∧ ready.inLockstep 0 = false ∧ (ready.bay 0).role = 0 ∧ (paired.bay 0).yieldDue = false ∧
    (paired.bay 0).role ≠ 0 ∧ paired.inControl 0 = true ∧ paired.homeOf 0 = 0 ∧ paired.partnerOf 0 = 1 ∧ paired.controlOf 0 = 0 ∧
    ownEvents paired 0 = [] ∧ ownEvents paired 1 = [] ∧ ownEvents (faulty 0 paired) 0 ≠ [] ∧ ownEvents (faulty 1 paired) 1 ≠ [] ∧
    ownEvents (faulty 1 paired) 0 = [] := by decide +kernel

/-- Bay 0 resynchronises as the home that yielded to Bay 1, runs its self-test, or has come back into lockstep (R274 to R283). -/
def yieldedPair (b : Bay) : State := (paired.setBay 0 { b with count := 4, role := 3, partner := 1, mode := .mirror }).setBay 1
  { paired.bay 1 with role := 4, mode := .play, lockstep := b.lockstep }

theorem witness_PairsComeBack :
    (let s := yieldedPair {}
     (s.bay 0).role = 3 ∧ (s.bay 0).joined = false ∧ (s.bay 0).lockstep = false) ∧ (paired.bay 0).role ≠ 3 ∧
    ((paired.setBay 0 { selfTest := true, count := 4 }).bay 0).selfTest = true ∧ (paired.bay 0).selfTest = false ∧
    ((paired.setBay 0 { selfTest := true, count := 4 }).bayCores 0).contains 31 = true ∧ paired.gone 31 = false ∧
    (let s := yieldedPair { goHome := true, lockstep := true }
     s.homeOf 0 = 0 ∧ s.partnerOf 0 = 1 ∧ (s.bay 0).role = 3 ∧ (s.bay 0).goHome = true ∧ s.inLockstep 0 = true) := by decide +kernel

theorem witness_RenderFrames :
    (inMode .render).acting 0 = 0 ∧ (inMode .render).betweenFrames 0 = true ∧ (inMode .render).mayRender 0 = true ∧
    (renderBays 0 (inMode .render)).betweenFrames 0 = true ∧ (renderBays 0 (inMode .render)).mayRender 0 = true ∧ (inMode .play).betweenFrames 0 = false ∧
    ((inMode .render).setCourse 0 { (inMode .render).course 0 with copies := [1] }).mayRender 0 = false ∧
    (let s := (inMode .render).setBay 0 { (inMode .render).bay 0 with inFrame := true }
     (s.bay 0).inFrame = true ∧ (s.bay 0).mode = .render ∧ s.inControl 0 = true ∧ s.frameDone 0 = true) := by decide +kernel

-- partners, sessions and units -----------------------------------------------------------------------------------------------------------------

/-- Session 255, of a network partner, whose last packet number was 9. -/
def netState : State := ready.setSession 255 { isOpen := true, slot := 0, umpSeq := some 9 }

theorem witness_NetworkPackets :
    netState.macUp = true ∧ ready.macUp = true ∧ State.reset.macUp = false ∧ netState.netSession 255 = true ∧ ready.netSession 255 = false ∧ netState.power.phase = 7 ∧ State.reset.power.phase ≠ 7 ∧
    (netState.session 255).umpSeq = some 9 ∧ (oneSession.session 0).umpSeq = none ∧ ((9 : BitVec 16) - 9).toInt ≤ 0 ∧ (10 : BitVec 16) = 9 + 1 ∧
    1 < ((11 : BitVec 16) - 9).toInt ∧ bits (([0x00200123] : Ump).getD 0 0) 31 28 = 0 ∧ bits (([0x00200123] : Ump).getD 0 0) 23 20 = 2 := by decide +kernel

/-- A stamp late, in the future and out of range at reach point 0; sessions with and without room, and one that drops late events (R31 to R35). -/
theorem witness_EventsEnter :
    classify 0xFFFFFFFF 0 = .late ∧ classify 0 0 = .future ∧ classify 0x40000000 0 = .future ∧ classify 0x40000001 0 = .range ∧
    oneSession.roomFor (some 0) 1 = true ∧ (ready.setSession 0 { isOpen := true, slot := 0, queueLimit := 0 }).roomFor (some 0) 1 = false ∧
    ((ready.setSession 0 { dropLate := true }).session 0).dropLate = true ∧ ready.se.fifo = [] ∧
    ({ ready with se := { ready.se with fifo := [{ session := some 0 }] } } : State).se.fifo = { session := some 0 } :: [] ∧
    ((List.range 256).all fun i => !ready.parked i) = true := by decide +kernel

theorem witness_Partners :
    (openSession 0 1 5 ready).isSome = true ∧
    openSession 0 1 5 { ready with se := { ready.se with sessions := (List.range 256).map fun i => (i, { isOpen := true }) } } = none ∧
    (netState.session 255).isOpen = true ∧ (netState.session 255).transport = 0 ∧ keepsAlive (netState.session 255) = true ∧
    keepsAlive (ready.session 0) = false := by decide +kernel

/-- A UART that is enabled and receives, in RAW mode and not. -/
def uartState (x : Uart) : State := ready.setUart 7 x

/-- A stamped send of one byte whose moment has come (R406). -/
def sendJob : Job := { j := 1, opcode := 0x901, e := entry 0xFF [7, 0x41], phase := .held }
def heldSend : State :=
  { ready with time := { ready.time with stamp := 128 }, mbx := { ready.mbx with jobs := [sendJob] } }

theorem witness_Uarts :
    (let x := (uartState { cfg := 0x80000000, idleWait := false }).uart 7
     x.enable = true ∧ x.idleWait = false ∧ x.rxBusy = false ∧ x.raw = false) ∧
    (let x := (uartState { cfg := 0xC1000000, idleWait := false, holdValid := true }).uart 7
     x.enable = true ∧ x.raw = true ∧ x.holdValid = true ∧ x.parity ≠ 0 ∧ x.ring.length < 1024) ∧
    (ready.uart 7).enable = false ∧ (ready.uart 7).idleWait = true ∧ ready.condDown = false ∧ fencedState.condDown = true ∧
    1024 ≤ ((uartState { ring := List.replicate 1024 0 }).uart 7).ring.length ∧ (ready.uart 7).txShift = none ∧
    ((uartState { txShift := some 1 }).uart 7).txShift = some 1 ∧
    (heldSend.mbx.jobs.find? fun jb => jb.j == 1 && heldSend.sendDue jb) = some sendJob ∧
    (heldSend.mbx.jobs.filter fun y => sendHeld y && (y.j == 1 || decide (stampDist y.stamp sendJob.stamp < 0))) = [sendJob] ∧
    heldSend.sendDue { sendJob with stamp := heldSend.time.stamp } = false ∧
    (let x := (uartState { cfg := 0xC1000000, idleWait := false }).uart 7
     x.parity ≠ 0 ∧ x.parityOf 0x55 = true ∧ x.judge true true (.levels 0xD5) = (0x55, true, true)) ∧
    (let x : Uart := { cfg := 0x82000000, txDiv := 0x1000, txShift := some 0x41, txClk := 100 }
     x.sir = false ∧ (x.charBits 0x41).length = 10 ∧ x.txd 100 = false ∧ x.txd 356 = true ∧ x.txd 612 = false) := by decide +kernel

/-- A character with a wrong stop bit in RAW mode is held with FERR and counted (R404). -/
theorem test_raw_character :
    (match exec (.uartCharacterComplete 7 (.levels 0x55) true false 0) (uartState { cfg := 0xC2000000, idleWait := false }) with
     | .next t => (t.uart 7).holdData == 0x55 && (t.uart 7).holdValid && (t.uart 7).holdFerr && (t.uart 7).framing == 1 | _ => false) = true := by
  decide +kernel

theorem witness_Timers :
    (let x := (ready.setTimer 15 { cfg := 0xF8000000 }).timer 15
     x.enable = true ∧ x.mode = 3 ∧ x.edges = 3) ∧ (let x := (ready.setTimer 15 { cfg := 0xC0000000 }).timer 15; x.enable = true ∧ x.mode = 2 ∧ x.edges = 0) ∧
    (ready.timer 15).enable = false ∧ ready.power.state ≠ 2 ∧ ({ ready with power := { ready.power with state := 2 } } : State).power.state = 2 ∧
    4 ≤ ((ready.setTimer 15 { queue := [{}, {}, {}, {}] }).timer 15).queue.length ∧ (ready.timer 15).queue.length < 4 ∧
    (ready.timer 15).capClk ≠ some ready.time.clkCount ∧ ¬ ((ready.setTimer 15 { capClk := some 0 }).timer 15).capClk ≠ some ready.time.clkCount ∧
    (ready.timer 15).count.toNat < (ready.timer 15).period.toNat := by decide +kernel

/-- ONE-SHOT ends at its period event (R411). -/
theorem test_one_shot_ends :
    (match exec (.periodEvent 15) (ready.setTimer 15 { cfg := 0xC0000000, count := 7, period := 7 }) with
     | .next t => !(t.timer 15).enable && (t.timer 15).irq && (t.timer 15).count == 0 | _ => false) = true := by decide +kernel

/-- A code waits for a CV channel, in the frame after the one that contains its stamp (R385). -/
def cvWaiting : State :=
  { (ready.setDacCh 31 { state := dacSafe, mode := true }) with time := { ready.time with stamp := 128 }, dac := { (ready.setDacCh 31 { state := dacSafe, mode := true }).dac with queue := [{ ch := 31, code := 5 }] } }

theorem witness_Analogue :
    (ready.dacCh 31).off = true ∧ ((ready.setDacCh 31 { state := dacSafe }).dacCh 31).off = false ∧ ((ready.setDacCh 31 { state := dacSafe }).dacCh 31).live = true ∧
    ((ready.setDacCh 31 { state := dacSafe, shorted := true }).dacCh 31).shorted = true ∧ (ready.dacCh 31).shorted = false ∧
    ((ready.setDacCh 31 { state := dacRamp }).dacCh 31).state = dacRamp ∧ ((ready.setDacCh 31 { state := dacSettle }).dacCh 31).state = dacSettle ∧
    ((ready.setDacCh 31 { recalOn := true }).dacCh 31).recalOn = true ∧ ready.dac.queue = [] ∧ (ready.dacCh 31).live = false ∧
    ({ ready with dac := { ready.dac with queue := [{}] } } : State).dac.queue = {} :: [] ∧ State.reset.time.ticking = false ∧ held.inReset = true ∧
    ready.legs 31 = none ∧ (ready.setDacCh 31 { state := dacSafe }).legs 31 = some (32768000, 32768000) ∧
    cvWaiting.dac.queue = { ch := 31, code := 5 } :: [] ∧ cvWaiting.cvDue { ch := 31, code := 5 } = true ∧
    cvWaiting.cvDue { ch := 31, code := 5, stamp := 128 } = false ∧
    ((cvWaiting.dacCh 31).mode = true ∧ (cvWaiting.dacCh 31).live = true) := by decide +kernel

/-- Two messages 99 ns apart collide, two 100 ns apart do not; the port of a domain (R41, R45). -/
theorem witness_PtpMessages :
    ((1099 : BitVec 64) - 1000).toNat < 100 ∧ 100 ≤ ((1100 : BitVec 64) - 1000).toNat ∧
    ({ ready with time := { ready.time with lastTs := some 1000 } } : State).time.lastTs = some 1000 ∧ ready.domPort 0 = 0 ∧ ready.domPort 2 ≠ 1 := by
  decide +kernel

theorem witness_Domains :
    (ready.dom 2).syncWait = false ∧ ((ready.setDom 2 { syncWait := true }).dom 2).syncWait = true ∧ (ready.dom 2).best = [] ∧
    ((ready.setDom 2 { best := [1] }).dom 2).best ≠ [] ∧ (ready.dom 2).locked = false ∧ ((ready.setDom 2 { locked := true }).dom 2).locked = true ∧
    corDom 2 = 2 ∧ corDom 1 = 0 ∧ ready.time.activeCor = 0 ∧
    ({ ready with time := { ready.time with activeCor := 2 } } : State).time.activeCor ≠ 0 := by decide +kernel

/-- A frame that waits at port 1, judged or not, at each bound of the check (R363). -/
def launching (x : Launch) : State := { ready with audio := { ready.audio with launch := [x] } }

theorem witness_FrameLaunches :
    (launching { port := 1 }).audio.launch.find? (inQueue 1 false) = some { port := 1 } ∧ ready.audio.launch.find? (inQueue 1 false) = none ∧
    (launching {}).untilLaunch {} = 0 ∧ (launching {}).untilLaunch { launch := 1 } = 1 ∧ (launching {}).untilLaunch { launch := 1000000000 } = 1000000000 ∧
    1000000000 < (launching {}).untilLaunch { launch := 1000000001 } ∧ (launching {}).untilLaunch { launch := 0xFFFFFFFF } = -1 ∧
    (launching {}).untilLaunch { launch := 0xFFFE17B8 } = -125000 ∧ (launching {}).untilLaunch { launch := 0xFFFE17B7 } < -125000 := by decide +kernel

/-- Listener stream 31 is bound to the stream_id 5, with session 0 (R300, R362). -/
def boundStream : State :=
  (ready.setStm 31 { listener := true, streamId := 5, bound := some 5, sess := some (0, 3), connected := true }).setSession 0
    { isOpen := true, transport := 1, tag := 3 }

theorem witness_Listeners :
    (let x := (ready.setStm 31 { enable := true, listener := true }).stm 31
     x.enable = true ∧ x.listener = true ∧ seqGap x.rxSeq 9 = 0 ∧ x.bound = none) ∧ ready.formatMatches { channels := 2 } (ready.streamFormat { channels := 2 }) = true ∧
    ready.formatMatches { channels := 2 } 0 = false ∧ ready.formatOk true 0 = false ∧ ready.formatOk false (ready.streamFormat {}) = true ∧
    boundStream.boundTo 31 5 = some 0 ∧ boundStream.stmSession 31 = some 0 ∧ ready.boundTo 31 5 = none ∧ (boundStream.stm 31).bound = some (boundStream.stm 31).streamId ∧
    (openSession 1 0 5 ready).isSome = true ∧ ready.macUp = true ∧ (ready.stm 31).enable = false ∧ (ready.stm 31).listener = false ∧
    ready.aemStatus 5 = 0 ∧
    ({ ready with audio := { ready.audio with acquired := some 6 } } : State).aemStatus 5 ≠ 0 ∧ ready.audio.refLost = false ∧
    ({ ready with audio := { ready.audio with refLost := true } } : State).audio.refLost = true := by decide +kernel

-- health, tamper and resets ------------------------------------------------------------------------------------------------------------------------

theorem witness_Health :
    ready.health.pmbusFail = false ∧ ({ ready with health := { ready.health with pmbusFail := true } } : State).health.pmbusFail = true ∧
    ready.health.setpoint ≤ ready.health.vmax ∧ 2160 ≤ (({ ready with health := { ready.health with poweredHours := 2160 } } : State).health.poweredHours
      - (ready.course 7).lastCycle).toNat ∧ (ready.health.poweredHours - (ready.course 7).lastCycle).toNat < 2160 ∧
    ((ready.setCourse 7 { cycleStep := 1 }).course 7).cycleStep = 1 ∧ (ready.course 7).cycleStep < 3 ∧ banksTested 7 ready = false ∧
    (let s := (inMode .service).setCourse 7 { cycleStep := 3, tested := List.range 64 }
     3 ≤ (s.course 7).cycleStep ∧ (s.course 7).testBank = none ∧ banksTested 7 s = true) ∧
    (let s : State := { ready with health := { ready.health with setpoint := 760, vmax := 757 } }
     s.health.vmax < s.health.setpoint ∧ Nat.max (s.health.setpoint - 5) s.health.vmax = 757) ∧
    ({ ready with health := { ready.health with avsEn := false } } : State).health.avsEn = false ∧
    ((inMode .service).bay ((inMode .service).courseBay 7)).mode = .service ∧ (ready.bay (ready.courseBay 7)).mode ≠ .service := by decide +kernel

/-- A TAMP_IN pin that differs from its TAMP_OUT at two samples running holds its source, one that follows it does not (R430). -/
theorem witness_Tin :
    ready.sourceHolds 1 [(!Config.tampBit 0 (ready.slowNow true 0 - 1), !Config.tampBit 0 (ready.slowNow true 0))] true 0 0 = true ∧
    ready.sourceHolds 1 [(Config.tampBit 0 (ready.slowNow true 0 - 1), true)] true 0 0 = false := by
  constructor <;> simp [State.sourceHolds, tinBroken]

theorem witness_Tamper :
    (0x20 : BitVec 6).getLsbD 5 = true ∧ ready.vault.active.getLsbD 5 = false ∧ monitored ready true 5 = true ∧ monitored ready true 0 = false ∧
    sourceLevel ready 5 = 1 ∧ sourceLevel { ready with vault := { ready.vault with levels := 0x955 } } 5 = 2 := by decide +kernel

theorem witness_Resets :
    State.reset.inReset = false ∧ held.power.holdPor = true ∧ State.reset.time.ticking = false ∧ ready.time.ticking = true ∧ ready.power.state ≠ 2 ∧
    ({ ready with power := { ready.power with state := 2 } } : State).power.state = 2 := by decide +kernel

/-- Every phase of start-up, both kinds of boot, recovery mode, and a self-test that has run (R473, R474). -/
def inPhase (n : BitVec 4) : State := { State.reset with power := { State.reset.power with phase := n } }

theorem witness_Boot :
    (inPhase 0).coldBoot = true ∧ (inPhase 0).power.fusesRead = false ∧
    ({ inPhase 0 with power := { (inPhase 0).power with fusesRead := true } } : State).power.fusesRead = true ∧ Mem.wf ((inPhase 5).core 63).prog = true ∧ (3 : BitVec 2) = 3 ∧ (2 : BitVec 2) ≠ 3 ∧ (inPhase 3).power.recovery = false ∧ (inPhase 6).power.tested = false ∧
    ({ inPhase 6 with power := { (inPhase 6).power with tested := true } } : State).power.tested = true ∧
    ((List.range 7).all fun n => (inPhase (BitVec.ofNat 4 n)).power.phase.toNat == n && !(inPhase (BitVec.ofNat 4 n)).inReset) = true := by decide +kernel

/-- A flash that does not answer halts the boot with the code 0x02 (R473). -/
theorem test_no_flash :
    (match exec (.bootPhase .noFlash) (inPhase 2) with | .next t => t.power.phase == 15 && t.power.error == 0x02 | _ => false) = true := by decide +kernel

-- the block as a whole ------------------------------------------------------------------------------------------------------------------------------

/-- The memories of the reset state have their canonical form, and a step keeps it. -/
theorem reset_memWf : State.reset.memWf = true := by decide +kernel

theorem witness_MemoryForm : State.reset.memWf = true ∧ (withData [1, 2] ready).memWf = true ∧ (∃ t, step State.reset = .next t) :=
  ⟨by decide +kernel, by decide +kernel, ⟨_, rfl⟩⟩

theorem witness_EntriesReadBack :
    (0xFFF < 4096 ∧ entryLen { entry 0xFF (List.replicate 1021 1) with stamped := true, stamp := 5 } ≤ 1024 ∧ Mem.wf ready.mem.win = true ∧
      (ready.chan 15).cmdPi = (ready.chan 15).cmdCi) ∧
    readEntry 0 (hostPut 0x123 { entry 0xFF [7, 8] with stamped := true, stamp := 5 } ready) =
      (0x123, { entry 0xFF [7, 8] with stamped := true, stamp := 5 }, true) := by decide +kernel

/-- An instruction with an extension word and one without. -/
theorem witness_InstructionWords :
    (encodeCore (.movm 0 0 true false (.absolute 5))).isSome = true ∧ (encodeCore (.padd 63 7 0xFFF)).isSome = true := by decide +kernel

theorem witness_Step :
    (match step { State.reset with pending := [.nop 0, .nop 1] } with | .next t => t.pending == [.nop 1] | _ => false) = true ∧
    State.reset.pending = [] ∧ State.reset.power.resetDue = false ∧ (Instr.nop 63).wf = true ∧ (Instr.nop 64).wf = false := by decide +kernel

theorem test_no_command_words : decodeTableWord 8 5 = none ∧ State.reset.withFetchWord 8 5 = State.reset := ⟨rfl, rfl⟩

/-- A boot header with a good tag under the key `k`. -/
def taggedHeader (k : BitVec 256) (seq : Word) : List Word :=
  let ws : List Word := [0x42480101, seq, 0x00640008, 0x12, 0, 0, 0, 0]
  ws ++ digestWords (hmac k (wordBytes ws))

/-- Two valid header copies, the second newer, and none (R474). -/
theorem witness_Headers (k : BitVec 256) :
    headerValid k (taggedHeader k 1) = true ∧ headerValid k (taggedHeader k 2) = true ∧
    (0 : Int) < ((taggedHeader k 2).getD 1 0 - (taggedHeader k 1).getD 1 0).toInt ∧ headerOf k [] [] = none ∧
    headerOf k (taggedHeader k 1) (taggedHeader k 2) = some (taggedHeader k 2) := by
  have h : ∀ n, headerValid k (taggedHeader k n) = true := fun n => by
    have hl : (taggedHeader k n).length = 16 := by simp [taggedHeader, digestWords_length]
    have hg : bits ((taggedHeader k n).getD 0 0) 31 16 = 0x4248 := by
      show bits (0x42480101 : Word) 31 16 = 0x4248
      decide
    have ht : imageTagOk k (taggedHeader k n) = true := imageTagOk_tagged k _
    unfold headerValid
    rw [hl, hg, ht]; rfl
  have hs : (0 : Int) < ((taggedHeader k 2).getD 1 0 - (taggedHeader k 1).getD 1 0).toInt := by simp [taggedHeader]
  refine ⟨h 1, h 2, hs, by simp [headerOf, headerPick, headerValid], ?_⟩
  simp only [headerOf, headerPick, h, Bool.and_self, if_true, decide_eq_true hs, Option.map_some]

/-- An image with its tag is authentic, an empty one is not (R425): both slots, one, or none of the flash. -/
theorem witness_Images (k : BitVec 256) (ws : List Word) :
    imageTagOk k (ws ++ digestWords (hmac k (wordBytes ws))) = true ∧ imageTagOk k [] = false := by
  refine ⟨imageTagOk_tagged k ws, ?_⟩
  have h : digestWords (hmac k (wordBytes [])) ≠ [] := fun h => by simpa [h] using digestWords_length (hmac k (wordBytes []))
  simpa [imageTagOk] using h

/-- In and out of reset, a port disabled and a running master, and two host port forms (R479). -/
theorem witness_QuietOutputs :
    ({ ready with power := { ready.power with holdPor := true } } : State).ball .bsyN = .pullUp ∧ ready.power.holdPor = false ∧ ready.inReset = false ∧
    (let s : State := { ready with audio := { ready.audio with tdm := [(0, 0xC8010000)] } }
     bit (s.tdmOf 0) 31 = true ∧ bit (s.tdmOf 0) 30 = true ∧ s.ball (.tdmClock 0) = .unit) ∧ bit (ready.tdmOf 7) 31 = false ∧ ready.power.host = 0 ∧
    ({ ready with power := { ready.power with host := 1 } } : State).ball .hostIrqN = .high ∧
    ({ ready with power := { ready.power with host := 2 } } : State).power.host ≠ 1 ∧ ready.vault.tinEn.getLsbD 0 = false ∧
    ({ ready with vault := { ready.vault with tinEn := 2 } } : State).vault.tinEn.getLsbD 1 = true ∧ ready.legs 0 = none ∧
    (ready.setDacCh 0 { state := dacSafe }).legs 0 = some (32768000, 32768000) := by decide +kernel

/-- R175's example: segment 0 of 192 samples to 0x7F_FFFF along CURVE 7 stands at 0.00358 after 11 ticks. -/
theorem test_envelope_level : envLevel 7 0x7FFFFF 0x7FFFFF 0 11 3072 = 30037 := by decide

/-- A Scarf of 96 samples starts at full gain, which saturates, and stands at one half in its middle (R118). -/
theorem test_scarf_gain : scarfGain 96 0 = 0x7FFFFF ∧ scarfGain 96 48 = 0x400000 := by decide

/-- A pitch of 0 semitones above 440 Hz: 440 x 2^48 / 768,000 = 161,261,705,407.1 (R170). -/
theorem test_pitch_increment : pitchIncrement 0 1 48000 = 161261705407 := by decide

/-- The digest of the three bytes "abc", of FIPS 180-4, and the block of AES-256 in FIPS 197 (R422 to R426). -/
theorem test_sha256 : sha256 [0x61, 0x62, 0x63] = 0xBA7816BF8F01CFEA414140DE5DAE2223B00361A396177A9CB410FF61F20015AD := by decide +kernel
theorem test_aes256 :
    bytesNat (aesEncrypt (keySchedule 0x000102030405060708090A0B0C0D0E0F101112131415161718191A1B1C1D1E1F) (natBytes 16 0x00112233445566778899AABBCCDDEEFF)) =
      0x8EA2B7CA516745BFEAFC49904B496089 := by decide +kernel
/-- The third test case of the GCM specification for a 256-bit key: the first words of the key stream (R428). -/
theorem test_gcm_stream : gcmWord 0 [0, 0, 0] 0 0 = 0x3D40A7CE := by decide +kernel

-- the clauses that later sections of the statements name -----------------------------------------------------------------------------------

/-- Core 3 with a LEVEL 1 task ready in context 2, over a LEVEL 0 task in context 1 that runs. -/
def preemptible (c : VCore) : State := ready.setCore 3 { c with tasks := [(1, {}), (2, { kind := 1, fresh := false })], current := some 1 }

/-- PREEMPTION with no task to serve, held in the shadow set and in a delay slot, over a free core, over a LEVEL 1 task, at the limit of 7, and
taken (R230, R249, R250). -/
theorem witness_Preemption :
    firstWith (fun t => t.kind == 1 && !t.passed) (ready.core 3) = none ∧
    firstWith (fun t => t.kind == 1 && !t.passed) ((preemptible {}).core 3) = some 2 ∧
    ((preemptible { inShadow := true }).core 3).inShadow = true ∧
    ((ready.setCore 3 { tasks := [(2, { kind := 1, fresh := false })] }).core 3).current = none ∧
    ((ready.setCore 3 { tasks := [(1, { kind := 1 }), (2, { kind := 1, fresh := false })], current := some 1 }).core 3).runsLevel0 = false ∧
    ((preemptible {}).core 3).runsLevel0 = true ∧ 7 ≤ ((preemptible { preempts := 7 }).core 3).preempts ∧ ((preemptible { preempts := 6 }).core 3).preempts < 7 ∧
    ((preemptible { prim := { delay := some {} } }).core 3).interruptible = false ∧ ((preemptible {}).core 3).interruptible = true := by decide +kernel

/-- The request in a delay slot is held, and the instruction after the slots lets the task in (R230, R231). -/
theorem test_held_preemption_is_taken :
    (match exec (.preemption 3) (preemptible { prim := { delay := some { left := 1, taken := false } } }) with
     | .next t => (t.core 3).preemptReq && !(t.core 3).inShadow &&
        (match exec (.nop 3) t with | .next u => (u.core 3).inShadow && (u.core 3).shCurrent == some 2 | _ => false)
     | _ => false) = true := by decide +kernel

/-- END in a delay slot, without a task, and in each register set; a core that starts no task (R216, R227, R230, R248). -/
theorem witness_End_Dispatch :
    Issues (withRegs { delay := some {} }) 3 ∧ ((withRegs { delay := some {} }).regs 3).delay.isSome = true ∧
    Issues (preemptible {}) 3 ∧ Issues (preemptible { inShadow := true, shCurrent := some 2 }) 3 ∧
    ((preemptible { inShadow := true, shCurrent := some 2 }).core 3).tasks.find 2 = some { kind := 1, fresh := false } ∧
    ((preemptible {}).core 3).current.isSome = true ∧ firstReady false (ready.core 3) = none :=
  ⟨issues_of (by decide +kernel), by decide +kernel, issues_of (by decide +kernel), issues_of (by decide +kernel), by decide +kernel, by decide +kernel,
   by decide +kernel⟩

/-- A branch that is not taken keeps its slots; a fetch outstanding or not; errors in a block with a task, in the program words, and with and without a
partner that can take control (R217, R226, R228, R233, R285). -/
theorem witness_Slots_Fetching_Errors :
    (∃ r : RegSet, ∃ d, r.delay = some d ∧ d.left = 1 ∧ d.taken = false) ∧ (∃ r : RegSet, ∃ d, r.delay = some d ∧ d.left = 1 ∧ d.taken = true) ∧
    ((withRegs {}).core 3).fetching = false ∧ ((ready.setCore 3 { fetches := [{}] }).core 3).fetching = true ∧
    ((preemptible {}).core 3).tasks.find (0x180 / 192) = some { kind := 1, fresh := false } ∧ ready.covered (ready.courseBay 0) = false ∧
    paired.covered (paired.courseBay 0) = true :=
  ⟨⟨{ delay := some { left := 1, taken := false } }, _, rfl, rfl, rfl⟩, ⟨{ delay := some { left := 1 } }, _, rfl, rfl, rfl⟩, by decide +kernel, by decide +kernel,
   by decide +kernel, by decide +kernel, by decide +kernel⟩

/-- A double-bit error in the program words fails the core of a Bay without a partner (R233, R285). -/
theorem test_program_error_fails_the_core :
    (match exec (.localMemoryError 3 .prog 0x1FFF true) ready with
     | .next t => (t.core 3).failed && (t.core 3).retire && (t.bay 0).events == [(1, 3)] | _ => false) = true := by decide +kernel

/-- An initiator the device has and one it has not; each host port form (R22, R471). -/
theorem witness_Initiators_Forms :
    initiatorIs .host = true ∧ initiatorIs (.core 64) = false ∧ fast3.power.host = 1 ∧ ready.power.host ≠ 1 ∧ ready.power.host ≠ 2 ∧
    ({ fast3 with power := { fast3.power with host := 2 } } : State).power.host = 2 ∧ 0xFFFC % 4 = 0 ∧ fast3.inReset = false := by decide +kernel

/-- Object 9 of Bay 7 is asked for and in service; object 8 waits behind it (R340, R345). -/
def asked : State :=
  { ready with mem := { ready.mem with content := [(9, {})], resid := [(residKey 7 9, { loading := true, at_ := [(0, 7)] })],
                                       requests := [{ bay := 7, object := 9 }, { bay := 7, object := 8 }] } }

theorem witness_Requests :
    (asked.resid 7 9).loading = true ∧ asked.inStore 9 = true ∧ asked.servedNow 7 9 = true ∧ asked.servedNow 7 8 = false ∧ (asked.resid 7 9).at_ = [(0, 7)] ∧ 7 = objWords (asked.contentOf 9).header ∧ asked.vault.keylock = false ∧
    pinJobs 7 9 asked = [] ∧ [({ bay := 7, object := 8 } : MemReq)].Pairwise (fun x y => memRank x ≤ memRank y) := by decide +kernel

/-- A drain that has ended and one that has not; a step 3 of FW.UPDATE under probation (R272, R292). -/
theorem witness_Drained_Probation :
    drained 0 stepping2 = true ∧ drained 0 { stepping2 with voices := (aVoice .held).voices } = false ∧
    ({ stepping2 with power := { stepping2.power with probation := true } } : State).power.probation = true ∧ stepping2.power.probation = false ∧
    ({ draining with done := 2 } : Stepped).done = 2 := by decide +kernel

/-- Bay 0 has everything copied, or not yet; its third yield within 60 s (R276, R281). -/
theorem witness_Resynced_Yields :
    (yieldedPair {}).resynced 0 = false ∧ (yieldedPair { copied := some copySteps }).resynced 0 = true ∧ (recentYields ready 0).length < 3 := by decide +kernel

/-- The intake has room in the frame, or has had all of it; a promotion that is due (R310, R343). -/
def parkedState : State := oneSession.setSession 0 { oneSession.session 0 with slot := 255 }

theorem witness_Intake_Promotion :
    ready.se.intakeTaken < intakePerFrame ready.time.rate ∧
    intakePerFrame ready.time.rate ≤ ({ ready with se := { ready.se with intakeTaken := 2000000 } } : State).se.intakeTaken ∧
    ready.parked 0 = false ∧ parkedState.parked 0 = true ∧ parkedState.roomFor (some 0) 1 = true ∧ ready.mem.promoteDue = false ∧ ({ ready with mem := { ready.mem with promoteDue := true } } : State).mem.promoteDue = true ∧
    candidates 0 ready = [] := by decide +kernel

/-- Object 9 is wanted in Bay 7, which owns one bank with room (R342, R343). -/
def promotable : State :=
  ({ ready with mem := { ready.mem with content := [(9, {})], resid := [(residKey 7 9, { heat := 1 })], promoteDue := true } }).setBank 5 { owner := 7 }

/-- Whatever places are named first, one bank with room is taken. -/
theorem one_place (n : Nat) (l : List Nat) :
    ((l.filter [n].contains).eraseDups ++ [n].filter fun m => !((l.filter [n].contains).eraseDups).contains m) = [n] := by
  have h : ∀ m ∈ l.filter [n].contains, m = n := fun m hm => by simpa using (List.mem_filter.mp hm).2
  generalize l.filter [n].contains = k at h
  cases k with
  | nil => simp
  | cons a t =>
    have ha : a = n := h a (by simp)
    have ht : t.filter (fun b => !b == a) = [] := by
      rw [List.filter_eq_nil_iff]
      intro b hb
      simp [h b (by simp [hb]), ha]
    rw [List.eraseDups_cons, ht]
    simp [ha]

theorem witness_Promotion :
    candidates 7 promotable = [9] ∧ promotable.objResident 7 9 = false ∧ (promotable.resid 7 9).loading = false ∧
    (allocate 7 (objWords (promotable.contentOf 9).header) (promotable.contentOf 9).prot (promotable.bayBanks 7) promotable).isSome = true := by
  refine ⟨by decide +kernel, by decide +kernel, by decide +kernel, ?_⟩
  have h1 : placesFor (promotable.contentOf 9).prot (promotable.bayBanks 7) (spaceUses 7 promotable) promotable = [5] := by decide +kernel
  unfold allocate
  simp only [h1]
  rw [one_place]
  decide +kernel

/-- Exchanges and ramps of a domain (R41, R42, R46). -/
theorem witness_Exchanges_Ramps :
    ((ready.setDom 2 { reqAt := some 5, pdelayWait := true }).dom 2).reqAt = some 5 ∧ ((ready.setDom 2 { pdelayBad := true }).dom 2).pdelayBad = true ∧
    ((ready.setDom 2 { sent := [.pdelayReq] }).dom 2).sent.head? = some .pdelayReq ∧ ((ready.setDom 2 { priority1 := 1 }).dom 2).master = true ∧ (ready.dom 2).master = false ∧
    rateOk 100000000 = true ∧ rateOk (-100000001) = false ∧
    (let s : State := { ready with time := { ready.time with switching := true } }
     (s.time.switching && rampDone s (s.time.rampFrames + 1)) = true) ∧ (ready.time.switching && rampDone ready 1) = false := by decide +kernel

/-- A queue's head judged or not, late or not, alone or before one that was judged (R49). -/
theorem witness_JudgedHeads :
    ([{ judged := true }] : List Launch).find? (inQueue 0 false) = some { judged := true } ∧
    ([{ classB := true, judged := true }] : List Launch).all (fun y => !(inQueue 0 false y && y.judged)) = true ∧
    ([{ port := 1 }] : List Launch).all (fun y => !inQueue 0 false y) = true := by decide +kernel

/-- READY sends one advertisement for each port, the port number and 5,504 in it (R300). -/
theorem test_advertise : ((advertise ready).out.map fun x => x.data.take 2) = [[1, 5504], [0, 5504]] := by decide +kernel

end Sys2Proof.Tests
end

section
/-! PROOFS. SYS.NOP (R92): what reading an entry changes, the checks of the card, and the answer. -/

namespace Sys2Proof.Machine

/-- All that reading an admitted entry does: the host's write of the entry, and the channel's indices, doorbell and sequence (R58, R68, R72). -/
theorem entered_eq (c : Card) (e : Entry) (s : State) :
    ∃ win chs, entered c e s = { s with mbx := { s.mbx with chans := chs, lastServed := e.ch }, mem := { s.mem with win := win } } := by
  unfold entered hostPut
  dsimp only
  split <;> exact ⟨_, _, rfl⟩

theorem entered_onlyMailbox (c : Card) (e : Entry) (s : State) : OnlyMailbox s (entered c e s) := by
  obtain ⟨win, chs, h⟩ := entered_eq c e s
  rw [h]
  rfl

@[simp] theorem entered_journal (c : Card) (e : Entry) (s : State) : (entered c e s).mbx.journal = s.mbx.journal := by
  obtain ⟨win, chs, h⟩ := entered_eq c e s
  rw [h]

@[simp] theorem entered_epoch (c : Card) (e : Entry) (s : State) : (entered c e s).mbx.epoch = s.mbx.epoch := by
  obtain ⟨win, chs, h⟩ := entered_eq c e s
  rw [h]

@[simp] theorem entered_condStatus (c : Card) (e : Entry) (s : State) : (entered c e s).condStatus = s.condStatus := by
  obtain ⟨win, chs, h⟩ := entered_eq c e s
  rw [h]
  rfl

/-- An entry that is read and passes steps 1 and 2 with a journal slot free is taken (R68, R70, R85). -/
theorem Reads.taken {e : Entry} {s : State} (c : Card) (h : Reads e s) (hv : e.version = 1)
    (hq : (s.chan e.ch).seqFree = true ∨ e.seq = (s.chan e.ch).expectSeq) (hj : journalFull s = false) : Taken c e s where
  channel := h.channel
  serves := h.serves
  empty := h.empty
  framed := h.framed
  version := hv
  sequence := hq
  journal := hj

/-- A command that is not journalled answers a failed check with journal index 0 (R70, R91). -/
theorem command_refused_unjournalled {c : Card} {e : Entry} {s : State} {f : Fail} (hc : c.journalled = false) (h : Taken c e s)
    (hf : validate c e (entered c e s) = some f) : command c e s = .next (answer e f.1 0 f.2 true (c.onFail e f (entered c e s))) := by
  rw [command_refused h hf, hc]
  rfl

/-- A command that is not stamped starts on the state in which its entry was validated. -/
theorem begun_of_not_stamped (c : Card) (e : Entry) (s : State) (h : e.stamped = false) : begun c e s = entered c e s := by
  simp [begun, stampAdmit, h]

/-- The checks that SYS.NOP can fail, in their order (R70, R92): no Bay is among its targets, so no mode is asked for, and a stamp, which the later
checks read, is refused with the flags. -/
theorem validate_sysNop (e : Entry) (s : State) :
    validate cardSysNop e s =
      firstFail [need (decide (e.payload = [])) eLength, need (decide (e.rsv = 0 ∧ e.target = 0xFF)) eRange, need (!e.stage && !e.stamped) eConflict] := by
  have hrange : (decide (e.rsv = 0) && targetOk cardSysNop e s && cardSysNop.range e s) = decide (e.rsv = 0 ∧ e.target = 0xFF) := by
    by_cases ht : e.target = 0xFF <;> simp [targetOk, cardSysNop, ht]
  have hlen : cardSysNop.len e = decide (e.payload = []) := by cases h : e.payload <;> simp [cardSysNop, h]
  have hflags : cardSysNop.flags e s = (!e.stage && !e.stamped) := rfl
  rw [validate, hlen, hrange, hflags]
  by_cases hp : e.payload = []
  case neg => rw [decide_eq_false hp]; rfl
  by_cases hr : e.rsv = 0 ∧ e.target = 0xFF
  case neg => rw [decide_eq_true hp, decide_eq_false hr]; rfl
  cases hf : !e.stage && !e.stamped
  case false => rw [decide_eq_true hp, decide_eq_true hr]; rfl
  have hs : e.stamped = false := by simpa using (Bool.and_eq_true_iff.mp hf).2
  rw [decide_eq_true hp, decide_eq_true hr]
  change _ = none
  rw [firstFail_eq_none]
  simp [cardSysNop, modeOk, isLate, hs, hr.2]

section Checks
variable {e : Entry} (s : State)

theorem validate_sysNop_length (hp : e.payload ≠ []) : validate cardSysNop e s = some (eLength, []) := by
  rw [validate_sysNop, decide_eq_false hp]
  rfl

theorem validate_sysNop_range (hp : e.payload = []) (hr : e.rsv ≠ 0 ∨ e.target ≠ 0xFF) :
    validate cardSysNop e s = some (eRange, []) := by
  rw [validate_sysNop, decide_eq_true hp, decide_eq_false (not_and_or.mpr hr)]
  rfl

theorem validate_sysNop_conflict (hp : e.payload = []) (hr : e.rsv = 0) (ht : e.target = 0xFF) (hf : e.stage = true ∨ e.stamped = true) :
    validate cardSysNop e s = some (eConflict, []) := by
  have hflags : (!e.stage && !e.stamped) = false := by simpa [or_iff_not_imp_left] using hf
  rw [validate_sysNop, decide_eq_true hp, decide_eq_true ⟨hr, ht⟩, hflags]
  rfl

theorem validate_sysNop_ok (hp : e.payload = []) (hr : e.rsv = 0) (ht : e.target = 0xFF) (hg : e.stage = false) (hs : e.stamped = false) :
    validate cardSysNop e s = none := by
  rw [validate_sysNop, decide_eq_true hp, decide_eq_true ⟨hr, ht⟩, hg, hs]
  rfl

end Checks

/-- SYS.NOP is the row of its card (R9, R92). -/
theorem exec_sysNop (e : Entry) (s : State) : exec (.sysNop e) s = command cardSysNop e s := rfl

/-- A SYS.NOP that fails a check only answers, with the status of that check (R70, R91). -/
theorem exec_sysNop_refused {e : Entry} {s : State} {st : Status} (h : Taken cardSysNop e s)
    (hf : validate cardSysNop e (entered cardSysNop e s) = some (st, [])) :
    exec (.sysNop e) s = .next (answer e st 0 [] true (entered cardSysNop e s)) :=
  command_refused_unjournalled rfl h hf

/-- A SYS.NOP that passes every check only answers, with the two words as they stood before it (R92). -/
theorem exec_sysNop_accepted {e : Entry} {s : State} (h : Accepted cardSysNop e s) (hs : e.stamped = false) :
    exec (.sysNop e) s = .next (answer e stDone 0 [s.condStatus, s.mbx.epoch] true (entered cardSysNop e s)) := by
  rw [exec_sysNop, command_accepted h, begun_of_not_stamped _ _ _ hs]
  simp [cardSysNop, finishUnjournalled]

/-- Settles O9: the checks of the card in the order of R70, each answered on the state in which the entry was read. -/
theorem sysNopChangesNothing : Obligations.SysNopChangesNothing := by
  intro e s hread hv hq hj
  have ht : Taken cardSysNop e s := hread.taken cardSysNop hv hq hj
  refine ⟨entered_onlyMailbox _ e s, entered_journal _ e s, entered_epoch _ e s, fun hp => ?length, fun hp hr => ?range,
    fun hp hr hd hf => ?conflict, fun hp hr hd hg hs => ?done⟩
  case length => exact exec_sysNop_refused ht (validate_sysNop_length _ hp)
  case range => exact exec_sysNop_refused ht (validate_sysNop_range _ hp hr)
  case conflict => exact exec_sysNop_refused ht (validate_sysNop_conflict _ hp hr hd hf)
  case done => exact exec_sysNop_accepted ⟨ht, validate_sysNop_ok _ hp hr hd hg hs⟩ hs

end Sys2Proof.Machine
end

section
/-! PROOFS. MIN, MAX, MINUW and MAXUW (R221): what a search does to the registers, and what the instruction around it leaves. -/

namespace Sys2Proof.Machine

section Search
variable (better : Acc → Acc → Bool) (x : Acc) (wd : BitVec 2) (r : RegSet)

/-- The accumulators after a search: Wd takes a value that is better, the others stay (R221). -/
theorem opSearch_wr (d : Nat) :
    (opSearch better x wd r).wr d = oneAcc r wd (if better x (r.wr wd.toNat) then x else r.wr wd.toNat) d := by
  unfold opSearch oneAcc
  cases better x (r.wr wd.toNat)
  case true => exact wr_setW r wd.toNat d x
  case false =>
    by_cases hd : d = wd.toNat
    · rw [if_pos hd, hd]; rfl
    · rw [if_neg hd]; rfl

/-- The index registers after a search: IX(d) takes ECNT as it stood before the count (R221). -/
theorem opSearch_ix (d : Nat) :
    (opSearch better x wd r).ix.look d 0 = if better x (r.wr wd.toNat) ∧ d = wd.toNat then r.ecnt else r.ix.look d 0 := by
  unfold opSearch
  cases better x (r.wr wd.toNat)
  case true =>
    change (r.ix.put wd.toNat r.ecnt).look d 0 = _
    simp [Tab.look_put]
  case false => rfl

/-- CY after a search says whether the value was better (R221). -/
theorem opSearch_flag_cy : (opSearch better x wd r).flag csrCY = better x (r.wr wd.toNat) :=
  getLsbD_setBit _ csrCY _ csrCY (by decide)

/-- Every search counts an element, modulo 2^16 (R221). -/
theorem opSearch_ecnt : (opSearch better x wd r).ecnt = r.ecnt + 1 := rfl

end Search

theorem SameOps.wr_eq {r q : RegSet} (h : SameOps r q) : q.wr = r.wr := funext fun d => congrArg (Tab.look · d 0) h.w

theorem SameOps.ur_eq {r q : RegSet} (h : SameOps r q) : q.ur = r.ur := funext fun i => congrArg (Tab.look · i 0) h.u

theorem SameOps.vr_eq {r q : RegSet} (h : SameOps r q) : q.vr = r.vr := funext fun i => congrArg (Tab.look · i 0) h.v

/-- A search with allowed ports whose value `x` the ports leave: it takes the accumulators, IX, CY and ECNT as R221 says. -/
theorem searches_of_portOp {i : Instr} {k : Nat} {pt : Ports} {s : State} (better : Acc → Acc → Bool) (x : RegSet → Acc) (wd : BitVec 2)
    (hs : Issues s k) (hp : portsOk pt = true) (hi : exec i s = portOp k pt (fun _ r => opSearch better (x r) wd r) s)
    (hx : ∀ q, SameOps (s.regs k) q → x q = x (s.regs k)) :
    Searches i k wd s (x (s.regs k)) (better (x (s.regs k)) ((s.regs k).wr wd.toNat)) := by
  obtain ⟨t, q, ht, honly, hq, hw, hcsr, hix, hecnt⟩ := portOp_result k pt (fun _ r => opSearch better (x r) wd r) s hs hp
  have hwr : q.wr = (s.regs k).wr := hq.wr_eq
  rw [hx q hq] at hw hcsr hix hecnt
  refine ⟨t, hi.trans ht, honly, fun d _ => ?accs, fun d _ => ?index, ?carry, ?count⟩
  case accs =>
    calc (t.regs k).wr d = (opSearch better (x (s.regs k)) wd q).wr d := congrArg (Tab.look · d 0) hw
      _ = _ := by rw [opSearch_wr, oneAcc, oneAcc, hwr]
  case index => rw [hix, opSearch_ix, hwr, hq.ecnt, hq.ix]
  case carry =>
    calc (t.regs k).flag csrCY = (opSearch better (x (s.regs k)) wd q).flag csrCY := hcsr csrCY (by decide) (by decide)
      _ = _ := by rw [opSearch_flag_cy, hwr]
  case count => rw [hecnt, opSearch_ecnt, hq.ecnt]

/-- Settles O23: each of the four is one search, by its own comparison and on its own value. -/
theorem searchesKeepTheFirstBest : Obligations.SearchesKeepTheFirstBest := by
  intro k wd ui pt s hs hp
  have signed : ∀ q, SameOps (s.regs k) q → placeF (q.ur ui.toNat) = placeF ((s.regs k).ur ui.toNat) := fun q hq => by
    rw [hq.ur_eq]
  have unsigned : ∀ q, SameOps (s.regs k) q → pairUV ui q = pairUV ui (s.regs k) := fun q hq => by
    rw [pairUV, pairUV, hq.ur_eq, hq.vr_eq]
  refine ⟨?min, ?max, ?minuw, ?maxuw⟩
  case min => exact searches_of_portOp BitVec.slt (fun r => placeF (r.ur ui.toNat)) wd hs hp rfl signed
  case max => exact searches_of_portOp (fun a b => BitVec.slt b a) (fun r => placeF (r.ur ui.toNat)) wd hs hp rfl signed
  case minuw => exact searches_of_portOp BitVec.ult (pairUV ui) wd hs hp rfl unsigned
  case maxuw => exact searches_of_portOp (fun a b => BitVec.ult b a) (pairUV ui) wd hs hp rfl unsigned

end Sys2Proof.Machine
end

section
/-! PROOFS. The parallel port (R338): what one access of the host port does (R336, R483, R493), and the four half accesses in terms of it. -/

namespace Sys2Proof.Machine

-- one access of the host port --------------------------------------------------------------------------------------------------------------

@[simp] theorem innerSide_none (s : State) : innerSide none s = ([], s) := rfl

/-- A write of the Host Window changes its bytes and nothing else. -/
theorem putWin_eq (a : WordAcc) (s : State) : ∃ win, putWin a s = { s with mem := { s.mem with win := win } } := by
  unfold putWin
  cases a.wr
  case none => exact ⟨_, rfl⟩
  case some v => exact ⟨_, rfl⟩

@[simp] theorem putWin_wrLatch (a : WordAcc) (s : State) : (putWin a s).mem.wrLatch = s.mem.wrLatch := by
  obtain ⟨win, h⟩ := putWin_eq a s
  rw [h]

@[simp] theorem putWin_hwBusy (a : WordAcc) (s : State) : (putWin a s).mem.hwBusy = s.mem.hwBusy := by
  obtain ⟨win, h⟩ := putWin_eq a s
  rw [h]

/-- Where one side writes, it is not two reads that meet. -/
theorem bothRead_of_write {i o : WordAcc} (h : i.wr.isSome = true ∨ o.wr.isSome = true) : bothRead i o = false := by
  rw [bothRead, Bool.and_eq_false_iff]
  simpa [← Option.not_isSome] using h

/-- A collision in a FAST region that is not of two reads is busy where the bridge does not repeat it: the inside writes, the outside does nothing, and
it is counted (R336, R337). -/
theorem windowAccess_busy {i o : WordAcc} {s : State} (hc : collides i o = true) (hb : bothRead i o = false) (hf : s.fastWord o.word = true) :
    windowAccess false (some i) o s =
      let s1 := putWin i s
      let s2 : State := { s1 with mem := { s1.mem with hwBusy := satInc s.mem.hwBusy } }
      { read := Config.free32 s2.freeCtr, busy := true, st := s2.fresh } := by
  simp [windowAccess, hc, hb, hf]

/-- The Host Window's words lie on the map of the host port (R493). -/
theorem hostPlace_window {word : Nat} (h : word < 0x40000) : hostPlace word = true := decide_eq_true (Nat.lt_trans h (by decide))

theorem inMap_window {inner : Option WordAcc} {word : Nat} (hi : ∀ i ∈ inner, i.word < 0x40000) (hw : word < 0x40000) :
    inMap inner.toList [{ word := word }] = true := by
  cases inner with
  | none => simp [inMap, hostPlace_window hw]
  | some i => simp [inMap, hostPlace_window hw, hostPlace_window (hi i rfl)]

/-- So do the 64 KB of the control page (R493). -/
theorem inMap_page {off : Nat} (h : off < 0x10000) : inMap (none : Option WordAcc).toList [{ word := 0x40000 + off / 4 }] = true := by
  have hplace : hostPlace (0x40000 + off / 4) = true := decide_eq_true (by omega)
  simp [inMap, hplace]

/-- While the port is up, an access of the Host Window meets what the inside does there (R336). -/
theorem hostAccess_window {inner : Option WordAcc} {o : WordAcc} {s : State} (hu : s.portUp = true) (hi : ∀ i ∈ inner, i.word < 0x40000)
    (ho : o.word < 0x40000) : hostAccess inner o s = windowAccess s.pcieForm inner o s := by
  have hall : (inner.all fun i => decide (i.word < 0x40000)) = true := by
    cases inner with
    | none => rfl
    | some i => exact decide_eq_true (hi i rfl)
  simp [hostAccess, hu, ho, hall]

section Page
variable {s : State} {off : Nat} (hu : s.portUp = true) (ha : off % 4 = 0)
include hu ha

/-- A read beyond the window reads the control page (R493). -/
theorem hostAccess_page_read : hostAccess none { word := 0x40000 + off / 4 } s = { read := (hostRead off s).1, st := (hostRead off s).2 } := by
  simp [hostAccess, hu, Nat.mul_div_cancel' (Nat.dvd_of_mod_eq_zero ha)]

/-- A write beyond the window writes the control page (R493). -/
theorem hostAccess_page_write (v : Word) : hostAccess none { word := 0x40000 + off / 4, wr := some v } s = { st := hostWrite off v 0xF s } := by
  simp [hostAccess, hu, Nat.mul_div_cancel' (Nat.dvd_of_mod_eq_zero ha)]

end Page

/-- In SLEEP an access of the host port is busy and does nothing (R483). -/
theorem hostAccess_sleep {s : State} (o : WordAcc) (hr : s.inReset = false) (hs : s.power.state = 2) :
    hostAccess none o s = { read := Config.free32 s.freeCtr, busy := true, st := s.fresh } := by
  have hdown : s.portUp = false := by simp [State.portUp, hs]
  simp [hostAccess, hdown, hr]

theorem not_inReset_of_portUp {s : State} (h : s.portUp = true) : s.inReset = false := by
  obtain ⟨⟨hr, _⟩, _⟩ : (s.inReset = false ∧ ¬s.power.host = 3) ∧ ¬s.power.state = 2 := by simpa [State.portUp, State.hostOff] using h
  exact hr

-- the halves (R338) ------------------------------------------------------------------------------------------------------------------------

/-- What a lower-half read leaves of the whole access `h`, where the inside read `got`: the upper half in the latch, the lower one delivered. -/
def lowerHalfReadOf (got : List Word) (h : HostSide) : State :=
  { h.st with mem := { h.st.mem with rdLatch := (h.read >>> 16).setWidth 16, bsyN := !h.busy,
                                     lastRead := got ++ [(h.read.setWidth 16 : BitVec 16).setWidth 32] } }

/-- What an upper-half write leaves of the whole access `h`, where the inside read `got`. -/
def upperHalfWriteOf (got : List Word) (h : HostSide) : State := { h.st with mem := { h.st.mem with bsyN := !h.busy, lastRead := got } }

theorem withForm_chosen {form : BitVec 2} {s : State} (h : s.power.host = form) (o : Outcome) : withForm form s o = o := if_pos h

theorem withForm_other {form : BitVec 2} {s : State} (h : s.power.host ≠ form) (o : Outcome) : withForm form s o = .next s := if_neg h

section Halves
variable {word : Nat} (v : BitVec 16) {inner : Option WordAcc} (s : State)

theorem exec_lowerHalfRead (hm : inMap inner.toList [{ word := word }] = true) :
    exec (.lowerHalfRead word inner) s =
      withForm 1 s (.next (lowerHalfReadOf (innerSide inner s).1 (hostAccess inner { word := word } s))) := by
  change execLowerHalfRead word inner s = _
  rw [execLowerHalfRead, hm]
  rfl

theorem exec_upperHalfRead :
    exec .upperHalfRead s = withForm 1 s (.next { s with mem := { s.mem with lastRead := [s.mem.rdLatch.setWidth 32], bsyN := true } }) := rfl

theorem exec_lowerHalfWrite (hw : hostPlace word = true) :
    exec (.lowerHalfWrite word v) s = withForm 1 s (.next { s with mem := { s.mem with wrLatch := v, wrAddr := word, bsyN := true } }) := by
  change execLowerHalfWrite word v s = _
  rw [execLowerHalfWrite, hw]
  rfl

/-- The written word is the half at hand above the latched one. -/
theorem exec_upperHalfWrite (hm : inMap inner.toList [{ word := word }] = true) :
    exec (.upperHalfWrite word v inner) s =
      withForm 1 s (.next (upperHalfWriteOf (innerSide inner s).1 (hostAccess inner { word := word, wr := some (v ++ s.mem.wrLatch) } s))) := by
  change execUpperHalfWrite word v inner s = _
  rw [execUpperHalfWrite, hm]
  rfl

/-- In another form the half accesses find their inputs ignored (R22, R471). -/
theorem halves_otherForm (hf : s.power.host ≠ 1) (hw : word < 0x40000) :
    exec (.lowerHalfRead word none) s = .next s ∧ exec .upperHalfRead s = .next s ∧ exec (.lowerHalfWrite word v) s = .next s ∧
      exec (.upperHalfWrite word v none) s = .next s := by
  have hm : inMap (none : Option WordAcc).toList [{ word := word }] = true := inMap_window (by simp) hw
  rw [exec_lowerHalfRead s hm, exec_upperHalfRead, exec_lowerHalfWrite v s (hostPlace_window hw), exec_upperHalfWrite v s hm]
  simp only [withForm_other hf, and_self]

end Halves

-- what a half access does in the window, on the control page and in SLEEP ------------------------------------------------------------------

section Window
variable {word : Nat} {s : State} (hw : word < 0x40000) (hf : s.power.host = 1) (hu : s.portUp = true)
include hw hf hu

theorem exec_lowerHalfRead_window {inner : Option WordAcc} (hi : ∀ i ∈ inner, i.word < 0x40000) :
    exec (.lowerHalfRead word inner) s = .next (lowerHalfReadOf (innerSide inner s).1 (windowAccess false inner { word := word } s)) := by
  have hpcie : s.pcieForm = false := by simp [State.pcieForm, hf]
  rw [exec_lowerHalfRead s (inMap_window hi hw), withForm_chosen hf, hostAccess_window hu hi hw, hpcie]

theorem exec_upperHalfWrite_window (v : BitVec 16) {inner : Option WordAcc} (hi : ∀ i ∈ inner, i.word < 0x40000) :
    exec (.upperHalfWrite word v inner) s =
      .next (upperHalfWriteOf (innerSide inner s).1 (windowAccess false inner { word := word, wr := some (v ++ s.mem.wrLatch) } s)) := by
  have hpcie : s.pcieForm = false := by simp [State.pcieForm, hf]
  rw [exec_upperHalfWrite v s (inMap_window hi hw), withForm_chosen hf, hostAccess_window hu hi hw, hpcie]

/-- An upper-half write that the inside does not meet writes the whole word, and the latch is kept (R338). -/
theorem exec_upperHalfWrite_alone (v : BitVec 16) :
    exec (.upperHalfWrite word v none) s =
      .next { s with mem := { s.mem with win := Mem.putWord s.mem.win word (v ++ s.mem.wrLatch) 0xF, bsyN := true, lastRead := [] } } := by
  rw [exec_upperHalfWrite_window hw hf hu v (by simp)]
  simp [upperHalfWriteOf, windowAccess, putWin]

end Window

/-- In SLEEP the two half accesses that reach the array are busy and move nothing (R483). -/
theorem halves_sleep {word : Nat} (v : BitVec 16) {s : State} (hf : s.power.host = 1) (hr : s.inReset = false) (hs : s.power.state = 2)
    (hw : word < 0x40000) :
    (∃ t, exec (.lowerHalfRead word none) s = .next t ∧ t.mem.bsyN = false ∧ t.mem.win = s.mem.win) ∧
      ∃ t, exec (.upperHalfWrite word v none) s = .next t ∧ t.mem.bsyN = false ∧ t.mem.win = s.mem.win ∧ t.mem.wrLatch = s.mem.wrLatch := by
  have hm : inMap (none : Option WordAcc).toList [{ word := word }] = true := inMap_window (by simp) hw
  rw [exec_lowerHalfRead s hm, exec_upperHalfWrite v s hm, withForm_chosen hf, withForm_chosen hf, hostAccess_sleep _ hr hs, hostAccess_sleep _ hr hs]
  exact ⟨⟨_, rfl, rfl, rfl⟩, _, rfl, rfl, rfl, rfl⟩

/-- Settles O42: each half access is its whole access in the window (met by the inside or not), on the control page, or in SLEEP. -/
theorem parallelPortHalves : Obligations.ParallelPortHalves := by
  intro word v i s hw hiw hwf hf hu
  have hnone : ∀ j ∈ (none : Option WordAcc), j.word < 0x40000 := by simp
  have hsome : ∀ j ∈ some i, j.word < 0x40000 := by simpa using hiw
  have hr : s.inReset = false := not_inReset_of_portUp hu
  have hchosen : ∀ o, withForm 1 s o = o := withForm_chosen hf
  refine ⟨?lowerRead, hchosen _, ?lowerWrite, ?upperWrite, fun hc hwr hfast => ?busyRead, fun hc hfast => ?busyWrite,
    fun off ha ho => ⟨?pageRead, ?pageWrite⟩, halves_sleep v hf hr rfl hw, fun p hp => halves_otherForm v _ hp hw⟩
  case lowerRead => exact ⟨_, exec_lowerHalfRead_window hw hf hu hnone, rfl, rfl, rfl, rfl⟩
  case lowerWrite => exact (exec_lowerHalfWrite v s (hostPlace_window hw)).trans (hchosen _)
  case upperWrite =>
    exact ⟨_, exec_upperHalfWrite_alone hw hf hu v, Mem.word_putWord_same _ word _ hwf, rfl, rfl,
      fun a ha => Mem.read_putWord_other _ word _ 0xF a (by omega)⟩
  case busyRead =>
    refine ⟨_, exec_lowerHalfRead_window hw hf hu hsome, ?_⟩
    rw [windowAccess_busy hc (bothRead_of_write (.inl hwr)) hfast]
    exact ⟨rfl, rfl⟩
  case busyWrite =>
    refine ⟨_, exec_upperHalfWrite_window hw hf hu v hsome, ?_⟩
    rw [windowAccess_busy hc (bothRead_of_write (.inr rfl)) hfast]
    exact ⟨rfl, putWin_wrLatch i s, rfl, rfl⟩
  case pageRead =>
    refine ⟨_, (exec_lowerHalfRead s (inMap_page ho)).trans (hchosen _), ?_⟩
    rw [hostAccess_page_read hu ha]
    rfl
  case pageWrite =>
    refine ⟨_, (exec_upperHalfWrite v s (inMap_page ho)).trans (hchosen _), ?_⟩
    rw [hostAccess_page_write hu ha]
    rfl

end Sys2Proof.Machine
end

section
/-! PROOFS. Instruction words (R213 to R217): the decoder on the words of each class, and what it gives for the words of an instruction. -/

namespace Sys2Proof

-- the class field selects the decoder of the class (R213)
theorem decodeCore_addressWord (k : Nat) (sub : BitVec 5) (o : BitVec 16) (x : Word24) :
    decodeCore k (addressWord sub o) x = decodeAddress k (addressWord sub o) := by simp [decodeCore]
theorem decodeCore_arithWord (k : Nat) (op : BitVec 4) (wd : BitVec 2) (src : ArithSrc) (pt : Ports) (x : Word24) :
    decodeCore k (arithWord op wd src pt) x = decodeArith k (arithWord op wd src pt) := by simp [decodeCore]
theorem decodeCore_mulWord (k : Nat) (wd : BitVec 2) (sign z : Bool) (ui : BitVec 1) (vj : BitVec 2) (pt : Ports) (x : Word24) :
    decodeCore k (mulWord wd sign z ui vj pt) x = decodeMul k (mulWord wd sign z ui vj pt) := by simp [decodeCore]
theorem decodeCore_quadWord (k : Nat) (form : BitVec 2) (sign z : Bool) (ui : BitVec 2) (quad : BitVec 1) (pt : Ports) (x : Word24) :
    decodeCore k (quadWord form sign z ui quad pt) x = decodeQuad k (quadWord form sign z ui quad pt) := by simp [decodeCore]
theorem decodeCore_searchWord (k : Nat) (sub : BitVec 3) (wd i : BitVec 2) (pt : Ports) (x : Word24) :
    decodeCore k (searchWord sub wd i pt) x = decodeSearch k (searchWord sub wd i pt) := by simp [decodeCore]
theorem decodeCore_transferWord (k : Nat) (dst mid : BitVec 7) (form : BitVec 2) (x : Word24) :
    decodeCore k (transferWord dst mid form) x = decodeTransfer k (transferWord dst mid form) x := by simp [decodeCore]
theorem decodeCore_flowWord (k : Nat) (sub : BitVec 5) (o : BitVec 16) (x : Word24) :
    decodeCore k (flowWord sub o) x = decodeFlow k (flowWord sub o) := by simp [decodeCore]

-- operands of the flow, address and transfer words, field by field (R213, R216)
theorem branchOperand_fields (cond : BitVec 4) (off : BitVec 12) : (cond ++ off).extractLsb' 12 4 = cond ∧ (cond ++ off).extractLsb' 0 12 = off := by
  simp (disch := omega) only [extract_append_high, extract_append_low, Nat.reduceSub, BitVec.extractLsb'_eq_self, and_self]

theorem loopOperand_fields (count body : Byte) : (count ++ body).extractLsb' 8 8 = count ∧ (count ++ body).extractLsb' 0 8 = body := by
  simp (disch := omega) only [extract_append_high, extract_append_low, Nat.reduceSub, BitVec.extractLsb'_eq_self, and_self]

theorem loopvOperand_fields (ui : BitVec 2) (body : Byte) :
    (0#6 ++ ui ++ body).extractLsb' 8 2 = ui ∧ (0#6 ++ ui ++ body).extractLsb' 0 8 = body := by
  simp (disch := omega) only [extract_append_high, extract_append_low, Nat.reduceSub, BitVec.extractLsb'_eq_self, and_self]

/-- The low part of an operand below bits of 0: a target, a repeat count, or the address in an extension word. -/
theorem lowOperand_field (n m : Nat) (x : BitVec m) : (0#n ++ x).extractLsb' 0 m = x := by
  rw [extract_append_low _ _ _ _ (by omega), BitVec.extractLsb'_eq_self]

theorem extension_address (a : BitVec 16) : fieldOf (0#8 ++ a) 0 16 = a := lowOperand_field 8 16 a

theorem flagOf_zero : flagOf 0#1 = false := rfl
theorem flagOf_one : flagOf 1#1 = true := rfl

theorem fetchOperand_fields (y : BitVec 1) (ptr : BitVec 3) (ui : BitVec 2) (words : BitVec 6) :
    (y ++ ptr ++ ui ++ 0#4 ++ words).extractLsb' 15 1 = y ∧ (y ++ ptr ++ ui ++ 0#4 ++ words).extractLsb' 12 3 = ptr ∧
      (y ++ ptr ++ ui ++ 0#4 ++ words).extractLsb' 10 2 = ui ∧ (y ++ ptr ++ ui ++ 0#4 ++ words).extractLsb' 0 6 = words := by
  simp (disch := omega) only [extract_append_high, extract_append_low, Nat.reduceSub, BitVec.extractLsb'_eq_self, and_self]

theorem paddOperand_fields (ptr : BitVec 3) (imm : BitVec 12) :
    (0#1 ++ ptr ++ imm).extractLsb' 12 3 = ptr ∧ (0#1 ++ ptr ++ imm).extractLsb' 0 12 = imm := by
  simp (disch := omega) only [extract_append_high, extract_append_low, Nat.reduceSub, BitVec.extractLsb'_eq_self, and_self]

theorem shiftOperand_fields (wd : BitVec 2) (sh : BitVec 6) :
    (wd ++ 0#8 ++ sh).extractLsb' 14 2 = wd ∧ (wd ++ 0#8 ++ sh).extractLsb' 0 6 = sh := by
  simp (disch := omega) only [extract_append_high, extract_append_low, Nat.reduceSub, BitVec.extractLsb'_eq_self, and_self]

theorem clsOperand_field (wd : BitVec 2) : (wd ++ 0#14).extractLsb' 14 2 = wd := by
  simp (disch := omega) only [extract_append_high, Nat.reduceSub, BitVec.extractLsb'_eq_self]

theorem dstepOperand_fields (wd ui : BitVec 2) :
    (wd ++ 0#2 ++ ui ++ 0#10).extractLsb' 14 2 = wd ∧ (wd ++ 0#2 ++ ui ++ 0#10).extractLsb' 10 2 = ui := by
  simp (disch := omega) only [extract_append_high, extract_append_low, Nat.reduceSub, BitVec.extractLsb'_eq_self, and_self]

theorem movmAbsolute_fields (store y : BitVec 1) :
    (store ++ y ++ 0#5).extractLsb' 6 1 = store ∧ (store ++ y ++ 0#5).extractLsb' 5 1 = y ∧ (store ++ y ++ 0#5).extractLsb' 4 1 = 0#1 := by
  simp (disch := omega) only [extract_append_high, extract_append_low, Nat.reduceSub, BitVec.extractLsb'_eq_self, true_and]
  rfl

theorem movmIndexed_fields (store y : BitVec 1) (p : BitVec 3) :
    (store ++ y ++ 1#1 ++ p ++ 0#1).extractLsb' 6 1 = store ∧ (store ++ y ++ 1#1 ++ p ++ 0#1).extractLsb' 5 1 = y ∧
      (store ++ y ++ 1#1 ++ p ++ 0#1).extractLsb' 4 1 = 1#1 ∧ (store ++ y ++ 1#1 ++ p ++ 0#1).extractLsb' 1 3 = p := by
  simp (disch := omega) only [extract_append_high, extract_append_low, Nat.reduceSub, BitVec.extractLsb'_eq_self, and_self]

/-- The words of an instruction are decoded to it, and only a constant or an address takes the extension word. -/
def ReadsBack (i : Instr) : Prop :=
  ∀ (w : Word24) (x : Option Word24), encodeCore i = some (w, x) →
    decodeCore i.coreOf w (x.getD 0) = i ∧ (x.isSome = true ↔ (∃ k d c, i = .ldk k d c) ∨ ∃ k r st y m, i = .movm k r st y m)

/-- An instruction of one word. -/
theorem ReadsBack.one {i : Instr} {u : Word24} (he : encodeCore i = some (u, none)) (hd : decodeCore i.coreOf u 0 = i)
    
    (hx : ¬((∃ k d c, i = .ldk k d c) ∨ ∃ k r st y m, i = .movm k r st y m)) : ReadsBack i := by
  intro w x h
  rw [he] at h
  obtain ⟨rfl, rfl⟩ : u = w ∧ none = x := by simpa using h
  exact ⟨hd, by simpa using hx⟩

/-- An instruction with an extension word. -/
theorem ReadsBack.two {i : Instr} {u v : Word24} (he : encodeCore i = some (u, some v)) (hd : decodeCore i.coreOf u v = i)
    (hx : (∃ k d c, i = .ldk k d c) ∨ ∃ k r st y m, i = .movm k r st y m) : ReadsBack i := by
  intro w x h
  rw [he] at h
  obtain ⟨rfl, rfl⟩ : u = w ∧ some v = x := by simpa using h
  exact ⟨hd, fun _ => hx, fun _ => rfl⟩





/-- A row that is no instruction word. -/
theorem ReadsBack.no_words {i : Instr} (he : encodeCore i = none) : ReadsBack i := by
  intro w x h
  simp [he] at h

/-- MOVM in either mode: bit 4 of the middle field tells them apart (R213). -/
theorem movm_readsBack (k : Nat) (reg : RegCode) (store y : Bool) (m : MovMode) : ReadsBack (.movm k reg store y m) := by
  cases m with
  | absolute a =>
    refine .two rfl ?_ (.inr ⟨k, reg, store, y, _, rfl⟩)
    simp [Instr.coreOf, decodeCore_transferWord, decodeTransfer, transferWord_middle, movmAbsolute_fields, extension_address, flagOf_zero]
  | indexed p d =>
    refine .two rfl ?_ (.inr ⟨k, reg, store, y, _, rfl⟩)
    simp [Instr.coreOf, decodeCore_transferWord, decodeTransfer, transferWord_middle, movmIndexed_fields, extension_address, flagOf_one]

theorem instr_readsBack (i : Instr) : ReadsBack i := by
  cases i with
  | hold | add | sub | cmp | neg | abs | clr | copy | andW | orW | xorW | shl1 | shr1 | rndf | satf =>
    exact .one rfl (by simp [Instr.coreOf, decodeCore_arithWord, decodeArith]) (by simp)
  | mac | mul => exact .one rfl (by simp [Instr.coreOf, decodeCore_mulWord, decodeMul]) (by simp)
  | qmac | qmacx | xmac => exact .one rfl (by simp [Instr.coreOf, decodeCore_quadWord, decodeQuad]) (by simp)
  | min | max | minuw | maxuw | addc | subc | mulsu | muluu =>
    exact .one rfl (by simp [Instr.coreOf, decodeCore_searchWord, decodeSearch]) (by simp)
  | move => exact .one rfl (by simp [Instr.coreOf, decodeCore_transferWord, decodeTransfer]) (by simp)
  | ldk k dst c => exact .two rfl (by simp [Instr.coreOf, decodeCore_transferWord, decodeTransfer]) (.inl ⟨k, dst, c, rfl⟩)
  | movm k reg store y m => exact movm_readsBack k reg store y m
  | nop | endTask | fwait | jmp | call | ret | brCc | loop | loopv | leave | rpt =>
    exact .one rfl (by simp [Instr.coreOf, decodeCore_flowWord, decodeFlow, flowWord_operand, branchOperand_fields, loopOperand_fields,
      loopvOperand_fields, lowOperand_field 3 13, lowOperand_field 9 7]) (by simp)
  | fetch | padd | sra | sla | srl | cls | dstep | clrcnt =>
    exact .one rfl (by simp [Instr.coreOf, decodeCore_addressWord, decodeAddress, addressWord_operand, fetchOperand_fields, paddOperand_fields,
      shiftOperand_fields, clsOperand_field, dstepOperand_fields]) (by simp)
  | _ => exact .no_words rfl

/-- Settles O5: the class field selects the decoder, and each operand reads back from its place in the word. -/
theorem instructionWordsReadBack : Obligations.InstructionWordsReadBack := instr_readsBack

end Sys2Proof
end

section
/-! PROOFS. Every command answers: a next state when every unit and address that it names exists, and a stop by name otherwise (R7, R10, R57). -/

namespace Sys2Proof.Machine

/-- An outcome is a next state when `ok`, and a stop by name otherwise. -/
def AnswersIff (ok : Bool) (o : Outcome) : Prop :=
  (ok = true → ∃ t, o = .next t) ∧ (ok = false → o = .refused .noSuchUnit ∨ o = .fault .noSuchAddress)

theorem AnswersIff.next (t : State) : AnswersIff true (.next t) := ⟨fun _ => ⟨t, rfl⟩, by simp⟩

theorem AnswersIff.ite {p : Prop} [Decidable p] {ok : Bool} {a b : Outcome} (ha : AnswersIff ok a) (hb : AnswersIff ok b) :
    AnswersIff ok (if p then a else b) := by
  split
  · exact ha
  · exact hb

/-- The check of one unit in front of the checks that follow. -/
theorem AnswersIff.unit {n limit : Nat} {ok : Bool} {o : Outcome} (h : AnswersIff ok o) :
    AnswersIff (decide (n < limit) && ok) (withUnit n limit o) := by
  unfold withUnit
  split <;> rename_i hn
  · simpa [hn] using h
  · simp [hn, AnswersIff]

theorem command_answers (c : Card) (e : Entry) (s : State) : AnswersIff (decide (e.ch < 16) && true) (command c e s) :=
  .unit (.ite (.next _) (.ite (.next _) (.ite (.next _) (.next _))))

theorem AnswersIff.of_eq {ok ok' : Bool} {o : Outcome} (h : AnswersIff ok o) (e : ok' = ok) : AnswersIff ok' o := e ▸ h

/-- A check whose failure is a stop by name. -/
theorem AnswersIff.guard (b : Bool) {ok : Bool} {o stop : Outcome}
    (hs : stop = .refused .noSuchUnit ∨ stop = .fault .noSuchAddress) (h : AnswersIff ok o) :
    AnswersIff (b && ok) (if b then o else stop) := by
  cases b with
  | true => simpa using h
  | false => exact ⟨by simp, fun _ => by simpa using hs⟩

/-- The same check written the other way round. -/
theorem AnswersIff.guardNot {b ok : Bool} {o : Outcome} (h : AnswersIff ok o) : AnswersIff (b && ok) (if !b then .fault .noSuchAddress else o) := by
  have := AnswersIff.guard b (.inr rfl) h
  cases b <;> exact this

theorem withForm_answers (form : BitVec 2) (s t : State) : AnswersIff true (withForm form s (.next t)) := .ite (.next _) (.next _)

theorem withDom_answers (d : Nat) (s : State) (f : State → State) : AnswersIff ([domUnit d].all fun u => decide (u.1 < u.2)) (withDom d s f) := by
  unfold withDom domUnit
  by_cases h : d = 0 ∨ d = 2
  · simpa [h] using AnswersIff.next (f s)
  · simp [h, AnswersIff]

-- initiators and Sound Store words (R10, R321)

theorem whoUnits_all (who : Initiator) : ((whoUnits who).all fun u => decide (u.1 < u.2)) = initiatorIs who := by
  cases who <;> simp [whoUnits, initiatorIs]

theorem aliasWrite_answers (who : Initiator) (bank word : Nat) (t : State) :
    AnswersIff (([(bank, 64), (word, 65536)] ++ whoUnits who).all fun u => decide (u.1 < u.2)) (withInitiator who (withStoreWord bank word (.next t))) := by
  have h : AnswersIff (initiatorIs who && (decide (bank < 64 ∧ word < 65536) && true)) (withInitiator who (withStoreWord bank word (.next t))) := by
    unfold withInitiator withStoreWord
    have hword := AnswersIff.guard (decide (bank < 64 ∧ word < 65536)) (.inr rfl) (.next t)
    exact .guard _ (.inl rfl) (by simpa only [decide_eq_true_eq] using hword)
  rw [List.all_append, whoUnits_all]
  simpa [Bool.and_comm, Bool.and_assoc, Bool.decide_and] using h

theorem soundStoreAccess_answers (bank : Nat) (reqs : List BankReq) (s : State) :
    AnswersIff (Instr.soundStoreAccess bank reqs).wf (execSoundStoreAccess bank reqs s) := by
  have hwho : ((reqs.flatMap fun r => whoUnits r.who).all fun u => decide (u.1 < u.2)) = reqs.all fun r => initiatorIs r.who := by
    simp only [List.all_flatMap, whoUnits_all]
  have hwf : (Instr.soundStoreAccess bank reqs).wf =
      ((reqs.all fun r => initiatorIs r.who) && decide (bank < 64 ∧ (reqs.all fun r => decide (r.acc.word < 65536)) = true)) := by
    rw [Instr.wf, Instr.units, List.all_append, List.all_append, hwho, Bool.decide_and, Bool.decide_eq_true, List.all_map, Bool.and_comm]
    simp only [List.all_cons, List.all_nil, Bool.and_true, Function.comp_def]
  rw [hwf]
  unfold execSoundStoreAccess
  cases reqs.all fun r => initiatorIs r.who with
  | false => simp [AnswersIff]
  | true =>
    have h := AnswersIff.guard (decide (bank < 64 ∧ (reqs.all fun r => decide (r.acc.word < 65536)) = true)) (.inr rfl) (.next (serveBank bank reqs s))
    simpa using h

-- the map of the host port (R493)

theorem windowUnits_all (as : List (Option WordAcc)) :
    ((windowUnits as).all fun u => decide (u.1 < u.2)) = as.all fun a => a.toList.all fun x => hostPlace x.word := by
  unfold windowUnits
  induction as with
  | nil => rfl
  | cons a r ih =>
    cases a with
    | none => simpa only [List.filterMap_cons, Option.map_none, List.all_cons, Option.toList_none, List.all_nil, Bool.true_and] using ih
    | some x =>
      simp only [List.filterMap_cons, Option.map_some, List.all_cons, Option.toList_some, List.all_nil, Bool.and_true, ih]
      rfl

theorem hostWindowAccess_answers (inner outer : Option WordAcc) (s : State) :
    AnswersIff (Instr.hostWindowAccess inner outer).wf (execHostWindowAccess inner outer s) := by
  have hwf : (Instr.hostWindowAccess inner outer).wf = (inMap inner.toList outer.toList && true) := by
    rw [Instr.wf, Instr.units, windowUnits_all]
    simp [inMap]
  rw [hwf]
  refine .guardNot ?_
  dsimp only
  split <;> exact .next _

/-- A half access that reaches the array, which the inside may meet (R338). -/
theorem halfAccess_answers (word : Nat) (inner : Option WordAcc) (s t : State) :
    AnswersIff (([(word, 0x44000)] ++ windowUnits [inner]).all fun u => decide (u.1 < u.2))
      (if !inMap inner.toList [{ word := word }] then .fault .noSuchAddress else withForm 1 s (.next t)) := by
  have hwf : (([(word, 0x44000)] ++ windowUnits [inner]).all fun u => decide (u.1 < u.2)) = (inMap inner.toList [{ word := word }] && true) := by
    rw [List.all_append, windowUnits_all]
    simp [inMap, hostPlace, Bool.and_comm]
  rw [hwf]
  exact .guardNot (withForm_answers 1 s t)

/-- A quad SPI transaction: 1 to 64 words on the map (R494). -/
theorem qspiRun_answers (as inner : List WordAcc) (s : State) :
    AnswersIff (decide (as.length - 1 < if as.isEmpty then 0 else 64) && (inMap inner as && true)) (qspiRun as inner s) :=
  .unit (.guardNot (withForm_answers 2 s _))

/-- A run of words lies on the map when its last word does (R493). -/
theorem run_onMap (word n : Nat) (hn : n ≠ 0) : (∀ i, i < n → word + i < 0x44000) ↔ word + n - 1 < 0x44000 :=
  ⟨fun h => by have := h (n - 1) (by omega); omega, fun h i hi => by omega⟩

theorem windowUnits_map_some (inner : List WordAcc) :
    ((windowUnits (inner.map some)).all fun u => decide (u.1 < u.2)) = inner.all fun a => hostPlace a.word := by
  rw [windowUnits_all]
  simp [List.all_map, Function.comp_def]

theorem qspiRead_answers (word n : Nat) (inner : List WordAcc) (s : State) : AnswersIff (Instr.qspiRead word n inner).wf (execQspiRead word n inner s) := by
  have h := qspiRun_answers ((List.range n).map fun i => { word := word + i }) inner s
  have hwf : (Instr.qspiRead word n inner).wf =
      (decide (n - 1 < if n = 0 then 0 else 64) && (decide (word + n - 1 < 0x44000) && inner.all fun a => hostPlace a.word)) := by
    rw [Instr.wf, Instr.units, List.all_append, windowUnits_map_some]
    simp [Bool.and_assoc]
  refine .of_eq h (hwf.trans ?_)
  by_cases hn : n = 0
  · simp [hn]
  · have hmap : (((List.range n).map fun i => ({ word := word + i } : WordAcc)).all fun a => hostPlace a.word) = decide (word + n - 1 < 0x44000) := by
      rw [Bool.eq_iff_iff]
      simpa [hostPlace] using run_onMap word n hn
    rw [inMap, hmap]
    simp [hn, Bool.and_comm]

theorem qspiWrite_answers (word : Nat) (ws : List Word) (inner : List WordAcc) (s : State) :
    AnswersIff (Instr.qspiWrite word ws inner).wf (execQspiWrite word ws inner s) := by
  have h := qspiRun_answers (ws.zipIdx.map fun p => { word := word + p.2, wr := some p.1 }) inner s
  have hwf : (Instr.qspiWrite word ws inner).wf =
      (decide (ws.length - 1 < if ws = [] then 0 else 64) && (decide (word + ws.length - 1 < 0x44000) && inner.all fun a => hostPlace a.word)) := by
    rw [Instr.wf, Instr.units, List.all_append, windowUnits_map_some]
    simp [Bool.and_assoc]
  refine .of_eq h (hwf.trans ?_)
  by_cases hn : ws = []
  · simp [hn]
  · have hlen : ws.length ≠ 0 := by simpa using hn
    have hmap : ((ws.zipIdx.map fun p => ({ word := word + p.2, wr := some p.1 } : WordAcc)).all fun a => hostPlace a.word) =
        decide (word + ws.length - 1 < 0x44000) := by
      rw [List.all_map, Bool.eq_iff_iff, decide_eq_true_eq, ← run_onMap word ws.length hlen, List.all_eq_true]
      refine ⟨fun h i hi => of_decide_eq_true (h (ws[i], i) (List.mem_zipIdx_iff_getElem?.mpr (List.getElem?_eq_getElem hi))), fun h p hp => ?_⟩
      have hget := List.mem_zipIdx_iff_getElem?.mp hp
      exact decide_eq_true (h p.2 (List.getElem?_eq_some_iff.mp hget).1)
    rw [inMap, hmap]
    simp [hn, Bool.and_comm]

theorem localMemoryError_answers (k : Nat) (m : LocalMem) (addr : Nat) (double : Bool) (s : State) :
    AnswersIff (Instr.localMemoryError k m addr double).wf (execLocalMemoryError k m addr double s) := by
  have h : AnswersIff (decide (addr < if m = .prog then 0x2000 else 0x4000) && true)
      (if addr < (if m = .prog then 0x2000 else 0x4000) then .next (memoryError k m addr double s) else .fault .noSuchAddress) := by
    simpa only [decide_eq_true_eq] using
      AnswersIff.guard (decide (addr < if m = .prog then 0x2000 else 0x4000)) (.inr rfl) (.next (memoryError k m addr double s))
  exact .unit h

theorem registerWrite_answers (sp : RegSpace) (off : BitVec 16) (v : Word) (s : State) :
    AnswersIff (Instr.registerWrite sp off v).wf (execRegisterWrite sp off v s) := by
  cases sp with
  | host => exact .next _
  | inner => exact .next _
  | work n => exact .unit (.next _)

theorem exec_answers (i : Instr) (s : State) : AnswersIff i.wf (exec i s) := by
  cases i with
  | registerWrite sp off v => exact registerWrite_answers sp off v s
  | setAliasWrite who bank word v strobes => exact aliasWrite_answers who bank word _
  | clearAliasWrite who bank word v strobes => exact aliasWrite_answers who bank word _
  | soundStoreAccess bank reqs => exact soundStoreAccess_answers bank reqs s
  | hostWindowAccess inner outer => exact hostWindowAccess_answers inner outer s
  | lowerHalfRead word inner => exact halfAccess_answers word inner s _
  | upperHalfRead => exact withForm_answers 1 s _
  | lowerHalfWrite word v => exact .guardNot (withForm_answers 1 s _)
  | upperHalfWrite word v inner => exact halfAccess_answers word inner s _
  | qspiRead word n inner => exact qspiRead_answers word n inner s
  | qspiWrite word ws inner => exact qspiWrite_answers word ws inner s
  | qspiUnknownCommand cmd => exact withForm_answers 2 s _
  | localMemoryError k m addr double => exact localMemoryError_answers k m addr double s
  | gptpEventMessage dom port m entry =>
    have h : AnswersIff (decide (port < 2) && _) (withUnit port 2 _) := .unit (withDom_answers dom s (ptpEvent dom port m entry))
    exact .of_eq h (by simp [Instr.wf, Instr.units, Bool.and_comm])
  | domainLock dom | announce dom | followUp dom | pdelayRespFollowUp dom | signaling dom => exact withDom_answers dom s _
  | domainUnlock dom => exact withDom_answers dom s fun s => forgetMaster dom (if (s.dom dom).locked then unlockDomain dom s else s)
  | peerDelayInterval dom =>
    exact withDom_answers dom s fun s =>
      sendEvent dom (s.domPort dom) .pdelayReq [] (s.setDom dom { s.dom dom with pdelayWait := false, pdelayBad := false, reqAt := none })
  | timeGet | timeRateSet | timeClockSelect | timeDomainSet | sysNop | configCommit | configDiscard | configEpoch | journalQuery |
  voiceStart | voiceRelease | voiceEnd | voiceQuery | partCounters | placeLoad | decimSet | decimStatus | paramSet | paramGet | envWrite |
  coefLoad | coefSwap | coefStatus | vprogLoad | dispatchSet | dispatchStatus | traceSet | traceStatus | bayForm | bayMode | bayStatus |
  bayRecover | condSwitch | fwUpdate | sessionList | sessionQuery | sessionSet | sessionClose | eventSend | bankGive | bankStatus |
  hwRegionSet | contentPin | routeSet | tdmSet | audioClockSet | streamSet | renderSet | audioStatus | dacSet | dacWrite | dacStatus |
  uartSet | uartSend | uartRecv | timerSet | timerRead | pkgWrite | pkgCommit | pkgDrop | vaultStatus | vaultKeyWrap | vaultKeyLoad |
  tamperSet | tamperClear | lifeAdvance | healthStatus | healthLedger | healthSet | sysReset | sysPower =>
    exact command_answers _ _ s
  | rateChangeComplete | plannedSwitch | hwDbCmd | hwMbxReset | tmDtimeLo | sysBootCtl | frameTick | watchdogTakeover | conductorFailover |
  conductorRestart | takeControlBack | promotion | kerfStart | intakeFifoExit | uartStampedSend | rampEnd | entityAvailable | readDescriptor
  | acquireEntity | lockEntity | referenceLost | referenceReturn | cvWriteEffect | vddaDacLow | dacClockAbsent | healthPeriodEnd |
  pmbusRetry | ledgerWrite | vmaxStep | tamperRaised | powerOnReset | porN | wrstN | deviceWatchdog | pcieHotReset | bootPhase | ready |
  wake | stepEffectsComplete | standbyReady | restartAloneDone | plannedSwitchTimeout | audioPllLock | adpDiscover =>
    exact .next _
  | oscillatorBlockFlag | decimatedBlockFlag | envelopeSegmentEnd | templateResident | residueCheckFailure => exact .unit (.unit (.next _))
  | _ => exact .unit (.next _)

/-- Settles O3: the checks in front of each meaning are the units that the command names. -/
theorem commandsOfTheDeviceComplete : Obligations.CommandsOfTheDeviceComplete := exec_answers

end Sys2Proof.Machine
end

section
/-! PROOFS. Mailbox rows (R58, R66 to R72, R85): every row goes through its card; what reading an entry leaves, and how admission judges it. -/

namespace Sys2Proof.Machine

/-- Every mailbox row is the command of its card. -/
theorem exec_mailboxRow : ∀ p ∈ mailboxRows, ∀ (e : Entry) (s : State), exec (p.1 e) s = command p.2 e s := by
  have h : mailboxRows.map (fun p e => exec (p.1 e)) = mailboxRows.map (fun p e => command p.2 e) := rfl
  intro p hp e s
  exact congrFun (congrFun (List.map_inj_left.mp h p hp) e) s

/-- Settles O10: a row is the command of its card, which is carried out or refused by the first check that fails. -/
theorem commandsAreCarriedOutOrRefused : Obligations.CommandsAreCarriedOutOrRefused := by
  refine ⟨fun p hp e s h => ?_, fun p hp e s f h hf => ⟨fun hj => ?_, fun hj => ?_⟩⟩
  · rw [exec_mailboxRow p hp, command_accepted h]
  · rw [exec_mailboxRow p hp, command_refused h hf, hj]
    rfl
  · rw [exec_mailboxRow p hp, command_refused_unjournalled hj h hf]

-- an entry that is read at once ------------------------------------------------------------------------------------------------

/-- The consumer index passes the entry just written: both indices stand after it, and the bell is answered (R58, R72). -/
theorem advanceCi_hostPut_chan {e : Entry} {s : State} (op : Nat) (h : Reads e s) :
    (advanceCi e (hostPut op e s)).chan e.ch =
      { s.chan e.ch with cmdPi := (s.chan e.ch).cmdPi + BitVec.ofNat 11 (entryLen e), cmdCi := (s.chan e.ch).cmdPi + BitVec.ofNat 11 (entryLen e),
                         doorbell := false } := by
  rw [hostPut_fits op e s h.empty h.framed]
  simp [advanceCi, h.empty]

theorem readAt_chan {e : Entry} {s : State} (c : Card) (h : Reads e s) :
    (readAt c e s).chan e.ch =
      { s.chan e.ch with cmdPi := (s.chan e.ch).cmdPi + BitVec.ofNat 11 (entryLen e), cmdCi := (s.chan e.ch).cmdPi + BitVec.ofNat 11 (entryLen e),
                         doorbell := false } := advanceCi_hostPut_chan c.opcode h

theorem readAt_journalFull (c : Card) (e : Entry) (s : State) : journalFull (readAt c e s) = journalFull s := hostPut_journal c.opcode e s

/-- A row whose entry is read at once takes it. -/
theorem command_of_reads {e : Entry} {s : State} (c : Card) (h : Reads e s) : command c e s = .next (takeEntry c e (hostPut c.opcode e s)) := by
  unfold command withUnit
  simp [h.channel, not_hostOff_of_serving h.serves, h.serves, h.empty, unframed, Nat.not_lt.mpr h.framed]

/-- What admission refuses is answered with index 0, and its sequence consumed where the check says so (R68, R70). -/
theorem takeEntry_notAdmitted {c : Card} {e : Entry} {s : State} {f : Fail} {consumed : Bool}
    (ha : admission c e (readAt c e s) = some (f, consumed)) :
    takeEntry c e (hostPut c.opcode e s) = answer e f.1 0 f.2 true (if consumed then consumeSeq e (readAt c e s) else readAt c e s) := by
  unfold takeEntry
  unfold readAt at ha ⊢
  simp only [ha]
  rfl

theorem admission_version (c : Card) {e : Entry} (s : State) (hv : e.version ≠ 1) : admission c e s = some ((eOpcode, []), false) := if_pos hv

section Admission
variable {e : Entry} {s : State} (c : Card) (h : Reads e s)
include h

theorem admission_sequence (hv : e.version = 1) (hq : ¬ ((s.chan e.ch).seqFree = true ∨ e.seq = (s.chan e.ch).expectSeq)) :
    admission c e (readAt c e s) = some ((eSequence, [(s.chan e.ch).expectSeq.setWidth 32, (s.chan e.ch).lastJ]), false) := by
  obtain ⟨hfree, hseq⟩ := not_or.mp hq
  simp [admission, readAt_chan c h, hv, hfree, hseq]

theorem admission_noSlot (hv : e.version = 1) (hq : (s.chan e.ch).seqFree = true ∨ e.seq = (s.chan e.ch).expectSeq) (hj : journalFull s = true) :
    admission c e (readAt c e s) = some ((eNoslot, []), true) := by
  have hseq : (!(s.chan e.ch).seqFree && e.seq != (s.chan e.ch).expectSeq) = false := by
    rcases hq with hq | hq <;> simp [hq]
  simp [admission, readAt_chan c h, readAt_journalFull, hv, hseq, hj]

end Admission

/-- A row whose entry is too long to be framed discards its ring (R71). -/
theorem command_unframed (c : Card) {e : Entry} {s : State} (hc : e.ch < 16) (hs : s.serving = true)
    (he : (s.chan e.ch).cmdPi = (s.chan e.ch).cmdCi) (hf : 1024 < entryLen e) : command c e s = .next (desync e (hostPut c.opcode e s)) := by
  unfold command withUnit
  simp [hc, not_hostOff_of_serving hs, hs, he, unframed, hf]

-- responses leave the command side of their channel and the journal ---------------------------------------------------------------

/-- A response changes the response ring, the held responses and the bells alone (R63, R64). -/
theorem respond_keeps (ch : Nat) (r : Resp) (s : State) :
    ((respond ch r s).chan ch).cmdPi = (s.chan ch).cmdPi ∧ (respond ch r s).mbx.journal = s.mbx.journal := by
  unfold respond writeResp setDbRsp signalHost
  dsimp only
  split
  · split <;> simp [State.chan, State.setChan, State.send]
  · simp

/-- Settles O11: version, sequence, journal room and framing, in this order; each is answered on the state in which the entry was read. -/
theorem admissionRefuses : Obligations.AdmissionRefuses := by
  refine ⟨fun p hp e s h => ⟨fun hv => ?_, fun hv hq => ?_, fun hv hq hj => ?_⟩, fun p hp e s hc hs he hf => ?_, fun e s hc hs => ?_⟩
  · rw [exec_mailboxRow p hp, command_of_reads p.2 h, takeEntry_notAdmitted (admission_version p.2 _ hv)]
    rfl
  · rw [exec_mailboxRow p hp, command_of_reads p.2 h, takeEntry_notAdmitted (admission_sequence p.2 h hv hq)]
    rfl
  · rw [exec_mailboxRow p hp, command_of_reads p.2 h, takeEntry_notAdmitted (admission_noSlot p.2 h hv hq hj)]
    rfl
  · rw [exec_mailboxRow p hp, command_unframed p.2 hc hs he hf]
  · obtain ⟨hpi, hj⟩ := respond_keeps e.ch { status := eLength, seq := e.seq, jindex := 0 } s
    refine ⟨desync e s, by simp [exec, execCommandDesync, withUnit, hc, hs], ?_⟩
    have hchan : (desync e s).chan e.ch = _ := State.setChan_same _ e.ch _
    rw [hchan]
    exact ⟨hpi, rfl, rfl, hj⟩

end Sys2Proof.Machine
end

section
/-! PROOFS. The command ring (R57, R58, R66, R68): the entry that the host writes stands at the producer index, and a taken one leaves the ring. -/

namespace Sys2Proof.Machine

theorem ringFree_le (p c : BitVec 11) : ringFree p c ≤ 2047 := by
  unfold ringFree
  omega

section Written
variable {op : Nat} {e : Entry} {s : State} (hfit : entryLen e ≤ ringFree (s.chan e.ch).cmdPi (s.chan e.ch).cmdCi)
include hfit

/-- The host's write of an entry that fits, whatever stands before it in the ring. -/
theorem hostPut_room :
    hostPut op e s =
      ({ s with mem := { s.mem with win := ringPut (cmdRingWord e.ch) (s.chan e.ch).cmdPi.toNat (entryWords op e) s.mem.win } } : State).setChan e.ch
        { s.chan e.ch with cmdPi := (s.chan e.ch).cmdPi + BitVec.ofNat 11 (entryLen e), doorbell := true } := if_pos hfit

/-- The words of the entry stand in the ring, from the producer index on (R58, R66). -/
theorem hostPut_words (hwf : Mem.wf s.mem.win = true) {i : Nat} {w : Word} (hi : (entryWords op e)[i]? = some w) :
    (hostPut op e s).cmdWord e.ch ((s.chan e.ch).cmdPi.toNat + i) = w := by
  have hlen : (entryWords op e).length ≤ 2048 := by
    have := ringFree_le (s.chan e.ch).cmdPi (s.chan e.ch).cmdCi
    rw [entryWords_length]
    omega
  rw [hostPut_room hfit]
  exact word_ringPut _ _ _ _ hwf (cmdRing_inj e.ch _ _ hlen) i w hi

/-- Every byte outside the entry's words stays. -/
theorem hostPut_otherBytes {a : Nat} (ha : ∀ i, i < entryLen e → a / 4 ≠ cmdRingWord e.ch ((s.chan e.ch).cmdPi.toNat + i)) :
    Mem.read (hostPut op e s).mem.win a = Mem.read s.mem.win a := by
  rw [hostPut_room hfit]
  exact read_ringPut_other _ _ _ _ a fun k hk => ha k (by rwa [entryWords_length] at hk)

end Written

/-- An admitted entry is read at once. -/
theorem Taken.reads {c : Card} {e : Entry} {s : State} (h : Taken c e s) : Reads e s := ⟨h.channel, h.serves, h.empty, h.framed⟩

/-- The channel of a taken entry: the ring is empty again and the next sequence is expected (R58, R68). -/
theorem entered_chan (c : Card) {e : Entry} {s : State} (h : Reads e s) :
    (entered c e s).chan e.ch =
      { s.chan e.ch with cmdPi := (s.chan e.ch).cmdPi + BitVec.ofNat 11 (entryLen e), cmdCi := (s.chan e.ch).cmdPi + BitVec.ofNat 11 (entryLen e),
                         doorbell := false, expectSeq := e.seq + 1, seqFree := false } := by
  change (consumeSeq e (readAt c e s)).chan e.ch = _
  rw [consumeSeq, State.setChan_same, readAt_chan c h]

/-- Settles O12: the host's write word by word, the ring behind other entries, and the indices after an entry was taken. -/
theorem entriesStandInTheRing : Obligations.EntriesStandInTheRing := by
  refine ⟨fun p hp e s hc hoff hwf hfit hs => ⟨hostPut p.2.opcode e s, ?_, ?_, ?_, ?_, ?_, ?_⟩, fun p hp e s hc hs hne => ?_, fun p hp e s h => ?_⟩
  · rw [exec_mailboxRow p hp, command_left p.2 e s hc hoff hs]
  · rw [hostPut_room hfit]; rfl
  · rw [hostPut_room hfit, State.setChan_same]
  · rw [hostPut_room hfit, State.setChan_same]
  · exact fun i w hi => hostPut_words hfit hwf hi
  · exact fun a ha => hostPut_otherBytes hfit ha
  · rw [exec_mailboxRow p hp, command_rung p.2 e s hc hs hne]
  · have hchan := entered_chan p.2 h.reads
    refine ⟨by rw [hchan], by rw [hchan], by rw [hchan], rfl, entered_journal _ _ _, entered_onlyMailbox _ _ _⟩

end Sys2Proof.Machine
end

section
/-! PROOFS. Journal entries and responses (R63, R64, R67, R75, R76, R80, R85, R86): what a written response leaves, what a held one leaves, and the
two put together for each way a command goes on. -/

namespace Sys2Proof.Machine

theorem OnlyMailbox.trans {s t u : State} (h : OnlyMailbox s t) (g : OnlyMailbox t u) : OnlyMailbox s u := by
  unfold OnlyMailbox at *
  rw [g, h]

-- a written response (R58, R63, R67) -------------------------------------------------------------------------------------------

/-- All that a written response changes: its words in the window, the producer index, and the channel's bell. -/
theorem writeResp_eq (ch : Nat) (r : Resp) (s : State) :
    ∃ out, writeResp ch r s =
      { s with mem := { s.mem with win := ringPut (rspRingWord ch) (s.chan ch).rspPi.toNat (respWords r) s.mem.win },
               mbx := { s.mbx with chans := s.mbx.chans.put ch { s.chan ch with rspPi := (s.chan ch).rspPi + BitVec.ofNat 11 (respWords r).length },
                                   dbRsp := setBit s.mbx.dbRsp ch true },
               out := out } := by
  unfold writeResp setDbRsp signalHost
  dsimp only
  split <;> exact ⟨_, rfl⟩

theorem writeResp_onlyMailbox (ch : Nat) (r : Resp) (s : State) : OnlyMailbox s (writeResp ch r s) := by
  obtain ⟨out, h⟩ := writeResp_eq ch r s
  rw [h]
  rfl

theorem writeResp_chan (ch : Nat) (r : Resp) (s : State) :
    (writeResp ch r s).chan ch = { s.chan ch with rspPi := (s.chan ch).rspPi + BitVec.ofNat 11 (respWords r).length } := by
  obtain ⟨out, h⟩ := writeResp_eq ch r s
  rw [h]
  exact Tab.look_put_same _ _ _ _

/-- A response that is written stands in the ring; `s` may differ from the state `b` that it is written on in anything but the producer index. -/
theorem writeResp_answered {ch : Nat} {r : Resp} {s b : State} (hch : ch < 16) (hwf : Mem.wf b.mem.win = true) (hlen : (respWords r).length ≤ 2048)
    (hpi : (b.chan ch).rspPi = (s.chan ch).rspPi) : Answered ch r s (writeResp ch r b) where
  words i w hi := by
    obtain ⟨out, h⟩ := writeResp_eq ch r b
    rw [h, ← hpi]
    exact word_ringPut _ _ _ _ hwf (rspRing_inj ch _ _ hlen) i w hi
  index := by rw [writeResp_chan, ← hpi]
  bell := by
    obtain ⟨out, h⟩ := writeResp_eq ch r b
    rw [h]
    exact (getLsbD_setBit _ ch true ch (by omega)).trans (if_pos rfl)

-- an answer that finds room (R64, R66) -----------------------------------------------------------------------------------------------

/-- What carrying a command out has changed before its answer is written: the mailbox alone, and neither the response ring nor what it holds. -/
structure BeforeAnswer (e : Entry) (s b : State) : Prop where
  win : b.mem = s.mem
  index : (b.chan e.ch).rspPi = (s.chan e.ch).rspPi
  consumed : (b.chan e.ch).rspCi = (s.chan e.ch).rspCi
  held : (b.chan e.ch).held = (s.chan e.ch).held
  only : OnlyMailbox s b

/-- An unsuppressed answer that finds room is written at once. -/
theorem answer_hasRoom {e : Entry} {st : Status} {ws : List Word} {s b : State} (h : HasRoom e st ws s) (hb : BeforeAnswer e s b) (j : Word)
    (final : Bool) : answer e st j ws final b = writeResp e.ch { status := st, seq := e.seq, jindex := j, words := ws, final := final } b := by
  have hquiet : ¬(e.quiet = true ∧ st.toNat ≤ 2) := fun hq => absurd hq.2 (Nat.not_le.mpr (h.loud hq.1))
  have hroom : (b.chan e.ch).held = [] ∧
      (respWords { status := st, seq := e.seq, jindex := j, words := ws, final := final }).length ≤ ringFree (b.chan e.ch).rspPi (b.chan e.ch).rspCi := by
    rw [hb.held, hb.index, hb.consumed]
    exact ⟨h.first, by have := h.room; simp only [respWords, List.length_cons]; omega⟩
  rw [answer, if_neg hquiet, respond]
  exact if_pos hroom

/-- What an answer that finds room leaves: itself in the ring, and the journal and the lists of the mailbox as they were. -/
theorem answer_written {e : Entry} {st : Status} {ws : List Word} {s b : State} (h : HasRoom e st ws s) (hb : BeforeAnswer e s b) (j : Word)
    (final : Bool) : let t := answer e st j ws final b
    (t.mbx.journal = b.mbx.journal ∧ t.mbx.nextJ = b.mbx.nextJ ∧ t.mbx.running = b.mbx.running ∧ t.mbx.staged = b.mbx.staged ∧
      t.mbx.stagedCmds = b.mbx.stagedCmds) ∧
    Answered e.ch { status := st, seq := e.seq, jindex := j, words := ws, final := final } s t ∧ OnlyMailbox s t := by
  dsimp only
  rw [answer_hasRoom h hb]
  refine ⟨?_, writeResp_answered h.channel (by rw [hb.win]; exact h.win) ?_ hb.index, hb.only.trans (writeResp_onlyMailbox _ _ _)⟩
  · obtain ⟨out, he⟩ := writeResp_eq e.ch { status := st, seq := e.seq, jindex := j, words := ws, final := final } b
    rw [he]
    exact ⟨rfl, rfl, rfl, rfl, rfl⟩
  · have hroom := h.room
    have : ringFree (s.chan e.ch).rspPi (s.chan e.ch).rspCi ≤ 2047 := by unfold ringFree; omega
    simp only [respWords, List.length_cons]
    omega

/-- Whether a response ends its command is not written into it. -/
theorem Answered.final {ch : Nat} {r : Resp} {s t : State} (f : Bool) (h : Answered ch r s t) : Answered ch { r with final := f } s t := ⟨h.words, h.index, h.bell⟩

-- the journal (R85, R86) -----------------------------------------------------------------------------------------------------------------

/-- A journal entry stands in front of the last 4,095. -/
theorem journalAdd_journal (op : Nat) (e : Entry) (st : JState) (status : Status) (steps : Nat) (s : State) :
    (journalAdd op e st status steps s).mbx.journal = newEntry op e st status steps s :: s.mbx.journal.take 4095 := rfl

theorem journalAdd_chan (op : Nat) (e : Entry) (st : JState) (status : Status) (steps : Nat) (s : State) :
    (journalAdd op e st status steps s).chan e.ch = { s.chan e.ch with lastJ := s.mbx.nextJ } := State.setChan_same _ _ _

theorem journalAdd_before (op : Nat) (e : Entry) (st : JState) (status : Status) (steps : Nat) (s : State) :
    BeforeAnswer e s (journalAdd op e st status steps s) where
  win := rfl
  index := by rw [journalAdd_chan]
  consumed := by rw [journalAdd_chan]
  held := by rw [journalAdd_chan]
  only := rfl

/-- Further changes of the mailbox that leave its channels. -/
theorem BeforeAnswer.mailbox {e : Entry} {s b : State} (h : BeforeAnswer e s b) (t : State) (ht : t = { b with mbx := t.mbx }) (hc : t.mbx.chans = b.mbx.chans) :
    BeforeAnswer e s t := by
  have hchan : t.chan e.ch = b.chan e.ch := congrArg (fun m => m.look e.ch {}) hc
  have honly : OnlyMailbox b t := by
    unfold OnlyMailbox
    rw [ht]
  exact ⟨by rw [ht]; exact h.win, by rw [hchan, h.index], by rw [hchan, h.consumed], by rw [hchan, h.held], h.only.trans honly⟩

-- the staged set (R80) ---------------------------------------------------------------------------------------------------------------------

theorem putStaged_mem (x : Staged) (st : List Staged) : x ∈ putStaged x st := by
  unfold putStaged
  split
  · rename_i h
    obtain ⟨y, hy, hf⟩ := List.any_eq_true.mp h
    exact List.mem_map.mpr ⟨y, hy, if_pos (by simpa using hf)⟩
  · simp

/-- A field that is staged stays staged, by the same command when that command stages once more. -/
theorem putStaged_keeps {k : FieldKey} {j : Word} {x : Staged} {st : List Staged} (hx : x.j = j) (h : ∃ y ∈ st, y.field = k ∧ y.j = j) :
    ∃ y ∈ putStaged x st, y.field = k ∧ y.j = j := by
  obtain ⟨y, hy, hk, hj⟩ := h
  unfold putStaged
  split
  · by_cases hf : y.field = x.field
    · exact ⟨x, List.mem_map.mpr ⟨y, hy, if_pos hf⟩, hf ▸ hk, hx⟩
    · exact ⟨y, List.mem_map.mpr ⟨y, hy, if_neg hf⟩, hk, hj⟩
  · exact ⟨y, List.mem_append_left _ hy, hk, hj⟩

/-- The staged set with the fields of a command added in their order (R80). -/
def stageAll (j : Word) (fs : List Staged) (st : List Staged) : List Staged := fs.foldl (fun st x => putStaged { x with j := j } st) st

theorem stageAll_keeps {j : Word} {k : FieldKey} (fs : List Staged) {st : List Staged} (h : ∃ y ∈ st, y.field = k ∧ y.j = j) :
    ∃ y ∈ stageAll j fs st, y.field = k ∧ y.j = j := by
  induction fs generalizing st with
  | nil => exact h
  | cons x r ih => exact ih (putStaged_keeps rfl h)

theorem stageAll_stages (j : Word) (fs : List Staged) (st : List Staged) : ∀ f ∈ fs, ∃ x ∈ stageAll j fs st, x.field = f.field ∧ x.j = j := by
  induction fs generalizing st with
  | nil => simp
  | cons x r ih =>
    intro f hf
    rcases List.mem_cons.mp hf with rfl | hf
    · exact stageAll_keeps r ⟨_, putStaged_mem { f with j := j } st, rfl, rfl⟩
    · exact ih _ f hf

-- a response that waits (R64) ---------------------------------------------------------------------------------------------------------------

theorem respond_held {ch : Nat} {r : Resp} {s : State}
    (h : (s.chan ch).held ≠ [] ∨ ringFree (s.chan ch).rspPi (s.chan ch).rspCi < (respWords r).length) :
    respond ch r s = s.setChan ch { s.chan ch with held := (s.chan ch).held ++ [r], rspFull := true } := by
  refine if_neg fun hroom => ?_
  rcases h with h | h
  · exact h hroom.1
  · exact absurd hroom.2 (Nat.not_le.mpr h)

/-- The first held response is written once room has appeared. -/
theorem releaseHeld_room {ch : Nat} {r : Resp} {rest : List Resp} {s : State} (hh : (s.chan ch).held = r :: rest)
    (hroom : (respWords r).length ≤ ringFree (s.chan ch).rspPi (s.chan ch).rspCi) :
    releaseHeld ch s = writeResp ch r (s.setChan ch { s.chan ch with held := rest, rspFull := decide (rest ≠ []) }) := by
  simp only [releaseHeld, hh]
  exact if_pos hroom

section Ways
variable (op : Nat) (e : Entry) (s : State)

theorem finishNow_leaves {ws : List Word} (h : HasRoom e stDone ws s) : let t := finishNow op e ws s
    t.mbx.journal = newEntry op e .done stDone 0 s :: s.mbx.journal.take 4095 ∧ t.mbx.nextJ = nextIndex s.mbx.nextJ ∧
    Answered e.ch { status := stDone, seq := e.seq, jindex := s.mbx.nextJ, words := ws } s t ∧ OnlyMailbox s t := by
  obtain ⟨⟨hj, hn, -, -, -⟩, hr, ho⟩ := answer_written h (journalAdd_before op e .done stDone 0 s) s.mbx.nextJ true
  exact ⟨hj, hn, hr.final true, ho⟩

theorem rejectNow_leaves {f : Fail} (h : HasRoom e f.1 f.2 s) : let t := rejectNow op e f s
    t.mbx.journal = newEntry op e .done f.1 0 s :: s.mbx.journal.take 4095 ∧ t.mbx.nextJ = nextIndex s.mbx.nextJ ∧
    Answered e.ch { status := f.1, seq := e.seq, jindex := s.mbx.nextJ, words := f.2 } s t ∧ OnlyMailbox s t := by
  obtain ⟨⟨hj, hn, -, -, -⟩, hr, ho⟩ := answer_written h (journalAdd_before op e .done f.1 0 s) s.mbx.nextJ true
  exact ⟨hj, hn, hr.final true, ho⟩

theorem startStepped_leaves (n final : Nat) (undo : List Word) (h : HasRoom e stAccepted [BitVec.ofNat 32 n] s) : let t := startStepped op e n final undo s
    t.mbx.journal = newEntry op e .step 0 n s :: s.mbx.journal.take 4095 ∧ t.mbx.nextJ = nextIndex s.mbx.nextJ ∧
    t.mbx.running = s.mbx.running ++ [{ j := s.mbx.nextJ, opcode := op, e := e, n := n, finalAt := final, undo := undo }] ∧
    Answered e.ch { status := stAccepted, seq := e.seq, jindex := s.mbx.nextJ, words := [BitVec.ofNat 32 n] } s t ∧ OnlyMailbox s t := by
  obtain ⟨⟨hj, hn, hrun, -, -⟩, hr, ho⟩ := answer_written h ((journalAdd_before op e .step 0 n s).mailbox
    ({ journalAdd op e .step 0 n s with mbx := { (journalAdd op e .step 0 n s).mbx with
      running := s.mbx.running ++ [{ j := s.mbx.nextJ, opcode := op, e := e, n := n, finalAt := final, undo := undo }] } }) rfl rfl) s.mbx.nextJ false
  exact ⟨hj, hn, hrun, hr.final _, ho⟩

theorem queueBoundary_leaves (jb : Job) : let t := queueBoundary op e jb s
    t.mbx.journal = newEntry op e .queued 0 0 s :: s.mbx.journal.take 4095 ∧ t.mbx.nextJ = nextIndex s.mbx.nextJ ∧
    t.mbx.jobs = s.mbx.jobs ++ [{ jb with j := s.mbx.nextJ, opcode := op, e := e, phase := .boundary }] ∧
    (t.chan e.ch).rspPi = (s.chan e.ch).rspPi ∧ (t.chan e.ch).held = (s.chan e.ch).held ∧ OnlyMailbox s t := by
  have hchan : (queueBoundary op e jb s).chan e.ch = (journalAdd op e .queued 0 0 s).chan e.ch := rfl
  dsimp only
  rw [hchan, journalAdd_chan]
  exact ⟨rfl, rfl, rfl, rfl, rfl, rfl⟩

theorem stageFields_leaves (fs : List Staged) (h : HasRoom e stStaged [] s) : let t := stageFields op e fs s
    (∃ x, t.mbx.journal.head? = some x ∧ x.idx = s.mbx.nextJ ∧ x.st = .queued ∧ x.answered = true) ∧
    t.mbx.stagedCmds = s.mbx.stagedCmds ++ [s.mbx.nextJ] ∧ t.mbx.nextJ = nextIndex s.mbx.nextJ ∧
    (∀ f ∈ fs, ∃ x ∈ t.mbx.staged, x.field = f.field ∧ x.j = s.mbx.nextJ) ∧
    Answered e.ch { status := stStaged, seq := e.seq, jindex := s.mbx.nextJ, words := [] } s t ∧ OnlyMailbox s t := by
  have hb := (journalAdd_before op e .queued 0 0 s).mailbox
    (markAnswered s.mbx.nextJ { journalAdd op e .queued 0 0 s with mbx := { (journalAdd op e .queued 0 0 s).mbx with
      staged := stageAll s.mbx.nextJ fs s.mbx.staged, stagedCmds := s.mbx.stagedCmds ++ [s.mbx.nextJ] } }) rfl rfl
  obtain ⟨⟨hj, hn, -, hst, hcmds⟩, hr, ho⟩ := answer_written h hb s.mbx.nextJ false
  refine ⟨⟨{ newEntry op e .queued 0 0 s with answered := true, owed := false }, ?_, rfl, rfl, rfl⟩, hcmds, hn, fun f hf => ?_, hr.final _, ho⟩
  · refine (congrArg List.head? hj).trans ?_
    simp [markAnswered, journalAdd_journal, newEntry]
  · obtain ⟨x, hx, hfield⟩ := stageAll_stages s.mbx.nextJ fs s.mbx.staged f hf
    exact ⟨x, (congrArg (x ∈ ·) hst).mpr hx, hfield⟩

end Ways

/-- Settles O13: the journal entry of each way a command goes on, and its answer; a held response and its release. -/
theorem journalEntriesAndAnswers : Obligations.JournalEntriesAndAnswers := by
  refine ⟨fun op e s => ⟨fun ws h => finishNow_leaves op e s h, fun f h => rejectNow_leaves op e s h,
    fun n final undo h => startStepped_leaves op e s n final undo h, fun jb => queueBoundary_leaves op e s jb,
    fun fs h => stageFields_leaves op e s fs h⟩, fun ch r s hch => ⟨fun h => ?held, fun rest hs hwf hh hroom => ?released⟩⟩
  case held =>
    rw [respond_held h, State.setChan_same]
    exact ⟨rfl, rfl, rfl, rfl⟩
  case released =>
    have hlen : (respWords r).length ≤ 2048 := by unfold ringFree at hroom; omega
    refine ⟨releaseHeld ch s, by simp [exec, execResponseReleased, withUnit, hch, hs], ?_⟩
    rw [releaseHeld_room hh hroom, writeResp_chan, State.setChan_same]
    exact ⟨writeResp_answered hch hwf hlen (by rw [State.setChan_same]), rfl, rfl, .trans (rfl : OnlyMailbox s (s.setChan ch _)) (writeResp_onlyMailbox _ _ _)⟩

end Sys2Proof.Machine
end

section
/-! PROOFS. Reading an entry back (R57, R58, R66): the fields of the two header words, the stamp, and the payload words after them. -/

namespace Sys2Proof.Machine

-- the header words (R66) ------------------------------------------------------------------------------------------------------------

/-- Header word 0 of an entry. -/
def headerWord0 (op : Nat) (e : Entry) : Word := pack [(e.version.toNat, 28), (op, 16), (e.seq.toNat, 0)]

/-- Header word 1 of an entry. -/
def headerWord1 (e : Entry) : Word :=
  pack [(b2n e.stage, 31), (b2n e.stamped, 30), (b2n e.quiet, 29), (e.rsv.toNat, 24), (e.target.toNat, 16), (e.payload.length, 0)]

theorem entryWords_eq (op : Nat) (e : Entry) :
    entryWords op e = headerWord0 op e :: headerWord1 e :: ((if e.stamped then [e.stamp] else []) ++ e.payload) := rfl

theorem b2n_le (b : Bool) : b2n b ≤ 1 := by cases b <;> decide

theorem b2n_eq_one (b : Bool) : decide (b2n b = 1) = b := by cases b <;> rfl

theorem headerWord0_toNat {op : Nat} (e : Entry) (h : op < 4096) :
    (headerWord0 op e).toNat = e.version.toNat * 2 ^ 28 + op * 2 ^ 16 + e.seq.toNat := by
  have := e.version.isLt
  have := e.seq.isLt
  simp only [headerWord0, pack, List.foldl_cons, List.foldl_nil, BitVec.toNat_ofNat]
  omega

theorem headerWord1_toNat {e : Entry} (h : e.payload.length ≤ 1024) :
    (headerWord1 e).toNat = b2n e.stage * 2 ^ 31 + b2n e.stamped * 2 ^ 30 + b2n e.quiet * 2 ^ 29 + e.rsv.toNat * 2 ^ 24 + e.target.toNat * 2 ^ 16
      + e.payload.length := by
  have := e.rsv.isLt
  have := e.target.isLt
  have := b2n_le e.stage
  have := b2n_le e.stamped
  have := b2n_le e.quiet
  simp only [headerWord1, pack, List.foldl_cons, List.foldl_nil, BitVec.toNat_ofNat]
  omega

theorem headerWord0_fields {op : Nat} (e : Entry) (h : op < 4096) :
    bits (headerWord0 op e) 31 28 = e.version.toNat ∧ bits (headerWord0 op e) 27 16 = op ∧ bits (headerWord0 op e) 15 0 = e.seq.toNat := by
  have := e.version.isLt
  have := e.seq.isLt
  simp only [bits, headerWord0_toNat e h]
  omega

theorem bit_eq (w : Word) (n : Nat) : bit w n = decide (w.toNat / 2 ^ n % 2 = 1) := by
  rw [bit, ← BitVec.testBit_toNat, Nat.testBit_eq_decide_div_mod_eq]

section Header1
variable {e : Entry} (h : e.payload.length ≤ 1024)
include h

theorem headerWord1_flags : bit (headerWord1 e) 31 = e.stage ∧ bit (headerWord1 e) 30 = e.stamped ∧ bit (headerWord1 e) 29 = e.quiet := by
  have := e.rsv.isLt
  have := e.target.isLt
  have := b2n_le e.stage
  have := b2n_le e.stamped
  have := b2n_le e.quiet
  simp only [bit_eq, headerWord1_toNat h]
  refine ⟨?_, ?_, ?_⟩
  · exact (decide_eq_decide.mpr (by omega)).trans (b2n_eq_one e.stage)
  · exact (decide_eq_decide.mpr (by omega)).trans (b2n_eq_one e.stamped)
  · exact (decide_eq_decide.mpr (by omega)).trans (b2n_eq_one e.quiet)

theorem headerWord1_fields :
    bits (headerWord1 e) 28 24 = e.rsv.toNat ∧ bits (headerWord1 e) 23 16 = e.target.toNat ∧ bits (headerWord1 e) 15 0 = e.payload.length := by
  have := e.rsv.isLt
  have := e.target.isLt
  have := b2n_le e.stage
  have := b2n_le e.stamped
  have := b2n_le e.quiet
  simp only [bits, headerWord1_toNat h]
  omega

/-- The header words spell the header (R66). -/
theorem parseHeader_headerWords {op : Nat} (ho : op < 4096) :
    parseHeader (headerWord0 op e) (headerWord1 e) e.ch = { e with stamp := 0, payload := [] } := by
  obtain ⟨hv, -, hq⟩ := headerWord0_fields e ho
  obtain ⟨h1, h2, h3⟩ := headerWord1_flags h
  obtain ⟨hr, ht, -⟩ := headerWord1_fields h
  simp [parseHeader, hv, hq, h1, h2, h3, hr, ht]

end Header1

-- the ring (R58) ---------------------------------------------------------------------------------------------------------------------------

theorem ringUsed_add (p : BitVec 11) {n : Nat} (h : n ≤ 1024) : ringUsed (p + BitVec.ofNat 11 n) p = n := by
  have := p.isLt
  simp only [ringUsed, BitVec.toNat_add, BitVec.toNat_ofNat]
  omega

/-- The words of an entry after its header and stamp are its payload. -/
theorem entryWords_payload (op : Nat) (e : Entry) (i : Nat) : (entryWords op e)[2 + b2n e.stamped + i]? = e.payload[i]? := by
  rw [entryWords_eq]
  cases e.stamped
  case false =>
    rw [show 2 + b2n false + i = i + 1 + 1 from (Nat.add_comm i 2).symm]
    rfl
  case true =>
    rw [show 2 + b2n true + i = i + 1 + 1 + 1 from (Nat.add_comm i 3).symm]
    rfl

theorem map_range_eq {xs : List Word} {f : Nat → Word} (h : ∀ i w, xs[i]? = some w → f i = w) : (List.range xs.length).map f = xs := by
  refine List.ext_getElem (by simp) fun i hi hx => ?_
  rw [List.getElem_map, List.getElem_range]
  exact h i _ (List.getElem?_eq_getElem hx)

/-- Settles O6: the header's fields, the stamp and the payload are read from the words that the host put there. -/
theorem entriesReadBack : Obligations.EntriesReadBack := by
  intro op e s ho hc hwf he hlen hst
  have hfit : entryLen e ≤ ringFree (s.chan e.ch).cmdPi (s.chan e.ch).cmdCi := by
    rw [he, ringFree_empty]
    omega
  have hpay : e.payload.length ≤ 1024 := by unfold entryLen at hlen; omega
  have hchan : (hostPut op e s).chan e.ch = _ := (congrArg (fun t : State => t.chan e.ch) (hostPut_room hfit)).trans (State.setChan_same _ _ _)
  have hword : ∀ i w, (entryWords op e)[i]? = some w → Mem.word (hostPut op e s).mem.win (cmdRingWord e.ch ((s.chan e.ch).cmdCi.toNat + i)) = w := by
    intro i w hi
    rw [← he]
    exact hostPut_words hfit hwf hi
  have h0 := hword 0 (headerWord0 op e) rfl
  have h1 := hword 1 (headerWord1 e) rfl
  have hstamp : (if e.stamped then Mem.word (hostPut op e s).mem.win (cmdRingWord e.ch ((s.chan e.ch).cmdCi.toNat + 2)) else 0) = e.stamp := by
    cases hs : e.stamped
    case false => exact (hst hs).symm
    case true => exact hword 2 e.stamp (by rw [entryWords_eq, hs]; rfl)
  have hpayload : (List.range e.payload.length).map
      (fun i => Mem.word (hostPut op e s).mem.win (cmdRingWord e.ch ((s.chan e.ch).cmdCi.toNat + (2 + b2n e.stamped + i)))) = e.payload :=
    map_range_eq fun i w hi => hword _ w ((entryWords_payload op e i).trans hi)
  have hframed : 2 + b2n e.stamped + e.payload.length ≤ 1024 := hlen
  unfold readEntry
  simp only [hchan, h0, h1, (headerWord0_fields e ho).2.1, (headerWord1_fields hpay).2.2, parseHeader_headerWords hpay ho, hstamp, hpayload]
  rw [he, ringUsed_add _ hlen, if_pos hframed]
  simp [entryLen, hframed]
end Sys2Proof.Machine
end


section
/-! PROOFS. The machine as a whole: right after reset, one step, and instruction words written out from the tables (R2, R213 to R216). -/

namespace Sys2Proof.Machine

-- one clk (log entry 1) ----------------------------------------------------------------------------------------------------------

/-- Nothing but the timers and what the device sends out differs (R411, R412). -/
def OnlyTimers (s t : State) : Prop := t = { s with timers := t.timers, out := t.out }

theorem OnlyTimers.trans {a b c : State} (h : OnlyTimers a b) (g : OnlyTimers b c) : OnlyTimers a c := by
  unfold OnlyTimers at *
  rw [g, h]

theorem timerTick_onlyTimers (n : Nat) (s : State) : OnlyTimers s (timerTick n s) := by
  unfold timerTick
  dsimp only
  split <;> rfl

theorem timerClk_onlyTimers (s : State) (n : Nat) : OnlyTimers s (timerClk s n) := by
  unfold timerClk
  dsimp only
  split
  · rfl
  split
  · rfl
  split
  · rfl
  · exact OnlyTimers.trans (b := s.setTimer n { s.timer n with presc := 0 }) rfl (timerTick_onlyTimers n _)

theorem foldl_timerClk_onlyTimers (ns : List Nat) (s : State) : OnlyTimers s (ns.foldl timerClk s) := by
  induction ns generalizing s with
  | nil => rfl
  | cons n ns ih => exact (timerClk_onlyTimers s n).trans (ih _)

/-- One clk leaves the mailboxes, the memories and the power state. -/
theorem clkPass_keeps (s : State) : (clkPass s).mbx = s.mbx ∧ (clkPass s).mem = s.mem ∧ (clkPass s).power = s.power := by
  unfold clkPass
  split
  · exact ⟨rfl, rfl, rfl⟩
  · dsimp only
    rw [foldl_timerClk_onlyTimers]
    exact ⟨rfl, rfl, rfl⟩

/-- An empty queue's clk, where no reset is due: the mailboxes and the memories stay, and BSY_N rises. -/
theorem idle_keeps (s : State) (h : s.power.resetDue = false) :
    (idle s).mbx = s.mbx ∧ (idle s).mem = { s.mem with bsyN := true } := by
  obtain ⟨hmbx, hmem, hpower⟩ := clkPass_keeps s
  have hdue : (strobeEnd (clkPass s)).power.resetDue = false := (congrArg Power.resetDue hpower).trans h
  have hidle : idle s = strobeEnd (clkPass s) := by
    unfold idle dueReset
    rw [hdue]
    rfl
  rw [hidle]
  exact ⟨hmbx, congrArg (fun m : MemSys => { m with bsyN := true }) hmem⟩

/-- Settles O2: the step is defined by the queue; on an empty one the clk leaves the mailboxes and the memories. -/
theorem stepRunsTheFrontCommand : Obligations.StepRunsTheFrontCommand := by
  refine ⟨fun c rest s => rfl, fun s hempty => ⟨?_, idle_keeps s⟩⟩
  unfold step
  rw [hempty]

-- instruction words (R213 to R216) -----------------------------------------------------------------------------------------------

/-- Settles O4: each word is evaluated. -/
theorem writtenWordsDecode : Obligations.WrittenWordsDecode := by
  unfold Obligations.WrittenWordsDecode
  decide

-- right after reset --------------------------------------------------------------------------------------------------------------

/-- Bank `b` right after reset: the owner that R327 gives it, and every other field at its default. -/
theorem reset_bank (b : Nat) (h : b < 64) : State.reset.bank b = { owner := ownerAfterReset b } := by
  interval_cases b <;> rfl

/-- Bays B1 to B7 are not formed after reset (R268). -/
theorem reset_bay (b : Nat) (h : b ≠ 0) : State.reset.bay b = {} := by
  change Tab.look [(0, ({ count := 8 } : Bay))] b {} = {}
  exact (Tab.look_put_other [] 0 b _ _ h)

/-- Settles O1: the fields of the reset state are read off; banks and Bays through the tables they are given in. -/
theorem stateAfterReset : Obligations.StateAfterReset := by
  have owner : ∀ b, b < 64 → (State.reset.bank b).owner = ownerAfterReset b := fun b h => by rw [reset_bank b h]
  refine ⟨rfl, rfl, rfl, rfl, rfl, rfl, rfl, rfl, rfl, rfl, rfl, rfl, fun b hb => ?unformed, fun b hb => ?courses, fun n hn => ?bays,
    rfl, rfl, rfl, rfl, fun b hb => ?plain, fun n _ => ⟨rfl, rfl, rfl, rfl, rfl⟩, rfl, rfl, rfl, rfl, rfl, fun q => rfl, fun i => rfl, fun d => rfl⟩
  case unformed => simp [State.formed, reset_bay b hb]
  case courses => rw [owner b (by omega), ownerAfterReset, if_pos hb]
  case bays =>
    rw [owner _ (by omega), ownerAfterReset, if_neg (by omega), if_pos (by omega), Nat.add_sub_cancel_left]
  case plain => rw [reset_bank b hb]; exact ⟨rfl, rfl⟩

end Sys2Proof.Machine
end


section
/-! PROOFS. Arithmetic of the voice cores (R210, R216, R222): what a result leaves in the accumulators and the flags, once for every operation that
writes one, and the ports around it. -/

namespace Sys2Proof.Machine

-- flags of a result (R211, R216) -------------------------------------------------------------------------------------------------

/-- A flag after a sticky bit may have been set. -/
theorem RegSet.flag_sticky (r : RegSet) (n : Nat) (b : Bool) (i : Nat) (hn : n < 24) :
    (r.sticky n b).flag i = if i = n then (r.flag i || b) else r.flag i := by
  unfold RegSet.sticky RegSet.flag
  cases b
  · simp
  · simp only [if_true, getLsbD_setBit _ _ _ _ hn, Bool.or_true]

/-- A flag after CY was set or cleared. -/
theorem RegSet.flag_setCY (r : RegSet) (b : Bool) (i : Nat) : (r.setCY b).flag i = if i = csrCY then b else r.flag i :=
  getLsbD_setBit _ _ _ _ (by decide)

/-- A flag after NEG, ZR and XU were taken from a value: the others stay. -/
theorem RegSet.flag_setNZX (r : RegSet) (a : Acc) (i : Nat) :
    (r.setNZX a).flag i = if i = csrXU then usesExt a else if i = csrZR then a == 0 else if i = csrNEG then a.msb else r.flag i := by
  unfold RegSet.setNZX RegSet.flag
  simp only [getLsbD_setBit _ csrXU _ _ (show csrXU < 24 by decide), getLsbD_setBit _ csrZR _ _ (show csrZR < 24 by decide),
    getLsbD_setBit _ csrNEG _ _ (show csrNEG < 24 by decide)]

theorem usesExt_eq (a : Acc) : usesExt a = decide ((a.setWidth 48).signExtend 56 ≠ a) := by
  rw [usesExt, bne, beq_eq_decide, decide_not]

/-- NEG, ZR and XU stand as a value gives them once they were taken from it. -/
theorem flagsOf_setNZX (r : RegSet) (a : Acc) : FlagsOf a (r.setNZX a) := by
  unfold FlagsOf
  simp only [RegSet.flag_setNZX]
  exact ⟨rfl, beq_eq_decide a 0, usesExt_eq a⟩

/-- NEG, ZR and XU are three bits of CSR. -/
theorem FlagsOf.congr {a : Acc} {r q : RegSet} (h : FlagsOf a r) (e : ∀ i, i ∈ [csrNEG, csrZR, csrXU] → q.flag i = r.flag i) : FlagsOf a q := by
  obtain ⟨hn, hz, hx⟩ := h
  exact ⟨(e _ (by decide)).trans hn, (e _ (by decide)).trans hz, (e _ (by decide)).trans hx⟩

-- a result in Wd (R210, R216) ----------------------------------------------------------------------------------------------------

/-- What an operation leaves that writes `x` to Wd: the accumulators, NEG, ZR and XU from `x`, CY as it was, WRAP set when `w`. -/
structure Puts (wd : BitVec 2) (x : Acc) (w : Bool) (r t : RegSet) : Prop where
  accs : ∀ d, t.wr d = oneAcc r wd x d
  flags : FlagsOf x t
  carry : t.flag csrCY = r.flag csrCY
  wrap : t.flag csrWRAP = (r.flag csrWRAP || w)

theorem setW_wr (r : RegSet) (wd : BitVec 2) (x : Acc) (d : Nat) : (r.setW wd.toNat x).wr d = oneAcc r wd x d := wr_setW r _ d x

theorem RegSet.wr_sticky (r : RegSet) (n : Nat) (b : Bool) (d : Nat) : (r.sticky n b).wr d = r.wr d := by
  cases b <;> rfl

/-- Bits that cannot wrap. -/
theorem putBits_puts (wd : BitVec 2) (x : Acc) (r : RegSet) : Puts wd x false r (putBits wd x r) where
  accs := setW_wr r wd x
  flags := flagsOf_setNZX _ x
  carry := RegSet.flag_setNZX (r.setW wd.toNat x) x csrCY
  wrap := (RegSet.flag_setNZX (r.setW wd.toNat x) x csrWRAP).trans (Bool.or_false _).symm

/-- SATD beside a result. -/
theorem Puts.sticky_satd {wd : BitVec 2} {x : Acc} {w : Bool} {r t : RegSet} (h : Puts wd x w r t) (b : Bool) :
    Puts wd x w r (t.sticky csrSATD b) where
  accs d := (RegSet.wr_sticky t _ b d).trans (h.accs d)
  flags := h.flags.congr fun i hi => by
    rw [RegSet.flag_sticky _ _ _ _ (by decide), if_neg]
    rintro rfl
    exact absurd hi (by decide)
  carry := (RegSet.flag_sticky t _ b _ (by decide)).trans h.carry
  wrap := (RegSet.flag_sticky t _ b _ (by decide)).trans h.wrap

/-- A signed result, narrowed to an accumulator. -/
theorem putResult_puts (wd : BitVec 2) (x : Int) (r : RegSet) :
    Puts wd (BitVec.ofInt 56 x) (decide ((BitVec.ofInt 56 x).toInt ≠ x)) r (putResult wd x r) where
  accs d := (RegSet.wr_sticky _ _ _ d).trans (setW_wr r wd _ d)
  flags := (flagsOf_setNZX _ _).congr fun i hi => by
    rw [putResult, RegSet.flag_sticky _ _ _ _ (by decide), if_neg]
    · rfl
    · rintro rfl
      exact absurd hi (by decide)
  carry := (RegSet.flag_sticky _ _ _ _ (by decide)).trans (RegSet.flag_setNZX (r.setW wd.toNat _) _ csrCY)
  wrap := by
    have keep : ((r.setW wd.toNat (narrow x).1).setNZX (narrow x).1).flag csrWRAP = r.flag csrWRAP := RegSet.flag_setNZX _ _ _
    rw [putResult, RegSet.flag_sticky _ _ _ _ (by decide), if_pos rfl, keep, narrow, bne, beq_eq_decide, decide_not]

-- the ports around an operation ----------------------------------------------------------------------------------------------------

/-- An operation with allowed ports leaves the accumulators that it gives on registers that read the same. -/
theorem leavesAccs_of_portOp {i : Instr} {k : Nat} {pt : Ports} {s : State} (op : View → RegSet → RegSet) {w : Nat → Acc}
    (hs : Issues s k) (hp : portsOk pt = true) (hi : exec i s = portOp k pt op s)
    (hop : ∀ q, SameOps (s.regs k) q → ∀ d, d < 4 → (op (s.view k) q).wr d = w d) : LeavesAccs i k s w := by
  obtain ⟨t, q, ht, honly, hq, hw, -⟩ := portOp_result k pt op s hs hp
  exact ⟨t, hi.trans ht, honly, fun d hd => (congrArg (Tab.look · d 0) hw).trans (hop q hq d hd)⟩

theorem SameOps.flag_eq {r q : RegSet} (h : SameOps r q) (i : Nat) (h1 : i ≠ csrSATD) (h2 : i ≠ csrXERR) : q.flag i = r.flag i := h.csr i h1 h2

/-- An operation with allowed ports leaves the flags that it gives, but for SATD and XERR, which the ports may set. -/
theorem flags_of_portOp (i : Instr) {k : Nat} {pt : Ports} {s : State} (op : View → RegSet → RegSet)
    (hs : Issues s k) (hp : portsOk pt = true) (hi : exec i s = portOp k pt op s) :
    ∃ t q, exec i s = .next t ∧ SameOps (s.regs k) q ∧
      ∀ n, n ≠ csrSATD → n ≠ csrXERR → (t.regs k).flag n = (op (s.view k) q).flag n := by
  obtain ⟨t, q, ht, -, hq, -, hcsr, -⟩ := portOp_result k pt op s hs hp
  exact ⟨t, q, hi.trans ht, hq, hcsr⟩

-- operations on Wd and a source ------------------------------------------------------------------------------------------------------

/-- An operation writes `f` of Wd and its source to Wd, whatever the rest of the registers. -/
def Writes (op : View → RegSet → RegSet) (wd : BitVec 2) (src : ArithSrc) (f : Acc → Acc → Acc) : Prop :=
  ∀ v r d, (op v r).wr d = oneAcc r wd (f (r.wr wd.toNat) (arithOperand r wd src)) d

/-- An operation takes NEG, ZR and XU from `f` of Wd and its source, and CY and WRAP from these and what they were. -/
def Flags (op : View → RegSet → RegSet) (wd : BitVec 2) (src : ArithSrc) (f : Acc → Acc → Acc) (cy wrap : Acc → Acc → Bool → Bool) : Prop :=
  ∀ v r, FlagsOf (f (r.wr wd.toNat) (arithOperand r wd src)) (op v r) ∧
    (op v r).flag csrCY = cy (r.wr wd.toNat) (arithOperand r wd src) (r.flag csrCY) ∧
    (op v r).flag csrWRAP = wrap (r.wr wd.toNat) (arithOperand r wd src) (r.flag csrWRAP)

theorem arithSource_eq (wd : BitVec 2) (src : ArithSrc) (r : RegSet) : arithSource wd src r = arithOperand r wd src := by
  cases src <;> rfl

theorem SameOps.arithOperand_eq {r q : RegSet} (h : SameOps r q) (wd : BitVec 2) (src : ArithSrc) :
    arithOperand q wd src = arithOperand r wd src := by
  cases src <;> simp only [arithOperand, h.wr_eq, h.ur_eq]

section Around
variable {i : Instr} {k : Nat} {pt : Ports} {s : State} {op : View → RegSet → RegSet} {wd : BitVec 2} {src : ArithSrc} {f : Acc → Acc → Acc}

theorem Writes.leavesAccs (h : Writes op wd src f) (hs : Issues s k) (hp : portsOk pt = true) (hi : exec i s = portOp k pt op s) :
    LeavesAccs i k s (oneAcc (s.regs k) wd (f ((s.regs k).wr wd.toNat) (arithOperand (s.regs k) wd src))) :=
  leavesAccs_of_portOp op hs hp hi fun q hq d _ => by
    rw [h, oneAcc, oneAcc, hq.wr_eq, hq.arithOperand_eq]

theorem Flags.setsFlags {cy wrap : Acc → Acc → Bool → Bool} (h : Flags op wd src f cy wrap) (hs : Issues s k) (hp : portsOk pt = true)
    (hi : exec i s = portOp k pt op s) :
    SetsFlags i k s (f ((s.regs k).wr wd.toNat) (arithOperand (s.regs k) wd src))
      (cy ((s.regs k).wr wd.toNat) (arithOperand (s.regs k) wd src) ((s.regs k).flag csrCY))
      (wrap ((s.regs k).wr wd.toNat) (arithOperand (s.regs k) wd src) ((s.regs k).flag csrWRAP)) := by
  obtain ⟨t, q, ht, hq, hflag⟩ := flags_of_portOp i op hs hp hi
  obtain ⟨hnzx, hcy, hwrap⟩ := h (s.view k) q
  rw [hq.wr_eq, hq.arithOperand_eq, hq.flag_eq _ (by decide) (by decide)] at hcy hwrap
  rw [hq.wr_eq, hq.arithOperand_eq] at hnzx
  refine ⟨t, ht, hnzx.congr fun n hn => hflag n ?_ ?_, (hflag _ (by decide) (by decide)).trans hcy,
    (hflag _ (by decide) (by decide)).trans hwrap⟩ <;> (rintro rfl; exact absurd hn (by decide))

end Around

/-- An operation that puts a result in Wd, and gives WRAP as `w` says. -/
def PutsAs (op : View → RegSet → RegSet) (wd : BitVec 2) (src : ArithSrc) (f : Acc → Acc → Acc) (w : Acc → Acc → Bool) : Prop :=
  ∀ v r, Puts wd (f (r.wr wd.toNat) (arithOperand r wd src)) (w (r.wr wd.toNat) (arithOperand r wd src)) r (op v r)

theorem PutsAs.writes {op : View → RegSet → RegSet} {wd : BitVec 2} {src : ArithSrc} {f : Acc → Acc → Acc} {w : Acc → Acc → Bool}
    (h : PutsAs op wd src f w) : Writes op wd src f := fun v r => (h v r).accs

theorem PutsAs.flags {op : View → RegSet → RegSet} {wd : BitVec 2} {src : ArithSrc} {f : Acc → Acc → Acc} {w : Acc → Acc → Bool}
    (h : PutsAs op wd src f w) : Flags op wd src f (fun _ _ c => c) (fun a b x => x || w a b) :=
  fun v r => ⟨(h v r).flags, (h v r).carry, (h v r).wrap⟩

/-- Bits that cannot wrap leave WRAP. -/
theorem PutsAs.flags_kept {op : View → RegSet → RegSet} {wd : BitVec 2} {src : ArithSrc} {f : Acc → Acc → Acc}
    (h : PutsAs op wd src f fun _ _ => false) : Flags op wd src f (fun _ _ c => c) (fun _ _ x => x) :=
  fun v r => ⟨(h v r).flags, (h v r).carry, (h v r).wrap.trans (Bool.or_false _)⟩

-- values of signed results -----------------------------------------------------------------------------------------------------------

theorem ofInt_toInt_add (a b : Acc) : BitVec.ofInt 56 (a.toInt + b.toInt) = a + b := by
  rw [BitVec.ofInt_add, BitVec.ofInt_toInt, BitVec.ofInt_toInt]

theorem ofInt_toInt_sub (a b : Acc) : BitVec.ofInt 56 (a.toInt - b.toInt) = a - b := by
  rw [Int.sub_eq_add_neg, BitVec.ofInt_add, BitVec.ofInt_neg, BitVec.ofInt_toInt, BitVec.ofInt_toInt, BitVec.sub_eq_add_neg]

theorem ofInt_neg_toInt (a : Acc) : BitVec.ofInt 56 (-a.toInt) = -a := by
  rw [BitVec.ofInt_neg, BitVec.ofInt_toInt]

/-- The negation of an accumulator wraps for the most negative one alone. -/
theorem neg_wraps_iff (a : Acc) : (-a).toInt ≠ -a.toInt ↔ a = BitVec.intMin 56 := by
  constructor
  · intro h
    by_contra hne
    exact h (BitVec.toInt_neg_of_ne_intMin hne)
  · rintro rfl
    decide

theorem natAbs_toInt_wraps_iff (a : Acc) : (if a.msb then -a else a).toInt ≠ (a.toInt.natAbs : Int) ↔ a = BitVec.intMin 56 := by
  cases hm : a.msb
  case false =>
    have hpos : 0 ≤ a.toInt := BitVec.toInt_nonneg_of_msb_false hm
    simp only [Bool.false_eq_true, if_false]
    refine ⟨fun h => absurd (by omega) h, ?_⟩
    rintro rfl
    exact absurd hm (by decide)
  case true =>
    have hneg : a.toInt < 0 := BitVec.toInt_neg_of_msb_true hm
    rw [if_pos rfl, ← neg_wraps_iff, Int.ofNat_natAbs_of_nonpos hneg.le]

theorem ofInt_natAbs_toInt (a : Acc) : BitVec.ofInt 56 (a.toInt.natAbs : Int) = if a.msb then -a else a := by
  cases hm : a.msb
  case false =>
    have hpos : 0 ≤ a.toInt := BitVec.toInt_nonneg_of_msb_false hm
    rw [Int.natAbs_of_nonneg hpos, BitVec.ofInt_toInt]
    rfl
  case true =>
    have hneg : a.toInt < 0 := BitVec.toInt_neg_of_msb_true hm
    rw [Int.ofNat_natAbs_of_nonpos hneg.le, ofInt_neg_toInt, if_pos rfl]

/-- Bits [55:24] of an accumulator, the low ones zeroed. -/
theorem and_high (b : Acc) : b &&& (0xFFFFFFFF000000 : Acc) = (b >>> 24) <<< 24 := by
  have mask : (0xFFFFFFFF000000 : Acc) = BitVec.allOnes 56 <<< 24 := by decide
  rw [mask]
  apply BitVec.eq_of_getLsbD_eq
  intro i hi
  simp only [BitVec.getLsbD_and, BitVec.getLsbD_shiftLeft, BitVec.getLsbD_allOnes, BitVec.getLsbD_ushiftRight]
  by_cases h : i < 24
  · simp [h]
  · simp [h, hi, show i - 24 < 56 by omega, show 24 + (i - 24) = i by omega]

/-- RNDF's value: 2^23 added and bits [23:0] zeroed (R216). -/
theorem ofInt_rounded (a : Acc) : BitVec.ofInt 56 ((a.toInt + 2 ^ 23) / 2 ^ 24 * 2 ^ 24) = (a + 0x800000) &&& 0xFFFFFFFF000000 := by
  have sum : a + 0x800000 = BitVec.ofInt 56 (a.toInt + 2 ^ 23) := by
    rw [BitVec.ofInt_add, BitVec.ofInt_toInt]
    rfl
  rw [and_high, sum]
  apply BitVec.eq_of_toNat_eq
  simp only [BitVec.toNat_shiftLeft, BitVec.toNat_ushiftRight, BitVec.toNat_ofInt, Nat.shiftLeft_eq, Nat.shiftRight_eq_div_pow]
  omega

/-- RNDF wraps where rounding reaches 2^55. -/
theorem rounded_wraps_iff (a : Acc) :
    ((a + 0x800000) &&& 0xFFFFFFFF000000).toInt ≠ (a.toInt + 2 ^ 23) / 2 ^ 24 * 2 ^ 24 ↔ 2 ^ 55 - 2 ^ 23 ≤ a.toInt := by
  have lo := BitVec.le_toInt a
  have hi := @BitVec.toInt_lt 56 a
  rw [← ofInt_rounded, BitVec.toInt_ofInt, Int.bmod_def]
  norm_num at lo hi ⊢
  split <;> omega

/-- SATF's value (R216). -/
theorem saturated_eq (a : Acc) :
    (if usesExt a then (if a.msb then BitVec.ofInt 56 (-(2 ^ 47)) else BitVec.ofInt 56 (2 ^ 47 - 1)) else a) = saturated a := by
  rw [usesExt_eq, saturated]
  by_cases h : (a.setWidth 48).signExtend 56 = a
  · simp only [h, ne_eq, not_true_eq_false, decide_false, if_true, Bool.false_eq_true, if_false]
  · simp only [h, ne_eq, not_false_eq_true, decide_true, if_true, if_false]
    rfl

/-- A bitwise operation on bits [47:24] as the statement writes it (R216). -/
theorem onF_eq (f : Acc → Acc → Acc) (a b : Acc) : onF f a b = (a &&& 0xFF000000FFFFFF) ||| (f a b &&& 0x00FFFFFF000000) := by
  have mask : ~~~fMask = (0xFF000000FFFFFF : Acc) := by decide
  rw [onF, mask]
  rfl

-- the operations (R216) ------------------------------------------------------------------------------------------------------------------

section Operations
variable (wd : BitVec 2) (src : ArithSrc)

/-- A signed result `x` of Wd and the source whose bits are `f`. -/
theorem putsAs_of_putResult {op : View → RegSet → RegSet} {f : Acc → Acc → Acc} {w : Acc → Acc → Bool} (x : Acc → Acc → Int)
    (hop : ∀ v r, op v r = putResult wd (x (r.wr wd.toNat) (arithOperand r wd src)) r)
    (hf : ∀ a b, BitVec.ofInt 56 (x a b) = f a b)
    (hw : ∀ a b, decide ((f a b).toInt ≠ x a b) = w a b) : PutsAs op wd src f w := fun v r => by
  rw [hop, ← hw, ← hf]
  exact putResult_puts wd _ r

/-- Bits that cannot wrap, of Wd and the source. -/
theorem putsAs_of_putBits {op : View → RegSet → RegSet} {f : Acc → Acc → Acc}
    (hop : ∀ v r, op v r = putBits wd (f (r.wr wd.toNat) (arithOperand r wd src)) r) : PutsAs op wd src f fun _ _ => false := fun v r => by
  rw [hop]
  exact putBits_puts wd _ r

/-- CY beside a result. -/
theorem PutsAs.setCY (op : View → RegSet → RegSet) {f : Acc → Acc → Acc} {w : Acc → Acc → Bool} (h : PutsAs op wd src f w)
    (c : Acc → Acc → Bool) {op' : View → RegSet → RegSet}
    (hop : ∀ v r, op' v r = (op v r).setCY (c (r.wr wd.toNat) (arithOperand r wd src))) :
    Writes op' wd src f ∧ Flags op' wd src f (fun a b _ => c a b) (fun a b x => x || w a b) := by
  refine ⟨fun v r d => ?_, fun v r => ⟨(h v r).flags.congr fun i hi => ?_, ?_, ?_⟩⟩
  · rw [hop]
    exact (h v r).accs d
  · rw [hop, RegSet.flag_setCY, if_neg]
    rintro rfl
    exact absurd hi (by decide)
  · rw [hop, RegSet.flag_setCY, if_pos rfl]
  · rw [hop, RegSet.flag_setCY, if_neg (by decide), (h v r).wrap]

theorem opAdd_acts : Writes (opAdd wd src) wd src (fun a b => a + b) ∧
    Flags (opAdd wd src) wd src (fun a b => a + b) (fun a b _ => decide (2 ^ 56 ≤ a.toNat + b.toNat))
      (fun a b x => x || decide ((a + b).toInt ≠ a.toInt + b.toInt)) :=
  PutsAs.setCY wd src (fun _ r => putResult wd ((r.wr wd.toNat).toInt + (arithOperand r wd src).toInt) r)
    (putsAs_of_putResult wd src (fun a b => a.toInt + b.toInt) (fun _ _ => rfl) ofInt_toInt_add fun _ _ => rfl) _
    fun _ r => by
      rw [← arithSource_eq]
      rfl

theorem opSub_acts : Writes (opSub wd src) wd src (fun a b => a - b) ∧
    Flags (opSub wd src) wd src (fun a b => a - b) (fun a b _ => decide (a.toNat < b.toNat))
      (fun a b x => x || decide ((a - b).toInt ≠ a.toInt - b.toInt)) :=
  PutsAs.setCY wd src (fun _ r => putResult wd ((r.wr wd.toNat).toInt - (arithOperand r wd src).toInt) r)
    (putsAs_of_putResult wd src (fun a b => a.toInt - b.toInt) (fun _ _ => rfl) ofInt_toInt_sub fun _ _ => rfl) _
    fun _ r => by
      rw [← arithSource_eq]
      rfl

theorem opCmp_flags : Flags (opCmp wd src) wd src (fun a b => a - b) (fun _ _ c => c) (fun _ _ x => x) := fun v r => by
  rw [← arithSource_eq]
  exact ⟨flagsOf_setNZX r _, RegSet.flag_setNZX r _ csrCY, RegSet.flag_setNZX r _ csrWRAP⟩

theorem opNeg_puts : PutsAs (opNeg wd src) wd src (fun a _ => -a) (fun a _ => decide (a = BitVec.intMin 56)) :=
  putsAs_of_putResult wd src (fun a _ => -a.toInt) (fun _ _ => rfl) (fun a _ => ofInt_neg_toInt a) fun a _ =>
    decide_eq_decide.2 (neg_wraps_iff a)

theorem opAbs_puts :
    PutsAs (opAbs wd src) wd src (fun a _ => if a.msb then -a else a) (fun a _ => decide (a = BitVec.intMin 56)) :=
  putsAs_of_putResult wd src (fun a _ => (a.toInt.natAbs : Int)) (fun _ _ => rfl) (fun a _ => ofInt_natAbs_toInt a) fun a _ =>
    decide_eq_decide.2 (natAbs_toInt_wraps_iff a)

theorem opShl1_puts :
    PutsAs (opShl1 wd src) wd src (fun a _ => a + a) (fun a _ => decide ((a + a).toInt ≠ a.toInt + a.toInt)) :=
  putsAs_of_putResult wd src (fun a _ => 2 * a.toInt) (fun _ _ => rfl) (fun a _ => by rw [Int.two_mul, ofInt_toInt_add]) fun a _ => by
    rw [Int.two_mul]

theorem opRndf_puts : PutsAs (opRndf wd src) wd src (fun a _ => (a + 0x800000) &&& 0xFFFFFFFF000000)
    (fun a _ => decide (2 ^ 55 - 2 ^ 23 ≤ a.toInt)) :=
  putsAs_of_putResult wd src (fun a _ => (a.toInt + 2 ^ 23) / 2 ^ 24 * 2 ^ 24) (fun _ _ => rfl) (fun a _ => ofInt_rounded a) fun a _ =>
    decide_eq_decide.2 (rounded_wraps_iff a)

theorem opClr_puts : PutsAs (opClr wd src) wd src (fun _ _ => 0) fun _ _ => false := putsAs_of_putBits wd src fun _ _ => rfl

theorem opCopy_puts : PutsAs (opCopy wd src) wd src (fun _ b => b) fun _ _ => false :=
  putsAs_of_putBits wd src fun _ _ => by rw [opCopy, arithSource_eq]

theorem opAnd_puts :
    PutsAs (opAnd wd src) wd src (fun a b => (a &&& 0xFF000000FFFFFF) ||| (a &&& b &&& 0x00FFFFFF000000)) fun _ _ => false :=
  putsAs_of_putBits wd src fun _ _ => by rw [opAnd, arithSource_eq, onF_eq]

theorem opOr_puts :
    PutsAs (opOr wd src) wd src (fun a b => (a &&& 0xFF000000FFFFFF) ||| ((a ||| b) &&& 0x00FFFFFF000000)) fun _ _ => false :=
  putsAs_of_putBits wd src fun _ _ => by rw [opOr, arithSource_eq, onF_eq]

theorem opXor_puts :
    PutsAs (opXor wd src) wd src (fun a b => (a &&& 0xFF000000FFFFFF) ||| ((a ^^^ b) &&& 0x00FFFFFF000000)) fun _ _ => false :=
  putsAs_of_putBits wd src fun _ _ => by rw [opXor, arithSource_eq, onF_eq]

theorem opShr1_puts : PutsAs (opShr1 wd src) wd src (fun a _ => a.sshiftRight 1) fun _ _ => false :=
  putsAs_of_putBits wd src fun _ _ => rfl

theorem opSatf_puts : PutsAs (opSatf wd src) wd src (fun a _ => saturated a) fun _ _ => false := fun v r => by
  rw [opSatf]
  dsimp only
  rw [saturated_eq]
  exact (putBits_puts wd _ r).sticky_satd _

end Operations

/-- HOLD leaves the accumulators. -/
theorem hold_leavesAccs {k : Nat} {pt : Ports} {s : State} (hs : Issues s k) (hp : portsOk pt = true) :
    LeavesAccs (.hold k pt) k s (s.regs k).wr :=
  leavesAccs_of_portOp (fun _ r => r) hs hp rfl fun _ hq d _ => congrFun hq.wr_eq d

/-- CMP leaves the accumulators. -/
theorem cmp_leavesAccs {k : Nat} {wd : BitVec 2} {src : ArithSrc} {pt : Ports} {s : State} (hs : Issues s k) (hp : portsOk pt = true) :
    LeavesAccs (.cmp k wd src pt) k s (s.regs k).wr :=
  leavesAccs_of_portOp (opCmp wd src) hs hp rfl fun _ hq d _ => congrFun hq.wr_eq d

/-- HOLD leaves every flag but SATD and XERR. -/
theorem hold_flags {k : Nat} {pt : Ports} {s : State} (hs : Issues s k) (hp : portsOk pt = true) :
    ∃ t, exec (.hold k pt) s = .next t ∧ ∀ n, n ∈ [csrCY, csrZR, csrNEG, csrXU, csrWRAP] → (t.regs k).flag n = (s.regs k).flag n := by
  obtain ⟨t, q, ht, hq, hflag⟩ := flags_of_portOp (.hold k pt) (fun _ r => r) hs hp rfl
  refine ⟨t, ht, fun n hn => ?_⟩
  have h1 : n ≠ csrSATD := by rintro rfl; exact absurd hn (by decide)
  have h2 : n ≠ csrXERR := by rintro rfl; exact absurd hn (by decide)
  exact (hflag n h1 h2).trans (hq.flag_eq n h1 h2)

/-- Settles O21: each operation by the result it puts, within its ports. -/
theorem arithmeticOfTheCores : Obligations.ArithmeticOfTheCores := by
  refine ⟨fun k wd src pt s hs hp => ?accs, fun k wd src pt s hs hp => ?flags⟩
  case accs =>
    exact ⟨hold_leavesAccs hs hp, (opAdd_acts wd src).1.leavesAccs hs hp rfl, (opSub_acts wd src).1.leavesAccs hs hp rfl,
      cmp_leavesAccs hs hp, (opNeg_puts wd src).writes.leavesAccs hs hp rfl, (opAbs_puts wd src).writes.leavesAccs hs hp rfl,
      (opClr_puts wd src).writes.leavesAccs hs hp rfl, (opCopy_puts wd src).writes.leavesAccs hs hp rfl,
      (opAnd_puts wd src).writes.leavesAccs hs hp rfl, (opOr_puts wd src).writes.leavesAccs hs hp rfl,
      (opXor_puts wd src).writes.leavesAccs hs hp rfl, (opShl1_puts wd src).writes.leavesAccs hs hp rfl,
      (opShr1_puts wd src).writes.leavesAccs hs hp rfl, (opRndf_puts wd src).writes.leavesAccs hs hp rfl,
      (opSatf_puts wd src).writes.leavesAccs hs hp rfl⟩
  case flags =>
    exact ⟨hold_flags hs hp, (opAdd_acts wd src).2.setsFlags hs hp rfl, (opSub_acts wd src).2.setsFlags hs hp rfl,
      (opCmp_flags wd src).setsFlags hs hp rfl, (opNeg_puts wd src).flags.setsFlags hs hp rfl,
      (opAbs_puts wd src).flags.setsFlags hs hp rfl, (opClr_puts wd src).flags_kept.setsFlags hs hp rfl,
      (opCopy_puts wd src).flags_kept.setsFlags hs hp rfl, (opAnd_puts wd src).flags_kept.setsFlags hs hp rfl,
      (opOr_puts wd src).flags_kept.setsFlags hs hp rfl, (opXor_puts wd src).flags_kept.setsFlags hs hp rfl,
      (opShl1_puts wd src).flags.setsFlags hs hp rfl, (opShr1_puts wd src).flags_kept.setsFlags hs hp rfl,
      (opRndf_puts wd src).flags.setsFlags hs hp rfl, (opSatf_puts wd src).flags_kept.setsFlags hs hp rfl⟩

end Sys2Proof.Machine
end


section
/-! PROOFS. Multiplies and extended precision of the voice cores (R215, R216, R222): a result is the accumulator and a product as bits. -/

namespace Sys2Proof.Machine

-- products as bits (R215) ----------------------------------------------------------------------------------------------------------

theorem ofInt_toInt_signExtend (u : Word24) : BitVec.ofInt 56 u.toInt = u.signExtend 56 := rfl

/-- A shift left multiplies by a power of two. -/
theorem ofInt_mul_two_pow (x : Int) (n : Nat) : BitVec.ofInt 56 (x * 2 ^ n) = BitVec.ofInt 56 x <<< n := by
  rw [BitVec.shiftLeft_eq_mul_twoPow, BitVec.ofInt_mul]
  congr 1
  apply BitVec.eq_of_toInt_eq
  rw [BitVec.toInt_ofInt, BitVec.toInt_eq_toNat_bmod, BitVec.toNat_twoPow]
  push_cast
  exact (Int.emod_bmod _ _).symm

/-- A product of a view's PSH, as bits. -/
theorem ofInt_product (v : View) (a b : Word24) : BitVec.ofInt 56 (product v a b) = shiftedProduct (pshOf v.csr) a b := by
  rw [product, ofInt_mul_two_pow, BitVec.ofInt_mul]
  rfl

/-- An accumulator after a multiply, as bits. -/
theorem ofInt_accumulate (sign z : Bool) (a : Acc) (p : Int) :
    BitVec.ofInt 56 (accumulate sign z a p) = macced z sign a (BitVec.ofInt 56 p) := by
  cases sign <;> cases z <;>
    simp only [accumulate, macced, if_true, if_false, Bool.false_eq_true, BitVec.ofInt_add, BitVec.ofInt_neg, BitVec.ofInt_toInt] <;> rfl

-- one accumulator, and four ---------------------------------------------------------------------------------------------------------

/-- A signed result leaves Wd as its bits. -/
theorem putResult_wr (wd : BitVec 2) (x : Int) (r : RegSet) (d : Nat) : (putResult wd x r).wr d = oneAcc r wd (BitVec.ofInt 56 x) d :=
  (putResult_puts wd x r).accs d

/-- MAC and MUL leave Wd (R215). -/
theorem opMul_wr (z : Bool) (wd : BitVec 2) (sign : Bool) (ui : BitVec 1) (vj : BitVec 2) (v : View) (r : RegSet) (d : Nat) :
    (opMul z wd sign ui vj v r).wr d =
      oneAcc r wd (macced z sign (r.wr wd.toNat) (shiftedProduct (pshOf v.csr) (r.ur ui.toNat) (r.vr vj.toNat))) d := by
  rw [opMul, putResult_wr, ofInt_accumulate, ofInt_product]

/-- Four results, W0 to W3 in their places or moved down by one (R215). -/
theorem putQuad_wr (x : Nat → Int) (down : Bool) (r : RegSet) (d : Nat) (hd : d < 4) :
    (putQuad (x 0) (x 1) (x 2) (x 3) down r).wr d =
      if down then (if d = 3 then 0 else BitVec.ofInt 56 (x (d + 1))) else BitVec.ofInt 56 (x d) := by
  unfold putQuad
  dsimp only
  rw [RegSet.wr_sticky]
  change (if down then _ else _ : RegSet).wr d = _
  cases down
  case false =>
    simp only [Bool.false_eq_true, if_false, wr_setW]
    interval_cases d <;> rfl
  case true =>
    simp only [if_true, wr_setW]
    interval_cases d <;> rfl

/-- QMAC and QMACX leave W0 to W3 (R215). -/
theorem opQmac_wr (down sign z : Bool) (ui : BitVec 2) (quad : BitVec 1) (v : View) (r : RegSet) (d : Nat) (hd : d < 4) :
    (opQmac down sign z ui quad v r).wr d =
      if down then
        (if d = 3 then 0
          else macced z sign (r.wr (d + 1)) (shiftedProduct (pshOf v.csr) (r.ur ui.toNat) (r.vr (4 * quad.toNat + (d + 1)))))
      else macced z sign (r.wr d) (shiftedProduct (pshOf v.csr) (r.ur ui.toNat) (r.vr (4 * quad.toNat + d))) := by
  unfold opQmac
  dsimp only
  rw [putQuad_wr (fun k => accumulate sign z (r.wr k) (product v (r.ur ui.toNat) (r.vr (4 * quad.toNat + k)))) down r d hd]
  simp only [ofInt_accumulate, ofInt_product]

/-- XMAC leaves W0 to W3 (R215). -/
theorem opXmac_wr (sign z : Bool) (v : View) (r : RegSet) (d : Nat) (hd : d < 4) :
    (opXmac sign z v r).wr d = macced z sign (r.wr d) (shiftedProduct (pshOf v.csr) (r.ur (d / 2)) (r.vr (d % 2))) := by
  rw [← ofInt_product, ← ofInt_accumulate]
  exact putQuad_wr (fun k => accumulate sign z (r.wr k) (product v (r.ur (k / 2)) (r.vr (k % 2)))) false r d hd

-- extended precision (R222) ----------------------------------------------------------------------------------------------------------

theorem RegSet.cy_eq (r : RegSet) : r.cy = (r.flag csrCY).toNat := by
  unfold RegSet.cy RegSet.flag
  cases r.csr.getLsbD csrCY <;> rfl

theorem ofInt_toNat (n : Nat) : BitVec.ofInt 56 (n : Int) = BitVec.ofNat 56 n := BitVec.ofInt_natCast 56 n

/-- ADDC leaves Wd (R222). -/
theorem opAddc_wr (wd : BitVec 2) (v : View) (r : RegSet) (d : Nat) : (opAddc wd v r).wr d =
    oneAcc r wd (r.wr wd.toNat + r.wr (wd ^^^ 1).toNat + BitVec.ofNat 56 (r.flag csrCY).toNat) d := by
  refine (putResult_wr wd _ r d).trans ?_
  rw [BitVec.ofInt_add, ofInt_toInt_add, ofInt_toNat, RegSet.cy_eq]

/-- SUBC leaves Wd (R222). -/
theorem opSubc_wr (wd : BitVec 2) (v : View) (r : RegSet) (d : Nat) : (opSubc wd v r).wr d =
    oneAcc r wd (r.wr wd.toNat - r.wr (wd ^^^ 1).toNat - BitVec.ofNat 56 (r.flag csrCY).toNat) d := by
  refine (putResult_wr wd _ r d).trans ?_
  rw [Int.sub_eq_add_neg, BitVec.ofInt_add, BitVec.ofInt_neg, ofInt_toInt_sub, ofInt_toNat, RegSet.cy_eq, ← BitVec.sub_eq_add_neg]

/-- CY after ADDC is the carry (R222). -/
theorem opAddc_carry (wd : BitVec 2) (v : View) (r : RegSet) : (opAddc wd v r).flag csrCY =
    decide (2 ^ 56 ≤ (r.wr wd.toNat).toNat + (r.wr (wd ^^^ 1).toNat).toNat + (r.flag csrCY).toNat) := by
  rw [← RegSet.cy_eq]
  exact RegSet.flag_setCY _ _ csrCY

/-- CY after SUBC is the borrow (R222). -/
theorem opSubc_borrow (wd : BitVec 2) (v : View) (r : RegSet) : (opSubc wd v r).flag csrCY =
    decide ((r.wr wd.toNat).toNat < (r.wr (wd ^^^ 1).toNat).toNat + (r.flag csrCY).toNat) := by
  rw [← RegSet.cy_eq]
  exact RegSet.flag_setCY _ _ csrCY

/-- A flag that an operation with allowed ports gives from what the ports leave as it was, whatever state it reaches. -/
theorem flag_of_portOp {i : Instr} {k : Nat} {pt : Ports} {s t : State} (op : View → RegSet → RegSet) {n : Nat} {b : Bool}
    (hs : Issues s k) (hp : portsOk pt = true) (hi : exec i s = portOp k pt op s) (ht : exec i s = .next t) (h1 : n ≠ csrSATD)
    (h2 : n ≠ csrXERR) (hop : ∀ q, SameOps (s.regs k) q → (op (s.view k) q).flag n = b) : (t.regs k).flag n = b := by
  obtain ⟨t', q, ht', hq, hflag⟩ := flags_of_portOp i op hs hp hi
  have same : t = t' := Host.Outcome.next.inj (ht.symm.trans ht')
  rw [same, hflag n h1 h2, hop q hq]

/-- Settles O22: each multiply by what it leaves on registers that read the same. -/
theorem multipliesOfTheCores : Obligations.MultipliesOfTheCores := by
  refine ⟨fun k wd sign z u1 vj ui quad pt s hs hp => ?products, fun k wd ui pt s hs hp => ?extended⟩
  case products =>
    refine ⟨?mac, ?mul, ?qmac, ?qmacx, ?xmac⟩
    case mac =>
      refine leavesAccs_of_portOp (opMul false wd sign u1 vj) hs hp rfl fun q hq d _ => ?_
      rw [opMul_wr, oneAcc, hq.wr_eq, hq.ur_eq, hq.vr_eq]
      rfl
    case mul =>
      refine leavesAccs_of_portOp (opMul true wd sign u1 vj) hs hp rfl fun q hq d _ => ?_
      rw [opMul_wr, oneAcc, hq.wr_eq, hq.ur_eq, hq.vr_eq]
      rfl
    case qmac =>
      refine leavesAccs_of_portOp (opQmac false sign z ui quad) hs hp rfl fun q hq d hd => ?_
      rw [opQmac_wr _ _ _ _ _ _ _ _ hd, hq.wr_eq, hq.ur_eq, hq.vr_eq]
      rfl
    case qmacx =>
      refine leavesAccs_of_portOp (opQmac true sign z ui quad) hs hp rfl fun q hq d hd => ?_
      rw [opQmac_wr _ _ _ _ _ _ _ _ hd, if_pos rfl, hq.wr_eq, hq.ur_eq, hq.vr_eq]
      rfl
    case xmac =>
      refine leavesAccs_of_portOp (opXmac sign z) hs hp rfl fun q hq d hd => ?_
      rw [opXmac_wr _ _ _ _ _ hd, hq.wr_eq, hq.ur_eq, hq.vr_eq]
      rfl
  case extended =>
    have cy : ∀ q, SameOps (s.regs k) q → q.flag csrCY = (s.regs k).flag csrCY := fun q hq => hq.flag_eq _ (by decide) (by decide)
    refine ⟨?addc, fun t ht => ?carry, ?subc, fun t ht => ?borrow, ?mulsu, ?muluu⟩
    case addc =>
      refine leavesAccs_of_portOp (opAddc wd) hs hp rfl fun q hq d _ => ?_
      rw [opAddc_wr, oneAcc, cy q hq, hq.wr_eq]
      rfl
    case carry =>
      refine flag_of_portOp (opAddc wd) hs hp rfl ht (by decide) (by decide) fun q hq => ?_
      rw [opAddc_carry, cy q hq, hq.wr_eq]
    case subc =>
      refine leavesAccs_of_portOp (opSubc wd) hs hp rfl fun q hq d _ => ?_
      rw [opSubc_wr, oneAcc, cy q hq, hq.wr_eq]
      rfl
    case borrow =>
      refine flag_of_portOp (opSubc wd) hs hp rfl ht (by decide) (by decide) fun q hq => ?_
      rw [opSubc_borrow, cy q hq, hq.wr_eq]
    case mulsu =>
      refine leavesAccs_of_portOp _ hs hp rfl fun q hq d _ => ?_
      rw [putResult_wr, oneAcc, hq.wr_eq, hq.ur_eq, hq.vr_eq, BitVec.ofInt_add, BitVec.ofInt_mul, BitVec.ofInt_toInt, ofInt_toNat,
        BitVec.ofNat_toNat]
      rfl
    case muluu =>
      refine leavesAccs_of_portOp _ hs hp rfl fun q hq d _ => ?_
      rw [putResult_wr, oneAcc, hq.wr_eq, hq.ur_eq, hq.vr_eq, BitVec.ofInt_add, BitVec.ofInt_mul, BitVec.ofInt_toInt, ofInt_toNat,
        ofInt_toNat, BitVec.ofNat_toNat, BitVec.ofNat_toNat]
      rfl

end Sys2Proof.Machine
end


section
/-! PROOFS. Address and shift instructions of the voice cores (R213, R216, R218): what an operation on the registers alone leaves of them. -/

namespace Sys2Proof.Machine

-- an operation on the registers --------------------------------------------------------------------------------------------------

theorem SameRegs.wr_eq {r q : RegSet} (h : SameRegs r q) (d : Nat) : q.wr d = r.wr d := congrArg (Tab.look · d 0) h.w

theorem SameRegs.flag_eq {r q : RegSet} (h : SameRegs r q) (n : Nat) : q.flag n = r.flag n := congrArg (BitVec.getLsbD · n) h.csr

/-- The state in which a core starts an instruction: its registers without the marks of RPT and of the hazards. -/
def State.started (s : State) (k : Nat) : VCore := (s.core k).setCur (s.regs k).cleared

theorem State.started_cur (s : State) (k : Nat) : (s.started k).cur = (s.regs k).cleared := VCore.cur_setCur _ _

/-- An instruction leaves the registers that software reads as its body leaves them, and the memories too; the fetches, loops and PC apart. -/
theorem exec_issue (i : Instr) {k len : Nat} {rep ptrWr : Bool} {body : View → VCore → VCore} {s : State} (h : Issues s k)
    (hi : exec i s = onCore k (fun spf => issue spf len rep ptrWr body) s) :
    ∃ t, exec i s = .next t ∧ OnlyCore k s t ∧ SameRegs (body (s.view k) (s.started k)).cur (t.regs k) ∧
      (t.core k).x = (body (s.view k) (s.started k)).x ∧ (t.core k).y = (body (s.view k) (s.started k)).y ∧
      (t.core k).fetches = (body (s.view k) (s.started k)).fetches := by
  obtain ⟨t, ht, honly, hcore⟩ := issue_result k len rep ptrWr body s h
  refine ⟨t, hi.trans ht, honly, ?regs, ?x, ?y, ?fetches⟩
  case regs =>
    rw [State.regs, hcore]
    simp only [VCore.cur_onCur]
    obtain ⟨hw, hu, hv, hcsr, hix, hecnt, hp, hn, hst, hen⟩ := advance_keeps len
      { (body (s.view k) (s.started k)).cur with
        agOld := if ptrWr ∧ (body (s.view k) (s.started k)).cur.ptrs ≠ (s.regs k).ptrs then some (s.regs k).ptrs else none,
        csrOld := if ((body (s.view k) (s.started k)).cur.csr ^^^ (s.regs k).csr) &&& csrLate = 0 then none else some (s.regs k).csr }
    exact ⟨hu, hv, hw, hp, hn, hst, hen, hix, hecnt, hcsr⟩
  case x => rw [hcore, (VCore.onCur_keeps _ _).1, (VCore.onCur_keeps _ _).1]; rfl
  case y => rw [hcore, (VCore.onCur_keeps _ _).2.1, (VCore.onCur_keeps _ _).2.1]; rfl
  case fetches => rw [hcore, (VCore.onCur_keeps _ _).2.2.2.1, (VCore.onCur_keeps _ _).2.2.2.1]; rfl

/-- An instruction whose body acts on the registers of its core as `g` leaves the registers that software reads as `g` does. -/
theorem coreDoes_regOp {i : Instr} {k len : Nat} {rep ptrWr : Bool} {body : View → VCore → VCore} {s : State} (g : RegSet → RegSet) (h : Issues s k)
    (hi : exec i s = onCore k (fun spf => issue spf len rep ptrWr body) s) (hb : body (s.view k) (s.started k) = (s.started k).onCur g) :
    CoreDoes i k s (SameRegs (g (s.regs k).cleared)) := by
  obtain ⟨t, ht, honly, hregs, -⟩ := exec_issue i h hi
  rw [hb, VCore.cur_onCur, State.started_cur] at hregs
  exact ⟨t, ht, honly, hregs⟩

theorem CoreDoes.imp {i : Instr} {k : Nat} {s : State} {P Q : RegSet → Prop} (h : CoreDoes i k s P) (hpq : ∀ q, P q → Q q) :
    CoreDoes i k s Q := by
  obtain ⟨t, ht, honly, hP⟩ := h
  exact ⟨t, ht, honly, hpq _ hP⟩

/-- The marks that the cleared registers lack are none that software reads. -/
theorem SameRegs.of_cleared {r q : RegSet} (h : SameRegs r.cleared q) : SameRegs r q :=
  ⟨h.u, h.v, h.w, h.p, h.n, h.st, h.en, h.ix, h.ecnt, h.csr⟩

-- shifts (R213, R216) ------------------------------------------------------------------------------------------------------------

/-- An amount that is allowed shifts; another sets XERR. -/
theorem withShift_eq (sh : BitVec 6) (f : Nat → RegSet → RegSet) (v : View) (c : VCore) :
    withShift sh f v c = c.onCur (if 1 ≤ sh.toNat ∧ sh.toNat ≤ 56 then f sh.toNat else RegSet.xerr) := by
  unfold withShift
  split <;> rfl

section Shift
variable {i : Instr} {k : Nat} {sh : BitVec 6} {s : State} (f : Nat → RegSet → RegSet)

theorem shift_allowed (h : Issues s k) (hi : exec i s = onCore k (fun spf => issue spf 1 true false (withShift sh f)) s)
    (hsh : 1 ≤ sh.toNat ∧ sh.toNat ≤ 56) : CoreDoes i k s (SameRegs (f sh.toNat (s.regs k).cleared)) :=
  coreDoes_regOp (f sh.toNat) h hi (by rw [withShift_eq, if_pos hsh])

theorem shift_refused (h : Issues s k) (hi : exec i s = onCore k (fun spf => issue spf 1 true false (withShift sh f)) s)
    (hsh : ¬(1 ≤ sh.toNat ∧ sh.toNat ≤ 56)) : CoreDoes i k s (SameRegs (s.regs k).xerr) :=
  (coreDoes_regOp RegSet.xerr h hi (by rw [withShift_eq, if_neg hsh])).imp fun _ hq => SameRegs.of_cleared hq

end Shift

/-- SLA's WRAP (R210, R216). -/
theorem opSla_wrap (wd : BitVec 2) (n : Nat) (r : RegSet) : (opSla wd n r).flag csrWRAP =
    (r.flag csrWRAP || decide ((r.wr wd.toNat <<< n).toInt ≠ (r.wr wd.toNat).toInt * 2 ^ n)) := by
  have keep : ((r.setW wd.toNat (narrow ((r.wr wd.toNat).toInt * 2 ^ n)).1).setCY ((r.wr wd.toNat).getLsbD (56 - n))).flag csrWRAP =
      r.flag csrWRAP := RegSet.flag_setCY _ _ _
  have bits : BitVec.ofInt 56 ((r.wr wd.toNat).toInt * 2 ^ n) = r.wr wd.toNat <<< n := by rw [ofInt_mul_two_pow, BitVec.ofInt_toInt]
  rw [opSla, RegSet.flag_sticky _ _ _ _ (by decide), if_pos rfl, keep, narrow, bits, bne, beq_eq_decide, decide_not]

theorem opSla_wr (wd : BitVec 2) (n : Nat) (r : RegSet) (d : Nat) : (opSla wd n r).wr d = oneAcc r wd (r.wr wd.toNat <<< n) d := by
  rw [opSla, RegSet.wr_sticky]
  refine (setW_wr r wd _ d).trans ?_
  rw [narrow, ofInt_mul_two_pow, BitVec.ofInt_toInt]

theorem opSla_carry (wd : BitVec 2) (n : Nat) (r : RegSet) : (opSla wd n r).flag csrCY = (r.wr wd.toNat).getLsbD (56 - n) := by
  rw [opSla, RegSet.flag_sticky _ _ _ _ (by decide), if_neg (by decide), RegSet.flag_setCY, if_pos rfl]

-- the count of sign bits (R216) ------------------------------------------------------------------------------------------------------

/-- The run of copies of the sign below bit `n`: its bits are the sign's, and the next one is not. -/
theorem signRun_spec (a : Acc) (n : Nat) : signRun a n ≤ n ∧ (∀ i, i < signRun a n → a.getLsbD (n - 1 - i) = a.msb) ∧
    (signRun a n < n → a.getLsbD (n - 1 - signRun a n) ≠ a.msb) := by
  induction n with
  | zero => simp [signRun]
  | succ n ih =>
    obtain ⟨hle, hrun, hend⟩ := ih
    rw [signRun]
    split
    next h =>
      refine ⟨by omega, fun i hi => ?_, fun hlt => ?_⟩
      · cases i with
        | zero => exact h
        | succ i =>
          have := hrun i (by omega)
          rwa [show n + 1 - 1 - (i + 1) = n - 1 - i by omega]
      · have := hend (by omega)
        rwa [show n + 1 - 1 - (1 + signRun a n) = n - 1 - signRun a n by omega]
    next h => exact ⟨by omega, fun i hi => absurd hi (by omega), fun _ => h⟩

/-- Settles O24: each shift on the cleared registers, and the run of sign bits. -/
theorem shiftsAndSignCount : Obligations.ShiftsAndSignCount := by
  intro k wd sh s h
  refine ⟨fun hsh => ⟨?sra, ?srl, ?sla⟩, fun hsh i hi => ?refused, ?cls⟩
  case sra =>
    refine (shift_allowed (opSra wd) h rfl hsh).imp fun q hq => ⟨fun d _ => ?_, ?_⟩
    · exact (hq.wr_eq d).trans (setW_wr _ wd _ d)
    · exact (hq.flag_eq csrCY).trans (RegSet.flag_setCY _ _ csrCY)
  case srl =>
    refine (shift_allowed (opSrl wd) h rfl hsh).imp fun q hq => ⟨fun d _ => ?_, ?_⟩
    · exact (hq.wr_eq d).trans (setW_wr _ wd _ d)
    · exact (hq.flag_eq csrCY).trans (RegSet.flag_setCY _ _ csrCY)
  case sla =>
    refine (shift_allowed (opSla wd) h rfl hsh).imp fun q hq => ⟨fun d _ => ?_, ?_, ?_⟩
    · exact (hq.wr_eq d).trans (opSla_wr wd _ _ d)
    · exact (hq.flag_eq csrCY).trans (opSla_carry wd _ _)
    · exact (hq.flag_eq csrWRAP).trans (opSla_wrap wd _ _)
  case refused =>
    simp only [List.mem_cons, List.not_mem_nil, or_false] at hi
    rcases hi with rfl | rfl | rfl
    · exact shift_refused (opSra wd) h rfl hsh
    · exact shift_refused (opSla wd) h rfl hsh
    · exact shift_refused (opSrl wd) h rfl hsh
  case cls =>
    refine (coreDoes_regOp _ h rfl rfl).imp fun q hq => ⟨hq.w, redundantSign ((s.regs k).wr wd.toNat), ?_, ?_⟩
    · rw [hq.ix]
      exact Tab.look_put_same _ _ _ _
    · exact signRun_spec _ 55

-- the rest of the class (R213, R216, R218) ---------------------------------------------------------------------------------------------

/-- A ring above its start holds the wrapped address, which differs from the address by a multiple of the length (R218). -/
theorem ringWrap_ring (st en : BitVec 16) (a : Int) (h : st.toNat < en.toNat) :
    st.toNat ≤ (ringWrap st en a).toNat ∧ (ringWrap st en a).toNat < en.toNat ∧
      ((en.toNat : Int) - st.toNat) ∣ (((ringWrap st en a).toNat : Int) - a) := by
  have hen : en.toNat < 2 ^ 16 := en.isLt
  have lo := Int.emod_nonneg (a - st.toNat) (show ((en.toNat : Int) - st.toNat) ≠ 0 by omega)
  have hi := Int.emod_lt_of_pos (a - st.toNat) (show 0 < ((en.toNat : Int) - st.toNat) by omega)
  have value : ((ringWrap st en a).toNat : Int) = st.toNat + (a - st.toNat) % ((en.toNat : Int) - st.toNat) := by
    unfold ringWrap
    dsimp only
    rw [if_neg (by omega), BitVec.toNat_ofInt]
    omega
  refine ⟨by omega, by omega, ?_⟩
  rw [value, show (st.toNat : Int) + (a - st.toNat) % ((en.toNat : Int) - st.toNat) - a =
    -((a - st.toNat) - (a - st.toNat) % ((en.toNat : Int) - st.toNat)) by ring]
  exact (Int.dvd_self_sub_emod).neg_right

/-- Without a ring the address is taken modulo 2^16 (R218). -/
theorem ringWrap_flat (st en : BitVec 16) (a : Int) (h : en.toNat ≤ st.toNat) : ((ringWrap st en a).toNat : Int) = a % 2 ^ 16 := by
  unfold ringWrap
  dsimp only
  rw [if_pos (by omega), BitVec.toNat_ofInt]
  omega

/-- Settles O25: each on the cleared registers, and the two cases of a ring. -/
theorem addressClassAndRings : Obligations.AddressClassAndRings := by
  refine ⟨fun k wd ui ptr imm s h => ⟨?dstep, ?clrcnt, ?padd, ?reserved⟩, fun st en a => ⟨ringWrap_ring st en a, ringWrap_flat st en a⟩⟩
  case dstep =>
    exact (coreDoes_regOp _ h rfl rfl).imp fun q hq =>
      ⟨divided ((s.regs k).wr wd.toNat) ((s.regs k).ur ui.toNat), SameRegs.of_cleared hq⟩
  case clrcnt =>
    exact (coreDoes_regOp _ h rfl rfl).imp fun _ hq => SameRegs.of_cleared hq
  case padd =>
    exact (coreDoes_regOp _ h rfl rfl).imp fun _ hq => SameRegs.of_cleared hq
  case reserved =>
    exact (coreDoes_regOp _ h rfl rfl).imp fun _ hq => SameRegs.of_cleared hq

end Sys2Proof.Machine
end


section
/-! PROOFS. Transfers, register codes and ports of the voice cores (R209 to R214, R216, R218, R219). -/

namespace Sys2Proof.Machine

-- the core an instruction starts on ------------------------------------------------------------------------------------------------

section Started
variable (s : State) (k : Nat)

theorem State.started_inShadow : (s.started k).inShadow = (s.core k).inShadow := VCore.inShadow_setCur _ _

theorem State.started_x : (s.started k).x = (s.core k).x := (VCore.onCur_keeps _ fun _ => (s.regs k).cleared).1

theorem State.started_y : (s.started k).y = (s.core k).y := (VCore.onCur_keeps _ fun _ => (s.regs k).cleared).2.1

end Started

-- register codes (R209 to R211) ------------------------------------------------------------------------------------------------------

theorem RegSet.sticky_cleared (r : RegSet) (n : Nat) (b : Bool) : r.cleared.sticky n b = (r.sticky n b).cleared := by
  cases b <;> rfl

/-- A register reads the same whether or not marks of hazards stand. -/
theorem readCode_cleared (shd : Bool) (csr : Word24) (c : RegCode) (r : RegSet) :
    readCode shd csr c r.cleared = Prod.map id RegSet.cleared (readCode shd csr c r) := by
  simp only [readCode, apply_ite (Prod.map id RegSet.cleared), RegSet.sticky_cleared]
  rfl

/-- A register is written the same whether or not marks of hazards stand. -/
theorem writeCode_cleared (c : RegCode) (x : Word24) (r : RegSet) : writeCode c x r.cleared = (writeCode c x r).cleared := by
  simp only [writeCode, apply_ite RegSet.cleared]
  rfl

/-- A code that the table Registers assigns is written; another sets XERR (R209, R213). -/
theorem opMove_ok (dst src : RegCode) (v : View) (c : VCore) (hd : codeOk dst = true) (hs : codeOk src = true) :
    opMove dst src v c = c.onCur fun r => writeCode dst (readCode c.inShadow v.csr src r).1 (readCode c.inShadow v.csr src r).2 := by
  rw [opMove, hd, hs]
  rfl

-- local memory (R206, R218, R219) ----------------------------------------------------------------------------------------------------

theorem VCore.onCur_onCur (c : VCore) (f g : RegSet → RegSet) : (c.onCur f).onCur g = c.onCur fun r => g (f r) := by
  simp only [VCore.onCur, VCore.cur_setCur, VCore.setCur_setCur]

/-- A load of local memory, where the instruction before stored nothing. -/
theorem localLoad_local (v : View) (y : Bool) (a : Nat) (c : VCore) (hv : v.st = []) (ha : a < 0x4000) :
    localLoad v y a c = (Mem.read (if y then c.y else c.x) a, c) := by
  rw [localLoad, if_pos ha, hv]
  rfl

/-- An unassigned address loads 0 and sets XERR (R219). -/
theorem localLoad_beyond (v : View) (y : Bool) (a : Nat) (c : VCore) (ha : 0x4000 ≤ a) : localLoad v y a c = (0, c.onCur RegSet.xerr) := by
  rw [localLoad, if_neg (by omega)]

/-- A store to local memory writes one word. -/
theorem localStore_local (v : View) (y : Bool) (a : Nat) (w : Word24) (c : VCore) (ha : a < 0x4000) :
    (localStore v y a w c).x = (if y then c.x else Mem.write c.x a w) ∧ (localStore v y a w c).y = (if y then Mem.write c.y a w else c.y) := by
  rw [localStore, if_pos ha]
  dsimp only
  rw [(VCore.onCur_keeps _ _).1, (VCore.onCur_keeps _ _).2.1]
  cases y <;> exact ⟨rfl, rfl⟩

/-- A store to local memory marks the word's old value and leaves the registers. -/
theorem localStore_cur (v : View) (y : Bool) (a : Nat) (w : Word24) (c : VCore) (ha : a < 0x4000) :
    ∃ old, (localStore v y a w c).cur = { c.cur with stOld := old } := by
  rw [localStore, if_pos ha]
  dsimp only
  rw [VCore.cur_onCur]
  cases y <;> exact ⟨_, rfl⟩

/-- What local memory reads as after a store. -/
theorem localStore_read (v : View) (y : Bool) (a : Nat) (w : Word24) (c : VCore) (ha : a < 0x4000) (hwf : (Mem.wf c.x && Mem.wf c.y) = true) :
    Mem.read (if y then (localStore v y a w c).y else (localStore v y a w c).x) a = w ∧
    ∀ z b, ¬(z = y ∧ b = a) →
      Mem.read (if z then (localStore v y a w c).y else (localStore v y a w c).x) b = Mem.read (if z then c.y else c.x) b := by
  obtain ⟨hx, hy⟩ := localStore_local v y a w c ha
  obtain ⟨wfx, wfy⟩ := Bool.and_eq_true_iff.1 hwf
  rw [hx, hy]
  cases y
  case false =>
    refine ⟨Mem.read_write_same _ _ _ wfx, fun z b hzb => ?_⟩
    cases z
    case false => exact Mem.read_write_other _ _ _ _ fun hb => hzb ⟨rfl, hb⟩
    case true => rfl
  case true =>
    refine ⟨Mem.read_write_same _ _ _ wfy, fun z b hzb => ?_⟩
    cases z
    case false => rfl
    case true => exact Mem.read_write_other _ _ _ _ fun hb => hzb ⟨rfl, hb⟩

-- MOVE, LDK and MOVM (R216) -----------------------------------------------------------------------------------------------------------

section Movm
variable {k : Nat} {reg : RegCode} {y : Bool} {m : MovMode} {s : State} (h : Issues s k) (hreg : codeOk reg = true)
include h hreg

/-- MOVM loads the word of a local address. -/
theorem movm_load (hst : (s.regs k).stOld = []) (ha : movmAddr (s.view k) m < 0x4000) : CoreDoes (.movm k reg false y m) k s
    (SameRegs (writeCode reg (Mem.read (if y then (s.core k).y else (s.core k).x) (movmAddr (s.view k) m)) (s.regs k))) := by
  refine (coreDoes_regOp (writeCode reg (Mem.read (if y then (s.core k).y else (s.core k).x) (movmAddr (s.view k) m))) h rfl ?_).imp
    fun q hq => SameRegs.of_cleared (writeCode_cleared _ _ _ ▸ hq)
  rw [opMovm, if_pos hreg, if_neg (by decide)]
  dsimp only
  rw [localLoad_local _ _ _ _ hst ha, State.started_x, State.started_y]

/-- MOVM of an unassigned address loads 0 and sets XERR. -/
theorem movm_load_beyond (ha : 0x4000 ≤ movmAddr (s.view k) m) :
    CoreDoes (.movm k reg false y m) k s (SameRegs (writeCode reg 0 (s.regs k).xerr)) := by
  refine (coreDoes_regOp (fun r => writeCode reg 0 r.xerr) h rfl ?_).imp fun q hq => SameRegs.of_cleared ?_
  · rw [opMovm, if_pos hreg, if_neg (by decide)]
    dsimp only
    rw [localLoad_beyond _ _ _ _ ha, VCore.onCur_onCur]
  · rw [← writeCode_cleared]
    exact hq

/-- MOVM stores the register's word at a local address. -/
theorem movm_store (ha : movmAddr (s.view k) m < 0x4000) (hwf : (Mem.wf (s.core k).x && Mem.wf (s.core k).y) = true) :
    ∃ t, exec (.movm k reg true y m) s = .next t ∧ OnlyCore k s t ∧
      Mem.read (if y then (t.core k).y else (t.core k).x) (movmAddr (s.view k) m) =
        (readCode (s.core k).inShadow (s.csrSeen k) reg (s.regs k)).1 ∧
      ∀ z b, ¬(z = y ∧ b = movmAddr (s.view k) m) →
        Mem.read (if z then (t.core k).y else (t.core k).x) b = Mem.read (if z then (s.core k).y else (s.core k).x) b := by
  obtain ⟨t, ht, honly, -, hx, hy, -⟩ := exec_issue (.movm k reg true y m) h rfl
  refine ⟨t, ht, honly, ?_⟩
  rw [opMovm, if_pos hreg, if_pos rfl] at hx hy
  dsimp only at hx hy
  have hread : readCode (s.started k).inShadow (s.view k).csr reg (s.started k).cur =
      Prod.map id RegSet.cleared (readCode (s.core k).inShadow (s.csrSeen k) reg (s.regs k)) := by
    rw [State.started_cur, readCode_cleared, State.started_inShadow]
    rfl
  have xs : ∀ q, ((s.started k).setCur q).x = (s.core k).x := fun q => (VCore.onCur_keeps _ fun _ => q).1.trans (State.started_x s k)
  have ys : ∀ q, ((s.started k).setCur q).y = (s.core k).y := fun q => (VCore.onCur_keeps _ fun _ => q).2.1.trans (State.started_y s k)
  rw [hread] at hx hy
  rw [hx, hy]
  have stored := localStore_read (s.view k) y (movmAddr (s.view k) m) (readCode (s.core k).inShadow (s.csrSeen k) reg (s.regs k)).1
    ((s.started k).setCur (readCode (s.core k).inShadow (s.csrSeen k) reg (s.regs k)).2.cleared) ha (by rwa [xs, ys])
  rwa [xs, ys] at stored

end Movm

/-- Settles O26: transfers act on the registers alone, and MOVM on one word of local memory. -/
theorem transfersAndLocalMemory : Obligations.TransfersAndLocalMemory := by
  refine ⟨fun k dst src c s h => ⟨fun hd hsrc => ?move, fun hd => ?ldk, fun hok => ?moveRefused, fun hd => ?ldkRefused⟩,
    fun k reg y m s h hreg hst => ⟨fun ha => movm_load h hreg hst ha, fun ha => movm_load_beyond h hreg ha,
      fun ha hwf => movm_store h hreg ha hwf⟩⟩
  case move =>
    refine (coreDoes_regOp _ h rfl (opMove_ok dst src _ _ hd hsrc)).imp fun q hq => SameRegs.of_cleared ?_
    rw [State.started_inShadow, readCode_cleared] at hq
    rw [← writeCode_cleared]
    exact hq
  case ldk =>
    refine (coreDoes_regOp (writeCode dst c) h rfl (if_pos hd)).imp fun q hq => SameRegs.of_cleared ?_
    rw [← writeCode_cleared]
    exact hq
  case moveRefused =>
    refine (coreDoes_regOp RegSet.xerr h rfl ?_).imp fun _ hq => SameRegs.of_cleared hq
    rw [opMove, hok]
    rfl
  case ldkRefused =>
    refine (coreDoes_regOp RegSet.xerr h rfl ?_).imp fun _ hq => SameRegs.of_cleared hq
    rw [opLdk, hd]
    rfl

-- what register codes read back (R209 to R211) --------------------------------------------------------------------------------------

/-- The bits of an accumulator after a write of the E view. -/
theorem placeE_bit (a : Acc) (x : Byte) (i : Nat) : (placeE a x).getLsbD i = if i < 48 then (a.setWidth 48).getLsbD i else x.getLsbD (i - 48) :=
  BitVec.getLsbD_append

/-- The bits of an accumulator after a write of the Q view. -/
theorem placeQ_bit (a : Acc) (x : Word24) (i : Nat) :
    (placeQ a x).getLsbD i = if i < 24 then x.getLsbD i else ((a >>> 24).setWidth 32).getLsbD (i - 24) :=
  BitVec.getLsbD_append

theorem placeE_ext (a : Acc) (x : Byte) : (placeE a x >>> 48).setWidth 8 = x := by
  apply BitVec.eq_of_getLsbD_eq
  intro i hi
  rw [BitVec.getLsbD_setWidth, BitVec.getLsbD_ushiftRight, placeE_bit, if_neg (by omega), Nat.add_sub_cancel_left]
  simp [hi]

theorem placeE_low (a : Acc) (x : Byte) : (placeE a x).setWidth 48 = a.setWidth 48 := by
  apply BitVec.eq_of_getLsbD_eq
  intro i hi
  rw [BitVec.getLsbD_setWidth, placeE_bit, if_pos hi]
  simp [hi]

theorem placeQ_low (a : Acc) (x : Word24) : (placeQ a x).setWidth 24 = x := by
  apply BitVec.eq_of_getLsbD_eq
  intro i hi
  rw [BitVec.getLsbD_setWidth, placeQ_bit, if_pos hi]
  simp [hi]

theorem placeQ_high (a : Acc) (x : Word24) : placeQ a x >>> 24 = a >>> 24 := by
  apply BitVec.eq_of_getLsbD_eq
  intro i hi
  rw [BitVec.getLsbD_ushiftRight, placeQ_bit, if_neg (by omega), BitVec.getLsbD_setWidth, BitVec.getLsbD_ushiftRight,
    BitVec.getLsbD_ushiftRight, Nat.add_sub_cancel_left]
  by_cases h : i < 32
  · simp [h]
  · simp [h, BitVec.getLsbD_of_ge a (24 + i) (by omega)]

/-- Every bit of CSR after a write of it (R211). -/
theorem csrWrite_bit (old v : Word24) (i : Nat) (hi : i < 24) : (csrWrite old v).getLsbD i =
    (if i ∈ [0, 1, 2, 3, 14, 15, 16, 17, 18, 19] then v.getLsbD i
     else if i ∈ [8, 9, 10, 11] then old.getLsbD i && !v.getLsbD i else old.getLsbD i) := by
  have rw_bit : csrRW.getLsbD i = decide (i ∈ [0, 1, 2, 3, 14, 15, 16, 17, 18, 19]) := by revert i; decide
  have w1c_bit : csrW1C.getLsbD i = decide (i ∈ [8, 9, 10, 11]) := by revert i; decide
  simp only [csrWrite, BitVec.getLsbD_or, BitVec.getLsbD_and, BitVec.getLsbD_not, rw_bit, w1c_bit, hi, decide_true, Bool.true_and]
  by_cases h1 : i ∈ [0, 1, 2, 3, 14, 15, 16, 17, 18, 19]
  · have h2 : i ∉ [8, 9, 10, 11] := fun h => absurd h1 (by
      simp only [List.mem_cons, List.not_mem_nil, or_false] at h ⊢
      omega)
    simp [h1, h2]
  · by_cases h2 : i ∈ [8, 9, 10, 11] <;> simp [h1, h2]

/-- Settles O27: each range of codes reads what it was written. -/
theorem registerCodesAndCsr : Obligations.RegisterCodesAndCsr := by
  refine ⟨fun c shd csr x r => ?codes, fun x r i hi => csrWrite_bit r.csr x i hi⟩
  refine ⟨fun h => ?uv, fun h => ?f, fun h => ?q, fun h => ?e, fun h => ?narrow, fun h => ?steps, fun h => ?lcnt⟩
  case uv =>
    by_cases hu : c.toNat < 4
    · simp (disch := omega) only [readCode, writeCode, if_pos]
      exact Tab.look_put_same _ _ _ _
    · simp (disch := omega) only [readCode, writeCode, if_pos, if_neg]
      exact Tab.look_put_same _ _ _ _
  case f =>
    simp (disch := omega) only [writeCode, if_pos, if_neg, show c.toNat % 4 = c.toNat - 0x10 by omega]
    exact Tab.look_put_same _ _ _ _
  case q =>
    simp (disch := omega) only [readCode, writeCode, if_pos, if_neg, show c.toNat % 4 = c.toNat - 0x14 by omega, wr_setW]
    exact ⟨placeQ_low _ x, placeQ_high _ x⟩
  case e =>
    simp (disch := omega) only [readCode, writeCode, if_pos, if_neg, show c.toNat % 4 = c.toNat - 0x18 by omega, wr_setW]
    exact ⟨congrArg (BitVec.signExtend 24) (placeE_ext _ _), placeE_low _ _⟩
  case narrow =>
    rcases (by omega : 0x20 ≤ c.toNat ∧ c.toNat < 0x28 ∨ 0x30 ≤ c.toNat ∧ c.toNat < 0x38 ∨ 0x38 ≤ c.toNat ∧ c.toNat < 0x40 ∨
      0x40 ≤ c.toNat ∧ c.toNat < 0x44 ∨ c.toNat = 0x44) with hp | hst | hen | hix | hecnt
    · simp (disch := omega) only [readCode, writeCode, if_pos, if_neg]
      exact congrArg (BitVec.setWidth 24) (Tab.look_put_same _ _ _ _)
    · simp (disch := omega) only [readCode, writeCode, if_pos, if_neg]
      exact congrArg (BitVec.setWidth 24) (Tab.look_put_same _ _ _ _)
    · simp (disch := omega) only [readCode, writeCode, if_pos, if_neg]
      exact congrArg (BitVec.setWidth 24) (Tab.look_put_same _ _ _ _)
    · simp (disch := omega) only [readCode, writeCode, if_pos, if_neg]
      exact congrArg (BitVec.setWidth 24) (Tab.look_put_same _ _ _ _)
    · simp (disch := omega) only [readCode, writeCode, if_pos, if_neg]
  case steps =>
    simp (disch := omega) only [readCode, writeCode, if_pos, if_neg]
    rw [Tab.look_put_same]
  case lcnt => simp (disch := omega) only [writeCode, if_neg]

-- ports (R213, R214) -------------------------------------------------------------------------------------------------------------------

/-- Ports that are not allowed make the instruction a NOP that sets XERR. -/
theorem ports_refused {i : Instr} {k : Nat} {pt : Ports} {s : State} (op : View → RegSet → RegSet) (h : Issues s k) (hp : portsOk pt = false)
    (hi : exec i s = portOp k pt op s) : CoreDoes i k s (SameRegs (s.regs k).xerr) :=
  (coreDoes_regOp RegSet.xerr h hi (by rw [withPorts, hp]; rfl)).imp fun _ hq => SameRegs.of_cleared hq

/-- An X port alone, in use for a load or a store. -/
def xPort (op : PortOp) (reg : BitVec 3) (ptr : BitVec 2) : Ports := { x := { op := op, reg := reg, ptr := ptr } }

/-- A pointer's step by Nn through its ring (R218). -/
def RegSet.stepped (r : RegSet) (n : Nat) : BitVec 16 :=
  ringWrap (r.st.look n 0) (r.en.look n 0) ((r.p.look n 0).toNat + (r.n.look n 0).toInt)

/-- Address generation sees the pointers as they stand where the instruction before wrote none. -/
theorem view_ptrs {k : Nat} {s : State} (hag : (s.regs k).agOld = none) : (s.view k).ag = (s.regs k).ptrs := by
  rw [State.view, hag]
  rfl

theorem xPort_ok (op : PortOp) {reg : BitVec 3} (ptr : BitVec 2) (hreg : reg.toNat < 4) : portsOk (xPort op reg ptr) = true := by
  cases op <;> simp [portsOk, xPort, hreg]

/-- A pointer's step as the registers stand. -/
theorem stepPtr_p {k : Nat} {s : State} (hag : (s.regs k).agOld = none) (n : Nat) (r : RegSet) :
    (stepPtr (s.view k) n r).p.look n 0 = (s.regs k).stepped n := by
  refine (Tab.look_put_same _ _ _ _).trans ?_
  rw [View.wrap, View.p, view_ptrs hag]
  rfl

section Port
variable {k : Nat} {reg : BitVec 3} {ptr : BitVec 2} {s : State} (h : Issues s k) (hreg : reg.toNat < 4) (hag : (s.regs k).agOld = none)
  (ha : ((s.regs k).p.look ptr.toNat 0).toNat < 0x4000)
include h hreg hag ha

/-- A load by the X port. -/
theorem hold_load (hst : (s.regs k).stOld = []) : CoreDoes (.hold k (xPort .load reg ptr)) k s fun q =>
    q.ur reg.toNat = Mem.read (s.core k).x ((s.regs k).p.look ptr.toNat 0).toNat ∧ q.p.look ptr.toNat 0 = (s.regs k).stepped ptr.toNat ∧
    q.w = (s.regs k).w ∧ q.v = (s.regs k).v ∧ q.csr = (s.regs k).csr := by
  have hp : (s.view k).p ptr.toNat = (s.regs k).p.look ptr.toNat 0 := by rw [View.p, view_ptrs hag]; rfl
  refine (coreDoes_regOp (fun r => (stepPtr (s.view k) ptr.toNat r).setU reg.toNat
    (Mem.read (s.core k).x ((s.regs k).p.look ptr.toNat 0).toNat)) h rfl ?_).imp fun q hq => ⟨?_, ?_, hq.w, hq.v, hq.csr⟩
  · rw [withPorts, if_pos (xPort_ok .load ptr hreg)]
    change (((localLoad (s.view k) false ((s.view k).p ptr.toNat).toNat (s.started k)).2.onCur (stepPtr (s.view k) ptr.toNat)).onCur fun r => r).onCur
      (fun r => r.setU reg.toNat (localLoad (s.view k) false ((s.view k).p ptr.toNat).toNat (s.started k)).1) = _
    rw [localLoad_local _ _ _ _ hst (by rwa [hp]), VCore.onCur_onCur, VCore.onCur_onCur, hp, ← State.started_x s k]
    rfl
  · rw [RegSet.ur, hq.u]
    exact Tab.look_put_same _ _ _ _
  · rw [hq.p]
    exact stepPtr_p hag ptr.toNat _

/-- A store by the X port. -/
theorem hold_store (hwf : Mem.wf (s.core k).x = true) : ∃ t, exec (.hold k (xPort .store reg ptr)) s = .next t ∧ OnlyCore k s t ∧
    Mem.read (t.core k).x ((s.regs k).p.look ptr.toNat 0).toNat = (s.regs k).ur reg.toNat ∧
    (∀ b, b ≠ ((s.regs k).p.look ptr.toNat 0).toNat → Mem.read (t.core k).x b = Mem.read (s.core k).x b) ∧ (t.core k).y = (s.core k).y ∧
    (t.regs k).p.look ptr.toNat 0 = (s.regs k).stepped ptr.toNat ∧ (t.regs k).u = (s.regs k).u ∧ (t.regs k).w = (s.regs k).w ∧
    (t.regs k).csr = (s.regs k).csr := by
  have hp : (s.view k).p ptr.toNat = (s.regs k).p.look ptr.toNat 0 := by rw [View.p, view_ptrs hag]; rfl
  obtain ⟨t, ht, honly, hregs, hx, hy, -⟩ := exec_issue (.hold k (xPort .store reg ptr)) h rfl
  have body : withPorts (xPort .store reg ptr) (fun _ r => r) (s.view k) (s.started k) =
      ((localStore (s.view k) false ((s.regs k).p.look ptr.toNat 0).toNat ((s.regs k).ur reg.toNat) (s.started k)).onCur
        (stepPtr (s.view k) ptr.toNat)).onCur fun r => r := by
    rw [withPorts, if_pos (xPort_ok .store ptr hreg), ← hp]
    change (((localStore (s.view k) false ((s.view k).p ptr.toNat).toNat ((s.started k).cur.ur reg.toNat)
      ((s.started k).setCur (s.started k).cur)).onCur (stepPtr (s.view k) ptr.toNat)).onCur fun r => r) = _
    rw [VCore.setCur_cur, State.started_cur]
    rfl
  obtain ⟨old, hcur⟩ := localStore_cur (s.view k) false _ ((s.regs k).ur reg.toNat) (s.started k) ha
  obtain ⟨sx, sy⟩ := localStore_local (s.view k) false _ ((s.regs k).ur reg.toNat) (s.started k) ha
  rw [body] at hregs hx hy
  rw [(VCore.onCur_keeps _ _).1, (VCore.onCur_keeps _ _).1, sx, if_neg (by decide), State.started_x] at hx
  rw [(VCore.onCur_keeps _ _).2.1, (VCore.onCur_keeps _ _).2.1, sy, if_neg (by decide), State.started_y] at hy
  rw [VCore.cur_onCur, VCore.cur_onCur, hcur, State.started_cur] at hregs
  refine ⟨t, ht, honly, ?_, fun b hb => ?_, hy, ?_, hregs.u, hregs.w, hregs.csr⟩
  · rw [hx, Mem.read_write_same _ _ _ hwf]
  · rw [hx, Mem.read_write_other _ _ _ _ hb]
  · rw [hregs.p]
    exact stepPtr_p hag ptr.toNat _

end Port

/-- Settles O28: one port's load and store, and ports that are not allowed. -/
theorem portsMoveOrAreRefused : Obligations.PortsMoveOrAreRefused := by
  refine ⟨fun k reg ptr s h hreg hag hst ha => ⟨hold_load h hreg hag ha hst, fun hwf => hold_store h hreg hag ha hwf⟩,
    fun k wd src pt s h hp i hi => ?_⟩
  simp only [List.mem_cons, List.not_mem_nil, or_false] at hi
  rcases hi with rfl | rfl | rfl | rfl | rfl | rfl | rfl | rfl | rfl <;> exact ports_refused _ h hp rfl

end Sys2Proof.Machine
end


section
/-! PROOFS. Flow of the voice cores (R216, R217, R223 to R226): what the advance of the PC does, and each flow instruction on the registers that it
starts on. -/

namespace Sys2Proof.Machine

-- the advance of the PC (R217, R224, R226) ------------------------------------------------------------------------------------------

/-- Outside delay slots the PC goes on, back where a loop's body ends. -/
theorem advance_noSlot (len : Nat) (r : RegSet) (h : r.delay = none) : advance len r =
    { r with pc := nextPc r len, loops := (loopBack (r.pc + BitVec.ofNat 13 len - 1) (r.pc + BitVec.ofNat 13 len) r.loops).2 } := by
  unfold advance
  dsimp only
  split
  next d hd => exact absurd (hd.symm.trans h) nofun
  next => rfl

/-- In a delay slot before the last the PC goes on. -/
theorem advance_slot (len : Nat) (r : RegSet) (d : Delay) (h : r.delay = some d) (hl : 1 < d.left) :
    (advance len r).delay = some { d with left := d.left - 1 } := by
  unfold advance
  rw [h]
  dsimp only
  rw [if_pos hl]

/-- After the last delay slot of a taken branch the PC takes the target, and a CALL pushes its return address. -/
theorem advance_taken (len : Nat) (r : RegSet) (d : Delay) (h : r.delay = some d) (hl : d.left ≤ 1) (ht : d.taken = true) :
    advance len r =
      { r with pc := d.target, delay := none, rets := if d.call then ((r.pc + BitVec.ofNat 13 len) :: r.rets).take 8 else r.rets } := by
  unfold advance
  rw [h]
  dsimp only
  rw [if_neg (by omega), if_pos ht]

/-- After the last delay slot of a branch that is not taken flow goes on. -/
theorem advance_notTaken (len : Nat) (r : RegSet) (d : Delay) (h : r.delay = some d) (hl : d.left ≤ 1) (ht : d.taken = false) :
    advance len r = { r with
      pc := nextPc r len, delay := none, loops := (loopBack (r.pc + BitVec.ofNat 13 len - 1) (r.pc + BitVec.ofNat 13 len) r.loops).2 } := by
  unfold advance
  rw [h]
  dsimp only
  rw [if_neg (by omega), if_neg (by simp [ht])]
  rfl

-- flow instructions --------------------------------------------------------------------------------------------------------------------

/-- A flow instruction outside delay slots and loop ends acts on the core it starts on. -/
theorem onCore_flow {s : State} {k : Nat} (ef : Bool) (act : VCore → VCore) (h : Flows s k) :
    onCore k (fun _ => issueFlow ef act) s = .next (s.setCore k (act (s.started k))) := by
  rw [onCore, withUnit, if_pos h.issues.exists_, afterIssue, h.issues.noReq, if_neg (by decide), issueFlow_flows s k ef act h]
  rfl

/-- A flow instruction that acts on the registers alone. -/
theorem coreDoes_flow {i : Instr} {s : State} {k : Nat} {ef : Bool} {act : VCore → VCore} (g : RegSet → RegSet) (h : Flows s k)
    (hi : exec i s = onCore k (fun _ => issueFlow ef act) s) (ha : act (s.started k) = (s.started k).onCur g) :
    CoreDoes i k s (fun q => q = g (s.regs k).cleared) := by
  refine ⟨_, hi.trans (onCore_flow ef act h), ?_, ?_⟩
  · rw [OnlyCore, State.setCore_same]
  · change (State.core _ k).cur = _
    rw [State.setCore_same, ha, VCore.cur_onCur, State.started_cur]

/-- What flow changes is none of the registers that software reads. -/
theorem sameRegs_flow (r : RegSet) (pc : BitVec 13) (loops : List LoopFrame) (rets : List (BitVec 13)) (delay : Option Delay) (rpt : Option Nat)
    (wait : Bool) :
    SameRegs r { r.cleared with pc := pc, loops := loops, rets := rets, delay := delay, rpt := rpt, waitFetch := wait } :=
  ⟨rfl, rfl, rfl, rfl, rfl, rfl, rfl, rfl, rfl, rfl⟩

theorem sameRegs_advance (len : Nat) (r : RegSet) : SameRegs r (advance len r) := by
  obtain ⟨hw, hu, hv, hcsr, hix, hecnt, hp, hn, hst, hen⟩ := advance_keeps len r
  exact ⟨hu, hv, hw, hp, hn, hst, hen, hix, hecnt, hcsr⟩

theorem cleared_advance_pc {r : RegSet} (h : r.delay = none) : (advance 1 r.cleared).pc = nextPc r 1 := by
  rw [advance_noSlot 1 r.cleared h]
  rfl

/-- A flow instruction of a core whose state differs in free values alone. -/
theorem exec_flow (i : Instr) {s s' : State} {k : Nat} {ef : Bool} {act : VCore → VCore} (g : RegSet → RegSet) (h : Flows s' k)
    (hi : exec i s = onCore k (fun _ => issueFlow ef act) s') (ha : act (s'.started k) = (s'.started k).onCur g) :
    ∃ t, exec i s = .next t ∧ t.regs k = g (s'.regs k).cleared := by
  refine ⟨_, hi.trans (onCore_flow ef act h), ?_⟩
  change (State.core _ k).cur = _
  rw [State.setCore_same, ha, VCore.cur_onCur, State.started_cur]

theorem State.started_fetching (s : State) (k : Nat) : (s.started k).fetching = (s.core k).fetching :=
  congrArg (fun fs => List.any fs fun f : Fetch => !f.waiting) (VCore.onCur_keeps _ fun _ => (s.regs k).cleared).2.2.2.1

/-- The PC goes on, and the registers stay. -/
theorem flow_goesOn {k : Nat} {s : State} (h : Flows s k) {q : RegSet} (hq : q = advance 1 (s.regs k).cleared) : q.pc = nextPc (s.regs k) 1 ∧ SameRegs (s.regs k) q := by
  rw [hq]
  exact ⟨cleared_advance_pc h.noSlot, SameRegs.of_cleared (sameRegs_advance 1 _)⟩

/-- A BR.cc that is allowed, by whether its condition holds. -/
theorem opBr_started (k : Nat) (s : State) {cond : BitVec 4} (off : BitVec 12) (hc : cond ≠ 15) : opBr cond off (s.started k) =
    if branchTaken (s.regs k).csr (s.core k).fetching cond then (s.started k).onCur fun r => branchTo (r.pc + off.signExtend 13) false r
    else (s.started k).onCur fun r => { advance 1 r with delay := some { left := 2, taken := false } } := by
  rw [opBr, if_neg hc, State.started_cur, State.started_fetching]
  rfl

/-- FWAIT, by whether a fetch is outstanding. -/
theorem opFwait_started (k : Nat) (s : State) : opFwait (s.started k) =
    if (s.core k).fetching then (s.started k).onCur fun r => { r with waitFetch := true } else (s.started k).onCur (advance 1) := by
  rw [opFwait, State.started_fetching]

/-- Settles O29: each flow instruction acts on the registers it starts on, and the conditions are read off one by one. -/
theorem flowAndConditions : Obligations.FlowAndConditions := by
  refine ⟨fun k target cond off n s h => ⟨?nop, ?jmp, fun hlen => ?call, fun x rest hrets => ?ret, fun hc ht => ?taken, fun hc ht => ?notTaken,
    ?refused, ?rpt, fun hf => ?goesOn, fun hf => ?waits, fun f rest hloops => ?leave⟩, fun r fetching => rfl⟩
  case nop => exact (coreDoes_flow (advance 1) h rfl rfl).imp fun q => flow_goesOn h
  case jmp =>
    refine (coreDoes_flow (branchTo target false) h rfl rfl).imp fun q hq => ?_
    rw [hq]
    exact ⟨⟨rfl, rfl⟩, sameRegs_flow _ _ _ _ _ _ _⟩
  case call =>
    have h' : Flows { s with freeCtr := s.freeCtr + 8 } k := ⟨⟨h.issues.exists_, h.issues.runs, h.issues.once, h.issues.noReq⟩, h.noSlot, h.noEnd⟩
    obtain ⟨t, ht, hq⟩ := exec_flow (.call k target) (opCall target s.freeCtr) h' rfl rfl
    have hcall : opCall target s.freeCtr (s.regs k).cleared = branchTo target true (s.regs k).cleared := if_pos hlen
    refine ⟨t, ht, ?_⟩
    rw [show t.regs k = _ from hq.trans hcall]
    exact ⟨⟨rfl, rfl⟩, sameRegs_flow _ _ _ _ _ _ _⟩
  case ret =>
    have h' : Flows s.fresh k := ⟨⟨h.issues.exists_, h.issues.runs, h.issues.once, h.issues.noReq⟩, h.noSlot, h.noEnd⟩
    obtain ⟨t, ht, hq⟩ := exec_flow (.ret k) (opRet s.freeCtr) h' rfl rfl
    refine ⟨t, ht, ?_⟩
    have hret : opRet s.freeCtr (s.regs k).cleared = branchTo x false { (s.regs k).cleared with rets := rest } := by
      unfold opRet
      rw [show (s.regs k).cleared.rets = x :: rest from hrets]
    rw [show t.regs k = _ from hq.trans hret]
    exact ⟨⟨rfl, rfl⟩, rfl, sameRegs_flow _ _ _ _ _ _ _⟩
  case taken =>
    refine (coreDoes_flow (fun r => branchTo (r.pc + off.signExtend 13) false r) h rfl ?_).imp fun q hq => ?_
    · rw [opBr_started k s off hc, if_pos ht]
    · rw [hq]
      exact ⟨⟨rfl, rfl⟩, sameRegs_flow _ _ _ _ _ _ _⟩
  case notTaken =>
    refine (coreDoes_flow (fun r => { advance 1 r with delay := some { left := 2, taken := false } }) h rfl ?_).imp fun q hq => ?_
    · rw [opBr_started k s off hc, if_neg (by simp [ht])]
    · obtain ⟨hpc, hsame⟩ := flow_goesOn h (Eq.refl (advance 1 (s.regs k).cleared))
      rw [hq]
      exact ⟨hpc, rfl, hsame.u, hsame.v, hsame.w, hsame.p, hsame.n, hsame.st, hsame.en, hsame.ix, hsame.ecnt, hsame.csr⟩
  case refused =>
    refine (coreDoes_flow (fun r => advance 1 r.xerr) h rfl rfl).imp fun q hq => ?_
    rw [hq]
    exact ⟨show (advance 1 (s.regs k).xerr.cleared).pc = _ from cleared_advance_pc h.noSlot, SameRegs.of_cleared (sameRegs_advance 1 _)⟩
  case rpt =>
    refine (coreDoes_flow (fun r => { advance 1 r with rpt := some (n.toNat + 1) }) h rfl rfl).imp fun q hq => ?_
    obtain ⟨hpc, hsame⟩ := flow_goesOn h (Eq.refl (advance 1 (s.regs k).cleared))
    rw [hq]
    exact ⟨rfl, hpc, hsame.u, hsame.v, hsame.w, hsame.p, hsame.n, hsame.st, hsame.en, hsame.ix, hsame.ecnt, hsame.csr⟩
  case goesOn =>
    refine (coreDoes_flow (advance 1) h rfl ?_).imp fun q hq => ⟨(flow_goesOn h hq).1, ?_, (flow_goesOn h hq).2⟩
    · rw [opFwait_started k s, if_neg (by simp [hf])]
    · rw [hq, advance_noSlot 1 _ (show (s.regs k).cleared.delay = none from h.noSlot)]
      rfl
  case waits =>
    refine (coreDoes_flow (fun r => { r with waitFetch := true }) h rfl ?_).imp fun q hq => ?_
    · rw [opFwait_started k s, if_pos hf]
    · rw [hq]
      exact ⟨rfl, rfl, sameRegs_flow _ _ _ _ _ _ _⟩
  case leave =>
    refine (coreDoes_flow opLeave h rfl rfl).imp fun q hq => ?_
    have hleave : opLeave (s.regs k).cleared = branchTo (f.last + 1) false { (s.regs k).cleared with loops := rest } := by
      unfold opLeave
      rw [show (s.regs k).cleared.loops = f :: rest from hloops]
    rw [hq, hleave]
    exact ⟨⟨rfl, rfl⟩, rfl, sameRegs_flow _ _ _ _ _ _ _⟩

-- delay slots and loops (R217, R224 to R226) -------------------------------------------------------------------------------------------

/-- The innermost loop's body ends with iterations left: back to its start, one fewer left. -/
theorem loopBack_again (next : BitVec 13) (f : LoopFrame) (rest : List LoopFrame) (h : 1 < f.count.toNat) :
    loopBack f.last next (f :: rest) = (f.start, { f with count := f.count - 1 } :: rest) := by
  rw [loopBack, if_pos rfl, if_pos h]

/-- The only loop's body ends with no iteration left: the loop is popped. -/
theorem loopBack_pops (next : BitVec 13) (f : LoopFrame) (h : f.count.toNat ≤ 1) : loopBack f.last next [f] = (next, []) := by
  rw [loopBack, if_pos rfl, if_neg (by omega), loopBack]

theorem pc_of_next (pc : BitVec 13) : pc + BitVec.ofNat 13 1 - 1 = pc := BitVec.add_sub_cancel pc 1

/-- LOOP and LOOPV outside delay slots and loop ends. -/
theorem runLoop_flows {s : State} {k : Nat} (count : BitVec 16) (body : Nat) (h : Flows s k) (hl : (s.regs k).loops.length < 4) :
    runLoop k count body s = s.setCore k ((s.started k).onCur (if count = 0 then skipBody body else pushLoop count body)) := by
  have hslot : ((s.core k).cur.delay.isSome || (s.core k).cur.bodyEnd) = false := by
    rw [show (s.core k).cur.delay = none from h.noSlot, show (s.core k).cur.bodyEnd = false from h.noEnd]
    rfl
  unfold runLoop
  dsimp only
  rw [if_neg (by simp [h.issues.runs]), if_neg (by simp [hslot]), issueFlow_flows s k true _ h, issueFlow_flows s k true _ h]
  split
  · rfl
  · exact if_pos hl

/-- A loop that is pushed over the words that follow. -/
theorem pushLoop_pushes (r : RegSet) (count : BitVec 16) (body : Byte) :
    (pushLoop count (body.toNat + 1) r.cleared).pc = r.pc + 1 ∧ (pushLoop count (body.toNat + 1) r.cleared).loops.length = r.loops.length + 1 ∧
    SameRegs r (pushLoop count (body.toNat + 1) r.cleared) ∧ (pushLoop count (body.toNat + 1) r.cleared).loops.head? =
      some { start := r.pc + 1, last := r.pc + 1 + body.setWidth 13, count := count, cached := decide (body.toNat < 16) } := by
  have last : r.pc + 1 + BitVec.ofNat 13 (body.toNat + 1) - 1 = r.pc + 1 + body.setWidth 13 := by
    rw [BitVec.ofNat_add, BitVec.ofNat_toNat, ← BitVec.add_assoc]
    exact BitVec.add_sub_cancel _ _
  refine ⟨rfl, ?_, sameRegs_flow _ _ _ _ _ _ _, ?_⟩
  · unfold pushLoop
    dsimp only
    rw [List.length_cons, apply_ite List.length, List.length_map, ite_self]
    rfl
  · unfold pushLoop
    dsimp only
    rw [List.head?_cons, ← last]
    congr 2

section Loops
variable (i : Instr) {s : State} {k : Nat} {count : BitVec 16} {body : Byte} (h : Flows s k) (hl : (s.regs k).loops.length < 4)
  (hi : exec i s = withUnit k 64 (.next (afterIssue k (s.core k).preemptReq (runLoop k count (body.toNat + 1) s))))
include h hl hi

/-- What LOOP and LOOPV leave of the registers. -/
theorem coreDoes_loop : CoreDoes i k s fun q =>
    q = (if count = 0 then skipBody (body.toNat + 1) else pushLoop count (body.toNat + 1)) (s.regs k).cleared := by
  rw [withUnit, if_pos h.issues.exists_, afterIssue, h.issues.noReq, if_neg (by decide), runLoop_flows count _ h hl] at hi
  refine ⟨_, hi, ?_, ?_⟩
  · rw [OnlyCore, State.setCore_same]
  · change (State.core _ k).cur = _
    rw [State.setCore_same, VCore.cur_onCur, State.started_cur]

end Loops

/-- Settles O30: the advance of the PC case by case, and the loops that are pushed or skipped. -/
theorem delaySlotsLoopsAndLoopBacks : Obligations.DelaySlotsLoopsAndLoopBacks := by
  refine ⟨fun r => ⟨fun d hd hl ht => ?taken, fun d hd hl ht => ?notTaken, fun d hd hl => ?slot, fun f rest hd hloops hpc hc => ?again,
    fun f hd hloops hpc hc => ?pops⟩, fun k count body ui s h hlen => ⟨?loop, fun hc => ?loopv, fun hc hloops => ?skips⟩⟩
  case taken =>
    rw [advance_taken 1 r d hd (by omega) ht]
    exact ⟨rfl, rfl, rfl⟩
  case notTaken =>
    rw [advance_notTaken 1 r d hd (by omega) ht]
    exact ⟨rfl, rfl, rfl⟩
  case slot => rw [advance_slot 1 r d hd (by omega), hl]
  case again =>
    rw [advance_noSlot 1 r hd, nextPc, pc_of_next, hloops, hpc, loopBack_again _ f rest hc]
    exact ⟨rfl, rfl⟩
  case pops =>
    rw [advance_noSlot 1 r hd, nextPc, pc_of_next, hloops, hpc, loopBack_pops _ f hc]
    exact ⟨rfl, rfl⟩
  case loop =>
    have hcount : BitVec.ofNat 16 (count.toNat + 1) = count.setWidth 16 + 1 := by rw [BitVec.ofNat_add, BitVec.ofNat_toNat]; rfl
    have hne : count.setWidth 16 + 1 ≠ 0 := by bv_omega
    refine (coreDoes_loop (.loop k count body) h hlen rfl).imp fun q hq => ?_
    rw [hq, hcount, if_neg hne]
    exact pushLoop_pushes _ _ _
  case loopv =>
    refine (coreDoes_loop (.loopv k ui body) h hlen rfl).imp fun q hq => ?_
    rw [hq, if_neg (show ¬((s.core k).cur.ur ui.toNat).setWidth 16 = 0 from hc)]
    exact pushLoop_pushes _ _ _
  case skips =>
    refine (coreDoes_loop (.loopv k ui body) h hlen rfl).imp fun q hq => ?_
    rw [hq, if_pos (show ((s.core k).cur.ur ui.toNat).setWidth 16 = 0 from hc)]
    refine ⟨?_, sameRegs_flow _ _ _ _ _ _ _⟩
    unfold skipBody
    dsimp only
    rw [show (s.regs k).cleared.loops = [] from hloops, loopBack, BitVec.ofNat_add, BitVec.ofNat_add, BitVec.ofNat_toNat, ← BitVec.add_assoc]
    rfl

end Sys2Proof.Machine
end


section
/-! PROOFS. Completion of a fetch (R228) of a word that a double-bit error has struck (R321): it delivers 0, not the stored bits. -/

namespace Sys2Proof.Machine

/-- A fetch of one word from Sound Store word 0 to X address 0 of the core. -/
def fetchOfWordZero : Fetch := { src := 0, words := 1, isY := false, dst := 0, ring := 0, len := 0, waiting := false, shadow := false }

/-- After reset, with that fetch outstanding on core 0; word 0 of the Sound Store holds 1, and an earlier read met a double-bit error there. -/
def struckWordState : State :=
  { State.reset with cores := [(0, { fetches := [fetchOfWordZero] })], mem := { State.reset.mem with store := [(0, 1)], bad := [0] } }

/-- The fetch completes with 0 in place of the stored word. -/
theorem struckWordState_fetched : ∀ t, exec (.fetchComplete 0 []) struckWordState = .next t → Mem.read (t.core 0).x 0 = 0 := by
  have value : Mem.read ((completeFetch 0 [] struckWordState).core 0).x 0 = 0 := by decide +kernel
  intro t ht
  have same : completeFetch 0 [] struckWordState = t := Host.Outcome.next.inj ht
  rwa [← same]

/-- The word that is stored there. -/
theorem struckWordState_stored : (Mem.word struckWordState.mem.store 0).setWidth 24 = 1#24 := by decide +kernel

/-- Refutes O31: a fetch of a word that a double-bit error struck earlier delivers 0 (R321), not the word's bits [23:0]; the statement does not
exclude such a word. -/
theorem not_fetchesQueueAndComplete : ¬ Obligations.FetchesQueueAndComplete := by
  intro h
  obtain ⟨t, ht, -, hread⟩ := h.2 0 struckWordState fetchOfWordZero [] (by decide) rfl rfl rfl rfl (by decide) (by decide) (by decide +kernel)
    (by decide +kernel) (by decide +kernel)
  have zero := struckWordState_fetched t ht
  exact absurd (zero.symm.trans (hread.trans struckWordState_stored)) (by decide)

end Sys2Proof.Machine
end


section
/-! PROOFS. The end of a task (R216, R229, R230, R246), and what the completion of a bus pair leaves of the cores. -/

namespace Sys2Proof.Machine

-- entries of a table ------------------------------------------------------------------------------------------------------------------

theorem Tab.find_put_same {α : Type} (t : Tab α) (k : Nat) (v : α) : Tab.find (Tab.put t k v) k = some v := by
  induction t with
  | nil => simp [Tab.put, Tab.find]
  | cons p r ih =>
    obtain ⟨j, w⟩ := p
    rw [Tab.put]
    split
    · simp [Tab.find]
    split
    · simp [Tab.find]
    · rw [Tab.find, if_neg (by omega), ih]

theorem Tab.find_put_other {α : Type} (t : Tab α) (k n : Nat) (v : α) (h : n ≠ k) : Tab.find (Tab.put t k v) n = Tab.find t n := by
  induction t with
  | nil => simp [Tab.put, Tab.find, h.symm]
  | cons p r ih =>
    obtain ⟨j, w⟩ := p
    rw [Tab.put]
    split
    next hj => rw [Tab.find, if_neg h.symm, Tab.find, if_neg (by omega)]
    split
    · rw [Tab.find, if_neg h.symm]
    · rw [Tab.find, ih, Tab.find]

theorem Tab.find_mapVals {α : Type} (f : Nat → α → α) (t : Tab α) (k : Nat) : Tab.find (Tab.mapVals f t) k = (Tab.find t k).map (f k) := by
  induction t with
  | nil => rfl
  | cons p r ih =>
    obtain ⟨j, w⟩ := p
    change Tab.find ((j, f j w) :: Tab.mapVals f r) k = _
    rw [Tab.find, Tab.find]
    split
    next h => rw [h]; rfl
    next => exact ih

-- what the completion of a pair leaves of a core (R246, R249) --------------------------------------------------------------------------

/-- Two descriptors of one run of a task: flags, the clk that made it ready, and whether it waits for the primary set may differ. -/
def SameInstance (t u : Task) : Prop := u = { t with flags := u.flags, raisedClk := u.raisedClk, passed := u.passed }

theorem SameInstance.trans {a b c : Task} (h : SameInstance a b) (g : SameInstance b c) : SameInstance a c := by
  unfold SameInstance at *
  rw [g, h]

/-- Flags were raised in tasks of a core, and requests were held at its limit: the rest of the core stands. -/
structure FlagsOnly (c d : VCore) : Prop where
  rest : d = { c with tasks := d.tasks, preemptReq := d.preemptReq }
  noReq : c.preemptReq = false → d.preemptReq = false
  tasks : ∃ f : Nat → Task → Task, (∀ x t, SameInstance t (f x t)) ∧ ∀ x, d.tasks.find x = (c.tasks.find x).map (f x)

theorem FlagsOnly.refl (c : VCore) : FlagsOnly c c :=
  ⟨rfl, id, fun _ t => t, fun _ _ => rfl, fun x => by cases c.tasks.find x <;> rfl⟩

theorem FlagsOnly.trans {a b c : VCore} (h : FlagsOnly a b) (g : FlagsOnly b c) : FlagsOnly a c := by
  obtain ⟨f, hf, hft⟩ := h.tasks
  obtain ⟨f', hf', hft'⟩ := g.tasks
  refine ⟨?_, fun ha => g.noReq (h.noReq ha), fun x t => f' x (f x t), fun x t => (hf x t).trans (hf' x _), fun x => ?_⟩
  · rw [g.rest, h.rest]
  · rw [hft', hft, Option.map_map]
    rfl

/-- Every task of a core goes through a function that leaves all but its flags. -/
theorem flagsOnly_mapVals (c : VCore) (f : Nat → Task → Task) (req : Bool) (hf : ∀ x t, SameInstance t (f x t))
    (hreq : c.preemptReq = false → req = false) : FlagsOnly c { c with tasks := c.tasks.mapVals f, preemptReq := req } :=
  ⟨rfl, hreq, f, hf, fun x => Tab.find_mapVals f c.tasks x⟩

theorem raiseInput_sameInstance (q now : Nat) (t : Task) : SameInstance t (raiseInput q now t) := by
  unfold raiseInput
  split
  · dsimp only
    split <;> rfl
  · rfl

/-- Nothing of the state but the cores, the Bridge and the count of held requests differs, and of each core only flags. -/
structure PairsOnly (s t : State) : Prop where
  rest : t = { s with cores := t.cores, bridge := t.bridge, dsp := t.dsp }
  core : ∀ k, FlagsOnly (s.core k) (t.core k)

theorem PairsOnly.refl (s : State) : PairsOnly s s := ⟨rfl, fun _ => FlagsOnly.refl _⟩

theorem PairsOnly.trans {a b c : State} (h : PairsOnly a b) (g : PairsOnly b c) : PairsOnly a c := by
  refine ⟨?_, fun k => (h.core k).trans (g.core k)⟩
  rw [g.rest, h.rest]

/-- Requests are held at the limit of one core. -/
theorem holdAtLimit_pairsOnly (k : Nat) (s : State) : PairsOnly s (holdAtLimit k s) := by
  refine ⟨rfl, fun j => ?_⟩
  change FlagsOnly _ ((s.setCore k _).core j)
  by_cases hj : j = k
  · subst hj
    rw [State.setCore_same]
    refine flagsOnly_mapVals (s.core j) (fun _ t => if t.claims then { t with passed := true } else t) false (fun _ t => ?_) fun _ => rfl
    split <;> rfl
  · rw [State.setCore_other _ _ _ _ hj]
    exact FlagsOnly.refl _

theorem foldl_holdAtLimit_pairsOnly (ks : List Nat) (s : State) : PairsOnly s (ks.foldl (fun s k => holdAtLimit k s) s) := by
  induction ks generalizing s with
  | nil => exact PairsOnly.refl s
  | cons k ks ih => exact (holdAtLimit_pairsOnly k s).trans (ih _)

/-- Ik of pair `q` is raised in a core's tasks. -/
def raiseInputs (q now : Nat) (c : VCore) : VCore := { c with tasks := c.tasks.mapVals fun _ t => raiseInput q now t }

theorem raiseInputs_flagsOnly (q now : Nat) (c : VCore) : FlagsOnly c (raiseInputs q now c) :=
  flagsOnly_mapVals c _ c.preemptReq (fun _ t => raiseInput_sameInstance q now t) id

/-- A pair is complete. -/
theorem pairComplete_pairsOnly (q : Nat) (s : State) : PairsOnly s (pairComplete q s) := by
  have raised : PairsOnly s { s with cores := s.cores.mapVals fun _ => raiseInputs q s.time.clkCount } := by
    refine ⟨rfl, fun k => ?_⟩
    have look : State.core { s with cores := s.cores.mapVals fun _ => raiseInputs q s.time.clkCount } k = raiseInputs q s.time.clkCount (s.core k) :=
      Tab.look_mapVals (fun _ => raiseInputs q s.time.clkCount) s.cores k {} rfl
    rw [look]
    exact raiseInputs_flagsOnly q _ _
  exact raised.trans (foldl_holdAtLimit_pairsOnly _ _)

theorem dropWriter_pairsOnly (s : State) (q : Nat) : PairsOnly s (dropWriter s q) := by
  unfold dropWriter
  dsimp only
  split
  · exact PairsOnly.refl s
  · have drop : PairsOnly s { s with bridge := { s.bridge with writers := s.bridge.writers.put q (s.bridge.writers.look q 0 - 1) } } :=
      ⟨rfl, fun k => FlagsOnly.refl _⟩
    split
    · exact drop.trans (pairComplete_pairsOnly q _)
    · exact drop

theorem foldl_dropWriter_pairsOnly (qs : List Nat) (s : State) : PairsOnly s (qs.foldl dropWriter s) := by
  induction qs generalizing s with
  | nil => exact PairsOnly.refl s
  | cons q qs ih => exact (dropWriter_pairsOnly s q).trans (ih _)

/-- A run that ends drops its writers, and completes the pairs of which it was the last. -/
theorem instanceOver_pairsOnly (t : Task) (s : State) : PairsOnly s (instanceOver t s) := by
  unfold instanceOver
  split
  · exact PairsOnly.refl s
  · exact foldl_dropWriter_pairsOnly _ _

-- leaving a task (R230, R231) ----------------------------------------------------------------------------------------------------------

/-- A register set of a core is replaced: the set in use alone. -/
theorem VCore.setCur_eq (c : VCore) (r : RegSet) :
    c.setCur r = { c with prim := if c.inShadow then c.prim else r, shad := if c.inShadow then r else c.shad } := by
  unfold VCore.setCur
  cases c.inShadow <;> rfl

/-- A core that ran a task in the primary set is free. -/
theorem leaveTask_primary {c : VCore} (h : c.inShadow = false) : leaveTask c = { c with current := none, staging := [] } := by
  rw [leaveTask, if_neg (by simp [h])]

/-- An FWAIT that may go on changes the registers of the set in use, and only where it waited. -/
theorem resumeWait_eq (c : VCore) : ∃ r, resumeWait c = c.setCur r ∧ (c.cur.waitFetch = false → r = c.cur) := by
  unfold resumeWait
  split
  · exact ⟨c.cur, (VCore.setCur_cur c).symm, fun _ => rfl⟩
  · exact ⟨_, rfl, fun h => if_neg (by simp [h])⟩

/-- A core that ran a task in the shadow set is back in the primary one, which goes on where it was. -/
theorem leaveTask_shadow {c : VCore} (h : c.inShadow = true) :
    ∃ r, leaveTask c = { c with inShadow := false, shCurrent := none, shStaging := [], prim := r } ∧ (c.prim.waitFetch = false → r = c.prim) := by
  obtain ⟨r, hr, hwait⟩ := resumeWait_eq { c with inShadow := false, shCurrent := none, shStaging := [] }
  refine ⟨r, ?_, hwait⟩
  rw [leaveTask, if_pos h, hr, VCore.setCur_eq]
  rfl

theorem leaveTask_noReq (c : VCore) : (leaveTask c).preemptReq = c.preemptReq := by
  cases h : c.inShadow
  · rw [leaveTask_primary h]
  · obtain ⟨r, hr, -⟩ := leaveTask_shadow h
    rw [hr]

-- END (R216, R224, R227, R229) ----------------------------------------------------------------------------------------------------------

theorem mergeStore_cores (bay c : Nat) (x : Nat × Nat × Word24) (s : State) : (mergeStore bay c x s).cores = s.cores := by
  unfold mergeStore
  split <;> rfl

/-- Merging held stores leaves the cores. -/
theorem mergeAll_cores (bay c : Nat) (xs : List (Nat × Nat × Word24)) (s : State) : (mergeAll bay c xs s).cores = s.cores := by
  induction xs generalizing s with
  | nil => rfl
  | cons x xs ih => rw [mergeAll, ih, mergeStore_cores]

/-- No request stands: nothing follows the task. -/
theorem afterTask_noReq {k : Nat} {s : State} (h : (s.core k).preemptReq = false) : afterTask k s = s := by
  rw [afterTask, h]
  rfl

/-- A task whose END comes: its core leaves it, with flags that may be raised. -/
theorem finishTask_core (k ctx : Nat) (t : Task) (s : State) (h : (s.core k).preemptReq = false) :
    ∃ t1 : Task, t1.ran = true ∧ t1.skips = 0 ∧
      FlagsOnly (leaveTask { s.core k with tasks := (s.core k).tasks.put ctx t1 }) ((finishTask k ctx t s).core k) := by
  unfold finishTask
  dsimp only
  refine ⟨{ t with ran := true, skips := 0, lastRun := (s.frameOf t.bay).setWidth 16 }, rfl, rfl, ?_⟩
  generalize hc : leaveTask { s.core k with
    tasks := (s.core k).tasks.put ctx { t with ran := true, skips := 0, lastRun := (s.frameOf t.bay).setWidth 16 } } = c1
  have hreq : c1.preemptReq = false := by rw [← hc, leaveTask_noReq, ← h]
  have hmerged : (mergeAll t.bay (k / 8) (s.core k).held (s.setCore k c1)).core k = c1 := by
    rw [State.core, mergeAll_cores]
    exact State.setCore_same s k c1
  have hover := (instanceOver_pairsOnly t (mergeAll t.bay (k / 8) (s.core k).held (s.setCore k c1))).core k
  rw [hmerged] at hover
  generalize hs2 : instanceOver t (mergeAll t.bay (k / 8) (s.core k).held (s.setCore k c1)) = s2 at hover
  have hlevel : ∀ p : Prop, [Decidable p] → (if p then writeLevel t.slot.toNat s2 else s2).core k = s2.core k := fun p _ => by
    split <;> rfl
  rw [afterTask_noReq]
  · rwa [hlevel]
  · rw [hlevel]
    exact hover.noReq hreq

/-- The core after END's own advance: only its register set in use has moved. -/
def State.ended (s : State) (k : Nat) : VCore := (s.started k).onCur (advance 1)

/-- END outside delay slots and loop ends. -/
theorem endOfTask_flows {s : State} {k : Nat} (h : Flows s k) : endOfTask k s =
    match (if (s.core k).inShadow then (s.core k).shCurrent else (s.core k).current) with
    | none => s.setCore k (s.ended k)
    | some ctx => match (s.core k).tasks.find ctx with
      | none => afterTask k ((s.setCore k (s.ended k)).setCore k (leaveTask (s.ended k)))
      | some t => finishTask k ctx t (s.setCore k (s.ended k)) := by
  have hslot : ((s.core k).cur.delay.isSome || (s.core k).cur.bodyEnd) = false := by
    rw [show (s.core k).cur.delay = none from h.noSlot, show (s.core k).cur.bodyEnd = false from h.noEnd]
    rfl
  unfold endOfTask
  dsimp only
  rw [if_neg (by simp [h.issues.runs]), if_neg (by simp [hslot]), issueFlow_flows s k true _ h, State.setCore_same]
  rfl

theorem State.ended_eq (s : State) (k : Nat) : ∃ p q, s.ended k = { s.core k with prim := p, shad := q } ∧
    ((s.core k).inShadow = true → p = (s.core k).prim) := by
  unfold State.ended State.started
  rw [VCore.onCur, VCore.setCur_setCur, VCore.setCur_eq]
  exact ⟨_, _, rfl, fun h => if_pos h⟩

/-- What a core that leaves a task holds. -/
structure LeftTask (c d : VCore) : Prop where
  inPrimary : d.inShadow = false
  free : c.inShadow = false → d.current = none ∧ d.staging = []
  back : c.inShadow = true → d.shCurrent = none ∧ d.shStaging = [] ∧ d.current = c.current ∧ d.staging = c.staging ∧
    (c.prim.waitFetch = false → d.prim = c.prim)

/-- A core leaves its task, wherever its registers and descriptors stand. -/
theorem leftTask_leaveTask {c d : VCore} (hd : d = { c with prim := d.prim, shad := d.shad, tasks := d.tasks })
    (hprim : c.inShadow = true → d.prim = c.prim) : LeftTask c (leaveTask d) ∧ (leaveTask d).tasks = d.tasks := by
  have hsh : d.inShadow = c.inShadow := by rw [hd]
  have hcur : d.current = c.current := by rw [hd]
  have hstg : d.staging = c.staging := by rw [hd]
  cases hs : c.inShadow
  case false =>
    rw [leaveTask_primary (hsh.trans hs)]
    exact ⟨⟨hsh.trans hs, fun _ => ⟨rfl, rfl⟩, fun h => absurd (hs.symm.trans h) nofun⟩, rfl⟩
  case true =>
    obtain ⟨r, hr, hwait⟩ := leaveTask_shadow (hsh.trans hs)
    rw [hr]
    refine ⟨⟨rfl, fun h => absurd (hs.symm.trans h) nofun, fun _ => ⟨rfl, rfl, hcur, hstg, fun h => ?_⟩⟩, rfl⟩
    have hp := hprim hs
    exact (hwait (hp ▸ h)).trans hp

/-- After END's own advance, with any descriptors, the core leaves its task. -/
theorem leftTask_ended (s : State) (k : Nat) (ts : Tab Task) : LeftTask (s.core k) (leaveTask { s.ended k with tasks := ts }) ∧
    (leaveTask { s.ended k with tasks := ts }).tasks = ts := by
  obtain ⟨p, q, hended, hprim⟩ := s.ended_eq k
  rw [hended]
  exact leftTask_leaveTask rfl hprim

/-- Flags that are raised leave what a core holds of its tasks. -/
theorem LeftTask.flagsOnly {c d e : VCore} (h : LeftTask c d) (g : FlagsOnly d e) : LeftTask c e := by
  rw [g.rest]
  exact ⟨h.inPrimary, h.free, h.back⟩

/-- Settles O33: END at its four places: forbidden, without a task, with one that has no descriptor left, and with one. -/
theorem endCompletesTask : Obligations.EndCompletesTask := by
  intro k s h
  refine ⟨fun hforb => ?forbidden, fun hforb hrun => ?without, fun hforb ctx hrun => ?completes⟩
  case forbidden =>
    refine ⟨endOfTask k s, if_pos h.exists_, ?_⟩
    have hend : endOfTask k s = s.setCore k ((s.core k).onCur fun r => advance 1 r.cleared.xerr) := by
      have hforb' : ((s.core k).cur.delay.isSome || (s.core k).cur.bodyEnd) = true := hforb
      unfold endOfTask
      dsimp only
      rw [if_neg (by simp [h.runs]), if_pos hforb']
      unfold issueFlow
      dsimp only
      rw [if_neg (by simp [h.runs]), Bool.true_and, if_pos hforb']
      rfl
    rw [hend]
    refine ⟨by rw [OnlyCore, State.setCore_same], ?_⟩
    have hregs : (s.setCore k ((s.core k).onCur fun r => advance 1 r.cleared.xerr)).regs k = advance 1 (s.regs k).cleared.xerr := by
      change (State.core _ k).cur = _
      rw [State.setCore_same, VCore.cur_onCur]
      rfl
    rw [hregs]
    exact SameRegs.of_cleared (sameRegs_advance 1 (s.regs k).xerr.cleared)
  case without =>
    obtain ⟨hslot, hbody⟩ := Bool.or_eq_false_iff.1 hforb
    have hflows : Flows s k := ⟨h, Option.isSome_eq_false_iff.1 hslot |> Option.isNone_iff_eq_none.1, hbody⟩
    have hend : endOfTask k s = s.setCore k (s.ended k) := by rw [endOfTask_flows hflows, hrun]
    refine ⟨endOfTask k s, if_pos h.exists_, ?_⟩
    rw [hend]
    refine ⟨by rw [OnlyCore, State.setCore_same], flow_goesOn hflows ?_⟩
    change (State.core _ k).cur = _
    rw [State.setCore_same, State.ended, VCore.cur_onCur, State.started_cur]
  case completes =>
    obtain ⟨hslot, hbody⟩ := Bool.or_eq_false_iff.1 hforb
    have hflows : Flows s k := ⟨h, Option.isSome_eq_false_iff.1 hslot |> Option.isNone_iff_eq_none.1, hbody⟩
    have hreq : (s.ended k).preemptReq = false := by
      obtain ⟨p, q, hended, -⟩ := s.ended_eq k
      rw [hended]
      exact h.noReq
    refine ⟨endOfTask k s, if_pos h.exists_, ?_⟩
    rw [endOfTask_flows hflows, hrun]
    dsimp only
    cases hfind : (s.core k).tasks.find ctx with
    | none =>
      dsimp only
      rw [afterTask_noReq (by rw [State.setCore_same, leaveTask_noReq, hreq]), State.setCore_same]
      have left := (leftTask_ended s k (s.ended k).tasks).1
      exact ⟨left.inPrimary, left.free, left.back, fun task htask => absurd htask nofun⟩
    | some t =>
      dsimp only
      obtain ⟨t1, hran, hskips, hflags⟩ := finishTask_core k ctx t (s.setCore k (s.ended k)) (by rw [State.setCore_same, hreq])
      rw [State.setCore_same] at hflags
      obtain ⟨left, htasks⟩ := leftTask_ended s k ((s.ended k).tasks.put ctx t1)
      have left' := left.flagsOnly hflags
      refine ⟨left'.inPrimary, left'.free, left'.back, fun task _ => ?_⟩
      obtain ⟨f, hf, hft⟩ := hflags.tasks
      refine ⟨f ctx t1, ?_, ?_, ?_⟩
      · rw [hft, htasks, Tab.find_put_same]
        rfl
      · rw [hf ctx t1]
        exact hran
      · rw [hf ctx t1]
        exact hskips

-- a task that is cut (R233, R246) ------------------------------------------------------------------------------------------------------

/-- An effect task that writes the bus pair it reads. -/
def selfFedTask : Task := { kind := 1, ins := 0x80, outs := 0x80, fresh := false }

/-- After reset, with that task in context 0 of core 0, the only writer of its pair. -/
def selfFedState : State :=
  { State.reset with cores := [(0, { tasks := [(0, selfFedTask)] })], bridge := { State.reset.bridge with writers := [(0, 1)] } }

/-- A double-bit error in the block of its context cuts it; its pair is then complete, and raises its flag I0. -/
theorem selfFedState_raised : ∀ t, exec (.localMemoryError 0 .x 0 true) selfFedState = .next t →
    (t.core 0).tasks.find 0 = some { selfFedTask with ran := true, flags := 0x10 } := by
  have value : ((memoryError 0 .x 0 true selfFedState).core 0).tasks.find 0 = some { selfFedTask with ran := true, flags := 0x10 } := by
    decide +kernel
  intro t ht
  have same : memoryError 0 .x 0 true selfFedState = t := Host.Outcome.next.inj ht
  rwa [← same]

/-- Refutes O34: a task that is cut has its descriptor changed in more than `ran` where it reads a pair that it was the last to write (R246): the pair
is complete, and its flag is raised. -/
theorem not_localMemoryErrors : ¬ Obligations.LocalMemoryErrors := by
  intro h
  obtain ⟨-, -, hcut, -⟩ := h 0 .x 0 selfFedState (by decide)
  obtain ⟨t, ht, -, -, hfind, -⟩ := hcut nofun (by decide) selfFedTask rfl
  exact absurd (hfind.symm.trans (selfFedState_raised t ht)) (by decide)

end Sys2Proof.Machine
end


section
/-! PROOFS. Tasks enter the cores (R212, R230, R248 to R250): which task is first, what a free core takes, and what a request does. -/

namespace Sys2Proof.Machine

-- the first task (R248) --------------------------------------------------------------------------------------------------------------

/-- The entry of least rank is one of the entries. -/
theorem foldl_least_mem (r : List (Nat × Nat)) (x : Nat × Nat) : r.foldl (fun b y => if y.1 < b.1 then y else b) x ∈ x :: r := by
  induction r generalizing x with
  | nil => exact List.mem_singleton.2 rfl
  | cons y r ih =>
    rw [List.foldl_cons]
    have h := ih (if y.1 < x.1 then y else x)
    split at h
    · rw [if_pos ‹_›]
      exact List.mem_cons_of_mem x h
    · rw [if_neg ‹_›]
      rcases List.mem_cons.1 h with h | h
      · rw [h]
        exact List.mem_cons_self
      · exact List.mem_cons_of_mem x (List.mem_cons_of_mem y h)

theorem leastRank_mem {xs : List (Nat × Nat)} {n : Nat} (h : leastRank xs = some n) : ∃ k, (k, n) ∈ xs := by
  cases xs with
  | nil => exact absurd h nofun
  | cons x r =>
    have hn : (r.foldl (fun b y => if y.1 < b.1 then y else b) x).2 = n := Option.some.inj h
    rw [← hn]
    exact ⟨_, foldl_least_mem r x⟩

theorem leastRank_isSome {xs : List (Nat × Nat)} (h : xs ≠ []) : (leastRank xs).isSome = true := by
  cases xs with
  | nil => exact absurd rfl h
  | cons x r => rfl

/-- A key that is listed is found. -/
theorem Tab.find_isSome {α : Type} {t : Tab α} {k : Nat} {v : α} (h : (k, v) ∈ t) : (t.find k).isSome = true := by
  induction t with
  | nil => exact absurd h List.not_mem_nil
  | cons p r ih =>
    obtain ⟨j, w⟩ := p
    rw [Tab.find]
    split
    · rfl
    next hj =>
      rcases List.mem_cons.1 h with h | h
      · exact absurd (congrArg Prod.fst h).symm hj
      · exact ih h

/-- The first task that is admitted has a descriptor. -/
theorem firstWith_found {p : Task → Bool} {c : VCore} {ctx : Nat} (h : firstWith p c = some ctx) : (c.tasks.find ctx).isSome = true := by
  obtain ⟨k, hk⟩ := leastRank_mem h
  obtain ⟨x, hx, hkx⟩ := List.mem_map.1 hk
  rw [← show x.1 = ctx from congrArg Prod.snd hkx]
  exact Tab.find_isSome (List.mem_of_mem_filter hx)

/-- A wider choice finds a task where a narrower one does. -/
theorem firstWith_isSome_of_imp {p q : Task → Bool} {c : VCore} (h : (firstWith p c).isSome = true) (hpq : ∀ t, p t = true → q t = true) :
    (firstWith q c).isSome = true := by
  obtain ⟨ctx, hctx⟩ := Option.isSome_iff_exists.1 h
  obtain ⟨k, hk⟩ := leastRank_mem hctx
  obtain ⟨x, hx, -⟩ := List.mem_map.1 hk
  obtain ⟨hmem, hready⟩ := List.mem_filter.1 hx
  obtain ⟨hr, hp⟩ := Bool.and_eq_true_iff.1 hready
  refine leastRank_isSome fun hnil => ?_
  have hin : x ∈ c.tasks.filter fun x => x.2.ready && q x.2 := List.mem_filter.2 ⟨hmem, Bool.and_eq_true_iff.2 ⟨hr, hpq _ hp⟩⟩
  rw [List.map_eq_nil_iff] at hnil
  rw [hnil] at hin
  exact absurd hin List.not_mem_nil

-- a free core (R212, R248) --------------------------------------------------------------------------------------------------------------

/-- A free core takes the first ready task into the primary set. -/
theorem startTask_free {k : Nat} {s : State} {level1 : Bool} {ctx : Nat} {t : Task} (hcur : (s.core k).current = none)
    (hsh : (s.core k).inShadow = false) (hfirst : firstReady level1 (s.core k) = some ctx) (hfind : (s.core k).tasks.find ctx = some t) :
    startTask k level1 s = some (ctx, t, s.setCore k { s.core k with current := some ctx, prim := s.taskRegs ctx t, staging := [] }) := by
  unfold startTask
  dsimp only
  rw [if_neg (by simp [hcur, hsh]), hfirst]
  dsimp only
  rw [hfind]

/-- A core that runs a task, or has no ready one, starts none. -/
theorem startTask_none {k : Nat} {s : State} {level1 : Bool}
    (h : ((s.core k).current.isSome || (s.core k).inShadow) = true ∨ firstReady level1 (s.core k) = none) : startTask k level1 s = none := by
  unfold startTask
  dsimp only
  split
  · rfl
  next hbusy =>
    rw [h.resolve_left hbusy]

/-- Registers at task entry (R212). -/
theorem entryRegs_regs (ctx : Nat) (entry : BitVec 13) (spf : Nat) (odd : Bool) :
    (entryRegs ctx entry spf odd).pc = entry ∧ (entryRegs ctx entry spf odd).ur 0 = BitVec.ofNat 24 spf ∧
    (∀ i, i ≠ 0 → (entryRegs ctx entry spf odd).ur i = 0) ∧ (entryRegs ctx entry spf odd).p.look 0 0 = BitVec.ofNat 16 (192 * ctx) ∧
    (entryRegs ctx entry spf odd).p.look 4 0 = BitVec.ofNat 16 (192 * ctx) ∧ (∀ i, i < 8 → (entryRegs ctx entry spf odd).n.look i 0 = 1) ∧
    (∀ d, (entryRegs ctx entry spf odd).wr d = 0) ∧ ∀ i, (entryRegs ctx entry spf odd).vr i = 0 := by
  refine ⟨rfl, rfl, fun i hi => ?_, rfl, rfl, fun i hi => ?_, fun _ => rfl, fun _ => rfl⟩
  · exact Tab.look_put_other [] 0 i _ _ hi
  · interval_cases i <;> rfl

/-- A voice task that starts: its core runs it, and its voice has a frame. -/
theorem runVoiceTask_runs (k ctx : Nat) (t : Task) (s : State) :
    ((runVoiceTask k ctx t s).core k).current = (s.core k).current ∧ ((runVoiceTask k ctx t s).voice t.slot.toNat).mix.isSome = true := by
  have held : ∀ xs (u : State), ((holdStores k t xs u).core k).current = (u.core k).current ∧ (holdStores k t xs u).voices = u.voices := fun xs u => by
    refine ⟨?_, rfl⟩
    unfold holdStores
    rw [State.setCore_same]
    split
    · rfl
    · exact (VCore.onCur_keeps _ _).2.2.2.2.2.1
  have hmix : ∀ v : Voice, ((if v.mix.isSome then v else s.voiceFrame k ctx t.slot.toNat v).mix).isSome = true := fun v => by
    split
    · assumption
    · rfl
  unfold runVoiceTask
  dsimp only
  refine ⟨?_, ?_⟩
  · rw [(held _ _).1, markRun, State.setCore_same]
    rfl
  · rw [State.voice, (held _ _).2]
    change (State.voice (State.setVoice s _ _) _).mix.isSome = true
    rw [State.setVoice_same]
    exact hmix _

-- requests for a preemption (R230, R249, R250) --------------------------------------------------------------------------------------------

/-- A decision that is traced leaves the cores. -/
theorem traceBay_core (ty unit b slot : Nat) (w2 w3 : Word) (s : State) (k : Nat) : (traceBay ty unit b slot w2 w3 s).core k = s.core k := by
  unfold traceBay tracePut
  split
  · split
    · split <;> rfl
    · split <;> rfl
  · rfl

section Preempt
variable {k ctx : Nat} {s : State} {task : Task} (hfirst : firstWith (fun t => t.kind == 1 && !t.passed) (s.core k) = some ctx)
  (hfind : (s.core k).tasks.find ctx = some task)
include hfirst hfind

/-- A request for a core with a ready LEVEL 1 task, by the core's state. -/
theorem preempt_eq : preempt k s =
    if (s.core k).inShadow then s.setCore k { s.core k with preemptReq := true }
    else if (s.core k).current.isNone then (startTask k true s).elim s fun x => x.2.2
    else if !(s.core k).runsLevel0 then s
    else if 7 ≤ (s.core k).preempts then holdAtLimit k s
    else if !(s.core k).interruptible then s.setCore k { s.core k with preemptReq := true }
    else switchSets k ctx task s := by
  unfold preempt
  dsimp only
  rw [hfirst]
  dsimp only
  rw [hfind]
  cases startTask k true s <;> rfl

/-- Over a free core the request becomes an ordinary dispatch of a LEVEL 1 task. -/
theorem preempt_free (hsh : (s.core k).inShadow = false) (hcur : (s.core k).current = none) :
    OnlyCore k s (preempt k s) ∧ ((preempt k s).core k).inShadow = false ∧ ((preempt k s).core k).current.isSome = true ∧
      ((preempt k s).core k).current = firstReady true (s.core k) := by
  have some' : (firstReady true (s.core k)).isSome = true :=
    firstWith_isSome_of_imp (Option.isSome_iff_exists.2 ⟨ctx, hfirst⟩) fun t ht => by
      obtain ⟨hkind, -⟩ := Bool.and_eq_true_iff.1 ht
      simpa using hkind
  obtain ⟨ctx', hctx'⟩ := Option.isSome_iff_exists.1 some'
  obtain ⟨t', ht'⟩ := Option.isSome_iff_exists.1 (firstWith_found hctx')
  rw [preempt_eq hfirst hfind, if_neg (by simp [hsh]), if_pos (by simp [hcur]), startTask_free hcur hsh hctx' ht',
    Option.elim_some]
  refine ⟨by rw [OnlyCore, State.setCore_same], ?_, ?_, ?_⟩
  · rw [State.setCore_same]; exact hsh
  · rw [State.setCore_same]; rfl
  · rw [State.setCore_same]; exact hctx'.symm

end Preempt

/-- At the limit the ready LEVEL 1 tasks are counted, and no request takes one any more. -/
theorem holdAtLimit_holds (k : Nat) (s : State) :
    (holdAtLimit k s).core k = { passOver (fun _ t => t.claims) (s.core k) with preemptReq := false } ∧
    (holdAtLimit k s).dsp.preemptHeld = satAdd s.dsp.preemptHeld ((s.core k).tasks.filter fun p => p.2.claims).length ∧
    ∀ p ∈ ((holdAtLimit k s).core k).tasks, p.2.claims = false := by
  have hcore : (holdAtLimit k s).core k = { passOver (fun _ t => t.claims) (s.core k) with preemptReq := false } :=
    State.setCore_same s k _
  refine ⟨hcore, rfl, fun p hp => ?_⟩
  rw [hcore] at hp
  obtain ⟨q, -, rfl⟩ := List.mem_map.1 hp
  dsimp only
  split
  · simp [Task.claims]
  next h => simpa using h

/-- The set switch for a LEVEL 1 task (R230). -/
theorem switchSets_core (k ctx : Nat) (t : Task) (s : State) : ∃ c : VCore, (switchSets k ctx t s).core k = { c with
    inShadow := true, shCurrent := some ctx, shad := s.taskRegs ctx t, shStaging := [], preempts := (s.core k).preempts + 1, preemptReq := false } ∧
    c.prim = (s.core k).prim ∧ c.current = (s.core k).current := by
  refine ⟨passOver (fun x u => x != ctx && u.claims && u.raisedClk == t.raisedClk) (s.core k), ?_, rfl, rfl⟩
  unfold switchSets
  dsimp only
  rw [traceBay_core, State.setCore_same]
  rfl

/-- A core that runs a LEVEL 0 task has a task. -/
theorem current_of_runsLevel0 {c : VCore} (h : c.runsLevel0 = true) : c.current.isNone = false := by
  unfold VCore.runsLevel0 VCore.primTask at h
  cases hc : c.current with
  | none => rw [hc] at h; exact absurd h nofun
  | some ctx => rfl

/-- Settles O32: dispatch by what a free core takes, and each case of a request. -/
theorem tasksEnterTheCores : Obligations.TasksEnterTheCores := by
  refine ⟨fun k s ctx task hk hcur hsh hfirst hfind hkind => ?dispatch, fun k s ctx task hk hcur hsh hfirst hfind hkind => ?voice,
    fun k s hk h => ?starts, fun k s hk => ⟨fun hfirst => ?noFirst, fun ctx task hfirst hfind => ?request⟩⟩
  case dispatch =>
    refine ⟨dispatchTask k s, if_pos hk, ?_⟩
    have hd : dispatchTask k s = s.setCore k { s.core k with current := some ctx, prim := s.taskRegs ctx task, staging := [] } := by
      rw [dispatchTask, startTask_free hcur hsh hfirst hfind]
      exact if_neg hkind
    have hregs : (dispatchTask k s).regs k = s.taskRegs ctx task := by
      rw [hd]
      change (State.core _ k).cur = _
      rw [State.setCore_same, VCore.cur, if_neg (by simp [hsh])]
    rw [hregs, hd, State.setCore_same]
    exact ⟨by rw [OnlyCore, State.setCore_same], rfl, rfl, entryRegs_regs _ _ _ _⟩
  case voice =>
    refine ⟨dispatchTask k s, if_pos hk, ?_⟩
    have hd : dispatchTask k s =
        runVoiceTask k ctx task (s.setCore k { s.core k with current := some ctx, prim := s.taskRegs ctx task, staging := [] }) := by
      rw [dispatchTask, startTask_free hcur hsh hfirst hfind]
      exact if_pos hkind
    obtain ⟨hrun, hmix⟩ := runVoiceTask_runs k ctx task
      (s.setCore k { s.core k with current := some ctx, prim := s.taskRegs ctx task, staging := [] })
    rw [hd]
    exact ⟨hrun.trans (by rw [State.setCore_same]), hmix⟩
  case starts =>
    have hd : dispatchTask k s = s := by rw [dispatchTask, startTask_none h]
    exact (if_pos hk).trans (congrArg Host.Outcome.next hd)
  case noFirst =>
    have hp : preempt k s = s := by
      unfold preempt
      dsimp only
      rw [hfirst]
    exact (if_pos hk).trans (congrArg Host.Outcome.next hp)
  case request =>
    have hexec : exec (.preemption k) s = .next (preempt k s) := if_pos hk
    have heq := preempt_eq hfirst hfind
    refine ⟨fun hsh => ?shadow, fun hsh hcur => ?free, fun hsh hcur hrun => ?level1, fun hsh hrun hlim => ?limit, fun hsh hrun hlim hint => ?held,
      fun hsh hrun hlim hint => ?switch⟩
    case shadow => rw [hexec, heq, if_pos hsh]
    case free => exact ⟨_, hexec, preempt_free hfirst hfind hsh hcur⟩
    case level1 => rw [hexec, heq, if_neg (by simp [hsh]), if_neg (by rw [Option.isNone_iff_eq_none]; rintro h; simp [h] at hcur), if_pos (by simp [hrun])]
    case limit =>
      have hp : preempt k s = holdAtLimit k s := by
        rw [heq, if_neg (by simp [hsh]), if_neg (by simp [current_of_runsLevel0 hrun]), if_neg (by simp [hrun]), if_pos hlim]
      obtain ⟨hcore, hheld, hclaims⟩ := holdAtLimit_holds k s
      refine ⟨_, hexec, ?_⟩
      rw [hp]
      refine ⟨?_, ?_, ?_, ?_, hheld, hclaims⟩ <;> rw [hcore]
      · rfl
      · rfl
      · exact hsh
      · rfl
    case held =>
      rw [hexec, heq, if_neg (by simp [hsh]), if_neg (by simp [current_of_runsLevel0 hrun]), if_neg (by simp [hrun]), if_neg (by omega),
        if_pos (by simp [hint])]
    case switch =>
      have hp : preempt k s = switchSets k ctx task s := by
        rw [heq, if_neg (by simp [hsh]), if_neg (by simp [current_of_runsLevel0 hrun]), if_neg (by simp [hrun]), if_neg (by omega),
          if_neg (by simp [hint])]
      obtain ⟨c, hcore, hprim, hcurrent⟩ := switchSets_core k ctx task s
      refine ⟨_, hexec, ?_⟩
      rw [hp, State.regs, hcore]
      exact ⟨rfl, rfl, rfl, rfl, hprim, hcurrent, rfl⟩

end Sys2Proof.Machine
end


section
/-! PROOFS. Doorbells and channel resets (R62, R65, R72), register writes (R8, R15, R51, R61 to R64, R260), and reads with an effect (R30, R411, R416,
R474). -/

namespace Sys2Proof.Machine

-- channels that a mask names (R62, R65) ----------------------------------------------------------------------------------------------

/-- A function of a channel is applied to each channel of a list that names none twice. -/
theorem foldl_setChan (f : Chan → Chan) (ns : List Nat) (hd : ns.Nodup) (s : State) (n : Nat) :
    (ns.foldl (fun s m => s.setChan m (f (s.chan m))) s).chan n = if n ∈ ns then f (s.chan n) else s.chan n := by
  induction ns generalizing s with
  | nil => rfl
  | cons m ns ih =>
    obtain ⟨hm, hns⟩ := List.nodup_cons.1 hd
    rw [List.foldl_cons, ih hns]
    by_cases hn : n = m
    · subst hn
      rw [if_neg hm, if_pos List.mem_cons_self, State.setChan_same]
    · rw [State.setChan_other _ _ _ _ hn]
      simp only [List.mem_cons, hn, false_or]

/-- The same over the channels whose bit of a word is 1. -/
theorem foldl_setChan_bits (f : Chan → Chan) (v : Word) (s : State) (n : Nat) (hn : n < 16) :
    (((List.range 16).filter fun m => bit v m).foldl (fun s m => s.setChan m (f (s.chan m))) s).chan n =
      if bit v n then f (s.chan n) else s.chan n := by
  rw [foldl_setChan f _ (List.nodup_range.filter _)]
  simp only [List.mem_filter, List.mem_range, hn, true_and]

/-- Ringing and resetting change channels alone. -/
theorem foldl_setChan_keeps (f : Chan → Chan) (ns : List Nat) (s : State) :
    let t := ns.foldl (fun s m => s.setChan m (f (s.chan m))) s
    t = { s with mbx := { s.mbx with chans := t.mbx.chans } } := by
  induction ns generalizing s with
  | nil => rfl
  | cons m ns ih =>
    dsimp only at ih ⊢
    rw [List.foldl_cons, ih]
    rfl

theorem ringBells_chan (v : Word) (s : State) (n : Nat) (hn : n < 16) :
    (ringBells v s).chan n = { s.chan n with doorbell := bit v n || (s.chan n).doorbell } := by
  refine (foldl_setChan_bits (fun c => { c with doorbell := true }) v s n hn).trans ?_
  cases bit v n <;> rfl

theorem requestResets_chan (v : Word) (s : State) (n : Nat) (hn : n < 16) :
    (requestResets v s).chan n = { s.chan n with resetReq := bit v n || (s.chan n).resetReq } := by
  refine (foldl_setChan_bits (fun c => { c with resetReq := true }) v s n hn).trans ?_
  cases bit v n <;> rfl

/-- Ringing the bells leaves whether a Conductor serves. -/
theorem ringBells_serving (v : Word) (s : State) : (ringBells v s).serving = s.serving := by
  have keep := foldl_setChan_keeps (fun c => { c with doorbell := true }) ((List.range 16).filter fun m => bit v m) s
  rw [show ringBells v s = _ from keep]
  rfl

/-- Where no ring holds words there is no channel to serve. -/
theorem nextChan_empty {want : State → Nat → Bool} {s : State} (h : ∀ n, n < 16 → (s.chan n).cmdPi = (s.chan n).cmdCi) :
    nextChan want s = none := by
  refine List.find?_eq_none.2 fun n hn => ?_
  obtain ⟨j, -, hj⟩ := List.mem_map.1 hn
  have hlt : n < 16 := by omega
  simp [State.holdsCommand, h n hlt]

/-- Nothing is taken while no Conductor serves, or where there is no channel to serve. -/
theorem drain_stands {want : State → Nat → Bool} {s : State} (n : Nat) (h : s.serving = false ∨ nextChan want s = none) : drain want n s = s := by
  cases n with
  | zero => rfl
  | succ n =>
    rw [drain]
    split
    next hs =>
      rw [h.resolve_left (by simp [hs])]
    next => rfl

/-- The next channel's entry is taken, and the rest served after it. -/
theorem drain_takes {want : State → Nat → Bool} {s : State} (n ch : Nat) (hs : s.serving = true) (hn : nextChan want s = some ch) :
    drain want (n + 1) s = drain want n (takeNext ch s) := by
  rw [drain, if_pos hs, hn]

-- a channel's reset (R65, R300) --------------------------------------------------------------------------------------------------------

theorem signalHost_keeps (n : Nat) (s : State) : signalHost n s = { s with out := (signalHost n s).out } := by
  unfold signalHost
  split <;> rfl

/-- A session that is marked closes. -/
theorem markClosing_closing (i : Nat) (s : State) (h : (s.session i).isOpen = true) :
    ((markClosing i none s).session i).closing.isSome = true := by
  unfold markClosing State.onSession
  rw [State.setSession_same]
  dsimp only
  rw [if_pos h]
  rfl

/-- The session of a channel stands. -/
theorem mailboxSession_isOpen {n i : Nat} (s : State) (h : mailboxSession n s = some i) : (s.session i).isOpen = true :=
  (List.mem_filter.1 (List.mem_of_find?_eq_some h)).2

/-- A channel after its reset (R65). -/
def Chan.emptied (c : Chan) : Chan :=
  { c with cmdPi := 0, cmdCi := 0, rspPi := 0, rspCi := 0, seqFree := true, rspFull := false, desync := false, held := [], resetReq := false,
           doorbell := false }

/-- The channel's commands owe it no response any more (R65). -/
def oweNone (n : Nat) (s : State) : State :=
  { s with mbx := { s.mbx with journal := s.mbx.journal.map fun x => if x.ch = n then { x with owed := false } else x } }

/-- A channel's reset, with and without a session of its own. -/
theorem resetChan_cases (s : State) (n : Nat) :
    (∃ i, mailboxSession n s = some i ∧ resetChan s n = setDbRsp n (oweNone n (markClosing i none (s.setChan n (s.chan n).emptied)))) ∨
    (mailboxSession n s = none ∧ resetChan s n = setDbRsp n (oweNone n (s.setChan n (s.chan n).emptied))) := by
  have hsession : mailboxSession n (s.setChan n (s.chan n).emptied) = mailboxSession n s := rfl
  unfold resetChan
  dsimp only
  split
  next i hi => exact Or.inl ⟨i, hsession.symm.trans hi, rfl⟩
  next hi => exact Or.inr ⟨hsession.symm.trans hi, rfl⟩

/-- The response bit of a channel is set; the rest of the mailbox and the sessions stand. -/
theorem setDbRsp_keeps (n : Nat) (s : State) :
    (setDbRsp n s).mbx = { s.mbx with dbRsp := setBit s.mbx.dbRsp n true } ∧ (setDbRsp n s).se = s.se := by
  unfold setDbRsp
  rw [signalHost_keeps]
  exact ⟨rfl, rfl⟩

/-- The mailbox after a reset. -/
theorem resetChan_mbx (s : State) (n : Nat) : (resetChan s n).mbx =
    { (s.setChan n (s.chan n).emptied).mbx with
      journal := s.mbx.journal.map (fun x => if x.ch = n then { x with owed := false } else x), dbRsp := setBit s.mbx.dbRsp n true } := by
  rcases resetChan_cases s n with ⟨i, -, h⟩ | ⟨-, h⟩ <;> rw [h, (setDbRsp_keeps n _).1] <;> rfl

/-- The session of a channel that is reset is to close. -/
theorem resetChan_closes {s : State} {n i : Nat} (hi : mailboxSession n s = some i) : ((resetChan s n).session i).closing.isSome = true := by
  rcases resetChan_cases s n with ⟨j, hj, h⟩ | ⟨hnone, -⟩
  · obtain rfl : i = j := Option.some.inj (hi.symm.trans hj)
    rw [h, State.session, (setDbRsp_keeps n _).2]
    exact markClosing_closing i (s.setChan n (s.chan n).emptied) (mailboxSession_isOpen s hi)
  · exact absurd (hi.symm.trans hnone) nofun

/-- Settles O36: bells and requests by the channels that the mask names, service by the next channel, and a reset by what it leaves. -/
theorem doorbellsRing : Obligations.DoorbellsRing := by
  intro v s
  refine ⟨fun hoff => ?none, fun n hn => ⟨ringBells_chan v s n hn, requestResets_chan v s n hn⟩, fun hoff => ?resets, fun hoff hidle => ?rings,
    fun n hs hnext => ?serves, fun n hn => ?reset⟩
  case none => exact ⟨congrArg Host.Outcome.next (if_pos hoff), congrArg Host.Outcome.next (if_pos hoff)⟩
  case resets => exact congrArg Host.Outcome.next (if_neg (by simp [hoff]))
  case rings =>
    have hserve : serveRung (ringBells v s) = ringBells v s := drain_stands _ <| hidle.imp (fun h => (ringBells_serving v s).trans h)
      fun h => nextChan_empty fun n hn => by
        rw [ringBells_chan v s n hn]
        exact h n hn
    exact congrArg Host.Outcome.next ((if_neg (by simp [hoff])).trans hserve)
  case serves =>
    have hoff : s.hostOff = false := not_hostOff_of_serving hs
    have hserve : serveRung (ringBells v s) = drain (fun t ch => (t.chan ch).doorbell) 16383 (takeNext n (ringBells v s)) :=
      drain_takes 16383 n ((ringBells_serving v s).trans hs) hnext
    exact congrArg Host.Outcome.next ((if_neg (by simp [hoff])).trans hserve)
  case reset =>
    have hmbx := resetChan_mbx s n
    have hchan : (resetChan s n).chan n = (s.chan n).emptied := by
      rw [State.chan, hmbx]
      exact State.setChan_same _ _ _
    dsimp only
    rw [hchan, hmbx]
    refine ⟨rfl, rfl, rfl, rfl, rfl, rfl, rfl, ?_, fun x hx hch => ?_, fun i hi => resetChan_closes hi⟩
    · rw [getLsbD_setBit _ _ _ _ (by omega), if_pos rfl]
    · obtain ⟨y, -, rfl⟩ := List.mem_map.1 hx
      split
      · rfl
      next hy =>
        rw [if_neg hy] at hch
        exact absurd hch hy

-- reads with an effect (R30, R411, R416, R474) -------------------------------------------------------------------------------------------

/-- SYS_BOOT_CTL in recovery mode (R476). -/
theorem bootCtl_go {v : Word} {s : State} (hr : s.inReset = false) (hrec : s.power.recovery = true) (hgo : bit v 31 = true) : bootCtl v s =
    if decide (1 ≤ bits v 16 0) && decide (bits v 16 0 ≤ 114688) && imageTagOk s.vault.ik (Mem.words s.mem.win 0x10000 (bits v 16 0)) then
      { s with power := { s.power with recovery := false, phase := 4 } }
    else { s with power := { s.power with error := 0x04 } } := by
  unfold bootCtl
  dsimp only
  rw [if_neg (by simp [hr, hrec, hgo])]
  rfl

/-- Settles O38: each read by the operation that it is, and GO by its image. -/
theorem readsAndRecoveryBoot : Obligations.ReadsAndRecoveryBoot := by
  refine ⟨fun s => ⟨_, rfl, rfl, rfl, rfl, rfl, rfl, rfl⟩, fun u s hu => ⟨_, if_pos hu, rfl, State.setUart_same _ _ _⟩,
    fun n s hn => ⟨⟨_, if_pos hn, rfl, rfl⟩, fun hq => ?empty, fun c r hq => ?head⟩, fun v s => ⟨fun h => ?stands, fun hr hrec hgo hgood => ?boots,
      fun hr hrec hgo hbad => ?fails⟩⟩
  case empty =>
    refine (if_pos hn).trans (congrArg Host.Outcome.next ?_)
    unfold readCapq
    dsimp only
    rw [if_neg (by decide), hq]
  case head =>
    refine ⟨readCapq false n s, if_pos hn, ?_⟩
    have hread : ∃ x, readCapq false n s = s.setTimer n { s.timer n with
        queue := r, capCnt := c.count, capLo := c.time.setWidth 32, capHi := (c.time >>> 32).setWidth 32, capqRead := x } := by
      unfold readCapq
      dsimp only
      rw [if_neg (by decide), hq]
      exact ⟨_, rfl⟩
    obtain ⟨x, hx⟩ := hread
    rw [hx, State.setTimer_same]
    exact ⟨rfl, rfl, rfl, rfl⟩
  case stands =>
    refine congrArg Host.Outcome.next (if_pos ?_)
    rcases h with h | h | h <;> simp [h]
  case boots =>
    obtain ⟨hlo, hhi, htag⟩ := hgood
    refine congrArg Host.Outcome.next ((bootCtl_go hr hrec hgo).trans (if_pos ?_))
    simp only [hlo, hhi, htag, decide_true, Bool.and_self]
  case fails =>
    refine congrArg Host.Outcome.next ((bootCtl_go hr hrec hgo).trans (if_neg fun h => hbad ?_))
    simp only [Bool.and_eq_true, decide_eq_true_eq] at h
    exact ⟨h.1.1, h.1.2, h.2⟩

-- register writes ------------------------------------------------------------------------------------------------------------------------

theorem foldl_signalHost_mbx (ns : List Nat) (s : State) : (ns.foldl (fun s n => signalHost n s) s).mbx = s.mbx := by
  induction ns generalizing s with
  | nil => rfl
  | cons n ns ih => rw [List.foldl_cons, ih, signalHost_keeps]

/-- A field of the clock domains leaves the rest of the time base but what it names. -/
theorem putDomField_keeps (n v : Nat) (s : State) : (putDomField n v s).time.stamp = s.time.stamp := by
  unfold putDomField
  dsimp only
  split
  case h_1 => split <;> rfl
  case h_2 => split <;> rfl
  case h_3 => split <;> rfl
  all_goals rfl

/-- Offsets of the channels' registers. -/
theorem chanOffset_toNat {n : Nat} (r : Nat) (hn : n < 16) (hr : r < 0x20) : (BitVec.ofNat 16 (0x400 + r + 0x20 * n)).toNat = 0x400 + r + 0x20 * n := by
  rw [BitVec.toNat_ofNat]
  omega

/-- A write of the host to a channel's register. -/
theorem hostWrite_chan {n : Nat} (r : Nat) (v : Word) (s : State) (hn : n < 16) (hr : r < 0x20) :
    hostWrite (0x400 + r + 0x20 * n) v 0xF s = writeChan n r v s := by
  unfold hostWrite
  simp (disch := omega) only [if_neg, if_pos]
  rw [show (0x400 + r + 0x20 * n - 0x400) / 0x20 = n by omega, show (0x400 + r + 0x20 * n - 0x400) % 0x20 = r by omega]

/-- A write of the host outside reset. -/
theorem registerWrite_host (off : BitVec 16) (v : Word) {s : State} (h : s.hostOff = false) :
    exec (.registerWrite .host off v) s = .next (hostWrite off.toNat v 0xF s) := congrArg Host.Outcome.next (if_neg (by simp [h]))

/-- A write of the active Conductor outside reset. -/
theorem registerWrite_inner (off : BitVec 16) (v : Word) {s : State} (h : s.inReset = false) :
    exec (.registerWrite .inner off v) s = .next (innerWrite off.toNat v s) := congrArg Host.Outcome.next (if_neg (by simp [h]))

/-- A write of a service core or a Conductor outside reset. -/
theorem registerWrite_work {n : Nat} (off : BitVec 16) (v : Word) {s : State} (hn : n < 6) (h : s.inReset = false) :
    exec (.registerWrite (.work n) off v) s = .next (workWrite n off.toNat v s) :=
  (if_pos hn).trans (congrArg Host.Outcome.next (if_neg (by simp [h])))

/-- A write of the active Conductor to a channel's indices. -/
theorem innerWrite_chan {n : Nat} (r : Nat) (v : Word) (s : State) (hn : n < 16) (hr : r < 0x20) : innerWrite (0x400 + r + 0x20 * n) v s =
    if r = 0x04 then s.setChan n { s.chan n with cmdCi := v.setWidth 11 }
    else if r = 0x08 then s.setChan n { s.chan n with rspPi := v.setWidth 11 } else s := by
  unfold innerWrite
  simp (disch := omega) only [if_neg, if_pos]
  rw [show (0x400 + r + 0x20 * n - 0x400) / 0x20 = n by omega, show (0x400 + r + 0x20 * n) % 0x20 = r by omega]

theorem bits_lt (v : Word) (hi lo : Nat) : bits v hi lo < 2 ^ (hi - lo + 1) := Nat.mod_lt _ (Nat.two_pow_pos _)

/-- SS_APERTURE takes its fields (R346). -/
theorem writeAperture_fields (v : Word) (s : State) : (writeAperture v s).mem.apBank.toNat = bits v 13 8 ∧
    (writeAperture v s).mem.apPage.toNat = bits v 2 0 ∧
    (writeAperture v s).mem.apAlias.toNat = (if bits v 4 3 = 3 then s.mem.apAlias.toNat else bits v 4 3) := by
  have h1 := bits_lt v 13 8
  have h2 := bits_lt v 2 0
  have h3 := bits_lt v 4 3
  refine ⟨?_, ?_, ?_⟩
  · exact (BitVec.toNat_ofNat _ _).trans (Nat.mod_eq_of_lt h1)
  · exact (BitVec.toNat_ofNat _ _).trans (Nat.mod_eq_of_lt h2)
  · unfold writeAperture
    dsimp only
    split
    · rfl
    · exact (BitVec.toNat_ofNat _ _).trans (Nat.mod_eq_of_lt h3)

/-- TM_CFG takes a field that may have its value, and RATE while the tick stands (R51). -/
theorem writeTmCfg_fields (v : Word) (s : State) : (writeTmCfg v s).time.autoSwitch = bit v 11 ∧
    (writeTmCfg v s).time.cor.toNat = (if bits v 9 8 < 3 then bits v 9 8 else s.time.cor.toNat) ∧
    (s.time.ticking = true → (writeTmCfg v s).time.rate = s.time.rate) ∧
    (s.time.ticking = false → bits v 2 0 < 6 → (writeTmCfg v s).time.rate.toNat = bits v 2 0) ∧ (writeTmCfg v s).time.stamp = s.time.stamp := by
  refine ⟨rfl, ?cor, fun ht => ?stays, fun ht hr => ?takes, ?stamp⟩
  case cor =>
    change (BitVec.ofNat 2 (allowed (decide (bits v 9 8 < 3)) (bits v 9 8) s.time.cor.toNat)).toNat = _
    rw [allowed, BitVec.toNat_ofNat]
    by_cases h : bits v 9 8 < 3
    · simp only [h, decide_true, if_true]
      omega
    · simp only [h, decide_false, if_false, Bool.false_eq_true]
      exact Nat.mod_eq_of_lt s.time.cor.isLt
  case stays =>
    change BitVec.ofNat 3 (allowed (!s.time.ticking && decide (bits v 2 0 < 6)) (bits v 2 0) s.time.rate.toNat) = _
    rw [ht, allowed, Bool.not_true, Bool.false_and, if_neg (by decide), BitVec.ofNat_toNat]
    exact BitVec.setWidth_eq _
  case takes =>
    change (BitVec.ofNat 3 (allowed (!s.time.ticking && decide (bits v 2 0 < 6)) (bits v 2 0) s.time.rate.toNat)).toNat = _
    rw [ht, allowed, if_pos (by simp [hr]), BitVec.toNat_ofNat]
    omega
  case stamp => exact (putDomField_keeps _ _ _).trans ((putDomField_keeps _ _ _).trans (putDomField_keeps _ _ _))

/-- A post word takes its value and the others stay (R260). -/
theorem workWrite_post {n i : Nat} (v : Word) (s : State) (hi : i < 4) :
    ((workWrite n (0x14 + 4 * i) v s).svc n).post.getD i 0 = v ∧
    ∀ j, j < 4 → j ≠ i → ((workWrite n (0x14 + 4 * i) v s).svc n).post.getD j 0 = (s.svc n).post.getD j 0 := by
  have hpost : ((workWrite n (0x14 + 4 * i) v s).svc n).post = (List.range 4).map fun m => if m = i then v else (s.svc n).post.getD m 0 := by
    unfold workWrite
    dsimp only
    rw [if_pos (by omega), State.setSvc_same, show (0x14 + 4 * i - 0x14) / 4 = i by omega]
  rw [hpost]
  constructor
  · interval_cases i <;> rfl
  · intro j hj hne
    interval_cases j <;> simp [hne]

/-- Settles O35: who may write, then each register. -/
theorem registerWrites : Obligations.RegisterWrites := by
  refine ⟨fun sp off v s hunit hr => ?reset, fun off v s hhost => ?noPort, fun v s hoff => ?_⟩
  case reset =>
    cases sp with
    | host => exact congrArg Host.Outcome.next (if_pos (by simp [State.hostOff, hr]))
    | inner => exact congrArg Host.Outcome.next (if_pos hr)
    | work n => exact (if_pos (hunit n rfl)).trans (congrArg Host.Outcome.next (if_pos hr))
  case noPort => exact congrArg Host.Outcome.next (if_pos (by simp [State.hostOff, hhost]))
  have hr : s.inReset = false := (Bool.or_eq_false_iff.1 hoff).1
  have host := fun off => registerWrite_host off v hoff
  refine ⟨host _, ⟨_, host _, foldl_signalHost_mbx _ _⟩, host _, ⟨_, host _, ?aperture⟩, fun n hn => ?channels,
    ⟨_, registerWrite_inner _ v hr, writeTmCfg_fields v s⟩, fun n i hn hi => ?post, fun n hn => ?mask⟩
  case aperture =>
    obtain ⟨hbank, hpage, halias⟩ := writeAperture_fields v s
    exact ⟨hbank, hpage, halias, rfl, rfl⟩
  case channels =>
    have outer := fun r (hr : r < 0x20) => (host (BitVec.ofNat 16 (0x400 + r + 0x20 * n))).trans
      (congrArg Host.Outcome.next ((congrArg (hostWrite · v 0xF s) (chanOffset_toNat r hn hr)).trans (hostWrite_chan r v s hn hr)))
    have inner := fun r (hr' : r < 0x20) => (registerWrite_inner (BitVec.ofNat 16 (0x400 + r + 0x20 * n)) v hr).trans
      (congrArg Host.Outcome.next ((congrArg (innerWrite · v s) (chanOffset_toNat r hn hr')).trans (innerWrite_chan r v s hn hr')))
    exact ⟨outer 0 (by decide), outer 0xC (by decide), outer 0x10 (by decide), inner 4 (by decide), inner 8 (by decide)⟩
  case post =>
    have hoffset : (BitVec.ofNat 16 (0x14 + 4 * i)).toNat = 0x14 + 4 * i := by
      rw [BitVec.toNat_ofNat]
      omega
    refine ⟨_, registerWrite_work _ v hn hr, ?_⟩
    rw [hoffset]
    exact workWrite_post v s hi
  case mask =>
    refine (registerWrite_work _ v (by omega) hr).trans (congrArg Host.Outcome.next ?_)
    unfold workWrite
    exact (if_neg (by decide)).trans (if_pos ⟨by decide, hn⟩)

end Sys2Proof.Machine
end


section
/-! PROOFS. Requests for work, posts and stalls (R252 to R259), and task flags (R246, R260). -/

namespace Sys2Proof.Machine

-- what a traced decision leaves (R261 to R263) -----------------------------------------------------------------------------------------

/-- Nothing but the trace differs: its ring in the Host Window, its indices and counts. -/
structure OnlyTrace (s t : State) : Prop where
  rest : t = { s with mem := { s.mem with win := t.mem.win }, dsp := t.dsp }
  dsp : t.dsp = { s.dsp with trWi := t.dsp.trWi, trGap := t.dsp.trGap, trLost := t.dsp.trLost }

theorem OnlyTrace.refl (s : State) : OnlyTrace s s := ⟨rfl, rfl⟩

theorem OnlyTrace.trans {a b c : State} (h : OnlyTrace a b) (g : OnlyTrace b c) : OnlyTrace a c := by
  refine ⟨?_, ?_⟩
  · rw [g.rest, h.rest]
  · rw [g.dsp, h.dsp]

theorem tracePut_onlyTrace (rec : List Word) (s : State) : OnlyTrace s (tracePut rec s) := by
  unfold tracePut traceWrite
  split
  · split <;> exact ⟨rfl, rfl⟩
  · split <;> exact ⟨rfl, rfl⟩

theorem traceDevice_onlyTrace (ty unit : Nat) (w2 w3 : Word) (s : State) : OnlyTrace s (traceDevice ty unit w2 w3 s) := by
  unfold traceDevice
  split
  · exact tracePut_onlyTrace _ s
  · exact OnlyTrace.refl s

theorem OnlyTrace.svc_eq {s t : State} (h : OnlyTrace s t) (n : Nat) : t.svc n = s.svc n := by
  rw [State.svc, h.dsp]
  rfl

theorem OnlyTrace.queue_eq {s t : State} (h : OnlyTrace s t) (q : Nat) : t.queue q = s.queue q := by
  rw [State.queue, h.dsp]
  rfl

-- queues and work registers ------------------------------------------------------------------------------------------------------------

@[simp] theorem State.setQueue_same (s : State) (q : Nat) (es : List (List Word)) : (s.setQueue q es).queue q = es := Tab.look_put_same _ _ _ _

@[simp] theorem State.setSvc_queue (s : State) (n : Nat) (c : ServiceCore) (q : Nat) : (s.setSvc n c).queue q = s.queue q := rfl

@[simp] theorem State.setQueue_svc (s : State) (q : Nat) (es : List (List Word)) (n : Nat) : (s.setQueue q es).svc n = s.svc n := rfl

/-- An entry that is given to a unit: its work registers take it, the preference cleared (R253). -/
theorem giveEntry_gives (who q : Nat) (e : List Word) (s : State) :
    ((giveEntry who q e s).svc who).task = (if q < 4 then e.getD 0 0 &&& ~~~0x00F80000 else e.getD 0 0) :: (e.drop 1).take 3 ∧
    ((giveEntry who q e s).svc who).waiting = false ∧ (∀ p, (giveEntry who q e s).queue p = s.queue p) ∧
    (giveEntry who q e s).dsp.stalls = s.dsp.stalls := by
  have hword : e.getD 0 0 &&& ~~~(if q < 4 then 0x00F80000 else 0 : Word) = if q < 4 then e.getD 0 0 &&& ~~~0x00F80000 else e.getD 0 0 := by
    split
    · rfl
    · exact BitVec.and_allOnes
  unfold giveEntry
  dsimp only
  rw [hword]
  have trace := traceDevice_onlyTrace 0x0D (unitCode who) (BitVec.ofNat 32 q) (BitVec.ofNat 32 (Nat.min (s.svc who).waited 0xFFFFFFFF))
    (s.setSvc who { s.svc who with
      task := (if q < 4 then e.getD 0 0 &&& ~~~0x00F80000 else e.getD 0 0) :: (e.drop 1).take 3, lastAsk := BitVec.ofNat 3 q,
      waiting := false, waited := 0 })
  rw [trace.svc_eq, State.setSvc_same]
  refine ⟨rfl, rfl, fun p => trace.queue_eq p, ?_⟩
  rw [trace.dsp]
  rfl

/-- A post that is refused is counted (R256). -/
theorem countRefused_counts (unit producer q : Nat) (s : State) : (countRefused unit producer q s).dsp.refused = satInc s.dsp.refused ∧
    (∀ p, (countRefused unit producer q s).queue p = s.queue p) ∧ (∀ n, (countRefused unit producer q s).svc n = s.svc n) ∧
    (countRefused unit producer q s).dsp.stalls = s.dsp.stalls := by
  have trace := traceDevice_onlyTrace 0x0B unit (pack [(producer, 8), (q, 0)]) 0 { s with dsp := { s.dsp with refused := satInc s.dsp.refused } }
  have hdsp : (countRefused unit producer q s).dsp = _ := trace.dsp
  refine ⟨by rw [hdsp], fun p => trace.queue_eq p, fun n => trace.svc_eq n, by rw [hdsp]⟩

/-- The end of a stall frees its producer (R258). -/
theorem endStall_frees (who : Nat) (result : BitVec 1) (s : State) : ((endStall who result s).svc who).stall = none ∧
    ((endStall who result s).svc who).goResult = result ∧ (endStall who result s).dsp.refused = s.dsp.refused ∧
    who ∉ (endStall who result s).dsp.stalls := by
  unfold endStall
  dsimp only
  have trace := fun a b c d u => traceDevice_onlyTrace a b c d u
  rw [(trace _ _ _ _ _).svc_eq, (trace _ _ _ _ _).dsp]
  refine ⟨?_, ?_, rfl, ?_⟩
  · change ((s.setSvc who _).svc who).stall = none
    rw [State.setSvc_same]
  · change ((s.setSvc who _).svc who).goResult = result
    rw [State.setSvc_same]
  · change who ∉ s.dsp.stalls.filter fun w => w != who
    simp

-- asking (R252 to R254) ------------------------------------------------------------------------------------------------------------------

/-- The queues that a unit may take from, in order. -/
def State.asksOf (s : State) (who : Nat) : List Nat :=
  if who < 4 then (List.range 4).filter fun q => (s.svc who).mask.getLsbD q else if who = s.activeCond then [4] else []

theorem askWork_eq (who : Nat) (s : State) : askWork who s =
    ((s.asksOf who).find? fun q => !(s.queue q).isEmpty).elim (s.setSvc who { s.svc who with waiting := true, waited := 0 })
      fun q => giveOldest who q s := by
  have hqs : (if who < 4 then (List.range 4).filter fun q => (s.askMask who).getLsbD q else if who = s.activeCond then [4] else []) =
      s.asksOf who := by
    unfold State.asksOf State.askMask
    split <;> rfl
  unfold askWork
  dsimp only
  rw [hqs]
  cases (s.asksOf who).find? fun q => !(s.queue q).isEmpty <;> rfl

/-- The oldest entry of a queue, where no producer is stalled. -/
theorem giveOldest_gives {who q : Nat} {x : List Word} {r : List (List Word)} {s : State} (hq : s.queue q = x :: r) (hs : s.dsp.stalls = []) :
    giveOldest who q s = giveEntry who q x (s.setQueue q r) := by
  have hstalls := (giveEntry_gives who q x (s.setQueue q r)).2.2.2
  unfold giveOldest
  rw [hq]
  dsimp only
  unfold releaseStall
  rw [hstalls.trans hs]
  rfl

-- posting (R252, R256, R258) ----------------------------------------------------------------------------------------------------------------

/-- The post words of a unit. -/
def State.posted (s : State) (who : Nat) : List Word := (List.range 4).map fun i => (s.svc who).post.getD i 0

section Post
variable {who q : Nat} {s : State} (hq : entryQueue (s.posted who) = q) (h5 : q < 5)
include hq h5

/-- A post that its queue or a waiting unit takes. -/
theorem postGo_enters {t : State} (he : enterQueue q (s.posted who) s = some t) :
    postGo who s = t.setSvc who { t.svc who with goResult := 0 } := by
  subst hq
  unfold postGo
  dsimp only
  change (if 5 ≤ entryQueue (s.posted who) then _ else match enterQueue (entryQueue (s.posted who)) (s.posted who) s with | some t => _ | none => _) = _
  rw [if_neg (by omega), he]

/-- A post into a full queue. -/
theorem postGo_full (he : enterQueue q (s.posted who) s = none) : postGo who s =
    if s.dsp.backpressure then
      { s.setSvc who { s.svc who with stall := some q, stalledFor := 0, post := s.posted who } with
        dsp := { (s.setSvc who { s.svc who with stall := some q, stalledFor := 0, post := s.posted who }).dsp with
          stalls := s.dsp.stalls ++ [who], stalled := satInc s.dsp.stalled } }
    else countRefused (unitCode who) (producerOf who) q (s.setSvc who { s.svc who with goResult := 1 }) := by
  subst hq
  unfold postGo
  dsimp only
  change (if 5 ≤ entryQueue (s.posted who) then _ else match enterQueue (entryQueue (s.posted who)) (s.posted who) s with | some t => _ | none => _) = _
  rw [if_neg (by omega), he]
  rfl

end Post

/-- A unit that waits over an empty queue takes the post. -/
theorem enterQueue_given {q w : Nat} {e : List Word} {s : State} (hq : s.queue q = []) (hw : pickWaiter q e s = some w) :
    enterQueue q e s = some (giveEntry w q e s) := by
  unfold enterQueue directAsker
  rw [hq]
  dsimp only [List.isEmpty_nil]
  rw [if_pos rfl, hw]

/-- Without one the post goes behind the others. -/
theorem enterQueue_queued {q : Nat} {e : List Word} {s : State} (hw : s.queue q ≠ [] ∨ pickWaiter q e s = none)
    (hlen : (s.queue q).length < queueDepth q) : enterQueue q e s = some (s.setQueue q (s.queue q ++ [e])) := by
  have hdirect : directAsker q e s = none := by
    unfold directAsker
    split
    next hempty => exact hw.resolve_left fun h => h (List.isEmpty_iff.1 hempty)
    next => rfl
  unfold enterQueue
  rw [hdirect]
  exact if_pos hlen

/-- A full queue takes none. -/
theorem enterQueue_full {q : Nat} {e : List Word} {s : State} (hlen : queueDepth q ≤ (s.queue q).length) : enterQueue q e s = none := by
  have hpos : 0 < queueDepth q := by
    unfold queueDepth
    split <;> decide
  have hdirect : directAsker q e s = none := by
    refine if_neg fun h => ?_
    rw [List.isEmpty_iff.1 h, List.length_nil] at hlen
    omega
  unfold enterQueue
  rw [hdirect]
  exact if_neg (by omega)

-- task flags (R260) ---------------------------------------------------------------------------------------------------------------------

/-- Settles O37: a read by what its queues hold, a post by what its queue takes, and a flag write by its task. -/
theorem workIsAskedPostedAndStalled : Obligations.WorkIsAskedPostedAndStalled := by
  refine ⟨fun who s hwho => ?_, fun who s hwho => ?_⟩
  · have ask : exec (.dspAsk who) s = .next (askWork who s) := if_pos hwho
    have stalled : (s.svc who).stall ≠ none → exec (.dspPostGo who) s = .next s := fun h =>
      (if_pos hwho).trans (congrArg Host.Outcome.next (if_pos (Option.isSome_iff_ne_none.2 h)))
    have go : (s.svc who).stall = none → exec (.dspPostGo who) s = .next (postGo who s) := fun h =>
      (if_pos hwho).trans (congrArg Host.Outcome.next (if_neg (by simp [h])))
    refine ⟨fun hnone => ?waits, fun q x r hfind hq hs => ?takes, stalled, fun w hst h5 hq hw => ?given, fun hst h5 hw hlen => ?queued,
      fun hst h5 hlen hbp => ?refused, fun hst h5 hlen hbp => ?stalls⟩
    case waits =>
      have hfind : ((s.asksOf who).find? fun q => !(s.queue q).isEmpty) = none :=
        List.find?_eq_none.2 fun q hq => by simp [hnone q hq]
      rw [ask, askWork_eq, hfind]
      rfl
    case takes =>
      have hfind' : ((s.asksOf who).find? fun q => !(s.queue q).isEmpty) = some q := hfind
      obtain ⟨htask, hwaiting, hqueue, -⟩ := giveEntry_gives who q x (s.setQueue q r)
      refine ⟨_, ask, ?_⟩
      rw [askWork_eq, hfind', Option.elim_some, giveOldest_gives hq hs]
      exact ⟨(hqueue q).trans (State.setQueue_same _ _ _), htask, hwaiting⟩
    case given =>
      obtain ⟨htask, hwaiting, hqueue, -⟩ := giveEntry_gives w _ (s.posted who) s
      refine ⟨_, go hst, ?_⟩
      rw [postGo_enters rfl h5 (enterQueue_given hq hw)]
      refine ⟨(hqueue _).trans hq, ?_, ?_, ?_⟩
      · by_cases hww : w = who
        · subst hww
          rw [State.setSvc_same]
          exact hwaiting
        · rw [State.setSvc_other _ _ _ _ hww]
          exact hwaiting
      · rw [State.setSvc_same]
      · by_cases hww : w = who
        · subst hww
          rw [State.setSvc_same]
          exact htask
        · rw [State.setSvc_other _ _ _ _ hww]
          exact htask
    case queued =>
      refine ⟨_, go hst, ?_⟩
      rw [postGo_enters rfl h5 (enterQueue_queued hw hlen)]
      exact ⟨State.setQueue_same _ _ _, by rw [State.setSvc_same]⟩
    case refused =>
      refine ⟨_, go hst, ?_⟩
      rw [postGo_full rfl h5 (enterQueue_full hlen), if_neg (by simp [hbp])]
      obtain ⟨hcount, hqueue, hsvc, -⟩ := countRefused_counts (unitCode who) (producerOf who) (entryQueue (s.posted who))
        (s.setSvc who { s.svc who with goResult := 1 })
      exact ⟨hqueue _, by rw [hsvc, State.setSvc_same], hcount⟩
    case stalls =>
      refine ⟨_, go hst, ?_⟩
      rw [postGo_full rfl h5 (enterQueue_full hlen), if_pos hbp]
      refine ⟨?_, rfl, rfl, rfl⟩
      change ((s.setSvc who _).svc who).stall = _
      rw [State.setSvc_same]
      rfl
  · refine ⟨fun hst => ?none, fun q hst => ?ends, fun v x hx => ⟨fun hf => ?flag, fun hf => ?otherFlag⟩, fun v hx => ?noTask⟩
    case none =>
      refine (if_pos hwho).trans (congrArg Host.Outcome.next ?_)
      rw [hst]
    case ends =>
      refine ⟨countRefused (unitCode who) (producerOf who) q (endStall who 1 s), (if_pos hwho).trans (congrArg Host.Outcome.next ?_), ?_⟩
      · rw [hst]
      · obtain ⟨hcount, -, hsvc, hstalls⟩ := countRefused_counts (unitCode who) (producerOf who) q (endStall who 1 s)
        obtain ⟨hfree, hresult, hrefused, hgone⟩ := endStall_frees who 1 s
        rw [hsvc, hcount, hstalls, hrefused]
        exact ⟨hfree, hresult, rfl, hgone⟩
    case flag =>
      refine ⟨setTaskFlag v s, if_pos hwho, ?_⟩
      have hset : setTaskFlag v s = s.setCore (bits v 21 16) { s.core (bits v 21 16) with
          tasks := (s.core (bits v 21 16)).tasks.put (bits v 13 8) { x with flags := setBit x.flags 3 (bit v 24) } } := by
        unfold setTaskFlag
        dsimp only
        rw [hx]
        exact if_pos hf
      rw [hset, State.setCore_same]
      exact ⟨by rw [OnlyCore, State.setCore_same], Tab.find_put_same _ _ _⟩
    case otherFlag =>
      refine (if_pos hwho).trans (congrArg Host.Outcome.next ?_)
      unfold setTaskFlag
      dsimp only
      rw [hx]
      exact if_neg hf
    case noTask =>
      refine (if_pos hwho).trans (congrArg Host.Outcome.next ?_)
      unfold setTaskFlag
      dsimp only
      rw [hx]

end Sys2Proof.Machine
end


section
/-! PROOFS. Time, staging, journal and session commands (R25, R53 to R56, R91 to R96, R316 to R320): what their cards do once every check has passed. -/

namespace Sys2Proof.Machine

-- cards that answer at validation, and cards that wait (R75) -------------------------------------------------------------------------

/-- A card whose run answers at once completes at validation. -/
theorem completes_of_run {i : Entry → Instr} {c : Card} {ws : Entry → State → List Word} {f : Entry → State → State}
    (hrow : ∀ e s, exec (i e) s = command c e s) (hrun : ∀ e b, c.run e b = finishNow c.opcode e (ws e b) (f e b)) : Completes i c ws f :=
  fun e s h => by rw [DoneNow, hrow, command_accepted h, hrun]

/-- A card whose run queues the command waits for the boundary. -/
theorem waits_of_run {i : Entry → Instr} {c : Card} {bay : Entry → Nat} (hrow : ∀ e s, exec (i e) s = command c e s)
    (hrun : ∀ e b, c.run e b = queueBoundary c.opcode e { bay := bay e } b) : Waits i c bay :=
  fun e s h => by rw [WaitsBoundary, hrow, command_accepted h, hrun]

/-- A command that is queued adds its journal entry in front of the others. -/
theorem queueBoundary_journal (op : Nat) (e : Entry) (jb : Job) (s : State) :
    (queueBoundary op e jb s).mbx.journal = newEntry op e .queued 0 0 s :: s.mbx.journal.take 4095 := rfl

/-- Its job stands among those that wait for the boundary. -/
theorem queueBoundary_waits (op : Nat) (e : Entry) (jb : Job) (s : State) :
    ∃ x ∈ (queueBoundary op e jb s).mbx.jobs, x.opcode = op ∧ x.e = e ∧ x.phase = .boundary ∧ x.j = s.mbx.nextJ ∧ x.slot = jb.slot :=
  ⟨_, List.mem_append_right _ List.mem_cons_self, rfl, rfl, rfl, rfl, rfl⟩

/-- A response changes the channels, HW_DB_RSP, the Host Window and what the device sends out alone. -/
theorem respond_only (ch : Nat) (r : Resp) (s : State) : let t := respond ch r s
    t = { s with mbx := { s.mbx with chans := t.mbx.chans, dbRsp := t.mbx.dbRsp }, mem := { s.mem with win := t.mem.win }, out := t.out } := by
  unfold respond writeResp setDbRsp signalHost
  dsimp only
  split
  · split <;> rfl
  · rfl

/-- So does an answer. -/
theorem answer_only (e : Entry) (st : Status) (j : Word) (ws : List Word) (final : Bool) (s : State) : let t := answer e st j ws final s
    t = { s with mbx := { s.mbx with chans := t.mbx.chans, dbRsp := t.mbx.dbRsp }, mem := { s.mem with win := t.mem.win }, out := t.out } := by
  unfold answer
  split
  · rfl
  · exact respond_only _ _ _

-- the clock of record (R42, R43, R55) ------------------------------------------------------------------------------------------------

/-- What a reference follows leaves the time alone. -/
theorem gptpRef_time (s : State) : (gptpRef s).time = s.time := by
  unfold gptpRef loseReference
  split
  · rfl
  split <;> rfl

theorem startCor_cor (c : BitVec 2) (s : State) : (startCor c s).time.cor = s.time.cor := by
  unfold startCor
  rw [gptpRef_time]
  rfl

theorem startCor_autoSwitch (c : BitVec 2) (s : State) : (startCor c s).time.autoSwitch = s.time.autoSwitch := by
  unfold startCor
  rw [gptpRef_time]
  rfl

/-- TIME.CLOCK.SELECT writes COR and AUTO, and answers what TM_STATUS then says. -/
theorem applyClockSelect_writes (e : Entry) (s : State) : ∃ t ws, applyClockSelect e s = (t, ws) ∧
    t.time.cor.toNat = bits (e.pw 0) 9 8 ∧ t.time.autoSwitch = bit (e.pw 0) 11 ∧ ws = [t.tmStatus &&& 0xFF] := by
  have hlt : bits (e.pw 0) 9 8 < 2 ^ 2 := Nat.mod_lt _ (by decide)
  refine ⟨_, _, rfl, ?_, ?_, rfl⟩
  · dsimp only [applyClockSelect]
    split
    · exact Nat.mod_eq_of_lt hlt
    · rw [startCor_cor]
      exact Nat.mod_eq_of_lt hlt
  · dsimp only [applyClockSelect]
    split
    · rfl
    · rw [startCor_autoSwitch]

-- change of base rate (R25, R54) -------------------------------------------------------------------------------------------------------

/-- The phase of a domain enters its record alone. -/
theorem absorbPhase_keeps (s : State) (d : Nat) : absorbPhase s d = { s with time := { s.time with doms := (absorbPhase s d).time.doms } } := by
  unfold absorbPhase
  dsimp only
  split <;> rfl

/-- The phases gathered so far enter the domains' records alone. -/
theorem tickPhase_keeps (s : State) :
    tickPhase s = { s with time := { s.time with doms := (tickPhase s).time.doms, phaseDt := s.time.deviceTime } } := by
  unfold tickPhase
  dsimp only
  split
  · rw [List.foldl_cons, List.foldl_cons, List.foldl_nil, absorbPhase_keeps (absorbPhase s 0) 2, absorbPhase_keeps s 0]
  · rfl

/-- TIME.RATE.SET stops the tick, keeps the stamp as it reads, and queues the command. -/
theorem rateSet_stops (e : Entry) (b : State) : let t := cardTimeRateSet.run e b
    t.time.ticking = false ∧ t.time.newRate.toNat = bits (e.pw 0) 2 0 ∧ t.time.stamp = b.liveStamp ∧
      t.mbx.journal = newEntry 0x101 e .queued 0 0 b :: b.mbx.journal.take 4095 ∧ t.time.frameCount = b.time.frameCount ∧
      t.mbx.epoch = nextEpoch b.mbx.epoch := by
  dsimp only [cardTimeRateSet]
  rw [tickPhase_keeps]
  refine ⟨rfl, ?_, rfl, rfl, rfl, rfl⟩
  show ((e.pw 0).setWidth 3).toNat = _
  simp [bits]

-- the staged set (R82, R94) ------------------------------------------------------------------------------------------------------------

/-- Rolling a command back marks its journal entry alone. -/
theorem rollBack_keeps (j : Word) (e : Entry) (s : State) :
    rollBack j e false s = { s with mbx := { s.mbx with journal := (rollBack j e false s).mbx.journal } } := rfl

/-- A journal entry that a roll-back names is rolled back; another one stays. -/
theorem mem_journal_rollBack {j : Word} {e : Entry} {s : State} {x : JEntry} (h : x ∈ (rollBack j e false s).mbx.journal) :
    (x.idx = j ∧ x.st = .rolledBack ∧ x.status = pRolledBack) ∨ (x.idx ≠ j ∧ x ∈ s.mbx.journal) := by
  obtain ⟨y, hy, rfl⟩ := List.mem_map.1 h
  dsimp only
  split
  next hj => exact .inl ⟨hj, rfl, rfl⟩
  next hj => exact .inr ⟨hj, hy⟩

/-- The commands of a list rolled back, in order: every entry that one names, or that was so before, is rolled back. -/
theorem foldl_rollBack (js : List Word) (s : State) : let t := js.foldl (fun s j => rollBack j {} false s) s
    t = { s with mbx := { s.mbx with journal := t.mbx.journal } } ∧ t.mbx.journal.length = s.mbx.journal.length ∧
    ∀ x ∈ t.mbx.journal, (x.idx ∈ js → x.st = .rolledBack ∧ x.status = pRolledBack) ∧
      (x.idx ∉ js → x ∈ s.mbx.journal) := by
  induction js generalizing s with
  | nil => exact ⟨rfl, rfl, fun x hx => ⟨fun h => absurd h List.not_mem_nil, fun _ => hx⟩⟩
  | cons j js ih =>
    obtain ⟨keeps, len, marks⟩ := ih (rollBack j {} false s)
    dsimp only at keeps len marks ⊢
    rw [List.foldl_cons]
    refine ⟨keeps.trans rfl, len.trans (List.length_map _), fun x hx => ?_⟩
    obtain ⟨hin, hout⟩ := marks x hx
    constructor
    · intro hmem
      by_cases hjs : x.idx ∈ js
      · exact hin hjs
      · obtain ⟨-, hmark⟩ | ⟨hne, -⟩ := mem_journal_rollBack (hout hjs)
        · exact hmark
        · exact absurd hmem (by simp [hne, hjs])
    · intro hnot
      obtain ⟨hne, hjs⟩ := not_or.1 (mt List.mem_cons.2 hnot)
      obtain ⟨he, -⟩ | ⟨-, hold⟩ := mem_journal_rollBack (hout hjs)
      · exact absurd he hne
      · exact hold

-- cards with more than one way -------------------------------------------------------------------------------------------------------

theorem journalQuery_finds {e : Entry} {b : State} {x : JEntry} (hx : journalSeek e b = some (some x)) :
    cardJournalQuery.run e b = answer e stDone 0 (journalWords x) true b := by
  simp only [cardJournalQuery, hx, finishUnjournalled]

theorem journalQuery_notSeen {e : Entry} {b : State} (hx : journalSeek e b = some none) :
    cardJournalQuery.run e b = answer e stDone 0 [0, 0, 0, pack [(bits (e.pw 0) 19 0, 0)], 0, 0] true b := by
  simp only [cardJournalQuery, hx, finishUnjournalled]

theorem eventSend_enters {e : Entry} {b : State} {i : Nat} (hi : mailboxSession e.ch (ensureMailboxSession e.ch b) = some i) :
    let r := enterPackets e i (packetsOf e) (ensureMailboxSession e.ch b)
    cardEventSend.run e b = finishNow 0x210 e [pack [(i, 0), ((r.1.session i).tag.toNat, 8)], BitVec.ofNat 32 r.2] r.1 := by
  simp only [cardEventSend, hi]

-- the three groups ------------------------------------------------------------------------------------------------------------------------

theorem sessionClose_marks (e : Entry) (b : State) : (markClosing (namedId e) (some (bit (e.pw 0) 16)) b).session (namedId e) =
    if (b.session (namedId e)).isOpen then { b.session (namedId e) with closing := some (bit (e.pw 0) 16) } else b.session (namedId e) := by
  unfold markClosing State.onSession
  rw [State.setSession_same]
  rfl

/-- Settles O14: a card's run on the state that `begun` names, through the lemma for each way in which it goes on. -/
theorem timeStagingAndSessionCommands : Obligations.TimeStagingAndSessionCommands := by
  refine ⟨⟨?_, ?_, ?_, ?_, ?_⟩, ⟨?_, ?_, ?_, ?_, ?_⟩, ⟨?_, ?_, ?_, ?_, ?_⟩⟩
  case refine_1 => exact completes_of_run (fun _ _ => rfl) (fun _ _ => rfl)
  case refine_2 => exact waits_of_run (fun _ _ => rfl) (fun _ _ => rfl)
  case refine_3 =>
    intro jb s hop
    obtain ⟨t, ws, happ, hw⟩ := applyClockSelect_writes jb.e s
    refine ⟨t, ws, ?_, hw⟩
    rw [← happ]
    simp only [boundaryEffect, hop, if_pos]
  case refine_4 => exact fun e s h => command_accepted h
  case refine_5 => exact fun e s h => ⟨_, command_accepted h, rateSet_stops e _⟩
  case refine_6 => exact fun e s h => command_accepted h
  case refine_7 => exact fun e s h => command_accepted h
  case refine_8 =>
    intro e s h
    exact ⟨fun x hx => (command_accepted h).trans (congrArg _ (journalQuery_finds hx)),
      fun hx => (command_accepted h).trans (congrArg _ (journalQuery_notSeen hx))⟩
  case refine_9 =>
    intro e s h
    exact ⟨fun hs => (command_accepted h).trans (congrArg _ (if_neg (by simp [hs]))),
      fun hs => (command_accepted h).trans (congrArg _ (if_pos hs))⟩
  case refine_10 =>
    intro e s h
    obtain ⟨keeps, len, marks⟩ := foldl_rollBack (begun cardConfigDiscard e s).mbx.stagedCmds
      { begun cardConfigDiscard e s with mbx := { (begun cardConfigDiscard e s).mbx with staged := [], stagedCmds := [] } }
    refine ⟨_, command_accepted h, ?_, ?_, fun x hx hin => (marks x hx).1 (List.contains_iff_mem.1 hin), len⟩
    · rw [keeps]
    · rw [keeps]
  case refine_11 => exact completes_of_run (fun _ _ => rfl) (fun _ _ => rfl)
  case refine_12 => exact completes_of_run (fun _ _ => rfl) (fun _ _ => rfl)
  case refine_13 =>
    intro e s h
    exact ⟨fun hs => (command_accepted h).trans (congrArg _ (if_pos hs)),
      fun hs => (command_accepted h).trans (congrArg _ (if_neg (by simp [hs])))⟩
  case refine_14 =>
    intro e s h
    obtain ⟨jb, hjb, hop, he, hph, -⟩ := queueBoundary_waits 0x203 e {} (begun cardSessionClose e s)
    exact ⟨_, command_accepted h, ⟨jb, hjb, hop, he, hph⟩, sessionClose_marks e (queueBoundary 0x203 e {} (begun cardSessionClose e s))⟩
  case refine_15 =>
    intro e s i h b1 hi
    exact (command_accepted h).trans (congrArg _ (eventSend_enters hi))

end Sys2Proof.Machine
end


section
/-! PROOFS. Voice, part, placement and decimator commands (R98 to R102, R128 to R134, R155, R162, R163). -/

namespace Sys2Proof.Machine

-- the slot that a start takes (R102) -----------------------------------------------------------------------------------------------

/-- A slot is taken from the pool alone. -/
theorem takeSlot_keeps {s s1 : State} {i : Nat} (h : takeSlot s = some (i, s1)) : s1 = { s with nextFresh := s1.nextFresh, freed := s1.freed } := by
  unfold takeSlot at h
  split at h
  · obtain ⟨rfl, rfl⟩ := Prod.mk.inj (Option.some.inj h)
    rfl
  split at h
  · exact absurd h (by simp)
  next hf =>
    obtain ⟨rfl, rfl⟩ := Prod.mk.inj (Option.some.inj h)
    rfl

/-- The pool is all that decides whether a slot is free. -/
theorem takeSlot_isSome_congr {s t : State} (hn : t.nextFresh = s.nextFresh) (hf : t.freed = s.freed) :
    (takeSlot t).isSome = (takeSlot s).isSome := by
  unfold takeSlot
  rw [hn, hf]
  split
  · rfl
  split <;> simp_all

/-- Opening a session and counting lateness leave the pool of slots. -/
theorem begun_pool (c : Card) (e : Entry) (s : State) :
    (begun c e s).nextFresh = (entered c e s).nextFresh ∧ (begun c e s).freed = (entered c e s).freed := by
  have opens : ∀ (ch : Nat) (t : State), (ensureMailboxSession ch t).nextFresh = t.nextFresh ∧ (ensureMailboxSession ch t).freed = t.freed := by
    intro ch t
    unfold ensureMailboxSession openSession
    split
    · exact ⟨rfl, rfl⟩
    split
    next ho =>
      split at ho
      · exact absurd ho (by simp)
      · obtain ⟨rfl, rfl⟩ := Prod.mk.inj (Option.some.inj ho)
        exact ⟨rfl, rfl⟩
    next => exact ⟨rfl, rfl⟩
  have counts : ∀ (sid : Option Nat) (n : Nat) (t : State), (countLate sid n t).nextFresh = t.nextFresh ∧ (countLate sid n t).freed = t.freed := by
    intro sid n t
    cases sid <;> exact ⟨rfl, rfl⟩
  unfold begun stampAdmit
  split
  · dsimp only
    split
    · exact ⟨(counts _ _ _).1.trans (opens _ _).1, (counts _ _ _).2.trans (opens _ _).2⟩
    · exact opens _ _
  · exact ⟨rfl, rfl⟩

/-- A check that holds gives no failure. -/
theorem need_none {ok : Bool} {st : Status} (h : need ok st = none) : ok = true := by
  unfold need at h
  split at h
  · assumption
  · exact absurd h (by simp)

/-- Every check of a list that gives no failure holds. -/
theorem firstFail_none {cs : List (Option Fail)} (h : firstFail cs = none) : ∀ c ∈ cs, c = none := by
  induction cs with
  | nil => exact fun c hc => absurd hc List.not_mem_nil
  | cons c cs ih =>
    cases c with
    | some f => exact absurd h (by simp [firstFail])
    | none =>
      intro d hd
      obtain rfl | hd := List.mem_cons.1 hd
      · rfl
      · exact ih h d hd

/-- Where every check of a card passes, its steps 11 to 14 do. -/
theorem Accepted.post {c : Card} {e : Entry} {s : State} (h : Accepted c e s) : c.post e (entered c e s) = none :=
  firstFail_none h.checks _ (by simp)

/-- An accepted VOICE.START finds a free slot. -/
theorem voiceStart_slot {e : Entry} {s : State} (h : Accepted cardVoiceStart e s) :
    ∃ i s1, takeSlot (begun cardVoiceStart e s) = some (i, s1) := by
  have hcheck : need (takeSlot (entered cardVoiceStart e s)).isSome eNoslot = none := firstFail_none h.post _ (by simp)
  have hslot := need_none hcheck
  obtain ⟨hn, hf⟩ := begun_pool cardVoiceStart e s
  rw [← takeSlot_isSome_congr hn hf] at hslot
  obtain ⟨⟨i, s1⟩, hi⟩ := Option.isSome_iff_exists.1 hslot
  exact ⟨i, s1, hi⟩

-- the voice that a start makes (R99, R101, R102, R155) -----------------------------------------------------------------------------------

/-- The voice of slot `i` is the one that `q` asks for: PENDING, under the generation after `g` (R101, R102). -/
structure Asked (q : StartReq) (g : BitVec 16) (v : Voice) : Prop where
  pending : v.st = .pending
  inUse : v.inUse = true
  part : v.part = q.part
  note : v.note = q.note
  velocity : v.velocity = q.velocity
  template : v.template = q.template
  gen : v.gen = nextGen g

/-- An accepted start stands in the slot it took; the mailbox and the Session Engine are as they were. -/
theorem acceptStart_asked (q : StartReq) {s s1 : State} {i : Nat} (h : takeSlot s = some (i, s1)) :
    ∃ t, acceptStart q s = some (i, t) ∧ Asked q (s1.voice i).gen (t.voice i) ∧ t.mbx = s.mbx ∧ t.se = s.se := by
  unfold acceptStart
  rw [h]
  have keeps := takeSlot_keeps h
  refine ⟨_, rfl, ?_, ?_, ?_⟩
  · unfold State.onPart
    rw [State.setPartCtr_voice_at]
    show Asked q _ ((s1.setVoice i _).voice i)
    rw [State.setVoice_same]
    exact ⟨rfl, rfl, rfl, rfl, rfl, rfl, rfl⟩
  · exact (congrArg (fun u => u.mbx) keeps :)
  · exact (congrArg (fun u => u.se) keeps :)

/-- The times of a start change nothing of what it asked for. -/
theorem setTimes_asked {q : StartReq} {g : BitVec 16} {s : State} {i : Nat} (h : Asked q g (s.voice i)) (t : Word) (x : StartTimes) (u : Bool) :
    Asked q g ((setTimes i t x u s).voice i) := by
  unfold setTimes
  rw [State.setVoice_same]
  obtain ⟨hst, hin, hp, hn, hv, ht, hg⟩ := h
  exact ⟨hst, hin, hp, hn, hv, ht, hg⟩

theorem countLate_voice (sid : Option Nat) (n : Nat) (s : State) (i : Nat) : (countLate sid n s).voice i = s.voice i := by
  cases sid <;> rfl

theorem countLate_order (sid : Option Nat) (n : Nat) (s : State) : (countLate sid n s).se.order = s.se.order := by
  cases sid <;> rfl

/-- A command that waits for its stamp leaves the voices, and takes the next number of the timeline. -/
theorem queueStamped_keeps (op : Nat) (e : Entry) (jb : Job) (key : Word) (ws : List Word) (s : State) (i : Nat) :
    (queueStamped op e jb key ws s).voice i = s.voice i ∧ (queueStamped op e jb key ws s).se.order = s.se.order + 1 := by
  unfold queueStamped
  refine ⟨?_, ?_⟩
  · exact (congrArg (fun u => u.voice i) (answer_only _ _ _ _ _ _) :)
  · exact (congrArg (fun u => u.se.order) (answer_only _ _ _ _ _ _) :)

/-- VOICE.START makes the voice that its entry asks for, in the slot of the longest free voice, and waits. -/
theorem runVoiceStart_asked (c : Card) (e : Entry) {b s1 : State} {i : Nat} (h : takeSlot b = some (i, s1)) : let t := runVoiceStart c e b
    Asked (startOf e b) (s1.voice i).gen (t.voice i) ∧
    (e.stamped = false → t.mbx.nextJ = nextIndex b.mbx.nextJ ∧ ∃ jb ∈ t.mbx.jobs, jb.j = b.mbx.nextJ ∧ jb.slot = i ∧ jb.phase = .boundary) ∧
    (e.stamped = true → t.se.order = b.se.order + 1) := by
  obtain ⟨t, ht, asked, hmbx, hse⟩ := acceptStart_asked (startOf e b) h
  unfold runVoiceStart
  rw [ht]
  dsimp only
  by_cases hs : e.stamped = true
  · rw [if_pos hs]
    refine ⟨?_, fun h => absurd (hs.symm.trans h) (by decide), fun _ => ?_⟩
    · rw [(queueStamped_keeps _ _ _ _ _ _ i).1]
      split
      · rw [countLate_voice]
        exact setTimes_asked asked _ _ _
      · exact setTimes_asked asked _ _ _
    · rw [(queueStamped_keeps _ _ _ _ _ _ i).2, ← hse]
      split
      · rw [countLate_order]
        rfl
      · rfl
  · rw [if_neg hs]
    refine ⟨setTimes_asked asked _ _ _, fun _ => ?_, fun h => absurd h hs⟩
    rw [← hmbx]
    refine ⟨rfl, ?_⟩
    obtain ⟨jb, hjb, -, -, hph, hj, hslot⟩ := queueBoundary_waits _ _ _ _
    exact ⟨jb, hjb, hj, hslot, hph⟩

-- commands on a voice (R130, R131) --------------------------------------------------------------------------------------------------------

/-- A stamped command on a voice acts at its stamp, or where the reach point of the Bay named stands when it is late. -/
theorem effStamp_cases (c : Card) (e : Entry) (s : State) : effStamp c e s = e.stamp ∨ effStamp c e s = s.reachOf (c.timeline e s) := by
  unfold effStamp
  split
  · exact .inr rfl
  · exact .inl rfl

/-- Beyond the Bays every timeline is the device's (R29, R32). -/
theorem reachOf_named (s : State) (n : Nat) : s.reachOf (if n < 8 then n else 255) = s.reachOf n := by
  by_cases h : n < 8
  · rw [if_pos h]
  · simp [State.reachOf, h]

theorem runOnVoice_waits (op : Nat) (e : Entry) (s : State) :
    (e.stamped = false → runOnVoice op e s = queueBoundary op e { bay := e.target.toNat } s) ∧
    (e.stamped = true → ∃ at_, runOnVoice op e s = queueStamped op e { stamp := at_, bay := e.target.toNat } at_ [] s ∧
      (at_ = e.stamp ∨ at_ = s.reachOf e.target.toNat)) := by
  refine ⟨fun hs => if_neg (by simp [hs]), fun hs => ⟨_, if_pos hs, ?_⟩⟩
  rw [← reachOf_named s e.target.toNat]
  exact effStamp_cases _ e s

-- the decimators of a Bay (R151, R162) ---------------------------------------------------------------------------------------------------

/-- One value in the preset of each Course of a list, and in no other. -/
theorem foldl_setPreset (v : BitVec 2) (cs : List Nat) (s : State) (n : Nat) :
    (cs.foldl (fun s c => s.setCourse c { s.course c with preset := v }) s).course n =
      if n ∈ cs then { s.course n with preset := v } else s.course n := by
  induction cs generalizing s with
  | nil => rfl
  | cons c cs ih =>
    rw [List.foldl_cons, ih]
    by_cases hn : n = c
    · subst hn
      rw [State.setCourse_same, if_pos List.mem_cons_self]
      split <;> rfl
    · rw [State.setCourse_other _ _ _ _ hn]
      simp only [List.mem_cons, hn, false_or]

theorem foldl_setPreset_mbx (v : BitVec 2) (cs : List Nat) (s : State) :
    (cs.foldl (fun s c => s.setCourse c { s.course c with preset := v }) s).mbx = s.mbx := by
  induction cs generalizing s with
  | nil => rfl
  | cons c cs ih => exact (ih _).trans rfl

/-- Settles O15: the start's voice through `runVoiceStart_asked`, DECIM.SET over the Bay's Courses, the other cards as they run. -/
theorem voiceAndPartCommands : Obligations.VoiceAndPartCommands := by
  refine ⟨⟨?_, fun e s h => command_accepted h, fun e s h => command_accepted h, runOnVoice_waits⟩, ?_, ?_, ?_, ?_, ?_⟩
  case refine_1 =>
    intro e s h b
    obtain ⟨i, s1, hi⟩ := voiceStart_slot h
    obtain ⟨asked, waits, queues⟩ := runVoiceStart_asked { opcode := 0x300, len := fun _ => true, run := fun _ s => s } e hi
    have hvel : (BitVec.ofNat 16 (bits (e.pw 1) 31 16)).toNat = bits (e.pw 1) 31 16 := Nat.mod_eq_of_lt (Nat.mod_lt _ (by decide))
    exact ⟨i, s1, _, hi, command_accepted h, asked.pending, asked.inUse, asked.part, asked.note,
      (congrArg BitVec.toNat asked.velocity).trans hvel, asked.template, asked.gen, waits, queues⟩
  case refine_2 => exact completes_of_run (fun _ _ => rfl) (fun _ _ => rfl)
  case refine_3 => exact completes_of_run (fun _ _ => rfl) (fun _ _ => rfl)
  case refine_4 => exact completes_of_run (fun _ _ => rfl) (fun _ _ => rfl)
  case refine_5 =>
    intro e s h b
    refine ⟨_, command_accepted h, ?_, fun c hc => ?_, fun c hc => ?_⟩
    · exact congrArg (fun m => nextEpoch m.epoch) (foldl_setPreset_mbx _ _ _)
    · exact congrArg Course.preset ((foldl_setPreset _ _ _ c).trans (if_pos hc))
    · exact (foldl_setPreset _ _ _ c).trans (if_neg hc)
  case refine_6 => exact completes_of_run (fun _ _ => rfl) (fun _ _ => rfl)

end Sys2Proof.Machine
end


section
/-! PROOFS. Parameter, envelope and coefficient commands (R185, R193, R199 to R204). The statement says that a PARAM.SET that is not staged waits,
while one of HALTED endpoints completes at validation (R78, R84). Only the opaque descriptor table `Config.effectParam` (log entry 22) says whether
an endpoint is HALTED, so that the model settles the statement neither way: `parameterAndCoefficientCommands_iff` gives what it turns on. -/

namespace Sys2Proof.Machine

-- the classes of endpoints (R185, R186) ------------------------------------------------------------------------------------------------

/-- An endpoint of class HALTED that a command may give this value (R78, R187). -/
structure HaltedEndpoint (a v : Word) : Prop where
  writable : writeOk (a.toNat, v) = true
  halted : classAt a.toNat = 2

/-- A descriptor of another class than HALTED, or none. -/
def notHalted (x : Option Desc) : Bool := x.all fun d => d.cls != 2

theorem class_of_notHalted {x : Option Desc} (h : notHalted x = true) : (match x with | some d => d.cls | none => 3) ≠ 2 := by
  cases x with
  | none => decide
  | some d => simpa [notHalted] using h

theorem scope0Desc_notHalted : ∀ p < 256, notHalted (scope0Desc p) = true := by decide +kernel

theorem scope1Desc_notHalted : ∀ p < 256, notHalted (scope1Desc p) = true := by decide +kernel

theorem scope2Desc_notHalted : ∀ p < 256, notHalted (scope2Desc p) = true := by decide +kernel

/-- The bus parameters, below the endpoints of the effect program. -/
theorem scope3Desc_notHalted (o : Nat) {p : Nat} (hp : p < 0x40) : notHalted (scope3Desc o p) = true := by
  unfold scope3Desc
  rw [if_neg (by omega)]
  split <;> rfl

/-- A HALTED endpoint is one of an effect program (R185). -/
theorem effectEndpoint_of_halted {a : Nat} (h : classAt a = 2) : a / 65536 = 3 ∧ 0x40 ≤ a % 256 := by
  have low : a % 256 < 256 := Nat.mod_lt _ (by decide)
  unfold classAt descOf at h
  by_contra hne
  generalize a / 65536 = q at h hne
  match q with
  | 0 => exact class_of_notHalted (scope0Desc_notHalted _ low) h
  | 1 => exact class_of_notHalted (scope1Desc_notHalted _ low) h
  | 2 => exact class_of_notHalted (scope2Desc_notHalted _ low) h
  | 3 => exact class_of_notHalted (scope3Desc_notHalted _ (by omega)) h
  | _ + 4 => exact absurd h (by decide : (3 : Nat) ≠ 2)

/-- Its class is what the descriptor table of the program in the slot says. -/
theorem effectParam_of_halted {a : Nat} (h : classAt a = 2) : ∃ d, Config.effectParam (a / 256 % 256) (a % 256) = some d ∧ d.cls = 2 := by
  obtain ⟨hq, hp⟩ := effectEndpoint_of_halted h
  simp only [classAt, descOf, hq, scope3Desc, if_pos hp] at h
  cases hd : Config.effectParam (a / 256 % 256) (a % 256) with
  | none => rw [hd] at h; exact absurd h (by decide)
  | some d => rw [hd] at h; exact ⟨d, rfl, h⟩

-- the writes of a PARAM.SET (R199) --------------------------------------------------------------------------------------------------------

/-- The address of a write is a payload word. -/
theorem pairUp_address (ws : List Word) : ∀ w ∈ pairUp ws, ∃ a : Word, w.1 = a.toNat := by
  induction ws using pairUp.induct with
  | case1 a v r ih =>
    intro w hw
    obtain rfl | hw := List.mem_cons.1 (by simpa only [pairUp] using hw)
    · exact ⟨a, rfl⟩
    · exact ih w hw
  | case2 ws h =>
    intro w hw
    unfold pairUp at hw
    split at hw
    · exact absurd rfl (h _ _ _)
    · exact absurd hw List.not_mem_nil

/-- Where every check passes, each write is one that a command may make. -/
theorem paramSet_writable {e : Entry} {s : State} (h : Accepted cardParamSet e s) : ∀ w ∈ setWrites e, writeOk w = true := by
  have step5 : need (decide (e.rsv = 0) && targetOk cardParamSet e (entered cardParamSet e s) && cardParamSet.range e (entered cardParamSet e s))
      eRange = none := firstFail_none h.checks _ (by simp)
  have range : cardParamSet.range e (entered cardParamSet e s) = true := (Bool.and_eq_true_iff.1 (need_none step5)).2
  exact List.all_eq_true.1 (Bool.and_eq_true_iff.1 range).2

/-- An accepted PARAM.SET of HALTED fields writes a HALTED endpoint. -/
theorem haltedEndpoint_of_setHalted {e : Entry} {s : State} (h : Accepted cardParamSet e s) (hh : setHalted e = true) :
    ∃ a v, HaltedEndpoint a v := by
  have writable := paramSet_writable h
  have address : ∀ w ∈ setWrites e, ∃ a : Word, w.1 = a.toNat := pairUp_address _
  unfold setHalted at hh
  cases hw : setWrites e with
  | nil => rw [hw] at hh; exact absurd hh (by decide)
  | cons w r =>
    rw [hw] at hh writable address
    obtain ⟨a, ha⟩ := address w List.mem_cons_self
    refine ⟨a, w.2, ha ▸ writable w List.mem_cons_self, ?_⟩
    rw [← ha]
    simp only [sharedClass] at hh
    split at hh
    · simpa using hh
    · exact absurd hh (by decide)

/-- An accepted PARAM.SET that writes no HALTED endpoint joins the staged set, waits for the boundary, or waits for its stamp. -/
theorem paramSet_waits {e : Entry} {s : State} (h : Accepted cardParamSet e s) (hh : setHalted e ≠ true) : let b := begun cardParamSet e s
    (setStages e = true → JoinsStage (.paramSet e) s 0x400 e (setFields e b) b) ∧
    (setStages e = false → e.stamped = false → WaitsBoundary (.paramSet e) s 0x400 e 255 b) ∧
    (setStages e = false → e.stamped = true → ∃ at_, exec (.paramSet e) s =
      .next (queueStamped 0x400 e { stamp := at_, bay := e.target.toNat } at_ [] b) ∧ (at_ = e.stamp ∨ at_ = b.reachOf e.target.toNat)) := by
  intro b
  have run : exec (.paramSet e) s = .next (cardParamSet.run e b) := command_accepted h
  refine ⟨fun hs => run.trans (congrArg _ (if_pos hs)), fun hs ht => run.trans (congrArg _ ?_),
    fun hs ht => ⟨effStamp cardParamSet.cardTimeline e b, run.trans (congrArg _ ?_), ?_⟩⟩
  · exact (if_neg (by simp [hs])).trans ((if_neg hh).trans (if_neg (by simp [ht])))
  · exact (if_neg (by simp [hs])).trans ((if_neg hh).trans (if_pos ht))
  · rw [← reachOf_named b e.target.toNat]
    exact effStamp_cases _ e b

-- coefficient banks (R196, R202, R203) ------------------------------------------------------------------------------------------------------

theorem answer_coef (e : Entry) (st : Status) (j : Word) (ws : List Word) (final : Bool) (s : State) (n : Nat) :
    (answer e st j ws final s).coef n = s.coef n := (congrArg (fun u => u.coef n) (answer_only e st j ws final s) :)

theorem markAnswered_coef (j : Word) (s : State) (n : Nat) : (markAnswered j s).coef n = s.coef n := rfl

/-- The first request that a bank holds supersedes none. -/
theorem holdSwap_first {n len : Nat} {j : Word} {s : State} (h : (s.coef n).held = none) :
    holdSwap n len j s = s.setCoef n { s.coef n with held := some j, heldLen := len } := by
  unfold holdSwap
  dsimp only
  rw [h]

/-- A request that meets a Scarf is held. -/
theorem requestSwap_held (op : Nat) (e : Entry) (s : State) (hs : (s.coef (bankNamed e)).scarfing = true) (hh : (s.coef (bankNamed e)).held = none) :
    ((requestSwap op e s).coef (bankNamed e)).held = some s.mbx.nextJ ∧
    ((requestSwap op e s).coef (bankNamed e)).heldLen = bits (e.pw 0) 31 16 := by
  unfold requestSwap
  dsimp only
  rw [if_neg (by simp [hs]), holdSwap_first (by exact hh), answer_coef, markAnswered_coef, State.setCoef_same]
  exact ⟨rfl, rfl⟩

-- the statement where no endpoint is HALTED ------------------------------------------------------------------------------------------------

theorem parameterAndCoefficientCommands_of_noHalted (hn : ∀ a v, ¬ HaltedEndpoint a v) : Obligations.ParameterAndCoefficientCommands := by
  refine ⟨⟨?paramGet, ?paramSet, ?envWrite, ?tables⟩, ?coefLoad, ?coefSwap, ?waits, requestSwap_held, ?coefStatus, ?scarfEnd⟩
  case paramGet => exact completes_of_run (fun _ _ => rfl) (fun _ _ => rfl)
  case paramSet => exact fun e s h => paramSet_waits h fun hh => let ⟨a, v, hav⟩ := haltedEndpoint_of_setHalted h hh; hn a v hav
  case envWrite =>
    exact fun e s h => ⟨fun hs => (command_accepted h).trans (congrArg _ (if_pos hs)),
      fun hs => (command_accepted h).trans (congrArg _ (if_neg (by simp [hs])))⟩
  case tables =>
    intro jb s n ws hop hone
    refine ⟨putEnv (bits (jb.e.pw 0) 7 0) n ws s, ?_, Tab.look_put_same _ _ _ _⟩
    simp [boundaryEffect, hop, hone, applyEnvs]
  case coefLoad =>
    intro e s h b n hd x b1
    have run : exec (.coefLoad e) s = .next (cardCoefLoad.run e b) := command_accepted h
    refine ⟨fun hb hc => run.trans (congrArg _ ?_), fun hb hc => run.trans (congrArg _ ?_), fun hb => run.trans (congrArg _ ?_)⟩
    · exact (if_neg (by simp [hb])).trans (if_neg (by simpa using hc))
    · exact (if_neg (by simp [hb])).trans (if_pos hc)
    · exact if_pos hb
  case coefSwap => exact fun e s h => command_accepted h
  case waits => exact fun op e s hs => if_pos (by simp [hs])
  case coefStatus => exact completes_of_run (fun _ _ => rfl) (fun _ _ => rfl)
  case scarfEnd =>
    intro n s hn
    rw [show exec (.swapScarfEnd n) s = execSwapScarfEnd n s from rfl]
    unfold execSwapScarfEnd withUnit
    simp only [if_pos hn, Nat.pos_iff_ne_zero]
    exact ⟨fun h => by rw [if_pos h], fun h => by rw [if_neg h]⟩

-- a HALTED endpoint that is written -------------------------------------------------------------------------------------------------------

/-- PARAM.SET of one write, on channel 0. -/
def oneWrite (a v : Word) : Entry := { payload := [1, a, v] }

/-- The device as it is after reset, in phase 7. -/
def servingState : State := { State.reset with power := { State.reset.power with phase := 7 } }

theorem oneWrite_writes (a v : Word) : setWrites (oneWrite a v) = [(a.toNat, v)] := rfl

theorem oneWrite_class {a v : Word} (h : HaltedEndpoint a v) : sharedClass (setWrites (oneWrite a v)) = some 2 := by
  rw [← h.halted]
  rfl

theorem oneWrite_stages {a v : Word} (h : HaltedEndpoint a v) : setStages (oneWrite a v) = false := by
  rw [setStages, oneWrite_class h]
  rfl

theorem oneWrite_taken (a v : Word) : Taken cardParamSet (oneWrite a v) servingState where
  channel := (by decide : 0 < 16)
  serves := (by decide : servingState.serving = true)
  empty := (by decide : (servingState.chan 0).cmdPi = (servingState.chan 0).cmdCi)
  framed := (by decide : entryLen (oneWrite 0 0) ≤ 1024)
  version := rfl
  sequence := .inl (by decide : (servingState.chan 0).seqFree = true)
  journal := (by decide : journalFull servingState = false)

theorem entered_core (c : Card) (e : Entry) (s : State) (k : Nat) : (entered c e s).core k = s.core k := by
  obtain ⟨win, chs, h⟩ := entered_eq c e s
  rw [h]
  rfl

theorem effectTasks_of_noTasks {s : State} (h : ∀ k, (s.core k).tasks = []) : s.effectTasks = [] := by
  simp [State.effectTasks, h]

theorem servingState_noTasks (k : Nat) : (servingState.core k).tasks = [] := rfl

/-- The write of a HALTED endpoint passes every check while no effect runs (R78, R199). -/
theorem oneWrite_accepted {a v : Word} (h : HaltedEndpoint a v) : Accepted cardParamSet (oneWrite a v) servingState := by
  refine ⟨oneWrite_taken a v, ?_⟩
  obtain ⟨hq, hp⟩ := effectEndpoint_of_halted h.halted
  have noInput : a.toNat % 256 ≠ 2 := by omega
  have idle : (entered cardParamSet (oneWrite a v) servingState).effectTasks = [] :=
    effectTasks_of_noTasks fun k => (congrArg VCore.tasks (entered_core _ _ _ k)).trans (servingState_noTasks k)
  generalize entered cardParamSet (oneWrite a v) servingState = b at idle
  have device : (oneWrite a v).target = 0xFF := rfl
  have unstamped : (oneWrite a v).stamped = false := rfl
  have reserved : (oneWrite a v).rsv = 0 := rfl
  have count : bits ((oneWrite a v).pw 0) 15 0 = 1 := (by decide : bits (1 : Word) 15 0 = 1)
  have ramp : bits ((oneWrite a v).pw 0) 30 16 = 0 := (by decide : bits (1 : Word) 30 16 = 0)
  have length : cardParamSet.len (oneWrite a v) = true := by
    show (decide (1 ≤ 3) && 3 == 1 + 2 * bits ((oneWrite a v).pw 0) 15 0) = true
    rw [count]
    rfl
  have target : targetOk cardParamSet (oneWrite a v) b = true := if_pos device
  have range : cardParamSet.range (oneWrite a v) b = true := by
    simp [cardParamSet, count, ramp, oneWrite_writes, h.writable]
  have flags : cardParamSet.flags (oneWrite a v) b = true := by
    show (setFlagsOk _ && true) = true
    rw [setFlagsOk, oneWrite_class h]
    rfl
  have mode : modeOk cardParamSet (oneWrite a v) b = true := by simp [modeOk, device]
  have post : cardParamSet.post (oneWrite a v) b = none := by
    simp [cardParamSet, oneWrite_writes, oneWrite_stages h, haltedOk, effectRuns, idle, hq, firstFail, need]
  have agree : cardParamSet.agree (oneWrite a v) b = true := by
    simp [cardParamSet, oneWrite_writes, noRepeat, renderInputOk, hq, noInput, unstamped]
  unfold validate
  simp only [length, target, mode, range, flags, post, agree, isLate, unstamped, reserved]
  rfl

/-- It is carried out at validation (R78, R84). -/
theorem oneWrite_done {a v : Word} (h : HaltedEndpoint a v) : let b := begun cardParamSet (oneWrite a v) servingState
    DoneNow (.paramSet (oneWrite a v)) servingState 0x400 (oneWrite a v) [] (putHalted (oneWrite a v) b) := by
  intro b
  have halted : setHalted (oneWrite a v) = true := by
    rw [setHalted, oneWrite_class h]
    rfl
  exact (command_accepted (oneWrite_accepted h)).trans (congrArg _ ((if_neg (by simp [oneWrite_stages h])).trans (if_pos halted)))

/-- The newest journal entry of a command that completes at validation is DONE. -/
theorem finishNow_newest (op : Nat) (e : Entry) (ws : List Word) (s : State) :
    (finishNow op e ws s).mbx.journal.head? = some (newEntry op e .done stDone 0 s) :=
  (congrArg (fun u => u.mbx.journal.head?) (answer_only _ _ _ _ _ _) :)

theorem not_parameterAndCoefficientCommands_of_halted {a v : Word} (h : HaltedEndpoint a v) : ¬ Obligations.ParameterAndCoefficientCommands := by
  rintro ⟨⟨-, paramSet, -⟩, -⟩
  obtain ⟨-, waits, -⟩ := paramSet _ servingState (oneWrite_accepted h)
  have same := Host.Outcome.next.inj ((oneWrite_done h).symm.trans (waits (oneWrite_stages h) rfl))
  have newest := finishNow_newest 0x400 (oneWrite a v) [] (putHalted (oneWrite a v) (begun cardParamSet (oneWrite a v) servingState))
  rw [same, queueBoundary_journal] at newest
  exact absurd (congrArg JEntry.st (Option.some.inj newest)) (by simp [newEntry])

/-- The statement holds under descriptor tables without the class HALTED. -/
theorem parameterAndCoefficientCommands_of_effectParam (h : ∀ o p d, Config.effectParam o p = some d → d.cls ≠ 2) :
    Obligations.ParameterAndCoefficientCommands :=
  parameterAndCoefficientCommands_of_noHalted fun _ _ hav => let ⟨d, hd, hc⟩ := effectParam_of_halted hav.halted; h _ _ d hd hc

/-- What `Obligations.ParameterAndCoefficientCommands` turns on: the opaque descriptor tables give no HALTED endpoint that takes a value. -/
theorem parameterAndCoefficientCommands_iff : Obligations.ParameterAndCoefficientCommands ↔ ∀ a v, ¬ HaltedEndpoint a v :=
  ⟨fun h _ _ hav => not_parameterAndCoefficientCommands_of_halted hav h, parameterAndCoefficientCommands_of_noHalted⟩

end Sys2Proof.Machine
end


section
/-! PROOFS. Program, Dispatcher, trace and Bay commands (R238, R264 to R269, R293 to R298). -/

namespace Sys2Proof.Machine

/-- Where every check of a card passes, its flags are allowed. -/
theorem Accepted.flags {c : Card} {e : Entry} {s : State} (h : Accepted c e s) : c.flags e (entered c e s) = true := by
  have hneed : need (c.flags e (entered c e s)) eConflict = none := firstFail_none h.checks _ (by simp)
  exact need_none hneed

/-- A card that allows no stamp is carried out on the state in which its entry was read. -/
theorem begun_of_unstamped {c : Card} {e : Entry} {s : State} (h : Accepted c e s) (hc : ∀ e s, c.flags e s = true → e.stamped = false) :
    begun c e s = entered c e s :=
  begun_of_not_stamped c e s (hc _ _ h.flags)

/-- BAY.MODE names a change of the Bay's mode that exists (R271, R294). -/
theorem bayMode_change {e : Entry} {s : State} (h : Accepted cardBayMode e s) :
    ∃ c, changeOf ((begun cardBayMode e s).bay e.target.toNat).mode (modeWanted e) = some c := by
  have hcheck : need (changeOf ((entered cardBayMode e s).bay e.target.toNat).mode (modeWanted e)).isSome eState = none :=
    firstFail_none h.post _ (by simp)
  have hplain : begun cardBayMode e s = entered cardBayMode e s := begun_of_unstamped h fun e s hf => by simp_all [cardBayMode]
  rw [hplain]
  exact Option.isSome_iff_exists.1 (need_none hcheck)

theorem bayMode_starts {e : Entry} {b : State} {c : Change} (hc : changeOf (b.bay e.target.toNat).mode (modeWanted e) = some c) :
    cardBayMode.run e b = startStepped 0x601 e 3 (if c.drains then 2 else 3)
      [BitVec.ofNat 32 (b.bay e.target.toNat).mode.code, b.bayState e.target.toNat] b := by
  simp only [cardBayMode, hc, Option.getD_some]

/-- Writing presets leaves the Bays. -/
theorem foldl_setPreset_bays (v : BitVec 2) (cs : List Nat) (s : State) :
    (cs.foldl (fun s c => s.setCourse c { s.course c with preset := v }) s).bays = s.bays := by
  induction cs generalizing s with
  | nil => rfl
  | cons c cs ih => exact (ih _).trans rfl

/-- The record of a Bay that is formed anew (R269): in LOAD, with the Courses that the entry gives it. -/
def formedBay (e : Entry) (s : State) (b : Nat) : Bay :=
  { count := BitVec.ofNat 4 (formCount e b), first := BitVec.ofNat 3 (formFirst e b), returnHome := (s.bay b).returnHome }

theorem reform_bay (e : Entry) (s : State) (b n : Nat) : (reform e s b).bay n = if n = b then formedBay e s b else s.bay n := by
  have hbays := foldl_setPreset_bays 1 ((s.setBay b (formedBay e s b)).bayCourses b) (s.setBay b (formedBay e s b))
  refine (congrArg (fun t => Tab.look t n {}) hbays).trans ?_
  split
  next h =>
    subst h
    exact State.setBay_same s n _
  next h => exact State.setBay_other s b _ n h

/-- Settles O17: each card as it runs, BAY.MODE with the change that its checks found. -/
theorem programTraceAndBayCommands : Obligations.ProgramTraceAndBayCommands := by
  refine ⟨⟨?_, ?_, ?_, ?_, ?_, ?_⟩, ?_, ?_, ?_, ?_, ?_, ?_, ?_⟩
  case refine_1 => exact fun e s h => command_accepted h
  case refine_2 => exact fun e s h => command_accepted h
  case refine_3 => exact completes_of_run (fun _ _ => rfl) (fun _ _ => rfl)
  case refine_4 => exact waits_of_run (fun _ _ => rfl) (fun _ _ => rfl)
  case refine_5 =>
    intro jb s hop
    simp only [boundaryEffect, show jb.opcode = 0xC00 from hop]
    rfl
  case refine_6 => exact completes_of_run (fun _ _ => rfl) (fun _ _ => rfl)
  case refine_7 => exact completes_of_run (fun _ _ => rfl) (fun _ _ => rfl)
  case refine_8 =>
    intro e s b _
    simp only [reform_bay, if_true, formedBay]
    exact ⟨trivial, trivial, trivial, trivial, fun n hn => if_neg hn⟩
  case refine_9 =>
    intro e s h b
    obtain ⟨c, hc⟩ := bayMode_change h
    exact ⟨c, hc, (command_accepted h).trans (congrArg _ (bayMode_starts hc))⟩
  case refine_10 => exact completes_of_run (fun _ _ => rfl) (fun _ _ => rfl)
  case refine_11 => exact waits_of_run (fun _ _ => rfl) (fun _ _ => rfl)
  case refine_12 => exact fun e s h => command_accepted h
  case refine_13 => exact fun e s h => command_accepted h

end Sys2Proof.Machine
end


section
/-! PROOFS. DAC, UART and timer commands (R397 to R399, R417 to R421). -/

namespace Sys2Proof.Machine

/-- The bytes taken from the front of a ring and the rest are the ring. -/
theorem take_append_drop_length {α : Type} (n : Nat) (xs : List α) : xs = xs.take n ++ xs.drop (xs.take n).length := by
  obtain h | h := Nat.le_total n xs.length
  · rw [List.length_take, Nat.min_eq_left h, List.take_append_drop]
  · rw [List.take_of_length_le h, List.drop_length, List.append_nil]

/-- Settles O19: each card as it runs. -/
theorem dacUartAndTimerCommands : Obligations.DacUartAndTimerCommands := by
  refine ⟨?_, ?_, ?_, ?_, ?_, ?_, ?_, ?_, ?_⟩
  case refine_1 => exact waits_of_run (fun _ _ => rfl) (fun _ _ => rfl)
  case refine_2 =>
    exact fun e s h => ⟨fun hs => (command_accepted h).trans (congrArg _ (if_neg (by simp [hs]))),
      fun hs => (command_accepted h).trans (congrArg _ (if_pos hs))⟩
  case refine_3 => exact fun d v s hm hl => if_pos (by simp [hm, hl])
  case refine_4 => exact completes_of_run (fun _ _ => rfl) (fun _ _ => rfl)
  case refine_5 =>
    exact fun e s h => ⟨fun hs => (command_accepted h).trans (congrArg _ (if_neg (by simp [hs]))),
      fun hs => (command_accepted h).trans (congrArg _ (if_pos hs))⟩
  case refine_6 => exact waits_of_run (fun _ _ => rfl) (fun _ _ => rfl)
  case refine_7 =>
    intro e s h b u x got
    refine ⟨_, command_accepted h, ?_, ?_, fun hc => ?_, fun hc => ?_⟩
    · split <;> exact take_append_drop_length _ _
    · split <;> rfl
    · rw [if_neg (by simp [hc])]
      exact ⟨rfl, rfl⟩
    · rw [if_pos hc]
      exact ⟨rfl, rfl, rfl, rfl, rfl, rfl⟩
  case refine_8 => exact waits_of_run (fun _ _ => rfl) (fun _ _ => rfl)
  case refine_9 => exact completes_of_run (fun _ _ => rfl) (fun _ _ => rfl)

end Sys2Proof.Machine
end


section
/-! PROOFS. Vault, package, tamper, health and system commands (R439 to R447, R463 to R465, R480, R484, R485). -/

namespace Sys2Proof.Machine

/-- A command that completes adds its DONE entry in front of the journal, and leaves the power state. -/
theorem finishNow_keeps (op : Nat) (e : Entry) (ws : List Word) (s : State) :
    (finishNow op e ws s).mbx.journal = newEntry op e .done stDone 0 s :: s.mbx.journal.take 4095 ∧ (finishNow op e ws s).power = s.power := by
  have keeps := answer_only e stDone s.mbx.nextJ ws true (journalAdd op e .done stDone 0 s)
  exact ⟨(congrArg (fun t => t.mbx.journal) keeps :), (congrArg (fun t => t.power) keeps :)⟩

/-- SYS.POWER completes; a wanted SLEEP is due, and any other state stands at once. -/
theorem sysPower_sets (e : Entry) (b : State) : let t := cardSysPower.run e b
    t.mbx.journal = newEntry 0x003 e .done stDone 0 b :: b.mbx.journal.take 4095 ∧
      (powerWanted e = 2 → t.power = { b.power with sleepDue := true }) ∧
      (powerWanted e ≠ 2 → t.power = { b.power with state := BitVec.ofNat 2 (powerWanted e) }) := by
  obtain ⟨journal, power⟩ := finishNow_keeps 0x003 e [b.sysPwr] b
  dsimp only [cardSysPower]
  by_cases h : powerWanted e = 2
  · rw [if_pos h]
    exact ⟨journal, fun _ => by rw [power], fun hn => absurd h hn⟩
  · rw [if_neg h]
    exact ⟨journal, fun hp => absurd hp h, fun _ => by rw [power]⟩

/-- VAULT.KEY.LOAD puts the key that its blob holds. -/
theorem keyLoad_puts {e : Entry} {b : State} {mk : BitVec 256} (hmk : unwrapBlob e b = some mk) :
    cardKeyLoad.run e b = finishNow 0xA02 e [BitVec.ofNat 32 (putMk (bits (e.pw 0) 3 0) mk b).mkeys] (putMk (bits (e.pw 0) 3 0) mk b) := by
  simp only [cardKeyLoad, hmk, Option.getD_some]

/-- Settles O20: each card as it runs; SYS.POWER through what a completed command leaves. -/
theorem vaultHealthAndSystemCommands : Obligations.VaultHealthAndSystemCommands := by
  refine ⟨⟨?_, ?_, ?_, ?_, ?_, ?_, ?_, ?_, ?_, ?_⟩, ?_, ?_, ?_, ?_, ?_⟩
  case refine_1 => exact completes_of_run (fun _ _ => rfl) (fun _ _ => rfl)
  case refine_2 => exact fun e s h => command_accepted h
  case refine_3 => exact waits_of_run (fun _ _ => rfl) (fun _ _ => rfl)
  case refine_4 => exact completes_of_run (fun _ _ => rfl) (fun _ _ => rfl)
  case refine_5 => exact fun e s h => ⟨_, _, command_accepted h, rfl, rfl⟩
  case refine_6 => exact fun e s mk h hmk => ⟨_, (command_accepted h).trans (congrArg _ (keyLoad_puts hmk)), rfl⟩
  case refine_7 => exact waits_of_run (fun _ _ => rfl) (fun _ _ => rfl)
  case refine_8 =>
    intro jb s hop
    simp only [boundaryEffect, show jb.opcode = 0xA10 from hop]
    rfl
  case refine_9 => exact fun e s h => command_accepted h
  case refine_10 => exact fun e s h => command_accepted h
  case refine_11 => exact completes_of_run (fun _ _ => rfl) (fun _ _ => rfl)
  case refine_12 => exact completes_of_run (fun _ _ => rfl) (fun _ _ => rfl)
  case refine_13 => exact waits_of_run (fun _ _ => rfl) (fun _ _ => rfl)
  case refine_14 => exact fun e s h => command_accepted h
  case refine_15 => exact fun e s h => ⟨_, command_accepted h, sysPower_sets e _⟩

end Sys2Proof.Machine
end


section
/-! PROOFS. Writes of the Sound Store through the set and clear aliases (R321, R322, R325, R326). -/

namespace Sys2Proof.Machine

theorem bankOf_place {bank word : Nat} (h : word < 65536) : bankOf (65536 * bank + word) = bank := by
  unfold bankOf
  omega

/-- Who may write a word of the store is an initiator of the device (R10, R325). -/
theorem initiatorIs_of_writes {who : Initiator} {w : Nat} {s : State} (h : reachesWord who w true s = true) : initiatorIs who = true := by
  obtain ⟨hr, -⟩ := Bool.and_eq_true_iff.1 h
  cases who <;> simp_all [reaches, initiatorIs]

/-- A bank that lends a window to a test is not being zeroised (R330, R333). -/
theorem not_zeroising {who : Initiator} {w : Nat} {write : Bool} {s : State} (h : reachesWord who w write s = true)
    (hs : (s.bank (bankOf w)).state = 0 ∨ who = .test) : (s.bank (bankOf w)).state ≠ 3 := by
  obtain h0 | rfl := hs
  · rw [h0]
    decide
  · obtain ⟨hr, -⟩ := Bool.and_eq_true_iff.1 h
    intro h3
    simp [reaches, h3] at hr

/-- A bank in service is not woken and lends no window: an access finds the state as it is (R332, R334). -/
theorem touchBank_inService {w : Nat} {s : State} (h : (s.bank (bankOf w)).state = 0) : touchBank w s = s := by
  unfold touchBank
  simp [h]

/-- A write that its initiator may make puts the word into the store (R321, R322, R325). -/
theorem writeStore_puts {who : Initiator} {kind : WriteKind} {w : Nat} {v : Word} {strobes : BitVec 4} {s : State}
    (hr : reachesWord who w true s = true) (hk : hasAlias who = true ∨ kind = .plain) (hs : (s.bank (bankOf w)).state = 0 ∨ who = .test) :
    writeStore who kind w v strobes s =
      putStore w (aliasValue kind (storeWord w s) v (if hasAlias who then strobes else 0xF)) 0xF s := by
  have hz : (s.bank (bankOf w)).state ≠ 3 := not_zeroising hr hs
  have hway : (hasAlias who || decide (kind = .plain)) = true := by simpa using hk
  unfold writeStore
  simp only [hr, hway, Bool.true_and, if_true]
  obtain h0 | rfl := hs
  · cases who <;> simp only [touchBank_inService h0, if_neg hz]
  · exact if_neg hz

theorem hasAlias_of_ne_vault {who : Initiator} (h : who ≠ .vault) : hasAlias who = true := by
  cases who with
  | vault => exact absurd rfl h
  | _ => rfl

/-- A write that its initiator may not make through the set or clear path is ignored, and counted where R326 says so. -/
theorem writeStore_denied {who : Initiator} {kind : WriteKind} {w : Nat} {v : Word} {strobes : BitVec 4} {s : State}
    (hk : kind ≠ .plain) (h : reachesWord who w true s = false ∨ who = .vault) :
    writeStore who kind w v strobes s = if deniedCounted who then countDenied s else s := by
  unfold writeStore
  obtain hr | rfl := h
  · rw [hr]
    rfl
  · simp [hasAlias, hk]

/-- The bytes of a word that four strobes name (R322). -/
def lanesOf (strobes : BitVec 4) : Word :=
  BitVec.ofNat 32 ((b2n (strobes.getLsbD 0) + 256 * b2n (strobes.getLsbD 1) + 65536 * b2n (strobes.getLsbD 2)
    + 16777216 * b2n (strobes.getLsbD 3)) * 255)

theorem lanesOf_eq : ∀ strobes : BitVec 4, ((if strobes.getLsbD 0 then 0xFF else 0) ||| (if strobes.getLsbD 1 then 0xFF00 else 0)
    ||| (if strobes.getLsbD 2 then 0xFF0000 else 0) ||| (if strobes.getLsbD 3 then 0xFF000000 else 0) : Word) = lanesOf strobes := by decide

theorem aliasValue_set (old v : Word) (strobes : BitVec 4) : aliasValue .set old v strobes = old ||| (v &&& lanesOf strobes) := by
  rw [← lanesOf_eq]
  rfl

theorem aliasValue_clear (old v : Word) (strobes : BitVec 4) : aliasValue .clear old v strobes = old &&& ~~~(v &&& lanesOf strobes) := by
  rw [← lanesOf_eq]
  rfl

/-- An allowed set or clear write stores its word and no other byte, and the bank's requests stall for 2 clk. -/
theorem aliasWrite_stores {who : Initiator} (kind : WriteKind) {bank word : Nat} (v : Word) (strobes : BitVec 4) {s : State} (hw : word < 65536)
    (hr : reachesWord who (65536 * bank + word) true s = true) (hv : who ≠ .vault) (hs : (s.bank bank).state = 0 ∨ who = .test)
    (hwf : Mem.wf s.mem.store = true) :
    ∃ m, Mem.word m (65536 * bank + word) = aliasValue kind (storeWord (65536 * bank + word) s) v strobes ∧
      (∀ a, a / 4 ≠ 65536 * bank + word → Mem.read m a = Mem.read s.mem.store a) ∧
      aliasWrite who kind bank word v strobes s = stallMore bank 2
        { s with mem := { s.mem with store := m, bad := s.mem.bad.filter (· != 65536 * bank + word) } } := by
  refine ⟨_, Mem.word_putWord_same _ _ _ hwf, fun a ha => Mem.read_putWord_other _ _ _ _ _ (by omega), ?_⟩
  have hs' : (s.bank (bankOf (65536 * bank + word))).state = 0 ∨ who = .test := by rwa [bankOf_place hw]
  have hal := hasAlias_of_ne_vault hv
  refine congrArg (stallMore bank 2) ((writeStore_puts hr (.inl hal) hs').trans ?_)
  rw [if_pos hal]
  rfl

/-- One that is not allowed changes no memory. -/
theorem aliasWrite_denied {who : Initiator} {kind : WriteKind} (bank word : Nat) (v : Word) (strobes : BitVec 4) {s : State} (hk : kind ≠ .plain)
    (h : reachesWord who (65536 * bank + word) true s = false ∨ who = .vault) :
    aliasWrite who kind bank word v strobes s =
      stallMore bank 2 { s with mem := { s.mem with denied := if deniedCounted who then satInc s.mem.denied else s.mem.denied } } := by
  unfold aliasWrite
  rw [writeStore_denied hk h]
  split <;> rfl

theorem exec_setAliasWrite {who : Initiator} {bank word : Nat} (v : Word) (strobes : BitVec 4) (s : State) (hi : initiatorIs who = true)
    (hb : bank < 64) (hw : word < 65536) : exec (.setAliasWrite who bank word v strobes) s = .next (aliasWrite who .set bank word v strobes s) :=
  (if_pos hi).trans (if_pos ⟨hb, hw⟩)

theorem exec_clearAliasWrite {who : Initiator} {bank word : Nat} (v : Word) (strobes : BitVec 4) (s : State) (hi : initiatorIs who = true)
    (hb : bank < 64) (hw : word < 65536) : exec (.clearAliasWrite who bank word v strobes) s = .next (aliasWrite who .clear bank word v strobes s) :=
  (if_pos hi).trans (if_pos ⟨hb, hw⟩)

/-- Settles O39: a write that is made, one that is not, and a unit that the device does not have. -/
theorem aliasWrites : Obligations.AliasWrites := by
  intro who bank word v strobes s w lanes hb hw
  refine ⟨fun hi => ⟨if_neg (by simp [hi]), if_neg (by simp [hi])⟩, fun hr hv hs hwf => ⟨?_, ?_⟩, fun hi h => ?_⟩
  · obtain ⟨m, hword, hother, hm⟩ := aliasWrite_stores .set v strobes hw hr hv hs hwf
    exact ⟨_, m, exec_setAliasWrite v strobes s (initiatorIs_of_writes hr) hb hw, hword.trans (aliasValue_set _ _ _), hother, hm⟩
  · obtain ⟨m, hword, hother, hm⟩ := aliasWrite_stores .clear v strobes hw hr hv hs hwf
    exact ⟨_, m, exec_clearAliasWrite v strobes s (initiatorIs_of_writes hr) hb hw, hword.trans (aliasValue_clear _ _ _), hother, hm⟩
  · refine ⟨_, exec_setAliasWrite v strobes s hi hb hw, ?_, aliasWrite_denied bank word v strobes (by decide) h⟩
    rw [exec_clearAliasWrite v strobes s hi hb hw, aliasWrite_denied bank word v strobes (by decide) h,
      aliasWrite_denied bank word v strobes (by decide) h]

end Sys2Proof.Machine
end


section
/-! PROOFS. One clk at a bank of the Sound Store (R321 to R326): which request is served, and what it does. -/

namespace Sys2Proof.Machine

-- which request is served (R323, R324) -----------------------------------------------------------------------------------------------

/-- A request that is served stands, and no other has a lower key. -/
theorem firstRequest_least (s : State) (qs : List (BankReq × Nat)) (h : qs ≠ []) :
    ∃ q ∈ qs, firstRequest s qs = some q ∧ ∀ y ∈ qs, s.requestKey q ≤ s.requestKey y := by
  induction qs with
  | nil => exact absurd rfl h
  | cons r t ih =>
    by_cases ht : t = []
    · subst ht
      exact ⟨r, List.mem_cons_self, rfl, fun y hy => by rw [List.mem_singleton.1 hy]⟩
    · obtain ⟨q, hq, hfirst, hleast⟩ := ih ht
      rw [firstRequest, hfirst]
      dsimp only
      split
      next hle =>
        refine ⟨r, List.mem_cons_self, rfl, fun y hy => ?_⟩
        obtain rfl | hy := List.mem_cons.1 hy
        · exact Nat.le_refl _
        · exact Nat.le_trans hle (hleast y hy)
      next hle =>
        refine ⟨q, List.mem_cons_of_mem _ hq, rfl, fun y hy => ?_⟩
        obtain rfl | hy := List.mem_cons.1 hy
        · omega
        · exact hleast y hy

/-- The one request whose key is below every other's is served. -/
theorem firstRequest_eq {s : State} {qs : List (BankReq × Nat)} {x : BankReq × Nat} (hx : x ∈ qs)
    (h : ∀ y ∈ qs, y ≠ x → s.requestKey x < s.requestKey y) : firstRequest s qs = some x := by
  obtain ⟨q, hq, hfirst, hleast⟩ := firstRequest_least s qs (List.ne_nil_of_mem hx)
  by_cases hqx : q = x
  · rw [hfirst, hqx]
  · exact absurd (h q hq hqx) (Nat.not_lt.2 (hleast x hx))

theorem courseBay_lt (s : State) (c : Nat) : s.courseBay c < 8 := by
  unfold State.courseBay
  cases h : (List.range 8).find? fun b => (s.bayCourses b).contains c with
  | none => exact Nat.succ_pos 7
  | some b => exact List.mem_range.1 (List.mem_of_find?_eq_some h)

/-- A Course port belongs to one of the device's eight Courses. -/
theorem portOf_lt {who : Initiator} {c : Nat} (hi : initiatorIs who = true) (h : portOf who = some c) : c < 8 := by
  cases who <;> simp_all [portOf, initiatorIs]; omega

/-- The ranks of the table Bank arbitration lie below the weight of the clk stalled. -/
theorem bankRank_lt {who : Initiator} {s : State} (hi : initiatorIs who = true) : s.bankRank who < 2 ^ 20 := by
  have hin : inPort who < 9 := by cases who <;> simp only [inPort] <;> omega
  unfold State.bankRank
  cases hp : portOf who with
  | some c =>
    have hc := portOf_lt hi hp
    have hb := courseBay_lt s c
    have hhome : s.homeCourse c < 16 := by
      have hf := (s.bay (s.partnerOf (s.courseBay c))).first.isLt
      unfold State.homeCourse
      dsimp only
      split <;> omega
    have hm : b2n (s.asMirror (s.courseBay c)) ≤ 1 := by cases s.asMirror (s.courseBay c) <;> decide
    dsimp only
    split <;> omega
  | none => cases who <;> simp_all [initiatorIs]; omega

/-- What stands is what stalled and what is new. -/
theorem mem_standing_foldl (rs : List BankReq) (qs : List (BankReq × Nat)) (y : BankReq × Nat) :
    let out := rs.foldl (fun qs r => if qs.any fun q => q.1.who == r.who then qs else qs ++ [(r, 0)]) qs
    (y ∈ qs → y ∈ out) ∧ (y ∈ out → y ∈ qs ∨ y.2 = 0) := by
  induction rs generalizing qs with
  | nil => exact ⟨id, .inl⟩
  | cons r rs ih =>
    rw [List.foldl_cons]
    split
    · exact ih qs
    · obtain ⟨hin, hout⟩ := ih (qs ++ [(r, 0)])
      refine ⟨fun h => hin (List.mem_append_left _ h), fun h => ?_⟩
      obtain h | h := hout h
      · obtain h | h := List.mem_append.1 h
        · exact .inl h
        · exact .inr (by rw [List.mem_singleton.1 h])
      · exact .inr h

/-- The request that has stalled longest, 16 clk or more, goes before all others (R324). -/
theorem firstRequest_stalled {bank : Nat} {rs : List BankReq} {s : State} {x : BankReq × Nat} (hx : x ∈ (s.bank bank).waiting)
    (h16 : 16 ≤ x.2) (hmax : x.2 < 2 ^ 32)
    (hall : ∀ y ∈ (s.bank bank).waiting, initiatorIs y.1.who = true ∧ (y ≠ x → y.2 < x.2)) :
    firstRequest s (standing bank rs s) = some x := by
  have hrank : s.bankRank x.1.who < 2 ^ 20 := bankRank_lt (hall x hx).1
  refine firstRequest_eq ((mem_standing_foldl rs _ x).1 hx) fun y hy hne => ?_
  have hlater : y.2 < x.2 := by
    obtain hw | hnew := (mem_standing_foldl rs _ y).2 hy
    · exact (hall y hw).2 hne
    · omega
  unfold State.requestKey
  rw [if_pos h16]
  split <;> omega

/-- New requests of initiators that do not wait, each its own, all stand. -/
theorem standing_fresh {bank : Nat} {rs : List BankReq} {s : State} (hw : (s.bank bank).waiting = [])
    (hd : rs.Pairwise fun a b => a.who ≠ b.who) : standing bank rs s = rs.map fun r => (r, 0) := by
  have grows : ∀ (rs : List BankReq) (qs : List (BankReq × Nat)), rs.Pairwise (fun a b => a.who ≠ b.who) →
      (∀ q ∈ qs, ∀ r ∈ rs, q.1.who ≠ r.who) →
      rs.foldl (fun qs r => if qs.any fun q => q.1.who == r.who then qs else qs ++ [(r, 0)]) qs = qs ++ rs.map fun r => (r, 0) := by
    intro rs
    induction rs with
    | nil => exact fun qs _ _ => (List.append_nil qs).symm
    | cons r rs ih =>
      intro qs hd hne
      obtain ⟨hr, hrs⟩ := List.pairwise_cons.1 hd
      have hnot : (qs.any fun q => q.1.who == r.who) = false :=
        List.any_eq_false.2 fun q hq => by simpa using hne q hq r List.mem_cons_self
      rw [List.foldl_cons, hnot, if_neg (by decide), ih _ hrs]
      · simp
      · intro q hq r' hr'
        obtain hq | hq := List.mem_append.1 hq
        · exact hne q hq r' (List.mem_cons_of_mem _ hr')
        · rw [List.mem_singleton.1 hq]
          exact hr r' hr'
  unfold standing
  rw [hw]
  exact grows rs [] hd fun q hq => absurd hq List.not_mem_nil

-- the state in which it is performed ---------------------------------------------------------------------------------------------------

/-- The bank's requests that were not served wait for the next clk; nothing has been read yet. -/
def State.clkAt (s : State) (bank : Nat) (ws : List (BankReq × Nat)) : State :=
  let u := s.setBank bank { s.bank bank with waiting := ws }
  { u with mem := { u.mem with lastRead := [] } }

theorem clkAt_bank (s : State) (bank : Nat) (ws : List (BankReq × Nat)) (n : Nat) :
    (s.clkAt bank ws).bank n = { s.bank n with waiting := if n = bank then ws else (s.bank n).waiting } := by
  show (s.setBank bank { s.bank bank with waiting := ws }).bank n = _
  by_cases h : n = bank
  · subst h
    rw [State.setBank_same, if_pos rfl]
  · rw [State.setBank_other _ _ _ _ h, if_neg h]

theorem clkAt_reachesWord (s : State) (bank : Nat) (ws : List (BankReq × Nat)) (who : Initiator) (w : Nat) (write : Bool) :
    reachesWord who w write (s.clkAt bank ws) = reachesWord who w write s := by
  have hport : ∀ c b, portReaches c b (s.clkAt bank ws) = portReaches c b s := by
    intro c b
    unfold portReaches
    rw [clkAt_bank]
    rfl
  unfold reachesWord reaches
  cases who <;> simp only [clkAt_bank, hport]

theorem clkAt_shownWord (s : State) (bank : Nat) (ws : List (BankReq × Nat)) (w : Nat) : shownWord w (s.clkAt bank ws) = shownWord w s := by
  have hbanks : (s.clkAt bank ws).bayBanks = s.bayBanks := by
    funext b
    unfold State.bayBanks
    simp only [clkAt_bank]
  have hcoef : (s.clkAt bank ws).coefAt w = s.coefAt w := by
    unfold State.coefAt
    rw [clkAt_bank, hbanks]
    rfl
  unfold shownWord
  rw [hcoef]
  rfl

/-- Where nothing stalled and no two requests share a line, the request of the lowest key is performed alone. -/
theorem serveBank_alone {bank : Nat} {rs : List BankReq} {s : State} {r : BankReq} (hw : (s.bank bank).waiting = [])
    (hd : rs.Pairwise fun a b => a.who ≠ b.who) (hr : r ∈ rs)
    (hfirst : ∀ q ∈ rs, q ≠ r → s.requestKey (r, 0) < s.requestKey (q, 0) ∧ sameLine s r q = false) :
    serveBank bank rs s =
      performRequest bank (s.clkAt bank ((rs.filter fun q => q.who != r.who).map fun q => (q, 1))) r := by
  have hself : sameLine s r r = false := by
    unfold sameLine
    cases portOf r.who <;> simp
  have hline : ∀ q ∈ rs, sameLine s r q = false := by
    intro q hq
    by_cases h : q = r
    · rw [h, hself]
    · exact (hfirst q hq h).2
  have hserved : firstRequest s (standing bank rs s) = some (r, 0) := by
    rw [standing_fresh hw hd]
    refine firstRequest_eq (List.mem_map_of_mem hr) fun y hy hne => ?_
    obtain ⟨q, hq, rfl⟩ := List.mem_map.1 hy
    exact (hfirst q hq fun h => hne (by rw [h])).1
  have hmates : ((rs.map fun q => (q, 0)).filter fun q : BankReq × Nat => sameLine s r q.1) = [] :=
    List.filter_eq_nil_iff.2 fun q hq => by
      obtain ⟨q', hq', rfl⟩ := List.mem_map.1 hq
      simp [hline q' hq']
  have hrest : (((rs.map fun q => (q, 0)).filter fun q : BankReq × Nat => !(q.1.who == r.who || sameLine s r q.1)).map fun q => (q.1, q.2 + 1)) =
      (rs.filter fun q => q.who != r.who).map fun q => (q, 1) := by
    rw [List.filter_map, List.map_map]
    refine congrArg _ (List.filter_congr fun q hq => ?_)
    simp [hline q hq, bne]
  unfold serveBank
  dsimp only
  rw [hserved, standing_fresh hw hd]
  dsimp only
  rw [hmates, hrest]
  rfl

-- what it does (R321, R322, R325, R326) ------------------------------------------------------------------------------------------------

theorem aliasValue_plain (old v : Word) : aliasValue .plain old v 0xF = v := by
  show (old &&& ~~~(0xFFFFFFFF : Word)) ||| (v &&& 0xFFFFFFFF) = v
  have hm : (0xFFFFFFFF : Word) = BitVec.allOnes 32 := rfl
  rw [hm, BitVec.not_allOnes, BitVec.and_zero, BitVec.zero_or, BitVec.and_allOnes]

/-- A read that its initiator may make delivers the word, or 0 for a double-bit error. -/
theorem readStore_reads {who : Initiator} {w : Nat} {dbe : Bool} {s : State} (hr : reachesWord who w false s = true)
    (hs : (s.bank (bankOf w)).state = 0 ∨ who = .test) :
    readStore who w dbe s = if dbe || s.mem.bad.contains w then (0, false, countDbe w s) else (shownWord w s, false, s) := by
  have hz : (s.bank (bankOf w)).state ≠ 3 := not_zeroising hr hs
  unfold readStore
  rw [if_pos hr]
  obtain h0 | rfl := hs
  · cases who <;> simp only [touchBank_inService h0, if_neg hz]
  · simp only [if_neg hz]

/-- One that it may not make reads 0, and is counted where R326 says so. -/
theorem readStore_denied {who : Initiator} {w : Nat} {dbe : Bool} {s : State} (hr : reachesWord who w false s = false) :
    readStore who w dbe s = (0, true, if deniedCounted who then countDenied s else s) := by
  unfold readStore
  rw [hr]
  rfl

section
variable {bank : Nat} {r : BankReq} {s : State} (ws : List (BankReq × Nat))

theorem performRequest_writes {v : Word} (hword : r.acc.word < 65536) (hs : (s.bank bank).state = 0 ∨ r.who = .test) (hwr : r.acc.wr = some v)
    (hstrobes : r.acc.strobes = 0xF) (hr : reachesWord r.who (65536 * bank + r.acc.word) true s = true) :
    performRequest bank (s.clkAt bank ws) r = putStore (65536 * bank + r.acc.word) v 0xF (s.clkAt bank ws) := by
  have hs' : ((s.clkAt bank ws).bank (bankOf (65536 * bank + r.acc.word))).state = 0 ∨ r.who = .test := by
    rw [clkAt_bank, bankOf_place hword]
    exact hs
  unfold performRequest
  rw [hwr]
  dsimp only
  rw [writeStore_puts ((clkAt_reachesWord s bank ws _ _ _).trans hr) (.inr rfl) hs', hstrobes, ite_self, aliasValue_plain]

theorem performRequest_reads (hword : r.acc.word < 65536) (hs : (s.bank bank).state = 0 ∨ r.who = .test) (hwr : r.acc.wr = none)
    (hr : reachesWord r.who (65536 * bank + r.acc.word) false s = true) :
    performRequest bank (s.clkAt bank ws) r =
      let x := if r.dbe || s.mem.bad.contains (65536 * bank + r.acc.word) then
          ((0 : Word), countDbe (65536 * bank + r.acc.word) (s.clkAt bank ws))
        else (shownWord (65536 * bank + r.acc.word) s, s.clkAt bank ws)
      { x.2 with mem := { x.2.mem with lastRead := [x.1] } } := by
  have hs' : ((s.clkAt bank ws).bank (bankOf (65536 * bank + r.acc.word))).state = 0 ∨ r.who = .test := by
    rw [clkAt_bank, bankOf_place hword]
    exact hs
  unfold performRequest
  rw [hwr]
  dsimp only
  rw [readStore_reads ((clkAt_reachesWord s bank ws _ _ _).trans hr) hs', clkAt_shownWord]
  have hbad : (s.clkAt bank ws).mem.bad = s.mem.bad := rfl
  rw [hbad]
  cases r.dbe || s.mem.bad.contains (65536 * bank + r.acc.word) <;> rfl

theorem performRequest_denied (hwr : r.acc.wr = none) (hr : reachesWord r.who (65536 * bank + r.acc.word) false s = false) :
    performRequest bank (s.clkAt bank ws) r =
      let t := refuseFetch r.who (if deniedCounted r.who then countDenied (s.clkAt bank ws) else s.clkAt bank ws)
      { t with mem := { t.mem with lastRead := t.mem.lastRead ++ [0] } } := by
  unfold performRequest
  rw [hwr]
  dsimp only
  rw [readStore_denied ((clkAt_reachesWord s bank ws _ _ _).trans hr)]
  rfl

end

end Sys2Proof.Machine
end


section
/-! PROOFS. Bank states, content copies and their requests (R330, R332, R339 to R345, R350, R433). -/

namespace Sys2Proof.Machine

/-- No two addresses of LPDDR4X name one byte of one channel (R339). -/
theorem ddrPlace_injective {c0 c1 x y : Nat} {p : Nat × Nat} (hx : ddrPlace c0 c1 x = some p) (hy : ddrPlace c0 c1 y = some p) : x = y := by
  unfold ddrPlace at hx hy
  by_cases hc : c0 = c1
  · rw [if_pos hc] at hx hy
    split at hx
    · split at hy
      · obtain ⟨h1, h2⟩ := Prod.mk.inj (Option.some.inj (hx.trans hy.symm))
        omega
      · exact absurd hy (by simp)
    · exact absurd hx (by simp)
  · rw [if_neg hc] at hx hy
    grind

-- requests to external memory (R340) -------------------------------------------------------------------------------------------------------

theorem queueRequest_perm (q : MemReq) (rs : List MemReq) : (queueRequest q rs).Perm (q :: rs) := by
  induction rs with
  | nil => exact List.Perm.refl _
  | cons r rs ih =>
    rw [queueRequest]
    split
    · exact (ih.cons r).trans (List.Perm.swap q r rs)
    · exact List.Perm.refl _

/-- A request that is queued keeps the order of the ranks. -/
theorem queueRequest_sorted (q : MemReq) (rs : List MemReq) (h : rs.Pairwise fun x y => memRank x ≤ memRank y) :
    (queueRequest q rs).Pairwise fun x y => memRank x ≤ memRank y := by
  induction rs with
  | nil => exact List.pairwise_singleton _ _
  | cons r rs ih =>
    obtain ⟨hr, hrs⟩ := List.pairwise_cons.1 h
    rw [queueRequest]
    split
    next hle =>
      refine List.pairwise_cons.2 ⟨fun x hx => ?_, ih hrs⟩
      obtain rfl | hx := List.mem_cons.1 ((queueRequest_perm q rs).mem_iff.1 hx)
      · exact hle
      · exact hr x hx
    next hle =>
      refine List.pairwise_cons.2 ⟨fun x hx => ?_, h⟩
      obtain rfl | hx := List.mem_cons.1 hx
      · omega
      · exact Nat.le_trans (by omega) (hr x hx)

/-- A request that is posted waits behind the one in service, in the order of the ranks. -/
theorem postRequest_queues (bay o : Nat) (stream : Bool) {s : State} {r : MemReq} {rs : List MemReq} (h : s.mem.requests = r :: rs)
    (hsort : rs.Pairwise fun x y => memRank x ≤ memRank y) :
    ∃ us, (postRequest bay o stream s).mem.requests = r :: us ∧ us.Pairwise (fun x y => memRank x ≤ memRank y) ∧
      ∃ q, us.Perm (q :: rs) ∧ q.bay = bay ∧ q.object = o ∧ q.cls = requestClass bay stream s := by
  refine ⟨_, ?_, queueRequest_sorted { cls := requestClass bay stream s, bay := bay, stream := stream, object := o } rs hsort,
    _, queueRequest_perm _ rs, rfl, rfl, rfl⟩
  unfold postRequest enterRequest
  rw [h]

/-- A request that has ended is no longer there. -/
theorem endRequest_gone (bay o : Nat) (s : State) :
    ∀ r ∈ (endRequest bay o s).mem.requests, r.bay = bay → r.object = o → r.refill ≠ none := by
  intro r hr hb ho hn
  obtain ⟨-, hkeep⟩ := List.mem_filter.1 hr
  simp [hb, ho, hn] at hkeep

-- copies (R328, R343) -----------------------------------------------------------------------------------------------------------------------

/-- Marking banks as protected leaves the store and the records of the objects. -/
theorem protectBanks_keeps (prot : Bool) (rs : List Run) (s : State) :
    protectBanks prot rs s = { s with mem := { s.mem with banks := (protectBanks prot rs s).mem.banks } } := by
  have keeps : ∀ (ns : List Nat) (s : State), let t := ns.foldl (fun s n => s.setBank n { s.bank n with prot := true }) s
      t = { s with mem := { s.mem with banks := t.mem.banks } } := by
    intro ns
    induction ns with
    | nil => exact fun s => rfl
    | cons n ns ih => exact fun s => (ih _).trans rfl
  unfold protectBanks
  split
  · exact keeps _ s
  · rfl

/-- Writing into runs changes the store's words alone. -/
theorem putRun_keeps (rs : List Run) (i : Nat) (ws : List Word) (s : State) :
    putRun rs i ws s = { s with mem := { s.mem with store := (putRun rs i ws s).mem.store, bad := (putRun rs i ws s).mem.bad } } := by
  have keeps : ∀ (ps : List (Word × Nat)) (s : State),
      let t := ps.foldl (fun s p => match wordIn (i + p.2) rs with | some w => putStore w p.1 0xF s | none => s) s
      t = { s with mem := { s.mem with store := t.mem.store, bad := t.mem.bad } } := by
    intro ps
    induction ps with
    | nil => exact fun s => rfl
    | cons p ps ih =>
      intro s
      dsimp only at ih ⊢
      rw [List.foldl_cons, ih]
      cases wordIn (i + p.2) rs <;> rfl
  exact keeps _ s

theorem word_putStore_other (w x : Nat) (v : Word) (strobes : BitVec 4) (s : State) (h : x ≠ w) :
    Mem.word (putStore w v strobes s).mem.store x = Mem.word s.mem.store x := by
  show Mem.word (Mem.putWord s.mem.store w v strobes) x = _
  unfold Mem.word
  rw [Mem.read_putWord_other _ _ _ _ _ (by omega), Mem.read_putWord_other _ _ _ _ _ (by omega),
    Mem.read_putWord_other _ _ _ _ _ (by omega), Mem.read_putWord_other _ _ _ _ _ (by omega)]

/-- Words written into one run that has room for them stand there in their order. -/
theorem putRun_words (a n k : Nat) (ws : List Word) (s : State) (hk : k + ws.length ≤ n) (hwf : Mem.wf s.mem.store = true) :
    let t := (ws.zipIdx k).foldl (fun s p => match wordIn (0 + p.2) [(a, n)] with | some w => putStore w p.1 0xF s | none => s) s
    (∀ i, i < ws.length → Mem.word t.mem.store (a + (k + i)) = ws.getD i 0) ∧
      ∀ w, w < a + k → Mem.word t.mem.store w = Mem.word s.mem.store w := by
  induction ws generalizing k s with
  | nil => exact ⟨fun i hi => absurd hi (Nat.not_lt_zero i), fun w _ => rfl⟩
  | cons v ws ih =>
    have hlen : k + 1 + ws.length ≤ n := by rw [List.length_cons] at hk; omega
    have hin : wordIn (0 + k) [(a, n)] = some (a + k) := by
      rw [Nat.zero_add, wordIn, if_pos (by rw [List.length_cons] at hk; omega)]
    have hwf' : Mem.wf (putStore (a + k) v 0xF s).mem.store = true := Mem.wf_putWord s.mem.store (a + k) v 0xF hwf
    obtain ⟨new, old⟩ := ih (k + 1) (putStore (a + k) v 0xF s) hlen hwf'
    rw [List.zipIdx_cons, List.foldl_cons]
    simp only [hin]
    refine ⟨fun i hi => ?_, fun w hw => (old w (by omega)).trans (word_putStore_other _ _ _ _ _ (by omega))⟩
    cases i with
    | zero => exact (old (a + (k + 0)) (by omega)).trans (Mem.word_putWord_same s.mem.store (a + k) v hwf)
    | succ i =>
      have hat : a + (k + (i + 1)) = a + (k + 1 + i) := by omega
      rw [hat]
      exact new i (by rw [List.length_cons] at hi; omega)

/-- A copy that arrives makes its object resident; nothing but the store, the banks' marks and the object's record changes. -/
theorem placeCopy_keeps (bay o : Nat) (s : State) : placeCopy bay o s =
    { s.onResid bay o (fun r => { r with resident := true, loading := false }) with
      mem := { (s.onResid bay o fun r => { r with resident := true, loading := false }).mem with
        store := (placeCopy bay o s).mem.store, bad := (placeCopy bay o s).mem.bad, banks := (placeCopy bay o s).mem.banks } } := by
  unfold placeCopy
  dsimp only
  rw [protectBanks_keeps, putRun_keeps]

theorem onResid_same (s : State) (bay o : Nat) (f : Residency → Residency) : (s.onResid bay o f).resid bay o = f (s.resid bay o) :=
  Tab.look_put_same _ _ _ _

/-- The words of a copy that has one run with room for it stand there. -/
theorem placeCopy_words {bay o a n : Nat} {s : State} (hat : (s.resid bay o).at_ = [(a, n)]) (hn : n = objWords (s.contentOf o).header)
    (hwf : Mem.wf s.mem.store = true) (i : Nat) (hi : i < n) : Mem.word (placeCopy bay o s).mem.store (a + i) = s.objWord o i := by
  have hlen : ((List.range (objWords (s.contentOf o).header)).map (s.objWord o)).length = n := by
    rw [List.length_map, List.length_range, hn]
  obtain ⟨new, -⟩ := putRun_words a n 0 ((List.range (objWords (s.contentOf o).header)).map (s.objWord o))
    (s.onResid bay o fun r => { r with resident := true, loading := false }) (by omega) hwf
  have hword := new i (by omega)
  rw [Nat.zero_add] at hword
  unfold placeCopy
  dsimp only
  rw [protectBanks_keeps, hat]
  refine hword.trans ?_
  rw [List.getD_eq_getElem _ _ (by omega), List.getElem_map, List.getElem_range]

/-- Only an object that is being fetched, and whose request is in service, becomes resident. -/
theorem becomeResident_stays {bay o : Nat} {s : State} (h : (s.resid bay o).loading = false ∨ s.inStore o = false ∨ s.servedNow bay o = false) :
    becomeResident bay o s = s := by
  unfold becomeResident
  exact if_pos (by simpa using h)

/-- One whose copy arrives becomes resident, and its request ends; no pin waits for it. -/
theorem becomeResident_places {bay o : Nat} {s : State} (hl : (s.resid bay o).loading = true) (hin : s.inStore o = true)
    (hs : s.servedNow bay o = true) (hd : s.noDecrypt false = false ∨ (s.contentOf o).prot = false) (hp : pinJobs bay o s = []) :
    becomeResident bay o s = endRequest bay o (placeCopy bay o s) := by
  have hpins : pinJobs bay o (endRequest bay o (placeCopy bay o s)) = [] := by
    rw [← hp, placeCopy_keeps]
    rfl
  unfold becomeResident
  rw [if_neg (by simp [hl, hin, hs]), if_neg (by obtain h | h := hd <;> simp [h])]
  dsimp only
  rw [hpins]
  rfl

/-- A protected one is dropped where the Vault refuses to decrypt it (R433). -/
theorem becomeResident_refused {bay o : Nat} {s : State} (hl : (s.resid bay o).loading = true) (hin : s.inStore o = true)
    (hs : s.servedNow bay o = true) (hd : s.noDecrypt false = true) (hp : (s.contentOf o).prot = true) :
    becomeResident bay o s = endRequest bay o (s.onResid bay o fun r => { r with loading := false, at_ := [] }) := by
  unfold becomeResident
  rw [if_neg (by simp [hl, hin, hs]), if_pos ⟨hd, hp⟩]

-- the statement -----------------------------------------------------------------------------------------------------------------------------

theorem exec_soundStoreAccess {bank : Nat} {rs : List BankReq} (s : State) (hb : bank < 64) (hw : ∀ r ∈ rs, r.acc.word < 65536)
    (hi : ∀ r ∈ rs, initiatorIs r.who = true) : exec (.soundStoreAccess bank rs) s = .next (serveBank bank rs s) := by
  have hall : (rs.all fun r => initiatorIs r.who) = true := List.all_eq_true.2 hi
  have hwords : (rs.all fun r => decide (r.acc.word < 65536)) = true := List.all_eq_true.2 fun r hr => decide_eq_true (hw r hr)
  exact (if_neg (by simp [hall])).trans (if_pos ⟨hb, hwords⟩)

theorem exec_bankRetention {b : Nat} (s : State) (hb : b < 64) :
    exec (.bankRetention b) s = .next (if mayRetain b s then s.setBank b { s.bank b with state := 1 } else s) := if_pos hb

theorem exec_bankWake {b : Nat} (s : State) (hb : b < 64) : exec (.bankWake b) s = .next (wakeBank b s) := if_pos hb

theorem exec_zeroiseDone {b : Nat} (s : State) (hb : b < 64) : exec (.zeroiseDone b) s =
    .next (if (s.bank b).state = 3 then s.setBank b { s.bank b with state := 0, prot := bankProtects b s } else s) := if_pos hb

theorem exec_contentResident {bay : Nat} (o : Nat) (s : State) (hb : bay < 8) :
    exec (.contentResident bay o) s = .next (becomeResident bay o s) := if_pos hb

/-- Settles O40: the request that is served and what it does; the bank states; a copy that arrives; the order of the requests. -/
theorem soundStoreAndBanks : Obligations.SoundStoreAndBanks := by
  refine ⟨fun bank rs s hb hwords hinit => ⟨fun x hx h16 hmax hall => firstRequest_stalled hx h16 hmax hall, fun hw => ⟨?_, ?_⟩⟩,
    fun c0 c1 x y p hx hy => ddrPlace_injective hx hy, fun b s hb => ⟨?_, ?_, ?_, ?_, ?_, ?_, ?_⟩⟩
  case refine_1 =>
    intro hrs
    rw [exec_soundStoreAccess s hb hwords hinit]
    subst hrs
    unfold serveBank standing
    simp only [hw, List.foldl_nil, firstRequest]
  case refine_2 =>
    intro hd r hr hfirst hs hwf w u
    have hexec : exec (.soundStoreAccess bank rs) s = _ :=
      (exec_soundStoreAccess s hb hwords hinit).trans (congrArg _ (serveBank_alone hw hd hr hfirst))
    refine ⟨fun v hwr hstrobes hreach => ?_, fun hwr hreach hdbe hbad => ?_, fun hwr hreach hdbe => ?_, fun hwr hreach hden => ?_,
      fun k hk hwr hreach => ?_⟩
    · rw [performRequest_writes _ (hwords r hr) hs hwr hstrobes hreach] at hexec
      exact ⟨_, _, hexec, Mem.word_putWord_same _ _ _ hwf, fun a ha => Mem.read_putWord_other _ _ _ _ _ (by omega), rfl⟩
    · rw [performRequest_reads _ (hwords r hr) hs hwr hreach, hdbe, hbad] at hexec
      exact hexec
    · rw [performRequest_reads _ (hwords r hr) hs hwr hreach] at hexec
      have hbit : (r.dbe || s.mem.bad.contains (65536 * bank + r.acc.word)) = true := by simpa using hdbe
      rw [hbit] at hexec
      refine ⟨_, hexec, rfl, rfl, rfl, ?_⟩
      show ((s.health.storeDbe.put (bankOf w) (s.health.storeDbe.look (bankOf w) 0 + 1)).look bank 0) = _
      rw [bankOf_place (hwords r hr), Tab.look_put_same]
    · rw [performRequest_denied _ hwr hreach, if_pos hden] at hexec
      have hcore : ∀ t, refuseFetch r.who t = t := by
        intro t
        cases hwho : r.who <;> simp_all [refuseFetch, deniedCounted]
      rw [hcore] at hexec
      exact hexec
    · have hden : deniedCounted r.who = false := by rw [hk]; rfl
      have hcore : ∀ t, refuseFetch r.who t = t.setCore k ((t.core k).onCur fun q => q.sticky csrFERR true) := by
        intro t
        rw [hk]
        rfl
      rw [performRequest_denied _ hwr hreach, hden, hcore] at hexec
      refine ⟨_, hexec, rfl, ?_⟩
      show RegSet.flag ((State.setCore _ k _).core k).cur csrFERR = true
      rw [State.setCore_same, VCore.cur_onCur, RegSet.flag_sticky _ _ _ _ (by decide), if_pos rfl, Bool.or_true]
  case refine_3 => exact fun h => (exec_bankRetention s hb).trans (by rw [if_pos h])
  case refine_4 => exact fun h => (exec_bankRetention s hb).trans (by rw [h]; rfl)
  case refine_5 =>
    intro h
    refine ⟨_, exec_bankWake s hb, ?_, ?_⟩
    · unfold wakeBank
      rw [if_pos h]
      exact State.setBank_same s b _
    · unfold wakeBank
      rw [if_pos h]
      rfl
  case refine_6 => exact fun h => (exec_bankWake s hb).trans (congrArg _ (if_neg h))
  case refine_7 =>
    intro h
    have hrun := exec_zeroiseDone s hb
    rw [if_pos h] at hrun
    refine ⟨_, hrun, ?_, ?_, rfl⟩
    · rw [State.setBank_same]
    · rw [State.setBank_same]
  case refine_8 => exact fun h => (exec_zeroiseDone s hb).trans (congrArg _ (if_neg h))
  case refine_9 =>
    intro bay o hbay
    refine ⟨fun h => (exec_contentResident o s hbay).trans (congrArg _ (becomeResident_stays h)), fun hl hin hs hd hp => ?_,
      fun hl hin hs hd hp => ?_, fun stream r rs h hsort => postRequest_queues bay o stream h hsort⟩
    · have hrec : (placeCopy bay o s).resid bay o = { s.resid bay o with resident := true, loading := false } := by
        rw [placeCopy_keeps]
        exact onResid_same s bay o fun r => { r with resident := true, loading := false }
      refine ⟨_, (exec_contentResident o s hbay).trans (congrArg _ (becomeResident_places hl hin hs hd hp)), ?_, ?_,
        endRequest_gone bay o (placeCopy bay o s), fun a n hat hn hwf i hi => placeCopy_words hat hn hwf i hi⟩
      · exact congrArg (fun r => r.resident) hrec
      · exact congrArg (fun r => r.loading) hrec
    · have hrec := onResid_same s bay o fun r => { r with loading := false, at_ := [] }
      refine ⟨_, (exec_contentResident o s hbay).trans (congrArg _ (becomeResident_refused hl hin hs hd hp)), ?_, ?_, rfl⟩
      · exact congrArg (fun r => r.resident) hrec
      · exact congrArg (fun r => r.loading) hrec

end Sys2Proof.Machine
end


section
/-! PROOFS. Accesses of the Host Window from both sides (R336, R337, R493) and quad SPI transactions (R494). -/

namespace Sys2Proof.Machine

-- an access of the Host Window (R336) ------------------------------------------------------------------------------------------------------

/-- Accesses inside the Host Window lie on the map. -/
theorem inMap_of_window {inner outer : List WordAcc} (hi : ∀ a ∈ inner, a.word < 0x40000) (ho : ∀ a ∈ outer, a.word < 0x40000) :
    inMap inner outer = true :=
  Bool.and_eq_true_iff.2 ⟨List.all_eq_true.2 fun a ha => hostPlace_window (hi a ha), List.all_eq_true.2 fun a ha => hostPlace_window (ho a ha)⟩

/-- Without an outer access, or without a host port, the inner one is alone. -/
theorem exec_hostWindowAccess_inner {inner outer : Option WordAcc} {s : State} (hm : inMap inner.toList outer.toList = true)
    (ho : (if s.power.host == 3 then none else outer) = none) : exec (.hostWindowAccess inner outer) s =
      .next { (innerSide inner s).2 with mem := { (innerSide inner s).2.mem with lastRead := (innerSide inner s).1 } } := by
  change execHostWindowAccess inner outer s = _
  rw [execHostWindowAccess, hm, ho]
  rfl

/-- What an outer access leaves: the words that both sides read, and BSY_N (R336, R337). -/
def hostWindowOf (s : State) (got : List Word) (o : WordAcc) (h : HostSide) : State :=
  { h.st with mem := { h.st.mem with lastRead := got ++ (if o.wr.isNone then [h.read] else []), bsyN := !(h.busy && s.power.host == 1) } }

theorem exec_hostWindowAccess_outer {inner : Option WordAcc} {o : WordAcc} {s : State} (hm : inMap inner.toList [o] = true)
    (hh : s.power.host ≠ 3) : exec (.hostWindowAccess inner (some o)) s =
      .next (hostWindowOf s (innerSide inner s).1 o (hostAccess inner o s)) := by
  have ho : (if s.power.host == 3 then none else some o) = some o := if_neg (by simpa using hh)
  change execHostWindowAccess inner (some o) s = _
  rw [execHostWindowAccess, show (some o).toList = [o] from rfl, hm, ho]
  rfl

theorem hostPort_of_portUp {s : State} (h : s.portUp = true) : s.power.host ≠ 3 := by
  obtain ⟨⟨_, hh⟩, _⟩ : (s.inReset = false ∧ ¬s.power.host = 3) ∧ ¬s.power.state = 2 := by simpa [State.portUp, State.hostOff] using h
  exact hh

/-- Out of reset an inner access of the window is made. -/
theorem innerSide_window {i : WordAcc} {s : State} (hr : s.inReset = false) (hi : i.word < 0x40000) :
    innerSide (some i) s = (innerRead (some i) s, putWin i s) := by
  simp [innerSide, hr, innerAccess, hi]

/-- The Conductor's read of TMR_STATUS clears MISSED and LOST (R416). -/
theorem innerSide_timerStatus {n : Nat} {s : State} (hr : s.inReset = false) (hn : n < 16) :
    innerSide (some { word := 0x40000 + (0xD0C + 0x20 * n) / 4 }) s =
      ([s.tmrStatus n], s.setTimer n { s.timer n with missed := 0, lost := 0 }) := by
  have hoff : 4 * (0x40000 + (0xD0C + 0x20 * n) / 4 - 0x40000) = 0xD0C + 0x20 * n := by omega
  have hunit : (0xD0C + 0x20 * n - 0xD00) / 0x20 = n := by omega
  have hreg : (0xD0C + 0x20 * n) % 0x20 = 0xC := by omega
  have hpage : s.pageReg (0xD0C + 0x20 * n) = s.tmrStatus n := by
    unfold State.pageReg
    simp (disch := omega) only [if_neg, if_pos, hunit, hreg]
    rfl
  unfold innerSide innerAccess
  dsimp only
  rw [hr, if_neg (by decide), if_neg (by omega), hoff]
  unfold innerReadReg
  simp (disch := omega) only [if_neg, if_pos, hunit, hpage]

section Window
variable {i o : WordAcc} {s : State} (hi : i.word < 0x40000) (ho : o.word < 0x40000)

include ho in
theorem exec_hostWindowAccess_alone (hu : s.portUp = true) : exec (.hostWindowAccess none (some o)) s =
    .next (hostWindowOf s [] o { read := Mem.word s.mem.win o.word, st := putWin o s }) := by
  rw [exec_hostWindowAccess_outer (inMap_of_window (by simp) (by simpa using ho)) (hostPort_of_portUp hu), hostAccess_window hu (by simp) ho]
  rfl

include hi ho in
theorem exec_hostWindowAccess_both (hu : s.portUp = true) : exec (.hostWindowAccess (some i) (some o)) s =
    .next (hostWindowOf s (innerRead (some i) s) o (windowAccess s.pcieForm (some i) o s)) := by
  rw [exec_hostWindowAccess_outer (inMap_of_window (by simpa using hi) (by simpa using ho)) (hostPort_of_portUp hu),
    hostAccess_window hu (by simpa using hi) ho, innerSide_window (not_inReset_of_portUp hu) hi]

/-- Where the sides do not collide, or both read in a FAST region, both are done. -/
theorem windowAccess_bothDone (again : Bool) (h : collides i o = false ∨ (bothRead i o = true ∧ s.fastWord o.word = true)) :
    windowAccess again (some i) o s = { read := Mem.word s.mem.win o.word, st := putWin o (putWin i s) } := by
  unfold windowAccess
  exact if_pos (by obtain h | ⟨hb, hf⟩ := h <;> simp [*])

/-- In a SAFE region a reader outside sees the old word, and the inside writes first (R336). -/
theorem windowAccess_safe (again : Bool) (hc : collides i o = true) (hf : s.fastWord o.word = false) : windowAccess again (some i) o s =
    let s1 := putWin o (putWin i s)
    { read := Mem.word s.mem.win o.word, st := { s1 with mem := { s1.mem with hwSafe := satInc s1.mem.hwSafe } } } := by
  simp [windowAccess, hc, hf]

/-- On PCIe the bridge repeats a busy access (R337). -/
theorem windowAccess_again (hc : collides i o = true) (hb : bothRead i o = false) (hf : s.fastWord o.word = true) :
    let s1 := putWin i s
    let s2 : State := { s1 with mem := { s1.mem with hwBusy := satInc s1.mem.hwBusy } }
    windowAccess true (some i) o s = { read := Mem.word s2.mem.win o.word, st := putWin o s2 } := by
  simp [windowAccess, hc, hb, hf]

end Window

@[simp] theorem putWin_hwSafe (a : WordAcc) (s : State) : (putWin a s).mem.hwSafe = s.mem.hwSafe := by
  obtain ⟨win, h⟩ := putWin_eq a s
  rw [h]

@[simp] theorem putWin_portUp (a : WordAcc) (s : State) : (putWin a s).portUp = s.portUp := by
  obtain ⟨win, h⟩ := putWin_eq a s
  rw [h]
  rfl

/-- What a write puts into the window depends on the window alone. -/
theorem putWin_win {a : WordAcc} {s t : State} (h : s.mem.win = t.mem.win) : (putWin a s).mem.win = (putWin a t).mem.win := by
  unfold putWin
  cases a.wr with
  | none => exact h
  | some v => exact congrArg (fun m => Mem.putWord m a.word v a.strobes) h

-- quad SPI (R494) ----------------------------------------------------------------------------------------------------------------------------

/-- What a transaction leaves: the words read, and its status byte (R494). -/
def qspiDone (r : List Word × Option Nat × State) : State :=
  let stb : BitVec 8 := match r.2.1 with | none => 0 | some i => BitVec.ofNat 8 (2 * i + 1)
  { r.2.2 with mem := { r.2.2.mem with lastRead := r.1, qspiStatus := stb } }

/-- A transaction whose words lie in the window is run where quad SPI is the host port form. -/
theorem qspiRun_window {as : List WordAcc} {s : State} (h1 : as ≠ []) (h64 : as.length ≤ 64) (ha : ∀ a ∈ as, a.word < 0x40000) :
    qspiRun as [] s = withForm 2 s (.next (qspiDone (qspiWords [] as 0 [] s))) := by
  have hlen : as.length ≠ 0 := fun h => h1 (List.eq_nil_of_length_eq_zero h)
  have hempty : as.isEmpty = false := by simpa using h1
  have hunit : as.length - 1 < if false = true then 0 else 64 := by
    rw [if_neg Bool.false_ne_true]
    omega
  unfold qspiRun withUnit
  rw [hempty, if_pos hunit, inMap_of_window (by simp) ha, if_neg (by decide)]
  rfl

/-- While the port is up, a word that nothing meets is moved, and the next one follows. -/
theorem qspiWords_moves {a : WordAcc} {as : List WordAcc} {i : Nat} {got : List Word} {s : State} (hu : s.portUp = true) (ha : a.word < 0x40000) :
    qspiWords [] (a :: as) i got s =
      qspiWords [] as (i + 1) (if a.wr.isNone then got ++ [Mem.word s.mem.win a.word] else got) (putWin a s) := by
  rw [qspiWords]
  simp only [List.find?_nil, hostAccess_window hu (show ∀ j ∈ (none : Option WordAcc), j.word < 0x40000 by simp) ha, windowAccess]
  rfl

/-- Words read in a transaction come in their order. -/
theorem qspiWords_reads (ws : List Nat) (i : Nat) (got : List Word) (s : State) (hu : s.portUp = true) (hw : ∀ w ∈ ws, w < 0x40000) :
    qspiWords [] (ws.map fun w => { word := w }) i got s = (got ++ ws.map (Mem.word s.mem.win), none, s) := by
  induction ws generalizing i got with
  | nil => rw [List.map_nil, List.map_nil, List.append_nil]; rfl
  | cons w ws ih =>
    rw [List.map_cons, qspiWords_moves hu (hw w List.mem_cons_self)]
    refine (ih (i + 1) (got ++ [Mem.word s.mem.win w]) fun x hx => hw x (List.mem_cons_of_mem _ hx)).trans ?_
    rw [List.append_assoc]
    rfl

/-- A word is what its four bytes are. -/
theorem word_eq_of_reads {m m' : Mem 8} {i : Nat} (h : ∀ l, l < 4 → Mem.read m (4 * i + l) = Mem.read m' (4 * i + l)) :
    Mem.word m i = Mem.word m' i := by
  have h0 := h 0 (by decide)
  unfold Mem.word
  rw [h 3 (by decide), h 2 (by decide), h 1 (by decide), show Mem.read m (4 * i) = Mem.read m' (4 * i) from h0]

/-- Words written in a transaction stand in their order; no other byte of the window changes. -/
theorem qspiWords_writes (word : Nat) (ws : List Word) (k i : Nat) (s : State) (hu : s.portUp = true) (hw : word + k + ws.length ≤ 0x40000)
    (hwf : Mem.wf s.mem.win = true) :
    let r := qspiWords [] ((ws.zipIdx k).map fun p => { word := word + p.2, wr := some p.1 }) i [] s
    r.2.1 = none ∧ (∀ n v, ws[n]? = some v → Mem.word r.2.2.mem.win (word + (k + n)) = v) ∧
      ∀ a, (a / 4 < word + k ∨ word + k + ws.length ≤ a / 4) → Mem.read r.2.2.mem.win a = Mem.read s.mem.win a := by
  induction ws generalizing k i s with
  | nil => exact ⟨rfl, fun n v h => absurd h (by simp), fun a _ => rfl⟩
  | cons v ws ih =>
    rw [List.length_cons] at hw
    have hput : (putWin { word := word + k, wr := some v } s).mem.win = Mem.putWord s.mem.win (word + k) v 0xF := by
      simp only [putWin]
    obtain ⟨done, new, old⟩ := ih (k + 1) (i + 1) (putWin { word := word + k, wr := some v } s) ((putWin_portUp _ _).trans hu) (by omega)
      (hput ▸ Mem.wf_putWord _ _ _ _ hwf)
    rw [List.zipIdx_cons, List.map_cons, qspiWords_moves hu (by dsimp only; omega)]
    refine ⟨done, fun n x hn => ?_, fun a ha => ?_⟩
    · cases n with
      | zero =>
        have hx : v = x := by simpa using hn
        rw [← hx]
        refine (word_eq_of_reads fun l hl => old (4 * (word + k) + l) (.inl (by omega))).trans ?_
        rw [hput]
        exact Mem.word_putWord_same _ _ _ hwf
      | succ n =>
        have hat : word + (k + (n + 1)) = word + (k + 1 + n) := by omega
        rw [hat]
        exact new n x (by simpa using hn)
    · rw [List.length_cons] at ha
      refine (old a (by omega)).trans ?_
      rw [hput]
      exact Mem.read_putWord_other _ _ _ _ _ (by omega)

section
variable {word n : Nat} (h1 : 1 ≤ n) (h64 : n ≤ 64) (hmap : word + n ≤ 0x40000) (s : State)
include h1 h64 hmap

theorem exec_qspiRead : exec (.qspiRead word n []) s =
    withForm 2 s (.next (qspiDone (qspiWords [] (((List.range n).map fun i => word + i).map fun w => { word := w }) 0 [] s))) := by
  have hrun : qspiRun ((List.range n).map fun i => ({ word := word + i } : WordAcc)) [] s = _ :=
    qspiRun_window (fun h => by simp at h; omega) (by simpa using h64) fun a ha => by
      obtain ⟨i, hi, rfl⟩ := List.mem_map.1 ha
      have := List.mem_range.1 hi
      dsimp only
      omega
  rw [List.map_map]
  exact hrun

theorem exec_qspiWrite {ws : List Word} (hn : ws.length = n) : exec (.qspiWrite word ws []) s =
    withForm 2 s (.next (qspiDone (qspiWords [] ((ws.zipIdx 0).map fun p => { word := word + p.2, wr := some p.1 }) 0 [] s))) := by
  refine qspiRun_window (fun h => ?_) ?_ fun a ha => ?_
  · have := congrArg List.length h
    simp at this
    simp [this] at hn
    omega
  · simpa using hn ▸ h64
  · obtain ⟨p, hp, rfl⟩ := List.mem_map.1 ha
    have := (List.mem_zipIdx hp).2.1
    dsimp only
    omega

end

/-- Settles O41: each access through what both sides do in the window; a transaction through its words. -/
theorem hostWindowAndQuadSpi : Obligations.HostWindowAndQuadSpi := by
  refine ⟨fun i o s hi ho => ⟨?none, fun hh => ?noPort, fun hr => ⟨?inner, fun n hn => ?timer⟩, fun hu => ⟨?alone,
      fun off v ha hoff => ?page, fun h => ?both, fun hc hf => ?safe, fun hc hb hf hp => ?busy, fun hc hb hf hp => ?again⟩⟩,
    fun word n s h1 h64 hm hf hu => ?read, fun word ws s h1 h64 hm hwf hf hu => ?write, fun word n s h1 h64 hm hf hr hs => ?sleep,
    fun cmd s hf => withForm_chosen hf _,
    fun word n ws cmd s hf h1 h64 hm hn => ?other⟩
  case none => exact exec_hostWindowAccess_inner (inMap_of_window (by simp) (by simp)) (ite_self _)
  case noPort => exact exec_hostWindowAccess_inner (inMap_of_window (by simp) (by simpa using ho)) (if_pos (by simpa using hh))
  case inner =>
    refine ⟨_, exec_hostWindowAccess_inner (inMap_of_window (by simpa using hi) (by simp)) (ite_self _), ?_⟩
    rw [innerSide_window hr hi]
    exact ⟨rfl, rfl⟩
  case timer =>
    have hplace : hostPlace (0x40000 + (0xD0C + 0x20 * n) / 4) = true := decide_eq_true (by omega)
    refine ⟨_, exec_hostWindowAccess_inner (by simp [inMap, hplace]) (ite_self _), ?_⟩
    rw [innerSide_timerStatus hr hn]
    exact ⟨rfl, State.setTimer_same s n _⟩
  case alone => exact ⟨_, exec_hostWindowAccess_alone ho hu, rfl, rfl, rfl⟩
  case page =>
    have hplace : hostPlace (0x40000 + off / 4) = true := decide_eq_true (by omega)
    refine ⟨_, exec_hostWindowAccess_outer (by simp [inMap, hplace]) (hostPort_of_portUp hu), ?_⟩
    rw [hostAccess_page_write hu ha]
    rfl
  case both =>
    refine ⟨_, exec_hostWindowAccess_both hi ho hu, ?_⟩
    rw [windowAccess_bothDone _ h]
    exact ⟨rfl, rfl, rfl, (putWin_hwBusy _ _).trans (putWin_hwBusy _ _), (putWin_hwSafe _ _).trans (putWin_hwSafe _ _)⟩
  case safe =>
    refine ⟨_, exec_hostWindowAccess_both hi ho hu, ?_⟩
    rw [windowAccess_safe _ hc hf]
    exact ⟨rfl, rfl, congrArg satInc ((putWin_hwSafe _ _).trans (putWin_hwSafe _ _)), rfl⟩
  case busy =>
    refine ⟨_, exec_hostWindowAccess_both hi ho hu, ?_⟩
    rw [hp, windowAccess_busy hc hb hf]
    exact ⟨rfl, rfl, rfl⟩
  case again =>
    refine ⟨_, exec_hostWindowAccess_both hi ho hu, ?_⟩
    rw [hp, windowAccess_again hc hb hf]
    exact ⟨putWin_win rfl, rfl, (putWin_hwBusy _ _).trans (congrArg satInc (putWin_hwBusy _ _))⟩
  case read =>
    refine ⟨_, (exec_qspiRead h1 h64 hm s).trans (withForm_chosen hf _), ?_⟩
    have hw : ∀ w ∈ (List.range n).map fun i => word + i, w < 0x40000 := fun w hw => by
      obtain ⟨i, hi, rfl⟩ := List.mem_map.1 hw
      have := List.mem_range.1 hi
      omega
    rw [qspiWords_reads _ 0 [] s hu hw, List.map_map]
    exact ⟨rfl, rfl, rfl⟩
  case write =>
    refine ⟨_, (exec_qspiWrite h1 h64 hm s rfl).trans (withForm_chosen hf _), ?_⟩
    obtain ⟨done, new, old⟩ := qspiWords_writes word ws 0 0 s hu (by omega) hwf
    refine ⟨fun i w h => ?_, ?_, fun a ha => old a (by omega)⟩
    · have hword := new i w h
      rwa [Nat.zero_add] at hword
    · unfold qspiDone
      dsimp only
      rw [done]
  case sleep =>
    obtain ⟨n, rfl⟩ : ∃ k, n = k + 1 := ⟨n - 1, by omega⟩
    refine ⟨_, (exec_qspiRead h1 h64 hm s).trans (withForm_chosen hf _), ?_⟩
    rw [List.range_succ_eq_map, List.map_cons, List.map_cons, qspiWords]
    simp only [List.find?_nil, hostAccess_sleep _ hr hs]
    exact ⟨rfl, rfl⟩
  case other =>
    exact ⟨(exec_qspiRead h1 h64 hm s).trans (withForm_other hf _), (exec_qspiWrite h1 h64 hm s hn).trans (withForm_other hf _),
      withForm_other hf _⟩

end Sys2Proof.Machine
end


section
/-! PROOFS. The frame tick (R18, R28, R32, R75, R84, R286): the counters, the order of the boundary, SLEEP, and the mirror. -/

namespace Sys2Proof.Machine

-- what the clocks of the tick leave ------------------------------------------------------------------------------------------------------

/-- The frame's counters, and the power state, stand the same in two states (R28). -/
structure SameFrame (s t : State) : Prop where
  deviceTime : t.time.deviceTime = s.time.deviceTime
  clk : t.time.clk = s.time.clk
  tickDt : t.time.tickDt = s.time.tickDt
  frameCount : t.time.frameCount = s.time.frameCount
  stamp : t.time.stamp = s.time.stamp
  countHold : t.time.countHold = s.time.countHold
  stampHold : t.time.stampHold = s.time.stampHold
  rate : t.time.rate = s.time.rate
  ticking : t.time.ticking = s.time.ticking
  power : t.power = s.power

theorem SameFrame.refl (s : State) : SameFrame s s := ⟨rfl, rfl, rfl, rfl, rfl, rfl, rfl, rfl, rfl, rfl⟩

theorem SameFrame.trans {s t u : State} (h : SameFrame s t) (g : SameFrame t u) : SameFrame s u :=
  ⟨g.deviceTime.trans h.deviceTime, g.clk.trans h.clk, g.tickDt.trans h.tickDt, g.frameCount.trans h.frameCount, g.stamp.trans h.stamp,
    g.countHold.trans h.countHold, g.stampHold.trans h.stampHold, g.rate.trans h.rate, g.ticking.trans h.ticking, g.power.trans h.power⟩

/-- What leaves the time and the power state leaves the frame. -/
theorem SameFrame.of_time {s t : State} (ht : t.time = s.time) (hp : t.power = s.power) : SameFrame s t := by
  constructor <;> simp only [ht, hp]

theorem tickPhase_sameFrame (s : State) : SameFrame s (tickPhase s) := by
  rw [tickPhase_keeps]
  exact ⟨rfl, rfl, rfl, rfl, rfl, rfl, rfl, rfl, rfl, rfl⟩

theorem gptpRef_sameFrame (s : State) : SameFrame s (gptpRef s) := by
  refine .of_time (gptpRef_time s) ?_
  unfold gptpRef loseReference
  split
  · rfl
  split <;> rfl

theorem startCor_sameFrame (c : BitVec 2) (s : State) : SameFrame s (startCor c s) := by
  unfold startCor
  refine SameFrame.trans ?_ (gptpRef_sameFrame _)
  exact ⟨rfl, rfl, rfl, rfl, rfl, rfl, rfl, rfl, rfl, rfl⟩

theorem tickCor_sameFrame (s : State) : SameFrame s (tickCor s) := by
  have cleared : SameFrame s { s with time := { s.time with corDue := false } } := ⟨rfl, rfl, rfl, rfl, rfl, rfl, rfl, rfl, rfl, rfl⟩
  unfold tickCor
  split
  · dsimp only
    split
    · exact cleared
    · exact cleared.trans (startCor_sameFrame _ _)
  · exact .refl s

theorem tickSwitch_sameFrame (s : State) : SameFrame s (tickSwitch s) := by
  have cleared : ∀ t : State, SameFrame t { t with time := { t.time with switchTo := none } } := fun t =>
    ⟨rfl, rfl, rfl, rfl, rfl, rfl, rfl, rfl, rfl, rfl⟩
  refine (tickCor_sameFrame s).trans ?_
  unfold tickSwitch
  dsimp only
  split
  · exact .refl _
  · split
    · exact (cleared _).trans (startCor_sameFrame _ _)
    · exact cleared _

theorem tickRamp_sameFrame (s : State) : SameFrame s (tickRamp s) := by
  unfold tickRamp
  dsimp only
  split <;> exact ⟨rfl, rfl, rfl, rfl, rfl, rfl, rfl, rfl, rfl, rfl⟩

theorem setDom_sameFrame (s : State) (d : Nat) (x : Dom) : SameFrame s (s.setDom d x) := ⟨rfl, rfl, rfl, rfl, rfl, rfl, rfl, rfl, rfl, rfl⟩

theorem send_sameFrame (s : State) (k : MsgKind) (data : List Nat) : SameFrame s (s.send k data) := .of_time rfl rfl

/-- What keeps the frame step by step keeps it over a list. -/
theorem foldl_sameFrame {α : Type} (f : State → α → State) (hf : ∀ s x, SameFrame s (f s x)) (xs : List α) (s : State) :
    SameFrame s (xs.foldl f s) := by
  induction xs generalizing s with
  | nil => exact .refl s
  | cons x xs ih => exact (hf s x).trans (ih (f s x))

theorem tickMedia_sameFrame (s : State) : SameFrame s (tickMedia s) := by
  refine foldl_sameFrame _ (fun s d => ?_) [0, 2] s
  split
  · exact setDom_sameFrame s d _
  · exact .refl s

theorem tickSync_sameFrame (d : Nat) (s : State) : SameFrame s (tickSync d s) := by
  unfold tickSync
  dsimp only
  split
  · unfold sendEvent
    exact ((setDom_sameFrame s d _).trans (setDom_sameFrame _ d _)).trans (send_sameFrame _ _ _)
  · exact .refl s

theorem tickAnnounce_sameFrame (d : Nat) (s : State) : SameFrame s (tickAnnounce d s) := by
  unfold tickAnnounce
  dsimp only
  split
  · split
    · exact ((setDom_sameFrame s d _).trans (send_sameFrame _ _ _)).trans (send_sameFrame _ _ _)
    · exact (setDom_sameFrame s d _).trans (send_sameFrame _ _ _)
  · exact .refl s

theorem tickPtp_sameFrame (s : State) : SameFrame s (tickPtp s) := by
  unfold tickPtp
  split
  · exact .refl s
  · exact foldl_sameFrame _ (fun s d => (tickSync_sameFrame d s).trans (tickAnnounce_sameFrame d _)) [0, 2] s

/-- The counters at the tick (R28): a frame begins at the Device Time the tick falls at. -/
theorem tickClocks_counts (s : State) : let u := tickClocks s
    u.time.clk = 0 ∧ u.time.tickDt = s.time.deviceTime ∧
    u.time.frameCount = (if s.time.countHold then s.time.frameCount else s.time.frameCount + 1) ∧
    u.time.stamp = (if s.time.stampHold then s.time.stamp else s.time.stamp + BitVec.ofNat 32 s.tpf) ∧
    u.time.countHold = false ∧ u.time.stampHold = false ∧ u.power.wakeHold = false := by
  have before := tickPhase_sameFrame s
  have packets : SameFrame (tickCounters (tickPhase s)) (timePackets (tickCounters (tickPhase s))) := .of_time rfl rfl
  have after : SameFrame (tickCounters (tickPhase s)) (tickClocks s) :=
    (((packets.trans (tickSwitch_sameFrame _)).trans (tickRamp_sameFrame _)).trans (tickMedia_sameFrame _)).trans (tickPtp_sameFrame _)
  have htpf : (tickPhase s).tpf = s.tpf := congrArg ticksPerFrame before.rate
  refine ⟨after.clk, after.tickDt.trans before.deviceTime, after.frameCount.trans ?_, after.stamp.trans ?_, after.countHold, after.stampHold, ?_⟩
  · show (if (tickPhase s).time.countHold then _ else _) = _
    rw [before.countHold, before.frameCount]
  · show (if (tickPhase s).time.stampHold then _ else _) = _
    rw [before.stampHold, before.stamp, htpf]
  · rw [after.power]
    rfl

-- SLEEP (R482) -----------------------------------------------------------------------------------------------------------------------------
/-- A roll-back of waiting commands leaves the time. -/
theorem rollJob_time (s : State) (jb : Job) : (rollJob s jb).time = s.time := by
  unfold rollJob rollBack
  dsimp only
  rw [if_pos rfl, respond_only]
  show (if jb.opcode = 0x300 ∧ jb.slot < 8192 then cancelVoice jb.slot s else s).time = s.time
  split <;> rfl

theorem dropEvent_time (s : State) (t : TEvent) : (dropEvent s t).time = s.time := by
  unfold dropEvent
  split <;> rfl

/-- What keeps the time step by step keeps it over a list. -/
theorem foldl_time {α : Type} (f : State → α → State) (hf : ∀ s x, (f s x).time = s.time) (xs : List α) (s : State) :
    (xs.foldl f s).time = s.time := by
  induction xs generalizing s with
  | nil => rfl
  | cons x xs ih => exact (ih (f s x)).trans (hf s x)

theorem rollAll_time (s : State) : (rollAll s).1.time = s.time := by
  unfold rollAll
  dsimp only
  rw [foldl_time _ rollJob_time]
  exact foldl_time _ dropEvent_time _ _

/-- The device enters SLEEP: its state stands, and no tick runs. -/
theorem enterSleep_sleeps (s : State) :
    (enterSleep s).power.state = 2 ∧ (enterSleep s).power.sleepDue = false ∧ (enterSleep s).time.ticking = false := by
  refine ⟨rfl, rfl, ?_⟩
  unfold enterSleep
  dsimp only
  rw [rollAll_time]

/-- A boundary copies the Conductor's state into the mirror of a standby that holds one, and does nothing else with it (R286). -/
theorem tickMirror_copies (s : State) : tickMirror s = { s with se := (tickMirror s).se } ∧
    ((tickMirror s).mbx.standbyReady = true → (tickMirror s).condDown = false → (tickMirror s).se.mirror = mirrorOf (tickMirror s)) := by
  unfold tickMirror
  split
  · exact ⟨rfl, fun _ _ => rfl⟩
  next hno =>
    exact ⟨rfl, fun hr hc => absurd (by simp [hr, hc]) hno⟩

theorem exec_frameTick (check : CondCheck) (inputs : Inputs) (slips : List Slip) (s : State) : exec (.frameTick check inputs slips) s =
    .next (if s.time.ticking = true ∧ (!s.inReset) = true then frameTick check inputs slips s else s) := rfl

/-- Settles O43: the counters through `tickClocks_counts`, the order as the tick is composed, and the ways in which it ends. -/
theorem frameTickAdvances : Obligations.FrameTickAdvances := by
  intro check inputs slips s
  refine ⟨fun h => ?stands, fun ht hr => ?ticks, fun jb t ws hc hl hs he => ?job, fun jb hjb hf => ?epoch⟩
  case stands =>
    rw [exec_frameTick, if_neg]
    obtain h | h := h <;> simp [h]
  case ticks =>
    have hrun : exec (.frameTick check inputs slips) s = .next (frameTick check inputs slips s) := by
      rw [exec_frameTick, if_pos ⟨ht, by simp [hr]⟩]
    obtain ⟨hclk, hdt, hcount, hstamp, hch, hsh, hwake⟩ := tickClocks_counts (recordSlips slips s)
    refine ⟨tickClocks (recordSlips slips s), _, _, hrun, hclk, hdt, hcount, hstamp, hch, hsh, hwake, rfl, fun hv => ?_, fun hv => ?_⟩
    · unfold frameTick
      dsimp only
      rw [if_pos hv]
      exact enterSleep_sleeps _
    · unfold frameTick
      dsimp only
      rw [hv, if_neg Bool.false_ne_true]
      exact tickMirror_copies _
  case job =>
    unfold applyJob
    dsimp only
    rw [if_neg hc, if_neg (not_or.2 ⟨hl, hs⟩), he]
    rfl
  case epoch =>
    have hany : (boundaryJobs s).any (takesField s) = true := List.any_eq_true.2 ⟨jb, hjb, hf⟩
    unfold tickEpoch
    dsimp only
    rw [hany, Bool.or_true, Bool.true_or, if_pos rfl]
    rfl

end Sys2Proof.Machine
end


section
/-! PROOFS. The Conductors (R47, R88, R286 to R291, R297): who gives up, how the other takes over, planned switches. -/

namespace Sys2Proof.Machine

-- what a switch leaves (R287, R291) ----------------------------------------------------------------------------------------------------------

/-- Nothing but the Dispatcher and its trace differs. -/
def OnlyWork (s t : State) : Prop := ∃ win dsp, t = { s with mem := { s.mem with win := win }, dsp := dsp }

theorem OnlyWork.refl (s : State) : OnlyWork s s := ⟨_, _, rfl⟩

theorem OnlyWork.trans {a b c : State} : OnlyWork a b → OnlyWork b c → OnlyWork a c := by
  rintro ⟨_, _, rfl⟩ ⟨_, _, rfl⟩
  exact ⟨_, _, rfl⟩

theorem OnlyTrace.onlyWork {s t : State} (h : OnlyTrace s t) : OnlyWork s t := ⟨_, _, h.rest⟩

theorem giveEntry_onlyWork (who q : Nat) (e : List Word) (s : State) : OnlyWork s (giveEntry who q e s) :=
  (show OnlyWork s _ from ⟨_, _, rfl⟩).trans (traceDevice_onlyTrace _ _ _ _ _).onlyWork

theorem endStall_onlyWork (who : Nat) (result : BitVec 1) (s : State) : OnlyWork s (endStall who result s) :=
  (show OnlyWork s _ from ⟨_, _, rfl⟩).trans (traceDevice_onlyTrace _ _ _ _ _).onlyWork

theorem setQueue_onlyWork (q : Nat) (es : List (List Word)) (s : State) : OnlyWork s (s.setQueue q es) := ⟨_, _, rfl⟩

theorem giveOldest_onlyWork (who q : Nat) (s : State) : OnlyWork s (giveOldest who q s) := by
  unfold giveOldest
  split
  · exact .refl s
  next e r _ =>
    have given := (setQueue_onlyWork q r s).trans (giveEntry_onlyWork who q e _)
    unfold releaseStall
    split
    · exact given
    · exact given.trans ((setQueue_onlyWork _ _ _).trans (endStall_onlyWork _ _ _))

theorem answerActive_onlyWork (s : State) : OnlyWork s (answerActive s) := by
  unfold answerActive
  split
  · exact giveOldest_onlyWork _ _ s
  · exact .refl s

/-- A switch names the other Conductor, counts itself and sets FAILOVER; the rest of the mailbox stays (R287, R291). Outside the mailbox it changes
what the device sends out, the Dispatcher and its trace. -/
theorem switchOver_only (s : State) : ∃ win dsp out, switchOver s =
    { s with mbx := { s.mbx with activeB := !s.mbx.activeB, switches := satInc s.mbx.switches, missed := 0, reported := true,
                                 dbRsp := setBit s.mbx.dbRsp 16 true },
             mem := { s.mem with win := win }, dsp := dsp, out := out } := by
  unfold switchOver
  obtain ⟨win, dsp, h⟩ := answerActive_onlyWork (setDbRsp 16
    { s with mbx := { s.mbx with activeB := !s.mbx.activeB, switches := satInc s.mbx.switches, missed := 0, reported := true } })
  rw [h]
  unfold setDbRsp
  rw [signalHost_keeps]
  exact ⟨_, _, _, rfl⟩

-- what the end of a command leaves (R75, R88) --------------------------------------------------------------------------------------------------

/-- Nothing but the journal, the channels, HW_DB_RSP, the Host Window and what the device sends out differs. -/
def OnlyAnswers (s t : State) : Prop := ∃ chans dbRsp journal win out,
  t = { s with mbx := { s.mbx with chans := chans, dbRsp := dbRsp, journal := journal }, mem := { s.mem with win := win }, out := out }

theorem OnlyAnswers.refl (s : State) : OnlyAnswers s s := ⟨_, _, _, _, _, rfl⟩

theorem OnlyAnswers.trans {a b c : State} : OnlyAnswers a b → OnlyAnswers b c → OnlyAnswers a c := by
  rintro ⟨_, _, _, _, _, rfl⟩ ⟨_, _, _, _, _, rfl⟩
  exact ⟨_, _, _, _, _, rfl⟩

theorem OnlyAnswers.missed {s t : State} (h : OnlyAnswers s t) : t.mbx.missed = s.mbx.missed := by
  obtain ⟨_, _, _, _, _, rfl⟩ := h
  rfl

/-- A final answer leaves the journal. -/
theorem finalAnswer_onlyAnswers (j : Word) (e : Entry) (st : Status) (ws : List Word) (s : State) :
    OnlyAnswers s (finalAnswer j e st ws s) ∧ (finalAnswer j e st ws s).mbx.journal = s.mbx.journal := by
  have responds := fun ch r => respond_only ch r s
  have answers := fun e st j ws final => answer_only e st j ws final s
  unfold finalAnswer
  split
  · exact ⟨.refl s, rfl⟩
  split
  · split
    · exact ⟨.refl s, rfl⟩
    · exact ⟨⟨_, _, _, _, _, responds _ _⟩, (congrArg (fun t => t.mbx.journal) (responds _ _) :)⟩
  · exact ⟨⟨_, _, _, _, _, answers _ _ _ _ _⟩, (congrArg (fun t => t.mbx.journal) (answers _ _ _ _ _) :)⟩

theorem journalSet_onlyAnswers (j : Word) (f : JEntry → JEntry) (s : State) : OnlyAnswers s (journalSet j f s) := ⟨_, _, _, _, _, rfl⟩

theorem endCommand_onlyAnswers (js : JState) (j : Word) (e : Entry) (st : Status) (ws : List Word) (s : State) :
    OnlyAnswers s (endCommand js j e st ws s) := by
  unfold endCommand
  dsimp only
  split
  · exact (journalSet_onlyAnswers _ _ s).trans (finalAnswer_onlyAnswers _ _ _ _ _).1
  · exact journalSet_onlyAnswers _ _ s

/-- An owed answer that is written is no longer owed by any entry of its index. -/
theorem answerEntry_onlyAnswers (s : State) (x : JEntry) : OnlyAnswers s (answerEntry s x) ∧
    (answerEntry s x).mbx.journal = s.mbx.journal.map fun y => if y.idx = x.idx then { y with owed := false } else y := by
  obtain ⟨keeps, journal⟩ := finalAnswer_onlyAnswers x.idx { ch := x.ch, seq := x.seq, quiet := x.quiet } x.status x.words
    { s with mbx := { s.mbx with journal := s.mbx.journal.map fun y => if y.idx = x.idx then { y with owed := false } else y } }
  exact ⟨(show OnlyAnswers s _ from ⟨_, _, _, _, _, rfl⟩).trans keeps, journal⟩

/-- The answers of a list of entries are no longer owed. -/
theorem foldl_answerEntry (xs : List JEntry) (s : State) : OnlyAnswers s (xs.foldl answerEntry s) ∧
    (xs.foldl answerEntry s).mbx.journal =
      s.mbx.journal.map fun y => if y.idx ∈ xs.map (fun x => x.idx) then { y with owed := false } else y := by
  induction xs generalizing s with
  | nil => exact ⟨.refl s, by simp⟩
  | cons x xs ih =>
    obtain ⟨keeps, journal⟩ := answerEntry_onlyAnswers s x
    obtain ⟨keeps', journal'⟩ := ih (answerEntry s x)
    refine ⟨keeps.trans keeps', ?_⟩
    rw [List.foldl_cons, journal', journal, List.map_map]
    refine List.map_congr_left fun y _ => ?_
    by_cases hx : y.idx = x.idx
    · simp [hx]
    · simp [hx]

/-- What commands that have ended owed is answered: whatever is still owed belongs to one that has not ended. -/
theorem answerOwed_journal (s : State) : OnlyAnswers s (answerOwed s) ∧ ∀ y ∈ s.mbx.journal,
    ∃ x ∈ (answerOwed s).mbx.journal, x.idx = y.idx ∧ x.failover = y.failover ∧ (x.owed = true → y.owed = true ∧ y.unfinished = true) := by
  obtain ⟨keeps, journal⟩ := foldl_answerEntry (s.mbx.journal.filter fun x => x.owed && !x.unfinished).reverse s
  refine ⟨keeps, fun y hy => ⟨_, (congrArg (fun l => _ ∈ l) journal).mpr (List.mem_map_of_mem hy), ?_⟩⟩
  split
  · exact ⟨rfl, rfl, fun h => absurd h Bool.false_ne_true⟩
  next hnot =>
    refine ⟨rfl, rfl, fun howed => ⟨howed, ?_⟩⟩
    by_contra hfin
    refine hnot (List.mem_map_of_mem (List.mem_reverse.2 (List.mem_filter.2 ⟨hy, ?_⟩)))
    simpa [howed] using hfin

-- giving up (R287, R289, R290) -------------------------------------------------------------------------------------------------------------------

theorem giveUp_acts {s : State} (h : s.mbx.fenced = false) : giveUp s =
    { s with mbx := { s.mbx with fenced := true, lost := (s.mbx.activeB, s.time.frameCount) :: recentLosses s, reported := false } } := by
  unfold giveUp
  rw [h]
  rfl

theorem giveUp_fenced (s : State) : (giveUp s).mbx.fenced = true := by
  unfold giveUp
  split
  · assumption
  · rfl

/-- Holding a Conductor back changes GAVE_UP alone. -/
theorem holdBack_keeps (s : State) (m : Mbx) : (holdBack s m).fenced = m.fenced ∧ (holdBack s m).missed = m.missed := by
  unfold holdBack
  split <;> exact ⟨rfl, rfl⟩

/-- The reports of an active Conductor (R287). -/
theorem tickConductor_reports {s : State} (h : s.mbx.fenced = false) :
    (tickConductor .pass s).mbx.missed = 0 ∧ (tickConductor .silent s).mbx.missed = s.mbx.missed + 1 ∧
      (tickConductor .fail s).mbx.fenced = true := by
  obtain ⟨hf, hm⟩ := holdBack_keeps s { s.mbx with readyFrames := if s.mbx.standbyReady then s.mbx.readyFrames + 1 else 0 }
  unfold tickConductor
  dsimp only at hf hm ⊢
  generalize holdBack s _ = m at hf hm ⊢
  rw [hf.trans h]
  simp only [Bool.false_eq_true, if_false]
  refine ⟨?_, by rw [← hm], giveUp_fenced _⟩
  show (if m.missed = 0 then _ else _ : State).mbx.missed = 0
  split
  · rfl
  · exact (answerOwed_journal _).1.missed

-- taking over (R47, R88, R286 to R289) -------------------------------------------------------------------------------------------------------------

/-- The new Conductor goes on from its mirror: the clock domains' servo state, what their ports have still to send being the hardware's. -/
theorem takeMirror_dom (s : State) {d : Nat} (hd : d = 0 ∨ d = 2) :
    (takeMirror s).dom d = { s.se.mirror.doms.look d {} with sent := (s.dom d).sent } := by
  show (takeDom s.se.mirror.doms (takeDom s.se.mirror.doms s 0) 2).dom d = _
  unfold takeDom
  obtain rfl | rfl := hd
  · rw [State.setDom_other _ _ _ _ (by decide), State.setDom_same]
  · rw [State.setDom_same, State.setDom_other _ _ _ _ (by decide)]

theorem takeMirror_mbx (s : State) : (takeMirror s).mbx = s.mbx := rfl

/-- After a switch every entry that owed an answer is answered as F_FAILOVER, or still owes it because it has not ended (R88). -/
theorem failover_journal {s : State} (hrun : s.mbx.running = []) {y : JEntry} (hy : y ∈ s.mbx.journal) (hy' : y.owed = true) :
    ∃ t, failover s = takeBuffers t ∧ ∃ x ∈ t.mbx.journal, x.idx = y.idx ∧ x.failover = true ∧ (x.owed = true → y.unfinished = true) := by
  obtain ⟨_, _, _, hsw⟩ := switchOver_only (takeMirror s)
  have hplain : reconcile (switchOver (takeMirror s)) = answerOwed (oweFailover (switchOver (takeMirror s))) := by
    unfold reconcile
    dsimp only
    rw [show (oweFailover (switchOver (takeMirror s))).mbx.running = [] by
      rw [hsw]
      exact hrun]
    rfl
  have howe : { y with failover := true } ∈ (oweFailover (switchOver (takeMirror s))).mbx.journal := by
    rw [hsw]
    exact List.mem_map.2 ⟨y, hy, if_pos hy'⟩
  obtain ⟨-, journal⟩ := answerOwed_journal (oweFailover (switchOver (takeMirror s)))
  obtain ⟨x, hx, hidx, hfail, howed⟩ := journal _ howe
  refine ⟨_, rfl, x, ?_, hidx, hfail, fun h => (howed h).2⟩
  show x ∈ (reconcile (switchOver (takeMirror s))).mbx.journal
  rw [hplain]
  exact hx

/-- A final response that still waits for room is F_FAILOVER (R64, R88, R89). -/
theorem oweFailover_held {s : State} {n : Nat} {r : Resp} {x : JEntry} (hheld : (s.chan n).held = [r]) (hfin : r.final = true)
    (hst : r.status ≠ fFailover) (hx : journalFind r.jindex s = some x) :
    ∃ q, ((oweFailover s).chan n).held = [q] ∧ q.status = fFailover ∧ q.seq = r.seq ∧ q.words.head? = some x.stateWord := by
  have hchan : (oweFailover s).chan n = { s.chan n with held := (s.chan n).held.map (heldFailover s) } := by
    unfold oweFailover State.chan
    dsimp only
    rw [Tab.look_mapVals _ _ _ _ rfl]
  have hresp : heldFailover s r =
      { r with status := fFailover, words := [x.stateWord, r.status.setWidth 32] ++ (if r.status = stDone then r.words else []) } := by
    unfold heldFailover
    rw [hx]
    exact if_pos ⟨hfin, hst⟩
  refine ⟨heldFailover s r, by rw [hchan, hheld]; rfl, ?_⟩
  rw [hresp]
  exact ⟨rfl, rfl, rfl⟩

-- planned switches (R290, R291, R297) --------------------------------------------------------------------------------------------------------------

/-- While no Conductor acts, or no standby is ready, none takes place. -/
theorem plannedSwitch_stands {s : State} (h : s.condDown = true ∨ s.mbx.standbyReady = false) : plannedSwitch s = s ∧ takeBack s = s := by
  unfold plannedSwitch takeBack
  obtain h | h := h <;> simp [h]

/-- A COND.SWITCH that waits switches at a boundary that meets R291, and is then answered. -/
theorem plannedSwitch_switches {s : State} {jb : Job} (hc : s.condDown = false) (hr : s.mbx.standbyReady = true) (hj : switchJob s = some jb)
    (hok : plannedOk none s = true) : (plannedSwitch s).mbx.activeB = !s.mbx.activeB ∧ (plannedSwitch s).mbx.switches = satInc s.mbx.switches ∧
      (plannedSwitch s).mbx.gaveUp = false := by
  obtain ⟨_, _, _, hsw⟩ := switchOver_only (dropJob jb.j s)
  have hrun : plannedSwitch s = completeJob jb stDone [(switchOver (dropJob jb.j s)).condStatus]
      { switchOver (dropJob jb.j s) with mbx := { (switchOver (dropJob jb.j s)).mbx with gaveUp := false } } := by
    unfold plannedSwitch
    rw [if_neg (by simp [hc, hr]), hj]
    exact if_pos hok
  unfold completeJob at hrun
  obtain ⟨_, _, _, _, _, hend⟩ := endCommand_onlyAnswers .done jb.j jb.e stDone [(switchOver (dropJob jb.j s)).condStatus]
    { switchOver (dropJob jb.j s) with mbx := { (switchOver (dropJob jb.j s)).mbx with gaveUp := false } }
  rw [hrun, hend, hsw]
  exact ⟨rfl, rfl, rfl⟩

theorem plannedSwitch_waits {s : State} {jb : Job} (hc : s.condDown = false) (hr : s.mbx.standbyReady = true) (hj : switchJob s = some jb)
    (hok : plannedOk none s = false) : plannedSwitch s = s := by
  unfold plannedSwitch
  rw [if_neg (by simp [hc, hr]), hj]
  exact if_neg (by simp [hok])

/-- A Conductor does not take control back while a COND.SWITCH waits. -/
theorem takeBack_waits {s : State} {jb : Job} (hj : switchJob s = some jb) : takeBack s = s := by
  unfold takeBack
  rw [hj]
  simp

-- the three parts ---------------------------------------------------------------------------------------------------------------------------------

/-- A switch leaves the marks that it does not make. -/
theorem switchOver_marks (s : State) : (switchOver s).mbx.activeB = !s.mbx.activeB ∧ (switchOver s).mbx.switches = satInc s.mbx.switches ∧
    (switchOver s).mbx.dbRsp.getLsbD 16 = true ∧ (switchOver s).mbx.journal = s.mbx.journal ∧ (switchOver s).mbx.fenced = s.mbx.fenced := by
  obtain ⟨_, _, _, h⟩ := switchOver_only s
  rw [h]
  exact ⟨rfl, rfl, (getLsbD_setBit _ 16 true 16 (by decide)).trans (if_pos rfl), rfl, rfl⟩

/-- A Conductor that fails while its standby is not ready gives up; one that fails before it serves leaves control to the other (R289). -/
theorem restartAlone_acts (s : State) :
    (s.mbx.fenced = false → s.mbx.standbyReady = false →
      (restartAlone s).mbx.fenced = true ∧ (restartAlone s).mbx.activeB = s.mbx.activeB) ∧
    (s.mbx.fenced = true → s.mbx.standbyReady = true → (restartAlone s).mbx.standbyReady = false ∧
      (restartAlone s).mbx.activeB = !s.mbx.activeB ∧ (restartAlone s).mbx.fenced = true) := by
  refine ⟨fun hf hr => ?_, fun hf hr => ?_⟩
  · have hrun : restartAlone s = giveUp s := by simp [restartAlone, hf, hr]
    rw [hrun, giveUp_acts hf]
    exact ⟨rfl, rfl⟩
  · obtain ⟨hb, -, -, -, hf'⟩ := switchOver_marks s
    rw [restartAlone, if_pos ⟨hf, hr⟩]
    exact ⟨rfl, hb, hf'.trans hf⟩

/-- A recovered Conductor takes control back (R290). -/
theorem takeBack_switches {s : State} (hc : s.condDown = false) (hr : s.mbx.standbyReady = true) (hg : s.mbx.gaveUp = true)
    (hj : switchJob s = none) (hok : plannedOk none s = true) (hf : readySecond s.time.rate ≤ s.mbx.readyFrames) (hl : standbyLosses s < 3) :
    (takeBack s).mbx.activeB = !s.mbx.activeB ∧ (takeBack s).mbx.gaveUp = false := by
  unfold takeBack
  rw [if_pos (by simp [hc, hr, hg, hj, hok, hf, hl])]
  exact ⟨(switchOver_marks s).1, rfl⟩

/-- Settles O44: give-up through `giveUp_acts`, the switch through `switchOver_only`, the journal through `failover_journal`. -/
theorem conductorsGiveUpAndTakeOver : Obligations.ConductorsGiveUpAndTakeOver := by
  refine ⟨fun s => ⟨fun h => (tickConductor_reports h).1, fun h => (tickConductor_reports h).2, fun hm => ?_, fun hm h => ?_,
      fun h hr => ⟨_, rfl, (restartAlone_acts s).1 h hr⟩, fun h hr => ⟨_, rfl, (restartAlone_acts s).2 h hr⟩, fun hp hc => ?_, fun h => ?_⟩,
    fun s => ⟨?_, fun h hr hi => ?_, fun h => ?_, fun h hr hi => ?_, fun d hd => takeMirror_dom s hd, rfl, rfl,
      fun hrun y hy hy' => failover_journal hrun hy hy', fun n r x _ hheld hfin hst hx => oweFailover_held hheld hfin hst hx⟩,
    fun s => ⟨fun h => ?_, fun jb hc hr hj => ⟨fun hok => ?_, fun hok => ⟨_, rfl, plannedSwitch_switches hc hr hj hok⟩, ?_, ?_⟩, fun h => ?_,
      fun hc hr hg hj hok hf hl => ⟨_, rfl, takeBack_switches hc hr hg hj hok hf hl⟩⟩⟩
  case refine_1 => exact congrArg Host.Outcome.next (if_neg (by omega))
  case refine_2 => exact ⟨_, congrArg Host.Outcome.next ((if_pos hm).trans (giveUp_acts h)), rfl, rfl, rfl, rfl⟩
  case refine_3 => exact ⟨_, congrArg Host.Outcome.next (if_pos ⟨hp, by simp [hc]⟩), rfl, rfl⟩
  case refine_4 => exact congrArg Host.Outcome.next (if_neg fun ⟨hp, hc⟩ => h.elim (absurd hp) fun hd => by simp [hd] at hc)
  case refine_5 =>
    obtain ⟨hb, hs, hd, hj, -⟩ := switchOver_marks s
    exact ⟨hb, hs, hd, hj⟩
  case refine_6 => exact ⟨congrArg Host.Outcome.next (if_pos ⟨h, hr, by simp [hi]⟩), _, rfl, rfl, rfl, rfl⟩
  case refine_7 => exact congrArg Host.Outcome.next (if_neg fun ⟨hf, hr, hi⟩ => h ⟨hf, hr, by simpa using hi⟩)
  case refine_8 =>
    exact ⟨congrArg Host.Outcome.next (if_pos ⟨h, by simp [hr], by simp [hi]⟩), _, if_pos ⟨h, by simp [hr]⟩, rfl, rfl⟩
  case refine_9 =>
    obtain ⟨hp, ht⟩ := plannedSwitch_stands h
    exact ⟨congrArg Host.Outcome.next hp, congrArg Host.Outcome.next ht⟩
  case refine_10 => exact congrArg Host.Outcome.next (plannedSwitch_waits hc hr hj hok)
  case refine_11 =>
    show execPlannedSwitchTimeout s = _
    unfold execPlannedSwitchTimeout
    rw [hj]
    exact congrArg Host.Outcome.next (if_neg (by simp [hc]))
  case refine_12 => exact congrArg Host.Outcome.next (takeBack_waits hj)
  case refine_13 =>
    show execPlannedSwitchTimeout s = _
    unfold execPlannedSwitchTimeout
    rw [h]

end Sys2Proof.Machine
end


section
/-! PROOFS. Steps of stepped commands (R76, R77), the image and header that FW.UPDATE writes (R292, R474), and the end of its probation. -/

namespace Sys2Proof.Machine

theorem b2n_not_ne (b : Bool) : b2n b ≠ b2n !b := by cases b <;> decide

/-- A boot header has 16 words, the second of them its SEQ (R474). -/
theorem newHeader_words (slot : Bool) (seq : Word) (old : List Word) (ik : BitVec 256) :
    (newHeader slot seq old ik).length = 16 ∧ (newHeader slot seq old ik).getD 1 0 = seq := ⟨rfl, rfl⟩

/-- The header is written over the older copy, which is then in force; the other copy stays (R474). -/
theorem markBoot_marks (p : Power) (ik : BitVec 256) :
    let q := p.markBoot ik
    q.bootSlot = (!p.bootSlot) ∧ q.headerSeq = p.headerSeq + 1 ∧ q.flash.copy = (!p.flash.copy) ∧
      q.flash.headers.look (b2n p.flash.copy) [] = p.flash.headers.look (b2n p.flash.copy) [] ∧
      (q.flash.headers.look (b2n q.flash.copy) []).length = 16 ∧ (q.flash.headers.look (b2n q.flash.copy) []).getD 1 0 = p.headerSeq + 1 := by
  unfold Power.markBoot
  dsimp only
  rw [Tab.look_put_other _ _ _ _ _ (b2n_not_ne _), Tab.look_put_same]
  exact ⟨rfl, rfl, rfl, rfl, newHeader_words _ _ _ _⟩

/-- A failure under probation gives control back to the other Conductor where it stands ready, and the one that failed restarts (R292). -/
theorem endProbation_ends {st : Stepped} {s : State} (hop : st.opcode = 0x041) (hp : s.power.probation = true) :
    (endProbation st s).power.probation = false ∧ (endProbation st s).mbx.standbyReady = false ∧
      (endProbation st s).mbx.activeB = if s.mbx.standbyReady then !s.mbx.activeB else s.mbx.activeB := by
  unfold endProbation standbyRestarts
  rw [if_pos ⟨hop, hp⟩]
  dsimp only
  split
  · obtain ⟨_, _, _, hsw⟩ := switchOver_only { s with power := { s.power with probation := false } }
    rw [hsw]
    exact ⟨rfl, rfl, rfl⟩
  · exact ⟨rfl, rfl, rfl⟩

section
variable {j : Word} {s : State} {st : Stepped} {data : List Word} (hfind : (s.mbx.running.find? fun x => x.j == j) = some st)
include hfind

/-- A step that completes with an error fails, at the end of the probation that it may have been under. -/
theorem stepComplete_fails {r : Except Status (State × List Word)} {err : BitVec 16} (hr : stepEffects st (st.done + 1) data s = some r)
    (he : err ≠ 0) : stepComplete j err data s = failStep st (st.done + 1) err (endProbation st s) := by
  unfold stepComplete
  rw [hfind]
  dsimp only
  rw [hr]
  exact if_pos he

/-- A step whose own work fails is the failing step. -/
theorem stepComplete_errs {x : Status} (hr : stepEffects st (st.done + 1) data s = some (.error x)) :
    stepComplete j 0 data s = failStep st (st.done + 1) x s := by
  unfold stepComplete
  rw [hfind]
  dsimp only
  rw [hr]
  rfl

/-- A step whose effects are complete is recorded; the last one ends the command. -/
theorem stepComplete_records {t : State} {ws : List Word} (hr : stepEffects st (st.done + 1) data s = some (.ok (t, ws))) :
    stepComplete j 0 data s =
      let u := recordStep st (st.done + 1) (onRunning j (fun x => { x with words := x.words ++ ws }) t)
      if st.done + 1 = st.n then endStepped .done st stDone (st.words ++ ws) u else u := by
  unfold stepComplete
  rw [hfind]
  dsimp only
  rw [hr]
  rfl

end

/-- Settles O45, by the three ways a step can complete. -/
theorem stepsAreRecorded : Obligations.StepsAreRecorded := by
  refine ⟨fun st data s => ⟨_, _, _, rfl, rfl, ?_⟩, fun j err data s => ⟨fun hc => ?_, fun hfind => ?_, fun st r hc hfind hr => ?_⟩⟩
  case refine_1 =>
    refine ⟨Tab.look_put_same _ _ _ _, ?_, rfl, markBoot_marks s.power s.vault.ik⟩
    exact Tab.look_put_other _ _ _ _ _ (b2n_not_ne _)
  case refine_2 => exact congrArg Host.Outcome.next (if_pos hc)
  case refine_3 =>
    have hnone : stepComplete j err data s = s := by
      unfold stepComplete
      rw [hfind]
    show Host.Outcome.next (if s.condDown then s else stepComplete j err data s) = _
    rw [hnone, ite_self]
  case refine_4 =>
    have hrun : exec (.stepEffectsComplete j err data) s = .next (stepComplete j err data s) :=
      congrArg Host.Outcome.next (if_neg (by simp [hc]))
    rw [hrun]
    refine ⟨fun he => congrArg Host.Outcome.next (stepComplete_fails hfind hr he), fun h => if_neg ?_, endProbation_ends,
      fun x he hx => ?_, fun t ws he hx => ?_⟩
    · rintro ⟨hop, hp⟩
      obtain h | h := h
      · exact h hop
      · exact absurd hp (by simp [h])
    · subst hx he
      exact congrArg Host.Outcome.next (stepComplete_errs hfind hr)
    · subst hx he
      exact congrArg Host.Outcome.next (stepComplete_records hfind hr)

end Sys2Proof.Machine
end


section
/-! PROOFS. Flags of rendered and decimated blocks (R138, R152, R243), lane tests (R450), and the buffers of moved voices (R153). -/

namespace Sys2Proof.Machine

-- words written in a row ------------------------------------------------------------------------------------------------------------------------

section
variable {a : Nat}

/-- Words written from `a + n` on leave the cells outside them. -/
theorem foldl_write_other (xs : List Word24) {b : Nat} (n : Nat) (m : Mem 24) (h : b < a + n ∨ a + n + xs.length ≤ b) :
    Mem.read ((xs.zipIdx n).foldl (fun m p => Mem.write m (a + p.2) p.1) m) b = Mem.read m b := by
  induction xs generalizing n m with
  | nil => rfl
  | cons x xs ih =>
    rw [List.length_cons] at h
    rw [List.zipIdx_cons, List.foldl_cons, ih _ _ (by omega), Mem.read_write_other _ _ _ _ (by omega)]

theorem foldl_write_at (xs : List Word24) (n : Nat) (m : Mem 24) (hm : Mem.wf m = true) :
    Mem.wf ((xs.zipIdx n).foldl (fun m p => Mem.write m (a + p.2) p.1) m) = true ∧ ∀ j w, xs[j]? = some w →
      Mem.read ((xs.zipIdx n).foldl (fun m p => Mem.write m (a + p.2) p.1) m) (a + n + j) = w := by
  induction xs generalizing n m with
  | nil => exact ⟨hm, fun j w h => by simp at h⟩
  | cons x xs ih =>
    obtain ⟨wf, rest⟩ := ih (n + 1) _ (Mem.wf_write m (a + n) x hm)
    refine ⟨wf, fun j w hj => ?_⟩
    cases j with
    | zero =>
      obtain rfl : x = w := by simpa using hj
      rw [List.zipIdx_cons, List.foldl_cons, foldl_write_other _ _ _ (by omega)]
      exact Mem.read_write_same _ _ _ hm
    | succ j =>
      have := rest j w (by simpa using hj)
      rwa [show a + (n + 1) + j = a + n + (j + 1) by omega] at this

end

theorem putWords_wf {m : Mem 24} (a : Nat) (xs : List Word24) (hm : Mem.wf m = true) : Mem.wf (putWords a xs m) = true :=
  (foldl_write_at xs 0 m hm).1

theorem putWords_at {m : Mem 24} {a : Nat} {xs : List Word24} (hm : Mem.wf m = true) {j : Nat} {w : Word24} (hj : xs[j]? = some w) :
    Mem.read (putWords a xs m) (a + j) = w := (foldl_write_at xs 0 m hm).2 j w hj

theorem putWords_other {m : Mem 24} {a b : Nat} {xs : List Word24} (h : b < a ∨ a + xs.length ≤ b) :
    Mem.read (putWords a xs m) b = Mem.read m b := foldl_write_other xs 0 m h

/-- The cells of a row that is copied take the words of their places. -/
theorem foldl_range_write (base : Nat) (f : Nat → Word24) (n : Nat) (m : Mem 24) (hm : Mem.wf m = true) :
    Mem.wf ((List.range n).foldl (fun m i => Mem.write m (base + i) (f i)) m) = true ∧ ∀ j, j < n →
      Mem.read ((List.range n).foldl (fun m i => Mem.write m (base + i) (f i)) m) (base + j) = f j := by
  induction n with
  | zero => exact ⟨hm, fun j h => absurd h (Nat.not_lt_zero j)⟩
  | succ n ih =>
    obtain ⟨wf, rest⟩ := ih
    rw [List.range_succ, List.foldl_append]
    refine ⟨Mem.wf_write _ _ _ wf, fun j hj => ?_⟩
    obtain rfl | hne := eq_or_ne j n
    · exact Mem.read_write_same _ _ _ wf
    · exact (Mem.read_write_other _ _ _ _ (by omega)).trans (rest j (by omega))

-- flags of tasks (R242, R243) -----------------------------------------------------------------------------------------------------------------------

/-- A task with a flag of its next run raised. -/
def Task.raised (x : Task) (n : Nat) : Task := { x with next := setBit x.next n true }

theorem Task.raised_raised (x : Task) (n : Nat) : (x.raised n).raised n = x.raised n := by
  unfold Task.raised setBit
  dsimp only
  simp only [if_true, BitVec.or_assoc, BitVec.or_self]

/-- Raising a flag changes that task's record alone. -/
theorem raiseNext_raises {k ctx : Nat} {s : State} {x : Task} (n : Nat) (hx : (s.core k).tasks.find ctx = some x) :
    raiseNext k ctx n s = s.setCore k { s.core k with tasks := (s.core k).tasks.put ctx (x.raised n) } := by
  unfold raiseNext
  rw [hx]
  rfl

theorem raiseNext_cores (k ctx n : Nat) (s : State) : ∃ cs, raiseNext k ctx n s = { s with cores := cs } := by
  unfold raiseNext
  split
  · exact ⟨_, rfl⟩
  · exact ⟨_, rfl⟩

theorem raiseNext_find {k ctx : Nat} {s : State} {x : Task} (n : Nat) (hx : (s.core k).tasks.find ctx = some x) :
    ((raiseNext k ctx n s).core k).tasks.find ctx = some (x.raised n) ∧ ((raiseNext k ctx n s).core k).y = (s.core k).y := by
  rw [raiseNext_raises n hx, State.setCore_same]
  exact ⟨Tab.find_put_same _ _ _, rfl⟩

/-- The flag of one voice's task, raised once or more, is raised. -/
theorem foldl_raises {f : State → Nat → State} {i k ctx n : Nat} {v : Voice} (hf : ∀ s : State, s.voice i = v → f s i = raiseNext k ctx n s)
    {l : List Nat} (hl : ∀ j ∈ l, j = i) (hne : l ≠ []) {s : State} {x : Task} (hv : s.voice i = v) (hx : (s.core k).tasks.find ctx = some x) :
    ((l.foldl f s).core k).tasks.find ctx = some (x.raised n) ∧ ((l.foldl f s).core k).y = (s.core k).y ∧ (l.foldl f s).voices = s.voices := by
  induction l generalizing s x with
  | nil => exact absurd rfl hne
  | cons j l ih =>
    obtain rfl := hl j (List.mem_cons_self ..)
    obtain ⟨cs, hcs⟩ := raiseNext_cores k ctx n s
    obtain ⟨hfind, hy⟩ := raiseNext_find n hx
    have hvoices : (raiseNext k ctx n s).voices = s.voices := by rw [hcs]
    rw [List.foldl_cons, hf s hv]
    cases l with
    | nil => exact ⟨hfind, hy, hvoices⟩
    | cons q l =>
      obtain ⟨hfind', hy', hvoices'⟩ := ih (fun j hj => hl j (List.mem_cons_of_mem _ hj)) (List.cons_ne_nil _ _)
        (hv ▸ (congrArg (fun t : Tab Voice => t.look j {}) hvoices :)) hfind
      exact ⟨hfind'.trans (congrArg some (x.raised_raised n)), hy'.trans hy, hvoices'.trans hvoices⟩

-- lane tests (R242, R450) ------------------------------------------------------------------------------------------------------------------------------

/-- A task of a core whose Course has rendered a test block. -/
def testBlock (x : Task) : Task := if x.kind = 2 then x.raised 1 else x

theorem find_testBlocks (c : VCore) (ctx : Nat) :
    (c.tasks.mapVals fun _ t => if t.kind = 2 then { t with next := setBit t.next 1 true } else t).find ctx = (c.tasks.find ctx).map testBlock :=
  Tab.find_mapVals _ _ _

/-- The test block reaches the cores of a list. -/
def testBlocksAt (l : List Nat) (s : State) : State :=
  l.foldl (fun s k => s.setCore k { s.core k with
    tasks := (s.core k).tasks.mapVals fun _ t => if t.kind = 2 then { t with next := setBit t.next 1 true } else t }) s

theorem raiseTestBlocks_eq (c : Nat) (s : State) : raiseTestBlocks c s = testBlocksAt ((List.range 8).map fun i => 8 * c + i) s := rfl

theorem testBlocksAt_other {l : List Nat} {k : Nat} (hk : k ∉ l) (s : State) : (testBlocksAt l s).core k = s.core k := by
  induction l generalizing s with
  | nil => rfl
  | cons i l ih =>
    have hne : k ≠ i := fun h => hk (h ▸ List.mem_cons_self ..)
    exact (ih (fun h => hk (List.mem_cons_of_mem _ h)) _).trans (State.setCore_other _ _ _ _ hne)

/-- The test block of a Course reaches its own cores alone. -/
theorem raiseTestBlocks_other {c k : Nat} (hk : k / 8 ≠ c) (s : State) : (raiseTestBlocks c s).core k = s.core k := by
  refine testBlocksAt_other (fun hmem => ?_) s
  obtain ⟨j, hj, rfl⟩ := List.mem_map.1 hmem
  have := List.mem_range.1 hj
  omega

/-- Only tasks change. -/
theorem raiseTestBlocks_keeps (c : Nat) (s : State) : ∃ cs, raiseTestBlocks c s = { s with cores := cs } := by
  rw [raiseTestBlocks_eq]
  generalize (List.range 8).map (fun i => 8 * c + i) = l
  induction l generalizing s with
  | nil => exact ⟨_, rfl⟩
  | cons i l ih =>
    obtain ⟨cs, h⟩ := ih (s.setCore i _)
    exact ⟨cs, h⟩

/-- Raised once or more, the flag of a lane test's task is raised. -/
theorem testBlock_testBlock (x : Task) : testBlock (testBlock x) = testBlock x := by
  unfold testBlock
  by_cases h : x.kind = 2
  · rw [if_pos h, if_pos (show (x.raised 1).kind = 2 from h), Task.raised_raised]
  · rw [if_neg h, if_neg h]

theorem testBlocksAt_find {l : List Nat} {k : Nat} (hk : k ∈ l) {ctx : Nat} {s : State} {x : Task} (hx : (s.core k).tasks.find ctx = some x) :
    ((testBlocksAt l s).core k).tasks.find ctx = some (testBlock x) := by
  induction l generalizing s x with
  | nil => exact absurd hk List.not_mem_nil
  | cons i l ih =>
    let t := testBlocksAt [i] s
    show ((testBlocksAt l t).core k).tasks.find ctx = _
    obtain hik | hne := eq_or_ne k i
    · have ht : (t.core k).tasks.find ctx = some (testBlock x) := by
        show ((s.setCore i _).core k).tasks.find ctx = _
        rw [← hik, State.setCore_same]
        exact (find_testBlocks _ _).trans (by rw [hx]; rfl)
      by_cases hkl : k ∈ l
      · exact (ih hkl ht).trans (congrArg some (testBlock_testBlock x))
      · rw [testBlocksAt_other hkl]
        exact ht
    · exact ih (List.mem_of_ne_of_mem hne hk) (by
        show ((s.setCore i _).core k).tasks.find ctx = _
        rwa [State.setCore_other _ _ _ _ hne])

theorem raiseTestBlocks_find {c k : Nat} (hk : k / 8 = c) {ctx : Nat} {s : State} {x : Task} (hx : (s.core k).tasks.find ctx = some x) :
    ((raiseTestBlocks c s).core k).tasks.find ctx = some (testBlock x) :=
  testBlocksAt_find (List.mem_map.2 ⟨k % 8, List.mem_range.2 (Nat.mod_lt _ (by decide)), by omega⟩) hx

-- the voices of a position (R136, R138) -------------------------------------------------------------------------------------------------------------------

theorem Tab.mem_put {α : Type} {t : Tab α} {k : Nat} {v : α} {p : Nat × α} (h : p ∈ t.put k v) : p = (k, v) ∨ p ∈ t := by
  induction t with
  | nil => exact .inl (by simpa [Tab.put] using h)
  | cons q t ih =>
    obtain ⟨j, w⟩ := q
    unfold Tab.put at h
    split at h
    · exact (List.mem_cons.1 h).imp id (List.mem_cons_of_mem _)
    split at h
    · exact List.mem_cons.1 h
    · obtain h | h := List.mem_cons.1 h
      · exact .inr (h ▸ List.mem_cons_self ..)
      · exact (ih h).imp id (List.mem_cons_of_mem _)

theorem Tab.put_mem {α : Type} (t : Tab α) (k : Nat) (v : α) : (k, v) ∈ t.put k v := by
  induction t with
  | nil => exact List.mem_cons_self ..
  | cons q t ih =>
    obtain ⟨j, w⟩ := q
    unfold Tab.put
    split
    · exact List.mem_cons_self ..
    split
    · exact List.mem_cons_self ..
    · exact List.mem_cons_of_mem _ ih

/-- A listed entry stays listed, but for the one that is looked up at the key. -/
theorem Tab.mem_put_of_mem {α : Type} {t : Tab α} {k : Nat} {v d : α} {p : Nat × α} (h : p ∈ t) : p ∈ t.put k v ∨ p = (k, t.look k d) := by
  induction t with
  | nil => exact absurd h List.not_mem_nil
  | cons q t ih =>
    obtain ⟨j, w⟩ := q
    unfold Tab.put Tab.look
    by_cases hkj : k = j
    · subst hkj
      rw [if_pos rfl, if_pos rfl]
      exact (List.mem_cons.1 h).symm.imp (List.mem_cons_of_mem _) id
    rw [if_neg hkj, if_neg (show ¬ j = k from fun e => hkj e.symm)]
    split
    · exact .inl (List.mem_cons_of_mem _ h)
    · obtain h | h := List.mem_cons.1 h
      · exact .inl (h ▸ List.mem_cons_self ..)
      · exact (ih h).imp (List.mem_cons_of_mem _) id

/-- A voice whose streams alone changed. -/
def OnlyStreams (v w : Voice) : Prop := ∃ oscs a b q, w = { v with oscs := oscs, strA := a, strB := b, quietTo := q }

/-- It renders where it did. -/
theorem atPosition_of_streams {s : State} {i c p : Nat} {w : Voice} (hat : s.atPosition c p = [i]) (hw : OnlyStreams (s.voice i) w) :
    (∀ j ∈ (s.setVoice i w).atPosition c p, j = i) ∧ (s.setVoice i w).atPosition c p ≠ [] := by
  obtain ⟨oscs, a, b, q, hw⟩ := hw
  let here : Nat × Voice → Bool := fun x => renders x.2 && (renderPlace x.2).1 == c && (renderPlace x.2).2 / 2 == p
  have hsame : here (i, w) = here (i, s.voices.look i {}) := by
    rw [hw]
    rfl
  have hmem : ∀ {x}, x ∈ s.voices → here x = true → x.1 = i := fun {x} hx hh =>
    List.mem_singleton.1 (hat ▸ List.mem_map_of_mem (List.mem_filter.2 ⟨hx, hh⟩))
  refine ⟨fun j hj => ?_, fun hnil => ?_⟩
  · obtain ⟨x, hx, rfl⟩ := List.mem_map.1 hj
    obtain ⟨hx, hh⟩ := List.mem_filter.1 hx
    obtain rfl | hx := Tab.mem_put hx
    · rfl
    · exact hmem hx hh
  · obtain ⟨x, hx, -⟩ := List.mem_map.1 (hat ▸ List.mem_singleton_self i : i ∈ s.atPosition c p)
    obtain ⟨hx, hh⟩ := List.mem_filter.1 hx
    have hnone : ∀ y ∈ s.voices.put i w, here y ≠ true := fun y hy hyh =>
      List.ne_nil_of_mem (List.mem_map_of_mem (List.mem_filter.2 ⟨hy, hyh⟩)) hnil
    obtain hx | hx := Tab.mem_put_of_mem hx
    · exact hnone x hx hh
    · exact hnone _ (Tab.put_mem s.voices i w) (hsame.trans (hx ▸ hh))

/-- Where a core has no twin, its Course has none. -/
theorem twinCourse_of_twin {s : State} {k : Nat} (h : s.twin k = none) : s.twinCourse (k / 8) = none := by
  unfold State.twin at h
  unfold State.twinCourse
  dsimp only at h ⊢
  split at h
  next h0 => exact if_pos h0
  · cases h

theorem flagged_of_twin (s : State) {c p : Nat} (h : s.twinCourse c = none) : s.flagged c p = s.atPosition c p := by
  unfold State.flagged
  rw [h]

/-- Counting at the Courses that render voices changes no more than the Courses. -/
theorem onRendering_courses (s : State) (c : Nat) (f : Course → Course) : ∃ cs, s.onRendering c f = { s with courses := cs } := by
  unfold State.onRendering
  dsimp only
  split
  · split
    · split
      · exact ⟨_, rfl⟩
      · exact ⟨_, rfl⟩
    · split
      · exact ⟨_, rfl⟩
      · exact ⟨_, rfl⟩
  · split
    · exact ⟨_, rfl⟩
    · exact ⟨_, rfl⟩

-- one voice's block -----------------------------------------------------------------------------------------------------------------------------------------

/-- A voice's block is rendered: its streams change, and what its Courses count. -/
theorem renderVoice_only (s : State) (i : Nat) :
    renderVoice s i = s ∨ ∃ w cs, OnlyStreams (s.voice i) w ∧ renderVoice s i = { s.setVoice i w with courses := cs } := by
  unfold renderVoice
  dsimp only
  split
  · exact .inl rfl
  · obtain ⟨cs, h⟩ := onRendering_courses (s.setVoice i (s.renderBlock (s.voice i) (s.nextStamp (s.voice i).bay)).1)
      (renderPlace (s.voice i)).1 fun x => { x with clamp := satAdd x.clamp (s.renderBlock (s.voice i) (s.nextStamp (s.voice i).bay)).2 }
    exact .inr ⟨_, cs, ⟨_, _, _, _, rfl⟩, h⟩

theorem quiet_only (s : State) (v : Voice) (t0 : Word) : ∃ q, s.quiet v t0 = { v with quietTo := q } := by
  unfold State.quiet
  generalize v.resets = rs
  induction rs generalizing v with
  | nil => exact ⟨_, rfl⟩
  | cons r rs ih =>
    rw [List.foldl_cons]
    split
    · obtain ⟨q, h⟩ := ih { v with quietTo := some (r + BitVec.ofNat 32 (s.preRoll (s.acting v.bay))) }
      exact ⟨q, h⟩
    · exact ih v

/-- A voice that does not move and has no twin: its decimated block stands in its own context's buffer. -/
theorem decimateVoice_writes {s : State} {i : Nat} (hm : (s.voice i).moveFrom = none) (ht : s.twin (s.voice i).core = none) :
    ∃ w cs, OnlyStreams (s.voice i) w ∧ decimateVoice s i =
      writeBlock (s.voice i).core (s.voice i).ctx (s.nextOdd (s.voice i).bay) w { s.setVoice i w with courses := cs } := by
  let zero : List Word24 := List.replicate s.spf 0
  let v := s.quiet (s.voice i) (s.nextStamp (s.voice i).bay)
  let a := s.decimateStream v (s.nextStamp (s.voice i).bay) v.strA
  let b := s.decimateStream v (s.nextStamp (s.voice i).bay) v.strB
  let done := if (s.voice i).silent then
      ({ s.voice i with strA := { (s.voice i).strA with out := zero }, strB := { (s.voice i).strB with out := zero } }, 0)
    else ({ v with strA := a.1, strB := b.1 }, a.2 + b.2)
  have hdone : OnlyStreams (s.voice i) done.1 := by
    show OnlyStreams _ (ite _ _ _ : Voice × Nat).1
    split
    · exact ⟨_, _, _, _, rfl⟩
    · obtain ⟨q, hq⟩ := quiet_only s (s.voice i) (s.nextStamp (s.voice i).bay)
      exact ⟨_, _, _, _, congrArg (fun v : Voice => { v with strA := a.1, strB := b.1 }) hq⟩
  obtain ⟨cs, hcs⟩ := onRendering_courses (s.setVoice i done.1) (renderPlace (s.voice i)).1 fun x => { x with sat := satAdd x.sat done.2 }
  refine ⟨done.1, cs, hdone, ?_⟩
  obtain ⟨oscs, a', b', q, hw⟩ := hdone
  have hbay : done.1.bay = (s.voice i).bay := by rw [hw]
  have hcore : done.1.core = (s.voice i).core := by rw [hw]
  have hctx : done.1.ctx = (s.voice i).ctx := by rw [hw]
  have hmove : done.1.moveFrom = none := by rw [hw]; exact hm
  rw [← hbay, ← hcore, ← hctx, ← hcs]
  rw [← hcore] at ht
  have htwin : (writeBlock done.1.core done.1.ctx (s.nextOdd done.1.bay) done.1
      ((s.setVoice i done.1).onRendering (renderPlace (s.voice i)).1 fun x => { x with sat := satAdd x.sat done.2 })).twin done.1.core = none := by
    rw [hcs]
    exact ht
  show (match done.1.moveFrom with | none => _ | some m => _ : State) = _
  rw [hmove]
  dsimp only
  show (match State.twin _ _ with | some t => _ | none => _ : State) = _
  rw [htwin]

theorem writeBlock_cores (k ctx : Nat) (odd : Bool) (v : Voice) (s : State) : ∃ cs, writeBlock k ctx odd v s = { s with cores := cs } := ⟨_, rfl⟩

/-- The two streams of a block stand in the buffer of the frame's parity (R206). -/
theorem writeBlock_words (k ctx : Nat) (odd : Bool) (v : Voice) {s : State} (hwf : Mem.wf (s.core k).y = true) :
    ((writeBlock k ctx odd v s).core k).tasks = (s.core k).tasks ∧
      let a := 192 * ctx + (if odd then 64 else 0)
      (∀ j w, j < 32 → v.strA.out[j]? = some w → Mem.read ((writeBlock k ctx odd v s).core k).y (a + j) = w) ∧
      (∀ j w, j < 32 → v.strB.out[j]? = some w → Mem.read ((writeBlock k ctx odd v s).core k).y (a + 32 + j) = w) := by
  unfold writeBlock
  dsimp only
  rw [State.setCore_same]
  refine ⟨rfl, fun j w hj h => ?_, fun j w _ h => putWords_at (putWords_wf _ _ hwf) h⟩
  exact (putWords_other (.inl (by omega))).trans (putWords_at hwf h)

/-- What a position whose voices are rendered flags: its lane tests' tasks and its voices' (R138, R242). -/
def flagOscillators (c p : Nat) (s : State) : State :=
  ((raiseTestBlocks c s).flagged c p).foldl (fun s i => raiseNext (s.coreIn c i) (s.voice i).ctx 1 s) (raiseTestBlocks c s)

/-- What the block of one voice at a position that has been decimated flags (R138, R153). -/
def flagDecimated (c : Nat) (s : State) (i : Nat) : State :=
  if (s.voice i).moveFrom.isSome then s else raiseNext (s.coreIn c i) (s.voice i).ctx 2 s

theorem flagOscillators_raises {s : State} {c p i : Nat} {x : Task} (hall : ∀ j ∈ s.atPosition c p, j = i) (hne : s.atPosition c p ≠ [])
    (htw : s.twinCourse c = none) (hc : (s.voice i).core / 8 = c) (hx : (s.core (s.voice i).core).tasks.find (s.voice i).ctx = some x) :
    ((flagOscillators c p s).core (s.voice i).core).tasks.find (s.voice i).ctx = some (x.raised 1) := by
  obtain ⟨cs, hcs⟩ := raiseTestBlocks_keeps c s
  have hx' := raiseTestBlocks_find hc hx
  have hraised : (testBlock x).raised 1 = x.raised 1 := by
    unfold testBlock
    split
    · exact x.raised_raised 1
    · rfl
  have hraise : ∀ u : State, u.voice i = s.voice i → raiseNext (u.coreIn c i) (u.voice i).ctx 1 u = raiseNext (s.voice i).core (s.voice i).ctx 1 u := by
    intro u hu
    unfold State.coreIn
    rw [hu, if_pos hc]
  unfold flagOscillators
  rw [hcs] at hx' ⊢
  rw [flagged_of_twin _ (show State.twinCourse { s with cores := cs } c = none from htw)]
  exact (foldl_raises hraise hall hne rfl hx').1.trans (congrArg some hraised)

section
variable {s : State} {c p i : Nat} {x : Task} (hat : s.atPosition c p = [i]) (hc : (s.voice i).core / 8 = c)
  (ht : s.twin (s.voice i).core = none) (hx : (s.core (s.voice i).core).tasks.find (s.voice i).ctx = some x)
include hat hc ht hx

/-- The oscillator block of a position raises flag O of the task there (R138, R242). -/
theorem oscillatorBlock_raises : ((oscillatorBlock c p s).core (s.voice i).core).tasks.find (s.voice i).ctx = some (x.raised 1) := by
  have htw : s.twinCourse c = none := hc ▸ twinCourse_of_twin ht
  have hfold : oscillatorBlock c p s = flagOscillators c p (renderVoice s i) := by
    unfold oscillatorBlock
    rw [hat]
    rfl
  rw [hfold]
  obtain hr | ⟨w, cs, hw, hr⟩ := renderVoice_only s i
  · rw [hr]
    exact flagOscillators_raises (by simp [hat]) (by simp [hat]) htw hc hx
  · obtain ⟨hall, hne⟩ := atPosition_of_streams hat hw
    obtain ⟨oscs, a, b, q, hw⟩ := hw
    have hv : State.voice { s.setVoice i w with courses := cs } i = { s.voice i with oscs := oscs, strA := a, strB := b, quietTo := q } :=
      (State.setVoice_same _ _ _).trans hw
    have hplace : (State.voice { s.setVoice i w with courses := cs } i).core = (s.voice i).core ∧
        (State.voice { s.setVoice i w with courses := cs } i).ctx = (s.voice i).ctx := by
      rw [hv]
      exact ⟨rfl, rfl⟩
    obtain ⟨hcore, hctx⟩ := hplace
    rw [hr, ← hcore, ← hctx]
    refine flagOscillators_raises hall hne htw (hcore.symm ▸ hc) ?_
    rw [hcore, hctx]
    exact hx

/-- The decimated block of a position stands in the task's buffer, and flag D is raised (R138, R152, R206). -/
theorem decimatedBlock_writes (hm : (s.voice i).moveFrom = none) (hwf : Mem.wf (s.core (s.voice i).core).y = true) :
    let t := decimatedBlock c p s
    (t.core (s.voice i).core).tasks.find (s.voice i).ctx = some (x.raised 2) ∧
      let a := 192 * (s.voice i).ctx + (if s.nextOdd (s.voice i).bay then 64 else 0)
      (∀ j w, j < 32 → (t.voice i).strA.out[j]? = some w → Mem.read (t.core (s.voice i).core).y (a + j) = w) ∧
      (∀ j w, j < 32 → (t.voice i).strB.out[j]? = some w → Mem.read (t.core (s.voice i).core).y (a + 32 + j) = w) := by
  have htw : s.twinCourse c = none := hc ▸ twinCourse_of_twin ht
  obtain ⟨w, cs, hw, hrun⟩ := decimateVoice_writes hm ht
  obtain ⟨hall, hne⟩ := atPosition_of_streams hat hw
  have hwf' : Mem.wf (State.core { s.setVoice i w with courses := cs } (s.voice i).core).y = true := hwf
  obtain ⟨htasks, ha, hb⟩ := writeBlock_words (s.voice i).core (s.voice i).ctx (s.nextOdd (s.voice i).bay) w hwf'
  have hplace : w.core = (s.voice i).core ∧ w.ctx = (s.voice i).ctx ∧ w.moveFrom = none := by
    obtain ⟨_, _, _, _, hw⟩ := hw
    rw [hw]
    exact ⟨rfl, rfl, hm⟩
  obtain ⟨hcore, hctx, hmove⟩ := hplace
  have hfold : decimatedBlock c p s = ((decimateVoice s i).flagged c p).foldl (flagDecimated c) (decimateVoice s i) := by
    unfold decimatedBlock
    rw [hat]
    rfl
  have hflag : State.flagged (writeBlock (s.voice i).core (s.voice i).ctx (s.nextOdd (s.voice i).bay) w { s.setVoice i w with courses := cs }) c p =
      (s.setVoice i w).atPosition c p := flagged_of_twin _ htw
  have hraise : ∀ u : State, u.voice i = w → flagDecimated c u i = raiseNext (s.voice i).core (s.voice i).ctx 2 u := by
    intro u hu
    unfold flagDecimated State.coreIn
    rw [hu, hmove, hcore, hctx, if_pos hc]
    rfl
  have hv : State.voice (writeBlock (s.voice i).core (s.voice i).ctx (s.nextOdd (s.voice i).bay) w { s.setVoice i w with courses := cs }) i = w :=
    State.setVoice_same _ _ _
  obtain ⟨hfind, hy, hvoices⟩ := foldl_raises hraise hall hne hv ((congrArg (fun t : Tab Task => t.find _) htasks).trans hx)
  rw [hfold, hrun, hflag]
  dsimp only
  rw [hy, show State.voice (List.foldl _ _ _) i = w from (congrArg (fun t : Tab Voice => t.look i {}) hvoices).trans hv]
  exact ⟨hfind, ha, hb⟩

end

-- the buffers of moved voices (R153) ----------------------------------------------------------------------------------------------------------------------

/-- A buffer that comes changes cores alone. -/
theorem bringBuffer_cores (odd : Bool) (v : Voice) (k src d : Nat) (s : State) : ∃ cs, bringBuffer odd v k src d s = { s with cores := cs } := by
  unfold bringBuffer
  obtain ⟨cs, h⟩ := raiseNext_cores d v.ctx 2 (writeBlock d v.ctx odd v (if ((s.core k).tasks.find src).isNone then copyInput odd k src d v.ctx s else s))
  dsimp only
  rw [h]
  split
  · exact ⟨_, rfl⟩
  · exact ⟨_, rfl⟩

/-- A core that takes a buffer keeps its tasks until the flag is raised. -/
theorem copyInput_tasks (odd : Bool) (k src d dst : Nat) (s : State) : ((copyInput odd k src d dst s).core d).tasks = (s.core d).tasks := by
  unfold copyInput
  dsimp only
  rw [State.setCore_same]

theorem writeBlock_tasks (k ctx : Nat) (odd : Bool) (v : Voice) (s : State) : ((writeBlock k ctx odd v s).core k).tasks = (s.core k).tasks := by
  unfold writeBlock
  dsimp only
  rw [State.setCore_same]

section
variable {odd : Bool} {v : Voice} {k src d : Nat} {s : State} {x : Task} (hx : (s.core d).tasks.find v.ctx = some x)
include hx

/-- The buffer that comes raises flag D of the task there (R153). -/
theorem bringBuffer_raises : ((bringBuffer odd v k src d s).core d).tasks.find v.ctx = some (x.raised 2) := by
  unfold bringBuffer
  dsimp only
  refine (raiseNext_find 2 ?_).1
  rw [writeBlock_tasks]
  split
  · rw [copyInput_tasks]
    exact hx
  · exact hx

/-- The 64 words of the source, with the new block in place of theirs, stand in the buffer (R153). -/
theorem bringBuffer_words (hsrc : (s.core k).tasks.find src = none) (hwf : Mem.wf (s.core d).y = true)
    {n : Nat} (hA : v.strA.out.length = n) (hB : v.strB.out.length = n) {j : Nat} (hj : j < 64) (hout : ¬ (j < n ∨ (32 ≤ j ∧ j < 32 + n))) :
    let lo := if odd then 64 else 0
    Mem.read ((bringBuffer odd v k src d s).core d).y (192 * v.ctx + lo + j) = Mem.read (s.core k).y (192 * src + lo + j) := by
  have hrun : bringBuffer odd v k src d s = raiseNext d v.ctx 2 (writeBlock d v.ctx odd v (copyInput odd k src d v.ctx s)) := by
    unfold bringBuffer
    rw [hsrc]
    rfl
  have hfind : ((writeBlock d v.ctx odd v (copyInput odd k src d v.ctx s)).core d).tasks.find v.ctx = some x := by
    rw [writeBlock_tasks, copyInput_tasks]
    exact hx
  rw [hrun, (raiseNext_find 2 hfind).2]
  unfold writeBlock copyInput
  dsimp only
  rw [State.setCore_same, State.setCore_same]
  rw [putWords_other (by omega), putWords_other (by omega)]
  exact (foldl_range_write _ (fun i => Mem.read (s.core k).y (192 * src + (if odd then 64 else 0) + i)) 64 _ hwf).2 j hj

end

/-- A voice that does not move has no buffer to copy, and another than the oldest waits (R153). -/
theorem copyBuffer_waits {i : Nat} {s : State} :
    ((s.voice i).moveFrom = none → copyBuffer i s = s) ∧
    ∀ m, (s.voice i).moveFrom = some m → (s.course (m.1 / 8)).copies.head? ≠ some i → copyBuffer i s = s := by
  unfold copyBuffer
  refine ⟨fun h => ?_, fun m h hne => ?_⟩
  · dsimp only
    rw [h]
  · dsimp only
    rw [h]
    exact if_neg hne

/-- The oldest of a Course's buffers, of a voice whose new core has no twin, comes to its new core. -/
theorem copyBuffer_brings {i : Nat} {s : State} {m : Nat × Nat × Nat} (hm : (s.voice i).moveFrom = some m)
    (hhead : (s.course (m.1 / 8)).copies.head? = some i) (ht : s.twin (s.voice i).core = none) :
    copyBuffer i s = bringBuffer (s.nextOdd (s.voice i).bay) (s.voice i) m.1 m.2.1 (s.voice i).core
      (s.setCourse (m.1 / 8) { s.course (m.1 / 8) with copies := (s.course (m.1 / 8)).copies.tail }) := by
  obtain ⟨cs, hcs⟩ := bringBuffer_cores (s.nextOdd (s.voice i).bay) (s.voice i) m.1 m.2.1 (s.voice i).core
    (s.setCourse (m.1 / 8) { s.course (m.1 / 8) with copies := (s.course (m.1 / 8)).copies.tail })
  unfold copyBuffer
  dsimp only
  rw [hm]
  dsimp only
  rw [if_pos hhead, hcs]
  have htwin : State.twin { s.setCourse (m.1 / 8) { s.course (m.1 / 8) with copies := (s.course (m.1 / 8)).copies.tail } with cores := cs }
      (s.voice i).core = none := ht
  rw [htwin]
  split
  next h => cases h
  · rfl

/-- A command that names units of this device does its work. -/
theorem withUnit_lt {n limit : Nat} (h : n < limit) (o : Outcome) : withUnit n limit o = o := if_pos h

/-- A position with no voice, on either Course of a pair, raises the flags of lane tests alone. -/
theorem blocks_of_empty {c p : Nat} {s : State} (hfl : s.flagged c p = []) (hat : s.atPosition c p = []) :
    oscillatorBlock c p s = raiseTestBlocks c s ∧ decimatedBlock c p s = s := by
  obtain ⟨cs, hcs⟩ := raiseTestBlocks_keeps c s
  unfold oscillatorBlock decimatedBlock
  rw [hat]
  refine ⟨?_, ?_⟩
  · show ((raiseTestBlocks c s).flagged c p).foldl _ (raiseTestBlocks c s) = _
    rw [hcs, show State.flagged { s with cores := cs } c p = [] from hfl]
    rfl
  · show (s.flagged c p).foldl _ s = s
    rw [hfl]
    rfl

/-- Settles O47: the voices of a position by `atPosition_of_streams`, their flags by `foldl_raises`, the buffers word by word. -/
theorem blockFlagsAndMovedBuffers : Obligations.BlockFlagsAndMovedBuffers := by
  refine ⟨fun c p s hc hp => ?_, fun i s hi => ?_⟩
  · have hosc : exec (.oscillatorBlockFlag c p) s = .next (oscillatorBlock c p s) := (withUnit_lt hc _).trans (withUnit_lt hp _)
    have hdec : exec (.decimatedBlockFlag c p) s = .next (decimatedBlock c p s) := (withUnit_lt hc _).trans (withUnit_lt hp _)
    refine ⟨fun hfl hat => ?_, fun k ctx x hk hx => raiseTestBlocks_find hk hx, fun k hk => raiseTestBlocks_other hk s,
      fun i x hat _ hcore ht hm hx hwf => ⟨⟨_, hosc, oscillatorBlock_raises hat hcore ht hx⟩, _, hdec, decimatedBlock_writes hat hcore ht hx hm hwf⟩⟩
    obtain ⟨ho, hd⟩ := blocks_of_empty hfl hat
    exact ⟨hosc.trans (congrArg Host.Outcome.next ho), hdec.trans (congrArg Host.Outcome.next hd)⟩
  · have hcopy : exec (.inputBufferCopy i) s = .next (copyBuffer i s) := withUnit_lt hi _
    obtain ⟨hstays, hwaits⟩ := copyBuffer_waits
    refine ⟨fun hm => hcopy.trans (congrArg Host.Outcome.next (hstays hm)),
      fun m hm => ⟨fun hne => hcopy.trans (congrArg Host.Outcome.next (hwaits m hm hne)), fun x hhead ht hx => ⟨_, hcopy, ?_⟩⟩⟩
    let s1 := s.setCourse (m.1 / 8) { s.course (m.1 / 8) with copies := (s.course (m.1 / 8)).copies.tail }
    have hx1 : (s1.core (s.voice i).core).tasks.find (s.voice i).ctx = some x := hx
    obtain ⟨cs, hcs⟩ := bringBuffer_cores (s.nextOdd (s.voice i).bay) (s.voice i) m.1 m.2.1 (s.voice i).core s1
    rw [copyBuffer_brings hm hhead ht]
    refine ⟨?_, bringBuffer_raises hx1, ?_, fun _ hsrc hwf hA hB _ => ?_⟩
    · rw [hcs]
      exact congrArg Course.copies (State.setCourse_same s _ _)
    · rw [hcs]
      rfl
    · refine fun j hj => ?_
      by_cases hout : j < s.spf ∨ (32 ≤ j ∧ j < 32 + s.spf)
      · exact hout.imp_right .inl
      · exact .inr (.inr (bringBuffer_words hx1 hsrc hwf hA hB hj hout))

end Sys2Proof.Machine
end


section
/-! PROOFS. Onset, Scarf end and quarantine end (R99, R102, R104, R105); envelope segments, override groups and templates (R173, R174, R184, R236). -/

namespace Sys2Proof.Machine

/-- Settles O48: each event acts on a voice in its state and at its stamp, and on no other. -/
theorem voiceLifeEvents : Obligations.VoiceLifeEvents := by
  intro i s hi
  have honset : exec (.onset i) s = .next (voiceOnset i s) := withUnit_lt hi _
  have hscarf : exec (.scarfEnd i) s = .next (voiceScarfEnd i s) := withUnit_lt hi _
  have hquar : exec (.quarantineEnd i) s = .next (quarantineEnd i s) := withUnit_lt hi _
  rw [honset, hscarf, hquar]
  refine ⟨fun hu hst hf hr => ?_, fun h => ?_, fun hu hst hr => ?_, fun h => ?_, fun hu hst hq => ⟨_, rfl, ?_⟩, fun h => ?_⟩
  · exact congrArg Host.Outcome.next (if_pos ⟨hu, hst, by simp [hf], hr⟩)
  · exact congrArg Host.Outcome.next (if_neg fun ⟨_, hst, _, hr⟩ => h.elim (absurd hst) fun h => Bool.false_ne_true (h.symm.trans hr))
  · exact congrArg Host.Outcome.next (if_pos ⟨hu, hst, hr⟩)
  · exact congrArg Host.Outcome.next (if_neg fun ⟨_, hst, hr⟩ => h.elim (absurd hst) fun h => Bool.false_ne_true (h.symm.trans hr))
  · have hrun : quarantineEnd i s = { s.setVoice i { s.voice i with inUse := false } with freed := s.freed ++ [i] } := if_pos ⟨hu, hst, hq⟩
    rw [hrun]
    exact ⟨rfl, State.setVoice_same _ _ _, fun n hn => State.setVoice_other _ _ _ _ hn⟩
  · exact congrArg Host.Outcome.next (if_neg fun ⟨_, hst, hq⟩ => h.elim (absurd hst) (absurd hq))

-- envelope segments (R173, R174) ---------------------------------------------------------------------------------------------------------------------------

/-- A segment that has ended, with no event before it, is followed as its header says; one that holds or still runs is not. -/
theorem envNext_of_noPend {s : EnvScale} {v : Voice} {n : Nat} {limit : Word} {x : Env} (hp : x.pend = []) (hn : x.ns ≠ 0) :
    (x.hold = false → tickDist (segFin x) limit < 0 → envNext s v n limit x = some (nextSeg s v n x)) ∧
      (x.hold = true ∨ 0 ≤ tickDist (segFin x) limit → envNext s v n limit x = none) := by
  unfold envNext
  rw [hp]
  dsimp only
  refine ⟨fun hh hd => if_pos (by simp [hh, hn, hd]), fun h => ?_⟩
  rw [if_neg ?_, if_neg fun ⟨h0, _⟩ => hn h0]
  obtain h | h := h
  · simp [h]
  · simp [not_lt.2 h]

section
variable {i n : Nat} {s : State}

/-- The envelope of a voice that sounds, or whose Scarf runs, and is not marked, runs through the present frame. -/
def State.envRuns (s : State) (i n : Nat) : Prop :=
  (s.voice i).inUse = true ∧ ((s.voice i).st.counted = true ∨ (s.voice i).st = .scarf) ∧ (s.voice i).toFree = false ∧ n < (s.voice i).envs.length

/-- Where an envelope runs, it alone moves on, and the end of envelope 0 marks its voice (R105). -/
theorem segmentEnd_runs (h : s.envRuns i n) : let y := (s.envThrough (s.voice i) (s.frameEnv i (s.voice i)) n).1
    ((segmentEnd i n s).voice i).envs = (s.voice i).envs.set n y ∧
      ((segmentEnd i n s).voice i).st = (s.voice i).st ∧
      ((segmentEnd i n s).voice i).toFree = (n == 0 && y.done) ∧ ∀ m, m ≠ i → (segmentEnd i n s).voice m = s.voice m := by
  obtain ⟨hu, hst, hf, hn⟩ := h
  dsimp only
  unfold segmentEnd
  dsimp only
  rw [if_pos (by simp [hu, hst, hf, hn]), State.setVoice_same]
  refine ⟨?_, ?_, ?_, fun m hm => State.setVoice_other _ _ _ _ hm⟩
  · split <;> rfl
  · split <;> rfl
  · split
    next h =>
      obtain ⟨h0, hd⟩ := h
      rw [hd, h0]
      rfl
    next h =>
      refine hf.trans (Eq.symm ?_)
      simpa using h

theorem segmentEnd_stays (h : ¬ s.envRuns i n) : segmentEnd i n s = s := by
  refine if_neg fun hrun => h ?_
  simpa [State.envRuns, and_assoc] using hrun

end

-- override groups (R184) --------------------------------------------------------------------------------------------------------------------------------

/-- A group that is released is bound no more, holds no value of its own, and no voice uses it. -/
theorem groupRelease_releases {g : Nat} {s : State} (hb : (s.group g).bound = true) (hi : groupFrames s.time.rate ≤ (s.group g).idle) :
    ((groupRelease g s).group g).bound = false ∧ (∀ p ∈ (groupRelease g s).params.endpoints, p.1 / 256 ≠ 0x200 + g) ∧
      ∀ p ∈ (groupRelease g s).voices, p.2.group ≠ some g := by
  have hrun : groupRelease g s = { (clearGroup g s).setGroup g {} with
      voices := s.voices.mapVals fun _ v => if v.group = some g then { v with group := none } else v } := if_pos ⟨hb, hi⟩
  rw [hrun]
  refine ⟨congrArg Group.bound (State.setGroup_same (clearGroup g s) g {}), fun p hp => ?_, fun p hp => ?_⟩
  · simpa using (List.mem_filter.1 hp).2
  · obtain ⟨q, -, rfl⟩ := List.mem_map.1 hp
    dsimp only
    split
    · exact fun h => nomatch h
    · assumption

-- templates (R236) ---------------------------------------------------------------------------------------------------------------------------------------

/-- What the residency area and the costs take leaves which templates are resident. -/
theorem copyTables_resid (k t : Nat) (s : State) : ((copyTables k t s).core k).resid = (s.core k).resid := by
  unfold copyTables
  split
  · rw [State.setCore_same]
  · rfl

theorem taskCosts_resid (k : Nat) (s : State) : ((taskCosts k s).core k).resid = (s.core k).resid := by
  unfold taskCosts
  rw [State.setCore_same]

/-- A template whose tables have come is ready in its core. -/
theorem templateResident_ready {k n : Nat} {s : State} (h : ∃ r ∈ (s.core k).resid, r.template = n ∧ r.isReady = false ∧
      r.ready ≤ s.frameOf (s.timelineBay (s.courseBay (k / 8)))) : ((templateResident k n s).core k).resid =
    (s.core k).resid.map fun r =>
      if r.template = n ∧ r.ready ≤ s.frameOf (s.timelineBay (s.courseBay (k / 8))) then { r with isReady := true } else r := by
  obtain ⟨r, hr, ht, hn, hle⟩ := h
  unfold templateResident
  dsimp only
  rw [if_pos (List.any_eq_true.2 ⟨r, hr, by simp [ht, hn, hle]⟩), taskCosts_resid]
  exact (copyTables_resid k n _).trans (congrArg VCore.resid (State.setCore_same s k _))

/-- Settles O49: the envelope by `segmentEnd_runs` and `envNext_of_noPend`, the group by `groupRelease_releases`, the template by what it leaves. -/
theorem segmentsGroupsAndTemplates : Obligations.SegmentsGroupsAndTemplates := by
  refine ⟨fun i n s hi hn => ?_, fun g s hg => ?_, fun k n s hk hn => ?_⟩
  · have hexec : exec (.envelopeSegmentEnd i n) s = .next (segmentEnd i n s) := (withUnit_lt hi _).trans (withUnit_lt hn _)
    exact ⟨fun h => hexec.trans (congrArg Host.Outcome.next (segmentEnd_stays h)), fun h => ⟨_, hexec, segmentEnd_runs h⟩,
      fun sc limit hp hns => envNext_of_noPend hp hns⟩
  · have hexec : exec (.groupRelease g) s = .next (groupRelease g s) := withUnit_lt hg _
    refine ⟨fun h => hexec.trans (congrArg Host.Outcome.next (if_neg ?_)), fun hb hi => ⟨_, hexec, groupRelease_releases hb hi⟩⟩
    rintro ⟨hb, hle⟩
    exact h.elim (fun h => Bool.false_ne_true (h.symm.trans hb)) fun h => absurd hle (not_le.2 h)
  · have hexec : exec (.templateResident k n) s = .next (templateResident k n s) := (withUnit_lt hk _).trans (withUnit_lt hn _)
    refine ⟨fun h => hexec.trans (congrArg Host.Outcome.next (if_neg fun hany => ?_)), fun r hr ht hnr hle => ⟨_, hexec, fun q hq hqt hqr => ?_⟩⟩
    · obtain ⟨r, hr, hrt⟩ := List.any_eq_true.1 hany
      obtain ⟨⟨ht, hnr⟩, hle⟩ : (r.template = n ∧ r.isReady = false) ∧ r.ready ≤ s.frameOf (s.timelineBay (s.courseBay (k / 8))) := by
        simpa using hrt
      exact (h r hr ht).elim (fun h => Bool.false_ne_true (hnr.symm.trans h)) (BitVec.not_lt.2 hle)
    · rw [templateResident_ready ⟨r, hr, ht, hnr, hle⟩] at hq
      obtain ⟨p, hp, rfl⟩ := List.mem_map.1 hq
      split
      · rfl
      next hnot =>
        rw [if_neg hnot] at hqt hqr
        exact absurd ⟨hqt, hqr⟩ hnot

end Sys2Proof.Machine
end


section
/-! PROOFS. The frame check of a mirrored pair, its events and its decision (R274, R278 to R282). -/

namespace Sys2Proof.Machine

-- what the checks leave of a Bay's record -----------------------------------------------------------------------------------------------------------

/-- Nothing but the events of the frame, its record and its Scarf in differs. -/
def KeepsBay (x y : Bay) : Prop := ∃ e r f, y = { x with events := e, recordDue := r, fadeIn := f }

theorem KeepsBay.stays {x y : Bay} (h : KeepsBay x y) :
    y.role = x.role ∧ y.mode = x.mode ∧ y.yields = x.yields ∧ y.yieldDue = x.yieldDue ∧ y.unresolved = x.unresolved ∧ y.drops = x.drops := by
  obtain ⟨_, _, _, h⟩ := h
  rw [h]
  exact ⟨rfl, rfl, rfl, rfl, rfl, rfl⟩

/-- Every Bay's record differs in those alone. -/
def KeepsBays (s t : State) : Prop := ∀ n, KeepsBay (s.bay n) (t.bay n)

theorem KeepsBays.refl (s : State) : KeepsBays s s := fun _ => ⟨_, _, _, rfl⟩

theorem KeepsBays.trans {s t u : State} (h : KeepsBays s t) (g : KeepsBays t u) : KeepsBays s u := by
  intro n
  obtain ⟨_, _, _, h⟩ := h n
  obtain ⟨e, r, f, g⟩ := g n
  exact ⟨e, r, f, by rw [g, h]⟩

theorem bay_of_bays {s t : State} (h : t.bays = s.bays) (n : Nat) : t.bay n = s.bay n := congrArg (fun x : Tab Bay => x.look n {}) h

theorem KeepsBays.of_bays {s t : State} (h : t.bays = s.bays) : KeepsBays s t := fun n => ⟨_, _, _, bay_of_bays h n⟩

theorem onBay_same (s : State) (b : Nat) (f : Bay → Bay) : (s.onBay b f).bay b = f (s.bay b) := State.setBay_same _ _ _

theorem onBay_other {s : State} {b n : Nat} {f : Bay → Bay} (h : n ≠ b) : (s.onBay b f).bay n = s.bay n := State.setBay_other _ _ _ _ h

theorem KeepsBays.onBay {b : Nat} {f : Bay → Bay} (hf : ∀ x, KeepsBay x (f x)) (s : State) : KeepsBays s (s.onBay b f) := by
  intro n
  obtain rfl | hn := eq_or_ne n b
  · rw [onBay_same]
    exact hf _
  · rw [onBay_other hn]
    exact ⟨_, _, _, rfl⟩

/-- Reports of a list of events are the Bays' own, and nothing else of the machine. -/
theorem foldl_report (l : List Nat) (f : State → Nat → Nat × Nat × Nat) (s : State) :
    KeepsBays s (l.foldl (fun s k => reportEvent (f s k).1 (f s k).2.1 (f s k).2.2 s) s) ∧
      ∃ bs, l.foldl (fun s k => reportEvent (f s k).1 (f s k).2.1 (f s k).2.2 s) s = { s with bays := bs } := by
  induction l generalizing s with
  | nil => exact ⟨.refl s, _, rfl⟩
  | cons k l ih =>
    obtain ⟨keeps, bs, h⟩ := ih (reportEvent (f s k).1 (f s k).2.1 (f s k).2.2 s)
    exact ⟨(KeepsBays.onBay (fun x => ⟨_, _, _, rfl⟩) s).trans keeps, bs, h⟩

-- the pair that a check belongs to (R274) -------------------------------------------------------------------------------------------------------------

/-- The Bays' roles and partners agree. -/
def SamePairs (s t : State) : Prop := ∀ n, (t.bay n).role = (s.bay n).role ∧ (t.bay n).partner = (s.bay n).partner

theorem KeepsBays.pairs {s t : State} (h : KeepsBays s t) : SamePairs s t := by
  intro n
  obtain ⟨_, _, _, h⟩ := h n
  rw [h]
  exact ⟨rfl, rfl⟩

theorem SamePairs.onBay {b : Nat} {f : Bay → Bay} (hf : ∀ x, (f x).role = x.role ∧ (f x).partner = x.partner) (s : State) :
    SamePairs s (s.onBay b f) := by
  intro n
  obtain rfl | hn := eq_or_ne n b
  · rw [State.onBay, State.setBay_same]
    exact hf _
  · rw [State.onBay, State.setBay_other _ _ _ _ hn]
    exact ⟨rfl, rfl⟩

theorem SamePairs.partnerOf {s t : State} (h : SamePairs s t) (n : Nat) : t.partnerOf n = s.partnerOf n := congrArg BitVec.toNat (h n).2

theorem SamePairs.controlOf {s t : State} (h : SamePairs s t) (n : Nat) : t.controlOf n = s.controlOf n := by
  have hy : ∀ n, t.yielded n = s.yielded n := fun n => by
    unfold State.yielded
    rw [(h n).1, (h (t.partnerOf n)).1, h.partnerOf]
  unfold State.controlOf State.homeOf State.acting
  rw [(h n).1, hy n, h.partnerOf n]
  split
  · rw [hy, h.partnerOf]
  · rw [hy, h.partnerOf]

/-- Where the home of a pair is in control, it is the Bay in control of the pair, seen from either Bay. -/
theorem controlOf_of_home {s : State} {b : Nat} (hc : s.controlOf (s.homeOf b) = s.homeOf b)
    (hne : s.partnerOf (s.homeOf b) ≠ s.homeOf b) : s.controlOf b = s.homeOf b := by
  have hy : s.yielded (s.homeOf b) = false := by
    by_contra h
    rw [Bool.not_eq_false] at h
    have hh : s.homeOf (s.homeOf b) = s.homeOf b := if_pos (.inr (.inr (.inr h)))
    rw [State.controlOf, hh, State.acting, if_pos h] at hc
    exact hne hc
  unfold State.controlOf State.acting
  rw [hy]
  rfl

-- what the parts of a decision leave (R280 to R282) ---------------------------------------------------------------------------------------------------------

theorem foldl_bays {α : Type} {f : State → α → State} (hf : ∀ s a, (f s a).bays = s.bays) (l : List α) (s : State) :
    (l.foldl f s).bays = s.bays := by
  induction l generalizing s with
  | nil => rfl
  | cons a l ih => exact (ih _).trans (hf s a)

theorem clearTasks_bays (b : Nat) (s : State) : (clearTasks b s).bays = s.bays := foldl_bays (fun _ _ => by rfl) _ s

theorem voidCuts_bays (a : Nat) (s : State) : (voidCuts a s).bays = s.bays := by
  refine foldl_bays (fun s p => ?_) _ s
  dsimp only
  split
  · split
    · rfl
    · rfl
  · rfl

/-- A decision that is traced changes the trace alone. -/
theorem traceBay_bays (ty unit b slot : Nat) (w2 w3 : Word) (s : State) : (traceBay ty unit b slot w2 w3 s).bays = s.bays := by
  unfold traceBay
  split
  · exact (congrArg State.bays (tracePut_onlyTrace _ _).rest :)
  · rfl

theorem cutTask_bays (k ctx why : Nat) (s : State) : (cutTask k ctx why s).bays = s.bays := by
  have hover : ∀ t s, (instanceOver t s).bays = s.bays := fun t s => (congrArg State.bays (instanceOver_pairsOnly t s).rest :)
  unfold cutTask
  split
  · rfl
  · dsimp only
    split
    · unfold cutVoice
      rw [traceBay_bays]
      exact hover _ _
    · exact hover _ _

theorem failCore_bays (k : Nat) (s : State) : (failCore k s).bays = s.bays := by
  have hcuts := foldl_bays (fun s ctx => cutTask_bays k ctx 3 s) ((s.core k).tasks.map fun p => p.1) s
  unfold failCore
  dsimp only
  split
  · exact hcuts
  · exact hcuts

theorem failFaulty_bays (c : Nat) (es : List (Nat × Nat)) (s : State) : (failFaulty c es s).bays = s.bays :=
  foldl_bays (fun s k => failCore_bays k s) _ s

/-- The frame of one Bay, taken from the other: the Scarf in of the other alone. -/
theorem takeFrame_keeps (late : Bool) (a o : Nat) (s : State) : KeepsBays s (takeFrame late a o s) := by
  unfold takeFrame refreshPackets busValues
  dsimp only
  have hs0 : KeepsBays s (if late then s.onBay o fun x => { x with fadeIn := halfMs s.time.rate } else s) := by
    split
    · exact .onBay (fun x => ⟨_, _, _, rfl⟩) s
    · exact .refl s
  exact (hs0.trans (.of_bays rfl)).trans ((KeepsBays.onBay (fun x => ⟨_, _, _, rfl⟩) _).trans (.of_bays rfl))

/-- The record of a frame enters its ring. -/
theorem recordNow_keeps (c : Nat) (s : State) : KeepsBays s (recordNow c s) := by
  have hw : (writeRecord c s).bays = s.bays := by
    unfold writeRecord
    dsimp only
    split
    · rfl
    · rfl
  unfold recordNow
  split
  · exact (KeepsBays.of_bays hw).trans (.onBay (fun x => ⟨_, _, _, rfl⟩) _)
  · exact .refl s

/-- The events of two Bays are gone. -/
def clearEvents (h m : Nat) (s : State) : State :=
  (s.onBay h fun x => { x with events := [] }).onBay m fun x => { x with events := [] }

theorem clearEvents_ends (h m : Nat) (s : State) :
    KeepsBays s (clearEvents h m s) ∧ ((clearEvents h m s).bay h).events = [] ∧ ((clearEvents h m s).bay m).events = [] := by
  refine ⟨(KeepsBays.onBay (fun x => ⟨_, _, _, rfl⟩) s).trans (.onBay (fun x => ⟨_, _, _, rfl⟩) _), ?_, congrArg Bay.events (onBay_same _ _ _)⟩
  unfold clearEvents
  obtain rfl | hne := eq_or_ne h m
  · rw [onBay_same]
  · rw [onBay_other hne, onBay_same]

/-- The end of a decision: the frame's events are gone (R278). -/
theorem endDecision_ends (h : Nat) (s : State) : KeepsBays s (endDecision h s) ∧ ((endDecision h s).bay h).events = [] ∧
    ((endDecision h s).bay (s.partnerOf h)).events = [] := by
  have hmark : ∀ c b s, KeepsBays s (s.onBay b fun x => { x with recordDue := b == c }) := fun c b => .onBay fun x => ⟨_, _, _, rfl⟩
  let s1 := if (s.bay h).recordDue || (s.bay (s.partnerOf h)).recordDue then
    recordNow (s.controlOf h) ((s.onBay (s.partnerOf h) fun x => { x with recordDue := s.partnerOf h == s.controlOf h }).onBay h
      fun x => { x with recordDue := h == s.controlOf h }) else s
  have hk : KeepsBays s s1 := by
    show KeepsBays s (if _ then _ else _)
    split
    · exact ((hmark _ _ _).trans (hmark _ _ _)).trans (recordNow_keeps _ _)
    · exact .refl s
  obtain ⟨hkeeps, hh, hm⟩ := clearEvents_ends h (s.partnerOf h) s1
  exact ⟨(hk.trans hkeeps).trans (.of_bays rfl), hh, hm⟩

-- the decision (R280, R281) --------------------------------------------------------------------------------------------------------------------------

/-- The other Bay of a pair whose home is in control is dropped: the mirror enters its self-test in ROLE 7. -/
theorem dropOther_drops {s : State} {h : Nat} (hc : s.controlOf h = h) (hne : s.partnerOf h ≠ h) :
    (dropOther h s).bay h = { s.bay h with drops := satInc (s.bay h).drops } ∧
      (dropOther h s).bay (s.partnerOf h) = { s.bay (s.partnerOf h) with
        role := 7, mode := .service, selfTest := true, lockstep := false, joined := false, resyncLeft := 0 } := by
  unfold dropOther
  rw [if_pos hc]
  unfold dropMirror
  dsimp only
  rw [onBay_same, onBay_other hne, onBay_same, onBay_other hne.symm, bay_of_bays (clearTasks_bays _ s), bay_of_bays (clearTasks_bays _ s)]
  exact ⟨rfl, rfl⟩

/-- Presets of Courses are not the Bays'. -/
theorem startResync_bay (o : Nat) (s : State) : (startResync o s).bays = (s.onBay o fun x => { x with
    role := 3, image := (s.bay (s.partnerOf o)).image, lockstep := false, joined := false, copied := none, selfTest := false, resyncLeft := BitVec.ofNat 32 (resyncBound s (s.partnerOf o)) }).bays :=
  foldl_bays (fun _ _ => by rfl) _ _

/-- A mismatch without a fault is counted, and the home keeps its partner (R280). -/
theorem unresolved_counts {s : State} {h : Nat} (hc : s.controlOf h = h) (hne : s.partnerOf h ≠ h) :
    ((unresolved h s).bay h).unresolved = satInc (s.bay h).unresolved ∧ (unresolved h s).partnerOf h = s.partnerOf h := by
  let fs := recentFrames (famFrames s.time.rate 60000 55125) s.time.frameCount (s.bay h).unresFrames
  let s1 := s.onBay h fun x => { x with unresolved := satInc x.unresolved, unresFrames := fs }
  have hpairs : SamePairs s s1 := by
    refine SamePairs.onBay ?_ s
    exact fun x => ⟨rfl, rfl⟩
  have hbay : s1.bay h = { s.bay h with unresolved := satInc (s.bay h).unresolved, unresFrames := fs } := onBay_same _ _ _
  have hp := hpairs.partnerOf h
  unfold State.partnerOf at hp ⊢
  show ((if 3 ≤ fs.length then dropOther h s1 else _ : State).bay h).unresolved = _ ∧ ((if 3 ≤ fs.length then dropOther h s1 else _ : State).bay h).partner.toNat = _
  split
  · obtain ⟨hh, -⟩ := dropOther_drops ((hpairs.controlOf h).trans hc) (fun h' => hne ((hpairs.partnerOf h).symm.trans h'))
    rw [hh, hbay]
    exact ⟨rfl, rfl⟩
  · have ho : h ≠ s.partnerOf (s.controlOf h) := by
      rw [hc]
      exact hne.symm
    rw [bay_of_bays (startResync_bay _ _), onBay_other ho, bay_of_bays (clearTasks_bays _ _)]
    exact ⟨congrArg Bay.unresolved hbay, congrArg (fun x => x.partner.toNat) hbay⟩

/-- A Bay in control that yields: its frame is taken from the other Bay, and control is to change (R281). -/
theorem yieldControl_keeps (h : Nat) (s : State) :
    ∃ t, KeepsBays s t ∧ yieldControl h s = t.onBay h fun x => { x with yieldDue := true } :=
  ⟨_, takeFrame_keeps _ _ _ _, rfl⟩

/-- The yield of a home (R281): its mirror is in control under its mode, and it is in SERVICE under its self-test. -/
theorem yieldHome_yields {s : State} {h : Nat} (hne : s.partnerOf h ≠ h) :
    let u := yieldHome h s
    (u.bay (s.partnerOf h)).role = 4 ∧ (u.bay (s.partnerOf h)).mode = (s.bay h).mode ∧ (u.bay h).mode = .service ∧
      (u.bay h).yieldDue = (s.bay h).yieldDue ∧ (u.bay h).role = 5 ∧ (u.bay h).yields = satInc (s.bay h).yields ∧ (u.bay h).selfTest = true := by
  have hmoved : (moveVoices h (voidCuts h s)).bay h = s.bay h := bay_of_bays (voidCuts_bays h s) h
  unfold yieldHome
  dsimp only
  rw [onBay_other hne, onBay_same]
  dsimp only
  rw [bay_of_bays (clearTasks_bays _ _) (s.partnerOf h), bay_of_bays (clearTasks_bays _ _) h, onBay_same, onBay_other hne.symm, hmoved]
  exact ⟨rfl, rfl, rfl, rfl, rfl, rfl, rfl⟩

/-- At the boundary a home that has yielded gives control to its mirror (R281). -/
theorem tickYield_yields {t : State} {h : Nat} (hdue : (t.bay h).yieldDue = true) (hc : t.controlOf h = h) (hne : t.partnerOf h ≠ h) :
    let u := tickYield t h
    (u.bay (t.partnerOf h)).role = 4 ∧ (u.bay (t.partnerOf h)).mode = (t.bay h).mode ∧ (u.bay h).mode = .service ∧ (u.bay h).yieldDue = false ∧
      (u.bay h).role = 5 ∧ (u.bay h).yields = satInc (t.bay h).yields ∧ (u.bay h).selfTest = true := by
  let t1 := t.onBay h fun x => { x with yieldDue := false }
  have hpairs : SamePairs t t1 := by
    refine SamePairs.onBay ?_ t
    exact fun x => ⟨rfl, rfl⟩
  have hrun : tickYield t h = yieldHome h t1 := by
    unfold tickYield
    rw [if_pos hdue]
    exact if_pos ((hpairs.controlOf h).trans hc)
  have hbay : t1.bay h = { t.bay h with yieldDue := false } := onBay_same _ _ _
  dsimp only
  rw [hrun, ← hpairs.partnerOf h]
  have hne' : t1.partnerOf h ≠ h := by
    rw [hpairs.partnerOf h]
    exact hne
  obtain ⟨hrole, hmode, hservice, hdue', hrole', hyields, htest⟩ := yieldHome_yields hne'
  rw [hbay] at hmode hdue' hyields
  exact ⟨hrole, hmode, hservice, hdue', hrole', hyields, htest⟩

/-- The table Frame check outcomes for a home in control (R280). -/
theorem frameDecision_of_home {s : State} {b : Nat} (hl : s.inLockstep b = true) (hd : (s.bay (s.homeOf b)).yieldDue = false)
    (hc : s.controlOf (s.homeOf b) = s.homeOf b) (hne : s.partnerOf (s.homeOf b) ≠ s.homeOf b) :
    let h := s.homeOf b
    let m := s.partnerOf h
    (ownEvents s h = [] → ownEvents s m = [] → mismatched s h = [] → frameDecision b s = endDecision h s) ∧
      (ownEvents s h = [] → ownEvents s m = [] → mismatched s h ≠ [] → frameDecision b s = endDecision h (unresolved h s)) ∧
      (ownEvents s h ≠ [] → ownEvents s m = [] → frameDecision b s = endDecision h (yieldControl h s)) ∧
      (ownEvents s h = [] → ownEvents s m ≠ [] → frameDecision b s = endDecision h (dropOther h s)) ∧
      (ownEvents s h ≠ [] → ownEvents s m ≠ [] → frameDecision b s = endDecision h (failFaulty h (ownEvents s h) (dropOther h s))) := by
  have hcb := controlOf_of_home hc hne
  have hnil : ∀ l : List (Nat × Nat), l = [] → l.isEmpty = true := fun l h => by rw [h]; rfl
  have hcons : ∀ l : List (Nat × Nat), l ≠ [] → l.isEmpty = false := fun l h => by simpa using h
  dsimp only
  unfold frameDecision
  rw [hl, hd]
  dsimp only
  rw [hcb]
  refine ⟨fun h1 h2 h3 => ?_, fun h1 h2 h3 => ?_, fun h1 h2 => ?_, fun h1 h2 => ?_, fun h1 h2 => ?_⟩
  · rw [hnil _ h1, hnil _ h2, hnil _ h3]
    simp
  · rw [hnil _ h1, hnil _ h2, hcons _ h3]
    rfl
  · rw [hcons _ h1, hnil _ h2]
    rfl
  · rw [hnil _ h1, hcons _ h2]
    rfl
  · rw [hcons _ h1, hcons _ h2]
    rfl

theorem SamePairs.trans {s t u : State} (h : SamePairs s t) (g : SamePairs t u) : SamePairs s u :=
  fun n => ⟨(g n).1.trans (h n).1, (g n).2.trans (h n).2⟩

/-- A decision by which a home in control yields: control is to change, and it changes at the boundary (R280, R281). -/
theorem yieldDecision_yields {s : State} {h : Nat} (hc : s.controlOf h = h) (hne : s.partnerOf h ≠ h) :
    let t := endDecision h (yieldControl h s)
    (yieldControl h s).partnerOf h = s.partnerOf h ∧ (t.bay h).yieldDue = true ∧ (t.bay (s.partnerOf h)).role = (s.bay (s.partnerOf h)).role ∧
      (t.bay h).role = (s.bay h).role ∧ (t.bay h).mode = (s.bay h).mode ∧ let u := tickYield t h
        (u.bay (s.partnerOf h)).role = 4 ∧ (u.bay (s.partnerOf h)).mode = (s.bay h).mode ∧ (u.bay h).mode = .service ∧
          (u.bay h).yieldDue = false ∧ (u.bay h).role = 5 ∧ (u.bay h).yields = satInc (s.bay h).yields ∧ (u.bay h).selfTest = true := by
  obtain ⟨t, hkeeps, hrun⟩ := yieldControl_keeps h s
  have hdue : SamePairs t (t.onBay h fun x => { x with yieldDue := true }) := by
    refine SamePairs.onBay ?_ t
    exact fun x => ⟨rfl, rfl⟩
  obtain ⟨kend, -, -⟩ := endDecision_ends h (yieldControl h s)
  rw [hrun] at kend ⊢
  have hpairs := (hkeeps.pairs.trans hdue).trans kend.pairs
  obtain ⟨hr1, hm1, hy1, -⟩ := (hkeeps h).stays
  obtain ⟨hr2, hm2, hy2, hd, -⟩ := (kend h).stays
  rw [onBay_same] at hr2 hm2 hy2 hd
  have hr := hr2.trans hr1
  have hmd := hm2.trans hm1
  have hy := hy2.trans hy1
  have hyields := tickYield_yields hd ((hpairs.controlOf h).trans hc) fun h' => hne ((hpairs.partnerOf h).symm.trans h')
  rw [hpairs.partnerOf h] at hyields
  obtain ⟨hrole, hmode, hservice, hdue', hrole', hy', htest⟩ := hyields
  exact ⟨(hkeeps.pairs.trans hdue).partnerOf h, hd, (hpairs (s.partnerOf h)).1, hr, hmd, hrole, hmode.trans hmd, hservice, hdue', hrole',
    hy'.trans (congrArg satInc hy), htest⟩

/-- A fault of the output path of a Bay in control of a pair is an event of the Bay, counted at the home (R282). -/
theorem outputFault_counts {s : State} {b : Nat} (hr : (s.bay b).role ≠ 0) (hc : s.inControl b = true) :
    (6, 0) ∈ ((outputFault b s).bay b).events ∧ ((outputFault b s).bay (s.homeOf b)).lateOut = satInc (s.bay (s.homeOf b)).lateOut := by
  let s1 := (reportEvent b 6 0 s.fresh).onBay (s.homeOf b) fun x => { x with lateOut := satInc x.lateOut }
  have hrun : (outputFault b s).bays = s1.bays := by
    unfold outputFault
    rw [if_neg (by rw [hc]; exact fun h => h.elim hr fun h => absurd h (by decide))]
    dsimp only
    split
    · rfl
    · rfl
  have hrep : (reportEvent b 6 0 s.fresh).bay b = { s.bay b with events := (s.bay b).events ++ [(6, 0)] } := State.setBay_same s.fresh b _
  rw [bay_of_bays hrun, bay_of_bays hrun]
  show (6, 0) ∈ (((reportEvent b 6 0 s.fresh).onBay (s.homeOf b) _).bay b).events ∧
    (((reportEvent b 6 0 s.fresh).onBay (s.homeOf b) _).bay (s.homeOf b)).lateOut = _
  have hmem : (6, 0) ∈ (s.bay b).events ++ [(6, 0)] := List.mem_append_right _ (List.mem_singleton_self _)
  obtain heq | hne := eq_or_ne b (s.homeOf b)
  · rw [← heq, onBay_same, hrep]
    exact ⟨hmem, rfl⟩
  · rw [onBay_same, onBay_other hne, hrep,
      show (reportEvent b 6 0 s.fresh).bay (s.homeOf b) = s.bay (s.homeOf b) from State.setBay_other _ _ _ _ hne.symm]
    exact ⟨hmem, rfl⟩

/-- A mismatch is counted at the pair's home (R279). -/
theorem frameCheck_counts {s : State} {b : Nat} (fails : List Nat) (hl : s.inLockstep b = true) (hm : mismatched s b ≠ []) :
    ((frameCheck b fails s).bay (s.homeOf b)).mismatches = satInc (s.bay (s.homeOf b)).mismatches ∧
      (frameCheck b fails s).courses = s.courses ∧ (frameCheck b fails s).voices = s.voices := by
  let s1 := s.onBay (s.homeOf b) fun x => { x with mismatches := satInc x.mismatches }
  obtain ⟨keeps, bs, h⟩ := foldl_report (fails.filter fun k => (mismatched s b).any fun p => k / 8 == p.1 || k / 8 == p.2)
    (fun s k => (s.courseBay (k / 8), 4, s.corePos k)) s1
  have hrun : frameCheck b fails s = (fails.filter fun k => (mismatched s b).any fun p => k / 8 == p.1 || k / 8 == p.2).foldl
      (fun s k => reportEvent (s.courseBay (k / 8)) 4 (s.corePos k) s) s1 := by
    unfold frameCheck
    exact if_neg (by simp [hl, hm])
  rw [hrun]
  refine ⟨?_, by rw [h]; rfl, by rw [h]; rfl⟩
  obtain ⟨_, _, _, hk⟩ := keeps (s.homeOf b)
  exact (congrArg Bay.mismatches hk).trans (congrArg Bay.mismatches (onBay_same s _ _))

/-- Settles O50: the checks by what they report, the decision case by case of its table. -/
theorem frameChecksAndDecisions : Obligations.FrameChecksAndDecisions := by
  refine ⟨⟨fun b fails s hb => ?_, fun c lane s hc hlane => ?_, fun b s hb => ?_⟩, fun b s hb => ?_⟩
  · have hexec : exec (.frameCheck b fails) s = .next (frameCheck b fails s) := withUnit_lt hb _
    refine ⟨fun h => hexec.trans (congrArg Host.Outcome.next (if_pos ?_)), fun hl hm => ⟨_, hexec, frameCheck_counts fails hl hm⟩⟩
    obtain h | h := h <;> simp [h]
  · exact ⟨_, (withUnit_lt hc _).trans (withUnit_lt hlane _), State.setBay_same _ _ _, fun n hn => State.setBay_other _ _ _ _ hn⟩
  · have hexec : exec (.outputPathFault b) s = .next (outputFault b s) := withUnit_lt hb _
    exact ⟨fun hr => hexec.trans (congrArg Host.Outcome.next (if_pos (.inl hr))), fun hr hc => ⟨_, hexec, outputFault_counts hr hc⟩⟩
  · have hexec : exec (.frameCheckDecision b) s = .next (frameDecision b s) := withUnit_lt hb _
    refine ⟨fun h => hexec.trans (congrArg Host.Outcome.next (if_pos ?_)), fun hl hd => ?_⟩
    · obtain h | h := h <;> simp [h]
    · intro h m hc hne
      refine ⟨_, hexec, ?_⟩
      obtain ⟨hsame, hunres, hyield, hdrop, hboth⟩ := frameDecision_of_home hl hd hc hne
      have hend : ∀ t, frameDecision b s = endDecision h t → t.partnerOf h = m → KeepsBays t (frameDecision b s) ∧
          ((frameDecision b s).bay h).events = [] ∧ ((frameDecision b s).bay m).events = [] := by
        intro t ht hp
        rw [ht, ← hp]
        exact endDecision_ends h t
      obtain ⟨hdh, hdm⟩ := dropOther_drops hc hne
      have hdp : (dropOther h s).partnerOf h = m := congrArg (fun x => x.partner.toNat) hdh
      have hfp : (failFaulty h (ownEvents s h) (dropOther h s)).partnerOf h = m :=
        (congrArg (fun x => x.partner.toNat) (bay_of_bays (failFaulty_bays h (ownEvents s h) (dropOther h s)) h)).trans hdp
      obtain ⟨hcount, hup⟩ := unresolved_counts hc hne
      obtain ⟨hyp, hyields⟩ := yieldDecision_yields hc hne
      have hevents : ((frameDecision b s).bay h).events = [] ∧ ((frameDecision b s).bay m).events = [] := by
        by_cases h1 : ownEvents s h = []
        · by_cases h2 : ownEvents s m = []
          · by_cases h3 : mismatched s h = []
            · exact (hend s (hsame h1 h2 h3) rfl).2
            · exact (hend _ (hunres h1 h2 h3) hup).2
          · exact (hend _ (hdrop h1 h2) hdp).2
        · by_cases h2 : ownEvents s m = []
          · exact (hend _ (hyield h1 h2) hyp).2
          · exact (hend _ (hboth h1 h2) hfp).2
      refine ⟨hevents.1, hevents.2, fun h1 h2 h3 => ?_, fun h1 h2 h3 => ?_, fun h1 h2 => ?_, fun h1 h2 => ?_⟩
      · obtain ⟨keeps, -⟩ := hend s (hsame h1 h2 h3) rfl
        obtain ⟨hrole, -, -, -, hun, -⟩ := (keeps h).stays
        exact ⟨hrole, (keeps.pairs m).1, hun⟩
      · obtain ⟨keeps, -⟩ := hend _ (hunres h1 h2 h3) hup
        obtain ⟨-, -, -, -, hun, -⟩ := (keeps h).stays
        exact hun.trans hcount
      · rw [hyield h1 h2]
        exact hyields
      · obtain ⟨keeps, -⟩ := hend _ (hdrop h1 h2) hdp
        obtain ⟨hrole, -, -, -, -, hdrops⟩ := (keeps h).stays
        obtain ⟨hrole', hmode', -⟩ := (keeps m).stays
        rw [hdm] at hrole' hmode'
        rw [hdh] at hrole hdrops
        exact ⟨hrole', hmode', hrole, hdrops⟩

end Sys2Proof.Machine
end


section
/-! PROOFS. The way back to a whole pair (R275, R276, R281, R283) and the frames of a RENDER Bay (R17, R245, R281, R357). -/

namespace Sys2Proof.Machine

-- resynchronisation and return (R276, R283) ----------------------------------------------------------------------------------------------------------

/-- A Bay that joins holds every word and every task of its partner, with nothing left to copy. -/
theorem endResync_joins {s : State} {b : Nat} (hr : (s.bay b).role = 3) (hj : (s.bay b).joined = false) (hl : (s.bay b).lockstep = false)
    (hd : s.resynced b = true) : (endResync b s).bay b = { s.bay b with joined := true, resyncLeft := 0 } := by
  unfold endResync
  rw [if_pos ⟨hr, by simp [hj], by simp [hl], hd⟩]
  dsimp only
  have hrec : ∀ st, (recordStep st 2 (s.onBay b fun x => { x with joined := true, resyncLeft := 0 })).bay b =
      (s.onBay b fun x => { x with joined := true, resyncLeft := 0 }).bay b := fun _ => rfl
  split
  · split
    · rw [hrec, onBay_same]
    · rw [onBay_same]
  · rw [onBay_same]

/-- Control passes back to the home (R283): it takes the mirror's mode, and the mirror is a mirror again. -/
theorem passHome_passes {s : State} {h : Nat} (hne : s.partnerOf h ≠ h) :
    let t := passHome h s
    let m := s.partnerOf h
    (t.bay h).role = 1 ∧ (t.bay h).mode = (s.bay m).mode ∧ (t.bay h).returns = satInc (s.bay h).returns ∧ (t.bay h).goHome = false ∧
      (t.bay m).role = 2 ∧ (t.bay m).mode = .mirror ∧ (t.bay m).lockstep = true := by
  have hmoved : (moveVoices (s.partnerOf h) s).bay h = s.bay h := rfl
  unfold passHome
  dsimp only
  rw [onBay_same, onBay_other hne.symm, onBay_same, hmoved]
  exact ⟨rfl, rfl, rfl, rfl, rfl, rfl, rfl⟩

-- the self-test (R283, R458, R461) -----------------------------------------------------------------------------------------------------------------------

/-- A core that is to be retired: its mark alone changes, and a mark stays. -/
theorem dueRetire_marks (cause : Nat) (s : State) (k n : Nat) :
    (dueRetire cause s k).gone n = s.gone n ∧ ((s.core n).retireDue = true → ((dueRetire cause s k).core n).retireDue = true) ∧
      (s.gone n = false → k = n → ((dueRetire cause s k).core n).retireDue = true) := by
  unfold dueRetire State.gone
  split
  next h =>
    refine ⟨rfl, id, fun hg hk => ?_⟩
    subst hk
    exact h.resolve_left fun h => Bool.false_ne_true (hg.symm.trans h)
  · obtain rfl | hne := eq_or_ne n k
    · rw [State.setCore_same]
      exact ⟨rfl, fun _ => rfl, fun _ _ => rfl⟩
    · rw [State.setCore_other _ _ _ _ hne]
      exact ⟨rfl, id, fun _ hk => absurd hk.symm hne⟩

theorem foldl_dueRetire_marked {cause : Nat} {n : Nat} (l : List Nat) {s : State} (hg : s.gone n = false)
    (h : n ∈ l ∨ (s.core n).retireDue = true) : ((l.foldl (dueRetire cause) s).core n).retireDue = true := by
  induction l generalizing s with
  | nil => exact h.resolve_left List.not_mem_nil
  | cons k l ih =>
    obtain ⟨hgone, hstays, hmarks⟩ := dueRetire_marks cause s k n
    refine ih (hgone.trans hg) ?_
    obtain h | h := h
    · obtain rfl | h := List.mem_cons.1 h
      · exact .inr (hmarks hg rfl)
      · exact .inl h
    · exact .inr (hstays h)

theorem foldl_dueRetire_keeps (cause : Nat) (l : List Nat) (s : State) : ∃ cs, l.foldl (dueRetire cause) s = { s with cores := cs } := by
  induction l generalizing s with
  | nil => exact ⟨_, rfl⟩
  | cons k l ih =>
    obtain ⟨cs, h⟩ := ih (dueRetire cause s k)
    rw [List.foldl_cons, h]
    unfold dueRetire
    split
    · exact ⟨_, rfl⟩
    · exact ⟨_, rfl⟩

/-- A self-test that passes ends; the home that has yielded a third time keeps off. Failed cores are to be retired in any case. -/
theorem selfTestEnd_ends {s : State} {b : Nat} (ht : (s.bay b).selfTest = true) (pass : Bool) (failed : List Nat) :
    let t := selfTestEnd b pass failed s
    (t.bay b).selfTest = (!pass) ∧
      (t.bay b).role = (if pass = true ∧ (s.bay b).role = 5 ∧ 3 ≤ (recentYields s b).length then 6 else (s.bay b).role) ∧
      ∀ k ∈ failed, (s.bayCores b).contains k = true → s.gone k = false → (t.core k).retireDue = true := by
  let l := failed.filter fun k => (s.bayCores b).contains k
  obtain ⟨cs, hcs⟩ := foldl_dueRetire_keeps 2 l s
  have hmarked : ∀ k ∈ failed, (s.bayCores b).contains k = true → s.gone k = false → ((l.foldl (dueRetire 2) s).core k).retireDue = true :=
    fun k hk hin hg => foldl_dueRetire_marked l hg (.inl (List.mem_filter.2 ⟨hk, hin⟩))
  have hrun : selfTestEnd b pass failed s = if pass then (l.foldl (dueRetire 2) s).onBay b fun x =>
      { x with selfTest := false, role := if x.role = 5 ∧ 3 ≤ (recentYields (l.foldl (dueRetire 2) s) b).length then 6 else x.role }
      else l.foldl (dueRetire 2) s := by
    unfold selfTestEnd
    exact if_neg (by simp [ht])
  dsimp only
  rw [hrun]
  cases pass with
  | true =>
    rw [if_pos rfl, onBay_same]
    refine ⟨rfl, ?_, hmarked⟩
    simp only [true_and]
    rw [hcs]
    rfl
  | false =>
    refine ⟨?_, ?_, hmarked⟩
    · rw [hcs]
      exact ht
    · rw [hcs]
      rfl

-- RENDER frames (R17, R357) ----------------------------------------------------------------------------------------------------------------------------------

/-- A frame of a RENDER Bay ends. -/
theorem renderEnd_ends {s : State} {c : Nat} (hf : (s.bay c).inFrame = true) (hm : (s.bay c).mode = .render) (hc : s.inControl c = true)
    (hd : s.frameDone c = true) : ((renderEnd c s).bay c).inFrame = false := by
  unfold renderEnd
  rw [if_pos (by simp [hf, hm, hc, hd])]
  dsimp only
  split
  · exact congrArg Bay.inFrame (onBay_same _ _ _)
  · obtain ⟨_, _, _, h⟩ := recordNow_keeps c ((planRender c (askRefills (s.onRender c) (markStreams (s.onRender c)
      (runFadeIns (s.onRender c) (closeBuses (s.lineOf c) (fun b => (declaredBuses c s).contains b) (s.bay c).stamp s))))).onBay c
        fun x => { x with inFrame := false, recordDue := true }) c
    rw [h, onBay_same]

/-- Settles O51: the pair by what each event writes in the Bays' records, the frames by the branches of their start and end. -/
theorem pairsComeBackAndRender : Obligations.PairsComeBackAndRender := by
  refine ⟨fun b s hb => ?_, fun b s hb => ?_⟩
  · have hjoin : exec (.resynchronisationEnd b) s = .next (endResync b s) := withUnit_lt hb _
    have htest : ∀ pass failed, exec (.selfTestEnd b pass failed) s = .next (selfTestEnd b pass failed s) := fun _ _ => withUnit_lt hb _
    have hhome : exec (.returnHome b) s = .next (if (s.bay (s.homeOf b)).role = 3 ∧ (s.bay (s.homeOf b)).goHome ∧ s.inLockstep (s.homeOf b)
      then passHome (s.homeOf b) s else s) := withUnit_lt hb _
    refine ⟨fun h => hjoin.trans (congrArg Host.Outcome.next (if_neg ?_)), fun hr hj hl hd => ⟨_, hjoin, ?_⟩, fun failed ht => ?_,
      fun pass failed ht => ⟨_, htest pass failed, selfTestEnd_ends ht pass failed⟩, fun h => ?_, fun hr hg hl hne => ?_⟩
    · rintro ⟨hr, hj, hl, hd⟩
      obtain h | h | h | h := h
      · exact h hr
      · exact absurd hj (by simp [h])
      · exact absurd hl (by simp [h])
      · exact Bool.false_ne_true (h.symm.trans hd)
    · rw [endResync_joins hr hj hl hd]
      exact ⟨rfl, rfl, rfl⟩
    · have hstays : ∀ pass, selfTestEnd b pass failed s = s := fun pass => if_pos (by simp [ht])
      exact ⟨(htest _ _).trans (congrArg Host.Outcome.next (hstays true)), (htest _ _).trans (congrArg Host.Outcome.next (hstays false))⟩
    · exact hhome.trans (congrArg Host.Outcome.next (if_neg h))
    · exact ⟨_, hhome.trans (congrArg Host.Outcome.next (if_pos ⟨hr, hg, hl⟩)), passHome_passes hne⟩
  · have hstart : exec (.renderFrameStart b) s = .next (renderStart (s.acting b) s) := withUnit_lt hb _
    have hend : exec (.renderFrameEnd b) s = .next (renderEnd (s.acting b) s) := withUnit_lt hb _
    intro c s1 d s0
    have hrun : s.betweenFrames c = true → renderStart c s = if s0.betweenFrames d && s0.mayRender d then
        (renderSums d (renderRelease d (renderConfig d (renderEnds d (renderCounters d s0))))).onBay d
          fun x => { x with inFrame := true, startClk := s1.time.clkCount } else s0 := fun hc => if_neg (by simp [hc])
    refine ⟨fun hc => hstart.trans (congrArg Host.Outcome.next (if_pos (by simp [c, hc]))), fun hc h => ?_, fun hc hb' hm => ⟨_, hstart, ?_⟩,
      fun h => hend.trans (congrArg Host.Outcome.next (if_neg ?_)), fun hf hm hc hd => ⟨_, hend, renderEnd_ends hf hm hc hd⟩⟩
    · refine hstart.trans (congrArg Host.Outcome.next ((hrun hc).trans (if_neg ?_)))
      obtain h | h := h <;> simp [h]
    · rw [hrun hc, if_pos (by simp [hb', hm]), onBay_same]
    · intro hall
      refine h ?_
      simpa [and_assoc] using hall

end Sys2Proof.Machine
end


section
/-! PROOFS. Packets of a network session (R288, R301 to R307, R313), events that enter (R31 to R35, R310, R311), and promotion (R126, R343). -/

namespace Sys2Proof.Machine

-- messages of the network (R288) ------------------------------------------------------------------------------------------------------------------------

section
variable (i : NetMsg) (f : State → State) {s : State}

/-- None arrives while the MAC stands. -/
theorem taken_of_macDown (h : s.macUp = false) : taken i f s = s := if_pos (by simp [h])

/-- While no Conductor acts it waits in its port's receive buffer. -/
theorem taken_of_condDown (h : s.macUp = true) (hc : s.condDown = true) : taken i f s = holdFrame i s :=
  (if_neg (by simp [h])).trans (if_pos hc)

theorem taken_of_acting (h : s.macUp = true) (hc : s.condDown = false) : taken i f s = f s :=
  (if_neg (by simp [h])).trans (if_neg (by simp [hc]))

end

/-- The row of a packet names a session of this device. -/
theorem exec_networkMidiPacket {sid : Nat} (h : sid < 256) (q : BitVec 16) (r : BitVec 64) (ps : List Ump) (s : State) :
    exec (.networkMidiPacket sid q r ps) s = .next (taken (.networkMidiPacket sid q ps) (fun s =>
      if s.netSession sid && s.power.phase == 7 then ps.foldl (networkPacket sid r) (checkSeq sid q s) else s) s) := withUnit_lt h _

/-- Sequence numbers of a session that has one (R301): an older one is ignored, the next one is taken, and one beyond it asks once for those between. -/
theorem checkSeq_after {sid : Nat} {s : State} {l q : BitVec 16} (h : (s.session sid).umpSeq = some l) :
    ((q - l).toInt ≤ 0 → checkSeq sid q s = s) ∧
      (q = l + 1 → checkSeq sid q s = s.setSession sid { s.session sid with umpSeq := some q }) ∧
      (1 < (q - l).toInt → checkSeq sid q s =
        (s.setSession sid { s.session sid with umpSeq := some q }).send .retransmitRequest [sid, (l + 1).toNat, (q - l).toInt.toNat - 1]) := by
  unfold checkSeq
  dsimp only
  rw [h]
  dsimp only
  refine ⟨fun hd => if_pos hd, fun hq => ?_, fun hd => ?_⟩
  · have hone : (q - l).toInt = 1 := by
      rw [show q - l = 1 by bv_omega]
      decide
    rw [hone]
    rfl
  · rw [if_neg (by omega), if_neg (by omega), show ((q - l).toInt - 1).toNat = (q - l).toInt.toNat - 1 by omega]

/-- A message acts on its session at once, and what is left of it is an event of its part (R307). -/
theorem receiveMessage_acts (i : Nat) (u : Option Nat) (key : Nat) (m : Message) (jr : Option (BitVec 16)) (r : BitVec 64) (s : State) :
    ((messageAct i key (s.partOf i key) m s).2 = none → receiveMessage i u key m jr r s = (messageAct i key (s.partOf i key) m s).1) ∧
      ∀ act, (messageAct i key (s.partOf i key) m s).2 = some act →
        receiveMessage i u key m jr r s = deliver i u act (s.stampEvent i act.part jr r) (messageAct i key (s.partOf i key) m s).1 := by
  unfold receiveMessage
  dsimp only
  refine ⟨fun h => by rw [h], fun act h => by rw [h]⟩

-- events (R31 to R35, R310, R311) ----------------------------------------------------------------------------------------------------------------------------

/-- An event that takes no place is counted where R33 to R35 and R311 say. -/
theorem enterEvent_counts (i : Nat) (act : Action) (stamp : Word) (s : State) :
    let reach := s.reachOf (s.partBay act.part)
    let x := s.session i
    (∀ held, classify stamp reach = .range → enterEvent i act stamp held s = s.setSession i { x with range := satInc x.range }) ∧
      (classify stamp reach ≠ .range → ¬ (classify stamp reach = .late ∧ x.dropLate = true) → s.roomFor (some i) 1 = false →
        enterEvent i act stamp false s = s.setSession i { x with overflow := satInc x.overflow }) ∧
      (∀ held, classify stamp reach = .late → x.dropLate = true →
        enterEvent i act stamp held s = s.setSession i { x with droppedLate := satInc x.droppedLate }) := by
  intro reach x
  unfold enterEvent
  dsimp only
  refine ⟨fun held h => ?_, fun hr hd hroom => ?_, fun held h hd => ?_⟩
  · rw [show classify stamp (s.reachOf (s.partBay act.part)) = .range from h]
    rfl
  · cases hc : classify stamp reach with
    | range => exact absurd hc hr
    | future =>
      rw [hroom]
      rfl
    | late =>
      have hdrop : (s.session i).dropLate = false := by simpa using fun h => hd ⟨hc, h⟩
      dsimp only
      rw [if_neg (by simp [hdrop]), hroom]
      rfl
  · rw [show classify stamp (s.reachOf (s.partBay act.part)) = .late from h]
    dsimp only
    rw [if_pos hd]
    rfl

-- promotion (R126, R343) -----------------------------------------------------------------------------------------------------------------------------------------

/-- The decryption task of a protected object is work of the Dispatcher alone. -/
theorem postCrypt_mem (prot : Bool) (s : State) : ∃ win, (postCrypt prot s).mem = { s.mem with win := win } := by
  unfold postCrypt
  split
  · exact ⟨_, rfl⟩
  split
  next t ht =>
    unfold enterQueue at ht
    split at ht
    next w _ =>
      obtain rfl := Option.some.inj ht
      obtain ⟨win, dsp, h⟩ := giveEntry_onlyWork w 1 (hwEntry 1 s) s.fresh.fresh
      exact ⟨win, congrArg State.mem h⟩
    · split at ht
      · obtain rfl := Option.some.inj ht
        exact ⟨_, rfl⟩
      · cases ht
  · exact ⟨_, (congrArg State.mem (traceDevice_onlyTrace 0x0B 0x80 (pack [(6, 8), (1, 0)]) 0 _).rest :)⟩

/-- An object that has room at once takes it, and is loading. -/
theorem claimSpace_of_room {b o : Nat} {s : State} (limit : Option Nat)
    (h : (allocate b (objWords (s.contentOf o).header) (s.contentOf o).prot (s.bayBanks b) s).isSome = true) :
    ∃ t, claimSpace b limit o s = some t ∧ (t.resid b o).loading = true := by
  obtain ⟨rs, hrs⟩ := Option.isSome_iff_exists.1 h
  have hmake : makeRoom b (objWords (s.contentOf o).header) (s.contentOf o).prot limit (s.bayBanks b) s s.mem.resid.length 0 = some (s, 0, rs) := by
    cases s.mem.resid.length with
    | zero => exact congrArg (Option.map fun rs => (s, 0, rs)) hrs
    | succ n =>
      unfold makeRoom
      rw [hrs]
  let u := s.fresh.onResid b o fun r => { r with loading := true, at_ := rs }
  refine ⟨postCrypt (s.contentOf o).prot u, ?_, ?_⟩
  · unfold claimSpace roomIn
    dsimp only
    rw [hmake]
    rfl
  · obtain ⟨win, hmem⟩ := postCrypt_mem (s.contentOf o).prot u
    unfold State.resid
    rw [hmem]
    exact congrArg Residency.loading (Tab.look_put_same _ _ _ _)

/-- The one candidate of a Bay that finds room is fetched. -/
theorem promoteBay_fetches {b o : Nat} {s : State} (hc : candidates b s = [o]) (hr : s.objResident b o = false) (hl : (s.resid b o).loading = false)
    (ha : (allocate b (objWords (s.contentOf o).header) (s.contentOf o).prot (s.bayBanks b) s).isSome = true) :
    ((promoteBay s b).resid b o).loading = true ∧ ∃ q ∈ (promoteBay s b).mem.requests, q.bay = b ∧ q.object = o := by
  obtain ⟨t, ht, hload⟩ := claimSpace_of_room (some (s.resid b o).heat) ha
  have hrun : promoteBay s b = postRequest b o false t := by
    unfold promoteBay
    rw [hc]
    show (claimCopy b false (some (s.resid b o).heat) o s).getD s = _
    unfold claimCopy
    rw [if_neg (by simp [hr, hl]), ht]
    rfl
  rw [hrun]
  refine ⟨hload, { cls := requestClass b false t, bay := b, stream := false, object := o }, ?_, rfl, rfl⟩
  unfold postRequest enterRequest
  dsimp only
  split
  · exact List.mem_singleton_self _
  · exact List.mem_cons_of_mem _ ((queueRequest_perm _ _).mem_iff.2 (List.mem_cons_self ..))

/-- Settles O52: packets by the branches of their messages, events by `enterEvent_counts`, promotion by `promoteBay_fetches`. -/
theorem packetsAndEvents : Obligations.PacketsAndEvents := by
  refine ⟨fun sid q r ps s hs => ?_, enterEvent_counts, fun s => ?_⟩
  · have hexec := exec_networkMidiPacket hs q r ps s
    refine ⟨fun h => hexec.trans (congrArg Host.Outcome.next (taken_of_macDown _ _ h)),
      fun h hc => hexec.trans (congrArg Host.Outcome.next (taken_of_condDown _ _ h hc)),
      fun h hc hoff => hexec.trans (congrArg Host.Outcome.next ((taken_of_acting _ _ h hc).trans (if_neg ?_))),
      fun h hc hn hp => ⟨hexec.trans (congrArg Host.Outcome.next ((taken_of_acting _ _ h hc).trans (if_pos (by simp [hn, hp])))),
        fun p h0 h2 => if_pos ⟨h0, h2⟩, fun p hnot => ⟨fun hnone => ?_, fun act hact => ?_⟩, fun act stamp u => ⟨fun hpark hroom => ?_, fun hpark => ?_⟩,
        fun hnone => ?_, fun l hl => checkSeq_after hl⟩⟩
    · obtain h | h := hoff
      · simp [h]
      · rw [beq_eq_false_iff_ne.2 h, Bool.and_false]
        exact Bool.false_ne_true
    · exact (if_neg hnot).trans ((receiveMessage_acts sid none _ _ _ r _).1 hnone)
    · exact (if_neg hnot).trans ((receiveMessage_acts sid none _ _ _ r _).2 act hact)
    · exact (if_pos hpark).trans (if_pos hroom)
    · exact if_neg (by simp [hpark])
    · unfold checkSeq
      dsimp only
      rw [hnone]
  · refine ⟨fun h => congrArg Host.Outcome.next ?_, fun e r i hf hi ht => congrArg Host.Outcome.next ?_, fun h => congrArg Host.Outcome.next (if_neg (by simp [h])),
      fun h => congrArg Host.Outcome.next (if_pos h), fun b h => ?_, fun b o hc hr hl ha => promoteBay_fetches hc hr hl ha⟩
    · unfold intakeExit
      split
      · rfl
      next t r hf =>
        exact if_pos (h.resolve_left fun h => nomatch h.symm.trans hf)
    · unfold intakeExit
      rw [hf]
      dsimp only
      rw [if_neg (not_le.2 ht), hi]
      rfl
    · unfold promoteBay
      rw [h]
      rfl

end Sys2Proof.Machine
end


section
/-! PROOFS. Sessions of network partners (R288, R299 to R304, R308). -/

namespace Sys2Proof.Machine

-- closings (R300, R312) --------------------------------------------------------------------------------------------------------------------------------

/-- Marking a session leaves the other sessions. -/
theorem markClosing_other {i n : Nat} (h : n ≠ i) (s : State) : (markClosing i none s).session n = s.session n :=
  State.setSession_other _ _ _ _ h

/-- Marked or not, a session stays what it was but for its mark. -/
theorem markClosing_keeps (i n : Nat) (s : State) : ∃ c, (markClosing i none s).session n = { s.session n with closing := c } := by
  obtain rfl | hne := eq_or_ne n i
  · unfold markClosing State.onSession
    rw [State.setSession_same]
    dsimp only
    split
    · exact ⟨_, rfl⟩
    · exact ⟨_, rfl⟩
  · exact ⟨_, markClosing_other hne s⟩

/-- A session that is marked stays marked. -/
theorem markClosing_stays {i n : Nat} {s : State} (h : (s.session n).closing.isSome = true) :
    ((markClosing i none s).session n).closing.isSome = true := by
  obtain rfl | hne := eq_or_ne n i
  · unfold markClosing State.onSession
    rw [State.setSession_same]
    dsimp only
    split
    · rfl
    · exact h
  · rw [markClosing_other hne]
    exact h

/-- Every session of a list that stands is marked, and the others stay. -/
theorem foldl_markClosing (l : List Nat) (s : State) :
    (∀ n, n ∉ l → (l.foldl (fun s j => markClosing j none s) s).session n = s.session n) ∧
      ∀ n, (s.session n).isOpen = true → n ∈ l ∨ (s.session n).closing.isSome = true →
        ((l.foldl (fun s j => markClosing j none s) s).session n).closing.isSome = true := by
  induction l generalizing s with
  | nil => exact ⟨fun _ _ => rfl, fun n _ h => h.resolve_left List.not_mem_nil⟩
  | cons j l ih =>
    obtain ⟨others, marks⟩ := ih (markClosing j none s)
    refine ⟨fun n hn => ?_, fun n ho hn => ?_⟩
    · exact (others n fun h => hn (List.mem_cons_of_mem _ h)).trans (markClosing_other (fun h => hn (List.mem_cons.2 (.inl h))) s)
    · obtain ⟨c, hc⟩ := markClosing_keeps j n s
      refine marks n (by rw [hc]; exact ho) ?_
      obtain hn | hn := hn
      · obtain rfl | hn := List.mem_cons.1 hn
        · exact .inr (markClosing_closing n s ho)
        · exact .inl hn
      · exact .inr (markClosing_stays hn)

-- invitations (R299, R300) ----------------------------------------------------------------------------------------------------------------------------------

/-- A session opens on a number that was free, with its partner's identity; the others stay. -/
theorem openSession_opens {transport port : Nat} {id : BitVec 64} {s s1 : State} {i : Nat} (h : openSession transport port id s = some (i, s1)) :
    (s.session i).isOpen = false ∧ (s1.session i).isOpen = true ∧ (s1.session i).identity = id ∧ (s1.session i).transport = transport ∧
      ∀ n, n ≠ i → s1.session n = s.session n := by
  unfold openSession at h
  split at h
  · cases h
  next k hk =>
    injection h with h
    injection h with hi hs
    subst hi hs
    have hfree := List.find?_some hk
    refine ⟨by simpa using hfree, ?_, ?_, ?_, fun n hn => State.setSession_other _ _ _ _ hn⟩
    · show (State.session (s.setSession k _) k).isOpen = true
      rw [State.setSession_same]
    · show (State.session (s.setSession k _) k).identity = id
      rw [State.setSession_same]
    · show (State.session (s.setSession k _) k).transport = transport
      rw [State.setSession_same]

/-- An invitation that is taken opens its session and marks the older ones of its identity. -/
theorem invite_opens {port : Nat} {id : BitVec 64} {s s1 : State} {i : Nat} (h : openSession 0 port id s = some (i, s1)) :
    let t := invite port id false s
    (t.session i).isOpen = true ∧ (t.session i).identity = id ∧ (t.session i).transport = 0 ∧
      ∀ n, n ≠ i → n < 256 → (s.session n).isOpen = true → (s.session n).transport = 0 → (s.session n).identity = id →
        (t.session n).closing.isSome = true := by
  obtain ⟨hfree, hopen, hid, htr, hothers⟩ := openSession_opens h
  let old := (openSessions s).filter fun i => (s.session i).transport == 0 && (s.session i).identity == id
  have hrun : invite port id false s = (old.foldl (fun s j => markClosing j none s) s1).send .invitationAccepted [i] := by
    unfold invite
    rw [h]
    rfl
  obtain ⟨others, marks⟩ := foldl_markClosing old s1
  have hold : i ∉ old := fun hi => by
    have := (List.mem_filter.1 (List.mem_filter.1 hi).1).2
    rw [hfree] at this
    exact Bool.false_ne_true this
  dsimp only
  rw [hrun]
  have hi : ((old.foldl (fun s j => markClosing j none s) s1).send .invitationAccepted [i]).session i = s1.session i := others i hold
  rw [hi]
  refine ⟨hopen, hid, htr, fun n hn hlt ho ht hident => ?_⟩
  refine marks n (by rw [hothers n hn]; exact ho) (.inl (List.mem_filter.2 ⟨List.mem_filter.2 ⟨List.mem_range.2 hlt, ho⟩, ?_⟩))
  simp [ht, hident]

-- JR clocks (R304) ----------------------------------------------------------------------------------------------------------------------------------------------

/-- The least of a list of samples lies at or below each. -/
theorem foldl_least_le (l : List (BitVec 64 × BitVec 64)) (m : BitVec 64) :
    (l.foldl (fun (m : BitVec 64) y => if y.1.toInt < m.toInt then y.1 else m) m).toInt ≤ m.toInt ∧
      ∀ x ∈ l, (l.foldl (fun (m : BitVec 64) y => if y.1.toInt < m.toInt then y.1 else m) m).toInt ≤ x.1.toInt := by
  induction l generalizing m with
  | nil => exact ⟨Int.le_refl _, fun x hx => absurd hx List.not_mem_nil⟩
  | cons y l ih =>
    obtain ⟨hm, hl⟩ := ih (if y.1.toInt < m.toInt then y.1 else m)
    have hle : (if y.1.toInt < m.toInt then y.1 else m).toInt ≤ m.toInt ∧ (if y.1.toInt < m.toInt then y.1 else m).toInt ≤ y.1.toInt := by
      split
      · omega
      · omega
    rw [List.foldl_cons]
    refine ⟨hm.trans hle.1, fun x hx => ?_⟩
    obtain rfl | hx := List.mem_cons.1 hx
    · exact hm.trans hle.2
    · exact hl x hx

/-- The window of a JR clock: 16 samples of the last 2 s, OFFSET the least of them. -/
theorem takeJr_window (i : Nat) (r : BitVec 64) (c : BitVec 16) (s : State) :
    let t := takeJr i r c s
    (t.session i).jr.length ≤ 16 ∧ (∀ x ∈ (t.session i).jr, (r - x.2).toInt ≤ 2000000000) ∧
      ∀ x ∈ (t.session i).jr, (t.session i).offset.toInt ≤ x.1.toInt := by
  unfold takeJr
  dsimp only
  rw [State.setSession_same]
  refine ⟨List.length_take_le _ _, fun x hx => ?_, (foldl_least_le _ _).2⟩
  simpa using (List.mem_filter.1 (List.mem_of_mem_take hx)).2

/-- What the partner of a session asks (R288): nothing while the MAC stands, later while no Conductor acts, and `f` where its session stands. -/
structure TakesMessage (sid : Nat) (i : Instr) (m : NetMsg) (f : State → State) (s : State) : Prop where
  stands : s.macUp = false → exec i s = .next s
  waits : s.macUp = true → s.condDown = true → exec i s = .next (holdFrame m s)
  ignored : s.macUp = true → s.condDown = false → s.netSession sid = false → exec i s = .next s
  done : s.macUp = true → s.condDown = false → s.netSession sid = true → exec i s = .next (f s)

theorem takesMessage {sid : Nat} (hsid : sid < 256) (i : Instr) (m : NetMsg) (f : State → State) (s : State)
    (hi : exec i s = withUnit sid 256 (.next (taken m (fun s => if s.netSession sid then f s else s) s))) : TakesMessage sid i m f s := by
  have hexec := hi.trans (withUnit_lt hsid _)
  exact ⟨fun h => hexec.trans (congrArg Host.Outcome.next (taken_of_macDown _ _ h)),
    fun h hc => hexec.trans (congrArg Host.Outcome.next (taken_of_condDown _ _ h hc)),
    fun h hc hn => hexec.trans (congrArg Host.Outcome.next ((taken_of_acting _ _ h hc).trans (if_neg (by simp [hn])))),
    fun h hc hn => hexec.trans (congrArg Host.Outcome.next ((taken_of_acting _ _ h hc).trans (if_pos hn)))⟩

/-- Settles O53: invitations by `invite_opens`, the messages of a session by `TakesMessage`. -/
theorem partnersAndSessions : Obligations.PartnersAndSessions := by
  refine ⟨fun port id s hp => ?_, fun sid s hs => ?_⟩
  · have hexec : ∀ au, exec (.invitation port id au) s =
        .next (taken (.invitation port id au) (fun s => if s.power.phase = 7 then invite port id au s else s) s) := fun _ => withUnit_lt hp _
    have hidle : s.macUp = true → s.condDown = false → s.power.phase ≠ 7 → ∀ au, exec (.invitation port id au) s = .next s := fun h hc hne au =>
      (hexec au).trans (congrArg Host.Outcome.next ((taken_of_acting _ _ h hc).trans (if_neg hne)))
    have hrun : s.macUp = true → s.condDown = false → s.power.phase = 7 → ∀ au, exec (.invitation port id au) s = .next (invite port id au s) :=
      fun h hc h7 au => (hexec au).trans (congrArg Host.Outcome.next ((taken_of_acting _ _ h hc).trans (if_pos h7)))
    refine ⟨fun h au => (hexec au).trans (congrArg Host.Outcome.next (taken_of_macDown _ _ h)),
      fun h hc au => (hexec au).trans (congrArg Host.Outcome.next (taken_of_condDown _ _ h hc)), fun h hc hne => ⟨hidle h hc hne _, hidle h hc hne _⟩,
      fun h hc h7 => ⟨hrun h hc h7 true, fun hnone => (hrun h hc h7 false).trans (congrArg Host.Outcome.next ?_),
        fun i s1 hopen => ⟨_, hrun h hc h7 false, invite_opens hopen⟩⟩⟩
    unfold invite
    rw [hnone]
    rfl
  · have bye := takesMessage hs (.bye sid) (.bye sid) (markClosing sid none) s rfl
    have disc := takesMessage hs (.endpointDiscovery sid) (.endpointDiscovery sid) (answerDiscovery sid) s rfl
    have block := takesMessage hs (.functionBlockDiscovery sid) (.functionBlockDiscovery sid) (fun s => s.send .functionBlock [sid, 0, 0, 16]) s rfl
    have conf := fun m => takesMessage hs (.streamConfigurationRequest sid m) (.streamConfigurationRequest sid m)
      (fun s => (s.onSession sid fun x => { x with midi2 := m }).send .streamConfigNotify [sid, b2n m, 1, 0]) s rfl
    have jr := fun r c => takesMessage hs (.jrClock sid r c) (.jrClock sid c) (takeJr sid r c) s rfl
    have hping : exec (.ping sid) s = .next (if s.netSession sid then s.send .ping [sid] else s) := withUnit_lt hs _
    have hkeep : exec (.keepaliveTimeout sid) s = .next (if keepsAlive (s.session sid) then markClosing sid none s else s) := withUnit_lt hs _
    refine ⟨fun h => ⟨bye.stands h, disc.stands h, block.stands h, fun m => (conf m).stands h, fun r c => (jr r c).stands h⟩,
      fun h hc => ⟨bye.waits h hc, disc.waits h hc, block.waits h hc, fun m => (conf m).waits h hc, fun r c => (jr r c).waits h hc⟩,
      fun h hc hn => ⟨bye.ignored h hc hn, hping.trans (congrArg Host.Outcome.next (if_neg (by simp [hn]))), disc.ignored h hc hn,
        block.ignored h hc hn, fun m => (conf m).ignored h hc hn, fun r c => (jr r c).ignored h hc hn⟩,
      fun h hc hn => ⟨⟨_, bye.done h hc hn, markClosing_closing sid s (Bool.and_elim_left hn), rfl⟩,
        hping.trans (congrArg Host.Outcome.next (if_pos hn)), block.done h hc hn, disc.done h hc hn, fun m => (conf m).done h hc hn,
        fun r c => ⟨_, (jr r c).done h hc hn, takeJr_window sid r c s⟩⟩,
      fun hk => hkeep.trans (congrArg Host.Outcome.next (if_neg (by simp [hk]))),
      fun hk => ⟨_, hkeep.trans (congrArg Host.Outcome.next (if_pos hk)), markClosing_closing sid s (Bool.and_elim_left hk)⟩⟩

end Sys2Proof.Machine
end


section
/-! PROOFS. UARTs receive (R400 to R405, R408, R410) and send (R400, R406, R418). -/

namespace Sys2Proof.Machine

-- the line (R400, R401, R408) ------------------------------------------------------------------------------------------------------------------------------

/-- A sum of levels modulo 2 says whether the number of ones is odd. -/
theorem foldl_bne (f : Nat → Bool) (l : List Nat) (a : Bool) :
    l.foldl (fun a i => a != f i) a = (a != decide ((l.filter f).length % 2 = 1)) := by
  induction l generalizing a with
  | nil => exact (Bool.bne_false a).symm
  | cons i l ih =>
    rw [List.foldl_cons, ih, List.filter_cons]
    cases hf : f i with
    | false => simp
    | true =>
      rw [if_pos rfl, List.length_cons]
      obtain h | h := Nat.mod_two_eq_zero_or_one (l.filter f).length
      · rw [h, show ((l.filter f).length + 1) % 2 = 1 by omega]
        simp
      · rw [h, show ((l.filter f).length + 1) % 2 = 0 by omega]
        simp

/-- A parity bit makes the number of ones odd or even (R400). -/
theorem parityOf_ones (x : Uart) (d : Byte) :
    (x.parity = 1 → x.parityOf d = decide (((List.range 8).filter d.getLsbD).length % 2 = 1)) ∧
      (x.parity = 2 → x.parityOf d = decide (((List.range 8).filter d.getLsbD).length % 2 = 0)) := by
  unfold Uart.parityOf
  rw [foldl_bne]
  refine ⟨fun h => by simp [h], fun h => ?_⟩
  obtain hm | hm := Nat.mod_two_eq_zero_or_one ((List.range 8).filter d.getLsbD).length
  · simp [h, hm]
  · simp [h, hm]

/-- With no pulse of 100 ns the line of a SIR receiver stands at 1 (R408). -/
theorem judge_of_short {x : Uart} {ps : List (Nat × Nat)} (h : ∀ q ∈ ps, q.2 < 20) (p st : Bool) :
    x.judge p st (.pulses ps) = (if x.data8 then 0xFF else 0x7F, true, true) := by
  have hlevel : ∀ k, x.stretched ps k = true := by
    intro k
    unfold Uart.stretched
    rw [Bool.not_eq_true', List.any_eq_false]
    intro q hq
    simp [pulseOk, Nat.not_le.2 (h q hq)]
  unfold Uart.judge
  dsimp only
  simp only [hlevel]
  unfold Uart.dataBits
  split
  · rfl
  · rfl

/-- Level of bit `k` of a character (R400). -/
theorem charBits_getD (x : Uart) (b : Byte) {k : Nat} (hk : k < (x.charBits b).length) :
    (x.charBits b).getD k true = if k = 0 then false else if k ≤ x.dataBits then b.getLsbD (k - 1)
      else if k = x.dataBits + 1 ∧ x.parity ≠ 0 then x.parityOf (x.dataOf b) else true := by
  unfold Uart.charBits
  obtain hlt | hge := Nat.lt_or_ge k (1 + x.dataBits)
  · rw [List.append_assoc, List.getD_append _ _ _ _ (by simpa [Nat.add_comm] using hlt)]
    cases k with
    | zero => rfl
    | succ k =>
      have hk8 : k < x.dataBits := by omega
      rw [if_neg (Nat.succ_ne_zero k), if_pos (show k + 1 ≤ x.dataBits from hk8)]
      simp [List.getD, hk8]
  · have hlen : (false :: (List.range x.dataBits).map fun i => b.getLsbD i).length = 1 + x.dataBits := by simp [Nat.add_comm]
    have hstop : ∀ n m, (List.replicate n true).getD m true = true := fun n m => by
      by_cases h : m < n <;> simp [List.getD, h]
    rw [List.append_assoc, List.getD_append_right _ _ _ _ (by rw [hlen]; exact hge), hlen,
      if_neg (show ¬ k = 0 by omega), if_neg (show ¬ k ≤ x.dataBits by omega)]
    by_cases hp : x.parity = 0
    · rw [if_pos hp, if_neg fun h => h.2 hp]
      exact hstop _ _
    · rw [if_neg hp]
      obtain heq | hne := eq_or_ne k (x.dataBits + 1)
      · rw [if_pos ⟨heq, hp⟩, show k - (1 + x.dataBits) = 0 by omega]
        rfl
      · rw [if_neg fun h => hne h.1, show k - (1 + x.dataBits) = (k - x.dataBits - 2) + 1 by omega]
        exact hstop _ _

/-- The line carries the bits of the character that goes out, for 16 DIV / 256 clk each (R400, R406). -/
theorem txd_bits {x : Uart} {b : Byte} {k now : Nat} (hs : x.txShift = some b) (hsir : x.sir = false) (hlo : 16 * x.txDiv.toNat * k ≤ 256 * (now - x.txClk))
    (hhi : 256 * (now - x.txClk) < 16 * x.txDiv.toNat * (k + 1)) (hk : k < (x.charBits b).length) :
    x.txd now = if k = 0 then false else if k ≤ x.dataBits then b.getLsbD (k - 1)
      else if k = x.dataBits + 1 ∧ x.parity ≠ 0 then x.parityOf (x.dataOf b) else true := by
  have hdiv : 256 * (now - x.txClk) / (16 * x.txDiv.toNat) = k := 
    Nat.div_eq_of_lt_le ((Nat.mul_comm _ _).trans_le hlo) (hhi.trans_eq (Nat.mul_comm _ _))
  rw [← charBits_getD x b hk]
  unfold Uart.txd
  rw [hs]
  dsimp only
  rw [hdiv]
  exact if_neg (by simp [hsir])

-- receiving (R402 to R405) --------------------------------------------------------------------------------------------------------------------------------

section
variable {u : Nat} {s : State} {l : CharLine} {p0 st0 : Bool} {d : Byte} {p st : Bool} {r : BitVec 64}
  (hj : (s.uart u).judge p0 st0 l = (d, p, st)) (he : (s.uart u).enable = true) (hw : (s.uart u).idleWait = false)
include hj he hw

/-- The receiver that has judged a character: what it counts, and the character in UART_HOLD, in the message or as an error (R402, R404, R405). -/
theorem charComplete_judged : charComplete u l p0 st0 r s =
    let x := s.uart u
    let perr := x.parity != 0 && p != x.parityOf d
    let x1 := { x.countErrors (!st) perr (!st && d == 0) with rxBusy := false, rxDiv := x.div }
    if x.raw then s.setUart u (x1.hold d (!st) perr)
    else if !st || perr then s.setUart u { x1 with status := 0, args := [] }
    else intakeByte u d r (s.setUart u x1) := by
  unfold charComplete
  dsimp only
  rw [if_neg (by simp [he, hw]), hj]

/-- A character in RAW mode is held with its error bits; one that was held already is lost and counted (R404, R405). -/
theorem charComplete_holds (hraw : (s.uart u).raw = true) : let x := s.uart u
    let t := charComplete u l p0 st0 r s
    (t.uart u).holdValid = true ∧ (t.uart u).holdFerr = (!st) ∧ (t.uart u).holdPerr = (x.parity != 0 && p != x.parityOf d) ∧
      (t.uart u).holdData = d ∧ (t.uart u).overruns = (if x.holdValid then satInc x.overruns else x.overruns) ∧
      (t.uart u).framing = (if st then x.framing else satInc x.framing) ∧ (t.uart u).ring = x.ring := by
  intro x t
  have ht : t.uart u = ({ x.countErrors (!st) (x.parity != 0 && p != x.parityOf d) (!st && d == 0) with rxBusy := false, rxDiv := x.div } : Uart).hold d (!st)
      (x.parity != 0 && p != x.parityOf d) := by
    show (charComplete u l p0 st0 r s).uart u = _
    rw [charComplete_judged hj he hw]
    dsimp only
    rw [if_pos hraw, State.setUart_same]
  rw [ht]
  refine ⟨rfl, rfl, rfl, rfl, rfl, ?_, rfl⟩
  cases st <;> rfl

/-- A wrong stop bit or parity ends the MIDI message (R402, R405). -/
theorem charComplete_discards (hraw : (s.uart u).raw = false) (herr : st = false ∨ ((s.uart u).parity ≠ 0 ∧ p ≠ (s.uart u).parityOf d)) :
    ((charComplete u l p0 st0 r s).uart u).args = [] ∧ ((charComplete u l p0 st0 r s).uart u).status = 0 ∧ (charComplete u l p0 st0 r s).se = s.se := by
  have hbad : (!st || ((s.uart u).parity != 0 && p != (s.uart u).parityOf d)) = true := by
    obtain h | ⟨h, h'⟩ := herr
    · simp [h]
    · simp [h, h']
  rw [charComplete_judged hj he hw]
  dsimp only
  rw [if_neg (by simp [hraw]), if_pos hbad, State.setUart_same]
  exact ⟨rfl, rfl, rfl⟩

end

/-- The Conductor moves a held RAW character into the ring while there is room (R405). -/
theorem takeRaw_takes {u : Nat} {s : State} (hraw : (s.uart u).raw = true) (hv : (s.uart u).holdValid = true) (hc : s.condDown = false) :
    ((takeRaw u s).uart u).holdValid = false ∧
      ((s.uart u).ring.length < 1024 → ((takeRaw u s).uart u).ring = (s.uart u).ring ++ [(s.uart u).holdData] ∧
        ((takeRaw u s).uart u).overruns = (s.uart u).overruns) ∧
      (1024 ≤ (s.uart u).ring.length → ((takeRaw u s).uart u).ring = (s.uart u).ring ∧
        ((takeRaw u s).uart u).overruns = satInc (s.uart u).overruns) := by
  unfold takeRaw
  dsimp only
  rw [if_neg (by simp [hraw, hv, hc])]
  split
  next hlt =>
    rw [State.setUart_same]
    exact ⟨rfl, fun _ => ⟨rfl, rfl⟩, fun h => absurd hlt (Nat.not_lt.2 h)⟩
  next hge =>
    rw [State.setUart_same]
    exact ⟨rfl, fun h => absurd h hge, fun _ => ⟨rfl, rfl⟩⟩

-- sending (R406, R418) ---------------------------------------------------------------------------------------------------------------------------------------

/-- An idle transmitter takes the oldest byte of its FIFO (R406). -/
theorem startTx_takes (now : Nat) {x : Uart} (h : x.txShift = none) :
    (x.startTx now).txShift = x.fifo.head? ∧ (x.startTx now).fifo = x.fifo.tail ∧ (x.startTx now).sent = x.sent := by
  unfold Uart.startTx
  rw [h]
  cases hf : x.fifo with
  | nil => exact ⟨h, hf, rfl⟩
  | cons b r => exact ⟨rfl, rfl, rfl⟩

/-- A busy transmitter goes on. -/
theorem startTx_busy (now : Nat) {x : Uart} (h : x.txShift.isSome = true) : x.startTx now = x := by
  unfold Uart.startTx
  obtain ⟨b, hb⟩ := Option.isSome_iff_exists.1 h
  rw [hb]

/-- The end of a command leaves the commands that wait. -/
theorem completeJob_jobs (jb : Job) (st : Status) (ws : List Word) (s : State) : (completeJob jb st ws s).mbx.jobs = s.mbx.jobs ∧
    (completeJob jb st ws s).uarts = s.uarts := by
  obtain ⟨_, _, _, _, _, h⟩ := endCommand_onlyAnswers .done jb.j jb.e st ws s
  unfold completeJob
  rw [h]
  exact ⟨rfl, rfl⟩

theorem sendNow_jobs (stamped : Bool) (e : Entry) (s : State) : (sendNow stamped e s).mbx = s.mbx := by
  unfold sendNow
  dsimp only
  split
  · rfl
  · rfl

/-- A send that takes effect waits no more, and brings no other (R406). -/
theorem stampedSend_jobs (jb : Job) (s : State) : (stampedSend jb s).mbx.jobs = s.mbx.jobs.filter fun x => x.j != jb.j := by
  unfold stampedSend
  rw [(completeJob_jobs _ _ _ _).1, sendNow_jobs]

theorem mem_foldl_insertSend {x : Job} (l : List Job) (acc : List Job) (h : x ∈ acc ∨ x ∈ l) :
    x ∈ l.foldl (fun l jb => insertSend jb l) acc := by
  have hinsert : ∀ (y : Job) (acc : List Job), (x = y ∨ x ∈ acc) → x ∈ insertSend y acc := by
    intro y acc
    induction acc with
    | nil => exact fun h => List.mem_singleton.2 (h.resolve_right List.not_mem_nil)
    | cons z r ih =>
      intro h
      unfold insertSend
      split
      · exact List.mem_cons.2 h
      · obtain h | h := h
        · exact List.mem_cons_of_mem _ (ih (.inl h))
        · obtain h | h := List.mem_cons.1 h
          · exact List.mem_cons.2 (.inl h)
          · exact List.mem_cons_of_mem _ (ih (.inr h))
  induction l generalizing acc with
  | nil => exact h.resolve_right List.not_mem_nil
  | cons y l ih =>
    refine ih _ ?_
    obtain h | h := h
    · exact .inl (hinsert _ _ (.inr h))
    · obtain h | h := List.mem_cons.1 h
      · exact .inl (hinsert _ _ (.inl h))
      · exact .inr h

/-- A send that is run is gone from the commands that wait. -/
theorem foldl_stampedSend_gone {j : Word} (l : List Job) (s : State) (h : (∃ jb ∈ l, jb.j = j) ∨ ∀ y ∈ s.mbx.jobs, y.j ≠ j) :
    ∀ y ∈ (l.foldl (fun s jb => stampedSend jb s) s).mbx.jobs, y.j ≠ j := by
  induction l generalizing s with
  | nil => exact h.resolve_left fun ⟨_, hm, _⟩ => List.not_mem_nil hm
  | cons x l ih =>
    refine ih _ ?_
    have hmem : ∀ y ∈ (stampedSend x s).mbx.jobs, y ∈ s.mbx.jobs ∧ y.j ≠ x.j := fun y hy => by
      rw [stampedSend_jobs] at hy
      obtain ⟨hy, hne⟩ := List.mem_filter.1 hy
      exact ⟨hy, by simpa using hne⟩
    obtain ⟨jb, hm, hjb⟩ | h := h
    · obtain rfl | hm := List.mem_cons.1 hm
      · exact .inr fun y hy => hjb ▸ (hmem y hy).2
      · exact .inl ⟨jb, hm, hjb⟩
    · exact .inr fun y hy => h y (hmem y hy).1

/-- A send that takes effect alone: its bytes stand behind those in the FIFO, and it was late where there were any (R406). -/
theorem stampedSend_sends {jb : Job} {s : State} (he : (s.uart (bits (jb.e.pw 0) 2 0)).enable = true)
    (hb : (s.uart (bits (jb.e.pw 0) 2 0)).txShift.isSome = true) : let x := s.uart (bits (jb.e.pw 0) 2 0)
    ((stampedSend jb s).uart (bits (jb.e.pw 0) 2 0)).fifo = x.fifo ++ sendBytes jb.e ∧
      ((stampedSend jb s).uart (bits (jb.e.pw 0) 2 0)).lateTx = if x.fifo = [] then x.lateTx else satInc x.lateTx := by
  intro x
  let y : Uart := { x with fifo := x.fifo ++ sendBytes jb.e, lateTx := if true && !x.fifo.isEmpty then satInc x.lateTx else x.lateTx }
  let s1 : State := { s with mbx := { s.mbx with jobs := s.mbx.jobs.filter fun x => x.j != jb.j } }
  have hsend : sendNow true jb.e s1 = s1.setUart (bits (jb.e.pw 0) 2 0) y := by
    have hidle : y.startTx s1.time.clkCount = y := startTx_busy _ hb
    have hon : ¬ (!(s1.uart (bits (jb.e.pw 0) 2 0)).enable) = true := by
      rw [show (s1.uart (bits (jb.e.pw 0) 2 0)).enable = true from he]
      decide
    exact (if_neg hon).trans (congrArg (s1.setUart _) hidle)
  have hrun : (stampedSend jb s).uart (bits (jb.e.pw 0) 2 0) = y := by
    unfold stampedSend
    show Tab.look (completeJob _ _ _ (sendNow true jb.e s1)).uarts _ _ = _
    rw [(completeJob_jobs _ _ _ _).2, hsend]
    exact State.setUart_same s1 _ y
  rw [hrun]
  refine ⟨rfl, ?_⟩
  show (if true && !x.fifo.isEmpty then satInc x.lateTx else x.lateTx) = _
  by_cases hf : x.fifo = []
  · simp [hf]
  · simp [hf]

/-- What a UART takes from its line and hands on. -/
theorem uart_receives {u : Nat} (hu : u < 8) (s : State) : let x := s.uart u
    (x.enable = true → x.idleWait = false → x.rxBusy = false →
        exec (.startBit u) s = .next (s.setUart u { x with rxBusy := true, rxDiv := x.div })) ∧
      ((x.enable = false ∨ x.idleWait = true ∨ x.rxBusy = true) → exec (.startBit u) s = .next s) ∧
      (x.enable = true → s.power.state ≠ 2 → exec (.lineIdleTenBitTimes u) s = .next (s.setUart u { x with idleWait := false })) ∧
      (∀ l p st r, (x.enable = false ∨ x.idleWait = true) → exec (.uartCharacterComplete u l p st r) s = .next s) ∧
      ((x.raw = false ∨ x.holdValid = false ∨ s.condDown = true) → exec (.rawCharacterTaken u) s = .next s) := by
  intro x
  refine ⟨fun he hw hb => (withUnit_lt hu _).trans (congrArg Host.Outcome.next (if_pos ?_)),
    fun h => (withUnit_lt hu _).trans (congrArg Host.Outcome.next (if_neg ?_)), fun he hp => (withUnit_lt hu _).trans (congrArg Host.Outcome.next ?_),
    fun l p st r h => (withUnit_lt hu _).trans (congrArg Host.Outcome.next (if_pos ?_)),
    fun h => (withUnit_lt hu _).trans (congrArg Host.Outcome.next (if_pos ?_))⟩
  · simp [x, he, hw, hb]
  · obtain h | h | h := h <;> simp [x, h]
  · exact congrArg (s.setUart u) (if_pos (Bool.and_eq_true_iff.2 ⟨he, bne_iff_ne.2 hp⟩))
  · obtain h | h := h <;> simp [x, h]
  · obtain h | h | h := h <;> simp [x, h]

/-- A stamped send whose moment has come takes effect after those of earlier stamps, and waits no more (R406). -/
theorem stampedSend_runs (j : Word) (s : State) :
    ((s.mbx.jobs.find? fun jb => jb.j == j && s.sendDue jb) = none → exec (.uartStampedSend j) s = .next s) ∧
      ∀ jb, (s.mbx.jobs.find? fun jb => jb.j == j && s.sendDue jb) = some jb →
        exec (.uartStampedSend j) s = .next (runSends (fun y => y.j == j || decide (stampDist y.stamp jb.stamp < 0)) s) := by
  show (_ → execUartStampedSend j s = _) ∧ ∀ jb, _ → execUartStampedSend j s = _
  unfold execUartStampedSend
  exact ⟨fun h => by rw [h], fun jb h => by rw [h]⟩

theorem sendHeld_of_due {s : State} {jb : Job} (h : s.sendDue jb = true) : sendHeld jb = true :=
  Bool.and_elim_left (Bool.and_elim_left h)

/-- A send that no other goes before takes effect alone. -/
theorem runSends_alone {jb : Job} {s : State} {which : Job → Bool} (h : (s.mbx.jobs.filter fun y => sendHeld y && which y) = [jb]) :
    runSends which s = stampedSend jb s := by
  unfold runSends
  rw [h]
  rfl

/-- Settles O54: the receiver by `charComplete_judged`, the line by `txd_bits`, stamped sends by what each leaves waiting. -/
theorem uartsReceiveAndSend : Obligations.UartsReceiveAndSend := by
  refine ⟨fun u s hu => ?_, fun u s hu => ?_, fun j s => ?_⟩
  · obtain ⟨hstart, hbusy, hidle, hoff, htaken⟩ := uart_receives hu s
    have hchar : ∀ l p st r, exec (.uartCharacterComplete u l p st r) s = .next (charComplete u l p st r s) := fun _ _ _ _ => withUnit_lt hu _
    exact ⟨hstart, hbusy, withUnit_lt hu _, hidle, hoff, fun d p st => rfl, fun p st ps h => judge_of_short h p st, parityOf_ones _,
      fun l p0 st0 d p st r hj he hw hraw => ⟨_, hchar _ _ _ _, charComplete_holds hj he hw hraw⟩,
      fun l p0 st0 d p st r hj he hw hraw herr => ⟨_, hchar _ _ _ _, charComplete_discards hj he hw hraw herr⟩, htaken,
      fun hraw hv hc => ⟨_, withUnit_lt hu _, takeRaw_takes hraw hv hc⟩⟩
  · have hsent : ∀ y, (match (s.uart u).txShift with
        | some b => Uart.startTx s.time.clkCount { s.uart u with sent := (s.uart u).sent ++ [(s.uart u).dataOf b], txShift := none }
        | none => s.uart u) = y → exec (.uartCharacterSent u) s = .next (s.setUart u y) := fun y h => by
      subst h
      exact withUnit_lt hu _
    refine ⟨fun hnone => hsent _ (by rw [hnone]), fun b hb => ⟨_, hsent _ (by rw [hb]), ?_⟩,
      fun b k now hs hsir hlo hhi hk => txd_bits hs hsir hlo hhi hk⟩
    obtain ⟨hshift, hfifo, hsent'⟩ := startTx_takes s.time.clkCount
      (show ({ s.uart u with sent := (s.uart u).sent ++ [(s.uart u).dataOf b], txShift := none } : Uart).txShift = none from rfl)
    rw [State.setUart_same]
    exact ⟨hsent', hshift, hfifo⟩
  · obtain ⟨hnone, hsome⟩ := stampedSend_runs j s
    refine ⟨hnone, fun jb hjb => ⟨_, hsome jb hjb, ?_⟩, fun jb hdue hfilter hjbj => ?_⟩
    · have hmem := List.mem_of_find?_eq_some hjb
      have hprop := List.find?_some hjb
      obtain ⟨hj, hd⟩ := Bool.and_eq_true_iff.1 hprop
      refine foldl_stampedSend_gone _ s (.inl ⟨jb, mem_foldl_insertSend _ _ (.inr (List.mem_filter.2 ⟨hmem, ?_⟩)), by simpa using hj⟩)
      exact Bool.and_eq_true_iff.2 ⟨sendHeld_of_due hd, Bool.or_eq_true_iff.2 (.inl hj)⟩
    · have hmem : jb ∈ s.mbx.jobs := (List.mem_filter.1 (hfilter ▸ List.mem_singleton_self jb :)).1
      have hex : (s.mbx.jobs.find? fun jb => jb.j == j && s.sendDue jb).isSome = true := List.find?_isSome.2 ⟨jb, hmem, by simp [hjbj, hdue]⟩
      obtain ⟨jb', hfind⟩ := Option.isSome_iff_exists.1 hex
      have hprop := List.find?_some hfind
      obtain ⟨hj, hd⟩ := Bool.and_eq_true_iff.1 hprop
      have hsame : jb' = jb := List.mem_singleton.1 (hfilter ▸ List.mem_filter.2 ⟨List.mem_of_find?_eq_some hfind,
        Bool.and_eq_true_iff.2 ⟨sendHeld_of_due hd, Bool.or_eq_true_iff.2 (.inl hj)⟩⟩)
      subst hsame
      exact fun he hb => ⟨_, (hsome jb' hfind).trans (congrArg Host.Outcome.next (runSends_alone hfilter)), stampedSend_sends he hb⟩

end Sys2Proof.Machine
end


section
/-! PROOFS. Timers count and capture (R411 to R415). -/

namespace Sys2Proof.Machine

/-- A period event restarts the count and marks the timer (R411, R412). -/
theorem timerEvent_marks (n : Nat) (s : State) : let x := s.timer n
    ((timerEvent n s).timer n).irq = true ∧ ((timerEvent n s).timer n).count = 0 ∧ ((timerEvent n s).timer n).presc = 0 ∧
      ((timerEvent n s).timer n).out = (if x.outEn then !x.out else x.out) ∧ (x.mode = 2 → bit ((timerEvent n s).timer n).cfg 31 = false) ∧
      (x.mode ≠ 2 → ((timerEvent n s).timer n).cfg = x.cfg) ∧ ((timerEvent n s).timer n).queue = x.queue := by
  intro x
  have hx : (timerEvent n s).timer n = { x.mark with count := 0, presc := 0 } := State.setTimer_same s n _
  rw [hx]
  refine ⟨rfl, rfl, rfl, rfl, fun hm => ?_, fun hm => if_neg hm, rfl⟩
  have hcfg : x.mark.cfg = setBit x.cfg 31 false := if_pos hm
  exact (congrArg (fun c => bit c 31) hcfg).trans ((getLsbD_setBit _ 31 false 31 (by decide)).trans (if_pos rfl))

/-- A selected edge outside SLEEP, the first of its clk, is captured or lost (R413, R414). -/
theorem captureEdge_captures (n : Nat) (rising : Bool) (s : State) : let x := s.timer n
    let sel := if rising then x.edges = 1 ∨ x.edges = 3 else x.edges = 2 ∨ x.edges = 3
    ((¬ sel ∨ s.power.state = 2 ∨ ¬ x.capClk ≠ some s.time.clkCount) → captureEdge n rising s = s) ∧
      (sel → s.power.state ≠ 2 → x.capClk ≠ some s.time.clkCount → captureEdge n rising s =
        if x.queue.length < 4 then
          s.setTimer n { x with capClk := some s.time.clkCount, queue := x.queue ++ [{ count := x.count, time := s.time.deviceTime - 10 }] }
        else s.setTimer n { x with capClk := some s.time.clkCount, overflow := true, lost := satInc x.lost }) := by
  intro x sel
  have hsel : (if rising then x.edges == 1 || x.edges == 3 else x.edges == 2 || x.edges == 3) = decide sel := by
    rw [Bool.eq_iff_iff]
    cases rising with
    | true => simp [sel]
    | false => simp [sel]
  refine ⟨fun h => if_pos ?_, fun hs hp hf => if_neg ?_⟩
  · show (!(if rising then x.edges == 1 || x.edges == 3 else x.edges == 2 || x.edges == 3) || s.power.state == 2 ||
      x.capClk == some s.time.clkCount) = true
    rw [hsel]
    obtain h | h | h := h
    · simp [h]
    · simp [h]
    · simp [not_not.1 h]
  · show ¬ (!(if rising then x.edges == 1 || x.edges == 3 else x.edges == 2 || x.edges == 3) || s.power.state == 2 ||
      x.capClk == some s.time.clkCount) = true
    rw [hsel, beq_eq_false_iff_ne.2 hp, beq_eq_false_iff_ne.2 hf, decide_eq_true hs]
    decide

/-- Settles O55: a period event by its marks, an edge by what its timer may take. -/
theorem timersCountAndCapture : Obligations.TimersCountAndCapture := by
  intro n s hn x
  have hevent : exec (.periodEvent n) s = .next (if s.timerDue n then timerEvent n s else s) := withUnit_lt hn _
  have hcap : ∀ rising, exec (.capture n rising) s = .next (captureEdge n rising s) := fun _ => withUnit_lt hn _
  refine ⟨fun he hm hp hc => ⟨_, hevent.trans (congrArg Host.Outcome.next (if_pos ?_)), timerEvent_marks n s⟩,
    fun h => hevent.trans (congrArg Host.Outcome.next (if_neg ?_)), fun rising => ?_⟩
  · exact Bool.and_eq_true_iff.2 ⟨Bool.and_eq_true_iff.2 ⟨Bool.and_eq_true_iff.2 ⟨he, bne_iff_ne.2 hm⟩, bne_iff_ne.2 hp⟩, decide_eq_true hc⟩
  · unfold State.timerDue
    obtain h | h | h | h := h
    · simp [show (s.timer n).enable = false from h]
    · simp [show (s.timer n).mode = 0 from h]
    · simp [h]
    · simp [show (s.timer n).count.toNat < (s.timer n).period.toNat from h]
  · obtain ⟨hstays, htakes⟩ := captureEdge_captures n rising s
    exact ⟨fun h => (hcap rising).trans (congrArg Host.Outcome.next (hstays h)),
      fun hs hp hf hl => (hcap rising).trans (congrArg Host.Outcome.next ((htakes hs hp hf).trans (if_pos hl))),
      fun hs hp hf hl => (hcap rising).trans (congrArg Host.Outcome.next ((htakes hs hp hf).trans (if_neg (Nat.not_lt.2 hl))))⟩

end Sys2Proof.Machine
end


section
/-! PROOFS. The analogue channels (R378 to R398). -/

namespace Sys2Proof.Machine

-- posts of the hardware (R257) -------------------------------------------------------------------------------------------------------------------------------

/-- Nothing but the Dispatcher, its trace and the free values differs. -/
def OnlyPosts (s t : State) : Prop := ∃ win dsp n, t = { s with mem := { s.mem with win := win }, dsp := dsp, freeCtr := n }

theorem OnlyWork.onlyPosts {s t : State} (h : OnlyWork s t) : OnlyPosts s t := by
  obtain ⟨win, dsp, rfl⟩ := h
  exact ⟨_, _, _, rfl⟩

theorem OnlyPosts.trans {s t u : State} (h : OnlyPosts s t) (g : OnlyPosts t u) : OnlyPosts s u := by
  obtain ⟨_, _, _, rfl⟩ := h
  obtain ⟨_, _, _, rfl⟩ := g
  exact ⟨_, _, _, rfl⟩

theorem enterQueue_onlyPosts {q : Nat} {e : List Word} {s t : State} (h : enterQueue q e s = some t) : OnlyPosts s t := by
  unfold enterQueue at h
  split at h
  next w _ =>
    obtain rfl := Option.some.inj h
    exact (giveEntry_onlyWork w q e s).onlyPosts
  · split at h
    · obtain rfl := Option.some.inj h
      exact (setQueue_onlyWork _ _ _).onlyPosts
    · cases h

theorem countRefused_onlyPosts (unit producer q : Nat) (s : State) : OnlyPosts s (countRefused unit producer q s) :=
  ((show OnlyWork s _ from ⟨_, _, rfl⟩).trans (traceDevice_onlyTrace _ _ _ _ _).onlyWork).onlyPosts

theorem keepPost_onlyPosts (p : Nat × Nat × List Word) (s : State) : OnlyPosts s (keepPost p s) := ⟨_, _, _, rfl⟩

/-- A post of a hardware producer is work of the Dispatcher alone, whether it is entered or kept. -/
theorem hwPost_onlyPosts (producer q : Nat) (e : List Word) (s : State) : OnlyPosts s (hwPost producer q e s) := by
  unfold hwPost
  split
  · exact keepPost_onlyPosts _ s
  · unfold tryPost
    split
    next h => exact enterQueue_onlyPosts h
    · exact (countRefused_onlyPosts _ _ _ s).trans (keepPost_onlyPosts _ _)

theorem condPost_onlyPosts (producer : Nat) (arg : Word) (s : State) : OnlyPosts s (condPost producer arg s) :=
  (show OnlyPosts s s.fresh from ⟨_, _, _, rfl⟩).trans (hwPost_onlyPosts _ _ _ _)

-- shorts and faults (R381, R391, R392) -------------------------------------------------------------------------------------------------------------------------

/-- A channel that enters FAULT: its flag sets and ENABLE clears; the other channels stay. -/
theorem faultDac_faults (cause : Nat) {d : Nat} {s : State} (hd : d < 32) (h : (s.dacCh d).state ≠ dacFault) :
    ((faultDac cause s d).dacCh d).state = dacFault ∧ ((faultDac cause s d).dacCh d).enable = false ∧
      (faultDac cause s d).dac.fault.getLsbD d = true ∧ ∀ n, n ≠ d → (faultDac cause s d).dacCh n = s.dacCh n := by
  let s1 := s.onDac d fun x => { x.turnOff dacFault with enable := false }
  let s2 := { s1 with dac := { s1.dac with fault := setBit s1.dac.fault d true } }
  have hrun : faultDac cause s d = condPost 4 (BitVec.ofNat 32 (256 * cause + d)) s2 := if_neg h
  obtain ⟨_, _, _, hpost⟩ := condPost_onlyPosts 4 (BitVec.ofNat 32 (256 * cause + d)) s2
  have hch : ∀ n, (faultDac cause s d).dacCh n = s1.dacCh n := fun n => by
    rw [hrun, hpost]
    rfl
  have hsame : s1.dacCh d = { (s.dacCh d).turnOff dacFault with enable := false } := State.setDacCh_same _ _ _
  rw [hch d, hsame]
  refine ⟨rfl, rfl, ?_, fun n hn => (hch n).trans (State.setDacCh_other _ _ _ _ hn)⟩
  rw [hrun, hpost]
  exact (getLsbD_setBit _ d true d hd).trans (if_pos rfl)

theorem faultDac_state (cause : Nat) {d : Nat} (hd : d < 32) (s : State) : ((faultDac cause s d).dacCh d).state = dacFault ∧
    ∀ n, (s.dacCh n).state = dacFault → ((faultDac cause s d).dacCh n).state = dacFault := by
  by_cases h : (s.dacCh d).state = dacFault
  · have hrun : faultDac cause s d = s := if_pos h
    rw [hrun]
    exact ⟨h, fun n hn => hn⟩
  · obtain ⟨hst, -, -, hothers⟩ := faultDac_faults cause hd h
    refine ⟨hst, fun n hn => ?_⟩
    obtain rfl | hne := eq_or_ne n d
    · exact hst
    · rw [hothers n hne]
      exact hn

/-- Every channel enters FAULT (R381). -/
theorem foldl_faultDac {cause : Nat} (l : List Nat) (s : State) (hl : ∀ d ∈ l, d < 32) {n : Nat}
    (h : n ∈ l ∨ (s.dacCh n).state = dacFault) : ((l.foldl (faultDac cause) s).dacCh n).state = dacFault := by
  induction l generalizing s with
  | nil => exact h.resolve_left List.not_mem_nil
  | cons d l ih =>
    obtain ⟨hst, hstays⟩ := faultDac_state cause (hl d (List.mem_cons_self ..)) s
    refine ih _ (fun d hd => hl d (List.mem_cons_of_mem _ hd)) ?_
    obtain h | h := h
    · obtain rfl | h := List.mem_cons.1 h
      · exact .inr hst
      · exact .inl h
    · exact .inr (hstays n h)

-- the legs (R378, R380) -----------------------------------------------------------------------------------------------------------------------------------------

/-- The two legs of a channel that is on share the current of its span by the code. -/
theorem legs_share {s : State} {d : Nat} (h : (s.dacCh d).off = false) : ∃ p n, s.legs d = some (p, n) ∧
    p + n = 65536 * spanUa (s.dacCh d).legSpan ∧ (s.dacCode (s.dacCh d) = 0 → p = n) ∧ (s.dacCode (s.dacCh d) = BitVec.intMin 16 → p = 0) := by
  have hlegs : s.legs d = some (spanUa (s.dacCh d).legSpan * (32768 + (s.dacCode (s.dacCh d)).toInt).toNat,
      spanUa (s.dacCh d).legSpan * (32768 - (s.dacCode (s.dacCh d)).toInt).toNat) := if_neg (by simp [h])
  refine ⟨_, _, hlegs, ?_, fun h0 => by rw [h0]; rfl, fun hmin => by rw [hmin]; exact Nat.mul_zero _⟩
  have hlo := BitVec.le_toInt (s.dacCode (s.dacCh d))
  have hhi : (s.dacCode (s.dacCh d)).toInt < 2 ^ 15 := BitVec.toInt_lt
  generalize (s.dacCode (s.dacCh d)).toInt = c at *
  rw [← Nat.mul_add, Nat.mul_comm]
  congr 1
  omega

-- CV writes (R385 to R387) ----------------------------------------------------------------------------------------------------------------------------------------

/-- The end of a DAC.WRITE leaves the channels and what waits for them. -/
theorem finishCv_dac (j : Word) (s : State) : (finishCv j s).dac = s.dac := by
  unfold finishCv
  split
  · split
    · rfl
    · obtain ⟨_, _, _, _, _, h⟩ := endCommand_onlyAnswers .done _ _ stDone [] (dropJob j s)
      exact (congrArg State.dac h :)
  · rfl

/-- The first waiting code takes effect: on a live CV channel it is its code (R385, R387). -/
theorem popCv_pops {s : State} {x : CvWrite} {r : List CvWrite} (h : s.dac.queue = x :: r) : (popCv s).dac.queue = r ∧
    ((s.dacCh x.ch).mode = true → (s.dacCh x.ch).live = true → ((popCv s).dacCh x.ch).code = x.code ∧ ((popCv s).dacCh x.ch).state = dacActive) := by
  let s1 := writeCv { s with dac := { s.dac with queue := r } } (x.ch, x.code)
  have hdac : (popCv s).dac = s1.dac := by
    unfold popCv
    rw [h]
    exact finishCv_dac x.j s1
  have hch : (popCv s).dacCh x.ch = s1.dacCh x.ch := congrArg (fun y : Dac => y.chs.look x.ch {}) hdac
  refine ⟨?_, fun hm hl => ?_⟩
  · rw [hdac]
    show (writeCv _ _).dac.queue = r
    unfold writeCv
    dsimp only
    split
    · rfl
    · rfl
  · have hw : s1 = State.setDacCh { s with dac := { s.dac with queue := r } } x.ch
        { s.dacCh x.ch with code := x.code, written := true, state := dacActive } := if_pos (Bool.and_eq_true_iff.2 ⟨hm, hl⟩)
    rw [hch, hw, State.setDacCh_same]
    exact ⟨rfl, rfl⟩

/-- Settles O56: each event of a channel by its states, the currents by `legs_share`, waiting codes by `popCv_pops`. -/
theorem analogueChannels : Obligations.AnalogueChannels := by
  refine ⟨fun d s hd => ?_, fun s => ?_⟩
  · intro x
    have hramp : exec (.rampComplete d) s = .next (s.setDacCh d (if x.state ≠ dacRamp then x
        else if x.rampSpan then { x with state := dacSettle, code := 0, legSpan := x.span, feed := none } else x.enterSafe)) := withUnit_lt hd _
    have hsettle : exec (.settleEnd d) s = .next (s.setDacCh d (if x.state = dacSettle then x.enterSafe else x)) := withUnit_lt hd _
    have hshort : exec (.dacShort d) s = .next (if x.off then s else
        let s1 := s.onDac d fun x => { x with shorted := true }
        { s1 with dac := { s1.dac with short := setBit s1.dac.short d true } }) := withUnit_lt hd _
    refine ⟨fun hoff => hshort.trans (congrArg Host.Outcome.next (if_pos hoff)), fun hoff => ?_, withUnit_lt hd _, fun h => ?_, fun hs hoff => ?_,
      fun hst => ?_, fun hst => ?_, fun hst => ?_, fun hl hr => ?_, fun hl hr => ?_, fun h => ?_, fun hoff => if_pos hoff, fun hoff => legs_share hoff⟩
    · refine ⟨_, hshort.trans (congrArg Host.Outcome.next (if_neg (by simp [hoff]))), ?_⟩
      have hch : (s.onDac d fun x => { x with shorted := true }).dacCh d = { x with shorted := true } := State.setDacCh_same _ _ _
      exact ⟨(congrArg DacCh.shorted hch :), (getLsbD_setBit _ d true d hd).trans (if_pos rfl), (congrArg DacCh.state hch :)⟩
    · refine (withUnit_lt hd _).trans (congrArg Host.Outcome.next (if_neg ?_))
      obtain h | h := h
      · simp [show (s.dacCh d).shorted = false from h]
      · simp [show (s.dacCh d).off = true from h]
    · have hne : x.state ≠ dacFault := fun h => by simp [DacCh.off, h] at hoff
      exact ⟨_, (withUnit_lt hd _).trans (congrArg Host.Outcome.next (if_pos (by simp [show (s.dacCh d).shorted = true from hs, show (s.dacCh d).off = false from hoff]))),
        faultDac_faults 1 hd hne⟩
    · exact ⟨_, hramp, (State.setDacCh_same _ _ _).trans (if_pos hst)⟩
    · refine ⟨_, hramp, ?_⟩
      rw [State.setDacCh_same, if_neg (not_not.2 hst)]
      split
      · exact ⟨rfl, rfl, rfl⟩
      · exact ⟨rfl, rfl, rfl⟩
    · exact hsettle.trans (congrArg (fun y => Host.Outcome.next (s.setDacCh d y)) (if_pos hst))
    · exact (withUnit_lt hd _).trans (congrArg Host.Outcome.next (if_pos ⟨hl, by simpa using hr⟩))
    · exact if_pos ⟨rfl, hl, Nat.zero_lt_succ 63⟩
    · refine (withUnit_lt hd _).trans (congrArg Host.Outcome.next (if_neg ?_))
      rintro ⟨hl, hr⟩
      exact h.elim (fun h => Bool.false_ne_true (h.symm.trans hl)) hr
  · have hrange : ∀ d ∈ List.range 32, d < 32 := fun d hd => List.mem_range.1 hd
    have hcv : exec .cvWriteEffect s = .next (match s.dac.queue with | x :: _ => if s.cvDue x then popCv s else s | [] => s) := rfl
    refine ⟨fun h => congrArg Host.Outcome.next (if_pos h),
      fun h => ⟨_, congrArg Host.Outcome.next (if_neg (by simp [h])), fun d hd => foldl_faultDac _ s hrange (.inl (List.mem_range.2 hd))⟩,
      fun h => congrArg Host.Outcome.next (if_neg (by simp [h])),
      fun h => ⟨_, congrArg Host.Outcome.next (if_pos h), fun d hd => foldl_faultDac _ s hrange (.inl (List.mem_range.2 hd))⟩,
      fun hq => ?_, fun x r hq => ⟨fun hd => ?_, fun hd => ?_⟩, fun x r hq hd => ⟨popCv s, ?_, popCv_pops hq⟩⟩
    · rw [hcv, hq]
    · unfold State.cvDue
      simp [Int.not_lt.2 hd]
    · rw [hcv, hq]
      exact congrArg Host.Outcome.next (if_neg (by simp [hd]))
    · rw [hcv, hq]
      exact congrArg Host.Outcome.next (if_pos hd)

end Sys2Proof.Machine
end


section
/-! PROOFS. gPTP event messages, domains and the clock of record (R16, R38, R41 to R47, R368). -/

namespace Sys2Proof.Machine

-- rows of a tracked domain (R41) --------------------------------------------------------------------------------------------------------

section
variable {d : Nat} (hd : d = 0 ∨ d = 2)
include hd

theorem withDom_tracked (s : State) (f : State → State) : withDom d s f = .next (f s) := if_pos hd

theorem exec_gptpEventMessage {port : Nat} (hp : port < 2) (m : PtpEvent) (late : BitVec 64) (s : State) :
    exec (.gptpEventMessage d port m late) s = .next (ptpEvent d port m late s) :=
  (withUnit_lt hp _).trans (withDom_tracked hd s _)

/-- A message to the port of a domain is taken by the active Conductor. -/
theorem exec_followUp {s : State} (hm : s.macUp = true) (hc : s.condDown = false) (o : BitVec 64) :
    exec (.followUp d o) s = .next (if (s.dom d).syncWait then servoSync d o (s.dom d).lastSync s else s) :=
  (withDom_tracked hd s _).trans (congrArg Host.Outcome.next (taken_of_acting _ _ hm hc))

theorem exec_pdelayRespFollowUp {s : State} (hm : s.macUp = true) (hc : s.condDown = false) (v : Word) :
    exec (.pdelayRespFollowUp d v) s = .next (completeExchange d v s) :=
  (withDom_tracked hd s _).trans (congrArg Host.Outcome.next (taken_of_acting _ _ hm hc))

theorem exec_announce {s : State} (hm : s.macUp = true) (hc : s.condDown = false) (vec : List Word) : exec (.announce d vec) s =
    .next (if (s.dom d).best = [] ∨ Config.betterMaster vec (s.dom d).best then s.setDom d { s.dom d with best := vec } else s) :=
  (withDom_tracked hd s _).trans (congrArg Host.Outcome.next (taken_of_acting _ _ hm hc))

end

-- the timestamp of an event message (R45 to R47) ----------------------------------------------------------------------------------------

/-- With no Conductor active, or the MAC standing, nothing is timestamped. -/
theorem ptpEvent_idle {s : State} (h : s.condDown = true ∨ s.macUp = false) (d port : Nat) (m : PtpEvent) (late : BitVec 64) :
    ptpEvent d port m late s = unstampedSent d port m s := if_pos (by simpa using h)

/-- A message less than 100 ns after another is counted and lost. -/
theorem ptpEvent_collides {s : State} {t0 : BitVec 64} (hc : s.condDown = false) (hm : s.macUp = true) (h0 : s.time.lastTs = some t0)
    (h : (s.time.deviceTime - t0).toNat < 100) (d port : Nat) (m : PtpEvent) (late : BitVec 64) :
    let s2 : State := { s with time := { s.time with lastTs := some s.time.deviceTime, tsCollide := satInc s.time.tsCollide } }
    ptpEvent d port m late s = if s.domPort d ≠ port then s2 else lostStamp d port m s2 := by
  unfold ptpEvent
  rw [if_neg (by simp [hc, hm]), h0]
  simp only [h, decide_true, if_true]

/-- A message at least 100 ns after any other is timestamped. -/
theorem ptpEvent_stamps {s : State} (hc : s.condDown = false) (hm : s.macUp = true)
    (h : ∀ t0, s.time.lastTs = some t0 → 100 ≤ (s.time.deviceTime - t0).toNat) (d port : Nat) (m : PtpEvent) (late : BitVec 64) :
    let s1 : State := { s with time := { s.time with lastTs := some s.time.deviceTime } }
    ptpEvent d port m late s = if s.domPort d ≠ port then s1 else receivedStamp d port m (takenTime s port (m == .sent) late) s1 := by
  unfold ptpEvent
  rw [if_neg (by simp [hc, hm])]
  cases hl : s.time.lastTs with
  | none => rfl
  | some t0 =>
    have hfar := decide_eq_false (Nat.not_lt.2 (h t0 hl))
    simp only [hfar, Bool.false_eq_true, if_false]

/-- A message that passes its point is the oldest one sent. -/
theorem sentStamp_dom (d port : Nat) (at_ : Option (BitVec 64)) (s : State) : let t := sentStamp d port at_ s
    (t.dom d).sent = (s.dom d).sent.tail ∧ (t.dom d).offset = (s.dom d).offset ∧ t.time.tsCollide = s.time.tsCollide ∧ t.time.lastTs = s.time.lastTs := by
  unfold sentStamp
  dsimp only
  have h1 := State.setDom_same s d { s.dom d with sent := (s.dom d).sent.tail }
  have ht := State.setDom_time_tsCollide s d { s.dom d with sent := (s.dom d).sent.tail }
  have hl := State.setDom_time_lastTs s d { s.dom d with sent := (s.dom d).sent.tail }
  generalize s.setDom d { s.dom d with sent := (s.dom d).sent.tail } = s1 at h1 ht hl ⊢
  cases (s.dom d).sent.head? with
  | none => simp [h1, ht, hl]
  | some k => cases k <;> cases at_ <;> simp [h1, ht, hl]

/-- The timestamp of a sent message goes into the exchange, or into its follow-up. -/
theorem sentStamp_stamps (d port : Nat) (at_ : BitVec 64) (s : State) : let x := s.dom d
    let t := sentStamp d port (some at_) s
    (x.sent.head? = some .pdelayReq → (t.dom d).reqAt = some at_ ∧ t.out = s.out) ∧
    (x.sent.head? = some .pdelayResp → t.out = ⟨.pdelayRespFollowUp, [d, port, at_.toNat]⟩ :: s.out) ∧
    (x.sent.head? = some .sync → t.out = ⟨.followUp, [d, port, (at_ + x.offset).toNat]⟩ :: s.out) := by
  refine ⟨fun h => ?_, fun h => ?_, fun h => ?_⟩
  · unfold sentStamp
    simp only [h, State.setDom_same, State.setDom_out, and_self]
  · unfold sentStamp
    simp only [h, State.send, State.setDom_out]
  · unfold sentStamp
    simp only [h, State.send, State.setDom_out]

/-- A Pdelay_Req whose timestamp was lost spoils its exchange. -/
theorem sentStamp_lost {d : Nat} (s : State) (h : (s.dom d).sent.head? = some .pdelayReq) (port : Nat) :
    ((sentStamp d port none s).dom d).pdelayBad = true := by
  unfold sentStamp
  simp only [h, State.setDom_same]

/-- A lost message leaves the offset of its domain. -/
theorem lostStamp_keeps (d port : Nat) (m : PtpEvent) (s : State) : let t := lostStamp d port m s
    (t.dom d).offset = (s.dom d).offset ∧ t.time.tsCollide = s.time.tsCollide ∧ t.time.lastTs = s.time.lastTs := by
  cases m with
  | sync o => exact ⟨(congrArg Dom.offset (State.setDom_same s d _) :), rfl, rfl⟩
  | pdelayReq => exact ⟨rfl, rfl, rfl⟩
  | pdelayResp => exact ⟨(congrArg Dom.offset (State.setDom_same s d _) :), rfl, rfl⟩
  | sent => exact (sentStamp_dom d port none s).2

-- lock and unlock of a domain (R41 to R44, R368) ----------------------------------------------------------------------------------------

/-- Device's clock of record follows domain `d`. -/
def State.corIs (s : State) (d : Nat) : Prop := s.time.activeCor ≠ 0 ∧ corDom s.time.activeCor.toNat = d

theorem gptpRef_held {s : State} {d : Nat} (hmine : s.corIs d) (hl : (s.dom d).locked = true) (hr : s.audio.ref = 2) :
    (gptpRef s).audio.refLost = false := by
  obtain ⟨h0, rfl⟩ := hmine
  exact congrArg (fun s : State => s.audio.refLost) ((if_neg (by simp [hr])).trans (if_pos (.inr hl)))

theorem gptpRef_lost {s : State} {d : Nat} (hmine : s.corIs d) (hl : (s.dom d).locked = false) (hr : s.audio.ref = 2) :
    (gptpRef s).audio.refLost = true ∧ (gptpRef s).audio.holdover = true := by
  obtain ⟨h0, rfl⟩ := hmine
  have h : gptpRef s = loseReference s := (if_neg (by simp [hr])).trans (if_neg (fun h => h.elim h0 (by simp [hl])))
  rw [h]
  exact ⟨rfl, rfl⟩

theorem gptpRef_dom (s : State) (d : Nat) : (gptpRef s).dom d = s.dom d := congrArg (fun t : Time => t.doms.look d {}) (gptpRef_time s)

/-- A domain that locks takes its offset and rate; the clock of record that follows it leaves holdover and ramps there. -/
theorem lockDomain_locks (d : Nat) (off : BitVec 64) (r : Int) (s : State) : let t := lockDomain d off r s
    let x := t.dom d
    (x.locked = true ∧ x.everLocked = true ∧ x.offset = off ∧ x.ratePpt = r ∧ t.time.dtFrac = s.time.dtFrac) ∧
    (s.corIs d → t.time.holdover = false ∧ t.time.targetPpt = r ∧ (s.audio.ref = 2 → t.audio.refLost = false)) ∧
    (¬ s.corIs d → t.time.targetPpt = s.time.targetPpt ∧ t.time.holdover = s.time.holdover) := by
  unfold lockDomain
  rw [tickPhase_keeps]
  dsimp only
  by_cases hmine : s.corIs d
  · rw [if_pos (show (_ ≠ _ ∧ _) from hmine)]
    refine ⟨?_, fun _ => ⟨?_, ?_, fun hr => ?_⟩, fun h => absurd hmine h⟩
    · rw [gptpRef_time, gptpRef_dom]
      simp [State.dom, State.setDom, aimRate, Tab.look_put_same]
    · rw [gptpRef_time]
    · rw [gptpRef_time]
      rfl
    · exact gptpRef_held hmine (by simp [State.dom, State.setDom, aimRate, Tab.look_put_same]) hr
  · rw [if_neg (show ¬ (_ ≠ _ ∧ _) from hmine)]
    refine ⟨?_, fun h => absurd h hmine, fun _ => ⟨rfl, rfl⟩⟩
    simp [State.dom, State.setDom, Tab.look_put_same]

/-- A locked domain that unlocks keeps the rate; the clock of record that follows it holds over. -/
theorem unlockDomain_unlocks (d : Nat) (s : State) : let t := unlockDomain d s
    (t.dom d).locked = false ∧ t.time.ratePpt = s.time.ratePpt ∧
    (s.corIs d → t.time.holdover = true ∧ t.time.targetPpt = s.time.ratePpt ∧ (s.audio.ref = 2 → t.audio.refLost = true ∧ t.audio.holdover = true)) := by
  unfold unlockDomain
  dsimp only
  have h0 : ∀ s0 : State, s0 = (if (s.dom d).locked then { s with time := { s.time with lastUnlock := BitVec.ofNat 2 d } } else s) →
      s0.time.ratePpt = s.time.ratePpt ∧ s0.time.activeCor = s.time.activeCor ∧ s0.audio = s.audio := by
    rintro s0 rfl
    split <;> exact ⟨rfl, rfl, rfl⟩
  generalize hs0 : (if (s.dom d).locked then { s with time := { s.time with lastUnlock := BitVec.ofNat 2 d } } else s) = s0
  obtain ⟨hrate, hcor, haudio⟩ := h0 s0 hs0.symm
  have hx := State.setDom_same s0 d { s0.dom d with locked := false, inBand := 0 }
  split
  next hmine =>
    have hm0 : s0.corIs d := by
      unfold State.corIs
      rwa [hcor]
    rw [gptpRef_time, gptpRef_dom]
    exact ⟨congrArg Dom.locked hx, hrate, fun _ => ⟨rfl, hrate, fun hr =>
      gptpRef_lost hm0 (congrArg Dom.locked hx) (haudio ▸ hr)⟩⟩
  next hmine => exact ⟨congrArg Dom.locked hx, hrate, fun h => absurd h hmine⟩

/-- A completed exchange measures the delay, unless it was discarded or its request has no timestamp. -/
theorem completeExchange_measures {d : Nat} {s : State} {t0 : BitVec 64} (hr : (s.dom d).reqAt = some t0) (hw : (s.dom d).pdelayWait = true)
    (hb : (s.dom d).pdelayBad = false) (v : Word) : completeExchange d v s =
      s.setDom d { s.dom d with pdelay := peerDelay t0 (s.dom d).respAt v, pdelayWait := false } := by
  unfold completeExchange
  simp only [hr, hw, hb, Bool.not_false, Bool.and_self, if_true]

theorem completeExchange_drops {d : Nat} {s : State} (h : (s.dom d).reqAt = none ∨ (s.dom d).pdelayWait = false ∨ (s.dom d).pdelayBad = true) (v : Word) :
    completeExchange d v s = s.setDom d { s.dom d with pdelayWait := false } := by
  unfold completeExchange
  refine congrArg (s.setDom d) ?_
  generalize s.dom d = x at h ⊢
  dsimp only
  split
  next t ht =>
    refine if_neg ?_
    obtain h | h | h := h
    · exact absurd (ht.symm.trans h) (Option.some_ne_none t)
    · simp [h]
    · simp [h]
  · rfl

/-- Settles O57: the timestamp of a message by `ptpEvent_stamps` and `ptpEvent_collides`, the domains by `lockDomain_locks` and `unlockDomain_unlocks`. -/
theorem ptpMessagesAndDomains : Obligations.PtpMessagesAndDomains := by
  refine ⟨fun d port late s hd hp => ?_, fun d s hd hm hc => ?_, fun s => ⟨fun h => ?_, fun h => ?_⟩⟩
  · have hexec := fun m => exec_gptpEventMessage hd hp m late s
    let s1 : State := { s with time := { s.time with lastTs := some s.time.deviceTime } }
    let s2 : State := { s with time := { s.time with lastTs := some s.time.deviceTime, tsCollide := satInc s.time.tsCollide } }
    refine ⟨fun h m hn => ?_, fun hc hm hdom => ?_, fun m t0 hc hm h0 h => ?_, fun hc hm hfar => ⟨fun m hne => ?_, fun hdom => ?_⟩, rfl, rfl⟩
    · refine (hexec m).trans (congrArg Host.Outcome.next ((ptpEvent_idle h d port m late).trans (if_neg ?_)))
      obtain h | h | h := hn <;> simp [h]
    · exact (hexec _).trans (congrArg Host.Outcome.next ((ptpEvent_idle (.inl hc) d port _ late).trans (if_pos (by simp [hm, hdom]))))
    · refine ⟨_, hexec m, ?_⟩
      rw [ptpEvent_collides hc hm h0 h]
      by_cases hdom : s.domPort d = port
      · obtain ⟨hoff, hct, hts⟩ := lostStamp_keeps d port m s2
        rw [if_neg (not_not.2 hdom)]
        refine ⟨hct, hts, hoff, fun hresp _ => ?_, fun hsent _ hreq => ?_⟩
        · rw [hresp]
          exact congrArg Dom.pdelayBad (State.setDom_same _ d _)
        · rw [hsent]
          exact sentStamp_lost s2 hreq port
      · rw [if_pos hdom]
        exact ⟨rfl, rfl, rfl, fun _ h => absurd h hdom, fun _ h => absurd h hdom⟩
    · exact (hexec m).trans (congrArg Host.Outcome.next ((ptpEvent_stamps hc hm hfar d port m late).trans (if_pos hne)))
    · have hrun := fun m => (hexec m).trans (congrArg Host.Outcome.next ((ptpEvent_stamps hc hm hfar d port m late).trans (if_neg (not_not.2 hdom))))
      obtain ⟨hsent, _⟩ := sentStamp_dom d port (some (takenTime s port true late)) s1
      exact ⟨fun o h => (hrun _).trans (congrArg Host.Outcome.next (if_pos h)), fun o h => (hrun _).trans (congrArg Host.Outcome.next (if_neg (ne_true_of_eq_false h))),
        fun h => (hrun _).trans (congrArg Host.Outcome.next (if_neg (ne_true_of_eq_false h))), hrun _,
        ⟨_, hrun _, rfl, State.setDom_same _ d _⟩, ⟨_, hrun _, hsent, sentStamp_stamps d port (takenTime s port true late) s1⟩⟩
  · intro x mine
    let s1 := s.setDom d { x with pdelayWait := false, pdelayBad := false, reqAt := none }
    have hask : exec (.peerDelayInterval d) s = .next (sendEvent d (s.domPort d) .pdelayReq [] s1) := if_pos hd
    have hlock : ∀ off r, exec (.domainLock d off r) s = .next (domainHolds d off r s) := fun _ _ => withDom_tracked hd s _
    have hunlock : exec (.domainUnlock d) s = .next (forgetMaster d (if x.locked then unlockDomain d s else s)) := if_pos hd
    obtain ⟨hfree, hkept, hheld⟩ := unlockDomain_unlocks d s
    refine ⟨fun o h => (exec_followUp hd hm hc o).trans (congrArg Host.Outcome.next (if_neg (ne_true_of_eq_false h))),
      fun o h => (exec_followUp hd hm hc o).trans (congrArg Host.Outcome.next (if_pos h)),
      fun v t0 hr hw hb => (exec_pdelayRespFollowUp hd hm hc v).trans (congrArg Host.Outcome.next (completeExchange_measures hr hw hb v)),
      fun v h => (exec_pdelayRespFollowUp hd hm hc v).trans (congrArg Host.Outcome.next (completeExchange_drops h v)),
      fun vec h => (exec_announce hd hm hc vec).trans (congrArg Host.Outcome.next (if_pos h)),
      fun vec h0 h => (exec_announce hd hm hc vec).trans (congrArg Host.Outcome.next (if_neg (fun h1 => h1.elim h0 (ne_true_of_eq_false h)))),
      fun n => (withDom_tracked hd s _).trans (congrArg Host.Outcome.next (taken_of_acting _ _ hm hc)),
      ⟨_, hask, rfl, ?_⟩, fun off r hr => ?_, fun off r hr => ?_, fun hl => ?_, fun hl => ?_⟩
    · have hx : s1.dom d = _ := State.setDom_same s d _
      show (s1.setDom d { s1.dom d with sent := (s1.dom d).sent ++ [.pdelayReq] }).dom d = _
      rw [State.setDom_same, hx]
    · refine ⟨_, hlock off r, ?_⟩
      unfold domainHolds
      rw [if_neg (ne_true_of_eq_false hr)]
      split
      next hl => exact ⟨hfree, fun h => absurd hl (ne_true_of_eq_false h)⟩
      next hl => exact ⟨eq_false_of_ne_true hl, fun _ => rfl⟩
    · obtain ⟨⟨hlocked, hever, hoff, hrate, hfrac⟩, hcor, hother⟩ := lockDomain_locks d off r s
      exact ⟨_, (hlock off r).trans (congrArg Host.Outcome.next (if_pos hr)), hlocked, hever, hoff, hrate, hfrac, hcor, hother⟩
    · exact hunlock.trans (congrArg (fun t => Host.Outcome.next (forgetMaster d t)) (if_neg (ne_true_of_eq_false hl)))
    · refine ⟨_, hunlock.trans (congrArg (fun t => Host.Outcome.next (forgetMaster d t)) (if_pos hl)), ?_, ?_, hkept, hheld⟩
      · exact (congrArg Dom.locked (State.setDom_same _ d _)).trans hfree
      · exact congrArg Dom.best (State.setDom_same _ d _)
  · exact ⟨_, congrArg Host.Outcome.next (if_pos h), by rw [tickPhase_keeps]; rfl, rfl⟩
  · exact congrArg Host.Outcome.next (if_neg (ne_true_of_eq_false h))

end Sys2Proof.Machine
end


section
/-! PROOFS. Talker launches, listener streams and their control, and the audio PLL (R49, R361 to R369, R492). -/

namespace Sys2Proof.Machine

-- the queues of a port (R49) ------------------------------------------------------------------------------------------------------------

section
variable {f : Launch → LaunchOutcome} {port : Nat} {classB : Bool}

/-- A list with nothing of the queue in it stays. -/
theorem judgeList_none : ∀ {l : List Launch}, l.all (fun y => !inQueue port classB y) = true → judgeList f port classB l = (l, [])
  | [], _ => rfl
  | y :: r, h => by
    obtain ⟨hy, hr⟩ := Bool.and_eq_true_iff.1 (show ((!inQueue port classB y) && r.all fun y => !inQueue port classB y) = true from h)
    unfold judgeList
    rw [if_pos hy, judgeList_none hr]

/-- The head of a queue, in front of the list and not yet compared, has its outcome. -/
theorem judgeList_head {x : Launch} (r : List Launch) (hq : inQueue port classB x = true) (hj : x.judged = false) :
    judgeList f port classB (x :: r) = match f x with
      | .drop => ((judgeList f port classB r).1, x :: (judgeList f port classB r).2)
      | .late => ({ x with judged := true, late := true } :: r, [])
      | .wait => ({ x with judged := true } :: r, []) := by
  cases hf : f x <;> simp [judgeList, hq, hj, hf]

theorem find?_none_of_all {l : List Launch} (h : l.all (fun y => !inQueue port classB y) = true) : l.find? (inQueue port classB) = none := by
  simpa using h

/-- With a frame of the queue in front, that frame decides. -/
theorem lateHead_head (y : Launch) (before r : List Launch) (hq : inQueue port classB y = true) :
    lateHead port classB before (y :: r) = (y.late && !(before.any fun z => inQueue port classB z && z.judged)) := by
  unfold lateHead
  rw [List.find?_cons_of_pos hq]

end

section
variable {port : Nat} {classB : Bool} {s : State} {x : Launch} {rest : List Launch}
variable (hl : s.audio.launch = x :: rest) (hq : inQueue port classB x = true) (hj : x.judged = false)
include hl hq hj

/-- A head too late or too far ahead is dropped and counted. -/
theorem judgeHead_drops (h : s.untilLaunch x < -125000 ∨ 1000000000 < s.untilLaunch x) (hr : rest.all (fun y => !inQueue port classB y) = true) :
    let t := judgeHead port classB s
    t.time.launchDrop = satInc s.time.launchDrop ∧ t.audio.launch = rest ∧ t.time.launchLate = s.time.launchLate := by
  have ho : s.launchOutcome x = .drop := if_pos h
  have hlist : judgeList s.launchOutcome port classB s.audio.launch = (rest, [x]) := by
    rw [hl, judgeList_head rest hq hj, ho, judgeList_none hr]
  have hlate : lateHead port classB s.audio.launch rest = false := by
    unfold lateHead
    rw [find?_none_of_all hr]
  unfold judgeHead
  rw [hlist]
  dsimp only
  rw [if_neg (ne_true_of_eq_false hlate)]
  exact ⟨rfl, rfl, rfl⟩

/-- A head found late is counted, and goes at once. -/
theorem judgeHead_late (h0 : -125000 ≤ s.untilLaunch x) (h1 : s.untilLaunch x < 0)
    (hr : rest.all (fun y => !(inQueue port classB y && y.judged)) = true) : let t := judgeHead port classB s
    t.time.launchLate = satInc s.time.launchLate ∧ t.audio.launch = { x with judged := true, late := true } :: rest := by
  have ho : s.launchOutcome x = .late := (if_neg (by omega)).trans (if_pos h1)
  have hlist : judgeList s.launchOutcome port classB s.audio.launch = ({ x with judged := true, late := true } :: rest, []) := by
    rw [hl, judgeList_head rest hq hj, ho]
  have hany : (s.audio.launch.any fun y => inQueue port classB y && y.judged) = false := by
    rw [hl, List.any_cons, hj, Bool.and_false, Bool.false_or, List.any_eq_false]
    exact fun y hy h => by simpa [h] using List.all_eq_true.1 hr y hy
  have hlate : lateHead port classB s.audio.launch ({ x with judged := true, late := true } :: rest) = true := by
    rw [lateHead_head { x with judged := true, late := true } _ _ hq, hany]
    rfl
  unfold judgeHead
  rw [hlist]
  dsimp only
  rw [if_pos hlate]
  exact ⟨rfl, rfl⟩

/-- A head in time waits. -/
theorem judgeHead_waits (h0 : 0 ≤ s.untilLaunch x) (h1 : s.untilLaunch x ≤ 1000000000) (hlate : x.late = false) : let t := judgeHead port classB s
    t.audio.launch = { x with judged := true } :: rest ∧ t.time.launchLate = s.time.launchLate ∧ t.time.launchDrop = s.time.launchDrop := by
  have ho : s.launchOutcome x = .wait := (if_neg (by omega)).trans (if_neg (by omega))
  have hlist : judgeList s.launchOutcome port classB s.audio.launch = ({ x with judged := true } :: rest, []) := by
    rw [hl, judgeList_head rest hq hj, ho]
  have hnot : lateHead port classB s.audio.launch ({ x with judged := true } :: rest) = false :=
    (lateHead_head { x with judged := true } _ _ hq).trans (Bool.and_eq_false_iff.2 (.inl hlate))
  unfold judgeHead
  rw [hlist]
  dsimp only
  rw [if_neg (ne_true_of_eq_false hnot)]
  exact ⟨rfl, rfl, rfl⟩

end

-- formats (R362) ------------------------------------------------------------------------------------------------------------------------

theorem nsrCode_lt (r : BitVec 3) : nsrCode r < 16 := by
  unfold nsrCode
  split <;> decide

theorem spf_lt (s : State) : s.spf < 1024 := by
  unfold State.spf
  generalize s.time.rate = r
  revert r
  decide

/-- A format of up to 8 channels reads back its fields. -/
theorem readFormat_streamFormat (s : State) (x : Stm) (h : x.channels ≤ 8) : readFormat (s.streamFormat x) =
    { subtype := 0x10, nsr := nsrCode s.time.rate, format := if x.int24 = some true then 3 else 2, depth := 24, channels := x.channels, samples := s.spf } := by
  have hn := nsrCode_lt s.time.rate
  have hs := spf_lt s
  unfold readFormat State.streamFormat
  generalize nsrCode s.time.rate = n at *
  generalize s.spf = k at *
  generalize hf : (if x.int24 = some true then 3 else 2) = g
  have hg : g ≤ 3 := by
    rw [← hf]
    split <;> decide
  have hlt : 0x10 * 2 ^ 53 + n * 2 ^ 48 + g * 2 ^ 40 + 24 * 2 ^ 32 + x.channels * 2 ^ 22 + k * 2 ^ 12 < 2 ^ 64 := by omega
  simp only [BitVec.toNat_ofNat, Nat.mod_eq_of_lt hlt, AafFormat.mk.injEq]
  omega

theorem formatOk_streamFormat (s : State) {x : Stm} (h1 : 1 ≤ x.channels) (h8 : x.channels ≤ 8) (hf : x.listener = true ∨ x.int24 ≠ some true) :
    s.formatOk x.listener (s.streamFormat x) = true := by
  unfold State.formatOk
  rw [readFormat_streamFormat s x h8]
  obtain hf | hf := hf
  · by_cases hx : x.int24 = some true <;> simp [hf, hx, h1, h8]
  · simp [hf, h1, h8]

-- bindings (R300, R312, R362) -----------------------------------------------------------------------------------------------------------

/-- A declaration is a message. -/
theorem declareStream_out (t : Nat) (on : Bool) (x : Stm) (s : State) : ∃ ms, declareStream t on x s = { s with out := ms } := by
  unfold declareStream
  split
  · exact ⟨_, rfl⟩
  · exact ⟨_, rfl⟩

theorem bindStream_binds (t i : Nat) (id : BitVec 64) (s : State) : let u := bindStream t i id s
    (u.stm t).connected = true ∧ (u.stm t).streamId = id ∧ (u.stm t).bound = some id ∧ u.out.head? = some ⟨.acmpResponse, [t, 0]⟩ := by
  unfold bindStream
  dsimp only
  obtain ⟨ms, hms⟩ := declareStream_out t true { s.stm t with connected := true, streamId := id, bound := some id, sess := some (i, (s.session i).tag) }
    (s.setStm t { s.stm t with connected := true, streamId := id, bound := some id, sess := some (i, (s.session i).tag) })
  rw [hms]
  have hx := State.setStm_same s t { s.stm t with connected := true, streamId := id, bound := some id, sess := some (i, (s.session i).tag) }
  exact ⟨congrArg Stm.connected hx, congrArg Stm.streamId hx, congrArg Stm.bound hx, rfl⟩

section
variable {t : Nat} {id : BitVec 64} {s : State} (hl : (s.stm t).listener = true)
include hl

/-- A stream that is bound to `id` keeps its session. -/
theorem acmpBind_kept {i : Nat} (h : s.boundTo t id = some i) : acmpBind t id s = bindStream t i id s := by
  unfold acmpBind
  dsimp only
  rw [if_neg (by simp [hl]), h]

/-- Another one opens a session in place of the one it had. -/
theorem acmpBind_opens {i : Nat} {s1 : State} (h : s.boundTo t id = none) (ho : openSession 1 (s.stm t).port.toNat id s = some (i, s1)) :
    acmpBind t id s = bindStream t i id (endStream t s1) := by
  unfold acmpBind
  dsimp only
  rw [if_neg (by simp [hl]), h, ho]

/-- Without a place for a session it is refused and counted. -/
theorem acmpBind_full (h : s.boundTo t id = none) (ho : openSession 1 (s.stm t).port.toNat id s = none) :
    acmpBind t id s = (refuseOpen s).send .acmpResponse [t, 1] := by
  unfold acmpBind
  dsimp only
  rw [if_neg (by simp [hl]), h, ho]

end

/-- An unbound stream takes no more packets, and the session it had is to close. -/
theorem acmpUnbind_unbinds (t : Nat) (s : State) : let u := acmpUnbind t s
    u.stm t = (s.stm t).unbind ∧ (∀ i, s.stmSession t = some i → (u.session i).closing.isSome = true) ∧
      u.out.head? = some ⟨.acmpResponse, [t, 0]⟩ := by
  have hses : ∀ i, s.stmSession t = some i → ((endStream t s).session i).closing.isSome = true := fun i hi => by
    unfold endStream
    rw [hi]
    exact congrArg (fun y : Session => y.closing.isSome) (State.setSession_same s i _)
  unfold acmpUnbind
  dsimp only
  split
  · exact ⟨State.setStm_same _ t _, hses, rfl⟩
  · exact ⟨State.setStm_same _ t _, hses, rfl⟩

/-- A controller that may not change the entity is answered with why, or with status 11 for the format. -/
theorem setStreamFormat_refuses {ctl : BitVec 64} {t : Nat} {f : BitVec 64} {s : State}
    (h : s.aemStatus ctl ≠ 0 ∨ s.formatOk (s.stm t).listener f = false) : setStreamFormat ctl t f s = s.send .aemResponse
      [ctl.toNat, if s.aemStatus ctl ≠ 0 then s.aemStatus ctl else 11, t, (s.streamFormat (s.stm t)).toNat] := by
  have hst : s.formatStatus ctl t f = if s.aemStatus ctl ≠ 0 then s.aemStatus ctl else 11 := by
    unfold State.formatStatus
    split
    · rfl
    next h0 => exact if_neg (ne_true_of_eq_false (h.resolve_left h0))
  have hne : (if s.aemStatus ctl ≠ 0 then s.aemStatus ctl else 11) ≠ 0 := by
    split
    · assumption
    · decide
  unfold setStreamFormat
  dsimp only
  rw [hst, if_neg hne]

/-- A stream takes a format that it supports; the others stay. -/
theorem setStreamFormat_sets {ctl : BitVec 64} {t : Nat} {f : BitVec 64} {s : State} (h0 : s.aemStatus ctl = 0)
    (hok : s.formatOk (s.stm t).listener f = true) : let u := setStreamFormat ctl t f s
    (u.stm t).channels = (readFormat f).channels ∧ ∀ n, n ≠ t → u.stm n = s.stm n := by
  have hst : s.formatStatus ctl t f = 0 := (if_neg (not_not.2 h0)).trans (if_pos hok)
  unfold setStreamFormat
  dsimp only
  rw [hst, if_pos rfl]
  exact ⟨congrArg Stm.channels (State.setStm_same s t _), fun n hn => State.setStm_other s t _ n hn⟩

/-- A packet without samples places none. -/
theorem arrivalPacket_nil (t gap : Nat) (s : State) : ∃ b, arrivalPacket t gap [] s = s.setStm t { s.stm t with byArrival := b } := ⟨_, rfl⟩

/-- A packet in sequence and with no samples starts the stream's silence anew. -/
theorem listenerTakes_fresh {t : Nat} {q : Byte} {s : State} (h : seqGap (s.stm t).rxSeq q = 0) (ts : Word) : let u := listenerTakes t q ts [] s
    (u.stm t).rxSeq = some q ∧ (u.stm t).idleFrames = 0 ∧ (u.stm t).missing = (s.stm t).missing := by
  have hx := State.setStm_same s t { s.stm t with rxSeq := some q, idleFrames := 0 }
  unfold listenerTakes
  dsimp only
  rw [h, if_pos rfl]
  generalize s.setStm t { s.stm t with rxSeq := some q, idleFrames := 0 } = s1 at hx ⊢
  have hsame : ∀ b, let x := (s1.setStm t { s1.stm t with byArrival := b }).stm t
      x.rxSeq = some q ∧ x.idleFrames = 0 ∧ x.missing = (s.stm t).missing := fun b => by
    rw [State.setStm_same, hx]
    exact ⟨rfl, rfl, rfl⟩
  split
  · exact hsame none
  · obtain ⟨b, hb⟩ := arrivalPacket_nil t 0 s1
    rw [hb]
    exact hsame b

/-- Settles O58: the launches by `judgeHead_drops`, `judgeHead_late` and `judgeHead_waits`, each message to a stream by its rule above. -/
theorem streamsAndTheirControl : Obligations.StreamsAndTheirControl := by
  refine ⟨fun port classB s hp => ⟨fun hnone => ?_, fun x hx => ?_⟩, ⟨fun t s ht => ?_, fun t s ht hm hc => ?_, fun s => ?_, fun ctl s hm hc => ?_⟩⟩
  · refine (withUnit_lt hp _).trans (congrArg Host.Outcome.next ?_)
    unfold launchHead
    rw [hnone]
  · have hq : inQueue port classB x = true := List.find?_some hx
    have hexec : exec (.frameLaunch port classB) s = .next (if !x.judged then judgeHead port classB s
        else if x.late || decide (s.untilLaunch x ≤ 0) then sendFrame x (popHead port classB s) else s) := by
      refine (withUnit_lt hp _).trans (congrArg Host.Outcome.next ?_)
      unfold launchHead
      rw [hx]
    refine ⟨fun hj hl hd => ?_, fun hj h => ?_, fun hj => ?_, fun rest hl hj => ⟨fun h hr => judgeHead_drops hl hq hj h hr,
      fun h0 h1 hr => judgeHead_late hl hq hj h0 h1 hr, fun h0 h1 hlate => judgeHead_waits hl hq hj h0 h1 hlate⟩⟩
    · exact hexec.trans (congrArg Host.Outcome.next ((if_neg (by simp [hj])).trans (if_neg (by simpa [hl] using hd))))
    · exact hexec.trans (congrArg Host.Outcome.next ((if_neg (by simp [hj])).trans (if_pos (by simpa using h))))
    · exact hexec.trans (congrArg Host.Outcome.next (if_pos (by simp [hj])))
  · refine ⟨fun id f q ts samples h => ?_, fun f q ts hm he hl hid hf hgap => ?_, withUnit_lt ht _, withUnit_lt ht _⟩
    · refine (withUnit_lt ht _).trans (congrArg Host.Outcome.next (if_neg fun hall => h ?_))
      simpa [and_assoc] using hall
    · exact ⟨_, (withUnit_lt ht _).trans (congrArg Host.Outcome.next (if_pos (by simpa [hm, he, hl, hf] using hid))), listenerTakes_fresh hgap ts⟩
  · intro x
    have hconnect : ∀ id, exec (.acmpConnect t id) s = .next (acmpBind t id s) := fun id =>
      (withUnit_lt ht _).trans (congrArg Host.Outcome.next (taken_of_acting _ _ hm hc))
    have hformat : ∀ ctl f, exec (.setStreamFormat ctl t f) s = .next (setStreamFormat ctl t f s) := fun _ _ =>
      (withUnit_lt ht _).trans (congrArg Host.Outcome.next (taken_of_acting _ _ hm hc))
    obtain ⟨hgone, hclose, hanswer⟩ := acmpUnbind_unbinds t s
    refine ⟨fun hl id => (hconnect id).trans (congrArg Host.Outcome.next (if_pos (by simp [show (s.stm t).listener = false from hl]))),
      fun hl id => ⟨fun i hi => ?_, fun hnone => ⟨fun i s1 ho => ?_, fun ho => ?_⟩, fun i => bindStream_binds t i id s⟩,
      ⟨_, (withUnit_lt ht _).trans (congrArg Host.Outcome.next (taken_of_acting _ _ hm hc)), congrArg Stm.connected hgone, congrArg Stm.bound hgone,
        congrArg Stm.sess hgone, fun h => (congrArg Stm.streamId hgone).trans (if_pos h), hclose, hanswer⟩,
      (withUnit_lt ht _).trans (congrArg Host.Outcome.next (taken_of_acting _ _ hm hc)),
      fun ctl => (withUnit_lt ht _).trans (congrArg Host.Outcome.next (taken_of_acting _ _ hm hc)),
      fun ctl f h0 hok => ⟨_, hformat ctl f, ?_⟩, fun ctl f h => (hformat ctl f).trans (congrArg Host.Outcome.next (setStreamFormat_refuses h)),
      fun h1 h8 hf => ⟨formatOk_streamFormat s h1 h8 hf, congrArg AafFormat.channels (readFormat_streamFormat s x h8)⟩,
      fun ctl => (withUnit_lt ht _).trans (congrArg Host.Outcome.next (taken_of_acting _ _ hm hc)),
      fun ctl => (withUnit_lt ht _).trans (congrArg Host.Outcome.next (taken_of_acting _ _ hm hc))⟩
    · exact (hconnect id).trans (congrArg Host.Outcome.next (acmpBind_kept hl hi))
    · exact (hconnect id).trans (congrArg Host.Outcome.next (acmpBind_opens hl hnone ho))
    · exact (hconnect id).trans (congrArg Host.Outcome.next (acmpBind_full hl hnone ho))
    · exact setStreamFormat_sets h0 hok
  · refine ⟨?_, fun h => congrArg Host.Outcome.next (if_neg h), fun h => congrArg Host.Outcome.next (if_pos h), rfl,
      fun h => congrArg Host.Outcome.next (if_neg (ne_true_of_eq_false h)), fun h => congrArg Host.Outcome.next (if_pos h)⟩
    intro h
    unfold State.mclkOut
    rw [bne_iff_ne.2 h, Bool.and_true]
  · have hdone : ∀ m f, .next (taken m f s) = (.next (f s) : Outcome) := fun _ _ => congrArg Host.Outcome.next (taken_of_acting _ _ hm hc)
    refine ⟨hdone _ _, hdone _ _, fun ty ix => hdone _ _, fun rel => ⟨_, hdone _ _, ?_⟩, fun un => ⟨_, hdone _ _, ?_⟩⟩
    · unfold acquireEntity
      dsimp only
      split <;> rfl
    · unfold lockEntity
      dsimp only
      split <;> rfl

end Sys2Proof.Machine
end


section
/-! PROOFS. The Health Monitor and the tamper sources (R430 to R434, R449 to R461). -/

namespace Sys2Proof.Machine

/-- What every step of a fold keeps, the fold keeps. -/
theorem foldl_keeps {α β : Type} (p : State → β) (f : State → α → State) (h : ∀ s x, p (f s x) = p s) (l : List α) (s : State) :
    p (l.foldl f s) = p s := by
  induction l generalizing s with
  | nil => rfl
  | cons x l ih => exact (ih (f s x)).trans (h s x)

-- the ledger and the supply (R453 to R455, R465) ----------------------------------------------------------------------------------------

theorem hwPostNew_onlyPosts (producer q : Nat) (s : State) : OnlyPosts s (hwPostNew producer q s) :=
  (show OnlyPosts s s.fresh.fresh from ⟨_, _, _, rfl⟩).trans (hwPost_onlyPosts _ _ _ _)

/-- A post leaves everything but the Dispatcher's. -/
theorem OnlyPosts.keeps {s t : State} (h : OnlyPosts s t) :
    t.health = s.health ∧ t.courses = s.courses ∧ t.bays = s.bays ∧ t.time = s.time ∧ t.vault = s.vault ∧ t.dac = s.dac := by
  obtain ⟨_, _, _, rfl⟩ := h
  exact ⟨rfl, rfl, rfl, rfl, rfl, rfl⟩

/-- A write of the setpoint: it takes the value when it is acknowledged, and stays otherwise. -/
theorem writeSetpoint_sets (v : Nat) (ack : Bool) (s : State) : let t := writeSetpoint v ack s
    t.health = { s.health with setpoint := if ack then v else s.health.setpoint, wanted := v, pmbusFail := !ack } ∧
      t.courses = s.courses ∧ t.bays = s.bays ∧ t.time = s.time := by
  unfold writeSetpoint
  cases ack with
  | true =>
    dsimp only
    rw [if_pos rfl]
    split
    · obtain ⟨hh, hc, hb, ht, _⟩ := (hwPostNew_onlyPosts 4 4 _).keeps
      exact ⟨hh, hc, hb, ht⟩
    · exact ⟨rfl, rfl, rfl, rfl⟩
  | false =>
    dsimp only
    rw [if_neg Bool.false_ne_true]
    split
    · exact ⟨rfl, rfl, rfl, rfl⟩
    · obtain ⟨hh, hc, hb, ht, _⟩ := (hwPostNew_onlyPosts 4 4 _).keeps
      exact ⟨hh, hc, hb, ht⟩

/-- The value of a retry is still allowed. -/
theorem retryValue_le (h : Health) : h.retryValue ≤ Nat.max h.setpoint h.vmax ∧ (h.avsEn = false → h.retryValue ≤ h.setpoint) := by
  have h1 : h.setpoint ≤ Nat.max h.setpoint h.vmax := Nat.le_max_left _ _
  have h2 : h.vmax ≤ Nat.max h.setpoint h.vmax := Nat.le_max_right _ _
  unfold Health.retryValue
  split
  next hlt =>
    split
    · exact ⟨by omega, fun _ => by omega⟩
    · exact ⟨h1, fun _ => Nat.le_refl _⟩
  next hle =>
    split
    next hok =>
      obtain ⟨hen, hw⟩ := Bool.and_eq_true_iff.1 hok
      exact ⟨Nat.le_trans (of_decide_eq_true hw) h2, fun hoff => absurd hen (ne_true_of_eq_false hoff)⟩
    · exact ⟨h1, fun _ => Nat.le_refl _⟩

/-- An hour is counted, and kept in the ledger, or owed to it. -/
theorem hourlyLedger_counts (s : State) : let t := hourlyLedger s
    t.health.poweredHours = s.health.poweredHours + 1 ∧
    (s.condDown = false → t.health.ledgerCopy = !s.health.ledgerCopy ∧ t.health.ledgerSeq = s.health.ledgerSeq + 1 ∧ t.health.ledgerDue = false) ∧
    (s.condDown = true → t.health.ledgers = s.health.ledgers ∧ t.health.ledgerCopy = s.health.ledgerCopy ∧ t.health.ledgerDue = true) := by
  let s0 : State := { s with health := { s.health with poweredHours := s.health.poweredHours + 1 } }
  have hh : ((List.range 8).foldl countHour s0).health = s0.health := foldl_keeps State.health countHour (fun _ _ => rfl) _ _
  have hm : ((List.range 8).foldl countHour s0).condDown = s.condDown := foldl_keeps State.condDown countHour (fun _ _ => rfl) _ s0
  unfold hourlyLedger writeLedger
  generalize (List.range 8).foldl countHour s0 = s1 at hh hm ⊢
  dsimp only
  rw [hm]
  split
  next hc => exact ⟨congrArg Health.poweredHours hh, fun h => absurd hc (ne_true_of_eq_false h),
    fun _ => ⟨(congrArg Health.ledgers hh :), (congrArg Health.ledgerCopy hh :), rfl⟩⟩
  next hc => exact ⟨congrArg Health.poweredHours hh, fun _ => ⟨(congrArg (fun h : Health => !h.ledgerCopy) hh :),
    (congrArg (fun h : Health => h.ledgerSeq + 1) hh :), rfl⟩, fun h => absurd h hc⟩

-- a period (R449, R454, R457, R458, R460) -----------------------------------------------------------------------------------------------

/-- What the later parts of a period leave: the supply, the Bays, the time and the temperatures. -/
def KeepsReadings (s t : State) : Prop :=
  t.health = s.health ∧ t.bays = s.bays ∧ t.time = s.time ∧ ∀ c, (t.course c).temp = (s.course c).temp

theorem KeepsReadings.refl (s : State) : KeepsReadings s s := ⟨rfl, rfl, rfl, fun _ => rfl⟩

theorem KeepsReadings.trans {s t u : State} (h : KeepsReadings s t) (g : KeepsReadings t u) : KeepsReadings s u := by
  obtain ⟨h1, h2, h3, h4⟩ := h
  obtain ⟨g1, g2, g3, g4⟩ := g
  exact ⟨g1.trans h1, g2.trans h2, g3.trans h3, fun c => (g4 c).trans (h4 c)⟩

theorem foldl_keepsReadings {α : Type} {f : State → α → State} (h : ∀ s x, KeepsReadings s (f s x)) (l : List α) (s : State) :
    KeepsReadings s (l.foldl f s) := by
  induction l generalizing s with
  | nil => exact .refl s
  | cons x l ih => exact (h s x).trans (ih (f s x))

/-- A Course's record with the same temperature. -/
theorem setCourse_keepsReadings {c : Nat} {x : Course} {s : State} (h : x.temp = (s.course c).temp) : KeepsReadings s (s.setCourse c x) := by
  refine ⟨rfl, rfl, rfl, fun d => ?_⟩
  obtain rfl | hne := eq_or_ne d c
  · rw [State.setCourse_same]
    exact h
  · rw [State.setCourse_other _ _ _ _ hne]

theorem dueRetire_keepsReadings (cause : Nat) (s : State) (k : Nat) : KeepsReadings s (dueRetire cause s k) := by
  unfold dueRetire
  split
  · exact .refl s
  · exact ⟨rfl, rfl, rfl, fun _ => rfl⟩

theorem slackCore_keepsReadings (vmax : Bool) (slacks : List Int) (s : State) (k : Nat) : KeepsReadings s (slackCore vmax slacks s k) := by
  unfold slackCore
  dsimp only
  split
  · split
    · exact setCourse_keepsReadings rfl
    · refine KeepsReadings.trans ?_ (dueRetire_keepsReadings _ _ _)
      exact setCourse_keepsReadings rfl
  · exact setCourse_keepsReadings rfl

theorem stepCourse_keepsReadings (vmax : Bool) (s : State) (c : Nat) : KeepsReadings s (stepCourse vmax s c) := by
  unfold stepCourse
  dsimp only
  generalize (if 100 < (s.course c).slack then some ((s.course c).goodFrom.getD s.health.periodAt) else none) = good
  split
  · exact setCourse_keepsReadings rfl
  split
  · exact setCourse_keepsReadings rfl
  split
  · exact setCourse_keepsReadings rfl
  · exact setCourse_keepsReadings rfl

theorem startRecal_keepsReadings (d : Nat) (s : State) : KeepsReadings s (startRecal d s) := by
  unfold startRecal
  split
  · exact ⟨rfl, rfl, rfl, fun _ => rfl⟩
  · exact .refl s

theorem recalOnTemp_keepsReadings (s : State) : KeepsReadings s (recalOnTemp s) := by
  refine foldl_keepsReadings (fun s d => ?_) _ s
  split
  · exact startRecal_keepsReadings d s
  · exact .refl s

/-- Every Course of the list takes its temperature. -/
theorem foldl_measureCourse_temp (r : HealthReading) (vdd : List Nat) (ring : Bool) {c : Nat} (l : List Nat) (hl : l.Nodup) (s : State) :
    ((l.foldl (measureCourse r vdd ring) s).course c).temp = if c ∈ l then r.temps.getD c (s.course c).temp else (s.course c).temp := by
  induction l generalizing s with
  | nil => rfl
  | cons d l ih =>
    obtain ⟨hd, hl⟩ := List.nodup_cons.1 hl
    rw [List.foldl_cons, ih hl]
    obtain rfl | hne := eq_or_ne c d
    · rw [if_neg hd, if_pos List.mem_cons_self]
      exact congrArg Course.temp (State.setCourse_same s c _)
    · have hother : (measureCourse r vdd ring s d).course c = s.course c := State.setCourse_other _ _ _ _ hne
      simp only [hother, List.mem_cons, hne, false_or]

theorem measureAll_temp (r : HealthReading) (vdd : List Nat) {c : Nat} (hc : c < 8) (s : State) :
    ((measureAll r vdd s).course c).temp = r.temps.getD c (s.course c).temp :=
  (foldl_measureCourse_temp r vdd _ _ List.nodup_range s).trans (if_pos (List.mem_range.2 hc))

/-- A measurement leaves the supply's registers. -/
theorem measureAll_keeps (r : HealthReading) (vdd : List Nat) (s : State) : let t := measureAll r vdd s
    (∃ x y, t.health = { s.health with central := x, ringAt := y }) ∧ t.bays = s.bays ∧ t.time = s.time := by
  have hh : ((List.range 8).foldl (measureCourse r vdd (ringDue s)) s).health = s.health := foldl_keeps State.health (measureCourse r vdd (ringDue s)) (fun _ _ => rfl) _ _
  have hb : ((List.range 8).foldl (measureCourse r vdd (ringDue s)) s).bays = s.bays := foldl_keeps State.bays (measureCourse r vdd (ringDue s)) (fun _ _ => rfl) _ _
  have ht : ((List.range 8).foldl (measureCourse r vdd (ringDue s)) s).time = s.time := foldl_keeps State.time (measureCourse r vdd (ringDue s)) (fun _ _ => rfl) _ _
  exact ⟨⟨r.temps.getD 8 s.health.central, if ringDue s then some s.time.deviceTime else s.health.ringAt, congrArg (fun h : Health => {
    h with central := r.temps.getD 8 s.health.central, ringAt := if ringDue s then some s.time.deviceTime else s.health.ringAt }) hh⟩, hb, ht⟩

/-- The setpoint that is asked for is within the limits; held, it is the one that stands. -/
theorem wantSetpoint_le (w : Int) (s : State) : wantSetpoint w s ≤ Nat.max s.health.setpoint s.health.vmax ∧
    (s.health.avsEn = false ∨ s.health.pmbusFail = true → wantSetpoint w s = s.health.setpoint) := by
  have h1 : s.health.setpoint ≤ Nat.max s.health.setpoint s.health.vmax := Nat.le_max_left _ _
  have h2 : s.health.vmax ≤ Nat.max s.health.setpoint s.health.vmax := Nat.le_max_right _ _
  unfold wantSetpoint
  dsimp only
  split
  · exact ⟨h1, fun _ => rfl⟩
  next hgo =>
    have hno : ¬ (s.health.avsEn = false ∨ s.health.pmbusFail = true) := fun h => hgo (by simpa using h)
    split
    · exact ⟨Nat.le_trans (Nat.min_le_right _ _) h2, fun h => (hno h).elim⟩
    split
    next h => exact ⟨Nat.max_le.2 ⟨by omega, by omega⟩, fun h => (hno h).elim⟩
    · exact ⟨h1, fun _ => rfl⟩

theorem supplyDev_keeps (off25 : List Bool) (s : State) : let t := supplyDev off25 s
    (∃ d, t.health = { s.health with supplyDev := d }) ∧ t.courses = s.courses ∧ t.bays = s.bays ∧ t.time = s.time := by
  unfold supplyDev
  dsimp only
  split
  · exact ⟨⟨_, rfl⟩, rfl, rfl, rfl⟩
  · obtain ⟨hh, hc, hb, ht, _⟩ := (hwPostNew_onlyPosts 4 4 _).keeps
    exact ⟨⟨_, hh⟩, hc, hb, ht⟩

/-- The end of a period: what it has measured, and a setpoint that it wrote or held. -/
theorem periodEnd_ends (r : HealthReading) (vdd : List Nat) (off25 : List Bool) (ack : Bool) (s : State) : let t := periodEnd r vdd off25 ack s
    (t.health.vmax = s.health.vmax ∧ t.health.clkAlarms = s.health.clkAlarms ∧ t.health.periodAt = s.time.deviceTime) ∧ t.bays = s.bays ∧
    (∀ c, c < 8 → (t.course c).temp = r.temps.getD c (s.course c).temp) ∧ t.health.setpoint ≤ Nat.max s.health.setpoint s.health.vmax ∧
    (s.health.avsEn = false ∨ s.health.pmbusFail = true ∨ ack = false → t.health.setpoint = s.health.setpoint) := by
  obtain ⟨⟨x, y, hh⟩, hb, _⟩ := measureAll_keeps r vdd s
  have htemp : ∀ c, c < 8 → ((measureAll r vdd s).course c).temp = r.temps.getD c (s.course c).temp := fun c hc => measureAll_temp r vdd hc s
  unfold periodEnd
  dsimp only
  generalize measureAll r vdd s = s1 at hh hb htemp ⊢
  obtain ⟨hle, hheld⟩ := wantSetpoint_le (worstOf r.slacks s1 (List.range 64)) s1
  generalize wantSetpoint (worstOf r.slacks s1 (List.range 64)) s1 = want at hle hheld ⊢
  rw [hh] at hle hheld
  have hw : ∀ s2, s2 = (if want = s1.health.setpoint then s1 else writeSetpoint want ack s1) →
      s2.health.vmax = s.health.vmax ∧ s2.health.clkAlarms = s.health.clkAlarms ∧ s2.courses = s1.courses ∧ s2.bays = s.bays ∧
      s2.health.setpoint ≤ Nat.max s.health.setpoint s.health.vmax ∧
      (s.health.avsEn = false ∨ s.health.pmbusFail = true ∨ ack = false → s2.health.setpoint = s.health.setpoint) := by
    rintro s2 rfl
    split
    · rw [hh]
      exact ⟨rfl, rfl, rfl, hb, Nat.le_max_left _ _, fun _ => rfl⟩
    next hne =>
      obtain ⟨wh, wc, wb, _⟩ := writeSetpoint_sets want ack s1
      rw [wh, hh]
      refine ⟨rfl, rfl, wc, wb.trans hb, ?_, fun h => ?_⟩
      · dsimp only
        split
        · exact hle
        · exact Nat.le_max_left _ _
      · have hack : ack = false := by
          obtain h | h | h := h
          · exact absurd ((hheld (.inl h)).trans (congrArg Health.setpoint hh).symm) hne
          · exact absurd ((hheld (.inr h)).trans (congrArg Health.setpoint hh).symm) hne
          · exact h
        rw [hack]
        rfl
  obtain ⟨w1, w2, w3, w4, w5, w6⟩ := hw _ rfl
  generalize (if want = s1.health.setpoint then s1 else writeSetpoint want ack s1) = s2 at w1 w2 w3 w4 w5 w6 ⊢
  obtain ⟨⟨dev, d1⟩, d2, d3, _⟩ := supplyDev_keeps off25 s2
  generalize supplyDev off25 s2 = s3 at d1 d2 d3 ⊢
  obtain ⟨k1, k2, _, k4⟩ := ((foldl_keepsReadings (slackCore_keepsReadings s1.atVmax r.slacks) (List.range 64) s3).trans
    (foldl_keepsReadings (stepCourse_keepsReadings s1.atVmax) (List.range 8) _)).trans (recalOnTemp_keepsReadings _)
  generalize recalOnTemp _ = s5 at k1 k2 k4 ⊢
  refine ⟨⟨?_, ?_, rfl⟩, k2.trans (d3.trans w4), fun c hc => ?_, ?_, fun h => ?_⟩
  · rw [k1, d1]
    exact w1
  · rw [k1, d1]
    exact w2
  · have hc3 : s3.course c = s1.course c := congrArg (fun cs : Tab Course => cs.look c {}) (d2.trans w3)
    exact (k4 c).trans ((congrArg Course.temp hc3).trans (htemp c hc))
  · rw [k1, d1]
    exact w5
  · rw [k1, d1]
    exact w6 h

-- Courses and their cycles (R450, R451, R456) ------------------------------------------------------------------------------------------

/-- A Course alarm is the newest event of its Bay. -/
theorem courseEvent_reports (c : Nat) (s : State) : ((courseEvent c s).bay (s.courseBay c)).events =
    (s.bay (s.courseBay c)).events ++ [(5, 8 * (c - (s.bay (s.courseBay c)).first.toNat))] :=
  congrArg Bay.events (State.setBay_same s _ _)

/-- The lane tests that end give up their tasks, on the cores of the list. -/
theorem foldl_giveUp_tasks (keep : Nat × Task → Bool) (l : List Nat) (s : State) (k : Nat) :
    ((l.foldl (fun s k => s.setCore k { s.core k with tasks := (s.core k).tasks.filter keep }) s).core k).tasks =
      if k ∈ l then (s.core k).tasks.filter keep else (s.core k).tasks := by
  induction l generalizing s with
  | nil => rfl
  | cons j l ih =>
    rw [List.foldl_cons, ih]
    obtain rfl | hne := eq_or_ne k j
    · rw [State.setCore_same, if_pos List.mem_cons_self]
      split
      · simp
      · rfl
    · rw [State.setCore_other _ _ _ _ hne]
      simp only [List.mem_cons, hne, false_or]

theorem laneTests_gives_up {c : Nat} (s : State) (k : Nat) :
    ((laneTests c false s).core k).tasks = if k / 8 = c then (s.core k).tasks.filter (fun p => p.2.kind != 2) else (s.core k).tasks := by
  have hmem : k ∈ (List.range 8).map (fun i => 8 * c + i) ↔ k / 8 = c := by
    simp only [List.mem_map, List.mem_range]
    exact ⟨fun ⟨i, hi, h⟩ => by omega, fun h => ⟨k % 8, by omega, by omega⟩⟩
  refine (foldl_giveUp_tasks (fun p => p.2.kind != 2) ((List.range 8).map fun i => 8 * c + i) s k).trans ?_
  simp only [hmem]

-- tamper sources (R430 to R434) ---------------------------------------------------------------------------------------------------------

theorem zeroise_vault (b : Nat) (s : State) : (zeroise b s).vault = s.vault := by
  unfold zeroise wipeBank wakeBank
  dsimp only
  split <;> rfl

theorem sweepBanks_vault (ns : List Nat) (s : State) : (sweepBanks ns s).vault = s.vault := by
  refine foldl_keeps State.vault _ (fun s n => ?_) ns s
  split
  · exact zeroise_vault n s
  · rfl

theorem removePackages_vault (f : Nat → Bool) (s : State) : ∃ cks, (removePackages f s).vault = { s.vault with cks := cks } := by
  have hd : ∀ (l : List Nat) (s : State), (l.foldl (fun s k => demote (k / 2 ^ 32) (k % 2 ^ 32) s) s).vault = s.vault := fun l s =>
    foldl_keeps State.vault (fun s k => demote (k / 2 ^ 32) (k % 2 ^ 32) s) (fun s k => sweepBanks_vault _ _) l s
  unfold removePackages
  dsimp only
  rw [hd]
  exact ⟨_, rfl⟩

/-- Wiping the Vault takes its keys and its working area. -/
theorem wipeVault_vault (s : State) : ∃ mks cks work, (wipeVault s).vault = { s.vault with mks := mks, cks := cks, work := work } := by
  have hz : (zeroiseSecure s).vault = s.vault := by
    refine foldl_keeps State.vault _ (fun s n => ?_) _ s
    split
    · exact zeroise_vault n s
    · rfl
  unfold wipeVault
  dsimp only
  obtain ⟨cks, h⟩ := removePackages_vault (List.contains (((zeroiseSecure s).mem.pkgs.filter fun p => p.2).map fun p => p.1)) (zeroiseSecure s)
  rw [h, hz]
  exact ⟨_, _, _, rfl⟩

/-- An alarm raises the level of the device, locks the keys from level 2 on, and leaves the log. -/
theorem raiseLevel_raises (main : Bool) (level : Nat) (s : State) : let t := raiseLevel main level s
    t.vault.active = s.vault.active ∧ t.vault.log = s.vault.log ∧ t.vault.level = BitVec.ofNat 2 (Nat.max s.vault.level.toNat level) ∧
      t.vault.keylock = (s.vault.keylock || decide (2 ≤ level)) := by
  unfold raiseLevel
  dsimp only
  split
  · exact ⟨rfl, rfl, rfl, rfl⟩
  split
  · split
    · exact ⟨rfl, rfl, rfl, rfl⟩
    · exact ⟨rfl, rfl, rfl, rfl⟩
  · split
    · obtain ⟨mks, cks, work, h⟩ := wipeVault_vault { s with vault := { s.vault with
        level := BitVec.ofNat 2 (Nat.max s.vault.level.toNat level), keylock := s.vault.keylock || decide (2 ≤ level) } }
      rw [h]
      exact ⟨rfl, rfl, rfl, rfl⟩
    · exact ⟨rfl, rfl, rfl, rfl⟩

/-- Numbers below `n` that are chosen, as the bits of a mask. -/
theorem testBit_sumOfBits (p : Nat → Bool) (n i : Nat) : let m := ((List.range n).filter p).foldl (fun a i => a + 2 ^ i) 0
    m < 2 ^ n ∧ m.testBit i = (decide (i < n) && p i) := by
  induction n with
  | zero => simp
  | succ n ih =>
    obtain ⟨hlt, hbit⟩ := ih
    rw [List.range_succ, List.filter_append, List.foldl_append]
    generalize ((List.range n).filter p).foldl (fun a i => a + 2 ^ i) 0 = m at hlt hbit ⊢
    have hp : 2 ^ (n + 1) = 2 * 2 ^ n := Nat.pow_succ'
    by_cases hn : p n = true
    · rw [List.filter_cons_of_pos hn, List.filter_nil, List.foldl_cons, List.foldl_nil, Nat.add_comm m]
      refine ⟨by omega, ?_⟩
      obtain h | rfl | h := Nat.lt_trichotomy i n
      · rw [Nat.testBit_two_pow_add_gt h, hbit]
        simp [h, Nat.lt_succ_of_lt h]
      · rw [Nat.testBit_two_pow_add_eq, Nat.testBit_lt_two_pow hlt]
        simp [hn]
      · rw [Nat.testBit_lt_two_pow (Nat.lt_of_lt_of_le (by omega : 2 ^ n + m < 2 ^ (n + 1)) (Nat.pow_le_pow_right (by omega) h))]
        simp [Nat.not_lt.2 h]
    · rw [List.filter_cons_of_neg hn, List.filter_nil, List.foldl_nil]
      refine ⟨by omega, hbit.trans ?_⟩
      obtain h | rfl | h := Nat.lt_trichotomy i n
      · simp [h, Nat.lt_succ_of_lt h]
      · simp [hn]
      · simp [Nat.not_lt.2 h, Nat.not_lt.2 (Nat.le_of_lt h)]

/-- The greatest level of a list of sources: at least that of each, and at most 3. -/
theorem foldl_max_level (s : State) (l : List Nat) (a : Nat) (ha : a ≤ 3) : let m := l.foldl (fun a i => Nat.max a (sourceLevel s i)) a
    a ≤ m ∧ m ≤ 3 ∧ ∀ i ∈ l, sourceLevel s i ≤ m := by
  induction l generalizing a with
  | nil => exact ⟨Nat.le_refl a, ha, fun _ h => absurd h List.not_mem_nil⟩
  | cons j l ih =>
    have hj : sourceLevel s j ≤ 3 := Nat.le_of_lt_succ (Nat.mod_lt _ (by decide))
    obtain ⟨h1, h2, h3⟩ := ih (Nat.max a (sourceLevel s j)) (Nat.max_le.2 ⟨ha, hj⟩)
    refine ⟨Nat.le_trans (Nat.le_max_left _ _) h1, h2, fun i hi => ?_⟩
    obtain rfl | hi := List.mem_cons.1 hi
    · exact Nat.le_trans (Nat.le_max_right _ _) h1
    · exact h3 i hi

/-- The entry of a raised source, which `logAlarm` puts in front. -/
def alarmEntry (main : Bool) (time : BitVec 64) (s : State) (i : Nat) : AlarmEnt :=
  { source := i, level := BitVec.ofNat 2 (sourceLevel s i), slow := !main, time := if main then s.time.deviceTime else time }

theorem logAlarm_log (main : Bool) (time : BitVec 64) (s : State) (i : Nat) :
    (logAlarm main time s i).vault.log = (alarmEntry main time s i :: s.vault.log).take 128 := rfl

/-- What stands at the front of the log stays in it while there is room for the alarms that come. -/
theorem foldl_logAlarm_keeps (main : Bool) (time : BitVec 64) {x : AlarmEnt} (l : List Nat) (n : Nat) {s : State} (hn : n + l.length ≤ 128)
    (hx : x ∈ s.vault.log.take n) : x ∈ (l.foldl (logAlarm main time) s).vault.log := by
  induction l generalizing n s with
  | nil => exact List.mem_of_mem_take hx
  | cons i l ih =>
    rw [List.length_cons] at hn
    refine ih (n + 1) (by omega) ?_
    rw [logAlarm_log, List.take_take, Nat.min_eq_left (by omega), List.take_succ_cons]
    exact List.mem_cons_of_mem _ hx

/-- Each source that is raised is logged with its level. -/
theorem foldl_logAlarm_logs (main : Bool) (time : BitVec 64) {i : Nat} (l : List Nat) {s : State} (hn : l.length < 128) (hi : i ∈ l) :
    ∃ x ∈ (l.foldl (logAlarm main time) s).vault.log, x.source = i ∧ x.level.toNat = sourceLevel s i ∧ x.slow = !main := by
  induction l generalizing s with
  | nil => exact absurd hi List.not_mem_nil
  | cons j l ih =>
    rw [List.length_cons] at hn
    obtain rfl | hi := List.mem_cons.1 hi
    · exact ⟨alarmEntry main time s i, foldl_logAlarm_keeps main time l 1 (by omega) (List.mem_singleton_self _), rfl,
        Nat.mod_eq_of_lt (Nat.mod_lt _ (by decide)), rfl⟩
    · exact ih (by omega) hi

/-- The sources that turn active now. -/
def State.newSources (s : State) (src : BitVec 6) (tin : List (Bool × Bool)) (main : Bool) (time : BitVec 64) (i : Nat) : Bool :=
  s.sourceHolds src tin main time i && !s.vault.active.getLsbD i && monitored s main i

/-- A source that turns active is marked and logged with its level, to which the device's level rises. -/
theorem raiseSources_raises {src : BitVec 6} {tin : List (Bool × Bool)} {main : Bool} {time : BitVec 64} {s : State} {i : Nat} (hi : i < 6)
    (h : s.newSources src tin main time i = true) : let t := raiseSources src tin main time s
    t.vault.active.getLsbD i = true ∧ s.vault.level.toNat ≤ t.vault.level.toNat ∧ sourceLevel s i ≤ t.vault.level.toNat ∧
      (2 ≤ sourceLevel s i → t.vault.keylock = true) ∧ ∃ x ∈ t.vault.log, x.source = i ∧ x.level.toNat = sourceLevel s i ∧ x.slow = !main := by
  have hmem : i ∈ (List.range 6).filter (s.newSources src tin main time) := List.mem_filter.2 ⟨List.mem_range.2 hi, h⟩
  obtain ⟨_, hbit⟩ := testBit_sumOfBits (s.newSources src tin main time) 6 i
  obtain ⟨_, hle3, hge⟩ := foldl_max_level s ((List.range 6).filter (s.newSources src tin main time)) 0 (Nat.zero_le 3)
  have hlen : ((List.range 6).filter (s.newSources src tin main time)).length < 128 :=
    Nat.lt_of_le_of_lt (List.length_filter_le _ _) (by decide)
  unfold raiseSources
  rw [show (List.range 6).filter (fun i => s.sourceHolds src tin main time i && !s.vault.active.getLsbD i && monitored s main i) =
    (List.range 6).filter (s.newSources src tin main time) from rfl]
  generalize (List.range 6).filter (s.newSources src tin main time) = new at hmem hbit hle3 hge hlen ⊢
  have hactive : (s.vault.active ||| BitVec.ofNat 6 (new.foldl (fun a i => a + 2 ^ i) 0)).getLsbD i = true := by
    rw [BitVec.getLsbD_or, BitVec.getLsbD_ofNat, hbit, h]
    simp [hi]
  dsimp only
  rw [if_neg (by simpa using List.ne_nil_of_mem hmem)]
  let s1 : State := { s with vault := { s.vault with
    active := s.vault.active ||| BitVec.ofNat 6 (new.foldl (fun a i => a + 2 ^ i) 0),
    raised := s.vault.raised ||| BitVec.ofNat 6 (new.foldl (fun a i => a + 2 ^ i) 0), vbatOk := s.vault.vbatOk && !new.contains 5 } }
  let level := new.foldl (fun a i => Nat.max a (sourceLevel s i)) 0
  have hpost : ∀ t : State, (if main then new.foldl (fun s _ => hwPostNew 3 4 s) t else t).vault = t.vault := fun t => by
    split
    · exact foldl_keeps State.vault _ (fun s _ => (hwPostNew_onlyPosts 3 4 s).keeps.2.2.2.2.1) new t
    · rfl
  obtain ⟨r1, r2, r3, r4⟩ := raiseLevel_raises main level (new.foldl (logAlarm main time) s1)
  have hkept : ∀ {β : Type} (p : State → β), (∀ s i, p (logAlarm main time s i) = p s) → p (new.foldl (logAlarm main time) s1) = p s1 :=
    fun p hp => foldl_keeps p _ hp new s1
  have hlevel : (BitVec.ofNat 2 (Nat.max s.vault.level.toNat level)).toNat = Nat.max s.vault.level.toNat level :=
    Nat.mod_eq_of_lt (Nat.lt_of_le_of_lt (Nat.max_le.2 ⟨Nat.le_of_lt_succ s.vault.level.isLt, hle3⟩) (by decide))
  rw [hpost, r1, r2, r3, r4, hkept (fun s => s.vault.active) fun _ _ => rfl, hkept (fun s => s.vault.level) fun _ _ => rfl]
  rw [show s1.vault.level = s.vault.level from rfl, hlevel]
  refine ⟨hactive, Nat.le_max_left _ _, Nat.le_trans (hge i hmem) (Nat.le_max_right _ _), fun h2 => ?_, foldl_logAlarm_logs main time new hlen hmem⟩
  rw [decide_eq_true (Nat.le_trans h2 (hge i hmem)), Bool.or_true]

/-- Without a source that turns active nothing is raised. -/
theorem raiseSources_none {src : BitVec 6} {tin : List (Bool × Bool)} {main : Bool} {time : BitVec 64} {s : State}
    (h : ∀ i, i < 6 → s.newSources src tin main time i = false) : raiseSources src tin main time s = s := by
  have hnil : (List.range 6).filter (fun i => s.sourceHolds src tin main time i && !s.vault.active.getLsbD i && monitored s main i) = [] :=
    List.filter_eq_nil_iff.2 fun i hi => ne_true_of_eq_false (h i (List.mem_range.1 hi))
  unfold raiseSources
  rw [hnil]
  rfl

/-- Settles O59: the supply by `writeSetpoint_sets` and `periodEnd_ends`, the Courses by their rows, the sources by `raiseSources_raises`. -/
theorem healthAndTamper : Obligations.HealthAndTamper := by
  refine ⟨⟨fun s => ?_, fun c s hc => ?_⟩, fun src tin main time s => ?_, fun i s hi => ?_⟩
  · have hretry : s.health.pmbusFail = true → ∀ a, exec (.pmbusRetry a) s = .next (writeSetpoint s.health.retryValue a s) := fun h a =>
      congrArg Host.Outcome.next (if_pos h)
    obtain ⟨hle, hoff⟩ := retryValue_le s.health
    refine ⟨⟨_, rfl, hourlyLedger_counts s⟩, fun a h => congrArg Host.Outcome.next (if_neg (ne_true_of_eq_false h)),
      fun h => ⟨⟨_, hretry h true, ?_⟩, ⟨_, hretry h false, ?_⟩⟩, hle, hoff, fun h => congrArg Host.Outcome.next (if_neg fun hgo => ?_),
      fun hlt hf => ⟨_, congrArg Host.Outcome.next (if_pos ⟨hlt, hf⟩), ?_⟩, fun r vdd off25 ack => ⟨_, rfl, ?_⟩⟩
    · obtain ⟨hw, _⟩ := writeSetpoint_sets s.health.retryValue true s
      rw [hw]
      exact ⟨rfl, rfl⟩
    · obtain ⟨hw, _⟩ := writeSetpoint_sets s.health.retryValue false s
      rw [hw]
      exact ⟨rfl, rfl⟩
    · obtain h | h := h
      · omega
      · exact absurd hgo.2 (by simp [h])
    · obtain ⟨hw, _⟩ := writeSetpoint_sets (Nat.max (s.health.setpoint - 5) s.health.vmax) s.acked s.fresh
      rw [hw]
      exact ⟨rfl, rfl⟩
    · obtain ⟨⟨hvmax, _, hat⟩, _, htemps, hmax, hheld⟩ := periodEnd_ends r vdd off25 ack s
      exact ⟨hvmax, hat, htemps, hmax, hheld⟩
  · intro b
    have hcycle : ∀ r, exec (.serviceCycle c r) s = .next (if (s.bay b).mode = .service then serviceStep c r s else s) := fun _ => withUnit_lt hc _
    refine ⟨fun a ha => ?_, ⟨_, withUnit_lt hc _, rfl, courseEvent_reports c _⟩,
      fun h => (withUnit_lt hc _).trans (congrArg Host.Outcome.next (if_pos (decide_eq_true h))),
      fun h => (withUnit_lt hc _).trans (congrArg Host.Outcome.next (if_neg (by simpa [State.staleDue] using h))),
      fun r h => (hcycle r).trans (congrArg Host.Outcome.next (if_neg h)), fun hmode => ?_⟩
    · subst ha
      let s1 : State := { s with health := { s.health with clkAlarms := satInc s.health.clkAlarms } }
      have hrun : exec (.courseClockAlarm a) s = .next (periodEnd a.reading a.vdd a.off25 a.ack (courseEvent a.course s1)) := withUnit_lt hc _
      obtain ⟨⟨_, halarms, hat⟩, hbays, _⟩ := periodEnd_ends a.reading a.vdd a.off25 a.ack (courseEvent a.course s1)
      have hevents := (congrArg (fun bs : Tab Bay => (bs.look b {}).events) hbays).trans (courseEvent_reports a.course s1)
      exact ⟨_, hrun, halarms, hat, hevents⟩
    · have hrun : ∀ r, exec (.serviceCycle c r) s = .next (serviceStep c r s) := fun r => (hcycle r).trans (congrArg Host.Outcome.next (if_pos hmode))
      refine ⟨fun f h => (hrun _).trans (congrArg Host.Outcome.next (if_pos h)), fun f h => (hrun _).trans (congrArg Host.Outcome.next (if_neg h)),
        fun f h => (hrun _).trans (congrArg Host.Outcome.next (if_neg h)), fun m h => (hrun _).trans (congrArg Host.Outcome.next (if_neg h)),
        laneTests_gives_up s, fun h => (hrun _).trans (congrArg Host.Outcome.next (if_neg fun ⟨h3, hnone, hall⟩ => ?_)),
        fun h3 hnone hall => (hrun _).trans (congrArg Host.Outcome.next (if_pos ⟨h3, hnone, hall⟩))⟩
      obtain h | h | h := h
      · omega
      · exact h hnone
      · exact absurd hall (ne_true_of_eq_false h)
  · refine ⟨fun i hi => ?_, fun k hk hh => ?_, fun h => congrArg Host.Outcome.next (raiseSources_none fun i hi => ?_), fun i hi hh ha hm =>
      ⟨_, rfl, raiseSources_raises hi ?_⟩⟩
    · simp [State.sourceHolds, hi]
    · have hbroken := (Bool.and_eq_true_iff.1 hh).2
      rw [decide_eq_false (Nat.not_le.2 hk), Bool.false_or] at hbroken
      split at hbroken
      next x hx =>
        obtain ⟨h1, h2⟩ := Bool.and_eq_true_iff.1 hbroken
        exact ⟨x, hx, bne_iff_ne.1 h1, bne_iff_ne.1 h2⟩
      · exact absurd hbroken Bool.false_ne_true
    · unfold State.newSources
      cases hs : s.sourceHolds src tin main time i with
      | false => rfl
      | true => obtain h | h := h i hi hs <;> simp [h]
    · simp [State.newSources, hh, ha, hm]
  · exact ⟨_, withUnit_lt hi _, (getLsbD_setBit _ i false i hi).trans (if_pos rfl), rfl, rfl⟩

end Sys2Proof.Machine
end


section
/-! PROOFS. Resets, start-up, the end of SLEEP and the quiet outputs (R90, R300, R467 to R483, R498, R500). -/

namespace Sys2Proof.Machine

-- resets (R467 to R470) -----------------------------------------------------------------------------------------------------------------

/-- Only what the ledger holds changes: Courses, supply, cores, marks of channels and of banks. -/
def OnlyLedger (s t : State) : Prop :=
  ∃ cs h ks d bs, t = { s with courses := cs, health := h, cores := ks, dac := d, mem := { s.mem with banks := bs } }

theorem OnlyLedger.trans {s t u : State} (h : OnlyLedger s t) (g : OnlyLedger t u) : OnlyLedger s u := by
  obtain ⟨_, _, _, _, _, rfl⟩ := h
  obtain ⟨_, _, _, _, _, rfl⟩ := g
  exact ⟨_, _, _, _, _, rfl⟩

theorem foldl_onlyLedger {α : Type} {f : State → α → State} (h : ∀ s x, OnlyLedger s (f s x)) (l : List α) (s : State) :
    OnlyLedger s (l.foldl f s) := by
  induction l generalizing s with
  | nil => exact ⟨_, _, _, _, _, rfl⟩
  | cons x l ih => exact (h s x).trans (ih (f s x))

theorem loadLedger_only (old s : State) : OnlyLedger s (loadLedger old s) := by
  unfold loadLedger
  refine OnlyLedger.trans ?_ (foldl_onlyLedger (fun s n => ⟨_, _, _, _, _, rfl⟩) _ _)
  refine OnlyLedger.trans ?_ (foldl_onlyLedger (fun s d => ⟨_, _, _, _, _, rfl⟩) _ _)
  refine OnlyLedger.trans ?_ (foldl_onlyLedger (fun s p => ⟨_, _, _, _, _, rfl⟩) _ _)
  exact ⟨_, _, _, _, _, rfl⟩

/-- A mark of the ledger leaves the state of a channel. -/
theorem loadLedger_dac (old s : State) (d : Nat) : ((loadLedger old s).dacCh d).state = (s.dacCh d).state := by
  unfold loadLedger
  refine (foldl_keeps (fun s : State => (s.dacCh d).state) _ ?_ _ _).trans ((foldl_keeps (fun s : State => (s.dacCh d).state) _ ?_ _ _).trans
    (foldl_keeps (fun s : State => (s.dacCh d).state) _ ?_ _ _))
  · exact fun _ _ => rfl
  · intro s n
    obtain rfl | hne := eq_or_ne d n
    · rw [State.setDacCh_same]
    · rw [State.setDacCh_other _ _ _ _ hne]
  · exact fun _ _ => rfl

/-- A reset outside reset begins it with its cause. -/
theorem resetBy_begins {s : State} (h : s.inReset = false) (cold : Bool) (source : BitVec 5) :
    resetBy cold source s = resetState cold source s := by
  unfold resetBy
  rw [if_neg (by simp [h]), if_neg (ne_true_of_eq_false h)]

/-- What a reset sets and keeps. -/
theorem resetState_sets (cold : Bool) (cause : BitVec 5) (s : State) : let t := resetState cold cause s
    (t.power.cause = cause ∧ t.power.phase = 0 ∧ t.power.holdPor = s.power.holdPor ∧ t.power.holdWrst = s.power.holdWrst ∧
      t.power.host = (if cold then 0 else s.power.host) ∧ t.power.resets = (if cold then 0 else satInc s.power.resets) ∧
      t.power.phyRstN = false ∧ t.power.ddrRstN = false) ∧
    t.time = State.reset.time ∧ t.mbx.journal = s.mbx.journal ∧ t.mbx.switches = (if cold then 0 else s.mbx.switches) ∧
    t.mbx.epoch = State.reset.mbx.epoch ∧ t.voices = State.reset.voices ∧ t.bays = State.reset.bays ∧ t.mem.store = State.reset.mem.store ∧
    t.se = State.reset.se ∧ t.audio = State.reset.audio ∧ t.uarts = State.reset.uarts ∧ t.timers = State.reset.timers := by
  unfold resetState
  obtain ⟨_, _, _, _, _, h⟩ := loadLedger_only s { State.reset with
    mbx := { State.reset.mbx with journal := s.mbx.journal, nextJ := s.mbx.nextJ, switches := if cold then 0 else s.mbx.switches },
    vault := keptVault s.vault,
    power := { host := if cold then 0 else s.power.host, resets := if cold then 0 else satInc s.power.resets,
               cause := cause, holdPor := s.power.holdPor, holdWrst := s.power.holdWrst, bootSlot := s.power.bootSlot, headerSeq := s.power.headerSeq,
               fwVersion := s.power.fwVersion, altVersion := s.power.altVersion, fusesRead := s.power.fusesRead,
               flash := { headers := s.power.flash.headers, slots := s.power.flash.slots, copy := s.power.flash.copy } },
    freeCtr := s.freeCtr, pending := s.pending }
  dsimp only
  rw [h]
  exact ⟨⟨rfl, rfl, rfl, rfl, rfl, rfl, rfl, rfl⟩, rfl, rfl, rfl, rfl, rfl, rfl, rfl, rfl, rfl, rfl, rfl⟩

theorem resetState_dac (cold : Bool) (cause : BitVec 5) (s : State) (d : Nat) : ((resetState cold cause s).dacCh d).state = dacHiz :=
  loadLedger_dac s _ d

-- start-up (R471 to R477) --------------------------------------------------------------------------------------------------------------

/-- The header in force, of what the flash holds after a boot has looked (R473). -/
theorem found_headers (f : Flash) (a b : List Word) :
    (f.found a b).headers.look 0 [] = f.headers.look 0 a ∧ (f.found a b).headers.look 1 [] = f.headers.look 1 b :=
  ⟨(Tab.look_put_other _ 1 0 _ _ (by decide)).trans (Tab.look_put_same _ 0 _ _), Tab.look_put_same _ 1 _ _⟩

/-- A valid header is taken as the copy that is in force says. -/
theorem bootHeader_takes {a b : List Word} {s : State} {h : List Word}
    (hh : headerOf s.vault.ik (s.power.flash.headers.look 0 a) (s.power.flash.headers.look 1 b) = some h) : let t := bootHeader a b s
    t.power.phase = 3 ∧ t.power.slot = bit (h.getD 0 0) 0 ∧ t.mem.ddr = (h.getD 3 0).setWidth 8 ∧ t.power.fallback = s.power.fallback ∧
      t.power.headerSeq = h.getD 1 0 ∧ t.power.flash.octal = true := by
  obtain ⟨h0, h1⟩ := found_headers s.power.flash a b
  obtain ⟨c, hc, hch⟩ := Option.map_eq_some_iff.1 hh
  have hws : (s.power.flash.found a b).headers.look (b2n c) [] = h := by
    cases c with
    | false => exact h0.trans hch
    | true => exact h1.trans hch
  unfold bootHeader
  dsimp only
  rw [h0, h1, hc]
  dsimp only
  rw [hws]
  exact ⟨rfl, rfl, rfl, rfl, rfl, rfl⟩

/-- Without a valid header slot 0 and 1 GB on channel 0 are taken. -/
theorem bootHeader_falls {a b : List Word} {s : State}
    (hh : headerOf s.vault.ik (s.power.flash.headers.look 0 a) (s.power.flash.headers.look 1 b) = none) : let t := bootHeader a b s
    t.power.phase = 3 ∧ t.power.fallback = true ∧ t.power.slot = false ∧ t.mem.ddr = 0x01 := by
  obtain ⟨h0, h1⟩ := found_headers s.power.flash a b
  unfold bootHeader
  dsimp only
  rw [h0, h1, Option.map_eq_none_iff.1 hh]
  exact ⟨rfl, rfl, rfl, rfl⟩

/-- Phase 3 judges the images by their tags. -/
theorem bootImage_judges {x y : List Word} {a b : Bool} {s : State} (hab : a = true ∨ b = true) (h3 : s.power.phase = 3) :
    let mine := imageTagOk s.vault.ik (s.power.flash.slots.look (b2n s.power.slot) x)
    let others := imageTagOk s.vault.ik (s.power.flash.slots.look (b2n !s.power.slot) y)
    let t := bootImage x y a b s
    t.mbx.activeB = !a ∧ (mine = true → t.power.phase = 4 ∧ t.power.slot = s.power.slot) ∧
      (mine = false → others = true → t.power.phase = 4 ∧ t.power.slot = !s.power.slot ∧ t.power.fallback = true) ∧
      (mine = false → others = false → t.power.recovery = true ∧ t.power.error = 0x03 ∧ t.power.phase = 3) := by
  unfold bootImage
  dsimp only
  rw [if_neg (by obtain h | h := hab <;> simp [h])]
  cases imageTagOk s.vault.ik (s.power.flash.slots.look (b2n s.power.slot) x) with
  | true => exact ⟨rfl, fun _ => ⟨rfl, rfl⟩, fun h => absurd h (by decide), fun h => absurd h (by decide)⟩
  | false =>
    cases imageTagOk s.vault.ik (s.power.flash.slots.look (b2n !s.power.slot) y) with
    | true => exact ⟨rfl, fun h => absurd h (by decide), fun _ _ => ⟨rfl, rfl, rfl⟩, fun _ h => absurd h (by decide)⟩
    | false => exact ⟨rfl, fun h => absurd h (by decide), fun _ h => absurd h (by decide), fun _ _ => ⟨rfl, rfl, h3⟩⟩

/-- Phase 0: the straps after a cold reset, the fuses once. -/
theorem bootStraps_reads (h : BitVec 2) (f : Fuses) (s : State) : let t := bootStraps h f s
    (s.coldBoot = true → h ≠ 3 → t.power.phase = 1 ∧ t.power.host = h) ∧ (s.coldBoot = true → h = 3 → t.power.phase = 15 ∧ t.power.error = 0x01) ∧
      (s.power.fusesRead = false → t.vault.life = f.life ∧ t.vault.drk = f.drk ∧ t.vault.ik = if f.life = 0 then 0 else f.ik) ∧
      (s.power.fusesRead = true → t.vault = s.vault) := by
  let s1 : State := if s.coldBoot then { s with power := { s.power with host := h } } else s
  have h1 : s1.vault = s.vault ∧ s1.power.fusesRead = s.power.fusesRead ∧ (s.coldBoot = true → s1.power.host = h) := by
    refine ⟨?_, ?_, fun hc => congrArg (fun s : State => s.power.host) (if_pos hc)⟩
    · unfold s1
      split <;> rfl
    · unfold s1
      split <;> rfl
  let s2 : State := if s1.power.fusesRead then s1 else { s1 with vault := readFuses f s1.vault, power := { s1.power with fusesRead := true } }
  have hdef : bootStraps h f s = if s2.power.host = 3 then bootHalt 0x01 s2 else bootTo 1 s2 := rfl
  obtain ⟨hv, hf, hhost⟩ := h1
  have h2 : s2.power.host = s1.power.host ∧ (s.power.fusesRead = true → s2.vault = s.vault) ∧
      (s.power.fusesRead = false → s2.vault = readFuses f s.vault) := by
    refine ⟨?_, fun hr => ?_, fun hr => ?_⟩
    · unfold s2
      split <;> rfl
    · exact (congrArg State.vault (if_pos (hf.trans hr))).trans hv
    · exact (congrArg State.vault (if_neg (ne_true_of_eq_false (hf.trans hr)))).trans (congrArg (readFuses f) hv)
  obtain ⟨hsame, hread, hfresh⟩ := h2
  have hvault : (bootStraps h f s).vault = s2.vault := by
    rw [hdef]
    split <;> rfl
  refine ⟨fun hc hne => ?_, fun hc heq => ?_, fun hr => ?_, fun hr => hvault.trans (hread hr)⟩
  · rw [hdef, if_neg (by rw [hsame, hhost hc]; exact hne)]
    exact ⟨rfl, hsame.trans (hhost hc)⟩
  · rw [hdef, if_pos (by rw [hsame, hhost hc]; exact heq)]
    exact ⟨rfl, rfl⟩
  · rw [hvault, hfresh hr]
    exact ⟨rfl, rfl, rfl⟩

/-- What alarms touch: the memories, the Vault and the Dispatcher. -/
def OnlyAlarm (s t : State) : Prop := ∃ m v d n, t = { s with mem := m, vault := v, dsp := d, freeCtr := n }

theorem OnlyAlarm.refl (s : State) : OnlyAlarm s s := ⟨_, _, _, _, rfl⟩

theorem OnlyAlarm.trans {s t u : State} (h : OnlyAlarm s t) (g : OnlyAlarm t u) : OnlyAlarm s u := by
  obtain ⟨_, _, _, _, rfl⟩ := h
  obtain ⟨_, _, _, _, rfl⟩ := g
  exact ⟨_, _, _, _, rfl⟩

theorem foldl_onlyAlarm {α : Type} {f : State → α → State} (h : ∀ s x, OnlyAlarm s (f s x)) (l : List α) (s : State) : OnlyAlarm s (l.foldl f s) := by
  induction l generalizing s with
  | nil => exact .refl s
  | cons x l ih => exact (h s x).trans (ih (f s x))

theorem OnlyPosts.onlyAlarm {s t : State} (h : OnlyPosts s t) : OnlyAlarm s t := by
  obtain ⟨_, _, _, rfl⟩ := h
  exact ⟨_, _, _, _, rfl⟩

theorem zeroise_onlyAlarm (b : Nat) (s : State) : OnlyAlarm s (zeroise b s) := by
  unfold zeroise wipeBank wakeBank
  dsimp only
  split
  · exact ⟨_, _, _, _, rfl⟩
  · exact ⟨_, _, _, _, rfl⟩

theorem demote_onlyAlarm (b o : Nat) (s : State) : OnlyAlarm s (demote b o s) := by
  refine OnlyAlarm.trans ?_ (foldl_onlyAlarm (fun s n => ?_) _ _)
  · exact ⟨_, _, _, _, rfl⟩
  · split
    · exact zeroise_onlyAlarm n s
    · exact .refl s

theorem removePackages_onlyAlarm (f : Nat → Bool) (s : State) : OnlyAlarm s (removePackages f s) := by
  have hd : ∀ (l : List Nat) (s : State), OnlyAlarm s (l.foldl (fun s k => demote (k / 2 ^ 32) (k % 2 ^ 32) s) s) := fun l s =>
    foldl_onlyAlarm (fun s k => demote_onlyAlarm _ _ s) l s
  obtain ⟨_, _, _, _, h⟩ := hd ((s.mem.resid.filter fun p =>
    ((s.mem.content.filter fun p => f p.2.pkg.toNat).map fun p => p.1).contains (p.1 % 2 ^ 32)).map fun p => p.1) s
  unfold removePackages
  dsimp only
  rw [h]
  exact ⟨_, _, _, _, rfl⟩

theorem zeroiseSecure_onlyAlarm (s : State) : OnlyAlarm s (zeroiseSecure s) := by
  refine foldl_onlyAlarm (fun s n => ?_) _ s
  split
  · exact zeroise_onlyAlarm n s
  · exact .refl s

theorem wipeVault_onlyAlarm (s : State) : OnlyAlarm s (wipeVault s) := by
  obtain ⟨_, _, _, _, h⟩ := (zeroiseSecure_onlyAlarm s).trans
    (removePackages_onlyAlarm (List.contains (((zeroiseSecure s).mem.pkgs.filter fun p => p.2).map fun p => p.1)) (zeroiseSecure s))
  unfold wipeVault
  dsimp only
  rw [h]
  exact ⟨_, _, _, _, rfl⟩

theorem raiseLevel_onlyAlarm (main : Bool) (level : Nat) (s : State) : OnlyAlarm s (raiseLevel main level s) := by
  unfold raiseLevel
  dsimp only
  split
  · exact ⟨_, _, _, _, rfl⟩
  split
  · split
    · exact ⟨_, _, _, _, rfl⟩
    · exact ⟨_, _, _, _, rfl⟩
  split
  · obtain ⟨_, _, _, _, h⟩ := wipeVault_onlyAlarm { s with vault := { s.vault with
      level := BitVec.ofNat 2 (Nat.max s.vault.level.toNat level), keylock := s.vault.keylock || decide (2 ≤ level) } }
    rw [h]
    exact ⟨_, _, _, _, rfl⟩
  · exact ⟨_, _, _, _, rfl⟩

/-- Sources that turn active touch nothing but what alarms touch. -/
theorem raiseSources_onlyAlarm (src : BitVec 6) (tin : List (Bool × Bool)) (main : Bool) (time : BitVec 64) (s : State) :
    OnlyAlarm s (raiseSources src tin main time s) := by
  have hlog : ∀ (l : List Nat) (s : State), OnlyAlarm s (l.foldl (logAlarm main time) s) := fun l s => foldl_onlyAlarm (fun s _ => ⟨_, _, _, _, rfl⟩) l s
  have hpost : ∀ (l : List Nat) (s : State), OnlyAlarm s (if main then l.foldl (fun s _ => hwPostNew 3 4 s) s else s) := fun l s => by
    split
    · exact foldl_onlyAlarm (fun s _ => (hwPostNew_onlyPosts 3 4 s).onlyAlarm) l s
    · exact .refl s
  unfold raiseSources
  dsimp only
  split
  · exact .refl s
  · refine OnlyAlarm.trans ?_ (hpost _ _)
    refine OnlyAlarm.trans ?_ (raiseLevel_onlyAlarm _ _ _)
    refine OnlyAlarm.trans ?_ (hlog _ _)
    exact ⟨_, _, _, _, rfl⟩

-- the firmware (R14, R90, R475) ---------------------------------------------------------------------------------------------------------

/-- The kernel of every core: the Conductor writes the cores alone. -/
theorem loadKernels_only (s : State) : ∃ ks, loadKernels s = { s with cores := ks } := by
  unfold loadKernels
  generalize List.range 64 = l
  induction l generalizing s with
  | nil => exact ⟨_, rfl⟩
  | cons k l ih =>
    obtain ⟨ks, h⟩ := ih (s.setCore k (putKernel k (s.core k)))
    exact ⟨ks, h⟩

/-- What the steps of a fold over its own list keep. -/
theorem foldl_keeps_mem {α β : Type} (p : State → β) (f : State → α → State) (l : List α) (h : ∀ s, ∀ x ∈ l, p (f s x) = p s) (s : State) :
    p (l.foldl f s) = p s := by
  induction l generalizing s with
  | nil => rfl
  | cons x l ih => exact (ih (fun s y hy => h s y (List.mem_cons_of_mem _ hy)) (f s x)).trans (h s x List.mem_cons_self)

theorem foldl_putKernel_core (l : List Nat) (hl : l.Nodup) (s : State) {k : Nat} (hk : k ∈ l) :
    (l.foldl (fun s k => s.setCore k (putKernel k (s.core k))) s).core k = putKernel k (s.core k) := by
  induction l generalizing s with
  | nil => exact absurd hk List.not_mem_nil
  | cons j l ih =>
    obtain ⟨hj, hl⟩ := List.nodup_cons.1 hl
    obtain rfl | hk := List.mem_cons.1 hk
    · refine (foldl_keeps_mem (fun s : State => s.core k) _ l (fun s n hn => ?_) _).trans (State.setCore_same s k _)
      exact State.setCore_other _ _ _ _ fun h => hj (h ▸ hn)
    · rw [List.foldl_cons, ih hl _ hk, State.setCore_other s j _ k fun h => hj (h ▸ hk)]

/-- Words that are written from address 0 on. -/
theorem read_foldl_write (f : Nat → Word24) (n : Nat) {m : Mem 24} (hm : Mem.wf m = true) {j : Nat} (hj : j < n) :
    Mem.read ((List.range n).foldl (fun m i => Mem.write m i (f i)) m) j = f j := by
  have h := (foldl_range_write 0 f n m hm).2 j hj
  simpa only [Nat.zero_add] using h

/-- The kernel stands in the program of every core. -/
theorem loadKernels_prog {k i : Nat} {s : State} (hk : k < 64) (hi : i < 0x100) (hwf : Mem.wf (s.core k).prog = true) :
    Mem.read ((loadKernels s).core k).prog i = Config.kernelProgram k i := by
  unfold loadKernels
  rw [foldl_putKernel_core _ List.nodup_range s (List.mem_range.2 hk)]
  unfold putKernel
  dsimp only
  exact read_foldl_write (Config.kernelProgram k) 0x100 hwf hi

/-- The journal is restored, with nothing unfinished, or empty. -/
theorem restoreJournal_ends (v : Bool) (s : State) : ∃ m, restoreJournal v s = { s with mbx := m } ∧
    (v = false → m.journal = [] ∧ m.nextJ = 1) ∧ (v = true → ∀ x ∈ m.journal, x.unfinished = false) := by
  unfold restoreJournal
  cases v with
  | false => exact ⟨_, rfl, fun _ => ⟨rfl, rfl⟩, fun h => absurd h Bool.false_ne_true⟩
  | true =>
    have hf : ∀ l : List JEntry, ∃ m, l.foldr (fun x t => t.setChan x.ch { t.chan x.ch with lastJ := x.idx }) s = { s with mbx := m } := fun l => by
      induction l with
      | nil => exact ⟨_, rfl⟩
      | cons x l ih =>
        obtain ⟨m, h⟩ := ih
        rw [List.foldr_cons, h]
        exact ⟨_, rfl⟩
    obtain ⟨m, h⟩ := hf s.mbx.journal
    dsimp only
    rw [if_pos rfl, h]
    refine ⟨_, rfl, fun h => absurd h.symm Bool.false_ne_true, fun _ x hx => ?_⟩
    obtain ⟨y, _, rfl⟩ := List.mem_map.1 hx
    split
    · rfl
    next hy => exact eq_false_of_ne_true hy

theorem restoreBattery_onlyAlarm (v : Bool) (s : State) : OnlyAlarm s (restoreBattery v s) := by
  unfold restoreBattery
  split
  · exact ⟨_, _, _, _, rfl⟩
  · refine OnlyAlarm.trans ?_ (raiseSources_onlyAlarm _ _ _ _ _)
    exact ⟨_, _, _, _, rfl⟩

/-- Phase 5: the supply, the journal, the kernels and the tick. -/
theorem bootFirmware_starts (v : Bool) (vo : Byte) (s : State) : let t := bootFirmware v vo s
    t.power.phase = 6 ∧ t.time.ticking = true ∧ t.power.phyRstN = true ∧ t.health.voutMode = vo ∧
      (∀ k i, k < 64 → i < 0x100 → Mem.wf (s.core k).prog = true → Mem.read (t.core k).prog i = Config.kernelProgram k i) ∧
      (v = false → t.mbx.journal = [] ∧ t.mbx.nextJ = 1) ∧ (v = true → ∀ x ∈ t.mbx.journal, x.unfinished = false) := by
  obtain ⟨m, hj, hempty, hended⟩ := restoreJournal_ends v (applySetpoint vo s)
  obtain ⟨_, _, _, _, hb⟩ := restoreBattery_onlyAlarm v (restoreJournal v (applySetpoint vo s))
  obtain ⟨ks, hk⟩ := loadKernels_only (restoreBattery v (restoreJournal v (applySetpoint vo s)))
  have hprog : ∀ k i, k < 64 → i < 0x100 → Mem.wf (s.core k).prog = true →
      Mem.read ((loadKernels (restoreBattery v (restoreJournal v (applySetpoint vo s)))).core k).prog i = Config.kernelProgram k i := by
    intro k i hk hi hwf
    refine loadKernels_prog hk hi ?_
    rw [hb, hj]
    exact hwf
  have hvout : (loadKernels (restoreBattery v (restoreJournal v (applySetpoint vo s)))).health.voutMode = vo := by
    rw [hk, hb, hj]
    rfl
  have hmbx : (loadKernels (restoreBattery v (restoreJournal v (applySetpoint vo s)))).mbx = m := by rw [hk, hb, hj]
  unfold bootFirmware
  generalize loadKernels (restoreBattery v (restoreJournal v (applySetpoint vo s))) = u at hprog hvout hmbx ⊢
  subst hmbx
  exact ⟨rfl, rfl, rfl, hvout, hprog, hempty, hended⟩

theorem buildBanks_cores (s : State) : (buildBanks s).cores = s.cores := by
  unfold buildBanks
  refine foldl_keeps State.cores _ ?_ _ s
  exact fun _ _ => rfl

theorem foldl_retireFailed {k : Nat} (l : List Nat) (s : State) (h : k ∈ l ∨ ((s.core k).failed = true ∧ (s.core k).retired = true)) :
    let t := l.foldl (fun s k => s.setCore k { s.core k with failed := true, retired := true }) s
    (t.core k).failed = true ∧ (t.core k).retired = true := by
  induction l generalizing s with
  | nil => exact h.resolve_left List.not_mem_nil
  | cons j l ih =>
    refine ih _ ?_
    obtain rfl | hne := eq_or_ne k j
    · rw [State.setCore_same]
      exact .inr ⟨rfl, rfl⟩
    · rw [State.setCore_other _ _ _ _ hne]
      exact h.imp_left fun h => (List.mem_cons.1 h).resolve_left hne

/-- Phase 6: a failed core is retired. -/
theorem bootSelfTest_retires (ks : List Nat) (s : State) : let t := bootSelfTest ks s
    t.power.tested = true ∧ ∀ k ∈ ks, k < 64 → (t.core k).failed = true ∧ (t.core k).retired = true := by
  unfold bootSelfTest
  dsimp only
  have hcores := buildBanks_cores ((ks.filter fun k => decide (k < 64)).foldl (fun s k => s.setCore k { s.core k with failed := true, retired := true }) s)
  generalize buildBanks _ = u at hcores ⊢
  refine ⟨rfl, fun k hk h64 => ?_⟩
  have hcore : u.core k = _ := congrArg (fun cs : Tab VCore => cs.look k {}) hcores
  show (u.core k).failed = true ∧ (u.core k).retired = true
  rw [hcore]
  exact foldl_retireFailed _ s (.inl (List.mem_filter.2 ⟨hk, decide_eq_true h64⟩))

-- the end of SLEEP (R415, R482) ---------------------------------------------------------------------------------------------------------

/-- The next multiple of 0x200. -/
theorem alignStamp_aligned (x : Word) : (alignStamp x).toNat % 512 = 0 := by
  unfold alignStamp
  generalize x + 0x1FF = y
  refine Nat.eq_of_testBit_eq fun i => ?_
  rw [show 512 = 2 ^ 9 from rfl, Nat.testBit_mod_two_pow, Nat.zero_testBit]
  by_cases hi : i < 9
  · have hbit : (y &&& ~~~(0x1FF : Word)).getLsbD i = false := by
      rw [BitVec.getLsbD_and]
      interval_cases i <;> simp
    rw [show (y &&& ~~~(0x1FF : Word)).toNat.testBit i = false from hbit, Bool.and_false]
  · rw [decide_eq_false hi, Bool.false_and]

theorem ite_keeps {β : Type} (p : State → β) {c : Prop} [Decidable c] {a b : State} {r : β} (ha : p a = r) (hb : p b = r) :
    p (if c then a else b) = r := by
  split
  · exact ha
  · exact hb

theorem wakeTimer_time (n : Nat) (s : State) (k : Nat) : (wakeTimer n s k).time = s.time :=
  ite_keeps State.time rfl (ite_keeps State.time rfl rfl)

theorem wakeTimer_power (n : Nat) (s : State) (k : Nat) : (wakeTimer n s k).power = s.power :=
  ite_keeps State.power rfl (ite_keeps State.power rfl rfl)

theorem wakeUp_wakes (src : Byte) (n : Nat) (s : State) : let t := wakeUp src n s
    t.power.state = 0 ∧ t.power.wakeSrc = src &&& 0x0F ∧ t.time.ticking = true ∧ t.time.stamp.toNat % 512 = 0 ∧ t.time.reach = t.time.stamp := by
  have ht : ∀ s, (wakeTimers n s).time = s.time := fun s => foldl_keeps State.time _ (wakeTimer_time n) _ s
  have hp : ∀ s, (wakeTimers n s).power = s.power := fun s => foldl_keeps State.power _ (wakeTimer_power n) _ s
  unfold wakeUp
  dsimp only
  rw [ht, hp]
  exact ⟨rfl, rfl, rfl, alignStamp_aligned _, rfl⟩

-- the quiet outputs (R471, R479, R481) --------------------------------------------------------------------------------------------------

section
variable {s : State} (h : s.power.holdPor = false)
include h

/-- Outside that reset a ball carries what its unit gives. -/
theorem ball_driven (b : OutBall) : s.ball b = s.driven b := if_neg (by simp [h])

theorem ball_legs (d : Nat) : (s.legs d = none → s.ball (.dacLegs d) = .highZ) ∧
    ∀ p n, s.legs d = some (p, n) → s.ball (.dacLegs d) = .legs p n := by
  rw [ball_driven h]
  unfold State.driven
  dsimp only
  exact ⟨fun hl => by rw [hl], fun p n hl => by rw [hl]⟩

theorem ball_tdm_off {p : Nat} (hb : bit (s.tdmOf p) 31 = false) : s.ball (.tdmClock p) = .low ∧ s.ball (.tdmData p) = .low := by
  rw [ball_driven h, ball_driven h]
  exact ⟨if_pos (by simp [hb]), if_neg (ne_true_of_eq_false hb)⟩

theorem ball_tdm_master {p : Nat} (hb : bit (s.tdmOf p) 31 = true) (hm : bit (s.tdmOf p) 30 = true) :
    s.ball (.tdmClock p) = (if s.power.state = 2 then .low else .unit) ∧ s.ball (.tdmData p) = .unit := by
  rw [ball_driven h, ball_driven h]
  refine ⟨(if_neg (by simp [hb])).trans ((if_neg (by simp [hm])).trans ?_), if_pos hb⟩
  by_cases hs : s.power.state = 2 <;> simp [State.tdmRuns, hb, hs]

theorem ball_hostIrqN (hh : s.power.host = 1 ∨ s.power.host = 2) : s.ball .hostIrqN = .low ↔ s.mbx.dbRsp &&& s.mbx.dbRspEn ≠ 0 := by
  rw [ball_driven h, show s.driven .hostIrqN = Drive.level s.hostIrqN from if_pos hh]
  by_cases hz : s.mbx.dbRsp &&& s.mbx.dbRspEn = 0 <;> simp [Drive.level, State.hostIrqN, hz]

end

/-- From the rise of POR_N the outputs are quiet. -/
theorem quiet_afterPor {s : State} (h : s.inReset = false) : let u := holdPor false (holdPor true (resetBy true 0x10 s))
    (∀ d, u.ball (.dacLegs d) = .highZ) ∧ (∀ p, u.ball (.tdmClock p) = .low ∧ u.ball (.tdmData p) = .low) ∧ u.ball .pdmClk = .low ∧
      (∀ n, u.ball (.uartTxd n) = .high ∧ u.ball (.tmrOut n) = .low) ∧ u.ball .rgmiiTx = .low ∧ u.ball .ethPhyRstN = .low ∧
      u.ball .ddrRstN = .low ∧ u.ball .pmbus = .highZ := by
  rw [resetBy_begins h]
  obtain ⟨⟨_, hphase, _, _, _, _, hphy, hddr⟩, _, _, _, _, _, _, _, _, haudio, huarts, htimers⟩ := resetState_sets true 0x10 s
  have hdac := resetState_dac true 0x10 s
  generalize resetState true 0x10 s = t at hphase hphy hddr haudio huarts htimers hdac ⊢
  intro u
  have hpor : u.power.holdPor = false := rfl
  have hu : ∀ b, u.ball b = u.driven b := ball_driven hpor
  have htdm : ∀ p, bit (u.tdmOf p) 31 = false := fun p => by
    rw [show u.tdmOf p = t.audio.tdm.look p 0x08010000 from rfl, haudio]
    show bit 0x08010000 31 = false
    decide
  refine ⟨fun d => (ball_legs hpor d).1 (if_pos ?_), fun p => ball_tdm_off hpor (htdm p), ?_, fun n => ⟨?_, ?_⟩, ?_, ?_, ?_, ?_⟩
  · simp [DacCh.off, show (u.dacCh d).state = dacHiz from hdac d]
  · rw [hu, show u.driven .pdmClk = if t.audio.pdm = 0 then .low else .unit from rfl, haudio]
    rfl
  · rw [hu, show u.driven (.uartTxd n) = Drive.level ((t.uarts.look n {}).txd t.time.clkCount) from rfl, huarts]
    show Drive.level (Uart.idleLevel {}) = .high
    decide
  · rw [hu, show u.driven (.tmrOut n) = Drive.level (t.timers.look n {}).out from rfl, htimers]
    rfl
  · rw [hu, show u.driven .rgmiiTx = if t.power.phyRstN then .unit else .low from rfl, hphy]
    rfl
  · rw [hu, show u.driven .ethPhyRstN = Drive.level t.power.phyRstN from rfl, hphy]
    rfl
  · rw [hu, show u.driven .ddrRstN = Drive.level t.power.ddrRstN from rfl, hddr]
    rfl
  · rw [hu, show u.driven .pmbus = if t.power.phase.toNat < 5 || t.power.phase == 15 then .highZ else .unit from rfl, hphase]
    rfl

/-- Settles O60: resets by `resetState_sets`, the phases each by its rule, the outputs by `quiet_afterPor` and `ball_driven`. -/
theorem resetsBootAndWake : Obligations.ResetsBootAndWake := by
  refine ⟨fun s => ?_, fun s hr => ?_, fun s b hp hb => ?_, fun s k hk => ?_, fun s h => ⟨_, _, rfl, rfl, quiet_afterPor h⟩, fun s h => ?_⟩
  · refine ⟨rfl, ⟨_, rfl, rfl⟩, ⟨_, rfl, rfl⟩, fun hr => ⟨⟨_, rfl, ?_⟩, ⟨_, rfl, ?_⟩, ⟨_, rfl, ?_⟩⟩, fun hp => ⟨_, rfl, ?_⟩,
      fun h => congrArg Host.Outcome.next (if_neg ?_), fun ht hs hr => ⟨_, congrArg Host.Outcome.next (if_pos ?_), ?_⟩⟩
    · rw [resetBy_begins hr]
      obtain ⟨⟨hcause, hphase, _, _, _, hresets, _⟩, htime, hj, _, _, hv, hb, hm, _⟩ := resetState_sets true 0x10 s
      exact ⟨hcause, hphase, rfl, hresets, congrArg Time.frameCount htime, congrArg Time.stamp htime, hj, hv, hb, hm⟩
    · rw [if_pos rfl, resetBy_begins hr]
      obtain ⟨⟨hcause, hphase, _⟩, htime, _⟩ := resetState_sets true 0x08 s
      exact ⟨hcause, hphase, rfl, congrArg Time.frameCount htime⟩
    · rw [if_pos rfl, resetBy_begins hr]
      obtain ⟨⟨hcause, hphase, _, _, hhost, hresets, _⟩, _, _, hsw, hepoch, _, _, _, hse, _⟩ := resetState_sets false 0x04 s
      exact ⟨hcause, hphase, Bool.or_true _, hhost, hresets, hsw, hepoch, hse⟩
    · have hin : s.inReset = true := by simp [State.inReset, hp]
      have hby : resetBy false 0x04 s = { s with power := { s.power with cause := s.power.cause ||| 0x04 } } := if_pos (by simp [hin])
      rw [if_pos rfl, hby]
      exact ⟨rfl, rfl⟩
    · obtain h | h := h <;> simp [h]
    · simpa [ht] using hs
    · rw [resetBy_begins hr]
      obtain ⟨⟨hcause, _, hpor, hwrst, _⟩, htime, _⟩ := resetState_sets false 0x01 s
      refine ⟨hcause, congrArg Time.ticking htime, ?_⟩
      unfold State.inReset
      rw [hpor, hwrst]
      exact hr
  · have hboot : ∀ ev, exec (.bootPhase ev) s = .next (match s.power.phase.toNat, ev with
        | 0, .straps host f => bootStraps host f s
        | 1, .clocks => bootTo 2 s
        | 2, .header a b => bootHeader a b s
        | 2, .noFlash => bootHalt 0x02 s
        | 3, .image c o a b => if s.power.recovery then s else bootImage c o a b s
        | 3, .noFlash => if s.power.recovery then s else bootHalt 0x02 s
        | 4, .trained ok => if ok then bootTrained s else bootHalt 0x05 s
        | 5, .firmware vbat vout => bootFirmware vbat vout s
        | 6, .selfTest failed => bootSelfTest failed s
        | _, _ => s) := fun ev => congrArg Host.Outcome.next (if_neg (ne_true_of_eq_false hr))
    refine ⟨fun h f h0 => ?_, fun h1 => ?_, fun h2 => ?_, fun h3 hrec => ?_, fun h4 => ?_, fun h5 v vo => ?_, fun h6 ks => ?_, fun h => ?_, fun h6 ht => ?_,
      rfl, fun h c => ?_, fun i hi => ?_, fun src n h => ?_, fun src n h => ?_⟩
    · have hrun := hboot (.straps h f)
      rw [h0] at hrun
      exact ⟨_, hrun, bootStraps_reads h f s⟩
    · have hrun := hboot .clocks
      rw [h1] at hrun
      exact hrun
    · refine ⟨fun a b hnone => ⟨_, ?_, bootHeader_falls hnone⟩, fun a b h hsome => ⟨_, ?_, bootHeader_takes hsome⟩, fun a b ha hb hlt => ?_, ?_⟩
      · have hrun := hboot (.header a b)
        rw [h2] at hrun
        exact hrun
      · have hrun := hboot (.header a b)
        rw [h2] at hrun
        exact hrun
      · unfold headerOf headerPick
        rw [ha, hb, decide_eq_true hlt]
        rfl
      · have hrun := hboot .noFlash
        rw [h2] at hrun
        exact hrun
    · have hrun : ∀ x y a b, exec (.bootPhase (.image x y a b)) s = .next (bootImage x y a b s) := fun x y a b => by
        have hrun := hboot (.image x y a b)
        rw [h3] at hrun
        exact hrun.trans (congrArg Host.Outcome.next (if_neg (ne_true_of_eq_false hrec)))
      exact ⟨fun x y a b hab => ⟨_, hrun x y a b, bootImage_judges hab h3⟩, fun c o => ⟨_, hrun c o false false, rfl, rfl⟩⟩
    · have hrun := fun ok => hboot (.trained ok)
      rw [h4] at hrun
      exact ⟨hrun true, hrun false⟩
    · have hrun := hboot (.firmware v vo)
      rw [h5] at hrun
      exact ⟨_, hrun, bootFirmware_starts v vo s⟩
    · have hrun := hboot (.selfTest ks)
      rw [h6] at hrun
      exact ⟨_, hrun, bootSelfTest_retires ks s⟩
    · refine congrArg Host.Outcome.next (if_neg fun hgo => ?_)
      obtain h | h := h
      · exact h hgo.1
      · exact absurd hgo.2.1 (ne_true_of_eq_false h)
    · exact congrArg Host.Outcome.next (if_pos ⟨h6, ht, by simp [hr]⟩)
    · exact decide_eq_false (Nat.not_lt.2 h)
    · cases i with
      | other c => exact absurd rfl (hi c)
      | _ => rfl
    · exact congrArg Host.Outcome.next (if_neg fun hgo => h (by simpa [hr] using hgo))
    · exact ⟨_, congrArg Host.Outcome.next (if_pos (by simp [h, hr])), wakeUp_wakes src n s⟩
  · refine if_pos ?_
    cases b <;> simp [hp] at hb ⊢
  · have hball : s.ball (.tampOut k) = s.driven (.tampOut k) := if_neg (by simp)
    rw [hball]
    unfold State.driven State.tampOut
    dsimp only
    rw [if_pos hk]
  · refine ⟨fun p => ball_tdm_off h, fun p => ball_tdm_master h, ball_hostIrqN h, fun hh => ?_, fun hh => ?_, fun hh => ?_, fun hh => ?_, fun u => ball_driven h _,
      ball_legs h⟩
    · rw [ball_driven h, ball_driven h]
      exact ⟨if_neg (by simp [hh]), if_neg (by simp [hh])⟩
    · exact (ball_driven h _).trans (if_neg hh)
    · exact (ball_driven h _).trans (if_neg hh)
    · exact (ball_driven h _).trans (if_neg hh)

end Sys2Proof.Machine
end


section
/-! PROOFS. The canonical form of the memories: what the records and the shared operations of the state keep of it (R10, R206, R321, R437). -/

namespace Sys2Proof.Machine

/-- The local memories of a core are in their canonical form (R206). -/
def VCore.memWf (c : VCore) : Bool := Mem.wf c.x && Mem.wf c.y && Mem.wf c.prog

theorem VCore.memWf_iff {c : VCore} : c.memWf = true ↔ Mem.wf c.x = true ∧ Mem.wf c.y = true ∧ Mem.wf c.prog = true := by
  simp [VCore.memWf, and_assoc]

theorem State.memWf_iff {s : State} : s.memWf = true ↔ Mem.wf s.mem.store = true ∧ Mem.wf s.mem.win = true ∧ Mem.wf s.vault.work = true ∧
    (s.dsp.sc.all fun p => Mem.wf p.2.priv) = true ∧ (s.cores.all fun p => p.2.memWf) = true := by
  simp [State.memWf, VCore.memWf, and_assoc]

/-- What every listed record satisfies, and the default, the record at a key satisfies. -/
theorem Tab.look_all {α : Type} (p : α → Bool) {t : Tab α} (k : Nat) {d : α} (h : (t.all fun x => p x.2) = true) (hd : p d = true) : p (t.look k d) = true := by
  induction t with
  | nil => exact hd
  | cons x t ih =>
    obtain ⟨hx, ht⟩ := Bool.and_eq_true_iff.1 (show (p x.2 && t.all fun x => p x.2) = true from h)
    unfold Tab.look
    split
    · exact hx
    · exact ih ht

/-- A record that satisfies it is written. -/
theorem Tab.put_all {α : Type} (p : α → Bool) {t : Tab α} (k : Nat) {v : α} (h : (t.all fun x => p x.2) = true) (hv : p v = true) :
    ((t.put k v).all fun x => p x.2) = true := by
  induction t with
  | nil => simpa [Tab.put] using hv
  | cons x t ih =>
    obtain ⟨hx, ht⟩ := Bool.and_eq_true_iff.1 (show (p x.2 && t.all fun x => p x.2) = true from h)
    unfold Tab.put
    split
    · exact Bool.and_eq_true_iff.2 ⟨hv, ht⟩
    · split
      · exact Bool.and_eq_true_iff.2 ⟨hv, h⟩
      · exact Bool.and_eq_true_iff.2 ⟨hx, ih ht⟩

theorem Tab.mapVals_all {α : Type} (p : α → Bool) {t : Tab α} {f : Nat → α → α} (h : (t.all fun x => p x.2) = true)
    (hf : ∀ k v, p v = true → p (f k v) = true) : ((t.mapVals f).all fun x => p x.2) = true := by
  unfold Tab.mapVals
  rw [List.all_map, List.all_eq_true]
  exact fun x hx => hf _ _ (List.all_eq_true.1 h x hx)

section
variable {s : State} (h : s.memWf = true)
include h

theorem State.memWf_store : Mem.wf s.mem.store = true := (State.memWf_iff.1 h).1

theorem State.memWf_win : Mem.wf s.mem.win = true := (State.memWf_iff.1 h).2.1

theorem State.memWf_sc : (s.dsp.sc.all fun p => Mem.wf p.2.priv) = true := (State.memWf_iff.1 h).2.2.2.1

theorem State.memWf_cores : (s.cores.all fun p => p.2.memWf) = true := (State.memWf_iff.1 h).2.2.2.2

/-- A core, listed or not, has its memories in canonical form. -/
theorem core_memWf (k : Nat) : (s.core k).memWf = true := Tab.look_all VCore.memWf k (State.memWf_cores h) rfl

theorem svc_memWf (i : Nat) : Mem.wf (s.svc i).priv = true := Tab.look_all (fun x : ServiceCore => Mem.wf x.priv) i (State.memWf_sc h) rfl

theorem setCore_memWf {k : Nat} {c : VCore} (hc : c.memWf = true) : (s.setCore k c).memWf = true := by
  obtain ⟨hstore, hwin, hwork, hsc, hcores⟩ := State.memWf_iff.1 h
  exact State.memWf_iff.2 ⟨hstore, hwin, hwork, hsc, Tab.put_all VCore.memWf k hcores hc⟩

theorem setSvc_memWf {i : Nat} {x : ServiceCore} (hx : Mem.wf x.priv = true) : (s.setSvc i x).memWf = true := by
  obtain ⟨hstore, hwin, hwork, hsc, hcores⟩ := State.memWf_iff.1 h
  exact State.memWf_iff.2 ⟨hstore, hwin, hwork, Tab.put_all (fun x : ServiceCore => Mem.wf x.priv) i hsc hx, hcores⟩

/-- The Host Window is replaced by a memory in canonical form. -/
theorem setWin_memWf {w : Mem 8} (hw : Mem.wf w = true) : State.memWf { s with mem := { s.mem with win := w } } = true := by
  obtain ⟨hstore, _, hwork, hsc, hcores⟩ := State.memWf_iff.1 h
  exact State.memWf_iff.2 ⟨hstore, hw, hwork, hsc, hcores⟩

theorem setStore_memWf {m : Mem 8} (hm : Mem.wf m = true) : State.memWf { s with mem := { s.mem with store := m } } = true := by
  obtain ⟨_, hwin, hwork, hsc, hcores⟩ := State.memWf_iff.1 h
  exact State.memWf_iff.2 ⟨hm, hwin, hwork, hsc, hcores⟩

theorem mapCores_memWf {f : Nat → VCore → VCore} (hf : ∀ k c, c.memWf = true → (f k c).memWf = true) :
    State.memWf { s with cores := s.cores.mapVals f } = true := by
  obtain ⟨hstore, hwin, hwork, hsc, hcores⟩ := State.memWf_iff.1 h
  exact State.memWf_iff.2 ⟨hstore, hwin, hwork, hsc, Tab.mapVals_all VCore.memWf hcores hf⟩

end

section
variable {c : VCore} (h : c.memWf = true) {m : Mem 24} (hm : Mem.wf m = true)
include h hm

/-- A memory of a core is replaced by one in canonical form. -/
theorem VCore.putX_memWf : VCore.memWf { c with x := m } = true := by
  obtain ⟨_, hy, hprog⟩ := VCore.memWf_iff.1 h
  exact VCore.memWf_iff.2 ⟨hm, hy, hprog⟩

theorem VCore.putY_memWf : VCore.memWf { c with y := m } = true := by
  obtain ⟨hx, _, hprog⟩ := VCore.memWf_iff.1 h
  exact VCore.memWf_iff.2 ⟨hx, hm, hprog⟩

theorem VCore.putProg_memWf : VCore.memWf { c with prog := m } = true := by
  obtain ⟨hx, hy, _⟩ := VCore.memWf_iff.1 h
  exact VCore.memWf_iff.2 ⟨hx, hy, hm⟩

end

/-- What every step of a fold keeps, the fold keeps. -/
theorem foldl_holds {α β : Type} (P : β → Prop) {f : β → α → β} (hf : ∀ b x, P b → P (f b x)) (l : List α) {b : β} (h : P b) : P (l.foldl f b) := by
  induction l generalizing b with
  | nil => exact h
  | cons x l ih => exact ih (hf b x h)

theorem foldl_memWf {α : Type} {f : State → α → State} (hf : ∀ s x, s.memWf = true → (f s x).memWf = true) (l : List α) {s : State}
    (h : s.memWf = true) : (l.foldl f s).memWf = true := foldl_holds (fun t : State => t.memWf = true) hf l h

theorem foldl_wf {α : Type} {w : Nat} {f : Mem w → α → Mem w} (hf : ∀ m x, Mem.wf m = true → Mem.wf (f m x) = true) (l : List α) {m : Mem w}
    (h : Mem.wf m = true) : Mem.wf (l.foldl f m) = true := foldl_holds (fun m => Mem.wf m = true) hf l h

theorem snd_memWf {α : Type} {a : α} {t : State} (h : t.memWf = true) : ((a, t) : α × State).2.memWf = true := h

theorem ite_memWf {c : Prop} [Decidable c] {s t : State} (hs : s.memWf = true) (ht : t.memWf = true) : (if c then s else t).memWf = true := by
  split
  · exact hs
  · exact ht

theorem getD_memWf {o : Option State} {s : State} (ho : ∀ t, o = some t → t.memWf = true) (h : s.memWf = true) : (o.getD s).memWf = true := by
  cases o with
  | none => exact h
  | some t => exact ho t rfl

/-- A meaning that goes on has named a unit of the device. -/
theorem next_of_withUnit {n limit : Nat} {o : Outcome} {t : State} (ht : withUnit n limit o = .next t) : o = .next t := by
  unfold withUnit at ht
  split at ht
  · exact ht
  · cases ht

theorem withDom_memWf {d : Nat} {s : State} {f : State → State} {t : State} (hf : (f s).memWf = true) (ht : withDom d s f = .next t) : t.memWf = true := by
  unfold withDom at ht
  split at ht
  · cases ht
    exact hf
  · cases ht

/-- A memory keeps its form when entries are left out. -/
theorem Mem.wfFrom_filter {w : Nat} (p : Nat × BitVec w → Bool) {m : Mem w} {lo : Nat} (h : Mem.wfFrom lo m = true) :
    Mem.wfFrom lo (m.filter p) = true := by
  induction m generalizing lo with
  | nil => exact h
  | cons x r ih =>
    obtain ⟨a, v⟩ := x
    obtain ⟨hav, hr⟩ := Bool.and_eq_true_iff.1 (show ((decide (lo ≤ a) && decide (v ≠ Mem.fill w)) && Mem.wfFrom (a + 1) r) = true from h)
    obtain ⟨ha, _⟩ := Bool.and_eq_true_iff.1 hav
    rw [List.filter_cons]
    split
    · exact Bool.and_eq_true_iff.2 ⟨hav, ih hr⟩
    · exact ih (Mem.wfFrom_mono r (a + 1) lo hr (Nat.le_succ_of_le (of_decide_eq_true ha)))

/-- Words copied between memories, one write after another. -/
theorem Mem.writes_wf {w : Nat} {α : Type} (a : α → Nat) (v : α → BitVec w) (l : List α) {m : Mem w} (h : Mem.wf m = true) :
    Mem.wf (l.foldl (fun m x => Mem.write m (a x) (v x)) m) = true :=
  foldl_wf (fun m x hm => Mem.wf_write m (a x) (v x) hm) l h

theorem copyRange_wf {a n : Nat} {src m : Mem 24} (h : Mem.wf m = true) : Mem.wf (copyRange a n src m) = true := Mem.writes_wf _ _ _ h

theorem copyWords_wf {lo n ctx dst : Nat} {src m : Mem 24} (h : Mem.wf m = true) : Mem.wf (copyWords lo n ctx dst src m) = true :=
  Mem.writes_wf _ _ _ h

/-- What every step that goes on keeps, a fold that goes on keeps. -/
theorem foldl_bind_keeps {α β : Type} (P : α → Prop) {f : α → β → Option α} (hf : ∀ a x b, P a → f a x = some b → P b) (l : List β) {o : Option α}
    (ho : ∀ a, o = some a → P a) {b : α} (hb : l.foldl (fun o x => o.bind fun a => f a x) o = some b) : P b := by
  induction l generalizing o with
  | nil => exact ho b hb
  | cons x l ih =>
    refine ih (fun a ha => ?_) hb
    obtain ⟨a0, h0, h1⟩ := Option.bind_eq_some_iff.1 ha
    exact hf a0 x a (ho a0 h0) h1

theorem next_of_withInitiator {who : Initiator} {o : Outcome} {t : State} (ht : withInitiator who o = .next t) : o = .next t := by
  unfold withInitiator at ht
  split at ht
  · exact ht
  · cases ht

theorem next_of_withStoreWord {bank word : Nat} {o : Outcome} {t : State} (ht : withStoreWord bank word o = .next t) : o = .next t := by
  unfold withStoreWord at ht
  split at ht
  · exact ht
  · cases ht

theorem foldr_memWf {α : Type} {f : α → State → State} (hf : ∀ x s, s.memWf = true → (f x s).memWf = true) (l : List α) {s : State}
    (h : s.memWf = true) : (l.foldr f s).memWf = true := by
  induction l with
  | nil => exact h
  | cons x l ih => exact hf x _ ih

/-- What a mailbox command does once every check has passed, and when one fails, keeps the memories in canonical form. -/
def Card.KeepsForm (c : Card) : Prop :=
  (∀ e s, s.memWf = true → (c.run e s).memWf = true) ∧ ∀ e f s, s.memWf = true → (c.onFail e f s).memWf = true

end Sys2Proof.Machine
end


section
/-! PROOFS. The canonical form of the memories: what the mailbox's entries and answers, effects, parameter writes and the ledger keep of it. -/

namespace Sys2Proof.Machine

theorem State.setChan_memWf {s : State} {n : Nat} {c : Chan} (h : s.memWf = true) : (s.setChan n c).memWf = true := h

theorem hostPut_memWf {op : Nat} {e : Entry} {s : State} (h : s.memWf = true) : (hostPut op e s).memWf = true := by
  unfold hostPut
  extract_lets c _ s1
  split
  · have hs1 : s1.memWf = true := setWin_memWf h (wf_ringPut _ _ _ _ (State.memWf_win h))
    exact State.setChan_memWf hs1
  · exact h

theorem State.send_memWf {s : State} {k : MsgKind} {data : List Nat} (h : s.memWf = true) : (s.send k data).memWf = true := h

theorem signalHost_memWf {n : Nat} {s : State} (h : s.memWf = true) : (signalHost n s).memWf = true := ite_memWf (State.send_memWf h) h

theorem setDbRsp_memWf {n : Nat} {s : State} (h : s.memWf = true) : (setDbRsp n s).memWf = true := signalHost_memWf h

theorem writeResp_memWf {ch : Nat} {r : Resp} {s : State} (h : s.memWf = true) : (writeResp ch r s).memWf = true := by
  unfold writeResp
  extract_lets c _ s1
  have hs1 : s1.memWf = true := setWin_memWf h (wf_ringPut _ _ _ _ (State.memWf_win h))
  exact setDbRsp_memWf (State.setChan_memWf hs1)

theorem respond_memWf {ch : Nat} {r : Resp} {s : State} (h : s.memWf = true) : (respond ch r s).memWf = true := by
  unfold respond
  extract_lets c
  exact ite_memWf (writeResp_memWf h) (State.setChan_memWf h)

theorem desync_memWf {e : Entry} {s : State} (h : s.memWf = true) : (desync e s).memWf = true := by
  unfold desync
  extract_lets s1 _ s2
  have hs1 : s1.memWf = true := respond_memWf h
  have hs2 : s2.memWf = true := State.setChan_memWf hs1
  exact hs1

theorem answer_memWf {e : Entry} {st : Status} {j : Word} {ws : List Word} {final : Bool} {s : State} (h : s.memWf = true) :
    (answer e st j ws final s).memWf = true := ite_memWf h (respond_memWf h)

theorem journalAdd_memWf {op : Nat} {e : Entry} {st : JState} {status : Status} {steps : Nat} {s : State} (h : s.memWf = true) :
    (journalAdd op e st status steps s).memWf = true := by
  unfold journalAdd
  extract_lets x _ s1
  have hs1 : s1.memWf = true := h
  exact State.setChan_memWf hs1

theorem finishNow_memWf {op : Nat} {e : Entry} {ws : List Word} {s : State} (h : s.memWf = true) : (finishNow op e ws s).memWf = true :=
    answer_memWf (journalAdd_memWf h)

theorem cardVoiceQuery_keepsForm : cardVoiceQuery.KeepsForm := ⟨fun _ _ h => finishNow_memWf h, fun _ _ _ h => h⟩

theorem State.setPartCtr_memWf {s : State} {p : Nat} {c : PartCtr} (h : s.memWf = true) : (s.setPartCtr p c).memWf = true := h

theorem cardPartCounters_keepsForm : cardPartCounters.KeepsForm := by
  refine ⟨fun e s h => ?_, fun _ _ _ h => h⟩
  dsimp -zeta only [cardPartCounters]
  extract_lets p c
  exact finishNow_memWf (ite_memWf (State.setPartCtr_memWf h) h)

theorem taskCosts_memWf {k : Nat} {s : State} (h : s.memWf = true) : (taskCosts k s).memWf = true := by
  unfold taskCosts
  refine setCore_memWf h ?_
  extract_lets
  exact core_memWf h _

theorem replan_memWf {s : State} {b : Nat} (h : s.memWf = true) : (replan s b).memWf = true := by
  unfold replan
  extract_lets s1
  have hs1 : s1.memWf = true := h
  exact foldl_memWf (fun _ _ ht => taskCosts_memWf ht) _ hs1

theorem dropEffect_memWf {o : Nat} {s : State} (h : s.memWf = true) : (dropEffect o s).memWf = true := by
  unfold dropEffect
  refine foldl_memWf (fun t x ht => ?_) _ h
  refine setCore_memWf ht ?_
  extract_lets
  exact core_memWf ht _

theorem onEffect_memWf {o : Nat} {f : Task → Task} {s : State} (h : s.memWf = true) : (onEffect o f s).memWf = true := by
  unfold onEffect
  refine foldl_memWf (fun t x ht => ?_) _ h
  refine setCore_memWf ht ?_
  extract_lets
  exact core_memWf ht _

theorem State.fresh_memWf {s : State} (h : s.memWf = true) : s.fresh.memWf = true := h

theorem spoilWord_memWf {k : Nat} {m : LocalMem} {a : Nat} {s : State} (h : s.memWf = true) : (spoilWord k m a s).memWf = true := by
  unfold spoilWord
  extract_lets c x
  obtain ⟨hx, hy, hprog⟩ := VCore.memWf_iff.1 (core_memWf h k)
  refine setCore_memWf (State.fresh_memWf h) ?_
  cases m with
  | x => exact VCore.putX_memWf (core_memWf h k) (Mem.wf_write _ _ _ hx)
  | y => exact VCore.putY_memWf (core_memWf h k) (Mem.wf_write _ _ _ hy)
  | prog => exact VCore.putProg_memWf (core_memWf h k) (Mem.wf_write _ _ _ hprog)

theorem rewriteSlot_memWf {k ctx : Nat} {s : State} (h : s.memWf = true) : (rewriteSlot k ctx s).memWf = true := by
  unfold rewriteSlot
  extract_lets mine s1
  have hs1 : s1.memWf = true := by
    unfold s1
    exact foldl_memWf (fun _ _ ht => spoilWord_memWf ht) _ h
  refine setCore_memWf hs1 ?_
  exact core_memWf hs1 _

theorem putEffect_memWf {k ctx : Nat} {t : Task} {s0 : State} (h : s0.memWf = true) : (putEffect k ctx t s0).memWf = true := by
  unfold putEffect
  extract_lets s c zero
  have hs : s.memWf = true := rewriteSlot_memWf h
  have hzero : ∀ m : Mem 24, Mem.wf m = true → Mem.wf (zero m) = true := fun _ hm => by
    unfold zero
    exact Mem.writes_wf _ _ _ hm
  clear_value zero
  obtain ⟨hx, hy, hprog⟩ := VCore.memWf_iff.1 (show c.memWf = true from core_memWf hs k)
  exact setCore_memWf hs (VCore.memWf_iff.2 ⟨hzero _ hx, hzero _ hy, hprog⟩)

theorem placeEffectOn_memWf {k : Nat} {t : Task} {s : State} (h : s.memWf = true) : (placeEffectOn k t s).memWf = true := by
  unfold placeEffectOn
  extract_lets ctx s1
  have hs1 : s1.memWf = true := putEffect_memWf h
  split
  · exact ite_memWf (putEffect_memWf hs1) hs1
  · exact hs1

theorem setEffect_memWf {rd : Nat → Word} {ranks : List (Nat × Nat)} {o : Nat} {s : State} (h : s.memWf = true) {t : State}
    (ht : setEffect rd ranks o s = some t) : t.memWf = true := by
  unfold setEffect at ht
  split at ht
  · cases ht
    exact dropEffect_memWf h
  · dsimp only at ht
    split at ht
    · cases ht
      exact onEffect_memWf h
    · obtain ⟨x2, hx, ht⟩ := Option.map_eq_some_iff.1 ht
      subst ht
      exact placeEffectOn_memWf (dropEffect_memWf h)

theorem setEffects_memWf {rd : Nat → Word} {ranks : List (Nat × Nat)} {os : List Nat} {s : State} (h : s.memWf = true) {t : State}
    (ht : setEffects rd ranks os s = some t) : t.memWf = true := by
  induction os generalizing s with
  | nil =>
    cases ht
    exact h
  | cons o r ih =>
    unfold setEffects at ht
    split at ht
    · cases ht
    next t1 hc => exact ih (setEffect_memWf h hc) ht

theorem putRanks_memWf {ranks : List (Nat × Nat)} {s : State} (h : s.memWf = true) : (putRanks ranks s).memWf = true :=
    foldl_memWf (fun _ _ ht => onEffect_memWf ht) _ h

theorem planEffects_memWf {rd : Nat → Word} {new : List Nat} {s : State} (h : s.memWf = true) {t : State} (ht : planEffects rd new s = .ok t) :
    t.memWf = true := by
  unfold planEffects at ht
  split at ht
  · cases ht
    exact h
  · split at ht
    · cases ht
    · split at ht
      · cases ht
      next hc2 =>
        cases ht
        refine putRanks_memWf ?_
        exact setEffects_memWf h hc2

theorem applyEffects_memWf {xs : List Staged} {s : State} (h : s.memWf = true) : (applyEffects xs s).memWf = true := by
  unfold applyEffects
  split
  next hc =>
    exact planEffects_memWf h hc
  · exact h

theorem remember_memWf {a : Nat} {t : Word} {ln : Nat} {s : State} (h : s.memWf = true) : (remember a t ln s).memWf = true := h

theorem startRamp_memWf {a : Nat} {v : Word} {ovr : Option Nat} {t : Word} {ln : Nat} {s : State} (h : s.memWf = true) :
    (startRamp a v ovr t ln s).memWf = true := by
  unfold startRamp
  extract_lets n rest present
  exact ite_memWf h h

theorem retrigWrite_memWf {a : Nat} {v : Word} {s : State} (h : s.memWf = true) : (retrigWrite a v s).memWf = true := ite_memWf h h

theorem anchorWrite_memWf {a : Nat} {v t : Word} {s : State} (h : s.memWf = true) : (anchorWrite a v t s).memWf = true := by
  unfold anchorWrite
  extract_lets part p j _ put
  have hput : ∀ ph, (put ph).memWf = true := fun _ => h
  split
  · split
    · exact hput _
    · split
      · exact hput _
      · exact h
  · exact h

theorem State.setGroup_memWf {s : State} {g : Nat} {x : Group} (h : s.memWf = true) : (s.setGroup g x).memWf = true := h

theorem touchGroup_memWf {a : Nat} {s : State} (h : s.memWf = true) : (touchGroup a s).memWf = true := by
  unfold touchGroup
  split
  · extract_lets g
    exact ite_memWf (State.setGroup_memWf h) h
  · exact h

theorem writeEndpoint_memWf {home a : Nat} {v : Word} {ovr : Option Nat} {t : Word} {s : State} (h : s.memWf = true) :
    (writeEndpoint home a v ovr t s).memWf = true := by
  unfold writeEndpoint
  extract_lets t0 pos s0 s1
  have hs0 : s0.memWf = true := by
    unfold s0
    exact foldl_memWf (fun _ _ ht => remember_memWf ht) _ h
  have hs1 : s1.memWf = true := by
    unfold s1
    exact foldl_memWf (fun _ _ ht => startRamp_memWf ht) _ (retrigWrite_memWf (anchorWrite_memWf (touchGroup_memWf hs0)))
  exact hs1

theorem applyRoute_memWf {dest : Nat} {w : Word} {s : State} (h : s.memWf = true) : (applyRoute dest w s).memWf = true := by
  unfold applyRoute
  extract_lets old new
  exact ite_memWf h h

theorem State.setDom_memWf {s : State} {d : Nat} {x : Dom} (h : s.memWf = true) : (s.setDom d x).memWf = true := h

theorem newDomain_memWf {d : Nat} {s : State} (h : s.memWf = true) : (newDomain d s).memWf = true := State.setDom_memWf h

theorem putDomField_memWf {n v : Nat} {s : State} (h : s.memWf = true) : (putDomField n v s).memWf = true := by
  unfold putDomField
  extract_lets t
  split
  · exact ite_memWf h (newDomain_memWf h)
  · exact ite_memWf h (newDomain_memWf h)
  · exact ite_memWf h (newDomain_memWf h)
  · exact State.setDom_memWf h
  · exact State.setDom_memWf h
  · exact h
  · exact h
  · exact h
  · exact h

theorem State.setSession_memWf {s : State} {i : Nat} {x : Session} (h : s.memWf = true) : (s.setSession i x).memWf = true := h

theorem State.onSession_memWf {s : State} {i : Nat} {f : Session → Session} (h : s.memWf = true) : (s.onSession i f).memWf = true :=
    State.setSession_memWf h

theorem putEnv_memWf {t n : Nat} {ws : List Word} {s : State} (h : s.memWf = true) : (putEnv t n ws s).memWf = true := h

theorem putValue_memWf {ln : Nat} {t : Word} {s : State} {x : Staged} (h : s.memWf = true) : (putValue ln t s x).memWf = true := by
  unfold putValue
  extract_lets v
  split
  · exact writeEndpoint_memWf h
  · exact applyRoute_memWf h
  · exact putDomField_memWf h
  · exact h
  · exact h
  · exact ite_memWf (State.onSession_memWf h) h
  · exact putEnv_memWf h

theorem applyWrites_memWf {home : Nat} {ws : List (Nat × Word)} {ovr : Option Nat} {t : Word} {s : State} (h : s.memWf = true) :
    (applyWrites home ws ovr t s).memWf = true := by
  induction ws generalizing s with
  | nil => exact h
  | cons w r ih => exact ih (writeEndpoint_memWf h)

theorem markRetire_memWf {cause : Nat} {s : State} {k : Nat} (h : s.memWf = true) : (markRetire cause s k).memWf = true := by
  unfold markRetire
  split
  · exact h
  · refine setCore_memWf h ?_
    extract_lets
    exact core_memWf h _

theorem State.setCourse_memWf {s : State} {c : Nat} {x : Course} (h : s.memWf = true) : (s.setCourse c x).memWf = true := h

theorem raiseFloor_memWf {e : Entry} {s : State} {c : Nat} (h : s.memWf = true) : (raiseFloor e s c).memWf = true := by
  unfold raiseFloor
  extract_lets x f
  exact ite_memWf (State.setCourse_memWf h) (State.setCourse_memWf h)

theorem writeLedger_memWf {s : State} (h : s.memWf = true) : (writeLedger s).memWf = true := by
  unfold writeLedger
  extract_lets h_1
  exact ite_memWf h h

theorem applyHealthSet_memWf {e : Entry} {s : State} (h : s.memWf = true) : (applyHealthSet e s).memWf = true := by
  unfold applyHealthSet
  extract_lets _ s1 s2
  have hs1 : s1.memWf = true := h
  have hs2 : s2.memWf = true := by
    unfold s2
    refine foldl_memWf (fun _ _ ht => markRetire_memWf ht) _ ?_
    exact foldl_memWf (fun _ _ ht => raiseFloor_memWf ht) _ hs1
  exact ite_memWf (writeLedger_memWf hs2) hs2

end Sys2Proof.Machine
end

section
/-! PROOFS. The canonical form of the memories: what the commands on time, voices, the Vault, sessions and events keep of it. -/

namespace Sys2Proof.Machine

theorem planView_memWf {render : Option Nat} {s : State} (h : s.memWf = true) : (planView render s).memWf = true := by
  obtain ⟨hstore, hwin, hwork, hsc, _⟩ := State.memWf_iff.1 h
  refine State.memWf_iff.2 ⟨hstore, hwin, hwork, hsc, ?_⟩
  unfold planView Tab.mapVals
  dsimp only
  rw [List.all_map, List.all_eq_true]
  exact fun x _ => core_memWf h x.1

theorem cardPlaceLoad_keepsForm : cardPlaceLoad.KeepsForm := by
  refine ⟨fun e s h => ?_, fun _ _ _ h => h⟩
  dsimp -zeta only [cardPlaceLoad]
  extract_lets ks
  exact finishNow_memWf h

theorem bumpEpoch_memWf {s : State} (h : s.memWf = true) : (bumpEpoch s).memWf = true := h

theorem cardDecimSet_keepsForm : cardDecimSet.KeepsForm := by
  refine ⟨fun e s h => ?_, fun _ _ _ h => h⟩
  dsimp -zeta only [cardDecimSet]
  extract_lets s1
  have hs1 : s1.memWf = true := by
    unfold s1
    exact foldl_memWf (fun _ _ ht => State.setCourse_memWf ht) _ h
  exact finishNow_memWf (bumpEpoch_memWf hs1)

theorem cardDecimStatus_keepsForm : cardDecimStatus.KeepsForm := by
  refine ⟨fun e s h => ?_, fun _ _ _ h => h⟩
  dsimp -zeta only [cardDecimStatus]
  extract_lets n c
  exact finishNow_memWf (State.setCourse_memWf h)

theorem startStepped_memWf {op : Nat} {e : Entry} {n finalAt : Nat} {undo : List Word} {s : State} (h : s.memWf = true) :
    (startStepped op e n finalAt undo s).memWf = true := by
  unfold startStepped
  extract_lets j s1 _ s2
  have hs1 : s1.memWf = true := journalAdd_memWf h
  have hs2 : s2.memWf = true := hs1
  exact answer_memWf hs2

theorem cardLifeAdvance_keepsForm : cardLifeAdvance.KeepsForm := ⟨fun _ _ h => startStepped_memWf h, fun _ _ _ h => h⟩

theorem takeSlot_memWf {s : State} (h : s.memWf = true) {y : Nat} {t : State} (ht : takeSlot s = some (y, t)) : t.memWf = true := by
  unfold takeSlot at ht
  split at ht
  · cases ht
    exact h
  · split at ht
    · cases ht
    · cases ht
      exact h

theorem State.onPart_memWf {s : State} {p : Nat} {f : PartCtr → PartCtr} (h : s.memWf = true) : (s.onPart p f).memWf = true :=
    State.setPartCtr_memWf h

theorem State.setVoice_memWf {s : State} {i : Nat} {v : Voice} (h : s.memWf = true) : (s.setVoice i v).memWf = true := h

theorem acceptStart_memWf {q : StartReq} {s : State} (h : s.memWf = true) {y : Nat} {t : State} (ht : acceptStart q s = some (y, t)) :
    t.memWf = true := by
  unfold acceptStart at ht
  split at ht
  · cases ht
  next t1 hc =>
    have ht1 : t1.memWf = true := takeSlot_memWf h hc
    dsimp only at ht
    cases ht
    exact State.onPart_memWf ht1

theorem setTimes_memWf {i : Nat} {t : Word} {x : StartTimes} {unstamped : Bool} {s : State} (h : s.memWf = true) : (setTimes i t x unstamped s).memWf
    = true := State.setVoice_memWf h

theorem countLate_memWf {sid : Option Nat} {lateness : Nat} {s : State} (h : s.memWf = true) : (countLate sid lateness s).memWf = true := by
  unfold countLate
  split
  · exact h
  · extract_lets x_1
    exact State.setSession_memWf h

theorem addJob_memWf {jb : Job} {s : State} (h : s.memWf = true) : (addJob jb s).memWf = true := h

theorem enterTimeline_memWf {t : TEvent} {s : State} (h : s.memWf = true) : (enterTimeline t s).memWf = true := h

theorem markAnswered_memWf {j : Word} {s : State} (h : s.memWf = true) : (markAnswered j s).memWf = true := h

theorem queueStamped_memWf {op : Nat} {e : Entry} {jb : Job} {key : Word} {ws : List Word} {s : State} (h : s.memWf = true) :
    (queueStamped op e jb key ws s).memWf = true := by
  unfold queueStamped
  extract_lets j sid s1 s2
  have hs1 : s1.memWf = true := addJob_memWf (journalAdd_memWf h)
  have hs2 : s2.memWf = true := enterTimeline_memWf hs1
  exact answer_memWf (markAnswered_memWf hs2)

theorem queueBoundary_memWf {op : Nat} {e : Entry} {jb : Job} {s : State} (h : s.memWf = true) : (queueBoundary op e jb s).memWf = true :=
    addJob_memWf (journalAdd_memWf h)

theorem runVoiceStart_memWf {c : Card} {e : Entry} {s : State} (h : s.memWf = true) : (runVoiceStart c e s).memWf = true := by
  unfold runVoiceStart
  split
  · exact h
  next hc =>
    extract_lets b reach t_1 x_1 s2 s3 x_2
    have hs2 : s2.memWf = true := by
      unfold s2
      refine setTimes_memWf ?_
      exact acceptStart_memWf h hc
    have hs3 : s3.memWf = true := ite_memWf (countLate_memWf hs2) hs2
    split
    · exact queueStamped_memWf hs3
    · refine queueBoundary_memWf ?_
      refine setTimes_memWf ?_
      exact acceptStart_memWf h hc

theorem cardVoiceStart_keepsForm : cardVoiceStart.KeepsForm := ⟨fun _ _ h => runVoiceStart_memWf h, fun _ _ _ h => h⟩

theorem runOnVoice_memWf {op : Nat} {e : Entry} {s : State} (h : s.memWf = true) : (runOnVoice op e s).memWf = true := by
  unfold runOnVoice
  extract_lets c
  exact ite_memWf (queueStamped_memWf h) (queueBoundary_memWf h)

theorem cardVoiceRelease_keepsForm : cardVoiceRelease.KeepsForm := ⟨fun _ _ h => runOnVoice_memWf h, fun _ _ _ h => h⟩

theorem cardVoiceEnd_keepsForm : cardVoiceEnd.KeepsForm := ⟨fun _ _ h => runOnVoice_memWf h, fun _ _ _ h => h⟩

theorem cardVaultStatus_keepsForm : cardVaultStatus.KeepsForm := by
  refine ⟨fun e s h => ?_, fun _ _ _ h => h⟩
  dsimp -zeta only [cardVaultStatus]
  extract_lets xs
  exact finishNow_memWf h

theorem putMk_memWf {slot : Nat} {key : BitVec 256} {s : State} (h : s.memWf = true) : (putMk slot key s).memWf = true := h

theorem cardKeyWrap_keepsForm : cardKeyWrap.KeepsForm := by
  refine ⟨fun e s h => ?_, fun _ _ _ h => h⟩
  dsimp -zeta only [cardKeyWrap]
  extract_lets slot mk
  exact finishNow_memWf (putMk_memWf h)

theorem cardKeyLoad_keepsForm : cardKeyLoad.KeepsForm := by
  refine ⟨fun e s h => ?_, fun _ _ _ h => h⟩
  dsimp -zeta only [cardKeyLoad]
  extract_lets s1
  have hs1 : s1.memWf = true := putMk_memWf h
  exact finishNow_memWf hs1

theorem cardTamperSet_keepsForm : cardTamperSet.KeepsForm := ⟨fun _ _ h => queueBoundary_memWf h, fun _ _ _ h => h⟩

theorem cardTamperClear_keepsForm : cardTamperClear.KeepsForm := by
  refine ⟨fun e s h => ?_, fun _ _ _ h => h⟩
  dsimp -zeta only [cardTamperClear]
  extract_lets _ s1
  have hs1 : s1.memWf = true := h
  exact finishNow_memWf hs1

theorem State.setUart_memWf {s : State} {u : Nat} {x : Uart} (h : s.memWf = true) : (s.setUart u x).memWf = true := h

theorem cardUartRecv_keepsForm : cardUartRecv.KeepsForm := by
  refine ⟨fun e s h => ?_, fun _ _ _ h => h⟩
  dsimp -zeta only [cardUartRecv]
  extract_lets u x got x1
  exact finishNow_memWf (State.setUart_memWf h)

theorem cardPkgWrite_keepsForm : cardPkgWrite.KeepsForm := by
  refine ⟨fun e s h => ?_, fun _ _ _ h => h⟩
  dsimp -zeta only [cardPkgWrite]
  extract_lets ws
  exact finishNow_memWf h

theorem cardPkgCommit_keepsForm : cardPkgCommit.KeepsForm := ⟨fun _ _ h => startStepped_memWf h, fun _ _ _ h => h⟩

theorem cardPkgDrop_keepsForm : cardPkgDrop.KeepsForm := ⟨fun _ _ h => queueBoundary_memWf h, fun _ _ _ h => h⟩

theorem cardTimeClockSelect_keepsForm : cardTimeClockSelect.KeepsForm := ⟨fun _ _ h => queueBoundary_memWf h, fun _ _ _ h => h⟩

theorem stageFields_memWf {op : Nat} {e : Entry} {fs : List Staged} {s : State} (h : s.memWf = true) : (stageFields op e fs s).memWf = true := by
  unfold stageFields
  extract_lets j s1 _ s2
  have hs1 : s1.memWf = true := journalAdd_memWf h
  have hs2 : s2.memWf = true := hs1
  exact answer_memWf (markAnswered_memWf hs2)

theorem cardTimeDomainSet_keepsForm : cardTimeDomainSet.KeepsForm := ⟨fun _ _ h => stageFields_memWf h, fun _ _ _ h => h⟩

theorem absorbPhase_memWf {s : State} {d : Nat} (h : s.memWf = true) : (absorbPhase s d).memWf = true := by
  unfold absorbPhase
  extract_lets x total moved
  exact ite_memWf (State.setDom_memWf h) h

theorem tickPhase_memWf {s : State} (h : s.memWf = true) : (tickPhase s).memWf = true := by
  unfold tickPhase
  extract_lets t
  have ht : t.memWf = true := by
    unfold t
    split
    · exact foldl_memWf (fun _ _ ht => absorbPhase_memWf ht) _ h
    · exact h
  exact ht

theorem cardTimeRateSet_keepsForm : cardTimeRateSet.KeepsForm := by
  refine ⟨fun e s h => ?_, fun _ _ _ h => h⟩
  dsimp -zeta only [cardTimeRateSet]
  extract_lets s_1 _ _ s1
  have hs_1 : s_1.memWf = true := tickPhase_memWf h
  have hs1 : s1.memWf = true := hs_1
  exact bumpEpoch_memWf (queueBoundary_memWf hs1)

theorem cardUartSend_keepsForm : cardUartSend.KeepsForm := by
  refine ⟨fun e s h => ?_, fun _ _ _ h => h⟩
  dsimp -zeta only [cardUartSend]
  split
  · extract_lets t
    exact queueStamped_memWf h
  · exact queueBoundary_memWf h

theorem cardUartSet_keepsForm : cardUartSet.KeepsForm := ⟨fun _ _ h => queueBoundary_memWf h, fun _ _ _ h => h⟩

theorem journalSet_memWf {j : Word} {f : JEntry → JEntry} {s : State} (h : s.memWf = true) : (journalSet j f s).memWf = true := h

theorem rollBack_memWf {j : Word} {e : Entry} {second : Bool} {s : State} (h : s.memWf = true) : (rollBack j e second s).memWf = true := by
  unfold rollBack
  extract_lets s1
  have hs1 : s1.memWf = true := journalSet_memWf h
  exact ite_memWf (respond_memWf hs1) hs1

theorem cardConfigDiscard_keepsForm : cardConfigDiscard.KeepsForm := by
  refine ⟨fun e s h => ?_, fun _ _ _ h => h⟩
  dsimp -zeta only [cardConfigDiscard]
  extract_lets js _ s1
  have hs1 : s1.memWf = true := by
    unfold s1
    exact foldl_memWf (fun _ _ ht => rollBack_memWf ht) _ h
  exact finishNow_memWf hs1

theorem cardTimerSet_keepsForm : cardTimerSet.KeepsForm := ⟨fun _ _ h => queueBoundary_memWf h, fun _ _ _ h => h⟩

theorem State.setTimer_memWf {s : State} {t : Nat} {x : Timer} (h : s.memWf = true) : (s.setTimer t x).memWf = true := h

theorem cardTimerRead_keepsForm : cardTimerRead.KeepsForm := by
  refine ⟨fun e s h => ?_, fun _ _ _ h => h⟩
  dsimp -zeta only [cardTimerRead]
  extract_lets n t
  exact finishNow_memWf (State.setTimer_memWf h)

theorem cardTimeGet_keepsForm : cardTimeGet.KeepsForm := ⟨fun _ _ h => finishNow_memWf (ite_memWf h h), fun _ _ _ h => h⟩

theorem openSession_memWf {transport port : Nat} {identity : BitVec 64} {s : State} (h : s.memWf = true) {y : Nat} {t : State}
    (ht : openSession transport port identity s = some (y, t)) : t.memWf = true := by
  unfold openSession at ht
  split at ht
  · cases ht
  · dsimp only at ht
    cases ht
    exact h

theorem refuseOpen_memWf {s : State} (h : s.memWf = true) : (refuseOpen s).memWf = true := h

theorem ensureMailboxSession_memWf {ch : Nat} {s : State} (h : s.memWf = true) : (ensureMailboxSession ch s).memWf = true := by
  unfold ensureMailboxSession
  split
  · exact h
  · split
    next hc1 =>
      exact openSession_memWf h hc1
    · exact refuseOpen_memWf h

theorem countIgnored_memWf {i : Nat} {s : State} (h : s.memWf = true) : (countIgnored i s).memWf = true := State.setSession_memWf h

theorem putRpn_memWf {i key lo v : Nat} {s : State} (h : s.memWf = true) : (putRpn i key lo v s).memWf = true := by
  unfold putRpn
  extract_lets x r
  exact State.setSession_memWf h

theorem control7Act_memWf {i key part n v : Nat} {s : State} (h : s.memWf = true) : (control7Act i key part n v s).1.memWf = true := by
  unfold control7Act
  extract_lets x s1 r
  have hs1 : s1.memWf = true := putRpn_memWf h
  split
  · exact State.setSession_memWf h
  · exact State.setSession_memWf h
  · exact putRpn_memWf h
  · exact putRpn_memWf h
  · exact State.setSession_memWf h
  · exact State.setSession_memWf h
  · exact putRpn_memWf h
  · split
    · exact hs1
    · exact countIgnored_memWf hs1
  · split
    · exact h
    · exact countIgnored_memWf h

theorem messageAct_memWf {i key part : Nat} {m : Message} {s : State} (h : s.memWf = true) : (messageAct i key part m s).1.memWf = true := by
  unfold messageAct
  extract_lets x
  split
  · exact h
  · exact h
  · exact h
  · exact h
  · exact h
  · exact h
  · exact State.setSession_memWf h
  · exact State.setSession_memWf h
  · split
    · exact h
    · exact countIgnored_memWf h
  · exact control7Act_memWf h
  · exact h
  · exact countIgnored_memWf h
  · exact h
  · exact h
  · exact h
  · exact h
  · exact countIgnored_memWf h

theorem keepPost_memWf {p : Nat × Nat × List Word} {s : State} (h : s.memWf = true) : (keepPost p s).memWf = true := h

theorem traceWrite_memWf {rec : List Word} {s : State} (h : s.memWf = true) : (traceWrite rec s).memWf = true :=
  setWin_memWf h (Mem.wf_putWords _ _ rec (State.memWf_win h))

theorem tracePut_memWf {rec : List Word} {s : State} (h : s.memWf = true) : (tracePut rec s).memWf = true := by
  unfold tracePut
  split
  · exact ite_memWf (traceWrite_memWf h) h
  · split
    · extract_lets s1
      have hs1 : s1.memWf = true := traceWrite_memWf h
      exact traceWrite_memWf hs1
    · exact h

theorem traceDevice_memWf {ty unit : Nat} {w2 w3 : Word} {s : State} (h : s.memWf = true) : (traceDevice ty unit w2 w3 s).memWf = true :=
    ite_memWf (tracePut_memWf h) h

theorem giveEntry_memWf {who q : Nat} {e : List Word} {s : State} (h : s.memWf = true) : (giveEntry who q e s).memWf = true := by
  unfold giveEntry
  extract_lets c w0 s1
  have hs1 : s1.memWf = true := setSvc_memWf h (svc_memWf h _)
  exact traceDevice_memWf hs1

theorem State.setQueue_memWf {s : State} {q : Nat} {es : List (List Word)} (h : s.memWf = true) : (s.setQueue q es).memWf = true := h

theorem enterQueue_memWf {q : Nat} {e : List Word} {s : State} (h : s.memWf = true) {t : State} (ht : enterQueue q e s = some t) : t.memWf = true :=
    by
  unfold enterQueue at ht
  split at ht
  · cases ht
    exact giveEntry_memWf h
  · split at ht
    · cases ht
      exact State.setQueue_memWf h
    · cases ht

theorem countRefused_memWf {unit producer q : Nat} {s : State} (h : s.memWf = true) : (countRefused unit producer q s).memWf = true :=
    traceDevice_memWf h

theorem tryPost_memWf {p : Nat × Nat × List Word} {s : State} (h : s.memWf = true) : (tryPost p s).memWf = true := by
  unfold tryPost
  split
  next t hc => exact enterQueue_memWf h hc
  · exact keepPost_memWf (countRefused_memWf h)

theorem hwPost_memWf {producer q : Nat} {e : List Word} {s : State} (h : s.memWf = true) : (hwPost producer q e s).memWf = true :=
    ite_memWf (keepPost_memWf h) (tryPost_memWf h)

theorem hwPostNew_memWf {producer q : Nat} {s : State} (h : s.memWf = true) : (hwPostNew producer q s).memWf = true :=
    hwPost_memWf (State.fresh_memWf (State.fresh_memWf h))

theorem countOverflow_memWf {i : Nat} {s : State} (h : s.memWf = true) : (countOverflow i s).memWf = true := State.onSession_memWf h

theorem countIntake_memWf {s : State} (h : s.memWf = true) : (countIntake s).memWf = true := h

theorem armResync_memWf {i : Nat} {sid : Option Nat} {t : Word} {s : State} (h : s.memWf = true) : (armResync i sid t s).1.memWf = true := by
  unfold armResync
  extract_lets v n reach tpf at_
  split
  · exact h
  · split
    · exact State.setVoice_memWf h
    · exact countLate_memWf (State.setVoice_memWf h)

theorem traceBay_memWf {ty unit b slot : Nat} {w2 w3 : Word} {s : State} (h : s.memWf = true) : (traceBay ty unit b slot w2 w3 s).memWf = true :=
    ite_memWf (tracePut_memWf h) h

theorem noSlot_memWf {p : Nat} {s : State} (h : s.memWf = true) : (noSlot p s).memWf = true := traceBay_memWf (State.onPart_memWf h)

theorem newVoice_memWf {sid : Option Nat} {p k : Nat} {vel : BitVec 16} {t asked : Word} {late : Bool} {s : State} (h : s.memWf = true) :
    (newVoice sid p k vel t asked late s).1.memWf = true := by
  unfold newVoice
  extract_lets b q x
  split
  · exact noSlot_memWf h
  next hc =>
    extract_lets s2
    have hs2 : s2.memWf = true := by
      unfold s2
      refine enterTimeline_memWf ?_
      refine setTimes_memWf ?_
      exact acceptStart_memWf h hc
    split
    · exact countLate_memWf hs2
    · exact hs2

theorem adoptGroup_memWf {part note g : Nat} {s : State} (h : s.memWf = true) : (adoptGroup part note g s).memWf = true := h

theorem clearGroup_memWf {g : Nat} {s : State} (h : s.memWf = true) : (clearGroup g s).memWf = true := h

theorem bindGroup_memWf {part note : Nat} {s : State} (h : s.memWf = true) {y : Nat} {t : State} (ht : bindGroup part note s = some (y, t)) : t.memWf
    = true := by
  unfold bindGroup at ht
  split at ht
  · cases ht
    exact h
  · split at ht
    · cases ht
    · cases ht
      exact adoptGroup_memWf (State.setGroup_memWf (clearGroup_memWf h))

theorem countPnMiss_memWf {part : Nat} {s : State} (h : s.memWf = true) : (countPnMiss part s).memWf = true := h

theorem placeEvent_memWf {sid : Option Nat} {act : Action} {t : Word} {late : Bool} {s : State} (h : s.memWf = true) :
    (placeEvent sid act t late s).1.memWf = true := by
  unfold placeEvent
  extract_lets b item
  split
  · split
    · extract_lets r
      exact enterTimeline_memWf (armResync_memWf h)
    · exact enterTimeline_memWf h
    · exact newVoice_memWf h
  · split
    · extract_lets r
      exact enterTimeline_memWf (armResync_memWf h)
    · exact enterTimeline_memWf h
  · split
    next hc =>
      refine enterTimeline_memWf ?_
      exact bindGroup_memWf h hc
    · exact countPnMiss_memWf h
  · split
    next hc =>
      refine enterTimeline_memWf ?_
      exact bindGroup_memWf h hc
    · exact countPnMiss_memWf h
  · exact enterTimeline_memWf h

theorem enterEvent_memWf {i : Nat} {act : Action} {stamp : Word} {held : Bool} {s : State} (h : s.memWf = true) :
    (enterEvent i act stamp held s).memWf = true := by
  unfold enterEvent
  extract_lets b reach s1
  have hs1 : s1.memWf = true := countLate_memWf (State.onSession_memWf h)
  split
  · exact State.onSession_memWf h
  · exact ite_memWf (placeEvent_memWf (State.onSession_memWf h)) (countOverflow_memWf h)
  · exact ite_memWf (State.onSession_memWf h) (ite_memWf (countOverflow_memWf h) (placeEvent_memWf hs1))

theorem waitIntake_memWf {i : Nat} {act : Action} {stamp : Word} {s : State} (h : s.memWf = true) : (waitIntake i act stamp s).memWf = true :=
    ite_memWf h h

theorem intakeEvent_memWf {i : Nat} {act : Action} {stamp : Word} {held : Bool} {s : State} (h : s.memWf = true) :
    (intakeEvent i act stamp held s).memWf = true := ite_memWf (countIntake_memWf (enterEvent_memWf h)) (waitIntake_memWf h)

theorem deliver_memWf {i : Nat} {u : Option Nat} {act : Action} {stamp : Word} {s : State} (h : s.memWf = true) : (deliver i u act stamp s).memWf =
    true := by
  unfold deliver
  split
  · split
    · extract_lets x_1
      exact ite_memWf (hwPostNew_memWf (State.setUart_memWf h)) (countOverflow_memWf h)
    · exact ite_memWf (State.onSession_memWf h) (countOverflow_memWf h)
  · exact intakeEvent_memWf h

theorem enterPacket_memWf {i : Nat} {m : Nat × Message} {stamp : Word} {st : State × Nat} (h : st.1.memWf = true) : (enterPacket i m stamp st).1.memWf
    = true := by
  unfold enterPacket
  extract_lets s part a s1 reach
  have ha : a.1.memWf = true := messageAct_memWf h
  split
  · exact ha
  · split
    · exact deliver_memWf ha
    · split
      · exact waitIntake_memWf ha
      · have hs1 : s1.memWf = true := State.onSession_memWf (countIntake_memWf ha)
        split
        · exact placeEvent_memWf (countLate_memWf hs1)
        · exact placeEvent_memWf hs1

theorem enterPackets_memWf {e : Entry} {i : Nat} {ps : List Packet} {s : State} (h : s.memWf = true) : (enterPackets e i ps s).1.memWf = true :=
  foldl_holds (fun st : State × Nat => st.1.memWf = true) (fun _ _ hst => enterPacket_memWf hst) ps h

end Sys2Proof.Machine
end

section
/-! PROOFS. The canonical form of the memories: what the commands on content, banks, DAC, Bays and audio keep of it, and so every card. -/

namespace Sys2Proof.Machine

theorem cardEventSend_keepsForm : cardEventSend.KeepsForm := by
  refine ⟨fun e s h => ?_, fun e f s h => ?_⟩
  · dsimp -zeta only [cardEventSend]
    extract_lets s1
    have hs1 : s1.memWf = true := ensureMailboxSession_memWf h
    split
    · exact hs1
    · exact finishNow_memWf (enterPackets_memWf hs1)
  · dsimp only [cardEventSend]
    split
    · exact refuseOpen_memWf h
    · exact h

theorem finishUnjournalled_memWf {e : Entry} {ws : List Word} {s : State} (h : s.memWf = true) : (finishUnjournalled e ws s).memWf = true :=
    answer_memWf h

theorem cardSysNop_keepsForm : cardSysNop.KeepsForm := ⟨fun _ _ h => finishUnjournalled_memWf h, fun _ _ _ h => h⟩

theorem cardConfigEpoch_keepsForm : cardConfigEpoch.KeepsForm := ⟨fun _ _ h => finishUnjournalled_memWf h, fun _ _ _ h => h⟩

theorem cardJournalQuery_keepsForm : cardJournalQuery.KeepsForm := by
  refine ⟨fun e s h => ?_, fun _ _ _ h => h⟩
  dsimp -zeta only [cardJournalQuery]
  split
  · exact finishUnjournalled_memWf h
  · exact finishUnjournalled_memWf h

theorem cardConfigCommit_keepsForm : cardConfigCommit.KeepsForm := by
  refine ⟨fun e s h => ?_, fun _ _ _ h => h⟩
  dsimp -zeta only [cardConfigCommit]
  split
  · extract_lets t
    exact queueStamped_memWf h
  · exact queueBoundary_memWf h

theorem cardSessionList_keepsForm : cardSessionList.KeepsForm := ⟨fun _ _ h => finishNow_memWf (ite_memWf h h), fun _ _ _ h => h⟩

theorem cardSessionQuery_keepsForm : cardSessionQuery.KeepsForm := by
  refine ⟨fun e s h => ?_, fun _ _ _ h => h⟩
  dsimp -zeta only [cardSessionQuery]
  extract_lets i
  exact finishNow_memWf (ite_memWf (State.onSession_memWf h) h)

theorem cardSessionSet_keepsForm : cardSessionSet.KeepsForm :=
    ⟨fun _ _ h => ite_memWf (stageFields_memWf h) (queueBoundary_memWf h), fun _ _ _ h => h⟩

theorem markClosing_memWf {i : Nat} {rel : Option Bool} {s : State} (h : s.memWf = true) : (markClosing i rel s).memWf = true :=
    State.onSession_memWf h

theorem cardSessionClose_keepsForm : cardSessionClose.KeepsForm := ⟨fun _ _ h => markClosing_memWf (queueBoundary_memWf h), fun _ _ _ h => h⟩

theorem cardParamGet_keepsForm : cardParamGet.KeepsForm := ⟨fun _ _ h => finishNow_memWf h, fun _ _ _ h => h⟩

theorem putHalted_memWf {e : Entry} {s : State} (h : s.memWf = true) : (putHalted e s).memWf = true := by
  unfold putHalted
  refine bumpEpoch_memWf ?_
  exact foldl_memWf (fun _ _ ht => writeEndpoint_memWf ht) _ h

theorem cardParamSet_keepsForm : cardParamSet.KeepsForm := ⟨fun _ _ h => ite_memWf (stageFields_memWf h)
    (ite_memWf (finishNow_memWf (putHalted_memWf h)) (ite_memWf (queueStamped_memWf h) (queueBoundary_memWf h))), fun _ _ _ h => h⟩

theorem cardEnvWrite_keepsForm : cardEnvWrite.KeepsForm := ⟨fun _ _ h => ite_memWf (stageFields_memWf h) (queueBoundary_memWf h), fun _ _ _ h => h⟩

theorem cardSysReset_keepsForm : cardSysReset.KeepsForm := by
  refine ⟨fun e s h => ?_, fun _ _ _ h => h⟩
  dsimp -zeta only [cardSysReset]
  extract_lets s1
  have hs1 : s1.memWf = true := finishNow_memWf h
  exact hs1

theorem cardSysPower_keepsForm : cardSysPower.KeepsForm := by
  refine ⟨fun e s h => ?_, fun _ _ _ h => h⟩
  dsimp -zeta only [cardSysPower]
  extract_lets s1
  have hs1 : s1.memWf = true := finishNow_memWf h
  exact ite_memWf hs1 hs1

theorem cardBankGive_keepsForm : cardBankGive.KeepsForm := ⟨fun _ _ h => startStepped_memWf h, fun _ _ _ h => h⟩

theorem cardBankStatus_keepsForm : cardBankStatus.KeepsForm := ⟨fun _ _ h => finishNow_memWf (ite_memWf h h), fun _ _ _ h => h⟩

theorem cardHwRegionSet_keepsForm : cardHwRegionSet.KeepsForm :=
    ⟨fun _ _ h => ite_memWf (stageFields_memWf h) (queueBoundary_memWf h), fun _ _ _ h => h⟩

theorem enterRequest_memWf {r : MemReq} {s : State} (h : s.memWf = true) : (enterRequest r s).memWf = true := by
  unfold enterRequest
  extract_lets qs
  exact h

theorem postRequest_memWf {b o : Nat} {stream : Bool} {s : State} (h : s.memWf = true) : (postRequest b o stream s).memWf = true :=
    enterRequest_memWf h

theorem postCrypt_memWf {prot : Bool} {s : State} (h : s.memWf = true) : (postCrypt prot s).memWf = true := by
  have hfresh : s.fresh.fresh.memWf = true := State.fresh_memWf (State.fresh_memWf h)
  unfold postCrypt
  split
  · exact h
  · split
    next t hc => exact enterQueue_memWf hfresh hc
    · exact countRefused_memWf hfresh

theorem State.onResid_memWf {s : State} {b o : Nat} {f : Residency → Residency} (h : s.memWf = true) : (s.onResid b o f).memWf = true := h

theorem wipeBank_memWf {b : Nat} {s : State} (h : s.memWf = true) : (wipeBank b s).memWf = true :=
  setStore_memWf h (Mem.wfFrom_filter _ (State.memWf_store h))

theorem State.setBank_memWf {s : State} {n : Nat} {x : BankRec} (h : s.memWf = true) : (s.setBank n x).memWf = true := h

theorem wakeBank_memWf {b : Nat} {s : State} (h : s.memWf = true) : (wakeBank b s).memWf = true := by
  unfold wakeBank
  split
  · extract_lets _ s1
    have hs1 : s1.memWf = true := State.setBank_memWf h
    exact h
  · exact h

theorem zeroise_memWf {b : Nat} {s : State} (h : s.memWf = true) : (zeroise b s).memWf = true := by
  unfold zeroise
  extract_lets s1
  have hs1 : s1.memWf = true := wipeBank_memWf (wakeBank_memWf h)
  exact State.setBank_memWf hs1

theorem sweepBanks_memWf {ns : List Nat} {s : State} (h : s.memWf = true) : (sweepBanks ns s).memWf = true :=
    foldl_memWf (fun _ _ ht => ite_memWf (zeroise_memWf ht) ht) _ h

theorem demote_memWf {b o : Nat} {s : State} (h : s.memWf = true) : (demote b o s).memWf = true := by
  unfold demote
  extract_lets ns
  exact sweepBanks_memWf (State.onResid_memWf h)

theorem makeRoom_memWf {b need : Nat} {prot : Bool} {limit : Option Nat} {banks : List Nat} {s : State} {fuel n : Nat} (h : s.memWf = true)
    {t : State}
    {y : Nat × List Run} (ht : makeRoom b need prot limit banks s fuel n = some (t, y)) : t.memWf = true := by
  induction fuel generalizing s n with
  | zero =>
    obtain ⟨rs, _, hrs⟩ := Option.map_eq_some_iff.1 ht
    cases hrs
    exact h
  | succ fuel ih =>
    unfold makeRoom at ht
    split at ht
    · cases ht
      exact h
    · split at ht
      · cases ht
      · exact ih (demote_memWf h) ht

theorem roomIn_memWf {b need : Nat} {prot : Bool} {limit : Option Nat} {banks : List Nat} {s : State} (h : s.memWf = true) {t : State}
    {y : Nat × List Run}
    (ht : roomIn b need prot limit banks s = some (t, y)) : t.memWf = true := by
  obtain ⟨x, hx, hxt⟩ := Option.map_eq_some_iff.1 ht
  cases hxt
  exact State.fresh_memWf (makeRoom_memWf h (show _ = some (x.1, x.2) from hx))

theorem claimSpace_memWf {b : Nat} {limit : Option Nat} {o : Nat} {s : State} (h : s.memWf = true) {t : State} (ht : claimSpace b limit o s = some t)
    :
    t.memWf = true := by
  obtain ⟨x, hx, hxt⟩ := Option.map_eq_some_iff.1 ht
  cases hxt
  exact postCrypt_memWf (State.onResid_memWf (roomIn_memWf h (show _ = some (x.1, x.2) from hx)))

theorem claimCopy_memWf {b : Nat} {stream : Bool} {limit : Option Nat} {o : Nat} {s : State} (h : s.memWf = true) {t : State}
    (ht : claimCopy b stream limit o s = some t) : t.memWf = true := by
  unfold claimCopy at ht
  split at ht
  · cases ht
    exact h
  · obtain ⟨x, hx, hxt⟩ := Option.map_eq_some_iff.1 ht
    cases hxt
    exact postRequest_memWf (claimSpace_memWf h hx)

theorem cardContentPin_keepsForm : cardContentPin.KeepsForm := by
  refine ⟨fun e s h => ?_, fun _ _ _ h => h⟩
  dsimp -zeta only [cardContentPin]
  extract_lets b o s1 s1_1
  have hs1 : s1.memWf = true := State.onResid_memWf h
  have hs1_1 : s1_1.memWf = true := by
    unfold s1_1
    refine State.onResid_memWf ?_
    exact getD_memWf (fun _ ht => claimCopy_memWf h ht) h
  exact ite_memWf (finishNow_memWf hs1) (ite_memWf (finishNow_memWf hs1_1) (addJob_memWf (journalAdd_memWf hs1_1)))

theorem cardTraceSet_keepsForm : cardTraceSet.KeepsForm := ⟨fun _ _ h => queueBoundary_memWf h, fun _ _ _ h => h⟩

theorem cardTraceStatus_keepsForm : cardTraceStatus.KeepsForm := ⟨fun _ _ h => finishNow_memWf h, fun _ _ _ h => h⟩

theorem cardHealthStatus_keepsForm : cardHealthStatus.KeepsForm := ⟨fun _ _ h => finishNow_memWf (ite_memWf h h), fun _ _ _ h => h⟩

theorem cardHealthLedger_keepsForm : cardHealthLedger.KeepsForm := ⟨fun _ _ h => finishNow_memWf h, fun _ _ _ h => h⟩

theorem cardHealthSet_keepsForm : cardHealthSet.KeepsForm := ⟨fun _ _ h => queueBoundary_memWf h, fun _ _ _ h => h⟩

theorem finalAnswer_memWf {j : Word} {e : Entry} {st : Status} {ws : List Word} {s : State} (h : s.memWf = true) : (finalAnswer j e st ws s).memWf =
    true := by
  unfold finalAnswer
  split
  · exact h
  · exact ite_memWf (ite_memWf h (respond_memWf h)) (answer_memWf h)

theorem endCommand_memWf {js : JState} {j : Word} {e : Entry} {st : Status} {ws : List Word} {s : State} (h : s.memWf = true) :
    (endCommand js j e st ws s).memWf = true := by
  unfold endCommand
  extract_lets s1
  have hs1 : s1.memWf = true := journalSet_memWf h
  exact ite_memWf (finalAnswer_memWf hs1) hs1

theorem State.setDacCh_memWf {s : State} {d : Nat} {x : DacCh} (h : s.memWf = true) : (s.setDacCh d x).memWf = true := h

theorem writeCv_memWf {s : State} {w : Nat × BitVec 16} (h : s.memWf = true) : (writeCv s w).memWf = true := by
  unfold writeCv
  extract_lets x
  exact ite_memWf (State.setDacCh_memWf h) h

theorem runStampedCv_memWf {e : Entry} {s : State} (h : s.memWf = true) : (runStampedCv e s).memWf = true := by
  unfold runStampedCv
  extract_lets j s1 s2
  have hs1 : s1.memWf = true := answer_memWf (markAnswered_memWf (journalAdd_memWf h))
  clear_value s1
  have hs2 : s2.memWf = true := by
    unfold s2
    refine foldl_memWf (fun t x ht => ?_) _ hs1
    exact ht
  split
  · exact endCommand_memWf (foldl_memWf (fun _ _ ht => writeCv_memWf ht) _ hs1)
  · exact addJob_memWf hs2

theorem cardDacWrite_keepsForm : cardDacWrite.KeepsForm := by
  refine ⟨fun e s h => ?_, fun _ _ _ h => h⟩
  dsimp -zeta only [cardDacWrite]
  split
  · exact runStampedCv_memWf h
  · refine finishNow_memWf ?_
    exact foldl_memWf (fun _ _ ht => writeCv_memWf ht) _ h

theorem putDac_memWf {s : State} {d : Dac} (h : s.memWf = true) : State.memWf { s with dac := d } = true := h

theorem cardDacStatus_keepsForm : cardDacStatus.KeepsForm := by
  refine ⟨fun e s h => ?_, fun _ _ _ h => h⟩
  show State.memWf (finishNow 0x802 e (dacWords s) _) = true
  exact finishNow_memWf (ite_memWf (putDac_memWf h) h)

theorem cardDispatchSet_keepsForm : cardDispatchSet.KeepsForm := ⟨fun _ _ h => stageFields_memWf h, fun _ _ _ h => h⟩

theorem cardDispatchStatus_keepsForm : cardDispatchStatus.KeepsForm := ⟨fun _ _ h => finishNow_memWf (ite_memWf h h), fun _ _ _ h => h⟩

theorem cardCoefStatus_keepsForm : cardCoefStatus.KeepsForm := ⟨fun _ _ h => finishNow_memWf h, fun _ _ _ h => h⟩

theorem cardVprogLoad_keepsForm : cardVprogLoad.KeepsForm := by
  refine ⟨fun e s h => ?_, fun _ _ _ h => h⟩
  dsimp -zeta only [cardVprogLoad]
  extract_lets n
  exact startStepped_memWf h

theorem cardCondSwitch_keepsForm : cardCondSwitch.KeepsForm := ⟨fun _ _ h => addJob_memWf (journalAdd_memWf h), fun _ _ _ h => h⟩

theorem cardFwUpdate_keepsForm : cardFwUpdate.KeepsForm := ⟨fun _ _ h => startStepped_memWf h, fun _ _ _ h => h⟩

theorem cardDacSet_keepsForm : cardDacSet.KeepsForm := ⟨fun _ _ h => queueBoundary_memWf h, fun _ _ _ h => h⟩

theorem cardBayStatus_keepsForm : cardBayStatus.KeepsForm := ⟨fun _ _ h => finishNow_memWf h, fun _ _ _ h => h⟩

theorem cardBayRecover_keepsForm : cardBayRecover.KeepsForm := ⟨fun _ _ h => queueBoundary_memWf h, fun _ _ _ h => h⟩

theorem State.setCoef_memWf {s : State} {b : Nat} {x : CoefBank} (h : s.memWf = true) : (s.setCoef b x).memWf = true := h

theorem dropJob_memWf {j : Word} {s : State} (h : s.memWf = true) : (dropJob j s).memWf = true := h

theorem holdSwap_memWf {b len : Nat} {j : Word} {s : State} (h : s.memWf = true) : (holdSwap b len j s).memWf = true := by
  unfold holdSwap
  extract_lets x s1
  have hs1 : s1.memWf = true := State.setCoef_memWf h
  split
  · exact State.setCoef_memWf h
  · split
    · exact rollBack_memWf (dropJob_memWf hs1)
    · exact hs1

theorem requestSwap_memWf {op : Nat} {e : Entry} {s : State} (h : s.memWf = true) : (requestSwap op e s).memWf = true := by
  unfold requestSwap
  extract_lets b j s1
  have hs1 : s1.memWf = true := addJob_memWf (journalAdd_memWf h)
  exact ite_memWf (queueBoundary_memWf h) (answer_memWf (markAnswered_memWf (holdSwap_memWf hs1)))

theorem cardCoefLoad_keepsForm : cardCoefLoad.KeepsForm := by
  refine ⟨fun e s h => ?_, fun _ _ _ h => h⟩
  dsimp -zeta only [cardCoefLoad]
  extract_lets b h_1 x _ s1
  have hs1 : s1.memWf = true := State.setCoef_memWf h
  exact ite_memWf (requestSwap_memWf hs1) (ite_memWf (addJob_memWf (journalAdd_memWf hs1)) (finishNow_memWf hs1))

theorem cardCoefSwap_keepsForm : cardCoefSwap.KeepsForm := ⟨fun _ _ h => requestSwap_memWf h, fun _ _ _ h => h⟩

theorem cardRenderSet_keepsForm : cardRenderSet.KeepsForm := ⟨fun _ _ h => queueBoundary_memWf h, fun _ _ _ h => h⟩

theorem clearAudio_memWf {s : State} (h : s.memWf = true) : (clearAudio s).memWf = true := h

theorem cardAudioStatus_keepsForm : cardAudioStatus.KeepsForm := ⟨fun _ _ h => finishNow_memWf (ite_memWf (clearAudio_memWf h) h), fun _ _ _ h => h⟩

theorem State.setBay_memWf {s : State} {b : Nat} {x : Bay} (h : s.memWf = true) : (s.setBay b x).memWf = true := h

theorem reform_memWf {e : Entry} {s : State} {b : Nat} (h : s.memWf = true) : (reform e s b).memWf = true := by
  unfold reform
  extract_lets x s1
  have hs1 : s1.memWf = true := State.setBay_memWf h
  exact foldl_memWf (fun _ _ ht => State.setCourse_memWf ht) _ hs1

theorem cardBayForm_keepsForm : cardBayForm.KeepsForm := by
  refine ⟨fun e s h => ?_, fun _ _ _ h => h⟩
  dsimp -zeta only [cardBayForm]
  refine finishNow_memWf ?_
  refine bumpEpoch_memWf ?_
  exact foldl_memWf (fun _ _ ht => reform_memWf ht) _ h

theorem cardBayMode_keepsForm : cardBayMode.KeepsForm := by
  refine ⟨fun e s h => ?_, fun _ _ _ h => h⟩
  dsimp -zeta only [cardBayMode]
  extract_lets c
  exact startStepped_memWf h

theorem cardRouteSet_keepsForm : cardRouteSet.KeepsForm := ⟨fun _ _ h => stageFields_memWf h, fun _ _ _ h => h⟩

theorem cardTdmSet_keepsForm : cardTdmSet.KeepsForm := ⟨fun _ _ h => queueBoundary_memWf h, fun _ _ _ h => h⟩

theorem cardAudioClockSet_keepsForm : cardAudioClockSet.KeepsForm := ⟨fun _ _ h => queueBoundary_memWf h, fun _ _ _ h => h⟩

theorem cardStreamSet_keepsForm : cardStreamSet.KeepsForm := ⟨fun _ _ h => queueBoundary_memWf h, fun _ _ _ h => h⟩

/-- Every mailbox command of the device keeps the memories in canonical form. -/
theorem cards_keepForm : ∀ c ∈ cards, c.KeepsForm := by
  simp only [cards, List.forall_mem_cons]
  exact ⟨cardRouteSet_keepsForm, cardTdmSet_keepsForm, cardAudioClockSet_keepsForm, cardStreamSet_keepsForm, cardRenderSet_keepsForm,
    cardAudioStatus_keepsForm, cardBayForm_keepsForm, cardBayMode_keepsForm, cardBayStatus_keepsForm, cardBayRecover_keepsForm,
    cardCoefLoad_keepsForm, cardCoefSwap_keepsForm, cardCoefStatus_keepsForm, cardVprogLoad_keepsForm, cardCondSwitch_keepsForm,
    cardFwUpdate_keepsForm, cardDacSet_keepsForm, cardDacWrite_keepsForm, cardDacStatus_keepsForm, cardDispatchSet_keepsForm,
    cardDispatchStatus_keepsForm, cardTraceSet_keepsForm, cardTraceStatus_keepsForm, cardHealthStatus_keepsForm, cardHealthLedger_keepsForm,
    cardHealthSet_keepsForm, cardBankGive_keepsForm, cardBankStatus_keepsForm, cardHwRegionSet_keepsForm, cardContentPin_keepsForm,
    cardParamGet_keepsForm, cardParamSet_keepsForm, cardEnvWrite_keepsForm, cardSysReset_keepsForm, cardSysPower_keepsForm, cardSessionList_keepsForm,
    cardSessionQuery_keepsForm, cardSessionSet_keepsForm, cardSessionClose_keepsForm, cardEventSend_keepsForm, cardSysNop_keepsForm,
    cardConfigEpoch_keepsForm, cardJournalQuery_keepsForm, cardConfigCommit_keepsForm, cardConfigDiscard_keepsForm, cardTimerSet_keepsForm,
    cardTimerRead_keepsForm, cardTimeGet_keepsForm, cardTimeClockSelect_keepsForm, cardTimeDomainSet_keepsForm, cardTimeRateSet_keepsForm,
    cardUartSend_keepsForm, cardUartSet_keepsForm, cardUartRecv_keepsForm, cardPkgWrite_keepsForm, cardPkgCommit_keepsForm, cardPkgDrop_keepsForm,
    cardVaultStatus_keepsForm, cardKeyWrap_keepsForm, cardKeyLoad_keepsForm, cardTamperSet_keepsForm, cardTamperClear_keepsForm,
    cardLifeAdvance_keepsForm, cardVoiceStart_keepsForm, cardVoiceRelease_keepsForm, cardVoiceEnd_keepsForm, cardVoiceQuery_keepsForm,
    cardPartCounters_keepsForm, cardPlaceLoad_keepsForm, cardDecimSet_keepsForm, cardDecimStatus_keepsForm,
    fun _ hc => absurd hc List.not_mem_nil⟩

end Sys2Proof.Machine
end

section
/-! PROOFS. The canonical form of the memories: how the Conductor takes entries, and the mailbox commands of the queue. -/

namespace Sys2Proof.Machine

theorem advanceCi_memWf {e : Entry} {s : State} (h : s.memWf = true) : (advanceCi e s).memWf = true := by
  unfold advanceCi
  extract_lets c ci
  exact State.setChan_memWf h

theorem answerUnjournalled_memWf {e : Entry} {f : Fail} {s : State} (h : s.memWf = true) : (answerUnjournalled e f s).memWf = true := answer_memWf h

theorem consumeSeq_memWf {e : Entry} {s : State} (h : s.memWf = true) : (consumeSeq e s).memWf = true := State.setChan_memWf h

theorem rejectNow_memWf {op : Nat} {e : Entry} {f : Fail} {s : State} (h : s.memWf = true) : (rejectNow op e f s).memWf = true :=
    answer_memWf (journalAdd_memWf h)

theorem stampAdmit_memWf {c : Card} {e : Entry} {s : State} (h : s.memWf = true) : (stampAdmit c e s).memWf = true := by
  unfold stampAdmit
  split
  · extract_lets s1
    have hs1 : s1.memWf = true := ensureMailboxSession_memWf h
    exact ite_memWf (countLate_memWf hs1) hs1
  · exact h

theorem takeEntry_memWf {c : Card} (hc : c.KeepsForm) {e : Entry} {s0 : State} (h : s0.memWf = true) : (takeEntry c e s0).memWf = true := by
  unfold takeEntry
  extract_lets _ _ s s1
  have hs : s.memWf = true := show (advanceCi e s0).memWf = true from advanceCi_memWf h
  have hs1 : s1.memWf = true := consumeSeq_memWf hs
  split
  · refine answerUnjournalled_memWf ?_
    split
    · exact hs1
    · exact hs
  · split
    · split
      · exact rejectNow_memWf (hc.2 _ _ _ hs1)
      · exact answerUnjournalled_memWf (hc.2 _ _ _ hs1)
    · exact hc.1 _ _ (stampAdmit_memWf hs1)

theorem unassigned_memWf {op : Nat} {e : Entry} {s0 : State} (h : s0.memWf = true) : (unassigned op e s0).memWf = true := by
  unfold unassigned
  extract_lets s c
  have hs : s.memWf = true := advanceCi_memWf h
  split
  · exact answerUnjournalled_memWf (ite_memWf (consumeSeq_memWf hs) hs)
  · exact rejectNow_memWf (consumeSeq_memWf hs)

theorem takeNext_memWf {ch : Nat} {s0 : State} (h : s0.memWf = true) : (takeNext ch s0).memWf = true := by
  unfold takeNext
  extract_lets _ s r
  have hs : s.memWf = true := h
  split
  · exact desync_memWf hs
  · split
    next c hc => exact takeEntry_memWf (cards_keepForm c (List.mem_of_find?_eq_some hc)) hs
    · exact unassigned_memWf hs

theorem drain_memWf {want : State → Nat → Bool} {n : Nat} {s : State} (h : s.memWf = true) : (drain want n s).memWf = true := by
  induction n generalizing s with
  | zero => exact h
  | succ n ih =>
    unfold drain
    split
    · split
      · exact ih (takeNext_memWf h)
      · exact h
    · exact h

theorem serveRung_memWf {s : State} (h : s.memWf = true) : (serveRung s).memWf = true := drain_memWf h

/-- A mailbox command keeps the memories in canonical form where what its card does once accepted, and on a refusal, does. -/
theorem command_memWf {c : Card} (hc : c.KeepsForm) {e : Entry} {s : State} (h : s.memWf = true) {t : State}
    (ht : command c e s = .next t) : t.memWf = true := by
  unfold command at ht
  replace ht := next_of_withUnit ht
  have hput : (hostPut c.opcode e s).memWf = true := hostPut_memWf h
  dsimp only at ht
  split at ht
  · cases ht
    exact h
  · split at ht
    · cases ht
      exact hput
    · split at ht
      · cases ht
        exact serveRung_memWf hput
      · cases ht
        split
        · exact desync_memWf hput
        · exact takeEntry_memWf hc hput

theorem execTimeGet_memWf {e : Entry} {s : State} (h : s.memWf = true) {t : State} (ht : execTimeGet e s = .next t) : t.memWf = true := by
  unfold execTimeGet at ht
  exact command_memWf cardTimeGet_keepsForm h ht

theorem execTimeRateSet_memWf {e : Entry} {s : State} (h : s.memWf = true) {t : State} (ht : execTimeRateSet e s = .next t) : t.memWf = true := by
  unfold execTimeRateSet at ht
  exact command_memWf cardTimeRateSet_keepsForm h ht

theorem cancelAt_memWf {i : Nat} {t : Word} {s : State} (h : s.memWf = true) : (cancelAt i t s).memWf = true := by
  unfold cancelAt
  extract_lets v
  exact State.setVoice_memWf h

theorem cancelVoice_memWf {i : Nat} {s : State} (h : s.memWf = true) : (cancelVoice i s).memWf = true := cancelAt_memWf h

theorem dropEvent_memWf {s : State} {t : TEvent} (h : s.memWf = true) : (dropEvent s t).memWf = true := by
  unfold dropEvent
  split
  · exact cancelVoice_memWf h
  · exact h

theorem rollJob_memWf {s : State} {jb : Job} (h : s.memWf = true) : (rollJob s jb).memWf = true := by
  unfold rollJob
  extract_lets s1
  have hs1 : s1.memWf = true := ite_memWf (cancelVoice_memWf h) h
  exact rollBack_memWf (dropJob_memWf hs1)

theorem rollAll_memWf {s : State} (h : s.memWf = true) : (rollAll s).1.memWf = true := by
  unfold rollAll
  extract_lets evs jobs s1 _ _ _ s2
  have hs1 : s1.memWf = true := by
    unfold s1
    exact foldl_memWf (fun _ _ ht => dropEvent_memWf ht) _ h
  have hs2 : s2.memWf = true := hs1
  exact foldl_memWf (fun _ _ ht => rollJob_memWf ht) _ hs2

theorem limitTdm_memWf {s : State} (h : s.memWf = true) : (limitTdm s).memWf = true := h

theorem buildBanks_memWf {s : State} (h : s.memWf = true) : (buildBanks s).memWf = true := foldl_memWf (fun _ _ ht => State.setCoef_memWf ht) _ h

theorem changeRate_memWf {s : State} (h : s.memWf = true) : (changeRate s).1.memWf = true := by
  unfold changeRate
  extract_lets r st _ _ _ s1
  have hs1 : s1.memWf = true := rollAll_memWf (tickPhase_memWf h)
  exact limitTdm_memWf (buildBanks_memWf hs1)

theorem completeJob_memWf {jb : Job} {st : Status} {ws : List Word} {s : State} (h : s.memWf = true) : (completeJob jb st ws s).memWf = true :=
    endCommand_memWf h

theorem rateChanged_memWf {s : State} (h : s.memWf = true) : (rateChanged s).memWf = true := by
  unfold rateChanged
  split
  · exact h
  · extract_lets r
    exact completeJob_memWf (changeRate_memWf (dropJob_memWf h))

theorem execRateChangeComplete_memWf {s : State} (h : s.memWf = true) {t : State} (ht : execRateChangeComplete s = .next t) : t.memWf = true := by
  unfold execRateChangeComplete at ht
  cases ht
  exact rateChanged_memWf h

theorem execTimeClockSelect_memWf {e : Entry} {s : State} (h : s.memWf = true) {t : State} (ht : execTimeClockSelect e s = .next t) : t.memWf = true
    := by
  unfold execTimeClockSelect at ht
  exact command_memWf cardTimeClockSelect_keepsForm h ht

theorem execTimeDomainSet_memWf {e : Entry} {s : State} (h : s.memWf = true) {t : State} (ht : execTimeDomainSet e s = .next t) : t.memWf = true := by
  unfold execTimeDomainSet at ht
  exact command_memWf cardTimeDomainSet_keepsForm h ht

theorem execSysNop_memWf {e : Entry} {s : State} (h : s.memWf = true) {t : State} (ht : execSysNop e s = .next t) : t.memWf = true := by
  unfold execSysNop at ht
  exact command_memWf cardSysNop_keepsForm h ht

theorem execConfigCommit_memWf {e : Entry} {s : State} (h : s.memWf = true) {t : State} (ht : execConfigCommit e s = .next t) : t.memWf = true := by
  unfold execConfigCommit at ht
  exact command_memWf cardConfigCommit_keepsForm h ht

theorem execConfigDiscard_memWf {e : Entry} {s : State} (h : s.memWf = true) {t : State} (ht : execConfigDiscard e s = .next t) : t.memWf = true := by
  unfold execConfigDiscard at ht
  exact command_memWf cardConfigDiscard_keepsForm h ht

theorem execConfigEpoch_memWf {e : Entry} {s : State} (h : s.memWf = true) {t : State} (ht : execConfigEpoch e s = .next t) : t.memWf = true := by
  unfold execConfigEpoch at ht
  exact command_memWf cardConfigEpoch_keepsForm h ht

theorem execJournalQuery_memWf {e : Entry} {s : State} (h : s.memWf = true) {t : State} (ht : execJournalQuery e s = .next t) : t.memWf = true := by
  unfold execJournalQuery at ht
  exact command_memWf cardJournalQuery_keepsForm h ht

theorem execCommandDesync_memWf {e : Entry} {s : State} (h : s.memWf = true) {t : State} (ht : execCommandDesync e s = .next t) : t.memWf = true := by
  unfold execCommandDesync at ht
  replace ht := next_of_withUnit ht
  cases ht
  exact ite_memWf (desync_memWf h) h

theorem releaseHeld_memWf {ch : Nat} {s : State} (h : s.memWf = true) : (releaseHeld ch s).memWf = true := by
  unfold releaseHeld
  extract_lets c
  split
  · exact h
  · exact ite_memWf (writeResp_memWf (State.setChan_memWf h)) h

theorem execResponseReleased_memWf {ch : Nat} {s : State} (h : s.memWf = true) {t : State} (ht : execResponseReleased ch s = .next t) : t.memWf = true
    := by
  unfold execResponseReleased at ht
  replace ht := next_of_withUnit ht
  cases ht
  exact ite_memWf (releaseHeld_memWf h) h

theorem execVoiceStart_memWf {e : Entry} {s : State} (h : s.memWf = true) {t : State} (ht : execVoiceStart e s = .next t) : t.memWf = true := by
  unfold execVoiceStart at ht
  exact command_memWf cardVoiceStart_keepsForm h ht

theorem execVoiceRelease_memWf {e : Entry} {s : State} (h : s.memWf = true) {t : State} (ht : execVoiceRelease e s = .next t) : t.memWf = true := by
  unfold execVoiceRelease at ht
  exact command_memWf cardVoiceRelease_keepsForm h ht

theorem execVoiceEnd_memWf {e : Entry} {s : State} (h : s.memWf = true) {t : State} (ht : execVoiceEnd e s = .next t) : t.memWf = true := by
  unfold execVoiceEnd at ht
  exact command_memWf cardVoiceEnd_keepsForm h ht

theorem execVoiceQuery_memWf {e : Entry} {s : State} (h : s.memWf = true) {t : State} (ht : execVoiceQuery e s = .next t) : t.memWf = true := by
  unfold execVoiceQuery at ht
  exact command_memWf cardVoiceQuery_keepsForm h ht

theorem execPartCounters_memWf {e : Entry} {s : State} (h : s.memWf = true) {t : State} (ht : execPartCounters e s = .next t) : t.memWf = true := by
  unfold execPartCounters at ht
  exact command_memWf cardPartCounters_keepsForm h ht

theorem execPlaceLoad_memWf {e : Entry} {s : State} (h : s.memWf = true) {t : State} (ht : execPlaceLoad e s = .next t) : t.memWf = true := by
  unfold execPlaceLoad at ht
  exact command_memWf cardPlaceLoad_keepsForm h ht

theorem execDecimSet_memWf {e : Entry} {s : State} (h : s.memWf = true) {t : State} (ht : execDecimSet e s = .next t) : t.memWf = true := by
  unfold execDecimSet at ht
  exact command_memWf cardDecimSet_keepsForm h ht

theorem execDecimStatus_memWf {e : Entry} {s : State} (h : s.memWf = true) {t : State} (ht : execDecimStatus e s = .next t) : t.memWf = true := by
  unfold execDecimStatus at ht
  exact command_memWf cardDecimStatus_keepsForm h ht

theorem execParamSet_memWf {e : Entry} {s : State} (h : s.memWf = true) {t : State} (ht : execParamSet e s = .next t) : t.memWf = true := by
  unfold execParamSet at ht
  exact command_memWf cardParamSet_keepsForm h ht

theorem execParamGet_memWf {e : Entry} {s : State} (h : s.memWf = true) {t : State} (ht : execParamGet e s = .next t) : t.memWf = true := by
  unfold execParamGet at ht
  exact command_memWf cardParamGet_keepsForm h ht

theorem execEnvWrite_memWf {e : Entry} {s : State} (h : s.memWf = true) {t : State} (ht : execEnvWrite e s = .next t) : t.memWf = true := by
  unfold execEnvWrite at ht
  exact command_memWf cardEnvWrite_keepsForm h ht

theorem execCoefLoad_memWf {e : Entry} {s : State} (h : s.memWf = true) {t : State} (ht : execCoefLoad e s = .next t) : t.memWf = true := by
  unfold execCoefLoad at ht
  exact command_memWf cardCoefLoad_keepsForm h ht

theorem execCoefSwap_memWf {e : Entry} {s : State} (h : s.memWf = true) {t : State} (ht : execCoefSwap e s = .next t) : t.memWf = true := by
  unfold execCoefSwap at ht
  exact command_memWf cardCoefSwap_keepsForm h ht

theorem execCoefStatus_memWf {e : Entry} {s : State} (h : s.memWf = true) {t : State} (ht : execCoefStatus e s = .next t) : t.memWf = true := by
  unfold execCoefStatus at ht
  exact command_memWf cardCoefStatus_keepsForm h ht

theorem execSwapScarfEnd_memWf {bank : Nat} {s : State} (h : s.memWf = true) {t : State} (ht : execSwapScarfEnd bank s = .next t) : t.memWf = true :=
    by
  unfold execSwapScarfEnd at ht
  replace ht := next_of_withUnit ht
  cases ht
  extract_lets x
  exact ite_memWf (State.setCoef_memWf h) h

theorem execVprogLoad_memWf {e : Entry} {s : State} (h : s.memWf = true) {t : State} (ht : execVprogLoad e s = .next t) : t.memWf = true := by
  unfold execVprogLoad at ht
  exact command_memWf cardVprogLoad_keepsForm h ht

theorem execDispatchSet_memWf {e : Entry} {s : State} (h : s.memWf = true) {t : State} (ht : execDispatchSet e s = .next t) : t.memWf = true := by
  unfold execDispatchSet at ht
  exact command_memWf cardDispatchSet_keepsForm h ht

theorem execDispatchStatus_memWf {e : Entry} {s : State} (h : s.memWf = true) {t : State} (ht : execDispatchStatus e s = .next t) : t.memWf = true :=
    by
  unfold execDispatchStatus at ht
  exact command_memWf cardDispatchStatus_keepsForm h ht

theorem execTraceSet_memWf {e : Entry} {s : State} (h : s.memWf = true) {t : State} (ht : execTraceSet e s = .next t) : t.memWf = true := by
  unfold execTraceSet at ht
  exact command_memWf cardTraceSet_keepsForm h ht

theorem execTraceStatus_memWf {e : Entry} {s : State} (h : s.memWf = true) {t : State} (ht : execTraceStatus e s = .next t) : t.memWf = true := by
  unfold execTraceStatus at ht
  exact command_memWf cardTraceStatus_keepsForm h ht

theorem execBayForm_memWf {e : Entry} {s : State} (h : s.memWf = true) {t : State} (ht : execBayForm e s = .next t) : t.memWf = true := by
  unfold execBayForm at ht
  exact command_memWf cardBayForm_keepsForm h ht

theorem execBayMode_memWf {e : Entry} {s : State} (h : s.memWf = true) {t : State} (ht : execBayMode e s = .next t) : t.memWf = true := by
  unfold execBayMode at ht
  exact command_memWf cardBayMode_keepsForm h ht

theorem onRunning_memWf {j : Word} {f : Stepped → Stepped} {s : State} (h : s.memWf = true) : (onRunning j f s).memWf = true := h

theorem recordStep_memWf {st : Stepped} {k : Nat} {s : State} (h : s.memWf = true) : (recordStep st k s).memWf = true :=
    onRunning_memWf (journalSet_memWf h)

theorem drainEnd_memWf {b : Nat} {s : State} (h : s.memWf = true) : (drainEnd b s).memWf = true := by
  unfold drainEnd
  split
  · exact ite_memWf (recordStep_memWf h) h
  · exact h

theorem execBayModeDrainEnd_memWf {bay : Nat} {s : State} (h : s.memWf = true) {t : State} (ht : execBayModeDrainEnd bay s = .next t) : t.memWf = true
    := by
  unfold execBayModeDrainEnd at ht
  replace ht := next_of_withUnit ht
  cases ht
  exact drainEnd_memWf h

theorem execBayStatus_memWf {e : Entry} {s : State} (h : s.memWf = true) {t : State} (ht : execBayStatus e s = .next t) : t.memWf = true := by
  unfold execBayStatus at ht
  exact command_memWf cardBayStatus_keepsForm h ht

theorem execBayRecover_memWf {e : Entry} {s : State} (h : s.memWf = true) {t : State} (ht : execBayRecover e s = .next t) : t.memWf = true := by
  unfold execBayRecover at ht
  exact command_memWf cardBayRecover_keepsForm h ht

theorem execCondSwitch_memWf {e : Entry} {s : State} (h : s.memWf = true) {t : State} (ht : execCondSwitch e s = .next t) : t.memWf = true := by
  unfold execCondSwitch at ht
  exact command_memWf cardCondSwitch_keepsForm h ht

theorem endStall_memWf {who : Nat} {result : BitVec 1} {s : State} (h : s.memWf = true) : (endStall who result s).memWf = true := by
  unfold endStall
  extract_lets c s1
  have hs1 : s1.memWf = true := setSvc_memWf h (svc_memWf h _)
  exact traceDevice_memWf hs1

theorem releaseStall_memWf {q : Nat} {s : State} (h : s.memWf = true) : (releaseStall q s).memWf = true := by
  unfold releaseStall
  split
  · exact h
  · exact endStall_memWf (State.setQueue_memWf h)

theorem giveOldest_memWf {who q : Nat} {s : State} (h : s.memWf = true) : (giveOldest who q s).memWf = true := by
  unfold giveOldest
  split
  · exact h
  · exact releaseStall_memWf (giveEntry_memWf (State.setQueue_memWf h))

theorem answerActive_memWf {s : State} (h : s.memWf = true) : (answerActive s).memWf = true := ite_memWf (giveOldest_memWf h) h

theorem switchOver_memWf {s : State} (h : s.memWf = true) : (switchOver s).memWf = true := answerActive_memWf (setDbRsp_memWf h)

theorem plannedSwitch_memWf {s : State} (h : s.memWf = true) : (plannedSwitch s).memWf = true := by
  unfold plannedSwitch
  split
  · exact h
  · split
    · split
      · extract_lets s1
        have hs1 : s1.memWf = true := switchOver_memWf (dropJob_memWf h)
        exact completeJob_memWf hs1
      · exact h
    · split
      · split
        · extract_lets s1
          have hs1 : s1.memWf = true := switchOver_memWf h
          exact hs1
        · exact h
      · exact h

theorem execPlannedSwitch_memWf {s : State} (h : s.memWf = true) {t : State} (ht : execPlannedSwitch s = .next t) : t.memWf = true := by
  unfold execPlannedSwitch at ht
  cases ht
  exact plannedSwitch_memWf h

theorem execFwUpdate_memWf {e : Entry} {s : State} (h : s.memWf = true) {t : State} (ht : execFwUpdate e s = .next t) : t.memWf = true := by
  unfold execFwUpdate at ht
  exact command_memWf cardFwUpdate_keepsForm h ht

theorem execSessionList_memWf {e : Entry} {s : State} (h : s.memWf = true) {t : State} (ht : execSessionList e s = .next t) : t.memWf = true := by
  unfold execSessionList at ht
  exact command_memWf cardSessionList_keepsForm h ht

theorem execSessionQuery_memWf {e : Entry} {s : State} (h : s.memWf = true) {t : State} (ht : execSessionQuery e s = .next t) : t.memWf = true := by
  unfold execSessionQuery at ht
  exact command_memWf cardSessionQuery_keepsForm h ht

theorem execSessionSet_memWf {e : Entry} {s : State} (h : s.memWf = true) {t : State} (ht : execSessionSet e s = .next t) : t.memWf = true := by
  unfold execSessionSet at ht
  exact command_memWf cardSessionSet_keepsForm h ht

theorem execSessionClose_memWf {e : Entry} {s : State} (h : s.memWf = true) {t : State} (ht : execSessionClose e s = .next t) : t.memWf = true := by
  unfold execSessionClose at ht
  exact command_memWf cardSessionClose_keepsForm h ht

theorem execEventSend_memWf {e : Entry} {s : State} (h : s.memWf = true) {t : State} (ht : execEventSend e s = .next t) : t.memWf = true := by
  unfold execEventSend at ht
  exact command_memWf cardEventSend_keepsForm h ht

theorem execBankGive_memWf {e : Entry} {s : State} (h : s.memWf = true) {t : State} (ht : execBankGive e s = .next t) : t.memWf = true := by
  unfold execBankGive at ht
  exact command_memWf cardBankGive_keepsForm h ht

theorem execBankStatus_memWf {e : Entry} {s : State} (h : s.memWf = true) {t : State} (ht : execBankStatus e s = .next t) : t.memWf = true := by
  unfold execBankStatus at ht
  exact command_memWf cardBankStatus_keepsForm h ht

theorem execHwRegionSet_memWf {e : Entry} {s : State} (h : s.memWf = true) {t : State} (ht : execHwRegionSet e s = .next t) : t.memWf = true := by
  unfold execHwRegionSet at ht
  exact command_memWf cardHwRegionSet_keepsForm h ht

theorem execContentPin_memWf {e : Entry} {s : State} (h : s.memWf = true) {t : State} (ht : execContentPin e s = .next t) : t.memWf = true := by
  unfold execContentPin at ht
  exact command_memWf cardContentPin_keepsForm h ht

theorem execRouteSet_memWf {e : Entry} {s : State} (h : s.memWf = true) {t : State} (ht : execRouteSet e s = .next t) : t.memWf = true := by
  unfold execRouteSet at ht
  exact command_memWf cardRouteSet_keepsForm h ht

theorem execTdmSet_memWf {e : Entry} {s : State} (h : s.memWf = true) {t : State} (ht : execTdmSet e s = .next t) : t.memWf = true := by
  unfold execTdmSet at ht
  exact command_memWf cardTdmSet_keepsForm h ht

theorem execAudioClockSet_memWf {e : Entry} {s : State} (h : s.memWf = true) {t : State} (ht : execAudioClockSet e s = .next t) : t.memWf = true := by
  unfold execAudioClockSet at ht
  exact command_memWf cardAudioClockSet_keepsForm h ht

theorem execStreamSet_memWf {e : Entry} {s : State} (h : s.memWf = true) {t : State} (ht : execStreamSet e s = .next t) : t.memWf = true := by
  unfold execStreamSet at ht
  exact command_memWf cardStreamSet_keepsForm h ht

theorem execRenderSet_memWf {e : Entry} {s : State} (h : s.memWf = true) {t : State} (ht : execRenderSet e s = .next t) : t.memWf = true := by
  unfold execRenderSet at ht
  exact command_memWf cardRenderSet_keepsForm h ht

theorem execAudioStatus_memWf {e : Entry} {s : State} (h : s.memWf = true) {t : State} (ht : execAudioStatus e s = .next t) : t.memWf = true := by
  unfold execAudioStatus at ht
  exact command_memWf cardAudioStatus_keepsForm h ht

theorem execDacSet_memWf {e : Entry} {s : State} (h : s.memWf = true) {t : State} (ht : execDacSet e s = .next t) : t.memWf = true := by
  unfold execDacSet at ht
  exact command_memWf cardDacSet_keepsForm h ht

theorem execDacWrite_memWf {e : Entry} {s : State} (h : s.memWf = true) {t : State} (ht : execDacWrite e s = .next t) : t.memWf = true := by
  unfold execDacWrite at ht
  exact command_memWf cardDacWrite_keepsForm h ht

theorem execDacStatus_memWf {e : Entry} {s : State} (h : s.memWf = true) {t : State} (ht : execDacStatus e s = .next t) : t.memWf = true := by
  unfold execDacStatus at ht
  exact command_memWf cardDacStatus_keepsForm h ht

theorem execUartSet_memWf {e : Entry} {s : State} (h : s.memWf = true) {t : State} (ht : execUartSet e s = .next t) : t.memWf = true := by
  unfold execUartSet at ht
  exact command_memWf cardUartSet_keepsForm h ht

theorem execUartSend_memWf {e : Entry} {s : State} (h : s.memWf = true) {t : State} (ht : execUartSend e s = .next t) : t.memWf = true := by
  unfold execUartSend at ht
  exact command_memWf cardUartSend_keepsForm h ht

theorem execUartRecv_memWf {e : Entry} {s : State} (h : s.memWf = true) {t : State} (ht : execUartRecv e s = .next t) : t.memWf = true := by
  unfold execUartRecv at ht
  exact command_memWf cardUartRecv_keepsForm h ht

theorem execTimerSet_memWf {e : Entry} {s : State} (h : s.memWf = true) {t : State} (ht : execTimerSet e s = .next t) : t.memWf = true := by
  unfold execTimerSet at ht
  exact command_memWf cardTimerSet_keepsForm h ht

theorem execTimerRead_memWf {e : Entry} {s : State} (h : s.memWf = true) {t : State} (ht : execTimerRead e s = .next t) : t.memWf = true := by
  unfold execTimerRead at ht
  exact command_memWf cardTimerRead_keepsForm h ht

theorem execPkgWrite_memWf {e : Entry} {s : State} (h : s.memWf = true) {t : State} (ht : execPkgWrite e s = .next t) : t.memWf = true := by
  unfold execPkgWrite at ht
  exact command_memWf cardPkgWrite_keepsForm h ht

theorem execPkgCommit_memWf {e : Entry} {s : State} (h : s.memWf = true) {t : State} (ht : execPkgCommit e s = .next t) : t.memWf = true := by
  unfold execPkgCommit at ht
  exact command_memWf cardPkgCommit_keepsForm h ht

theorem execPkgDrop_memWf {e : Entry} {s : State} (h : s.memWf = true) {t : State} (ht : execPkgDrop e s = .next t) : t.memWf = true := by
  unfold execPkgDrop at ht
  exact command_memWf cardPkgDrop_keepsForm h ht

theorem execVaultStatus_memWf {e : Entry} {s : State} (h : s.memWf = true) {t : State} (ht : execVaultStatus e s = .next t) : t.memWf = true := by
  unfold execVaultStatus at ht
  exact command_memWf cardVaultStatus_keepsForm h ht

theorem execVaultKeyWrap_memWf {e : Entry} {s : State} (h : s.memWf = true) {t : State} (ht : execVaultKeyWrap e s = .next t) : t.memWf = true := by
  unfold execVaultKeyWrap at ht
  exact command_memWf cardKeyWrap_keepsForm h ht

theorem execVaultKeyLoad_memWf {e : Entry} {s : State} (h : s.memWf = true) {t : State} (ht : execVaultKeyLoad e s = .next t) : t.memWf = true := by
  unfold execVaultKeyLoad at ht
  exact command_memWf cardKeyLoad_keepsForm h ht

theorem execTamperSet_memWf {e : Entry} {s : State} (h : s.memWf = true) {t : State} (ht : execTamperSet e s = .next t) : t.memWf = true := by
  unfold execTamperSet at ht
  exact command_memWf cardTamperSet_keepsForm h ht

theorem execTamperClear_memWf {e : Entry} {s : State} (h : s.memWf = true) {t : State} (ht : execTamperClear e s = .next t) : t.memWf = true := by
  unfold execTamperClear at ht
  exact command_memWf cardTamperClear_keepsForm h ht

theorem execLifeAdvance_memWf {e : Entry} {s : State} (h : s.memWf = true) {t : State} (ht : execLifeAdvance e s = .next t) : t.memWf = true := by
  unfold execLifeAdvance at ht
  exact command_memWf cardLifeAdvance_keepsForm h ht

theorem execHealthStatus_memWf {e : Entry} {s : State} (h : s.memWf = true) {t : State} (ht : execHealthStatus e s = .next t) : t.memWf = true := by
  unfold execHealthStatus at ht
  exact command_memWf cardHealthStatus_keepsForm h ht

theorem execHealthLedger_memWf {e : Entry} {s : State} (h : s.memWf = true) {t : State} (ht : execHealthLedger e s = .next t) : t.memWf = true := by
  unfold execHealthLedger at ht
  exact command_memWf cardHealthLedger_keepsForm h ht

theorem execHealthSet_memWf {e : Entry} {s : State} (h : s.memWf = true) {t : State} (ht : execHealthSet e s = .next t) : t.memWf = true := by
  unfold execHealthSet at ht
  exact command_memWf cardHealthSet_keepsForm h ht

theorem execSysReset_memWf {e : Entry} {s : State} (h : s.memWf = true) {t : State} (ht : execSysReset e s = .next t) : t.memWf = true := by
  unfold execSysReset at ht
  exact command_memWf cardSysReset_keepsForm h ht

theorem execSysPower_memWf {e : Entry} {s : State} (h : s.memWf = true) {t : State} (ht : execSysPower e s = .next t) : t.memWf = true := by
  unfold execSysPower at ht
  exact command_memWf cardSysPower_keepsForm h ht

end Sys2Proof.Machine
end

section
/-! PROOFS. The canonical form of the memories: Sound Store, registers and Host Window. -/

namespace Sys2Proof.Machine

theorem restoreGroup_memWf {b : Nat} {s : State} (h : s.memWf = true) : (restoreGroup b s).memWf = true := by
  unfold restoreGroup
  extract_lets r _ s1
  have hs1 : s1.memWf = true := setStore_memWf h (Mem.wf_putWords _ _ _ (State.memWf_store h))
  exact State.setBank_memWf hs1

theorem touchBank_memWf {w : Nat} {s : State} (h : s.memWf = true) : (touchBank w s).memWf = true := by
  unfold touchBank
  extract_lets b r s1 _ s2
  have hs1 : s1.memWf = true := restoreGroup_memWf h
  have hs2 : s2.memWf = true := State.setBank_memWf hs1
  exact ite_memWf (wakeBank_memWf h) (ite_memWf hs1 h)

theorem putStore_memWf {w : Nat} {v : Word} {strobes : BitVec 4} {s : State} (h : s.memWf = true) : (putStore w v strobes s).memWf = true :=
  setStore_memWf h (Mem.wf_putWord _ w v strobes (State.memWf_store h))

theorem countDenied_memWf {s : State} (h : s.memWf = true) : (countDenied s).memWf = true := h

theorem writeStore_memWf {who : Initiator} {kind : WriteKind} {w : Nat} {v : Word} {strobes : BitVec 4} {s : State} (h : s.memWf = true) :
    (writeStore who kind w v strobes s).memWf = true := by
  unfold writeStore
  split
  · extract_lets s1
    have hs1 : s1.memWf = true := by
      unfold s1
      split
      · exact h
      · exact touchBank_memWf h
    exact ite_memWf hs1 (putStore_memWf hs1)
  · exact ite_memWf (countDenied_memWf h) h

theorem apertureWrite_memWf {i : Nat} {v : Word} {strobes : BitVec 4} {s : State} (h : s.memWf = true) : (apertureWrite i v strobes s).memWf = true :=
    by
  unfold apertureWrite
  extract_lets kind
  exact writeStore_memWf h

theorem bootTo_memWf {n : BitVec 4} {s : State} (h : s.memWf = true) : (bootTo n s).memWf = true := h

theorem bootCtl_memWf {v : Word} {s : State} (h : s.memWf = true) : (bootCtl v s).memWf = true := by
  unfold bootCtl
  extract_lets n
  exact ite_memWf h (ite_memWf (bootTo_memWf h) h)

theorem ringBells_memWf {v : Word} {s : State} (h : s.memWf = true) : (ringBells v s).memWf = true :=
    foldl_memWf (fun _ _ ht => State.setChan_memWf ht) _ h

theorem writeDbRsp_memWf {v : Word} {s : State} (h : s.memWf = true) : (writeDbRsp v s).memWf = true := h

theorem writeDbEn_memWf {v : Word} {s : State} (h : s.memWf = true) : (writeDbEn v s).memWf = true := by
  unfold writeDbEn
  extract_lets _ s1
  have hs1 : s1.memWf = true := h
  exact foldl_memWf (fun _ _ ht => signalHost_memWf ht) _ hs1

theorem requestResets_memWf {v : Word} {s : State} (h : s.memWf = true) : (requestResets v s).memWf = true :=
    foldl_memWf (fun _ _ ht => State.setChan_memWf ht) _ h

theorem writeChan_memWf {n r : Nat} {v : Word} {s : State} (h : s.memWf = true) : (writeChan n r v s).memWf = true := by
  unfold writeChan
  extract_lets c
  exact ite_memWf (State.setChan_memWf h) (ite_memWf (State.setChan_memWf h) (ite_memWf (State.setChan_memWf h) h))

theorem writeAperture_memWf {v : Word} {s : State} (h : s.memWf = true) : (writeAperture v s).memWf = true := h

theorem hostWrite_memWf {off : Nat} {v : Word} {strobes : BitVec 4} {s : State} (h : s.memWf = true) : (hostWrite off v strobes s).memWf = true :=
    ite_memWf (apertureWrite_memWf h) (ite_memWf (bootCtl_memWf h)
    (ite_memWf (serveRung_memWf (ringBells_memWf h)) (ite_memWf (writeDbRsp_memWf h)
    (ite_memWf (writeDbEn_memWf h) (ite_memWf (requestResets_memWf h)
    (ite_memWf h (ite_memWf (writeChan_memWf h) (ite_memWf (writeAperture_memWf h) h))))))))

theorem writeTmCfg_memWf {v : Word} {s : State} (h : s.memWf = true) : (writeTmCfg v s).memWf = true := by
  have hfields : ∀ n0 n1 n2, (putDomField 2 n2 (putDomField 1 n1 (putDomField 0 n0 s))).memWf = true :=
    fun _ _ _ => putDomField_memWf (putDomField_memWf (putDomField_memWf h))
  exact hfields _ _ _

theorem setUartCfg_memWf {cfg div : Word} {s : State} {n : Nat} (h : s.memWf = true) : (setUartCfg cfg div s n).memWf = true := by
  unfold setUartCfg
  extract_lets x d x1 _ s1
  have hs1 : s1.memWf = true := State.setUart_memWf h
  split
  · split
    · exact markClosing_memWf hs1
    · exact hs1
  · exact ite_memWf (State.setUart_memWf h) (State.setUart_memWf h)

theorem innerUart_memWf {u r : Nat} {v : Word} {s : State} (h : s.memWf = true) : (innerUart u r v s).memWf = true := by
  unfold innerUart
  extract_lets x w
  exact ite_memWf (setUartCfg_memWf h) (ite_memWf (ite_memWf (setUartCfg_memWf h) h) (ite_memWf (State.setUart_memWf h) h))

theorem setTimerCfg_memWf {cfg period : Word} {s : State} {n : Nat} (h : s.memWf = true) : (setTimerCfg cfg period s n).memWf = true := by
  unfold setTimerCfg
  extract_lets t starts
  exact State.setTimer_memWf h

theorem innerTimer_memWf {t r : Nat} {v : Word} {s : State} (h : s.memWf = true) : (innerTimer t r v s).memWf = true := by
  unfold innerTimer
  extract_lets x w
  exact ite_memWf (setTimerCfg_memWf h) (ite_memWf (setTimerCfg_memWf h) (ite_memWf (State.setTimer_memWf h) h))

theorem innerWrite_memWf {off : Nat} {v : Word} {s : State} (h : s.memWf = true) : (innerWrite off v s).memWf = true := by
  unfold innerWrite
  split
  · exact writeTmCfg_memWf h
  · split
    · extract_lets n
      exact ite_memWf (State.setChan_memWf h) (ite_memWf (State.setChan_memWf h) h)
    · exact ite_memWf (innerUart_memWf h) (ite_memWf (innerTimer_memWf h) h)

theorem setTaskFlag_memWf {v : Word} {s : State} (h : s.memWf = true) : (setTaskFlag v s).memWf = true := by
  unfold setTaskFlag
  extract_lets k ctx
  split
  · split
    · refine setCore_memWf h ?_
      exact core_memWf h _
    · exact h
  · exact h

theorem workWrite_memWf {n off : Nat} {v : Word} {s : State} (h : s.memWf = true) : (workWrite n off v s).memWf = true := by
  unfold workWrite
  extract_lets c
  exact ite_memWf (setSvc_memWf h (svc_memWf h _)) (ite_memWf (setSvc_memWf h (svc_memWf h _)) (ite_memWf (setTaskFlag_memWf h) h))

theorem execRegisterWrite_memWf {sp : RegSpace} {off : BitVec 16} {v : Word} {s : State} (h : s.memWf = true) {t : State}
    (ht : execRegisterWrite sp off v s = .next t) : t.memWf = true := by
  unfold execRegisterWrite at ht
  split at ht
  · cases ht
    exact ite_memWf h (hostWrite_memWf h)
  · cases ht
    exact ite_memWf h (innerWrite_memWf h)
  · replace ht := next_of_withUnit ht
    cases ht
    exact ite_memWf h (workWrite_memWf h)

theorem execHwDbCmd_memWf {v : Word} {s : State} (h : s.memWf = true) {t : State} (ht : execHwDbCmd v s = .next t) : t.memWf = true := by
  unfold execHwDbCmd at ht
  cases ht
  exact ite_memWf h (serveRung_memWf (ringBells_memWf h))

theorem execHwMbxReset_memWf {v : Word} {s : State} (h : s.memWf = true) {t : State} (ht : execHwMbxReset v s = .next t) : t.memWf = true := by
  unfold execHwMbxReset at ht
  cases ht
  exact ite_memWf h (requestResets_memWf h)

theorem readDtimeLo_memWf {s : State} (h : s.memWf = true) : (readDtimeLo s).memWf = true := by
  unfold readDtimeLo
  extract_lets t
  exact h

theorem execTmDtimeLo_memWf {s : State} (h : s.memWf = true) {t : State} (ht : execTmDtimeLo s = .next t) : t.memWf = true := by
  unfold execTmDtimeLo at ht
  cases ht
  exact readDtimeLo_memWf h

theorem stallMore_memWf {b n : Nat} {s : State} (h : s.memWf = true) : (stallMore b n s).memWf = true := State.setBank_memWf h

theorem aliasWrite_memWf {who : Initiator} {kind : WriteKind} {bank word : Nat} {v : Word} {strobes : BitVec 4} {s : State} (h : s.memWf = true) :
    (aliasWrite who kind bank word v strobes s).memWf = true := stallMore_memWf (writeStore_memWf h)

theorem execSetAliasWrite_memWf {who : Initiator} {bank word : Nat} {v : Word} {strobes : BitVec 4} {s : State} (h : s.memWf = true) {t : State}
    (ht : execSetAliasWrite who bank word v strobes s = .next t) : t.memWf = true := by
  unfold execSetAliasWrite at ht
  replace ht := next_of_withInitiator ht
  replace ht := next_of_withStoreWord ht
  cases ht
  exact aliasWrite_memWf h

theorem execClearAliasWrite_memWf {who : Initiator} {bank word : Nat} {v : Word} {strobes : BitVec 4} {s : State} (h : s.memWf = true) {t : State}
    (ht : execClearAliasWrite who bank word v strobes s = .next t) : t.memWf = true := by
  unfold execClearAliasWrite at ht
  replace ht := next_of_withInitiator ht
  replace ht := next_of_withStoreWord ht
  cases ht
  exact aliasWrite_memWf h

theorem countDbe_memWf {w : Nat} {s : State} (h : s.memWf = true) : (countDbe w s).memWf = true := h

theorem readStore_memWf {who : Initiator} {w : Nat} {dbe : Bool} {s : State} (h : s.memWf = true) : (readStore who w dbe s).2.2.memWf = true := by
  unfold readStore
  split
  · extract_lets s1
    have hs1 : s1.memWf = true := by
      unfold s1
      split
      · exact h
      · exact touchBank_memWf h
    split
    · exact hs1
    · split
      · exact countDbe_memWf hs1
      · exact hs1
  · exact ite_memWf (countDenied_memWf h) h

theorem VCore.setCur_memWf {c : VCore} {r : RegSet} (h : c.memWf = true) : (c.setCur r).memWf = true := by
  unfold VCore.setCur
  split
  · exact h
  · exact h

theorem VCore.onCur_memWf {c : VCore} {f : RegSet → RegSet} (h : c.memWf = true) : (c.onCur f).memWf = true := VCore.setCur_memWf h

theorem refuseFetch_memWf {who : Initiator} {s : State} (h : s.memWf = true) : (refuseFetch who s).memWf = true := by
  unfold refuseFetch
  split
  · exact setCore_memWf h (VCore.onCur_memWf (core_memWf h _))
  · exact h

theorem performRequest_memWf {b : Nat} {s : State} {r : BankReq} (h : s.memWf = true) : (performRequest b s r).memWf = true := by
  unfold performRequest
  extract_lets w x s1
  have hs1 : s1.memWf = true := ite_memWf (refuseFetch_memWf (readStore_memWf h)) (readStore_memWf h)
  split
  · exact writeStore_memWf h
  · exact hs1

theorem serveBank_memWf {b : Nat} {rs : List BankReq} {s : State} (h : s.memWf = true) : (serveBank b rs s).memWf = true := by
  unfold serveBank
  extract_lets qs
  split
  · exact h
  · extract_lets served s1
    have hs1 : s1.memWf = true := State.setBank_memWf h
    exact foldl_memWf (fun _ _ ht => performRequest_memWf ht) _ h

theorem execSoundStoreAccess_memWf {bank : Nat} {reqs : List BankReq} {s : State} (h : s.memWf = true) {t : State}
    (ht : execSoundStoreAccess bank reqs s = .next t) : t.memWf = true := by
  unfold execSoundStoreAccess at ht
  split at ht
  · cases ht
  · split at ht
    · cases ht
      exact serveBank_memWf h
    · cases ht

theorem putWin_memWf {a : WordAcc} {s : State} (h : s.memWf = true) : (putWin a s).memWf = true := by
  unfold putWin
  split
  · exact setWin_memWf h (Mem.wf_putWord _ _ _ _ (State.memWf_win h))
  · exact h

theorem State.onUart_memWf {s : State} {n : Nat} {f : Uart → Uart} (h : s.memWf = true) : (s.onUart n f).memWf = true := State.setUart_memWf h

theorem hostRead_memWf {off : Nat} {s : State} (h : s.memWf = true) : (hostRead off s).2.memWf = true := by
  unfold hostRead
  split
  · extract_lets r
    exact readStore_memWf h
  · split
    · exact readDtimeLo_memWf h
    · exact h

theorem innerReadReg_memWf {off : Nat} {s : State} (h : s.memWf = true) : (innerReadReg off s).2.memWf = true := by
  unfold innerReadReg
  split
  · extract_lets u
    exact State.onUart_memWf h
  · split
    · extract_lets t
      exact State.setTimer_memWf h
    · split
      · exact hostRead_memWf h
      · exact h

theorem innerAccess_eq (i : WordAcc) (s : State) : innerAccess i s = if i.word < 0x40000 then (innerRead (some i) s, putWin i s) else
    match i.wr with
    | some v => ([], innerWrite (4 * (i.word - 0x40000)) v s)
    | none => ([(innerReadReg (4 * (i.word - 0x40000)) s).1], (innerReadReg (4 * (i.word - 0x40000)) s).2) := rfl

theorem innerAccess_memWf {i : WordAcc} {s : State} (h : s.memWf = true) : (innerAccess i s).2.memWf = true := by
  rw [innerAccess_eq]
  generalize 4 * (i.word - 0x40000) = off
  split
  · exact snd_memWf (putWin_memWf h)
  · split
    · exact snd_memWf (innerWrite_memWf h)
    · exact snd_memWf (innerReadReg_memWf h)

theorem innerSide_memWf {inner : Option WordAcc} {s : State} (h : s.memWf = true) : (innerSide inner s).2.memWf = true := by
  unfold innerSide
  split
  · split
    · exact snd_memWf h
    · exact innerAccess_memWf h
  · exact snd_memWf h

theorem windowAccess_memWf {again : Bool} {inner : Option WordAcc} {o : WordAcc} {s : State} (h : s.memWf = true) :
    (windowAccess again inner o s).st.memWf = true := by
  unfold windowAccess
  extract_lets old
  split
  · exact putWin_memWf h
  · have hi : ∀ i, (putWin i s).memWf = true := fun _ => putWin_memWf h
    split
    · exact putWin_memWf (putWin_memWf h)
    · split
      · split
        · exact putWin_memWf (hi _)
        · exact hi _
      · exact putWin_memWf (hi _)

theorem HostSide.mk_memWf {x : Word} {busy : Bool} {t : State} (h : t.memWf = true) : (HostSide.mk x busy t).st.memWf = true := h

theorem hostAccess_memWf {inner : Option WordAcc} {o : WordAcc} {s : State} (h : s.memWf = true) : (hostAccess inner o s).st.memWf = true := by
  unfold hostAccess
  extract_lets s1 off r
  have hs1 : s1.memWf = true := innerSide_memWf h
  clear_value s1 off
  split
  · exact HostSide.mk_memWf (State.fresh_memWf hs1)
  · split
    · exact windowAccess_memWf h
    · split
      · exact windowAccess_memWf hs1
      · split
        · exact HostSide.mk_memWf (hostWrite_memWf hs1)
        · exact HostSide.mk_memWf (hostRead_memWf hs1)

theorem execHostWindowAccess_memWf {inner outer : Option WordAcc} {s : State} (h : s.memWf = true) {t : State}
    (ht : execHostWindowAccess inner outer s = .next t) : t.memWf = true := by
  unfold execHostWindowAccess at ht
  split at ht
  · cases ht
  · dsimp only at ht
    split at ht
    · cases ht
      exact show (innerSide inner s).2.memWf = true from innerSide_memWf h
    next o _ =>
      cases ht
      exact show (hostAccess inner o s).st.memWf = true from hostAccess_memWf h

theorem withForm_memWf {form : BitVec 2} {s : State} {o : Outcome} (h : s.memWf = true) {t : State} (ho : o = .next t → t.memWf = true)
    (ht : withForm form s o = .next t) : t.memWf = true := by
  unfold withForm at ht
  split at ht
  · exact ho ht
  · cases ht
    exact h

theorem execLowerHalfRead_memWf {word : Nat} {inner : Option WordAcc} {s : State} (h : s.memWf = true) {t : State}
    (ht : execLowerHalfRead word inner s = .next t) : t.memWf = true := by
  unfold execLowerHalfRead at ht
  split at ht
  · cases ht
  · refine withForm_memWf h (fun hn => ?_) ht
    cases hn
    exact show (hostAccess inner { word := word } s).st.memWf = true from hostAccess_memWf h

theorem execUpperHalfRead_memWf {s : State} (h : s.memWf = true) {t : State} (ht : execUpperHalfRead s = .next t) : t.memWf = true := by
  refine withForm_memWf h (fun hn => ?_) ht
  cases hn
  exact h

theorem execLowerHalfWrite_memWf {word : Nat} {v : BitVec 16} {s : State} (h : s.memWf = true) {t : State}
    (ht : execLowerHalfWrite word v s = .next t) : t.memWf = true := by
  unfold execLowerHalfWrite at ht
  split at ht
  · cases ht
  · refine withForm_memWf h (fun hn => ?_) ht
    cases hn
    exact h

theorem execUpperHalfWrite_memWf {word : Nat} {v : BitVec 16} {inner : Option WordAcc} {s : State} (h : s.memWf = true) {t : State}
    (ht : execUpperHalfWrite word v inner s = .next t) : t.memWf = true := by
  unfold execUpperHalfWrite at ht
  split at ht
  · cases ht
  · refine withForm_memWf h (fun hn => ?_) ht
    cases hn
    exact show (hostAccess inner { word := word, wr := some (v ++ s.mem.wrLatch) } s).st.memWf = true from hostAccess_memWf h

theorem qspiWords_memWf {inner as : List WordAcc} {i : Nat} {got : List Word} {s : State} (h : s.memWf = true) :
    (qspiWords inner as i got s).2.2.memWf = true := by
  induction as generalizing i got s with
  | nil => exact h
  | cons a r ih =>
    unfold qspiWords
    extract_lets side
    have hside : side.st.memWf = true := hostAccess_memWf h
    split
    · exact hside
    · exact ih hside

theorem qspiRun_memWf {as inner : List WordAcc} {s : State} (h : s.memWf = true) {t : State} (ht : qspiRun as inner s = .next t) : t.memWf = true :=
    by
  unfold qspiRun at ht
  replace ht := next_of_withUnit ht
  split at ht
  · cases ht
  · refine withForm_memWf h (fun hn => ?_) ht
    cases hn
    exact show (qspiWords inner as 0 [] s).2.2.memWf = true from qspiWords_memWf h

theorem execQspiRead_memWf {word n : Nat} {inner : List WordAcc} {s : State} (h : s.memWf = true) {t : State}
    (ht : execQspiRead word n inner s = .next t) : t.memWf = true := by
  unfold execQspiRead at ht
  exact qspiRun_memWf h ht

theorem execQspiWrite_memWf {word : Nat} {ws : List Word} {inner : List WordAcc} {s : State} (h : s.memWf = true) {t : State}
    (ht : execQspiWrite word ws inner s = .next t) : t.memWf = true := by
  unfold execQspiWrite at ht
  exact qspiRun_memWf h ht

theorem execQspiUnknownCommand_memWf {cmd : Byte} {s : State} (h : s.memWf = true) {t : State} (ht : execQspiUnknownCommand cmd s = .next t) :
    t.memWf = true := by
  refine withForm_memWf h (fun hn => ?_) ht
  cases hn
  exact h

theorem execUartHold_memWf {u : Nat} {s : State} (h : s.memWf = true) {t : State} (ht : execUartHold u s = .next t) : t.memWf = true := by
  unfold execUartHold at ht
  replace ht := next_of_withUnit ht
  cases ht
  extract_lets
  exact h

theorem readCapq_memWf {host : Bool} {n : Nat} {s : State} (h : s.memWf = true) : (readCapq host n s).memWf = true := by
  unfold readCapq
  extract_lets t
  split
  · exact h
  · split
    · exact State.setTimer_memWf h
    · exact State.setTimer_memWf h

theorem execTmrCapq_memWf {host : Bool} {t : Nat} {s : State} (h : s.memWf = true) {t1 : State} (ht : execTmrCapq host t s = .next t1) : t1.memWf =
    true := by
  unfold execTmrCapq at ht
  replace ht := next_of_withUnit ht
  cases ht
  exact readCapq_memWf h

theorem askWork_memWf {who : Nat} {s : State} (h : s.memWf = true) : (askWork who s).memWf = true := by
  unfold askWork
  extract_lets c qs
  split
  · exact giveOldest_memWf h
  · exact setSvc_memWf h (svc_memWf h _)

theorem execDspAsk_memWf {who : Nat} {s : State} (h : s.memWf = true) {t : State} (ht : execDspAsk who s = .next t) : t.memWf = true := by
  unfold execDspAsk at ht
  replace ht := next_of_withUnit ht
  cases ht
  exact askWork_memWf h

theorem postGo_memWf {who : Nat} {s : State} (h : s.memWf = true) : (postGo who s).memWf = true := by
  unfold postGo
  extract_lets c e q refuse s1
  have hc : Mem.wf c.priv = true := svc_memWf h who
  have hrefuse : refuse.memWf = true := countRefused_memWf (setSvc_memWf h hc)
  have hs1 : s1.memWf = true := setSvc_memWf h hc
  split
  · exact hrefuse
  · split
    next t hq =>
      have ht : t.memWf = true := enterQueue_memWf h hq
      exact setSvc_memWf ht (show Mem.wf (t.svc who).priv = true from svc_memWf ht who)
    · split
      · exact hs1
      · exact hrefuse

theorem execDspPostGo_memWf {who : Nat} {s : State} (h : s.memWf = true) {t : State} (ht : execDspPostGo who s = .next t) : t.memWf = true := by
  unfold execDspPostGo at ht
  replace ht := next_of_withUnit ht
  cases ht
  exact ite_memWf h (postGo_memWf h)

theorem execStallTimeout_memWf {who : Nat} {s : State} (h : s.memWf = true) {t : State} (ht : execStallTimeout who s = .next t) : t.memWf = true := by
  unfold execStallTimeout at ht
  replace ht := next_of_withUnit ht
  cases ht
  split
  · exact h
  · exact countRefused_memWf (endStall_memWf h)

theorem execDspFlag_memWf {who : Nat} {v : Word} {s : State} (h : s.memWf = true) {t : State} (ht : execDspFlag who v s = .next t) : t.memWf = true :=
    by
  unfold execDspFlag at ht
  replace ht := next_of_withUnit ht
  cases ht
  exact setTaskFlag_memWf h

theorem execSysBootCtl_memWf {v : Word} {s : State} (h : s.memWf = true) {t : State} (ht : execSysBootCtl v s = .next t) : t.memWf = true := by
  unfold execSysBootCtl at ht
  cases ht
  exact bootCtl_memWf h

end Sys2Proof.Machine
end

section
/-! PROOFS. The canonical form of the memories: the instructions of the voice cores, their tasks and their fetches. -/

namespace Sys2Proof.Machine

theorem startTask_memWf {k : Nat} {level1 : Bool} {s : State} (h : s.memWf = true) {ctx : Nat} {q : Task} {t : State}
    (ht : startTask k level1 s = some (ctx, q, t)) : t.memWf = true := by
  unfold startTask at ht
  dsimp only at ht
  split at ht
  · cases ht
  · split at ht
    · cases ht
    · split at ht
      · cases ht
      · cases ht
        exact setCore_memWf h (core_memWf h k)

theorem passOver_memWf {p : Nat → Task → Bool} {c : VCore} (h : c.memWf = true) : (passOver p c).memWf = true := h

theorem holdAtLimit_memWf {k : Nat} {s : State} (h : s.memWf = true) : (holdAtLimit k s).memWf = true := by
  unfold holdAtLimit
  extract_lets c n
  have hc : c.memWf = true := core_memWf h _
  exact setCore_memWf h hc

theorem switchSets_memWf {k ctx : Nat} {t : Task} {s : State} (h : s.memWf = true) : (switchSets k ctx t s).memWf = true := by
  unfold switchSets
  extract_lets c slot
  have hc : c.memWf = true := passOver_memWf (core_memWf h _)
  exact traceBay_memWf (setCore_memWf h hc)

theorem preempt_memWf {k : Nat} {s : State} (h : s.memWf = true) : (preempt k s).memWf = true := by
  unfold preempt
  extract_lets c
  have hc : c.memWf = true := core_memWf h _
  split
  · exact h
  · split
    · exact h
    · split
      · exact setCore_memWf h hc
      · split
        · split
          next hc5 =>
            exact startTask_memWf h hc5
          · exact h
        · exact ite_memWf h (ite_memWf (holdAtLimit_memWf h) (ite_memWf (setCore_memWf h hc) (switchSets_memWf h)))

theorem takeRequest_memWf {k : Nat} {s : State} (h : s.memWf = true) : (takeRequest k s).memWf = true := by
  unfold takeRequest
  refine preempt_memWf ?_
  refine setCore_memWf h ?_
  extract_lets
  exact core_memWf h _

theorem afterIssue_memWf {k : Nat} {held : Bool} {s : State} (h : s.memWf = true) : (afterIssue k held s).memWf = true :=
    ite_memWf (takeRequest_memWf h) h

theorem onCore_memWf {k : Nat} {f : Nat → VCore → VCore} {s : State} (h : s.memWf = true) (hf : ∀ spf c, c.memWf = true → (f spf c).memWf = true)
    {t : State} (ht : onCore k f s = .next t) : t.memWf = true := by
  unfold onCore at ht
  replace ht := next_of_withUnit ht
  cases ht
  exact afterIssue_memWf (setCore_memWf h (hf _ _ (core_memWf h _)))

theorem once_memWf {spf : Nat} {ptrWr : Bool} {body : View → VCore → VCore} {c : VCore} (h : c.memWf = true)
    (hbody : ∀ v c, c.memWf = true → (body v c).memWf = true) : (once spf ptrWr body c).memWf = true := by
  unfold once
  extract_lets r0 v c1
  have hc1 : c1.memWf = true := hbody _ _ (VCore.setCur_memWf h)
  exact VCore.onCur_memWf hc1

theorem timesDo_memWf {n : Nat} {f : VCore → VCore} {c : VCore} (h : c.memWf = true) (hf : ∀ c, c.memWf = true → (f c).memWf = true) :
    (timesDo n f c).memWf = true := by
  induction n generalizing c with
  | zero => exact h
  | succ k ih => exact ih (hf c h)

theorem issue_memWf {spf len : Nat} {repeatable ptrWr : Bool} {body : View → VCore → VCore} {c : VCore} (h : c.memWf = true)
    (hbody : ∀ v c, c.memWf = true → (body v c).memWf = true) : (issue spf len repeatable ptrWr body c).memWf = true := by
  unfold issue
  split
  · exact h
  · extract_lets c0 c1
    have hc0 : c0.memWf = true := VCore.onCur_memWf h
    refine VCore.onCur_memWf ?_
    unfold c1
    split
    · exact once_memWf hc0 hbody
    · split
      · exact timesDo_memWf hc0 fun _ hc => once_memWf hc hbody
      · exact once_memWf (VCore.onCur_memWf hc0) hbody

theorem bridgeStore_memWf {v : View} {a : Nat} {x : Word24} {c : VCore} (h : c.memWf = true) : (bridgeStore v a x c).memWf = true := by
  unfold bridgeStore
  extract_lets b n
  split
  · split
    · exact h
    · exact h
  · exact VCore.onCur_memWf h

theorem localStore_memWf {v : View} {y : Bool} {a : Nat} {x : Word24} {c : VCore} (h : c.memWf = true) : (localStore v y a x c).memWf = true := by
  unfold localStore
  obtain ⟨hx, hy, _⟩ := VCore.memWf_iff.1 h
  split
  · refine VCore.onCur_memWf ?_
    split
    · exact VCore.putY_memWf h (Mem.wf_write _ _ _ hy)
    · exact VCore.putX_memWf h (Mem.wf_write _ _ _ hx)
  · split
    · exact bridgeStore_memWf h
    · exact VCore.onCur_memWf h

theorem portStart_memWf {v : View} {y : Bool} {p : Port} {c : VCore} (h : c.memWf = true) : (portStart v y p c).memWf = true := by
  unfold portStart
  split
  · extract_lets src n
    exact VCore.onCur_memWf (localStore_memWf (VCore.setCur_memWf h))
  · extract_lets src n
    exact VCore.onCur_memWf (localStore_memWf (VCore.setCur_memWf h))
  · exact h

theorem localLoad_memWf {v : View} {y : Bool} {a : Nat} {c : VCore} (h : c.memWf = true) : (localLoad v y a c).2.memWf = true := by
  unfold localLoad
  split
  · split
    · exact h
    · exact h
  · exact VCore.onCur_memWf h

theorem portLoad_memWf {v : View} {y : Bool} {p : Port} {c : VCore} (h : c.memWf = true) : (portLoad v y p c).2.memWf = true := by
  unfold portLoad
  split
  · extract_lets n l
    exact VCore.onCur_memWf (localLoad_memWf h)
  · exact h

theorem portEnd_memWf {y : Bool} {p : Port} {w : Option Word24} {c : VCore} (h : c.memWf = true) : (portEnd y p w c).memWf = true := by
  unfold portEnd
  split
  · exact h
  · exact VCore.onCur_memWf h

theorem withPorts_memWf {pt : Ports} {op : View → RegSet → RegSet} {v : View} {c : VCore} (h : c.memWf = true) : (withPorts pt op v c).memWf = true :=
    by
  unfold withPorts
  split
  · extract_lets c1 lx ly
    have hc1 : c1.memWf = true := portStart_memWf (portStart_memWf h)
    exact portEnd_memWf (portEnd_memWf (VCore.onCur_memWf (portLoad_memWf (portLoad_memWf hc1))))
  · exact VCore.onCur_memWf h

theorem portOp_memWf {k : Nat} {pt : Ports} {op : View → RegSet → RegSet} {s : State} (h : s.memWf = true) {t : State}
    (ht : portOp k pt op s = .next t) : t.memWf = true := by
  unfold portOp at ht
  exact onCore_memWf h (fun _ _ hc => issue_memWf hc (fun _ _ hc1 => withPorts_memWf hc1)) ht

theorem execHold_memWf {k : Nat} {pt : Ports} {s : State} (h : s.memWf = true) {t : State} (ht : execHold k pt s = .next t) : t.memWf = true := by
  unfold execHold at ht
  exact portOp_memWf h ht

theorem execAdd_memWf {k : Nat} {wd : BitVec 2} {src : ArithSrc} {pt : Ports} {s : State} (h : s.memWf = true) {t : State}
    (ht : execAdd k wd src pt s = .next t) : t.memWf = true := by
  unfold execAdd at ht
  exact portOp_memWf h ht

theorem execSub_memWf {k : Nat} {wd : BitVec 2} {src : ArithSrc} {pt : Ports} {s : State} (h : s.memWf = true) {t : State}
    (ht : execSub k wd src pt s = .next t) : t.memWf = true := by
  unfold execSub at ht
  exact portOp_memWf h ht

theorem execCmp_memWf {k : Nat} {wd : BitVec 2} {src : ArithSrc} {pt : Ports} {s : State} (h : s.memWf = true) {t : State}
    (ht : execCmp k wd src pt s = .next t) : t.memWf = true := by
  unfold execCmp at ht
  exact portOp_memWf h ht

theorem execNeg_memWf {k : Nat} {wd : BitVec 2} {src : ArithSrc} {pt : Ports} {s : State} (h : s.memWf = true) {t : State}
    (ht : execNeg k wd src pt s = .next t) : t.memWf = true := by
  unfold execNeg at ht
  exact portOp_memWf h ht

theorem execAbs_memWf {k : Nat} {wd : BitVec 2} {src : ArithSrc} {pt : Ports} {s : State} (h : s.memWf = true) {t : State}
    (ht : execAbs k wd src pt s = .next t) : t.memWf = true := by
  unfold execAbs at ht
  exact portOp_memWf h ht

theorem execClr_memWf {k : Nat} {wd : BitVec 2} {src : ArithSrc} {pt : Ports} {s : State} (h : s.memWf = true) {t : State}
    (ht : execClr k wd src pt s = .next t) : t.memWf = true := by
  unfold execClr at ht
  exact portOp_memWf h ht

theorem execCopy_memWf {k : Nat} {wd : BitVec 2} {src : ArithSrc} {pt : Ports} {s : State} (h : s.memWf = true) {t : State}
    (ht : execCopy k wd src pt s = .next t) : t.memWf = true := by
  unfold execCopy at ht
  exact portOp_memWf h ht

theorem execAndW_memWf {k : Nat} {wd : BitVec 2} {src : ArithSrc} {pt : Ports} {s : State} (h : s.memWf = true) {t : State}
    (ht : execAndW k wd src pt s = .next t) : t.memWf = true := by
  unfold execAndW at ht
  exact portOp_memWf h ht

theorem execOrW_memWf {k : Nat} {wd : BitVec 2} {src : ArithSrc} {pt : Ports} {s : State} (h : s.memWf = true) {t : State}
    (ht : execOrW k wd src pt s = .next t) : t.memWf = true := by
  unfold execOrW at ht
  exact portOp_memWf h ht

theorem execXorW_memWf {k : Nat} {wd : BitVec 2} {src : ArithSrc} {pt : Ports} {s : State} (h : s.memWf = true) {t : State}
    (ht : execXorW k wd src pt s = .next t) : t.memWf = true := by
  unfold execXorW at ht
  exact portOp_memWf h ht

theorem execShl1_memWf {k : Nat} {wd : BitVec 2} {src : ArithSrc} {pt : Ports} {s : State} (h : s.memWf = true) {t : State}
    (ht : execShl1 k wd src pt s = .next t) : t.memWf = true := by
  unfold execShl1 at ht
  exact portOp_memWf h ht

theorem execShr1_memWf {k : Nat} {wd : BitVec 2} {src : ArithSrc} {pt : Ports} {s : State} (h : s.memWf = true) {t : State}
    (ht : execShr1 k wd src pt s = .next t) : t.memWf = true := by
  unfold execShr1 at ht
  exact portOp_memWf h ht

theorem execRndf_memWf {k : Nat} {wd : BitVec 2} {src : ArithSrc} {pt : Ports} {s : State} (h : s.memWf = true) {t : State}
    (ht : execRndf k wd src pt s = .next t) : t.memWf = true := by
  unfold execRndf at ht
  exact portOp_memWf h ht

theorem execSatf_memWf {k : Nat} {wd : BitVec 2} {src : ArithSrc} {pt : Ports} {s : State} (h : s.memWf = true) {t : State}
    (ht : execSatf k wd src pt s = .next t) : t.memWf = true := by
  unfold execSatf at ht
  exact portOp_memWf h ht

theorem execMac_memWf {k : Nat} {wd : BitVec 2} {sign : Bool} {ui : BitVec 1} {vj : BitVec 2} {pt : Ports} {s : State} (h : s.memWf = true)
    {t : State} (ht : execMac k wd sign ui vj pt s = .next t) : t.memWf = true := by
  unfold execMac at ht
  exact portOp_memWf h ht

theorem execMul_memWf {k : Nat} {wd : BitVec 2} {sign : Bool} {ui : BitVec 1} {vj : BitVec 2} {pt : Ports} {s : State} (h : s.memWf = true)
    {t : State} (ht : execMul k wd sign ui vj pt s = .next t) : t.memWf = true := by
  unfold execMul at ht
  exact portOp_memWf h ht

theorem execQmac_memWf {k : Nat} {sign z : Bool} {ui : BitVec 2} {quad : BitVec 1} {pt : Ports} {s : State} (h : s.memWf = true) {t : State}
    (ht : execQmac k sign z ui quad pt s = .next t) : t.memWf = true := by
  unfold execQmac at ht
  exact portOp_memWf h ht

theorem execQmacx_memWf {k : Nat} {sign z : Bool} {ui : BitVec 2} {quad : BitVec 1} {pt : Ports} {s : State} (h : s.memWf = true) {t : State}
    (ht : execQmacx k sign z ui quad pt s = .next t) : t.memWf = true := by
  unfold execQmacx at ht
  exact portOp_memWf h ht

theorem execXmac_memWf {k : Nat} {sign z : Bool} {pt : Ports} {s : State} (h : s.memWf = true) {t : State} (ht : execXmac k sign z pt s = .next t) :
    t.memWf = true := by
  unfold execXmac at ht
  exact portOp_memWf h ht

theorem execMin_memWf {k : Nat} {wd ui : BitVec 2} {pt : Ports} {s : State} (h : s.memWf = true) {t : State} (ht : execMin k wd ui pt s = .next t) :
    t.memWf = true := by
  unfold execMin at ht
  exact portOp_memWf h ht

theorem execMax_memWf {k : Nat} {wd ui : BitVec 2} {pt : Ports} {s : State} (h : s.memWf = true) {t : State} (ht : execMax k wd ui pt s = .next t) :
    t.memWf = true := by
  unfold execMax at ht
  exact portOp_memWf h ht

theorem execMinuw_memWf {k : Nat} {wd ui : BitVec 2} {pt : Ports} {s : State} (h : s.memWf = true) {t : State} (ht : execMinuw k wd ui pt s = .next t)
    : t.memWf = true := by
  unfold execMinuw at ht
  exact portOp_memWf h ht

theorem execMaxuw_memWf {k : Nat} {wd ui : BitVec 2} {pt : Ports} {s : State} (h : s.memWf = true) {t : State} (ht : execMaxuw k wd ui pt s = .next t)
    : t.memWf = true := by
  unfold execMaxuw at ht
  exact portOp_memWf h ht

theorem execAddc_memWf {k : Nat} {wd : BitVec 2} {pt : Ports} {s : State} (h : s.memWf = true) {t : State} (ht : execAddc k wd pt s = .next t) :
    t.memWf = true := by
  unfold execAddc at ht
  exact portOp_memWf h ht

theorem execSubc_memWf {k : Nat} {wd : BitVec 2} {pt : Ports} {s : State} (h : s.memWf = true) {t : State} (ht : execSubc k wd pt s = .next t) :
    t.memWf = true := by
  unfold execSubc at ht
  exact portOp_memWf h ht

theorem execMulsu_memWf {k : Nat} {wd ui : BitVec 2} {pt : Ports} {s : State} (h : s.memWf = true) {t : State} (ht : execMulsu k wd ui pt s = .next t)
    : t.memWf = true := by
  unfold execMulsu at ht
  exact portOp_memWf h ht

theorem execMuluu_memWf {k : Nat} {wd ui : BitVec 2} {pt : Ports} {s : State} (h : s.memWf = true) {t : State} (ht : execMuluu k wd ui pt s = .next t)
    : t.memWf = true := by
  unfold execMuluu at ht
  exact portOp_memWf h ht

theorem opMove_memWf {dst src : RegCode} {v : View} {c : VCore} (h : c.memWf = true) : (opMove dst src v c).memWf = true := by
  unfold opMove
  split
  · exact VCore.onCur_memWf h
  · exact VCore.onCur_memWf h

theorem execMove_memWf {k : Nat} {dst src : RegCode} {s : State} (h : s.memWf = true) {t : State} (ht : execMove k dst src s = .next t) : t.memWf =
    true := by
  unfold execMove at ht
  exact onCore_memWf h (fun _ _ hc => issue_memWf hc (fun _ _ hc1 => opMove_memWf hc1)) ht

theorem opLdk_memWf {dst : RegCode} {x : Word24} {x1 : View} {c : VCore} (h : c.memWf = true) : (opLdk dst x x1 c).memWf = true := by
  unfold opLdk
  split
  · exact VCore.onCur_memWf h
  · exact VCore.onCur_memWf h

theorem execLdk_memWf {k : Nat} {dst : RegCode} {c : Word24} {s : State} (h : s.memWf = true) {t : State} (ht : execLdk k dst c s = .next t) : t.memWf
    = true := by
  unfold execLdk at ht
  exact onCore_memWf h (fun _ _ hc1 => issue_memWf hc1 (fun _ _ hc2 => opLdk_memWf hc2)) ht

theorem opMovm_memWf {reg : RegCode} {store y : Bool} {m : MovMode} {v : View} {c : VCore} (h : c.memWf = true) : (opMovm reg store y m v c).memWf =
    true := by
  unfold opMovm
  split
  · split
    · extract_lets x
      exact localStore_memWf (VCore.setCur_memWf h)
    · extract_lets l
      exact VCore.onCur_memWf (localLoad_memWf h)
  · exact VCore.onCur_memWf h

theorem execMovm_memWf {k : Nat} {reg : RegCode} {store y : Bool} {mode : MovMode} {s : State} (h : s.memWf = true) {t : State}
    (ht : execMovm k reg store y mode s = .next t) : t.memWf = true := by
  unfold execMovm at ht
  exact onCore_memWf h (fun _ _ hc => issue_memWf hc (fun _ _ hc1 => opMovm_memWf hc1)) ht

theorem issueFlow_memWf {endForbidden : Bool} {act : VCore → VCore} {c : VCore} (h : c.memWf = true)
    (hact : ∀ c, c.memWf = true → (act c).memWf = true) : (issueFlow endForbidden act c).memWf = true := by
  unfold issueFlow
  extract_lets r clean
  split
  · exact h
  · split
    · exact VCore.onCur_memWf h
    · exact hact _ (VCore.onCur_memWf h)

theorem execNop_memWf {k : Nat} {s : State} (h : s.memWf = true) {t : State} (ht : execNop k s = .next t) : t.memWf = true := by
  unfold execNop at ht
  exact onCore_memWf h (fun _ _ hc => issueFlow_memWf hc (fun _ hc1 => VCore.onCur_memWf hc1)) ht

theorem afterTask_memWf {k : Nat} {s : State} (h : s.memWf = true) : (afterTask k s).memWf = true := ite_memWf (takeRequest_memWf h) h

theorem resumeWait_memWf {c : VCore} (h : c.memWf = true) : (resumeWait c).memWf = true := by
  unfold resumeWait
  split
  · exact h
  · exact VCore.onCur_memWf h

theorem leaveTask_memWf {c : VCore} (h : c.memWf = true) : (leaveTask c).memWf = true := by
  unfold leaveTask
  split
  · exact resumeWait_memWf h
  · exact h

theorem pairComplete_memWf {q : Nat} {s : State} (h : s.memWf = true) : (pairComplete q s).memWf = true := by
  unfold pairComplete
  extract_lets s1
  have hs1 : s1.memWf = true := mapCores_memWf h fun _ _ hc => hc
  exact foldl_memWf (fun _ _ ht => holdAtLimit_memWf ht) _ hs1

theorem dropWriter_memWf {s : State} {q : Nat} (h : s.memWf = true) : (dropWriter s q).memWf = true := by
  unfold dropWriter
  extract_lets n _ s1
  have hs1 : s1.memWf = true := h
  exact ite_memWf h (ite_memWf (pairComplete_memWf hs1) hs1)

theorem instanceOver_memWf {t : Task} {s : State} (h : s.memWf = true) : (instanceOver t s).memWf = true := by
  unfold instanceOver
  split
  · exact h
  · exact foldl_memWf (fun _ _ ht => dropWriter_memWf ht) _ h

theorem addBus_memWf {b n : Nat} {x : Word24} {s : State} (h : s.memWf = true) : (addBus b n x s).memWf = true := h

theorem addContrib_memWf {bay b n : Nat} {x : Word24} {s : State} (h : s.memWf = true) : (addContrib bay b n x s).memWf = true := by
  unfold addContrib
  extract_lets k
  exact h

theorem mergeStore_memWf {bay c : Nat} {x : Nat × Nat × Word24} {s : State} (h : s.memWf = true) : (mergeStore bay c x s).memWf = true := by
  unfold mergeStore
  split
  · exact addBus_memWf h
  · extract_lets s1
    have hs1 : s1.memWf = true := addContrib_memWf h
    exact State.setCourse_memWf hs1

theorem mergeAll_memWf {bay c : Nat} {xs : List (Nat × Nat × Word24)} {s : State} (h : s.memWf = true) : (mergeAll bay c xs s).memWf = true := by
  induction xs generalizing s with
  | nil => exact h
  | cons x r ih => exact ih (mergeStore_memWf h)

theorem writeLevel_memWf {i : Nat} {s : State} (h : s.memWf = true) : (writeLevel i s).memWf = true := by
  unfold writeLevel
  extract_lets v
  exact State.setVoice_memWf h

theorem finishTask_memWf {k ctx : Nat} {t : Task} {s : State} (h : s.memWf = true) : (finishTask k ctx t s).memWf = true := by
  unfold finishTask
  extract_lets held t1 _ s1 s2
  have hs1 : s1.memWf = true := by
    unfold s1
    refine setCore_memWf h ?_
    refine leaveTask_memWf ?_
    exact core_memWf h _
  have hs2 : s2.memWf = true := instanceOver_memWf (mergeAll_memWf hs1)
  exact afterTask_memWf (ite_memWf (writeLevel_memWf hs2) hs2)

theorem endOfTask_memWf {k : Nat} {s : State} (h : s.memWf = true) : (endOfTask k s).memWf = true := by
  unfold endOfTask
  extract_lets c s1
  have hc : c.memWf = true := core_memWf h _
  have hs1 : s1.memWf = true := by
    unfold s1
    refine setCore_memWf h ?_
    exact issueFlow_memWf hc (fun _ hc1 => VCore.onCur_memWf hc1)
  split
  · exact h
  · split
    · refine setCore_memWf h ?_
      exact issueFlow_memWf hc (fun _ hc11 => hc11)
    · split
      · exact hs1
      · split
        · exact afterTask_memWf (setCore_memWf hs1 (leaveTask_memWf (core_memWf hs1 _)))
        · exact finishTask_memWf hs1

theorem execEndTask_memWf {k : Nat} {s : State} (h : s.memWf = true) {t : State} (ht : execEndTask k s = .next t) : t.memWf = true := by
  unfold execEndTask at ht
  replace ht := next_of_withUnit ht
  cases ht
  exact endOfTask_memWf h

theorem opFwait_memWf {c : VCore} (h : c.memWf = true) : (opFwait c).memWf = true := by
  unfold opFwait
  split
  · exact VCore.onCur_memWf h
  · exact VCore.onCur_memWf h

theorem execFwait_memWf {k : Nat} {s : State} (h : s.memWf = true) {t : State} (ht : execFwait k s = .next t) : t.memWf = true := by
  unfold execFwait at ht
  exact onCore_memWf h (fun _ _ hc => issueFlow_memWf hc (fun _ hc1 => opFwait_memWf hc1)) ht

theorem execJmp_memWf {k : Nat} {target : BitVec 13} {s : State} (h : s.memWf = true) {t : State} (ht : execJmp k target s = .next t) : t.memWf = true
    := by
  unfold execJmp at ht
  exact onCore_memWf h (fun _ _ hc => issueFlow_memWf hc (fun _ hc1 => VCore.onCur_memWf hc1)) ht

theorem execCall_memWf {k : Nat} {target : BitVec 13} {s : State} (h : s.memWf = true) {t : State} (ht : execCall k target s = .next t) :
    t.memWf = true := by
  unfold execCall at ht
  exact onCore_memWf (show State.memWf { s with freeCtr := s.freeCtr + 8 } = true from h)
    (fun _ _ hc => issueFlow_memWf hc (fun _ hc1 => VCore.onCur_memWf hc1)) ht

theorem execRet_memWf {k : Nat} {s : State} (h : s.memWf = true) {t : State} (ht : execRet k s = .next t) : t.memWf = true := by
  unfold execRet at ht
  exact onCore_memWf (State.fresh_memWf h) (fun _ _ hc => issueFlow_memWf hc (fun _ hc1 => VCore.onCur_memWf hc1)) ht

theorem opBr_memWf {cond : BitVec 4} {off : BitVec 12} {c : VCore} (h : c.memWf = true) : (opBr cond off c).memWf = true := by
  unfold opBr
  split
  · exact VCore.onCur_memWf h
  · split
    · exact VCore.onCur_memWf h
    · exact VCore.onCur_memWf h

theorem execBrCc_memWf {k : Nat} {cond : BitVec 4} {off : BitVec 12} {s : State} (h : s.memWf = true) {t : State}
    (ht : execBrCc k cond off s = .next t) : t.memWf = true := by
  unfold execBrCc at ht
  exact onCore_memWf h (fun _ _ hc => issueFlow_memWf hc (fun _ hc1 => opBr_memWf hc1)) ht

theorem abandonRun_memWf {ctx : Nat} {c : VCore} (h : c.memWf = true) : (abandonRun ctx c).memWf = true := by
  unfold abandonRun
  extract_lets c1
  have hc1 : c1.memWf = true := by
    unfold c1
    split
    · exact resumeWait_memWf h
    · exact h
  split
  · exact resumeWait_memWf hc1
  · exact hc1

theorem cutVoice_memWf {why i : Nat} {s : State} (h : s.memWf = true) : (cutVoice why i s).memWf = true := by
  unfold cutVoice
  extract_lets v
  exact traceBay_memWf (State.onPart_memWf (State.setVoice_memWf h))

theorem cutTask_memWf {k ctx why : Nat} {s : State} (h : s.memWf = true) : (cutTask k ctx why s).memWf = true := by
  unfold cutTask
  split
  · exact h
  · extract_lets _ s1 s2
    have hs1 : s1.memWf = true := by
      unfold s1
      refine setCore_memWf h ?_
      refine abandonRun_memWf ?_
      exact core_memWf h _
    have hs2 : s2.memWf = true := instanceOver_memWf hs1
    exact ite_memWf (cutVoice_memWf hs2) hs2

theorem runLoop_memWf {k : Nat} {count : BitVec 16} {body : Nat} {s : State} (h : s.memWf = true) : (runLoop k count body s).memWf = true := by
  unfold runLoop
  extract_lets c s1
  have hc : c.memWf = true := core_memWf h _
  have hs1 : s1.memWf = true := setCore_memWf h (VCore.onCur_memWf hc)
  split
  · exact h
  · split
    · refine setCore_memWf h ?_
      exact issueFlow_memWf hc (fun _ hc11 => hc11)
    · split
      · refine setCore_memWf h ?_
        exact issueFlow_memWf hc (fun _ hc11 => VCore.onCur_memWf hc11)
      · split
        · refine setCore_memWf h ?_
          exact issueFlow_memWf hc (fun _ hc11 => VCore.onCur_memWf hc11)
        · split
          · exact hs1
          · exact cutTask_memWf hs1

theorem execLoop_memWf {k : Nat} {count body : Byte} {s : State} (h : s.memWf = true) {t : State} (ht : execLoop k count body s = .next t) : t.memWf =
    true := by
  unfold execLoop at ht
  replace ht := next_of_withUnit ht
  cases ht
  exact afterIssue_memWf (runLoop_memWf h)

theorem execLoopv_memWf {k : Nat} {ui : BitVec 2} {body : Byte} {s : State} (h : s.memWf = true) {t : State} (ht : execLoopv k ui body s = .next t) :
    t.memWf = true := by
  unfold execLoopv at ht
  replace ht := next_of_withUnit ht
  cases ht
  exact afterIssue_memWf (runLoop_memWf h)

theorem execLeave_memWf {k : Nat} {s : State} (h : s.memWf = true) {t : State} (ht : execLeave k s = .next t) : t.memWf = true := by
  unfold execLeave at ht
  exact onCore_memWf h (fun _ _ hc => issueFlow_memWf hc (fun _ hc1 => VCore.onCur_memWf hc1)) ht

theorem execRpt_memWf {k : Nat} {n : BitVec 7} {s : State} (h : s.memWf = true) {t : State} (ht : execRpt k n s = .next t) : t.memWf = true := by
  unfold execRpt at ht
  exact onCore_memWf h (fun _ _ hc => issueFlow_memWf hc (fun _ hc1 => VCore.onCur_memWf hc1)) ht

theorem opFetch_memWf {y : Bool} {ptr : BitVec 3} {ui : BitVec 2} {words : BitVec 6} {v : View} {c : VCore} (h : c.memWf = true) :
    (opFetch y ptr ui words v c).memWf = true := by
  unfold opFetch
  extract_lets a n count st en f
  split
  · exact VCore.onCur_memWf h
  · exact VCore.onCur_memWf h

theorem execFetch_memWf {k : Nat} {y : Bool} {ptr : BitVec 3} {ui : BitVec 2} {words : BitVec 6} {s : State} (h : s.memWf = true) {t : State}
    (ht : execFetch k y ptr ui words s = .next t) : t.memWf = true := by
  unfold execFetch at ht
  exact onCore_memWf h (fun _ _ hc => issue_memWf hc (fun _ _ hc1 => opFetch_memWf hc1)) ht

theorem VCore.onSet_memWf {c : VCore} {shadow : Bool} {g : RegSet → RegSet} (h : c.memWf = true) : (c.onSet shadow g).memWf = true := by
  unfold VCore.onSet
  split
  · exact h
  · exact h

theorem fetchStore_memWf {f : Fetch} {a : Nat} {x : Word24} {c : VCore} (h : c.memWf = true) : (fetchStore f a x c).memWf = true := by
  unfold fetchStore
  obtain ⟨hx, hy, _⟩ := VCore.memWf_iff.1 h
  split
  · split
    · exact VCore.putY_memWf h (Mem.wf_write _ _ _ hy)
    · exact VCore.putX_memWf h (Mem.wf_write _ _ _ hx)
  · exact VCore.onSet_memWf h

theorem fetchWord_memWf {k : Nat} {f : Fetch} {dbe : List Nat} {s : State} {i : Nat} (h : s.memWf = true) : (fetchWord k f dbe s i).memWf = true := by
  unfold fetchWord
  extract_lets rd s1 c1
  have hs1 : s1.memWf = true := readStore_memWf h
  have hc1 : c1.memWf = true := fetchStore_memWf (core_memWf hs1 _)
  refine setCore_memWf hs1 ?_
  split
  · exact VCore.onSet_memWf hc1
  · exact hc1

theorem completeFetch_memWf {k : Nat} {dbe : List Nat} {s : State} (h : s.memWf = true) : (completeFetch k dbe s).memWf = true := by
  unfold completeFetch
  split
  · exact h
  · extract_lets _ s1
    have hs1 : s1.memWf = true := by
      unfold s1
      refine foldl_memWf (fun _ _ ht => fetchWord_memWf ht) _ ?_
      refine setCore_memWf h ?_
      exact core_memWf h _
    exact setCore_memWf hs1 (resumeWait_memWf (core_memWf hs1 _))

theorem execFetchComplete_memWf {k : Nat} {dbe : List Nat} {s : State} (h : s.memWf = true) {t : State} (ht : execFetchComplete k dbe s = .next t) :
    t.memWf = true := by
  unfold execFetchComplete at ht
  replace ht := next_of_withUnit ht
  cases ht
  exact completeFetch_memWf h

theorem execFifthFetchStart_memWf {k : Nat} {s : State} (h : s.memWf = true) {t : State} (ht : execFifthFetchStart k s = .next t) : t.memWf = true :=
    by
  unfold execFifthFetchStart at ht
  replace ht := next_of_withUnit ht
  cases ht
  refine setCore_memWf h ?_
  extract_lets
  exact core_memWf h _

theorem opPadd_memWf {ptr : BitVec 3} {imm : BitVec 12} {x : View} {c : VCore} (h : c.memWf = true) : (opPadd ptr imm x c).memWf = true :=
    VCore.onCur_memWf h

theorem execPadd_memWf {k : Nat} {ptr : BitVec 3} {imm : BitVec 12} {s : State} (h : s.memWf = true) {t : State} (ht : execPadd k ptr imm s = .next t)
    : t.memWf = true := by
  unfold execPadd at ht
  exact onCore_memWf h (fun _ _ hc => issue_memWf hc (fun _ _ hc1 => opPadd_memWf hc1)) ht

theorem withShift_memWf {sh : BitVec 6} {f : Nat → RegSet → RegSet} {x : View} {c : VCore} (h : c.memWf = true) : (withShift sh f x c).memWf = true :=
    by
  unfold withShift
  split
  · exact VCore.onCur_memWf h
  · exact VCore.onCur_memWf h

theorem execSra_memWf {k : Nat} {wd : BitVec 2} {sh : BitVec 6} {s : State} (h : s.memWf = true) {t : State} (ht : execSra k wd sh s = .next t) :
    t.memWf = true := by
  unfold execSra at ht
  exact onCore_memWf h (fun _ _ hc => issue_memWf hc (fun _ _ hc1 => withShift_memWf hc1)) ht

theorem execSla_memWf {k : Nat} {wd : BitVec 2} {sh : BitVec 6} {s : State} (h : s.memWf = true) {t : State} (ht : execSla k wd sh s = .next t) :
    t.memWf = true := by
  unfold execSla at ht
  exact onCore_memWf h (fun _ _ hc => issue_memWf hc (fun _ _ hc1 => withShift_memWf hc1)) ht

theorem execSrl_memWf {k : Nat} {wd : BitVec 2} {sh : BitVec 6} {s : State} (h : s.memWf = true) {t : State} (ht : execSrl k wd sh s = .next t) :
    t.memWf = true := by
  unfold execSrl at ht
  exact onCore_memWf h (fun _ _ hc => issue_memWf hc (fun _ _ hc1 => withShift_memWf hc1)) ht

theorem opCls_memWf {wd : BitVec 2} {x : View} {c : VCore} (h : c.memWf = true) : (opCls wd x c).memWf = true := VCore.onCur_memWf h

theorem execCls_memWf {k : Nat} {wd : BitVec 2} {s : State} (h : s.memWf = true) {t : State} (ht : execCls k wd s = .next t) : t.memWf = true := by
  unfold execCls at ht
  exact onCore_memWf h (fun _ _ hc => issue_memWf hc (fun _ _ hc1 => opCls_memWf hc1)) ht

theorem opDstep_memWf {wd ui : BitVec 2} {x : View} {c : VCore} (h : c.memWf = true) : (opDstep wd ui x c).memWf = true := VCore.onCur_memWf h

theorem execDstep_memWf {k : Nat} {wd ui : BitVec 2} {s : State} (h : s.memWf = true) {t : State} (ht : execDstep k wd ui s = .next t) : t.memWf =
    true := by
  unfold execDstep at ht
  exact onCore_memWf h (fun _ _ hc => issue_memWf hc (fun _ _ hc1 => opDstep_memWf hc1)) ht

theorem execClrcnt_memWf {k : Nat} {s : State} (h : s.memWf = true) {t : State} (ht : execClrcnt k s = .next t) : t.memWf = true := by
  unfold execClrcnt at ht
  exact onCore_memWf h (fun _ _ hc => issue_memWf hc (fun _ _ hc1 => VCore.onCur_memWf hc1)) ht

theorem reservedNop_memWf {x : View} {c : VCore} (h : c.memWf = true) : (reservedNop x c).memWf = true := VCore.onCur_memWf h

theorem execReservedEncoding_memWf {k : Nat} {s : State} (h : s.memWf = true) {t : State} (ht : execReservedEncoding k s = .next t) : t.memWf = true
    := by
  unfold execReservedEncoding at ht
  exact onCore_memWf h (fun _ _ hc => issue_memWf hc (fun _ _ hc1 => reservedNop_memWf hc1)) ht

theorem holdStores_memWf {k : Nat} {t : Task} {xs : List (Nat × Nat × Word24)} {s : State} (h : s.memWf = true) : (holdStores k t xs s).memWf = true
    := by
  unfold holdStores
  extract_lets ok _ c
  have hc : c.memWf = true := core_memWf h _
  refine setCore_memWf h ?_
  split
  · exact hc
  · exact VCore.onCur_memWf hc

theorem markRun_memWf {k : Nat} {v : Voice} {s : State} (h : s.memWf = true) : (markRun k v s).memWf = true := by
  unfold markRun
  refine setCore_memWf h ?_
  extract_lets
  exact core_memWf h _

theorem runVoiceTask_memWf {k ctx : Nat} {t : Task} {s : State} (h : s.memWf = true) : (runVoiceTask k ctx t s).memWf = true := by
  unfold runVoiceTask
  extract_lets i v v1
  exact holdStores_memWf (markRun_memWf (State.setVoice_memWf h))

theorem dispatchTask_memWf {k : Nat} {s : State} (h : s.memWf = true) : (dispatchTask k s).memWf = true := by
  unfold dispatchTask
  split
  · exact h
  next hc =>
    split
    · refine runVoiceTask_memWf ?_
      exact startTask_memWf h hc
    · exact startTask_memWf h hc

theorem execTaskDispatch_memWf {k : Nat} {s : State} (h : s.memWf = true) {t : State} (ht : execTaskDispatch k s = .next t) : t.memWf = true := by
  unfold execTaskDispatch at ht
  replace ht := next_of_withUnit ht
  cases ht
  exact dispatchTask_memWf h

theorem execPreemption_memWf {k : Nat} {s : State} (h : s.memWf = true) {t : State} (ht : execPreemption k s = .next t) : t.memWf = true := by
  unfold execPreemption at ht
  replace ht := next_of_withUnit ht
  cases ht
  exact preempt_memWf h

theorem reportEvent_memWf {b kind pos : Nat} {s : State} (h : s.memWf = true) : (reportEvent b kind pos s).memWf = true := State.setBay_memWf h

theorem markStruck_memWf {k : Nat} {m : LocalMem} {a : Nat} {s : State} (h : s.memWf = true) : (markStruck k m a s).memWf = true := by
  unfold markStruck
  split
  · exact h
  · refine setCore_memWf h ?_
    extract_lets
    exact core_memWf h _

theorem failCore_memWf {k : Nat} {s : State} (h : s.memWf = true) : (failCore k s).memWf = true := by
  unfold failCore
  extract_lets s1
  have hs1 : s1.memWf = true := by
    unfold s1
    exact foldl_memWf (fun _ _ ht => cutTask_memWf ht) _ h
  split
  · exact hs1
  · refine setCore_memWf hs1 ?_
    exact core_memWf hs1 _

theorem memoryError_memWf {k : Nat} {m : LocalMem} {a : Nat} {double : Bool} {s : State} (h : s.memWf = true) : (memoryError k m a double s).memWf =
    true := by
  unfold memoryError
  split
  · refine setCore_memWf h ?_
    extract_lets
    exact core_memWf h _
  · extract_lets s1
    have hs1 : s1.memWf = true := reportEvent_memWf (spoilWord_memWf h)
    exact ite_memWf (cutTask_memWf (markStruck_memWf hs1)) (failCore_memWf hs1)

theorem execLocalMemoryError_memWf {k : Nat} {m : LocalMem} {addr : Nat} {double : Bool} {s : State} (h : s.memWf = true) {t : State}
    (ht : execLocalMemoryError k m addr double s = .next t) : t.memWf = true := by
  unfold execLocalMemoryError at ht
  replace ht := next_of_withUnit ht
  split at ht
  · split at ht
    · cases ht
      exact memoryError_memWf h
    · cases ht
  · split at ht
    · cases ht
      exact memoryError_memWf h
    · cases ht

end Sys2Proof.Machine
end

section
/-! PROOFS. The canonical form of the memories: the frame tick: Conductors, clocks, DAC and the commands of the boundary. -/

namespace Sys2Proof.Machine

theorem answerEntry_memWf {s : State} {x : JEntry} (h : s.memWf = true) : (answerEntry s x).memWf = true := finalAnswer_memWf h

theorem answerOwed_memWf {s : State} (h : s.memWf = true) : (answerOwed s).memWf = true := foldl_memWf (fun _ _ ht => answerEntry_memWf ht) _ h

theorem giveUp_memWf {s : State} (h : s.memWf = true) : (giveUp s).memWf = true := ite_memWf h h

theorem tickConductor_memWf {check : CondCheck} {s : State} (h : s.memWf = true) : (tickConductor check s).memWf = true := by
  unfold tickConductor
  extract_lets _ m t u
  have ht : t.memWf = true := h
  have hu : u.memWf = true := ht
  split
  · exact h
  · split
    · exact ite_memWf hu (answerOwed_memWf hu)
    · exact h
    · exact giveUp_memWf h

theorem tickAnnounce_memWf {d : Nat} {s : State} (h : s.memWf = true) : (tickAnnounce d s).memWf = true := by
  unfold tickAnnounce
  extract_lets x s1
  have hs1 : s1.memWf = true := State.send_memWf (State.setDom_memWf h)
  exact ite_memWf (ite_memWf (State.send_memWf hs1) hs1) h

theorem sendEvent_memWf {d port : Nat} {k : PtpSent} {data : List Nat} {s : State} (h : s.memWf = true) : (sendEvent d port k data s).memWf = true :=
    State.send_memWf (State.setDom_memWf h)

theorem tickSync_memWf {d : Nat} {s : State} (h : s.memWf = true) : (tickSync d s).memWf = true := by
  unfold tickSync
  extract_lets x
  exact ite_memWf (sendEvent_memWf (State.setDom_memWf h)) h

theorem tickPtp_memWf {s : State} (h : s.memWf = true) : (tickPtp s).memWf = true := by
  unfold tickPtp
  split
  · exact h
  · exact foldl_memWf (fun _ _ ht => tickAnnounce_memWf (tickSync_memWf ht)) _ h

theorem tickMedia_memWf {s : State} (h : s.memWf = true) : (tickMedia s).memWf = true :=
    foldl_memWf (fun _ _ ht => ite_memWf (State.setDom_memWf ht) ht) _ h

theorem endRamp_memWf {s : State} (h : s.memWf = true) : (endRamp s).memWf = true := h

theorem tickRamp_memWf {s : State} (h : s.memWf = true) : (tickRamp s).memWf = true := by
  unfold tickRamp
  extract_lets k m
  exact ite_memWf (endRamp_memWf h) h

theorem loseReference_memWf {s : State} (h : s.memWf = true) : (loseReference s).memWf = true := h

theorem gptpRef_memWf {s : State} (h : s.memWf = true) : (gptpRef s).memWf = true := ite_memWf h (ite_memWf h (loseReference_memWf h))

theorem aimRate_memWf {target : ℤ} {s : State} (h : s.memWf = true) : (aimRate target s).memWf = true := h

theorem startCor_memWf {c : BitVec 2} {s : State} (h : s.memWf = true) : (startCor c s).memWf = true := by
  unfold startCor
  extract_lets ok target
  exact gptpRef_memWf h

theorem tickCor_memWf {s : State} (h : s.memWf = true) : (tickCor s).memWf = true := by
  unfold tickCor
  split
  · extract_lets _ s1
    have hs1 : s1.memWf = true := h
    exact ite_memWf hs1 (startCor_memWf hs1)
  · exact h

theorem tickSwitch_memWf {s0 : State} (h : s0.memWf = true) : (tickSwitch s0).memWf = true := by
  unfold tickSwitch
  extract_lets s _ s1
  have hs : s.memWf = true := tickCor_memWf h
  have hs1 : s1.memWf = true := hs
  split
  · exact hs
  · exact ite_memWf (startCor_memWf hs1) hs1

theorem timePackets_memWf {s : State} (h : s.memWf = true) : (timePackets s).memWf = true := by
  unfold timePackets
  extract_lets now dom
  exact h

theorem tickCounters_memWf {s : State} (h : s.memWf = true) : (tickCounters s).memWf = true := by
  unfold tickCounters
  extract_lets t
  exact h

theorem tickClocks_memWf {s : State} (h : s.memWf = true) : (tickClocks s).memWf = true :=
    tickPtp_memWf (tickMedia_memWf (tickRamp_memWf (tickSwitch_memWf (timePackets_memWf (tickCounters_memWf (tickPhase_memWf h))))))

theorem recordSlips_memWf {slips : List Slip} {s : State} (h : s.memWf = true) : (recordSlips slips s).memWf = true := by
  unfold recordSlips
  extract_lets xs ports keys
  exact h

theorem State.onDac_memWf {s : State} {d : Nat} {f : DacCh → DacCh} (h : s.memWf = true) : (s.onDac d f).memWf = true := State.setDacCh_memWf h

theorem recalFrame_memWf {s : State} {d : Nat} (h : s.memWf = true) : (recalFrame s d).memWf = true := by
  unfold recalFrame
  extract_lets x e m s2 s1
  have hs2 : s2.memWf = true := State.setDacCh_memWf (State.fresh_memWf h)
  have hs1 : s1.memWf = true := ite_memWf (ite_memWf (hwPostNew_memWf hs2) hs2)
    (ite_memWf (State.setDacCh_memWf (State.fresh_memWf h)) (State.setDacCh_memWf (State.fresh_memWf h)))
  exact ite_memWf (State.setDacCh_memWf h) (ite_memWf (State.setDacCh_memWf h) (ite_memWf (State.onDac_memWf hs1) (State.onDac_memWf hs1)))

theorem startRecal_memWf {d : Nat} {s : State} (h : s.memWf = true) : (startRecal d s).memWf = true := ite_memWf (State.onDac_memWf h) h

theorem tickRecal_memWf {s : State} (h : s.memWf = true) : (tickRecal s).memWf = true := by
  unfold tickRecal
  refine foldl_memWf (fun t x ht => ?_) _ h
  extract_lets s1
  have hs1 : s1.memWf = true := recalFrame_memWf ht
  exact ite_memWf (startRecal_memWf hs1) hs1

theorem tickOutputs_memWf {s : State} (h : s.memWf = true) : (tickOutputs s).memWf = true := tickRecal_memWf h

theorem failPins_memWf {s : State} (h : s.memWf = true) : (failPins s).memWf = true :=
    foldl_memWf (fun _ _ ht => ite_memWf (completeJob_memWf (dropJob_memWf ht)) (ite_memWf (completeJob_memWf (dropJob_memWf ht)) ht)) _ h

theorem tickDac_memWf {s : State} (h : s.memWf = true) : (tickDac s).memWf = true := by
  unfold tickDac
  refine foldl_memWf (fun t x ht => ?_) _ h
  extract_lets x_1 left
  exact ite_memWf (State.setDacCh_memWf ht) (ite_memWf ht (ite_memWf (State.setDacCh_memWf ht) ht))

theorem applyDacSets_memWf {es : List Entry} {s : State} (h : s.memWf = true) : (applyDacSets es s).memWf = true :=
    foldl_memWf (fun _ _ ht => ite_memWf (State.onDac_memWf ht) ht) _ h

theorem applyDacJobs_memWf {js : List Job} {s : State} (h : s.memWf = true) : (applyDacJobs js s).memWf = true := by
  unfold applyDacJobs
  extract_lets s1
  have hs1 : s1.memWf = true := by
    unfold s1
    refine tickDac_memWf ?_
    refine applyDacSets_memWf ?_
    exact foldl_memWf (fun _ _ ht => dropJob_memWf ht) _ h
  exact foldl_memWf (fun _ _ ht => completeJob_memWf ht) _ hs1

theorem offTimeline_memWf {j : Word} {s : State} (h : s.memWf = true) : (offTimeline j s).memWf = true := h

theorem giveRender_memWf {was s : State} {x : Staged} (hs : s.memWf = true) : (giveRender was s x).memWf = true := by
  unfold giveRender
  split
  · exact State.setBay_memWf hs
  · exact hs

theorem applyCommit_memWf {s : State} (h : s.memWf = true) : (applyCommit s).1.memWf = true := by
  unfold applyCommit
  extract_lets set late s1 now s2
  have hs1 : s1.memWf = true := by
    unfold s1
    exact foldl_memWf (fun _ _ ht => giveRender_memWf ht) _ h
  have hs2 : s2.memWf = true := by
    unfold s2
    refine applyEffects_memWf ?_
    exact foldl_memWf (fun _ _ ht => putValue_memWf ht) _ hs1
  exact hs2

theorem doneStaging_memWf {s : State} {j : Word} (h : s.memWf = true) : (doneStaging s j).memWf = true := by
  unfold doneStaging
  split
  · exact endCommand_memWf h
  · exact h

theorem boundaryCommit_memWf {jb : Job} {s : State} (h : s.memWf = true) : (boundaryCommit jb s).memWf = true := by
  unfold boundaryCommit
  extract_lets js r
  refine completeJob_memWf ?_
  exact foldl_memWf (fun _ _ ht => doneStaging_memWf ht) _ (applyCommit_memWf h)

theorem renderWant_memWf {b : Nat} {x : CoefSet} {len : Nat} {s : State} (h : s.memWf = true) : (renderWant b x len s).memWf = true := by
  unfold renderWant
  refine foldl_memWf (fun t x1 ht => ?_) _ h
  split
  · extract_lets y
    exact State.setBay_memWf ht
  · exact ht

theorem scarfUsers_memWf {b : Nat} {mine : Nat → Bool} {s : State} (h : s.memWf = true) : (scarfUsers b mine s).memWf = true := h

theorem makeSwap_memWf {b len : Nat} {s : State} (h : s.memWf = true) : (makeSwap b len s).memWf = true := by
  unfold makeSwap
  extract_lets x n s1
  have hs1 : s1.memWf = true := State.setCoef_memWf (renderWant_memWf h)
  exact ite_memWf hs1 (scarfUsers_memWf hs1)

theorem applySwap_memWf {jb : Job} {s : State} (h : s.memWf = true) : (applySwap jb s).memWf = true := by
  unfold applySwap
  extract_lets b len
  exact ite_memWf (completeJob_memWf (makeSwap_memWf h)) (answer_memWf (markAnswered_memWf (holdSwap_memWf (addJob_memWf h))))

theorem applyClockSelect_memWf {e : Entry} {s : State} (h : s.memWf = true) : (applyClockSelect e s).1.memWf = true := by
  unfold applyClockSelect
  extract_lets c _ s1 s2
  have hs1 : s1.memWf = true := h
  have hs2 : s2.memWf = true := ite_memWf hs1 (startCor_memWf hs1)
  exact hs2

theorem applySessionSet_memWf {e : Entry} {s : State} (h : s.memWf = true) : (applySessionSet e s).memWf = true := by
  unfold applySessionSet
  split
  · exact foldl_memWf (fun _ _ ht => State.onSession_memWf ht) _ h
  · exact h

theorem releaseVoice_memWf {i : Nat} {t : Word} {s : State} (h : s.memWf = true) : (releaseVoice i t s).memWf = true := by
  unfold releaseVoice
  extract_lets v
  exact ite_memWf h (ite_memWf (cancelAt_memWf h) (State.setVoice_memWf h))

theorem applyRelease_memWf {e : Entry} {t : Word} {s : State} (h : s.memWf = true) : (applyRelease e t s).memWf = true :=
    ite_memWf (releaseVoice_memWf h) h

theorem scarfVoice_memWf {i : Nat} {t : Word} {len cause : Nat} {s : State} (h : s.memWf = true) : (scarfVoice i t len cause s).memWf = true := by
  unfold scarfVoice
  extract_lets v
  exact ite_memWf h (State.setVoice_memWf h)

theorem endVoice_memWf {i : Nat} {t : Word} {len cause : Nat} {s : State} (h : s.memWf = true) : (endVoice i t len cause s).memWf = true := by
  unfold endVoice
  extract_lets v
  exact ite_memWf h (ite_memWf (cancelAt_memWf h) (scarfVoice_memWf h))

theorem applyEnd_memWf {e : Entry} {t : Word} {s : State} (h : s.memWf = true) : (applyEnd e t s).memWf = true := by
  unfold applyEnd
  extract_lets i
  exact ite_memWf (endVoice_memWf h) h

theorem boundaryWrites_memWf {e : Entry} {s : State} (h : s.memWf = true) : (boundaryWrites e s).memWf = true := by
  unfold boundaryWrites
  refine foldl_memWf (fun t x ht => ?_) _ h
  extract_lets b
  exact writeEndpoint_memWf ht

theorem applyEnvs_memWf {t : Nat} {bs : List (Nat × List Word)} {s : State} (h : s.memWf = true) : (applyEnvs t bs s).memWf = true := by
  induction bs generalizing s with
  | nil => exact h
  | cons b r ih => exact ih (putEnv_memWf h)

theorem applyRegionSet_memWf {e : Entry} {s : State} (h : s.memWf = true) : (applyRegionSet e s).memWf = true := h

theorem removePackages_memWf {f : Nat → Bool} {s : State} (h : s.memWf = true) : (removePackages f s).memWf = true := by
  unfold removePackages
  extract_lets os keys s1
  have hs1 : s1.memWf = true := by
    unfold s1
    exact foldl_memWf (fun _ _ ht => demote_memWf ht) _ h
  exact hs1

theorem applyPkgDrop_memWf {e : Entry} {s : State} (h : s.memWf = true) : (applyPkgDrop e s).memWf = true := removePackages_memWf h

theorem State.onBay_memWf {s : State} {b : Nat} {f : Bay → Bay} (h : s.memWf = true) : (s.onBay b f).memWf = true := State.setBay_memWf h

theorem startResync_memWf {b : Nat} {s : State} (h : s.memWf = true) : (startResync b s).memWf = true := by
  unfold startResync
  extract_lets p s1
  have hs1 : s1.memWf = true := State.onBay_memWf h
  exact foldl_memWf (fun _ _ ht => State.setCourse_memWf ht) _ hs1

theorem startReturn_memWf {h : Nat} {s : State} (hs : s.memWf = true) : (startReturn h s).memWf = true := startResync_memWf (State.onBay_memWf hs)

theorem clearTasks_memWf {b : Nat} {s : State} (h : s.memWf = true) : (clearTasks b s).memWf = true := by
  unfold clearTasks
  refine foldl_memWf (fun t x ht => ?_) _ h
  refine setCore_memWf ht ?_
  extract_lets
  exact core_memWf ht _

theorem markCoef_memWf {s : State} (h : s.memWf = true) : (markCoef s).memWf = true := by
  unfold markCoef
  refine foldl_memWf (fun t x ht => ?_) _ h
  extract_lets o
  exact State.setBank_memWf ht

theorem protectBanks_memWf {prot : Bool} {rs : List Run} {s : State} (h : s.memWf = true) : (protectBanks prot rs s).memWf = true := by
  unfold protectBanks
  split
  · exact foldl_memWf (fun _ _ ht => State.setBank_memWf ht) _ h
  · exact h

theorem putRun_memWf {rs : List Run} {i : Nat} {ws : List Word} {s : State} (h : s.memWf = true) : (putRun rs i ws s).memWf = true := by
  unfold putRun
  refine foldl_memWf (fun t x ht => ?_) _ h
  split
  · exact putStore_memWf ht
  · exact ht

theorem moveRuns_memWf {b : Nat} {prot : Bool} {banks : List Nat} {old : List Run} {put : List Run → State → State} {stays : State → Bool} {s : State}
    
    (h : s.memWf = true) (hput : ∀ rs t, t.memWf = true → (put rs t).memWf = true) {t : State} {y : Nat}
    (ht : moveRuns b prot banks old put stays s = some (t, y)) : t.memWf = true := by
  obtain ⟨x, hx, hxt⟩ := Option.map_eq_some_iff.1 ht
  have hroom : x.1.memWf = true := roomIn_memWf (hput _ _ h) (show _ = some (x.1, x.2) from hx)
  split at hxt
  · cases hxt
    exact sweepBanks_memWf (protectBanks_memWf (putRun_memWf (hput _ _ hroom)))
  · cases hxt
    exact hroom

theorem moveCopy_memWf {b : Nat} {banks : List Nat} {o : Nat} {s : State} (h : s.memWf = true) {t : State} {y : Nat}
    (ht : moveCopy b banks o s = some (t, y)) : t.memWf = true := by
  unfold moveCopy at ht
  split at ht
  · cases ht
    exact h
  · split at ht
    next x hc =>
      obtain ⟨t1, n⟩ := x
      cases ht
      exact moveRuns_memWf h (fun _ _ ht => State.onResid_memWf ht) hc
    · split at ht
      · cases ht
        exact demote_memWf h
      · cases ht

theorem moveBuffer_memWf {b : Nat} {banks : List Nat} {x : Nat × Nat × StreamBuf} {s : State} (h : s.memWf = true) {t : State} {y : Nat}
    (ht : moveBuffer b banks x s = some (t, y)) : t.memWf = true :=
  moveRuns_memWf h (fun _ _ ht => State.setVoice_memWf ht) ht

theorem settle_memWf {b : Nat} {banks : List Nat} {s : State} (h : s.memWf = true) {t : State} {y : Nat} (ht : settle b banks s = some (t, y)) :
    t.memWf = true := by
  have hone : ∀ {α : Type} (f : α → State → Option (State × Nat)), (∀ x s t n, s.memWf = true → f x s = some (t, n) → t.memWf = true) →
      ∀ (a : State × Nat) x c, a.1.memWf = true → ((f x a.1).map fun y => (y.1, a.2 + y.2)) = some c → c.1.memWf = true := by
    intro α f hf a x c ha hc
    obtain ⟨d, hd, hdc⟩ := Option.map_eq_some_iff.1 hc
    cases hdc
    exact hf x a.1 d.1 d.2 ha hd
  refine foldl_bind_keeps (fun a : State × Nat => a.1.memWf = true) (hone (moveBuffer b banks) fun _ _ _ _ hs => moveBuffer_memWf hs) _
    (fun a ha => ?_) ht
  refine foldl_bind_keeps (fun a : State × Nat => a.1.memWf = true) (hone (moveCopy b banks) fun _ _ _ _ hs => moveCopy_memWf hs) _ (fun a0 h0 => ?_)
    ha
  cases h0
  exact h

theorem gainCoefArea_memWf {b : Nat} {s : State} (h : s.memWf = true) : (gainCoefArea b s).memWf = true := by
  unfold gainCoefArea
  extract_lets _ s1
  have hs1 : s1.memWf = true := markCoef_memWf (State.setBay_memWf h)
  split
  next hc => exact settle_memWf hs1 hc
  · exact hs1

theorem dropCoefArea_memWf {b : Nat} {s : State} (h : s.memWf = true) : (dropCoefArea b s).memWf = true := by
  unfold dropCoefArea
  extract_lets _ s1
  have hs1 : s1.memWf = true := h
  exact markCoef_memWf (State.setBay_memWf hs1)

theorem adoptPair_memWf {h : Nat} {s : State} (hs : s.memWf = true) : (adoptPair h s).memWf = true := by
  unfold adoptPair
  extract_lets m t parts s0 _ s1 _ s2 s3
  have hs0 : s0.memWf = true := by
    unfold s0
    exact foldl_memWf (fun _ _ ht => writeEndpoint_memWf ht) _ hs
  have hs1 : s1.memWf = true := hs0
  have hs2 : s2.memWf = true := hs1
  have hs3 : s3.memWf = true := State.onBay_memWf (clearTasks_memWf hs2)
  exact gainCoefArea_memWf (dropCoefArea_memWf (State.onBay_memWf hs3))

theorem applyBayRecover_memWf {e : Entry} {s : State} (h : s.memWf = true) : (applyBayRecover e s).memWf = true := by
  unfold applyBayRecover
  extract_lets home
  clear_value home
  split
  · exact State.onBay_memWf h
  · exact ite_memWf (startReturn_memWf h) h
  · exact ite_memWf (adoptPair_memWf h) h

theorem applyTdmSet_memWf {e : Entry} {s : State} (h : s.memWf = true) : (applyTdmSet e s).memWf = true := by
  unfold applyTdmSet
  extract_lets u
  exact ite_memWf h h

theorem applyAudioClock_memWf {e : Entry} {s : State} (h : s.memWf = true) : (applyAudioClock e s).1.memWf = true := by
  unfold applyAudioClock
  extract_lets w _ s1
  have hs1 : s1.memWf = true := gptpRef_memWf h
  exact hs1

theorem declareStream_memWf {t : Nat} {on : Bool} {x : Stm} {s : State} (h : s.memWf = true) : (declareStream t on x s).memWf = true :=
    ite_memWf (State.send_memWf h) (State.send_memWf (State.send_memWf h))

theorem redeclare_memWf {t : Nat} {old new : Stm} {s : State} (h : s.memWf = true) : (redeclare t old new s).memWf = true := by
  unfold redeclare
  extract_lets s1
  have hs1 : s1.memWf = true := ite_memWf (declareStream_memWf h) h
  exact ite_memWf (declareStream_memWf hs1) hs1

theorem State.setStm_memWf {s : State} {t : Nat} {x : Stm} (h : s.memWf = true) : (s.setStm t x).memWf = true := h

theorem applyStreamSet_memWf {e : Entry} {s : State} (h : s.memWf = true) : (applyStreamSet e s).1.memWf = true := by
  unfold applyStreamSet
  extract_lets t x k
  exact redeclare_memWf (State.setStm_memWf h)

theorem applyRenderSet_memWf {e : Entry} {s : State} (h : s.memWf = true) : (applyRenderSet e s).memWf = true := by
  unfold applyRenderSet
  extract_lets b w _ s1
  have hs1 : s1.memWf = true := State.setBay_memWf h
  split
  · exact hs1
  · exact setWin_memWf hs1 (Mem.wf_putWord _ _ _ _ (Mem.wf_putWord _ _ _ _ (State.memWf_win hs1)))

theorem applyUartSet_memWf {e : Entry} {s : State} (h : s.memWf = true) : (applyUartSet e s).memWf = true :=
    foldl_memWf (fun _ _ ht => setUartCfg_memWf ht) _ h

theorem sendNow_memWf {stamped : Bool} {e : Entry} {s : State} (h : s.memWf = true) : (sendNow stamped e s).memWf = true := by
  unfold sendNow
  extract_lets u x busy
  exact ite_memWf h (State.setUart_memWf h)

theorem applyTimerSet_memWf {e : Entry} {s : State} (h : s.memWf = true) : (applyTimerSet e s).memWf = true :=
    foldl_memWf (fun _ _ ht => setTimerCfg_memWf ht) _ h

theorem applyTamperSet_memWf {e : Entry} {s : State} (h : s.memWf = true) : (applyTamperSet e s).memWf = true := by
  unfold applyTamperSet
  split
  · exact h
  · extract_lets tin
    exact h

theorem applyTraceSet_memWf {e : Entry} {s : State} (h : s.memWf = true) : (applyTraceSet e s).memWf = true := h

/-- Of a choice between effects, each one's state is kept in form. -/
theorem someEffect_memWf {c : Prop} [Decidable c] {a : State × List Word} {o : Option (State × List Word)} (ha : a.1.memWf = true)
    (ho : ∀ r, o = some r → r.1.memWf = true) : ∀ r, (if c then some a else o) = some r → r.1.memWf = true := by
  intro r hr
  split at hr
  · cases hr
    exact ha
  · exact ho r hr

theorem boundaryEffect_memWf {jb : Job} {s : State} (h : s.memWf = true) {r : State × List Word} (ht : boundaryEffect jb s = some r) :
    r.1.memWf = true := by
  unfold boundaryEffect at ht
  dsimp only at ht
  refine someEffect_memWf (applyClockSelect_memWf h) ?_ r ht
  refine someEffect_memWf (applySessionSet_memWf h) ?_
  refine someEffect_memWf (applyRelease_memWf h) ?_
  refine someEffect_memWf (applyEnd_memWf h) ?_
  refine someEffect_memWf (boundaryWrites_memWf h) ?_
  refine someEffect_memWf (applyEnvs_memWf h) ?_
  refine someEffect_memWf (applyRegionSet_memWf h) ?_
  refine someEffect_memWf (applyPkgDrop_memWf h) ?_
  refine someEffect_memWf (applyBayRecover_memWf h) ?_
  refine someEffect_memWf (applyTdmSet_memWf h) ?_
  refine someEffect_memWf (applyAudioClock_memWf h) ?_
  refine someEffect_memWf (applyStreamSet_memWf h) ?_
  refine someEffect_memWf (applyRenderSet_memWf h) ?_
  refine someEffect_memWf (applyUartSet_memWf h) ?_
  refine someEffect_memWf (sendNow_memWf h) ?_
  refine someEffect_memWf (applyTimerSet_memWf h) ?_
  refine someEffect_memWf (applyTamperSet_memWf h) ?_
  refine someEffect_memWf (applyHealthSet_memWf h) ?_
  refine someEffect_memWf (applyTraceSet_memWf h) ?_
  intro r hr
  cases hr

theorem applyJob_memWf {s : State} {jb : Job} (h : s.memWf = true) : (applyJob s jb).memWf = true := by
  unfold applyJob
  extract_lets s1
  have hs1 : s1.memWf = true := offTimeline_memWf (dropJob_memWf h)
  split
  · exact boundaryCommit_memWf hs1
  · split
    · exact applySwap_memWf hs1
    · split
      next r hc => exact completeJob_memWf (boundaryEffect_memWf hs1 hc)
      · exact completeJob_memWf hs1

theorem applyJobs_memWf {s : State} (h : s.memWf = true) : (applyJobs s).memWf = true := by
  unfold applyJobs
  extract_lets js dac
  refine failPins_memWf ?_
  refine applyDacJobs_memWf ?_
  exact foldl_memWf (fun _ _ ht => applyJob_memWf ht) _ h

end Sys2Proof.Machine
end

section
/-! PROOFS. The canonical form of the memories: the frame tick: pairs, voices, the Vault, kept posts and Courses. -/

namespace Sys2Proof.Machine

theorem tickEpoch_memWf {s : State} (h : s.memWf = true) : (tickEpoch s).memWf = true := by
  unfold tickEpoch
  extract_lets gives
  exact ite_memWf (bumpEpoch_memWf h) h

theorem tickRejoin_memWf {s : State} {b : Nat} (h : s.memWf = true) : (tickRejoin s b).memWf = true := by
  unfold tickRejoin
  exact ite_memWf (startReturn_memWf h) h

theorem tickJoin_memWf {s : State} {b : Nat} (h : s.memWf = true) : (tickJoin s b).memWf = true := by
  unfold tickJoin
  extract_lets x s1
  have hs1 : s1.memWf = true := State.onBay_memWf h
  exact ite_memWf (ite_memWf (State.onBay_memWf hs1) hs1) (ite_memWf (State.onBay_memWf h) h)

theorem copyStep_memWf {n k t : Nat} {s : State} (h : s.memWf = true) : (copyStep n k t s).memWf = true := by
  unfold copyStep
  extract_lets x c
  obtain ⟨hx, _, hprog⟩ := VCore.memWf_iff.1 (core_memWf h k)
  refine setCore_memWf h ?_
  split
  · exact VCore.putProg_memWf (core_memWf h k) (copyRange_wf hprog)
  · exact VCore.putX_memWf (core_memWf h k) (copyRange_wf hx)

theorem tickCopy_memWf {s : State} {b : Nat} (h : s.memWf = true) : (tickCopy s b).memWf = true := by
  unfold tickCopy
  extract_lets x
  split
  · split
    · exact State.onBay_memWf h
    · split
      · refine State.onBay_memWf ?_
        exact foldl_memWf (fun _ _ ht => copyStep_memWf ht) _ h
      · exact h
  · exact h

theorem tickLoad_memWf {s : State} {b : Nat} (h : s.memWf = true) : (tickLoad s b).memWf = true := ite_memWf (State.onBay_memWf h) h

theorem renderCommit_memWf {b : Nat} {s : State} (h : s.memWf = true) : (renderCommit b s).memWf = true := by
  unfold renderCommit
  extract_lets xs
  split
  · exact h
  · refine bumpEpoch_memWf ?_
    refine applyEffects_memWf ?_
    exact foldl_memWf (fun _ _ ht => putValue_memWf ht) _ (State.setBay_memWf h)

theorem shiftRamps_memWf {b : Nat} {on : Bool} {now : Word} {s : State} (h : s.memWf = true) : (shiftRamps b on now s).memWf = true := by
  unfold shiftRamps
  extract_lets rest own
  exact h

theorem enterMode_memWf {b : Nat} {m : Mode} {s : State} (h : s.memWf = true) : (enterMode b m s).memWf = true := by
  unfold enterMode
  extract_lets s1 s2 s3
  have hs1 : s1.memWf = true := ite_memWf (renderCommit_memWf h) h
  have hs2 : s2.memWf = true := State.onBay_memWf hs1
  have hs3 : s3.memWf = true := shiftRamps_memWf (ite_memWf (State.onBay_memWf hs2) hs2)
  exact ite_memWf (dropCoefArea_memWf hs3) hs3

theorem endStepped_memWf {js : JState} {st : Stepped} {status : Status} {ws : List Word} {s : State} (h : s.memWf = true) :
    (endStepped js st status ws s).memWf = true := endCommand_memWf h

theorem finishMode_memWf {st : Stepped} {s : State} (h : s.memWf = true) : (finishMode st s).memWf = true := by
  unfold finishMode
  extract_lets b frame ended s1 s2
  have hs1 : s1.memWf = true := enterMode_memWf h
  have hs2 : s2.memWf = true := ite_memWf (State.onBay_memWf hs1) hs1
  exact endStepped_memWf (recordStep_memWf (State.onBay_memWf hs2))

theorem dropBuffers_memWf {i : Nat} {s : State} (h : s.memWf = true) : (dropBuffers i s).memWf = true := by
  unfold dropBuffers
  extract_lets v ns
  exact sweepBanks_memWf (State.setVoice_memWf h)

theorem dropTask_memWf {k ctx : Nat} {s : State} (h : s.memWf = true) : (dropTask k ctx s).memWf = true := by
  unfold dropTask
  refine setCore_memWf h ?_
  extract_lets
  exact core_memWf h _

theorem leaveSlot_memWf {i k ctx : Nat} {s : State} (h : s.memWf = true) : (leaveSlot i k ctx s).memWf = true := by
  unfold leaveSlot
  split
  · exact ite_memWf (dropTask_memWf h) h
  · exact h

theorem freeVoice_memWf {i : Nat} {s : State} (h : s.memWf = true) : (freeVoice i s).memWf = true := by
  unfold freeVoice
  extract_lets v s1
  have hs1 : s1.memWf = true := by
    unfold s1
    split
    · exact h
    · exact foldl_memWf (fun _ _ ht => leaveSlot_memWf ht) _ h
  exact State.setVoice_memWf hs1

theorem finishCancelled_memWf {i : Nat} {s : State} (h : s.memWf = true) : (finishCancelled i s).memWf = true := by
  unfold finishCancelled
  split
  · exact h
  · exact completeJob_memWf h

theorem detachVoice_memWf {i : Nat} {s : State} (h : s.memWf = true) : (detachVoice i s).memWf = true := by
  unfold detachVoice
  extract_lets _ s1
  have hs1 : s1.memWf = true := ite_memWf (finishCancelled_memWf h) h
  exact hs1

theorem freeEach_memWf {pick : Voice → Bool} {extra : Nat} {s : State} (h : s.memWf = true) : (freeEach pick extra s).memWf = true := by
  unfold freeEach
  refine foldl_memWf (fun t x ht => ?_) _ h
  extract_lets s1
  have hs1 : s1.memWf = true := dropBuffers_memWf (freeVoice_memWf (detachVoice_memWf ht))
  exact State.setVoice_memWf hs1

theorem tickMode_memWf {s : State} {b : Nat} (h : s.memWf = true) : (tickMode s b).memWf = true := by
  unfold tickMode
  split
  · exact ite_memWf (finishMode_memWf (ite_memWf (freeEach_memWf h) h)) h
  · exact h

theorem tickBays_memWf {s : State} (h : s.memWf = true) : (tickBays s).memWf = true :=
    foldl_memWf (fun _ _ ht => tickRejoin_memWf (tickJoin_memWf (tickCopy_memWf (tickLoad_memWf (ite_memWf ht (tickMode_memWf ht)))))) _ h

theorem switchBank_memWf {e : Entry} {s : State} {n : Nat} (h : s.memWf = true) : (switchBank e s n).memWf = true := by
  unfold switchBank
  extract_lets s0 r w s1 s2
  have hs0 : s0.memWf = true := ite_memWf (restoreGroup_memWf h) h
  have hs1 : s1.memWf = true := State.setBank_memWf hs0
  have hs2 : s2.memWf = true := ite_memWf hs1 (wakeBank_memWf hs1)
  exact ite_memWf (zeroise_memWf hs2) hs2

theorem switchBanks_memWf {e : Entry} {s : State} (h : s.memWf = true) : (switchBanks e s).memWf = true := by
  unfold switchBanks
  refine markCoef_memWf ?_
  exact foldl_memWf (fun _ _ ht => switchBank_memWf ht) _ h

theorem tickBankGive_memWf {s : State} (h : s.memWf = true) : (tickBankGive s).memWf = true :=
    foldl_memWf (fun _ _ ht => endStepped_memWf (recordStep_memWf (switchBanks_memWf ht))) _ h

theorem tickConfig_memWf {s : State} (h : s.memWf = true) : (tickConfig s).memWf = true := by
  unfold tickConfig
  extract_lets s1
  have hs1 : s1.memWf = true := applyJobs_memWf (tickEpoch_memWf h)
  exact tickBays_memWf (ite_memWf hs1 (tickBankGive_memWf hs1))

theorem moveVoices_memWf {a : Nat} {s : State} (h : s.memWf = true) : (moveVoices a s).memWf = true := by
  unfold moveVoices
  extract_lets ps
  exact h

theorem voidCuts_memWf {a : Nat} {s : State} (h : s.memWf = true) : (voidCuts a s).memWf = true := by
  unfold voidCuts
  refine foldl_memWf (fun t x ht => ?_) _ h
  split
  · exact ite_memWf (State.onPart_memWf (State.setVoice_memWf ht)) ht
  · exact ht

theorem yieldHome_memWf {h : Nat} {s : State} (hs : s.memWf = true) : (yieldHome h s).memWf = true := by
  unfold yieldHome
  extract_lets m x now window recent s1 s2
  have hs1 : s1.memWf = true := moveVoices_memWf (voidCuts_memWf hs)
  have hs2 : s2.memWf = true := State.onBay_memWf hs1
  exact State.onBay_memWf (clearTasks_memWf hs2)

theorem passHome_memWf {h : Nat} {s : State} (hs : s.memWf = true) : (passHome h s).memWf = true := by
  unfold passHome
  extract_lets m y s1 s2
  have hs1 : s1.memWf = true := moveVoices_memWf hs
  have hs2 : s2.memWf = true := State.onBay_memWf hs1
  exact State.onBay_memWf hs2

theorem yieldMirror_memWf {h : Nat} {s : State} (hs : s.memWf = true) : (yieldMirror h s).memWf = true := by
  unfold yieldMirror
  extract_lets m n s1 s2
  have hs1 : s1.memWf = true := passHome_memWf (voidCuts_memWf hs)
  have hs2 : s2.memWf = true := State.onBay_memWf hs1
  exact State.onBay_memWf (clearTasks_memWf hs2)

theorem tickYield_memWf {s : State} {h : Nat} (hs : s.memWf = true) : (tickYield s h).memWf = true := by
  unfold tickYield
  split
  · extract_lets s1
    have hs1 : s1.memWf = true := State.onBay_memWf hs
    exact ite_memWf (yieldHome_memWf hs1) (yieldMirror_memWf hs1)
  · exact hs

theorem freeVoices_memWf {mine : Nat → Bool} {extra : Nat} {s : State} (h : s.memWf = true) : (freeVoices mine extra s).memWf = true :=
    freeEach_memWf h

theorem eraseVoice_memWf {s : State} {i : Nat} (h : s.memWf = true) : (eraseVoice s i).memWf = true := by
  unfold eraseVoice
  extract_lets v
  exact ite_memWf h (ite_memWf (cancelVoice_memWf h) (State.onPart_memWf (State.setVoice_memWf h)))

theorem guardVoice_memWf {s : State} {i : Nat} (h : s.memWf = true) : (guardVoice s i).memWf = true := by
  unfold guardVoice
  extract_lets v t s1
  have hs1 : s1.memWf = true := State.setVoice_memWf h
  exact ite_memWf (cancelVoice_memWf h) (ite_memWf h (State.onPart_memWf (scarfVoice_memWf hs1)))

theorem tickVault_memWf {s : State} (h : s.memWf = true) : (tickVault s).memWf = true := by
  unfold tickVault
  extract_lets _ s1 t _ s2
  have hs1 : s1.memWf = true := by
    unfold s1
    exact foldl_memWf (fun _ _ ht => eraseVoice_memWf ht) _ h
  have ht : t.memWf = true := by
    unfold t
    exact foldl_memWf (fun _ _ ht => guardVoice_memWf ht) _ hs1
  have hs2 : s2.memWf = true := ite_memWf ht hs1
  exact ite_memWf hs2 hs2

theorem quarantineFrame_memWf {s : State} (h : s.memWf = true) : (quarantineFrame s).memWf = true := h

theorem addHeat_memWf {b : Nat} {os : List Nat} {s : State} (h : s.memWf = true) : (addHeat b os s).memWf = true :=
    foldl_memWf (fun _ _ ht => State.onResid_memWf ht) _ h

theorem doKept_memWf {s : State} {w : KeptWork} (h : s.memWf = true) : (doKept s w).memWf = true := by
  unfold doKept
  split
  · exact ite_memWf (postRequest_memWf h) h
  · exact addHeat_memWf h

theorem releaseQueue_memWf {s : State} {q : Nat} (h : s.memWf = true) : (releaseQueue s q).memWf = true := by
  unfold releaseQueue
  extract_lets left mine go
  exact foldl_memWf (fun _ _ ht => doKept_memWf ht) _ h

theorem repostAll_memWf {ps : List (Nat × Nat × List Word)} {s : State} (h : s.memWf = true) : (repostAll ps s).memWf = true := by
  induction ps generalizing s with
  | nil => exact h
  | cons p r ih => exact ih (tryPost_memWf h)

theorem hardwareRepost_memWf {s : State} (h : s.memWf = true) : (hardwareRepost s).memWf = true := repostAll_memWf h

theorem repostWork_memWf {s : State} (h : s.memWf = true) : (repostWork s).memWf = true :=
    foldl_memWf (fun _ _ ht => releaseQueue_memWf ht) _ (hardwareRepost_memWf h)

theorem leaveFrame_memWf {s : State} (h : s.memWf = true) : (leaveFrame s).memWf = true := by
  unfold leaveFrame
  extract_lets br
  exact h

theorem stampedSend_memWf {jb : Job} {s : State} (h : s.memWf = true) : (stampedSend jb s).memWf = true := completeJob_memWf (sendNow_memWf h)

theorem runSends_memWf {which : Job → Bool} {s : State} (h : s.memWf = true) : (runSends which s).memWf = true :=
    foldl_memWf (fun _ _ ht => stampedSend_memWf ht) _ h

theorem flushSends_memWf {t : Word} {s : State} (h : s.memWf = true) : (flushSends t s).memWf = true := runSends_memWf h

theorem finishCv_memWf {j : Word} {s : State} (h : s.memWf = true) : (finishCv j s).memWf = true := by
  unfold finishCv
  split
  · exact ite_memWf h (completeJob_memWf (dropJob_memWf h))
  · exact h

theorem popCv_memWf {s : State} (h : s.memWf = true) : (popCv s).memWf = true := by
  unfold popCv
  split
  · exact h
  · exact finishCv_memWf (writeCv_memWf h)

theorem flushCv_memWf {n : Nat} {s : State} (h : s.memWf = true) : (flushCv n s).memWf = true := by
  induction n generalizing s with
  | zero => exact h
  | succ n ih =>
    unfold flushCv
    split
    · exact h
    · split
      · exact ih (popCv_memWf h)
      · exact h

theorem restDac_memWf {s : State} (h : s.memWf = true) : (restDac s).memWf = true :=
    foldl_memWf (fun _ _ ht => ite_memWf (State.onDac_memWf ht) ht) _ h

theorem forgetWrites_memWf {mine : Nat → Bool} {s : State} (h : s.memWf = true) : (forgetWrites mine s).memWf = true := h

theorem recost_memWf {k t : Nat} {s : State} (h : s.memWf = true) : (recost k t s).memWf = true := h

theorem loseReplaced_memWf {k : Nat} {s : State} (h : s.memWf = true) : (loseReplaced k s).memWf = true := by
  unfold loseReplaced
  extract_lets now lost gone
  split
  · exact h
  · refine taskCosts_memWf ?_
    refine foldl_memWf (fun _ _ ht => recost_memWf ht) _ ?_
    refine setCore_memWf h ?_
    exact core_memWf h _

theorem boundaryCourses_memWf {mine : Nat → Bool} {s : State} (h : s.memWf = true) : (boundaryCourses mine s).memWf = true := by
  unfold boundaryCourses
  extract_lets s1 s2 s3
  have hs1 : s1.memWf = true := by
    unfold s1
    exact foldl_memWf (fun _ _ ht => State.setCourse_memWf ht) _ h
  have hs2 : s2.memWf = true := by
    unfold s2
    exact foldl_memWf (fun _ _ ht => ite_memWf ht (State.onBay_memWf ht)) _ hs1
  have hs3 : s3.memWf = true := by
    unfold s3
    refine foldl_memWf (fun t x ht => ?_) _ hs2
    refine loseReplaced_memWf ?_
    refine setCore_memWf ht ?_
    extract_lets
    exact core_memWf ht _
  exact hs3

theorem boundaryVoices_memWf {mine : Nat → Bool} {s : State} (h : s.memWf = true) : (boundaryVoices mine s).memWf = true := h

theorem replaceEffect_memWf {k : Nat} {s : State} {p : Nat × Task} (h : s.memWf = true) : (replaceEffect k s p).memWf = true := by
  unfold replaceEffect
  extract_lets s0 b
  have hs0 : s0.memWf = true := dropTask_memWf h
  split
  · exact hwPostNew_memWf hs0
  · exact putEffect_memWf hs0

theorem retireCore_memWf {s : State} {k : Nat} (h : s.memWf = true) : (retireCore s k).memWf = true := by
  unfold retireCore
  extract_lets s1 c
  have hs1 : s1.memWf = true := by
    unfold s1
    split
    · exact foldl_memWf (fun _ _ ht => replaceEffect_memWf ht) _ h
    · exact h
  have hc : c.memWf = true := core_memWf hs1 _
  exact ite_memWf (traceBay_memWf (setCore_memWf hs1 hc)) hs1

theorem retireCores_memWf {mine : Nat → Bool} {s : State} (h : s.memWf = true) : (retireCores mine s).memWf = true :=
    foldl_memWf (fun _ _ ht => retireCore_memWf ht) _ h

theorem tickSteps_memWf {f : Nat → Bool} {s : State} (h : s.memWf = true) : (tickSteps f s).memWf = true := by
  unfold tickSteps
  extract_lets cs
  split
  · exact h
  · refine writeLedger_memWf ?_
    exact foldl_memWf (fun _ _ ht => State.setCourse_memWf ht) _ h

theorem tickRetire_memWf {s : State} (h : s.memWf = true) : (tickRetire s).memWf = true := by
  unfold tickRetire
  extract_lets ks
  split
  · exact h
  · refine writeLedger_memWf ?_
    exact foldl_memWf (fun _ _ ht => markRetire_memWf ht) _ h

theorem tickLedger_memWf {s : State} (h : s.memWf = true) : (tickLedger s).memWf = true := by
  unfold tickLedger
  extract_lets _ s1
  have hs1 : s1.memWf = true := h
  exact ite_memWf (writeLedger_memWf hs1) hs1

theorem runFades_memWf {mine : Nat → Bool} {s : State} (h : s.memWf = true) : (runFades mine s).memWf = true := h

theorem tickBank_memWf {s : State} {b : Nat} (h : s.memWf = true) : (tickBank s b).memWf = true := by
  unfold tickBank
  extract_lets x left s1
  have hs1 : s1.memWf = true := State.setCoef_memWf h
  split
  · exact hs1
  · split
    · split
      · exact completeJob_memWf (makeSwap_memWf (dropJob_memWf hs1))
      · exact hs1
    · exact hs1

theorem finishLoads_memWf {s : State} (h : s.memWf = true) : (finishLoads s).memWf = true :=
    foldl_memWf (fun _ _ ht => completeJob_memWf (dropJob_memWf ht)) _ h

theorem tickBanks_memWf {s : State} (h : s.memWf = true) : (tickBanks s).memWf = true := by
  unfold tickBanks
  extract_lets s1
  have hs1 : s1.memWf = true := by
    unfold s1
    exact foldl_memWf (fun _ _ ht => tickBank_memWf ht) _ h
  exact ite_memWf hs1 (finishLoads_memWf hs1)

theorem tickEnds_memWf {s : State} (h : s.memWf = true) : (tickEnds s).memWf = true := by
  unfold tickEnds
  extract_lets dev s0 s1 s2 s3 s5
  have hs0 : s0.memWf = true := foldl_memWf (fun _ _ ht => tickYield_memWf ht) _ h
  have hs1 : s1.memWf = true := freeVoices_memWf (tickVault_memWf (quarantineFrame_memWf (repostWork_memWf (leaveFrame_memWf
    (flushSends_memWf (flushCv_memWf (restDac_memWf hs0)))))))
  have hs2 : s2.memWf = true := forgetWrites_memWf (boundaryCourses_memWf (boundaryVoices_memWf hs1))
  have hs3 : s3.memWf = true := retireCores_memWf (tickSteps_memWf (tickRetire_memWf (tickLedger_memWf hs2)))
  have hs5 : s5.memWf = true := runFades_memWf (tickBanks_memWf hs3)
  clear_value s5
  exact hs5

end Sys2Proof.Machine
end

section
/-! PROOFS. The canonical form of the memories: the frame tick: inputs and network messages. -/

namespace Sys2Proof.Machine

theorem addInput_memWf {s : State} {b : Nat} (h : s.memWf = true) : (addInput s b).memWf = true := by
  unfold addInput
  refine foldl_memWf (fun t x ht => ?_) _ h
  extract_lets t_1 code x_1
  exact ite_memWf ht (addBus_memWf ht)

theorem addInputs_memWf {s : State} (h : s.memWf = true) : (addInputs s).memWf = true := foldl_memWf (fun _ _ ht => addInput_memWf ht) _ h

theorem takeInputs_memWf {inputs : Inputs} {slips : List Slip} {s : State} (h : s.memWf = true) : (takeInputs inputs slips s).memWf = true := by
  unfold takeInputs
  extract_lets all used
  exact h

theorem countWriters_memWf {mine : Nat → Bool} {pairs : List Nat} {s : State} (h : s.memWf = true) : (countWriters mine pairs s).memWf = true := by
  unfold countWriters
  extract_lets w _ s1
  have hs1 : s1.memWf = true := h
  refine foldl_memWf (fun t x ht => ?_) _ hs1
  refine setCore_memWf ht ?_
  extract_lets
  exact core_memWf ht _

theorem declareOuts_memWf {mine : Nat → Bool} {s : State} (h : s.memWf = true) : (declareOuts mine s).memWf = true := by
  unfold declareOuts
  refine foldl_memWf (fun t x ht => ?_) _ h
  refine setCore_memWf ht ?_
  extract_lets
  exact core_memWf ht _

theorem tickSums_memWf {inputs : Inputs} {slips : List Slip} {s : State} (h : s.memWf = true) : (tickSums inputs slips s).memWf = true := by
  unfold tickSums
  extract_lets dev pairs
  exact addInputs_memWf (takeInputs_memWf (countWriters_memWf (declareOuts_memWf h)))

theorem handOver_memWf {s : State} {t : TEvent} (h : s.memWf = true) : (handOver s t).memWf = true := by
  unfold handOver
  split
  · exact h
  · extract_lets held
    exact intakeEvent_memWf (State.onSession_memWf h)

theorem handOverAll_memWf {s : State} (h : s.memWf = true) : (handOverAll s).memWf = true := by
  unfold handOverAll
  extract_lets kept s1
  have hs1 : s1.memWf = true := h
  exact foldl_memWf (fun _ _ ht => handOver_memWf ht) _ hs1

theorem promoteOne_memWf {s : State} (h : s.memWf = true) {t : State} (ht : promoteOne s = some t) : t.memWf = true := by
  unfold promoteOne at ht
  split at ht
  · cases ht
  · split at ht
    · cases ht
    · cases ht
      exact State.onSession_memWf h

theorem promoteAll_memWf {n : Nat} {s : State} (h : s.memWf = true) : (promoteAll n s).memWf = true := by
  induction n generalizing s with
  | zero => exact h
  | succ n ih =>
    unfold promoteAll
    split
    next t hc => exact ih (promoteOne_memWf h hc)
    · exact h

theorem holdFrame_memWf {i : NetMsg} {s : State} (h : s.memWf = true) : (holdFrame i s).memWf = true := by
  unfold holdFrame
  extract_lets used
  exact ite_memWf h h

theorem taken_memWf {i : NetMsg} {f : State → State} {s : State} (h : s.memWf = true) (hf : (f s).memWf = true) : (taken i f s).memWf = true := by
  unfold taken
  split
  · exact h
  · split
    · exact holdFrame_memWf h
    · exact hf

theorem receiveMessage_memWf {i : Nat} {u : Option Nat} {key : Nat} {m : Message} {jr : Option (BitVec 16)} {r : BitVec 64} {s : State}
    (h : s.memWf = true) : (receiveMessage i u key m jr r s).memWf = true := by
  unfold receiveMessage
  extract_lets part a
  split
  · exact messageAct_memWf h
  · exact deliver_memWf (messageAct_memWf h)

theorem networkPacket_memWf {i : Nat} {r : BitVec 64} {s : State} {p : Ump} (h : s.memWf = true) : (networkPacket i r s p).memWf = true := by
  unfold networkPacket
  extract_lets w m jr
  exact ite_memWf (State.onSession_memWf h) (receiveMessage_memWf (State.onSession_memWf h))

theorem checkSeq_memWf {i : Nat} {q : BitVec 16} {s : State} (h : s.memWf = true) : (checkSeq i q s).memWf = true := by
  unfold checkSeq
  extract_lets x s1
  have hs1 : s1.memWf = true := State.setSession_memWf h
  split
  · exact hs1
  · extract_lets d
    exact ite_memWf h (ite_memWf hs1 (State.send_memWf hs1))

theorem execNetworkMidiPacket_memWf {sid : Nat} {umpSeq : BitVec 16} {r : BitVec 64} {ps : List Ump} {s : State} (h : s.memWf = true) {t : State}
    (ht : execNetworkMidiPacket sid umpSeq r ps s = .next t) : t.memWf = true := by
  unfold execNetworkMidiPacket at ht
  replace ht := next_of_withUnit ht
  cases ht
  refine taken_memWf h ?_
  split
  · exact foldl_memWf (fun _ _ ht => networkPacket_memWf ht) _ (checkSeq_memWf h)
  · exact h

theorem takeJr_memWf {i : Nat} {r : BitVec 64} {c : BitVec 16} {s : State} (h : s.memWf = true) : (takeJr i r c s).memWf = true := by
  unfold takeJr
  extract_lets x sent win least total
  exact State.setSession_memWf h

theorem execJrClock_memWf {sid : Nat} {r : BitVec 64} {c : BitVec 16} {s : State} (h : s.memWf = true) {t : State}
    (ht : execJrClock sid r c s = .next t) : t.memWf = true := by
  unfold execJrClock at ht
  replace ht := next_of_withUnit ht
  cases ht
  exact taken_memWf h (ite_memWf (takeJr_memWf h) h)

theorem invite_memWf {port : Nat} {identity : BitVec 64} {auth : Bool} {s : State} (h : s.memWf = true) : (invite port identity auth s).memWf = true
    := by
  unfold invite
  split
  · exact State.send_memWf h
  · extract_lets old
    split
    · exact State.send_memWf (refuseOpen_memWf h)
    next hc1 =>
      refine State.send_memWf ?_
      refine foldl_memWf (fun _ _ ht => markClosing_memWf ht) _ ?_
      exact openSession_memWf h hc1

theorem execInvitation_memWf {port : Nat} {identity : BitVec 64} {auth : Bool} {s : State} (h : s.memWf = true) {t : State}
    (ht : execInvitation port identity auth s = .next t) : t.memWf = true := by
  unfold execInvitation at ht
  replace ht := next_of_withUnit ht
  cases ht
  exact taken_memWf h (ite_memWf (invite_memWf h) h)

theorem execBye_memWf {sid : Nat} {s : State} (h : s.memWf = true) {t : State} (ht : execBye sid s = .next t) : t.memWf = true := by
  unfold execBye at ht
  replace ht := next_of_withUnit ht
  cases ht
  exact taken_memWf h (ite_memWf (markClosing_memWf h) h)

theorem answerDiscovery_memWf {sid : Nat} {s : State} (h : s.memWf = true) : (answerDiscovery sid s).memWf = true :=
    State.send_memWf (State.send_memWf (State.send_memWf (State.send_memWf h)))

theorem execEndpointDiscovery_memWf {sid : Nat} {s : State} (h : s.memWf = true) {t : State} (ht : execEndpointDiscovery sid s = .next t) : t.memWf =
    true := by
  unfold execEndpointDiscovery at ht
  replace ht := next_of_withUnit ht
  cases ht
  exact taken_memWf h (ite_memWf (answerDiscovery_memWf h) h)

theorem execStreamConfigurationRequest_memWf {sid : Nat} {midi2 : Bool} {s : State} (h : s.memWf = true) {t : State}
    (ht : execStreamConfigurationRequest sid midi2 s = .next t) : t.memWf = true := by
  unfold execStreamConfigurationRequest at ht
  replace ht := next_of_withUnit ht
  cases ht
  exact taken_memWf h (ite_memWf (State.send_memWf (State.onSession_memWf h)) h)

theorem execFunctionBlockDiscovery_memWf {sid : Nat} {s : State} (h : s.memWf = true) {t : State} (ht : execFunctionBlockDiscovery sid s = .next t) :
    t.memWf = true := by
  unfold execFunctionBlockDiscovery at ht
  replace ht := next_of_withUnit ht
  cases ht
  exact taken_memWf h (ite_memWf (State.send_memWf h) h)

theorem execAnnounce_memWf {dom : Nat} {vec : List Word} {s : State} (h : s.memWf = true) {t : State} (ht : execAnnounce dom vec s = .next t) :
    t.memWf = true := by
  unfold execAnnounce at ht
  refine withDom_memWf ?_ ht
  refine taken_memWf h ?_
  extract_lets x
  exact ite_memWf (State.setDom_memWf h) h

theorem unlockDomain_memWf {d : Nat} {s : State} (h : s.memWf = true) : (unlockDomain d s).memWf = true := by
  unfold unlockDomain
  extract_lets _ s0 _ s1 alt nextCor s2
  have hs0 : s0.memWf = true := ite_memWf (show State.memWf { s with time := _ } = true from h) h
  have hs1 : s1.memWf = true := State.setDom_memWf hs0
  exact ite_memWf (gptpRef_memWf (show s1.memWf = true from hs1)) hs1

theorem lockDomain_memWf {d : Nat} {offset : BitVec 64} {ratePpt : ℤ} {s0 : State} (h : s0.memWf = true) : (lockDomain d offset ratePpt s0).memWf =
    true := by
  unfold lockDomain
  extract_lets s _ s1
  have hs : s.memWf = true := tickPhase_memWf h
  have hs1 : s1.memWf = true := State.setDom_memWf hs
  exact ite_memWf (gptpRef_memWf hs) hs1

theorem servoSync_memWf {d : Nat} {origin taken : BitVec 64} {s : State} (h : s.memWf = true) : (servoSync d origin taken s).memWf = true := by
  unfold servoSync
  extract_lets x r n s1
  have hs1 : s1.memWf = true := State.setDom_memWf h
  exact ite_memWf (ite_memWf (unlockDomain_memWf hs1) (State.setDom_memWf hs1))
    (ite_memWf (ite_memWf (aimRate_memWf hs1) hs1) (ite_memWf (lockDomain_memWf hs1) hs1))

theorem execFollowUp_memWf {dom : Nat} {origin : BitVec 64} {s : State} (h : s.memWf = true) {t : State} (ht : execFollowUp dom origin s = .next t) :
    t.memWf = true := by
  unfold execFollowUp at ht
  refine withDom_memWf (taken_memWf h ?_) ht
  split
  · exact servoSync_memWf h
  · exact h

theorem completeExchange_memWf {d : Nat} {turn : Word} {s : State} (h : s.memWf = true) : (completeExchange d turn s).memWf = true := by
  unfold completeExchange
  extract_lets x y
  exact State.setDom_memWf h

theorem execPdelayRespFollowUp_memWf {dom : Nat} {turn : Word} {s : State} (h : s.memWf = true) {t : State}
    (ht : execPdelayRespFollowUp dom turn s = .next t) : t.memWf = true := by
  unfold execPdelayRespFollowUp at ht
  exact withDom_memWf (taken_memWf h (completeExchange_memWf h)) ht

theorem execSignaling_memWf {dom : Nat} {interval : Byte} {s : State} (h : s.memWf = true) {t : State} (ht : execSignaling dom interval s = .next t) :
    t.memWf = true := by
  unfold execSignaling at ht
  refine withDom_memWf (taken_memWf h ?_) ht
  exact State.setDom_memWf h

theorem bindStream_memWf {t i : Nat} {id : BitVec 64} {s : State} (h : s.memWf = true) : (bindStream t i id s).memWf = true := by
  unfold bindStream
  extract_lets _ x
  exact State.send_memWf (declareStream_memWf (State.setStm_memWf h))

theorem endStream_memWf {t : Nat} {s : State} (h : s.memWf = true) : (endStream t s).memWf = true := by
  unfold endStream
  split
  · exact State.onSession_memWf h
  · exact h

theorem acmpBind_memWf {t : Nat} {id : BitVec 64} {s : State} (h : s.memWf = true) : (acmpBind t id s).memWf = true := by
  unfold acmpBind
  extract_lets x
  split
  · exact State.send_memWf (State.setStm_memWf h)
  · split
    · exact bindStream_memWf h
    · split
      next hc2 =>
        refine bindStream_memWf ?_
        refine endStream_memWf ?_
        exact openSession_memWf h hc2
      · exact State.send_memWf (refuseOpen_memWf h)

theorem execAcmpConnect_memWf {t : Nat} {streamId : BitVec 64} {s : State} (h : s.memWf = true) {t1 : State}
    (ht : execAcmpConnect t streamId s = .next t1) : t1.memWf = true := by
  unfold execAcmpConnect at ht
  replace ht := next_of_withUnit ht
  cases ht
  exact taken_memWf h (acmpBind_memWf h)

theorem acmpUnbind_memWf {t : Nat} {s : State} (h : s.memWf = true) : (acmpUnbind t s).memWf = true := by
  unfold acmpUnbind
  extract_lets x s1
  have hs1 : s1.memWf = true := State.setStm_memWf (endStream_memWf h)
  exact State.send_memWf (ite_memWf (State.send_memWf hs1) hs1)

theorem execAcmpDisconnect_memWf {t : Nat} {s : State} (h : s.memWf = true) {t1 : State} (ht : execAcmpDisconnect t s = .next t1) : t1.memWf = true :=
    by
  unfold execAcmpDisconnect at ht
  replace ht := next_of_withUnit ht
  cases ht
  exact taken_memWf h (acmpUnbind_memWf h)

theorem execAcmpGetState_memWf {t : Nat} {s : State} (h : s.memWf = true) {t1 : State} (ht : execAcmpGetState t s = .next t1) : t1.memWf = true := by
  unfold execAcmpGetState at ht
  replace ht := next_of_withUnit ht
  cases ht
  exact taken_memWf h (State.send_memWf h)

theorem execAdpDiscover_memWf {s : State} (h : s.memWf = true) {t : State} (ht : execAdpDiscover s = .next t) : t.memWf = true := by
  unfold execAdpDiscover at ht
  cases ht
  exact taken_memWf h (State.send_memWf h)

theorem execEntityAvailable_memWf {ctl : BitVec 64} {s : State} (h : s.memWf = true) {t : State} (ht : execEntityAvailable ctl s = .next t) : t.memWf
    = true := by
  unfold execEntityAvailable at ht
  cases ht
  exact taken_memWf h (State.send_memWf h)

theorem execReadDescriptor_memWf {ctl : BitVec 64} {type index : Nat} {s : State} (h : s.memWf = true) {t : State}
    (ht : execReadDescriptor ctl type index s = .next t) : t.memWf = true := by
  unfold execReadDescriptor at ht
  cases ht
  exact taken_memWf h (State.send_memWf h)

theorem acquireEntity_memWf {ctl : BitVec 64} {release : Bool} {s : State} (h : s.memWf = true) : (acquireEntity ctl release s).memWf = true := by
  unfold acquireEntity
  extract_lets st
  exact State.send_memWf (ite_memWf h h)

theorem execAcquireEntity_memWf {ctl : BitVec 64} {release : Bool} {s : State} (h : s.memWf = true) {t : State}
    (ht : execAcquireEntity ctl release s = .next t) : t.memWf = true := by
  unfold execAcquireEntity at ht
  cases ht
  exact taken_memWf h (acquireEntity_memWf h)

theorem lockEntity_memWf {ctl : BitVec 64} {unlock : Bool} {s : State} (h : s.memWf = true) : (lockEntity ctl unlock s).memWf = true := by
  unfold lockEntity
  extract_lets st
  exact State.send_memWf (ite_memWf h h)

theorem execLockEntity_memWf {ctl : BitVec 64} {unlock : Bool} {s : State} (h : s.memWf = true) {t : State}
    (ht : execLockEntity ctl unlock s = .next t) : t.memWf = true := by
  unfold execLockEntity at ht
  cases ht
  exact taken_memWf h (lockEntity_memWf h)

theorem execGetStreamFormat_memWf {ctl : BitVec 64} {t : Nat} {s : State} (h : s.memWf = true) {t1 : State}
    (ht : execGetStreamFormat ctl t s = .next t1) : t1.memWf = true := by
  unfold execGetStreamFormat at ht
  replace ht := next_of_withUnit ht
  cases ht
  exact taken_memWf h (State.send_memWf h)

theorem setStreamFormat_memWf {ctl : BitVec 64} {t : Nat} {format : BitVec 64} {s : State} (h : s.memWf = true) :
    (setStreamFormat ctl t format s).memWf = true := by
  unfold setStreamFormat
  extract_lets st s1
  have hs1 : s1.memWf = true := ite_memWf (State.setStm_memWf h) h
  exact State.send_memWf hs1

theorem execSetStreamFormat_memWf {ctl : BitVec 64} {t : Nat} {format : BitVec 64} {s : State} (h : s.memWf = true) {t1 : State}
    (ht : execSetStreamFormat ctl t format s = .next t1) : t1.memWf = true := by
  unfold execSetStreamFormat at ht
  replace ht := next_of_withUnit ht
  cases ht
  exact taken_memWf h (setStreamFormat_memWf h)

theorem execGetStreamInfo_memWf {ctl : BitVec 64} {t : Nat} {s : State} (h : s.memWf = true) {t1 : State} (ht : execGetStreamInfo ctl t s = .next t1)
    : t1.memWf = true := by
  unfold execGetStreamInfo at ht
  replace ht := next_of_withUnit ht
  cases ht
  exact taken_memWf h (State.send_memWf h)

theorem execGetCounters_memWf {ctl : BitVec 64} {t : Nat} {s : State} (h : s.memWf = true) {t1 : State} (ht : execGetCounters ctl t s = .next t1) :
    t1.memWf = true := by
  unfold execGetCounters at ht
  replace ht := next_of_withUnit ht
  cases ht
  exact taken_memWf h (State.send_memWf h)

theorem takeMessage_memWf {i : NetMsg} {s : State} (h : s.memWf = true) {t : State} (ht : takeMessage i s = .next t) : t.memWf = true := by
  unfold takeMessage at ht
  dsimp only at ht
  split at ht
  · exact execNetworkMidiPacket_memWf h ht
  · exact execJrClock_memWf h ht
  · exact execInvitation_memWf h ht
  · exact execBye_memWf h ht
  · exact execEndpointDiscovery_memWf h ht
  · exact execStreamConfigurationRequest_memWf h ht
  · exact execFunctionBlockDiscovery_memWf h ht
  · exact execAnnounce_memWf h ht
  · exact execFollowUp_memWf h ht
  · exact execPdelayRespFollowUp_memWf h ht
  · exact execSignaling_memWf h ht
  · exact execAcmpConnect_memWf h ht
  · exact execAcmpDisconnect_memWf h ht
  · exact execAcmpGetState_memWf h ht
  · exact execAdpDiscover_memWf h ht
  · exact execEntityAvailable_memWf h ht
  · exact execReadDescriptor_memWf h ht
  · exact execAcquireEntity_memWf h ht
  · exact execLockEntity_memWf h ht
  · exact execGetStreamFormat_memWf h ht
  · exact execSetStreamFormat_memWf h ht
  · exact execGetStreamInfo_memWf h ht
  · exact execGetCounters_memWf h ht

theorem takeBuffers_memWf {s : State} (h : s.memWf = true) : (takeBuffers s).memWf = true := by
  refine foldl_memWf (fun t i ht => ?_) _ (show s.memWf = true from h)
  split
  next hc => exact takeMessage_memWf ht hc
  · exact ht

end Sys2Proof.Machine
end

section
/-! PROOFS. The canonical form of the memories: the frame tick: tasks, streams, placement, the timeline, closings and resets. -/

namespace Sys2Proof.Machine

theorem tickSessions_memWf {s : State} (h : s.memWf = true) : (tickSessions s).memWf = true :=
    ite_memWf h (handOverAll_memWf (promoteAll_memWf (takeBuffers_memWf h)))

theorem skipInstance_memWf {k : Nat} {s : State} {p : Nat × Task} (h : s.memWf = true) : (skipInstance k s p).memWf = true := by
  unfold skipInstance
  extract_lets m _ _ s1
  have hs1 : s1.memWf = true := by
    unfold s1
    refine setCore_memWf h ?_
    exact core_memWf h _
  exact ite_memWf h (ite_memWf (traceBay_memWf hs1) hs1)

theorem skipInstances_memWf {mine : Nat → Bool} {s : State} (h : s.memWf = true) : (skipInstances mine s).memWf = true := by
  unfold skipInstances
  refine foldl_memWf (fun t x ht => ?_) _ h
  exact foldl_memWf (fun _ _ ht1 => skipInstance_memWf ht1) _ ht

theorem tickTasks_memWf {mine : Nat → Bool} {s : State} (h : s.memWf = true) : (tickTasks mine s).memWf = true := by
  unfold tickTasks
  refine foldl_memWf (fun t x ht => ?_) _ h
  refine setCore_memWf ht ?_
  extract_lets
  exact core_memWf ht _

theorem clearSums_memWf {mine : Nat → Bool} {s : State} (h : s.memWf = true) : (clearSums mine s).memWf = true := h

theorem markStreams_memWf {mine : Nat → Bool} {s : State} (h : s.memWf = true) : (markStreams mine s).memWf = true := by
  unfold markStreams
  refine foldl_memWf (fun t x ht => ?_) _ h
  refine setCore_memWf ht ?_
  extract_lets
  exact core_memWf ht _

theorem putHalf_memWf {i k n : Nat} {y : Option Half} {s : State} (h : s.memWf = true) : (putHalf i k n y s).memWf = true := by
  unfold putHalf
  extract_lets v b
  exact State.setVoice_memWf h

theorem fillHalf_memWf {s : State} {i k n : Nat} (h : s.memWf = true) : (fillHalf s i k n).memWf = true := by
  unfold fillHalf
  extract_lets v b o c
  split
  · exact h
  · exact ite_memWf (putHalf_memWf h) (putHalf_memWf (protectBanks_memWf (putRun_memWf h)))

theorem completeRefills_memWf {s : State} (h : s.memWf = true) : (completeRefills s).memWf = true := by
  unfold completeRefills
  extract_lets done
  refine foldl_memWf (fun t x ht => ?_) _ h
  split
  · exact fillHalf_memWf ht
  · exact ht

theorem serveStreams_memWf {s : State} (h : s.memWf = true) : (serveStreams s).memWf = true := markStreams_memWf (completeRefills_memWf h)

theorem askHalf_memWf {s : State} {x : Reader} (h : s.memWf = true) : (askHalf s x).memWf = true := by
  unfold askHalf
  split
  · exact h
  · extract_lets key _ s1 b
    have hs1 : s1.memWf = true := h
    exact enterRequest_memWf (postCrypt_memWf (putHalf_memWf hs1))

theorem askVoice_memWf {s : State} {i : Nat} (h : s.memWf = true) : (askVoice s i).memWf = true := by
  unfold askVoice
  extract_lets go
  have hgo : ∀ s : State, s.memWf = true → (go s).memWf = true := fun _ hs => foldl_memWf (fun _ _ ht => askHalf_memWf ht) _ hs
  split
  · exact h
  · exact hgo _ (hgo _ h)

theorem askRefills_memWf {mine : Nat → Bool} {s : State} (h : s.memWf = true) : (askRefills mine s).memWf = true :=
    foldl_memWf (fun _ _ ht => askVoice_memWf ht) _ h

theorem freeCancelled_memWf {mine : Nat → Bool} {extra : Nat} {s : State} (h : s.memWf = true) : (freeCancelled mine extra s).memWf = true :=
    freeEach_memWf h

theorem refuseVoice_memWf {why i : Nat} {s : State} (h : s.memWf = true) : (refuseVoice why i s).memWf = true := by
  unfold refuseVoice
  extract_lets v s1 s2
  have hs1 : s1.memWf = true := State.setVoice_memWf h
  have hs2 : s2.memWf = true := freeVoice_memWf hs1
  exact traceBay_memWf (State.onPart_memWf hs2)

theorem dispatcherPost_memWf {w : KeptWork} {s : State} (h : s.memWf = true) : (dispatcherPost w s).memWf = true := by
  unfold dispatcherPost
  extract_lets t
  have ht : t.memWf = true := hwPostNew_memWf h
  exact ite_memWf ht (doKept_memWf ht)

theorem claimBuffers_memWf {i : Nat} {s : State} (h : s.memWf = true) {t : State} (ht : claimBuffers i s = some t) : t.memWf = true := by
  refine foldl_bind_keeps (fun a : State => a.memWf = true) (fun a x b ha hb => ?_) _ (fun a h0 => ?_) ht
  · obtain ⟨r, hr, hrb⟩ := Option.map_eq_some_iff.1 hb
    cases hrb
    exact State.setVoice_memWf (roomIn_memWf ha (show _ = some (r.1, r.2) from hr))
  · cases h0
    exact h

theorem withContent_memWf {i : Nat} {s : State} (h : s.memWf = true) {t : State} (ht : withContent i s = some t) : t.memWf = true := by
  unfold withContent at ht
  dsimp only at ht
  split at ht
  next t1 hc =>
    split at ht
    · cases ht
      exact claimBuffers_memWf h hc
    · cases ht
  · cases ht

theorem fetchMissing_memWf {b : Nat} {os : List Nat} {s : State} (h : s.memWf = true) : (fetchMissing b os s).memWf = true := by
  unfold fetchMissing
  refine foldl_memWf (fun t x ht => ?_) _ h
  split
  · exact ht
  · split
    · exact ht
    next hc1 =>
      refine dispatcherPost_memWf ?_
      exact claimSpace_memWf ht hc1

theorem stealVoice_memWf {i w : Nat} {s : State} (h : s.memWf = true) : (stealVoice i w s).memWf = true := by
  unfold stealVoice
  extract_lets n x key t s1 s2
  have hs1 : s1.memWf = true := scarfVoice_memWf h
  have hs2 : s2.memWf = true := State.onPart_memWf (State.onPart_memWf hs1)
  exact traceBay_memWf hs2

theorem voiceGroup_memWf {i : Nat} {s : State} (h : s.memWf = true) : (voiceGroup i s).memWf = true := by
  unfold voiceGroup
  extract_lets v
  split
  · exact State.setVoice_memWf h
  · split
    · split
      next hc2 =>
        refine State.setVoice_memWf ?_
        exact bindGroup_memWf h hc2
      · exact h
    · exact h

theorem lateOnset_memWf {i : Nat} {s : State} (h : s.memWf = true) : (lateOnset i s).memWf = true := by
  unfold lateOnset
  extract_lets v r
  exact State.setVoice_memWf h

theorem putVoiceTask_memWf {k i : Nat} {entry : BitVec 13} {s : State} (h : s.memWf = true) : (putVoiceTask k i entry s).memWf = true := by
  unfold putVoiceTask
  extract_lets v t s1
  have hs1 : s1.memWf = true := rewriteSlot_memWf h
  refine setCore_memWf hs1 ?_
  exact core_memWf hs1 _

theorem putTwinTask_memWf {k i : Nat} {entry : BitVec 13} {s : State} (h : s.memWf = true) : (putTwinTask k i entry s).memWf = true := by
  unfold putTwinTask
  split
  · exact ite_memWf (putVoiceTask_memWf h) h
  · exact h

theorem requestLoad_memWf {k t words : Nat} {frame : BitVec 48} {s : State} (h : s.memWf = true) : (requestLoad k t words frame s).memWf = true := by
  unfold requestLoad
  extract_lets c live
  have hc : c.memWf = true := core_memWf h _
  split
  · exact h
  · split
    · exact h
    · exact setCore_memWf h hc

theorem placeVoice_memWf {i k : Nat} {second : Bool} {s0 : State} (h : s0.memWf = true) : (placeVoice i k second s0).memWf = true := by
  unfold placeVoice
  extract_lets s v path c v1 s1
  have hs : s.memWf = true := voiceGroup_memWf (ite_memWf (lateOnset_memWf h) h)
  have hs1 : s1.memWf = true := State.setVoice_memWf hs
  split
  · exact hs1
  · extract_lets s2 s3 s4
    have hs2 : s2.memWf = true := putTwinTask_memWf (putVoiceTask_memWf hs1)
    have hs3 : s3.memWf = true := requestLoad_memWf hs2
    have hs4 : s4.memWf = true := by
      unfold s4
      split
      · exact ite_memWf (requestLoad_memWf hs3) hs3
      · exact hs3
    exact traceBay_memWf hs4

theorem deferVoice_memWf {i : Nat} {s : State} (h : s.memWf = true) : (deferVoice i s).memWf = true := by
  unfold deferVoice
  extract_lets v s1 s2
  have hs1 : s1.memWf = true := State.setVoice_memWf h
  have hs2 : s2.memWf = true := ite_memWf hs1 (State.onPart_memWf hs1)
  exact traceBay_memWf hs2

theorem tryPlace_memWf {i : Nat} {s : State} (h : s.memWf = true) : (tryPlace i s).1.memWf = true := by
  have hplace : ∀ k second, (placeVoice i k second s).memWf = true := fun _ _ => placeVoice_memWf h
  have hrefuse : (refuseVoice 2 i s).memWf = true := refuseVoice_memWf h
  have hdefer : (deferVoice i s).memWf = true := deferVoice_memWf h
  unfold tryPlace
  extract_lets v cores
  split
  · exact hplace _ _
  · split
    · exact hplace _ _
    · split
      · exact hrefuse
      · exact hdefer

theorem decideStart_memWf {i : Nat} {s : State} (h : s.memWf = true) : (decideStart i s).1.memWf = true := by
  unfold decideStart
  extract_lets v os s0 s1
  have hs0 : s0.memWf = true := ite_memWf h (dispatcherPost_memWf h)
  have hs1 : s1.memWf = true := ite_memWf hs0 (State.onPart_memWf hs0)
  clear_value s1 s0
  split
  · exact refuseVoice_memWf (State.fresh_memWf h)
  · split
    · exact fetchMissing_memWf (State.setVoice_memWf hs1)
    · split
      · exact refuseVoice_memWf hs0
      · extract_lets s2 _ r
        have hs2 : s2.memWf = true := foldl_memWf (fun _ _ ht => stealVoice_memWf ht) _ hs0
        have hr : r.1.memWf = true := tryPlace_memWf (State.setVoice_memWf hs2)
        clear_value r
        split
        · exact getD_memWf (fun _ ht => withContent_memWf hr ht) hr
        · exact hr

theorem finishStart_memWf {i : Nat} {d : Decided} {s : State} (h : s.memWf = true) : (finishStart i d s).memWf = true := by
  unfold finishStart
  split
  · exact h
  · split
    · exact h
    · extract_lets _ s1
      have hs1 : s1.memWf = true := h
      exact ite_memWf (completeJob_memWf hs1) (completeJob_memWf hs1)

theorem releaseStart_memWf {i : Nat} {s : State} (h : s.memWf = true) : (releaseStart i s).memWf = true := by
  unfold releaseStart
  split
  · exact finishCancelled_memWf h
  · extract_lets r
    exact finishStart_memWf (decideStart_memWf h)

theorem releaseSend_memWf {j : Word} {s : State} (h : s.memWf = true) : (releaseSend j s).memWf = true := h

theorem atStamp_memWf {x : TEvent} {b : Nat} {t : Word} {now : State → State} {act : Action} {s : State} (h : s.memWf = true)
    (hnow : (now s).memWf = true) : (atStamp x b t now act s).memWf = true := by
  unfold atStamp
  split
  · exact hnow
  · exact enterTimeline_memWf h

theorem disarmResync_memWf {i : Nat} {t : Word} {s : State} (h : s.memWf = true) : (disarmResync i t s).memWf = true := by
  unfold disarmResync
  extract_lets v
  exact State.setVoice_memWf h

theorem dropArmed_memWf {armed : Option Nat} {t : Word} {s : State} (h : s.memWf = true) : (dropArmed armed t s).memWf = true := by
  unfold dropArmed
  split
  · exact disarmResync_memWf h
  · exact h

theorem cancelWaiting_memWf {p own : Nat} {t : Word} {s : State} (h : s.memWf = true) : (cancelWaiting p own t s).memWf = true :=
    foldl_memWf (fun _ _ ht => cancelAt_memWf ht) _ h

theorem pushNote_memWf {p k : Nat} {s : State} (h : s.memWf = true) : (pushNote p k s).memWf = true := h

theorem pushAct_memWf {own p k : Nat} {t : Word} {s : State} (h : s.memWf = true) : (pushAct own p k t s).memWf = true :=
    ite_memWf (cancelWaiting_memWf (pushNote_memWf h)) h

theorem settleResync_memWf {i : Nat} {was sid : Option Nat} {t : Word} {s : State} (h : s.memWf = true) : (settleResync i was sid t s).memWf = true :=
    by
  unfold settleResync
  extract_lets s1
  have hs1 : s1.memWf = true := ite_memWf h (dropArmed_memWf h)
  exact ite_memWf (disarmResync_memWf hs1) (ite_memWf hs1 (armResync_memWf hs1))

theorem glideTo_memWf {i k : Nat} {t : Word} {s : State} (h : s.memWf = true) : (glideTo i k t s).memWf = true := by
  unfold glideTo
  extract_lets v
  exact State.setVoice_memWf h

theorem retriggerVoice_memWf {i k : Nat} {t : Word} {s : State} (h : s.memWf = true) : (retriggerVoice i k t s).memWf = true := by
  unfold retriggerVoice
  extract_lets s1 v
  have hs1 : s1.memWf = true := glideTo_memWf h
  exact State.setVoice_memWf hs1

theorem noteStartAt_memWf {sid armed : Option Nat} {counted : Bool} {p k : Nat} {vel : BitVec 16} {t : Word} {s : State} (h : s.memWf = true) :
    (noteStartAt sid armed counted p k vel t s).memWf = true := by
  unfold noteStartAt
  split
  · extract_lets s1
    have hs1 : s1.memWf = true := dropArmed_memWf h
    exact newVoice_memWf (pushAct_memWf hs1)
  · extract_lets s2
    have hs2 : s2.memWf = true := settleResync_memWf h
    exact retriggerVoice_memWf (ite_memWf (pushNote_memWf hs2) hs2)
  · exact glideTo_memWf (pushNote_memWf (dropArmed_memWf h))

theorem startEvent_memWf {x : TEvent} {i : Nat} {s : State} (h : s.memWf = true) : (startEvent x i s).memWf = true := by
  unfold startEvent
  extract_lets v onto s1 s2
  have hs1 : s1.memWf = true := State.setVoice_memWf h
  have hs2 : s2.memWf = true := releaseStart_memWf hs1
  split
  · exact releaseStart_memWf h
  · split
    · exact atStamp_memWf (armResync_memWf (cancelVoice_memWf h)) (noteStartAt_memWf (armResync_memWf (cancelVoice_memWf h)))
    · exact atStamp_memWf (cancelVoice_memWf h) (noteStartAt_memWf (cancelVoice_memWf h))
    · exact ite_memWf (atStamp_memWf hs2 (pushAct_memWf hs2)) hs2

theorem relOrRecord_memWf {i : Nat} {t : Word} {s : State} (h : s.memWf = true) : (relOrRecord i t s).memWf = true := by
  unfold relOrRecord
  extract_lets v
  exact ite_memWf (State.setVoice_memWf h) (releaseVoice_memWf h)

theorem monoOff_memWf {sid armed : Option Nat} {p k : Nat} {t : Word} {s : State} (h : s.memWf = true) :
    (monoOff sid armed p k t s).memWf = true := by
  unfold monoOff
  extract_lets stack put idle
  have hput : ∀ xs (s : State), s.memWf = true → (put xs s).memWf = true := fun _ _ hs => hs
  have hidle : idle.memWf = true := dropArmed_memWf h
  split
  · exact hput _ _ hidle
  · split
    · split
      · split
        · exact retriggerVoice_memWf (settleResync_memWf (hput _ _ h))
        · exact glideTo_memWf (hput _ _ hidle)
      · exact relOrRecord_memWf (hput _ _ hidle)
    · split
      · exact hput _ _ hidle
      · split
        · exact relOrRecord_memWf hidle
        · exact hidle

theorem noteOff_memWf {sid armed : Option Nat} {p k : Nat} {t : Word} {s : State} (h : s.memWf = true) : (noteOff sid armed p k t s).memWf = true :=
    by
  unfold noteOff
  split
  · exact monoOff_memWf h
  · split
    · exact relOrRecord_memWf h
    · exact h

theorem perNoteWrite_memWf {p k param : Nat} {v t : Word} {s : State} (h : s.memWf = true) : (perNoteWrite p k param v t s).memWf = true := by
  unfold perNoteWrite
  split
  · exact countPnMiss_memWf h
  next hc =>
    refine writeEndpoint_memWf ?_
    exact bindGroup_memWf h hc

theorem perNoteReset_memWf {p k : Nat} {t : Word} {s : State} (h : s.memWf = true) : (perNoteReset p k t s).memWf = true := by
  unfold perNoteReset
  split
  · exact countPnMiss_memWf h
  next hc =>
    refine foldl_memWf (fun t2 x2 ht => ?_) _ ?_
    · split
      · exact writeEndpoint_memWf ht
      · exact ht
    · refine State.setGroup_memWf ?_
      exact bindGroup_memWf h hc

theorem applyRecorded_memWf {p : Nat} {t : Word} {s : State} (h : s.memWf = true) : (applyRecorded p t s).memWf = true := by
  unfold applyRecorded
  split
  · exact h
  · exact foldl_memWf (fun _ _ ht => releaseVoice_memWf ht) _ h

theorem sustainPedal_memWf {sid : Option Nat} {p : Nat} {down : Bool} {t : Word} {s : State} (h : s.memWf = true) :
    (sustainPedal sid p down t s).memWf = true := by
  unfold sustainPedal
  split
  · exact h
  · exact ite_memWf (State.onSession_memWf h) (applyRecorded_memWf (State.onSession_memWf h))

theorem actAt_memWf {x : TEvent} {s : State} (h : s.memWf = true) : (actAt x s).memWf = true := by
  unfold actAt
  extract_lets t
  split
  · exact startEvent_memWf h
  · exact noteStartAt_memWf h
  · exact noteStartAt_memWf h
  · exact noteStartAt_memWf h
  · exact pushAct_memWf h
  · exact noteOff_memWf h
  · exact writeEndpoint_memWf h
  · exact perNoteWrite_memWf h
  · exact perNoteReset_memWf h
  · exact sustainPedal_memWf h
  · exact foldl_memWf (fun _ _ ht => endVoice_memWf ht) _ h
  · exact foldl_memWf (fun _ _ ht => relOrRecord_memWf ht) _ h
  · exact h

theorem releaseItem_memWf {s : State} {x : TEvent} (h : s.memWf = true) : (releaseItem s x).memWf = true := by
  unfold releaseItem
  split
  · split
    · exact h
    · exact ite_memWf (ite_memWf (releaseStart_memWf h) (completeJob_memWf (dropJob_memWf h)))
        (ite_memWf (completeJob_memWf (applyRelease_memWf (dropJob_memWf h)))
        (ite_memWf (completeJob_memWf (applyEnd_memWf (dropJob_memWf h)))
        (ite_memWf (completeJob_memWf (applyWrites_memWf (dropJob_memWf h))) (ite_memWf (releaseSend_memWf h) h))))
  · exact actAt_memWf h

theorem releaseDue_memWf {own : TEvent → Bool} {ref limit : Word} {extra : List TEvent} {s : State} (h : s.memWf = true) :
    (releaseDue own ref limit extra s).memWf = true := by
  unfold releaseDue
  extract_lets due _ s1
  have hs1 : s1.memWf = true := h
  exact foldl_memWf (fun _ _ ht => releaseItem_memWf ht) _ hs1

theorem releaseDevice_memWf {s : State} (h : s.memWf = true) : (releaseDevice s).memWf = true := by
  unfold releaseDevice
  extract_lets _ s1
  have hs1 : s1.memWf = true := h
  exact releaseDue_memWf hs1

theorem retryStart_memWf {i : Nat} {s : State} (h : s.memWf = true) : (retryStart i s).memWf = true := by
  unfold retryStart
  extract_lets v
  split
  · exact finishCancelled_memWf h
  · split
    · split
      · exact refuseVoice_memWf (State.fresh_memWf h)
      · exact tryPlace_memWf h
    · exact releaseStart_memWf h

theorem deferredRetry_memWf {mine : Nat → Bool} {s : State} (h : s.memWf = true) : (deferredRetry mine s).memWf = true :=
    foldl_memWf (fun _ _ ht => retryStart_memWf ht) _ h

theorem tickRelease_memWf {s : State} (h : s.memWf = true) : (tickRelease s).memWf = true := by
  unfold tickRelease
  extract_lets s1
  have hs1 : s1.memWf = true := skipInstances_memWf (tickTasks_memWf (clearSums_memWf (serveStreams_memWf h)))
  exact askRefills_memWf (freeCancelled_memWf (releaseDevice_memWf (deferredRetry_memWf hs1)))

theorem dropItem_memWf {s : State} {x : TEvent} (h : s.memWf = true) : (dropItem s x).memWf = true := by
  unfold dropItem
  split
  · exact cancelVoice_memWf h
  · exact disarmResync_memWf h
  · exact dropArmed_memWf h

theorem discardEvents_memWf {i : Nat} {s : State} (h : s.memWf = true) : (discardEvents i s).1.memWf = true := by
  unfold discardEvents
  extract_lets gone n _ s1 s2
  have hs1 : s1.memWf = true := h
  have hs2 : s2.memWf = true := hs1
  exact foldl_memWf (fun _ _ ht => dropItem_memWf ht) _ hs2

theorem closeSession_memWf {i : Nat} {s : State} (h : s.memWf = true) : (closeSession i s).1.memWf = true := by
  unfold closeSession
  extract_lets x rel d s1 s2 vs s3 s4
  have hs1 : s1.memWf = true := State.onSession_memWf (discardEvents_memWf h)
  have hs2 : s2.memWf = true := by
    unfold s2
    exact foldl_memWf (fun _ _ ht => applyRecorded_memWf ht) _ hs1
  have hs3 : s3.memWf = true := by
    unfold s3
    exact foldl_memWf (fun _ _ ht => releaseVoice_memWf ht) _ hs2
  have hs4 : s4.memWf = true := hs3
  exact State.setSession_memWf hs4

theorem closeOne_memWf {s : State} {i : Nat} (h : s.memWf = true) : (closeOne s i).memWf = true := by
  unfold closeOne
  extract_lets x jobs _ s0 s1 r
  have hs0 : s0.memWf = true := h
  have hs1 : s1.memWf = true := ite_memWf (State.send_memWf hs0) hs0
  exact foldl_memWf (fun _ _ ht => completeJob_memWf ht) _ (closeSession_memWf hs1)

theorem closeAll_memWf {s : State} (h : s.memWf = true) : (closeAll s).memWf = true := foldl_memWf (fun _ _ ht => closeOne_memWf ht) _ h

theorem tickClosings_memWf {s : State} (h : s.memWf = true) : (tickClosings s).memWf = true := by
  unfold tickClosings
  extract_lets s1
  have hs1 : s1.memWf = true := ite_memWf h (closeAll_memWf h)
  exact hs1

theorem loadLedger_memWf {old s : State} (hs : s.memWf = true) : (loadLedger old s).memWf = true := by
  unfold loadLedger
  extract_lets l _ s1 s2 s3
  have hs1 : s1.memWf = true := hs
  have hs2 : s2.memWf = true := by
    unfold s2
    refine foldl_memWf (fun t x ht => ?_) _ hs1
    refine setCore_memWf ht ?_
    extract_lets
    exact core_memWf ht _
  have hs3 : s3.memWf = true := by
    unfold s3
    exact foldl_memWf (fun _ _ ht => State.setDacCh_memWf ht) _ hs2
  exact foldl_memWf (fun _ _ ht => State.setBank_memWf ht) _ hs3

theorem resetState_memWf {cold : Bool} {cause : BitVec 5} {s : State} : (resetState cold cause s).memWf = true := by
  unfold resetState
  extract_lets p _ _ base
  have hbase : base.memWf = true := State.memWf_iff.2 ⟨rfl, rfl, rfl, rfl, rfl⟩
  exact loadLedger_memWf hbase

theorem resetBy_memWf {cold : Bool} {source : BitVec 5} {s : State} (h : s.memWf = true) : (resetBy cold source s).memWf = true :=
    ite_memWf h resetState_memWf

theorem sysResetNow_memWf {s : State} (h : s.memWf = true) : (sysResetNow s).memWf = true := resetBy_memWf h

theorem tickReset_memWf {s : State} (h : s.memWf = true) : (tickReset s).memWf = true := ite_memWf (ite_memWf (sysResetNow_memWf h) h) h

theorem serveAll_memWf {s : State} (h : s.memWf = true) : (serveAll s).memWf = true := drain_memWf h

theorem resetChan_memWf {s : State} {n : Nat} (h : s.memWf = true) : (resetChan s n).memWf = true := by
  unfold resetChan
  extract_lets c s1 s2
  have hs1 : s1.memWf = true := State.setChan_memWf h
  have hs2 : s2.memWf = true := by
    unfold s2
    split
    · exact markClosing_memWf hs1
    · exact hs1
  exact setDbRsp_memWf hs2

theorem resetChans_memWf {s : State} (h : s.memWf = true) : (resetChans s).memWf = true := foldl_memWf (fun _ _ ht => resetChan_memWf ht) _ h

theorem tickMailbox_memWf {s : State} (h : s.memWf = true) : (tickMailbox s).memWf = true := serveAll_memWf (ite_memWf h (resetChans_memWf h))

theorem idleStreams_memWf {s : State} (h : s.memWf = true) : (idleStreams s).memWf = true := by
  unfold idleStreams
  extract_lets _ s1
  have hs1 : s1.memWf = true := h
  exact ite_memWf (loseReference_memWf hs1) hs1

theorem pruneRamps_memWf {s : State} (h : s.memWf = true) : (pruneRamps s).memWf = true := h

theorem decayHeat_memWf {s : State} (h : s.memWf = true) : (decayHeat s).memWf = true := h

theorem tickContent_memWf {s : State} (h : s.memWf = true) : (tickContent s).memWf = true := by
  unfold tickContent
  extract_lets s1
  have hs1 : s1.memWf = true := decayHeat_memWf h
  exact ite_memWf h hs1

theorem idleGroups_memWf {s : State} (h : s.memWf = true) : (idleGroups s).memWf = true := h

theorem tickUpkeep_memWf {s : State} (h : s.memWf = true) : (tickUpkeep s).memWf = true :=
    idleStreams_memWf (pruneRamps_memWf (tickContent_memWf (idleGroups_memWf h)))

theorem enterSleep_memWf {s : State} (h : s.memWf = true) : (enterSleep s).memWf = true := by
  unfold enterSleep
  extract_lets s1 _ _ s2 s3
  have hs1 : s1.memWf = true := writeLedger_memWf h
  have hs2 : s2.memWf = true := hs1
  have hs3 : s3.memWf = true := rollAll_memWf hs2
  exact hs3

theorem tickMirror_memWf {s : State} (h : s.memWf = true) : (tickMirror s).memWf = true := ite_memWf h h

theorem frameTick_memWf {check : CondCheck} {inputs : Inputs} {slips : List Slip} {s : State} (h : s.memWf = true) :
    (frameTick check inputs slips s).memWf = true := by
  unfold frameTick
  extract_lets s1 s2 s3 s4
  have hs1 : s1.memWf = true := tickConductor_memWf (tickClocks_memWf (recordSlips_memWf h))
  have hs2 : s2.memWf = true := tickOutputs_memWf (tickConfig_memWf (tickEnds_memWf hs1))
  have hs3 : s3.memWf = true := tickSums_memWf (tickSessions_memWf (tickRelease_memWf (tickClosings_memWf hs2)))
  have hs4 : s4.memWf = true := tickReset_memWf (tickMailbox_memWf (tickUpkeep_memWf hs3))
  exact ite_memWf (enterSleep_memWf hs4) (tickMirror_memWf hs4)

theorem execFrameTick_memWf {check : CondCheck} {inputs : Inputs} {slips : List Slip} {s : State} (h : s.memWf = true) {t : State}
    (ht : execFrameTick check inputs slips s = .next t) : t.memWf = true := by
  unfold execFrameTick at ht
  cases ht
  exact ite_memWf (frameTick_memWf h) h

end Sys2Proof.Machine
end

section
/-! PROOFS. The canonical form of the memories: Conductors that take over, blocks and buffers, voices and content. -/

namespace Sys2Proof.Machine

theorem execWatchdogTakeover_memWf {s : State} (h : s.memWf = true) {t : State} (ht : execWatchdogTakeover s = .next t) : t.memWf = true := by
  unfold execWatchdogTakeover at ht
  cases ht
  exact ite_memWf (giveUp_memWf h) h

theorem oweFailover_memWf {s : State} (h : s.memWf = true) : (oweFailover s).memWf = true := h

theorem putProgram_memWf {ws : List (BitVec 24)} {c : VCore} (h : c.memWf = true) : (putProgram ws c).memWf = true :=
  VCore.putProg_memWf h (Mem.writes_wf _ _ _ (VCore.memWf_iff.1 h).2.2)

theorem copyProgram_memWf {ws : List (BitVec 24)} {course : Nat} {s : State} (h : s.memWf = true) : (copyProgram ws course s).memWf = true :=
    foldl_memWf (fun _ _ ht => setCore_memWf ht (putProgram_memWf (core_memWf ht _))) _ h

theorem vprogUndo_memWf {st : Stepped} {k : Nat} {s : State} (h : s.memWf = true) : (vprogUndo st k s).memWf = true :=
    ite_memWf h (copyProgram_memWf h)

theorem pkgUndo_memWf {s : State} (h : s.memWf = true) : (pkgUndo s).memWf = true := by
  unfold pkgUndo
  split
  · exact h
  · exact h

theorem formAgain_memWf {b : Nat} {was : Word} {s : State} (h : s.memWf = true) : (formAgain b was s).memWf = true := by
  unfold formAgain
  extract_lets m
  exact ite_memWf (startResync_memWf (State.onBay_memWf (State.onBay_memWf h))) h

theorem bayModeUndo_memWf {st : Stepped} {k : Nat} {s : State} (h : s.memWf = true) : (bayModeUndo st k s).memWf = true := by
  unfold bayModeUndo
  extract_lets b h_1
  split
  · exact h
  · split
    · exact ite_memWf (dropCoefArea_memWf h) h
    · exact formAgain_memWf (State.onBay_memWf h)
    · exact formAgain_memWf (State.onBay_memWf h)
    · exact State.onBay_memWf (State.onBay_memWf (clearTasks_memWf h))
    · exact ite_memWf (startResync_memWf (State.onBay_memWf h)) h
    · exact h
    · exact h

theorem standbyRestarts_memWf {s : State} (h : s.memWf = true) : (standbyRestarts s).memWf = true := h

theorem undoStep_memWf {st : Stepped} {k : Nat} {s : State} (h : s.memWf = true) : (undoStep st k s).memWf = true := by
  unfold undoStep
  split
  · exact vprogUndo_memWf h
  · exact ite_memWf (pkgUndo_memWf h) h
  · exact bayModeUndo_memWf h
  · exact ite_memWf (standbyRestarts_memWf h) h
  · exact h

theorem undoSteps_memWf {st : Stepped} {n : Nat} {s : State} (h : s.memWf = true) : (undoSteps st n s).memWf = true := by
  induction n generalizing s with
  | zero => exact h
  | succ k ih => exact ih (undoStep_memWf h)

theorem resumeStepped_memWf {s : State} {st : Stepped} (h : s.memWf = true) : (resumeStepped s st).memWf = true :=
    ite_memWf h (endStepped_memWf (journalSet_memWf (undoSteps_memWf h)))

theorem reconcile_memWf {s : State} (h : s.memWf = true) : (reconcile s).memWf = true := by
  unfold reconcile
  extract_lets s1
  have hs1 : s1.memWf = true := oweFailover_memWf h
  refine answerOwed_memWf ?_
  exact foldl_memWf (fun _ _ ht => resumeStepped_memWf ht) _ hs1

theorem takeDom_memWf {m : Tab Dom} {s : State} {d : Nat} (h : s.memWf = true) : (takeDom m s d).memWf = true := State.setDom_memWf h

theorem takeMirror_memWf {s0 : State} (h : s0.memWf = true) : (takeMirror s0).memWf = true := by
  unfold takeMirror
  extract_lets s
  have hs : s.memWf = true := by
    unfold s
    exact foldl_memWf (fun _ _ ht => takeDom_memWf ht) _ h
  exact h

theorem failover_memWf {s : State} (h : s.memWf = true) : (failover s).memWf = true := by
  unfold failover
  extract_lets s1
  have hs1 : s1.memWf = true := reconcile_memWf (switchOver_memWf (takeMirror_memWf h))
  clear_value s1
  exact takeBuffers_memWf (show s1.memWf = true from hs1)

theorem execConductorFailover_memWf {s : State} (h : s.memWf = true) {t : State} (ht : execConductorFailover s = .next t) : t.memWf = true := by
  unfold execConductorFailover at ht
  cases ht
  exact ite_memWf (serveAll_memWf (failover_memWf h)) h

theorem restartAlone_memWf {s : State} (h : s.memWf = true) : (restartAlone s).memWf = true := by
  unfold restartAlone
  split
  · extract_lets s1
    have hs1 : s1.memWf = true := switchOver_memWf h
    exact hs1
  · exact ite_memWf (giveUp_memWf h) h

theorem execConductorRestart_memWf {s : State} (h : s.memWf = true) {t : State} (ht : execConductorRestart s = .next t) : t.memWf = true := by
  unfold execConductorRestart at ht
  cases ht
  exact restartAlone_memWf h

theorem takeBack_memWf {s : State} (h : s.memWf = true) : (takeBack s).memWf = true := by
  unfold takeBack
  split
  · extract_lets s1
    have hs1 : s1.memWf = true := switchOver_memWf h
    exact hs1
  · exact h

theorem execTakeControlBack_memWf {s : State} (h : s.memWf = true) {t : State} (ht : execTakeControlBack s = .next t) : t.memWf = true := by
  unfold execTakeControlBack at ht
  cases ht
  exact takeBack_memWf h

theorem raiseTestBlocks_memWf {c : Nat} {s : State} (h : s.memWf = true) : (raiseTestBlocks c s).memWf = true := by
  unfold raiseTestBlocks
  refine foldl_memWf (fun t x ht => ?_) _ h
  refine setCore_memWf ht ?_
  extract_lets
  exact core_memWf ht _

theorem State.onRendering_memWf {s : State} {c : Nat} {f : Course → Course} (h : s.memWf = true) : (s.onRendering c f).memWf = true := by
  unfold State.onRendering
  extract_lets count
  have hcount : ∀ (s : State) t, s.memWf = true → (count s t).memWf = true := by
    intro s t hs
    unfold count
    split
    · exact State.setCourse_memWf hs
    · exact hs
  split
  · exact hcount _ _ (hcount _ _ h)
  · exact hcount _ _ h

theorem renderVoice_memWf {s : State} {i : Nat} (h : s.memWf = true) : (renderVoice s i).memWf = true := by
  unfold renderVoice
  extract_lets v r c
  exact ite_memWf h (State.onRendering_memWf (State.setVoice_memWf h))

theorem raiseNext_memWf {k ctx n : Nat} {s : State} (h : s.memWf = true) : (raiseNext k ctx n s).memWf = true := by
  unfold raiseNext
  split
  · refine setCore_memWf h ?_
    extract_lets
    exact core_memWf h _
  · exact h

theorem oscillatorBlock_memWf {c p : Nat} {s : State} (h : s.memWf = true) : (oscillatorBlock c p s).memWf = true := by
  unfold oscillatorBlock
  extract_lets s1
  have hs1 : s1.memWf = true := by
    unfold s1
    refine raiseTestBlocks_memWf ?_
    exact foldl_memWf (fun _ _ ht => renderVoice_memWf ht) _ h
  exact foldl_memWf (fun _ _ ht => raiseNext_memWf ht) _ hs1

theorem execOscillatorBlockFlag_memWf {course pos : Nat} {s : State} (h : s.memWf = true) {t : State}
    (ht : execOscillatorBlockFlag course pos s = .next t) : t.memWf = true := by
  unfold execOscillatorBlockFlag at ht
  replace ht := next_of_withUnit ht
  replace ht := next_of_withUnit ht
  cases ht
  exact oscillatorBlock_memWf h

theorem writeBlock_memWf {k ctx : Nat} {odd : Bool} {v : Voice} {s : State} (h : s.memWf = true) : (writeBlock k ctx odd v s).memWf = true := by
  obtain ⟨_, hy, _⟩ := VCore.memWf_iff.1 (core_memWf h k)
  exact setCore_memWf h (VCore.putY_memWf (core_memWf h k) (putWords_wf _ _ (putWords_wf _ _ hy)))

theorem decimateVoice_memWf {s : State} {i : Nat} (h : s.memWf = true) : (decimateVoice s i).memWf = true := by
  unfold decimateVoice
  extract_lets v0 t0 c zero _ _ v a b done v_1 odd s1 s2
  have hs1 : s1.memWf = true := State.onRendering_memWf (State.setVoice_memWf h)
  have hs2 : s2.memWf = true := writeBlock_memWf hs1
  split
  · split
    · exact writeBlock_memWf hs2
    · exact hs2
  · extract_lets s2_1
    have hs2_1 : s2_1.memWf = true := ite_memWf (writeBlock_memWf hs1) hs1
    exact State.setCourse_memWf hs2_1

theorem decimatedBlock_memWf {c p : Nat} {s : State} (h : s.memWf = true) : (decimatedBlock c p s).memWf = true := by
  unfold decimatedBlock
  extract_lets s1
  have hs1 : s1.memWf = true := by
    unfold s1
    exact foldl_memWf (fun _ _ ht => decimateVoice_memWf ht) _ h
  exact foldl_memWf (fun _ _ ht => ite_memWf ht (raiseNext_memWf ht)) _ hs1

theorem execDecimatedBlockFlag_memWf {course pos : Nat} {s : State} (h : s.memWf = true) {t : State}
    (ht : execDecimatedBlockFlag course pos s = .next t) : t.memWf = true := by
  unfold execDecimatedBlockFlag at ht
  replace ht := next_of_withUnit ht
  replace ht := next_of_withUnit ht
  cases ht
  exact decimatedBlock_memWf h

theorem copyInput_memWf {odd : Bool} {k src d dst : Nat} {s : State} (h : s.memWf = true) : (copyInput odd k src d dst s).memWf = true := by
  obtain ⟨_, hy, _⟩ := VCore.memWf_iff.1 (core_memWf h d)
  unfold copyInput
  exact setCore_memWf h (VCore.putY_memWf (core_memWf h d) (Mem.writes_wf _ _ _ hy))

theorem bringBuffer_memWf {odd : Bool} {v : Voice} {k src d : Nat} {s : State} (h : s.memWf = true) : (bringBuffer odd v k src d s).memWf = true := by
  unfold bringBuffer
  extract_lets s1
  have hs1 : s1.memWf = true := ite_memWf (copyInput_memWf h) h
  exact raiseNext_memWf (writeBlock_memWf hs1)

theorem copyBuffer_memWf {i : Nat} {s : State} (h : s.memWf = true) : (copyBuffer i s).memWf = true := by
  unfold copyBuffer
  extract_lets v odd
  split
  · exact h
  · extract_lets c _ s1
    have hs1 : s1.memWf = true := bringBuffer_memWf (State.setCourse_memWf h)
    split
    · split
      · exact bringBuffer_memWf hs1
      · exact hs1
    · exact h

theorem execInputBufferCopy_memWf {slot : Nat} {s : State} (h : s.memWf = true) {t : State} (ht : execInputBufferCopy slot s = .next t) : t.memWf =
    true := by
  unfold execInputBufferCopy at ht
  replace ht := next_of_withUnit ht
  cases ht
  exact copyBuffer_memWf h

theorem voiceOnset_memWf {i : Nat} {s : State} (h : s.memWf = true) : (voiceOnset i s).memWf = true := by
  unfold voiceOnset
  extract_lets v
  exact ite_memWf (State.setVoice_memWf h) h

theorem execOnset_memWf {slot : Nat} {s : State} (h : s.memWf = true) {t : State} (ht : execOnset slot s = .next t) : t.memWf = true := by
  unfold execOnset at ht
  replace ht := next_of_withUnit ht
  cases ht
  exact voiceOnset_memWf h

theorem segmentEnd_memWf {i e : Nat} {s : State} (h : s.memWf = true) : (segmentEnd i e s).memWf = true := by
  unfold segmentEnd
  extract_lets v x v1
  exact ite_memWf (State.setVoice_memWf h) h

theorem execEnvelopeSegmentEnd_memWf {slot env : Nat} {s : State} (h : s.memWf = true) {t : State} (ht : execEnvelopeSegmentEnd slot env s = .next t)
    : t.memWf = true := by
  unfold execEnvelopeSegmentEnd at ht
  replace ht := next_of_withUnit ht
  replace ht := next_of_withUnit ht
  cases ht
  exact segmentEnd_memWf h

theorem voiceScarfEnd_memWf {i : Nat} {s : State} (h : s.memWf = true) : (voiceScarfEnd i s).memWf = true := by
  unfold voiceScarfEnd
  extract_lets v
  exact ite_memWf (State.setVoice_memWf h) h

theorem execScarfEnd_memWf {slot : Nat} {s : State} (h : s.memWf = true) {t : State} (ht : execScarfEnd slot s = .next t) : t.memWf = true := by
  unfold execScarfEnd at ht
  replace ht := next_of_withUnit ht
  cases ht
  exact voiceScarfEnd_memWf h

theorem quarantineEnd_memWf {i : Nat} {s : State} (h : s.memWf = true) : (quarantineEnd i s).memWf = true := by
  unfold quarantineEnd
  extract_lets v
  exact ite_memWf h h

theorem execQuarantineEnd_memWf {slot : Nat} {s : State} (h : s.memWf = true) {t : State} (ht : execQuarantineEnd slot s = .next t) : t.memWf = true
    := by
  unfold execQuarantineEnd at ht
  replace ht := next_of_withUnit ht
  cases ht
  exact quarantineEnd_memWf h

theorem groupRelease_memWf {g : Nat} {s : State} (h : s.memWf = true) : (groupRelease g s).memWf = true := by
  unfold groupRelease
  extract_lets x s1
  have hs1 : s1.memWf = true := State.setGroup_memWf (clearGroup_memWf h)
  exact ite_memWf h h

theorem execGroupRelease_memWf {g : Nat} {s : State} (h : s.memWf = true) {t : State} (ht : execGroupRelease g s = .next t) : t.memWf = true := by
  unfold execGroupRelease at ht
  replace ht := next_of_withUnit ht
  cases ht
  exact groupRelease_memWf h

theorem copyTables_memWf {k t : Nat} {s : State} (h : s.memWf = true) : (copyTables k t s).memWf = true := by
  obtain ⟨hx, _, _⟩ := VCore.memWf_iff.1 (core_memWf h k)
  unfold copyTables
  split
  · exact setCore_memWf h (VCore.putX_memWf (core_memWf h k) (putWords_wf _ _ hx))
  · exact h

theorem templateResident_memWf {k t : Nat} {s : State} (h : s.memWf = true) : (templateResident k t s).memWf = true := by
  unfold templateResident
  extract_lets now
  split
  · refine taskCosts_memWf ?_
    refine recost_memWf ?_
    refine copyTables_memWf ?_
    refine setCore_memWf h ?_
    exact core_memWf h _
  · exact h

theorem execTemplateResident_memWf {k template : Nat} {s : State} (h : s.memWf = true) {t : State} (ht : execTemplateResident k template s = .next t)
    : t.memWf = true := by
  unfold execTemplateResident at ht
  replace ht := next_of_withUnit ht
  replace ht := next_of_withUnit ht
  cases ht
  exact templateResident_memWf h

theorem endRequest_memWf {b o : Nat} {s : State} (h : s.memWf = true) : (endRequest b o s).memWf = true := h

theorem placeCopy_memWf {b o : Nat} {s : State} (h : s.memWf = true) : (placeCopy b o s).memWf = true := by
  unfold placeCopy
  extract_lets rs c
  exact protectBanks_memWf (putRun_memWf (State.onResid_memWf h))

theorem becomeResident_memWf {b o : Nat} {s : State} (h : s.memWf = true) : (becomeResident b o s).memWf = true := by
  unfold becomeResident
  split
  · exact h
  · split
    · exact endRequest_memWf (State.onResid_memWf h)
    · extract_lets s1
      have hs1 : s1.memWf = true := endRequest_memWf (placeCopy_memWf h)
      exact foldl_memWf (fun _ _ ht => completeJob_memWf (dropJob_memWf ht)) _ hs1

theorem execContentResident_memWf {bay object : Nat} {s : State} (h : s.memWf = true) {t : State} (ht : execContentResident bay object s = .next t) :
    t.memWf = true := by
  unfold execContentResident at ht
  replace ht := next_of_withUnit ht
  cases ht
  exact becomeResident_memWf h

theorem promoteBay_memWf {s : State} {b : Nat} (h : s.memWf = true) : (promoteBay s b).memWf = true := by
  refine foldl_memWf (fun t o ht => ?_) _ h
  cases hc : claimCopy b false (some (t.resid b o).heat) o t with
  | none => exact ht
  | some t1 => exact claimCopy_memWf ht hc

theorem promoteContent_memWf {s : State} (h : s.memWf = true) : (promoteContent s).memWf = true := foldl_memWf (fun _ _ ht => promoteBay_memWf ht) _ h

theorem promotionDue_memWf {s : State} (h : s.memWf = true) : (promotionDue s).memWf = true := ite_memWf (promoteContent_memWf h) h

theorem execPromotion_memWf {s : State} (h : s.memWf = true) {t : State} (ht : execPromotion s = .next t) : t.memWf = true := by
  unfold execPromotion at ht
  cases ht
  exact promotionDue_memWf h

end Sys2Proof.Machine
end

section
/-! PROOFS. The canonical form of the memories: the Kerf, the frame check and RENDER frames. -/

namespace Sys2Proof.Machine

theorem startKerfCode_memWf {k : Nat} {s : State} (h : s.memWf = true) : (startKerfCode k s).memWf = true := by
  unfold startKerfCode
  refine setCore_memWf h ?_
  extract_lets
  exact core_memWf h _

theorem abandonUnfinished_memWf {k : Nat} {s : State} (h : s.memWf = true) : (abandonUnfinished k s).memWf = true := by
  unfold abandonUnfinished
  extract_lets xs b s1
  have hs1 : s1.memWf = true := by
    unfold s1
    exact foldl_memWf (fun _ _ ht => cutTask_memWf ht) _ h
  exact ite_memWf h (reportEvent_memWf (traceBay_memWf hs1))

theorem watchCore_memWf {s : State} {k : Nat} (h : s.memWf = true) : (watchCore s k).memWf = true := startKerfCode_memWf (abandonUnfinished_memWf h)

theorem deadlineWatch_memWf {s : State} (h : s.memWf = true) : (deadlineWatch s).memWf = true := foldl_memWf (fun _ _ ht => watchCore_memWf ht) _ h

theorem runFadeIns_memWf {mine : Nat → Bool} {s : State} (h : s.memWf = true) : (runFadeIns mine s).memWf = true := h

theorem busValues_memWf {count : Bool} {ln : Nat} {mine : Nat → Bool} {t0 : Word} {s : State} (h : s.memWf = true) :
    (busValues count ln mine t0 s).memWf = true := by
  unfold busValues
  extract_lets vs fresh peaks n
  exact h

theorem closeBuses_memWf {ln : Nat} {mine : Nat → Bool} {t0 : Word} {s : State} (h : s.memWf = true) : (closeBuses ln mine t0 s).memWf = true := by
  unfold closeBuses
  extract_lets br out s1
  have hs1 : s1.memWf = true := h
  exact busValues_memWf hs1

theorem chargeMoves_memWf {n k d : Nat} {s : State} (h : s.memWf = true) : (chargeMoves n k d s).memWf = true := by
  unfold chargeMoves
  extract_lets _ s1
  have hs1 : s1.memWf = true := State.setCourse_memWf h
  exact ite_memWf hs1 (State.setCourse_memWf hs1)

theorem cloneTask_memWf {b k t ctx : Nat} {q : Task} {s0 : State} (h : s0.memWf = true) : (cloneTask b k t ctx q s0).memWf = true := by
  unfold cloneTask
  extract_lets s x c
  have hs : s.memWf = true := rewriteSlot_memWf h
  clear_value s
  obtain ⟨hx, hy, hprog⟩ := VCore.memWf_iff.1 (show c.memWf = true from core_memWf hs k)
  exact setCore_memWf hs (VCore.memWf_iff.2 ⟨copyRange_wf hx, copyRange_wf hy, hprog⟩)

theorem cloneOne_memWf {b : Nat} {s : State} {p : Nat × Nat × Nat × Task} (h : s.memWf = true) : (cloneOne b s p).memWf = true := by
  unfold cloneOne
  extract_lets n
  exact ite_memWf (chargeMoves_memWf (cloneTask_memWf h)) h

theorem cloneSome_memWf {s : State} {b : Nat} (h : s.memWf = true) : (cloneSome s b).memWf = true := by
  unfold cloneSome
  split
  · exact foldl_memWf (fun _ _ ht => cloneOne_memWf ht) _ h
  · exact h

theorem keepPlan_memWf {s p : State} (hp : p.memWf = true) : (keepPlan s p).memWf = true :=
  mapCores_memWf hp fun _ _ hc => hc

theorem cutScarfs_memWf {k n : Nat} {s : State} (h : s.memWf = true) : (cutScarfs k n s).memWf = true := by
  induction n generalizing s with
  | zero => exact h
  | succ fuel ih =>
    unfold cutScarfs
    split
    · exact h
    · split
      · exact h
      · exact ih (State.setVoice_memWf (cutVoice_memWf h))

theorem shedVoice_memWf {i : Nat} {s : State} (h : s.memWf = true) : (shedVoice i s).memWf = true := by
  unfold shedVoice
  extract_lets v key s1
  have hs1 : s1.memWf = true := ite_memWf (State.setVoice_memWf h) (scarfVoice_memWf h)
  exact traceBay_memWf (State.onPart_memWf hs1)

theorem shedCore_memWf {k n : Nat} {s : State} (h : s.memWf = true) : (shedCore k n s).memWf = true := by
  induction n generalizing s with
  | zero => exact h
  | succ fuel ih =>
    unfold shedCore
    split
    · exact h
    · split
      · exact h
      · exact ih (shedVoice_memWf h)

theorem shedBay_memWf {s : State} {b : Nat} (h : s.memWf = true) : (shedBay s b).memWf = true :=
    foldl_memWf (fun _ _ ht => cutScarfs_memWf (shedCore_memWf ht)) _ h

theorem orderCopies_memWf {s : State} {c : Nat} (h : s.memWf = true) : (orderCopies s c).memWf = true := by
  unfold orderCopies
  extract_lets pairOf
  exact State.setCourse_memWf h

theorem copyContext_memWf {voice odd : Bool} {k ctx d dst : Nat} {s : State} (h : s.memWf = true) :
    (copyContext voice odd k ctx d dst s).memWf = true := by
  unfold copyContext
  extract_lets a y y1
  obtain ⟨hx, hy, hprog⟩ := VCore.memWf_iff.1 (core_memWf h d)
  have hy1 : Mem.wf y1 = true := by
    unfold y1
    split
    · exact copyWords_wf (copyWords_wf hy)
    · exact copyWords_wf hy
  exact setCore_memWf h (VCore.memWf_iff.2 ⟨copyWords_wf hx, hy1, hprog⟩)

theorem moveTask_memWf {odd : Bool} {k ctx d dst : Nat} {s : State} (h : s.memWf = true) : (moveTask odd k ctx d dst s).memWf = true := by
  unfold moveTask
  split
  · exact h
  · extract_lets s1 s2 t1
    have hs1 : s1.memWf = true := copyContext_memWf (rewriteSlot_memWf h)
    have hs2 : s2.memWf = true := dropTask_memWf hs1
    refine setCore_memWf hs2 ?_
    exact core_memWf hs2 _

theorem moveTwin_memWf {odd : Bool} {k ctx d dst : Nat} {s : State} (h : s.memWf = true) : (moveTwin odd k ctx d dst s).memWf = true := by
  unfold moveTwin
  split
  · exact moveTask_memWf h
  · exact h

theorem loadMoved_memWf {v : Voice} {d : Nat} {s : State} (h : s.memWf = true) : (loadMoved v d s).memWf = true := by
  unfold loadMoved
  split
  · exact h
  · extract_lets f s1
    have hs1 : s1.memWf = true := requestLoad_memWf h
    split
    · exact ite_memWf (requestLoad_memWf hs1) hs1
    · exact hs1

theorem moveVoice_memWf {k ctx i d : Nat} {s : State} (h : s.memWf = true) : (moveVoice k ctx i d s).memWf = true := by
  unfold moveVoice
  extract_lets v dst odd n pair written c s1 s2 _ s3 s4
  have hs1 : s1.memWf = true := moveTwin_memWf (moveTask_memWf h)
  have hs2 : s2.memWf = true := State.setVoice_memWf hs1
  have hs3 : s3.memWf = true := ite_memWf (State.setCourse_memWf hs2) hs2
  have hs4 : s4.memWf = true := chargeMoves_memWf (loadMoved_memWf hs3)
  exact traceBay_memWf (taskCosts_memWf hs4)

theorem moveEffect_memWf {k ctx d : Nat} {t : Task} {s : State} (h : s.memWf = true) : (moveEffect k ctx d t s).memWf = true := by
  unfold moveEffect
  extract_lets dst s1
  have hs1 : s1.memWf = true := chargeMoves_memWf (moveTwin_memWf (moveTask_memWf h))
  exact traceBay_memWf hs1

theorem tryMove_memWf {k : Nat} {s : State} {ctx : Nat} (h : s.memWf = true) : (tryMove k s ctx).memWf = true := by
  unfold tryMove
  extract_lets cands
  split
  · exact h
  · split
    · exact h
    · split
      · extract_lets i v
        split
        · exact h
        · split
          · exact h
          · exact ite_memWf (moveVoice_memWf h) h
      · split
        · split
          · exact h
          · exact ite_memWf (moveEffect_memWf h) h
        · exact h

theorem relieve_memWf {s : State} {k : Nat} (h : s.memWf = true) : (relieve s k).memWf = true := by
  unfold relieve
  split
  · exact h
  · exact foldl_memWf (fun _ _ ht => tryMove_memWf ht) _ h

theorem planMoves_memWf {s : State} {b : Nat} (h : s.memWf = true) : (planMoves s b).memWf = true := by
  unfold planMoves
  refine foldl_memWf (fun _ _ ht => orderCopies_memWf ht) _ ?_
  exact foldl_memWf (fun _ _ ht => relieve_memWf ht) _ h

theorem planKerf_memWf {s : State} (h : s.memWf = true) : (planKerf s).memWf = true := by
  unfold planKerf
  extract_lets bs
  refine foldl_memWf (fun _ _ ht => cloneSome_memWf ht) _ ?_
  refine keepPlan_memWf ?_
  refine foldl_memWf (fun _ _ ht => shedBay_memWf ht) _ ?_
  refine foldl_memWf (fun _ _ ht => planMoves_memWf ht) _ ?_
  exact foldl_memWf (fun _ _ ht => replan_memWf ht) _ (planView_memWf h)

theorem dropFrame_memWf {s : State} {x : Launch} (h : s.memWf = true) : (dropFrame s x).memWf = true := State.send_memWf h

theorem judgeHead_memWf {port : Nat} {classB : Bool} {s : State} (h : s.memWf = true) : (judgeHead port classB s).memWf = true := by
  unfold judgeHead
  extract_lets r _ s1
  have hs1 : s1.memWf = true := by
    unfold s1
    exact foldl_memWf (fun _ _ ht => dropFrame_memWf ht) _ h
  exact ite_memWf hs1 hs1

theorem buildPacket_memWf {s : State} {t : Nat} (h : s.memWf = true) : (buildPacket s t).memWf = true := by
  unfold buildPacket
  extract_lets x q s1 l
  have hs1 : s1.memWf = true := State.setStm_memWf h
  exact judgeHead_memWf h

theorem buildPackets_memWf {s : State} (h : s.memWf = true) : (buildPackets s).memWf = true := foldl_memWf (fun _ _ ht => buildPacket_memWf ht) _ h

theorem kerfStart_memWf {s : State} (h : s.memWf = true) : (kerfStart s).memWf = true := by
  unfold kerfStart
  extract_lets s1 mine s2
  have hs2 : s2.memWf = true := runFadeIns_memWf (closeBuses_memWf (deadlineWatch_memWf h))
  clear_value s2
  exact planKerf_memWf (buildPackets_memWf (show s2.memWf = true from hs2))

theorem execKerfStart_memWf {s : State} (h : s.memWf = true) {t : State} (ht : execKerfStart s = .next t) : t.memWf = true := by
  unfold execKerfStart at ht
  cases ht
  exact ite_memWf (kerfStart_memWf h) h

theorem frameCheck_memWf {b : Nat} {fails : List Nat} {s : State} (h : s.memWf = true) : (frameCheck b fails s).memWf = true := by
  unfold frameCheck
  extract_lets bad s1
  have hs1 : s1.memWf = true := State.onBay_memWf h
  split
  · exact h
  · exact foldl_memWf (fun _ _ ht => reportEvent_memWf ht) _ hs1

theorem execFrameCheck_memWf {bay : Nat} {fails : List Nat} {s : State} (h : s.memWf = true) {t : State} (ht : execFrameCheck bay fails s = .next t) :
    t.memWf = true := by
  unfold execFrameCheck at ht
  replace ht := next_of_withUnit ht
  cases ht
  exact frameCheck_memWf h

theorem dropMirror_memWf {h : Nat} {s : State} (hs : s.memWf = true) : (dropMirror h s).memWf = true := by
  unfold dropMirror
  extract_lets m
  exact State.onBay_memWf (State.onBay_memWf (clearTasks_memWf hs))

theorem dropHome_memWf {h : Nat} {s : State} (hs : s.memWf = true) : (dropHome h s).memWf = true := State.onBay_memWf (clearTasks_memWf hs)

theorem dropOther_memWf {h : Nat} {s : State} (hs : s.memWf = true) : (dropOther h s).memWf = true :=
    ite_memWf (dropMirror_memWf hs) (dropHome_memWf hs)

theorem unresolved_memWf {h : Nat} {s : State} (hs : s.memWf = true) : (unresolved h s).memWf = true := by
  unfold unresolved
  extract_lets fs s1 o
  have hs1 : s1.memWf = true := State.onBay_memWf hs
  exact ite_memWf (dropOther_memWf hs1) (startResync_memWf (clearTasks_memWf hs1))

theorem refreshPackets_memWf {s : State} (h : s.memWf = true) : (refreshPackets s).memWf = true := h

theorem takeFrame_memWf {late : Bool} {a o : Nat} {s : State} (h : s.memWf = true) : (takeFrame late a o s).memWf = true := by
  unfold takeFrame
  extract_lets s0 mine xs _ s1 s2
  have hs0 : s0.memWf = true := ite_memWf (State.onBay_memWf h) h
  have hs1 : s1.memWf = true := hs0
  have hs2 : s2.memWf = true := State.onBay_memWf hs1
  exact refreshPackets_memWf (busValues_memWf hs2)

theorem yieldControl_memWf {h : Nat} {s : State} (hs : s.memWf = true) : (yieldControl h s).memWf = true := by
  unfold yieldControl
  extract_lets c
  exact State.onBay_memWf (takeFrame_memWf hs)

theorem failFaulty_memWf {c : Nat} {es : List (Nat × Nat)} {s : State} (h : s.memWf = true) : (failFaulty c es s).memWf = true :=
    foldl_memWf (fun _ _ ht => failCore_memWf ht) _ h

theorem writeRecord_memWf {c : Nat} {s : State} (h : s.memWf = true) : (writeRecord c s).memWf = true := by
  unfold writeRecord
  extract_lets x base p dest rec_ m1 m2
  split
  · exact h
  · exact setWin_memWf h (Mem.wf_putWord _ _ _ _ (Mem.wf_putWord _ _ _ _ (Mem.wf_putWords _ _ _ (State.memWf_win h))))

theorem recordNow_memWf {c : Nat} {s : State} (h : s.memWf = true) : (recordNow c s).memWf = true :=
    ite_memWf (State.onBay_memWf (writeRecord_memWf h)) h

theorem endDecision_memWf {h : Nat} {s0 : State} (hs0 : s0.memWf = true) : (endDecision h s0).memWf = true := by
  unfold endDecision
  extract_lets m c due mark s s1
  have hs : s.memWf = true := ite_memWf (recordNow_memWf (State.onBay_memWf (State.onBay_memWf hs0))) hs0
  have hs1 : s1.memWf = true := State.onBay_memWf (State.onBay_memWf hs)
  exact hs

theorem frameDecision_memWf {b : Nat} {s : State} (h : s.memWf = true) : (frameDecision b s).memWf = true := by
  unfold frameDecision
  split
  · exact h
  · extract_lets h_1 c o mine others s1
    have hs1 : s1.memWf = true := by
      unfold s1
      split
      · exact ite_memWf (unresolved_memWf h) (ite_memWf (State.onBay_memWf h) h)
      · exact yieldControl_memWf h
      · exact dropOther_memWf h
      · exact failFaulty_memWf (dropOther_memWf h)
    exact endDecision_memWf hs1

theorem execFrameCheckDecision_memWf {bay : Nat} {s : State} (h : s.memWf = true) {t : State} (ht : execFrameCheckDecision bay s = .next t) : t.memWf
    = true := by
  unfold execFrameCheckDecision at ht
  replace ht := next_of_withUnit ht
  cases ht
  exact frameDecision_memWf h

theorem silenceOut_memWf {b n0 : Nat} {s : State} (h : s.memWf = true) : (silenceOut b n0 s).memWf = true := by
  unfold silenceOut
  extract_lets br lv gone
  exact h

theorem outputFault_memWf {b : Nat} {s : State} (h : s.memWf = true) : (outputFault b s).memWf = true := by
  unfold outputFault
  split
  · exact reportEvent_memWf h
  · extract_lets n0 s1
    have hs1 : s1.memWf = true := State.onBay_memWf (reportEvent_memWf (State.fresh_memWf h))
    exact ite_memWf (silenceOut_memWf hs1) (busValues_memWf h)

theorem execOutputPathFault_memWf {bay : Nat} {s : State} (h : s.memWf = true) {t : State} (ht : execOutputPathFault bay s = .next t) : t.memWf = true
    := by
  unfold execOutputPathFault at ht
  replace ht := next_of_withUnit ht
  cases ht
  exact outputFault_memWf h

theorem execResidueCheckFailure_memWf {course lane : Nat} {s : State} (h : s.memWf = true) {t : State}
    (ht : execResidueCheckFailure course lane s = .next t) : t.memWf = true := by
  unfold execResidueCheckFailure at ht
  replace ht := next_of_withUnit ht
  replace ht := next_of_withUnit ht
  cases ht
  extract_lets b
  exact reportEvent_memWf h

theorem endResync_memWf {b : Nat} {s : State} (h : s.memWf = true) : (endResync b s).memWf = true := by
  unfold endResync
  split
  · extract_lets s1
    have hs1 : s1.memWf = true := State.onBay_memWf h
    split
    · exact ite_memWf (recordStep_memWf hs1) hs1
    · exact hs1
  · exact h

theorem execResynchronisationEnd_memWf {bay : Nat} {s : State} (h : s.memWf = true) {t : State} (ht : execResynchronisationEnd bay s = .next t) :
    t.memWf = true := by
  unfold execResynchronisationEnd at ht
  replace ht := next_of_withUnit ht
  cases ht
  exact endResync_memWf h

theorem dueRetire_memWf {cause : Nat} {s : State} {k : Nat} (h : s.memWf = true) : (dueRetire cause s k).memWf = true := by
  unfold dueRetire
  split
  · exact h
  · refine setCore_memWf h ?_
    extract_lets
    exact core_memWf h _

theorem selfTestEnd_memWf {b : Nat} {pass : Bool} {failed : List Nat} {s : State} (h : s.memWf = true) : (selfTestEnd b pass failed s).memWf = true :=
    by
  unfold selfTestEnd
  split
  · exact h
  · extract_lets s1
    have hs1 : s1.memWf = true := by
      unfold s1
      exact foldl_memWf (fun _ _ ht => dueRetire_memWf ht) _ h
    exact ite_memWf (State.onBay_memWf hs1) hs1

theorem execSelfTestEnd_memWf {bay : Nat} {pass : Bool} {failed : List Nat} {s : State} (h : s.memWf = true) {t : State}
    (ht : execSelfTestEnd bay pass failed s = .next t) : t.memWf = true := by
  unfold execSelfTestEnd at ht
  replace ht := next_of_withUnit ht
  cases ht
  exact selfTestEnd_memWf h

theorem execReturnHome_memWf {bay : Nat} {s : State} (h : s.memWf = true) {t : State} (ht : execReturnHome bay s = .next t) : t.memWf = true := by
  unfold execReturnHome at ht
  replace ht := next_of_withUnit ht
  cases ht
  extract_lets h_1
  exact ite_memWf (passHome_memWf h) h

theorem renderBays_memWf {c : Nat} {s : State} (h : s.memWf = true) : (renderBays c s).memWf = true :=
    foldl_memWf (fun _ _ ht => tickRejoin_memWf (tickJoin_memWf (tickCopy_memWf (tickLoad_memWf (ite_memWf ht (tickMode_memWf ht)))))) _ h

theorem renderJobs_memWf {c : Nat} {s : State} (h : s.memWf = true) : (renderJobs c s).memWf = true := by
  unfold renderJobs
  extract_lets t
  refine foldl_memWf (fun t1 x ht => ?_) _ h
  extract_lets s1
  have hs1 : s1.memWf = true := dropJob_memWf ht
  exact completeJob_memWf (ite_memWf (applyRelease_memWf hs1) (applyEnd_memWf hs1))

theorem renderConfig_memWf {c : Nat} {s : State} (h : s.memWf = true) : (renderConfig c s).memWf = true := by
  unfold renderConfig
  extract_lets limit s1
  have hs1 : s1.memWf = true := renderCommit_memWf h
  exact renderJobs_memWf (ite_memWf (bumpEpoch_memWf hs1) hs1)

theorem renderSwaps_memWf {r : Nat} {s : State} (h : s.memWf = true) : (renderSwaps r s).memWf = true := by
  unfold renderSwaps
  extract_lets old new started
  exact foldl_memWf (fun _ _ ht => scarfUsers_memWf ht) _ (State.setBay_memWf h)

theorem renderEnds_memWf {c : Nat} {s : State} (h : s.memWf = true) : (renderEnds c s).memWf = true := by
  unfold renderEnds
  extract_lets mine s1 s2 n
  have hs1 : s1.memWf = true := boundaryCourses_memWf (boundaryVoices_memWf (freeVoices_memWf h))
  have hs2 : s2.memWf = true := retireCores_memWf (tickSteps_memWf (forgetWrites_memWf hs1))
  exact renderSwaps_memWf (runFades_memWf hs2)

theorem renderCounters_memWf {c : Nat} {s : State} (h : s.memWf = true) : (renderCounters c s).memWf = true := State.onBay_memWf h

theorem renderSums_memWf {c : Nat} {s : State} (h : s.memWf = true) : (renderSums c s).memWf = true := by
  unfold renderSums
  extract_lets mine s1
  have hs1 : s1.memWf = true := declareOuts_memWf h
  exact countWriters_memWf hs1

theorem renderRelease_memWf {c : Nat} {s : State} (h : s.memWf = true) : (renderRelease c s).memWf = true := by
  unfold renderRelease
  extract_lets mine old limit buses s1 s2
  have hs1 : s1.memWf = true := deferredRetry_memWf (tickTasks_memWf (clearSums_memWf h))
  have hs2 : s2.memWf = true := State.onBay_memWf hs1
  exact freeCancelled_memWf (releaseDue_memWf hs2)

theorem renderBegin_memWf {c : Nat} {s : State} (h : s.memWf = true) : (renderBegin c s).memWf = true := by
  unfold renderBegin
  extract_lets s0 s1
  have hs0 : s0.memWf = true := renderBays_memWf (ite_memWf (recordNow_memWf h) h)
  have hs1 : s1.memWf = true := renderConfig_memWf (renderEnds_memWf (renderCounters_memWf hs0))
  exact ite_memWf (State.onBay_memWf (renderSums_memWf (renderRelease_memWf hs1))) hs0

theorem renderStart_memWf {c : Nat} {s : State} (h : s.memWf = true) : (renderStart c s).memWf = true := by
  unfold renderStart
  split
  · exact h
  · extract_lets s1
    have hs1 : s1.memWf = true := by
      unfold s1
      exact foldl_memWf (fun _ _ ht => tickYield_memWf ht) _ h
    exact renderBegin_memWf hs1

theorem execRenderFrameStart_memWf {bay : Nat} {s : State} (h : s.memWf = true) {t : State} (ht : execRenderFrameStart bay s = .next t) : t.memWf =
    true := by
  unfold execRenderFrameStart at ht
  replace ht := next_of_withUnit ht
  cases ht
  exact renderStart_memWf h

theorem planRender_memWf {b : Nat} {s : State} (h : s.memWf = true) : (planRender b s).memWf = true :=
    foldl_memWf (fun _ _ ht => cloneSome_memWf ht) _ (keepPlan_memWf (planMoves_memWf (replan_memWf (planView_memWf h))))

theorem renderEnd_memWf {c : Nat} {s : State} (h : s.memWf = true) : (renderEnd c s).memWf = true := by
  unfold renderEnd
  split
  · extract_lets buses s1 s2
    have hs1 : s1.memWf = true := runFadeIns_memWf (closeBuses_memWf h)
    have hs2 : s2.memWf = true := State.onBay_memWf (planRender_memWf (askRefills_memWf (markStreams_memWf hs1)))
    exact ite_memWf hs2 (recordNow_memWf hs2)
  · exact h

theorem execRenderFrameEnd_memWf {bay : Nat} {s : State} (h : s.memWf = true) {t : State} (ht : execRenderFrameEnd bay s = .next t) : t.memWf = true
    := by
  unfold execRenderFrameEnd at ht
  replace ht := next_of_withUnit ht
  cases ht
  exact renderEnd_memWf h

end Sys2Proof.Machine
end

section
/-! PROOFS. The canonical form of the memories: network, UARTs, gPTP, audio streams, analogue channels, timers and health. -/

namespace Sys2Proof.Machine

theorem execPing_memWf {sid : Nat} {s : State} (h : s.memWf = true) {t : State} (ht : execPing sid s = .next t) : t.memWf = true := by
  unfold execPing at ht
  replace ht := next_of_withUnit ht
  cases ht
  exact ite_memWf (State.send_memWf h) h

theorem execKeepaliveTimeout_memWf {sid : Nat} {s : State} (h : s.memWf = true) {t : State} (ht : execKeepaliveTimeout sid s = .next t) : t.memWf =
    true := by
  unfold execKeepaliveTimeout at ht
  replace ht := next_of_withUnit ht
  cases ht
  exact ite_memWf (markClosing_memWf h) h

theorem intakeExit_memWf {s : State} (h : s.memWf = true) : (intakeExit s).memWf = true := by
  unfold intakeExit
  split
  · exact h
  · split
    · exact h
    · extract_lets _ s1
      have hs1 : s1.memWf = true := countIntake_memWf h
      split
      · exact enterEvent_memWf hs1
      · exact hs1

theorem execIntakeFifoExit_memWf {s : State} (h : s.memWf = true) {t : State} (ht : execIntakeFifoExit s = .next t) : t.memWf = true := by
  unfold execIntakeFifoExit at ht
  cases ht
  exact intakeExit_memWf h

theorem uartIgnored_memWf {u : Nat} {s : State} (h : s.memWf = true) : (uartIgnored u s).memWf = true := by
  unfold uartIgnored
  split
  · exact countIgnored_memWf h
  · exact h

theorem uartMessage_memWf {u st d1 d2 : Nat} {r : BitVec 64} {s : State} (h : s.memWf = true) : (uartMessage u st d1 d2 r s).memWf = true := by
  unfold uartMessage
  extract_lets m
  split
  · exact receiveMessage_memWf h
  · split
    next hc1 =>
      refine receiveMessage_memWf ?_
      refine State.onSession_memWf ?_
      exact openSession_memWf h hc1
    · exact refuseOpen_memWf h

theorem intakeByte_memWf {u : Nat} {b : Byte} {r : BitVec 64} {s : State} (h : s.memWf = true) : (intakeByte u b r s).memWf = true := by
  unfold intakeByte
  extract_lets x n s1 s1_1 as
  have hs1 : s1.memWf = true := State.setUart_memWf h
  have hs1_1 : s1_1.memWf = true := State.setUart_memWf h
  split
  · split
    · exact State.onSession_memWf hs1
    · exact hs1
  · exact ite_memWf (uartIgnored_memWf h) (ite_memWf (uartIgnored_memWf (State.setUart_memWf h))
      (ite_memWf (ite_memWf hs1_1 (uartIgnored_memWf hs1_1))
      (ite_memWf (uartIgnored_memWf hs1_1) (ite_memWf (State.setUart_memWf h)
      (ite_memWf h (ite_memWf (State.setUart_memWf h) (uartMessage_memWf (State.setUart_memWf h))))))))

theorem charComplete_memWf {u : Nat} {line : CharLine} {parity stop : Bool} {r : BitVec 64} {s : State} (h : s.memWf = true) :
    (charComplete u line parity stop r s).memWf = true := by
  unfold charComplete
  extract_lets x
  split
  · exact h
  · split
    extract_lets perr _ x1_1
    exact ite_memWf (State.setUart_memWf h) (ite_memWf (State.setUart_memWf h) (intakeByte_memWf (State.setUart_memWf h)))

theorem execUartCharacterComplete_memWf {u : Nat} {line : CharLine} {parity stop : Bool} {r : BitVec 64} {s : State} (h : s.memWf = true) {t : State}
    (ht : execUartCharacterComplete u line parity stop r s = .next t) : t.memWf = true := by
  unfold execUartCharacterComplete at ht
  replace ht := next_of_withUnit ht
  cases ht
  exact charComplete_memWf h

theorem takeRaw_memWf {u : Nat} {s : State} (h : s.memWf = true) : (takeRaw u s).memWf = true := by
  unfold takeRaw
  extract_lets x
  exact ite_memWf h (ite_memWf (State.setUart_memWf h) (State.setUart_memWf h))

theorem execRawCharacterTaken_memWf {u : Nat} {s : State} (h : s.memWf = true) {t : State} (ht : execRawCharacterTaken u s = .next t) : t.memWf = true
    := by
  unfold execRawCharacterTaken at ht
  replace ht := next_of_withUnit ht
  cases ht
  exact takeRaw_memWf h

theorem execUartStampedSend_memWf {j : Word} {s : State} (h : s.memWf = true) {t : State} (ht : execUartStampedSend j s = .next t) : t.memWf = true :=
    by
  unfold execUartStampedSend at ht
  cases ht
  split
  · exact runSends_memWf h
  · exact h

theorem unstampedSent_memWf {d port : Nat} {m : PtpEvent} {s : State} (h : s.memWf = true) : (unstampedSent d port m s).memWf = true :=
    ite_memWf (State.setDom_memWf h) h

theorem sentStamp_memWf {d port : Nat} {taken : Option (BitVec 64)} {s : State} (h : s.memWf = true) : (sentStamp d port taken s).memWf = true := by
  unfold sentStamp
  extract_lets x s1
  have hs1 : s1.memWf = true := State.setDom_memWf h
  clear_value s1 x
  cases x.sent.head? with
  | none => exact hs1
  | some m =>
    cases taken with
    | none => cases m with
      | pdelayReq => exact State.setDom_memWf hs1
      | pdelayResp => exact hs1
      | sync => exact hs1
    | some t => cases m with
      | pdelayReq => exact State.setDom_memWf hs1
      | pdelayResp => exact State.send_memWf hs1
      | sync => exact State.send_memWf hs1

theorem lostStamp_memWf {d port : Nat} {m : PtpEvent} {s : State} (h : s.memWf = true) : (lostStamp d port m s).memWf = true := by
  unfold lostStamp
  split
  · exact State.setDom_memWf h
  · exact State.setDom_memWf h
  · exact h
  · exact sentStamp_memWf h

theorem receivedStamp_memWf {d port : Nat} {m : PtpEvent} {taken : BitVec 64} {s : State} (h : s.memWf = true) :
    (receivedStamp d port m taken s).memWf = true := by
  unfold receivedStamp
  split
  · split
    · exact h
    · split
      · exact servoSync_memWf h
      · exact State.setDom_memWf h
  · exact sendEvent_memWf h
  · exact State.setDom_memWf h
  · exact sentStamp_memWf h

theorem ptpEvent_memWf {d port : Nat} {m : PtpEvent} {entry : BitVec 64} {s : State} (h : s.memWf = true) : (ptpEvent d port m entry s).memWf = true
    := by
  unfold ptpEvent
  split
  · exact unstampedSent_memWf h
  · extract_lets now hit _ s1 _ s2
    have hs1 : s1.memWf = true := h
    have hs2 : s2.memWf = true := ite_memWf h hs1
    exact ite_memWf hs2 (ite_memWf (lostStamp_memWf hs2) (receivedStamp_memWf hs2))

theorem execGptpEventMessage_memWf {dom port : Nat} {m : PtpEvent} {entry : BitVec 64} {s : State} (h : s.memWf = true) {t : State}
    (ht : execGptpEventMessage dom port m entry s = .next t) : t.memWf = true := by
  unfold execGptpEventMessage at ht
  replace ht := next_of_withUnit ht
  exact withDom_memWf (ptpEvent_memWf h) ht

theorem domainHolds_memWf {d : Nat} {offset : BitVec 64} {ratePpt : ℤ} {s : State} (h : s.memWf = true) : (domainHolds d offset ratePpt s).memWf =
    true := ite_memWf (lockDomain_memWf h) (ite_memWf (unlockDomain_memWf h) h)

theorem execDomainLock_memWf {dom : Nat} {offset : BitVec 64} {ratePpt : ℤ} {s : State} (h : s.memWf = true) {t : State}
    (ht : execDomainLock dom offset ratePpt s = .next t) : t.memWf = true := by
  unfold execDomainLock at ht
  exact withDom_memWf (domainHolds_memWf h) ht

theorem forgetMaster_memWf {d : Nat} {s : State} (h : s.memWf = true) : (forgetMaster d s).memWf = true := State.setDom_memWf h

theorem execDomainUnlock_memWf {dom : Nat} {s : State} (h : s.memWf = true) {t : State} (ht : execDomainUnlock dom s = .next t) : t.memWf = true := by
  unfold execDomainUnlock at ht
  exact withDom_memWf (forgetMaster_memWf (ite_memWf (unlockDomain_memWf h) h)) ht

theorem execRampEnd_memWf {s : State} (h : s.memWf = true) {t : State} (ht : execRampEnd s = .next t) : t.memWf = true := by
  unfold execRampEnd at ht
  cases ht
  exact ite_memWf (endRamp_memWf (tickPhase_memWf h)) h

theorem sendFrame_memWf {x : Launch} {s : State} (h : s.memWf = true) : (sendFrame x s).memWf = true := State.send_memWf h

theorem popHead_memWf {port : Nat} {classB : Bool} {s : State} (h : s.memWf = true) : (popHead port classB s).memWf = true := judgeHead_memWf h

theorem launchHead_memWf {port : Nat} {classB : Bool} {s : State} (h : s.memWf = true) : (launchHead port classB s).memWf = true := by
  unfold launchHead
  split
  · exact h
  · exact ite_memWf (judgeHead_memWf h) (ite_memWf (sendFrame_memWf (popHead_memWf h)) h)

theorem execFrameLaunch_memWf {port : Nat} {classB : Bool} {s : State} (h : s.memWf = true) {t : State} (ht : execFrameLaunch port classB s = .next t)
    : t.memWf = true := by
  unfold execFrameLaunch at ht
  replace ht := next_of_withUnit ht
  cases ht
  exact launchHead_memWf h

theorem countStream_memWf {t late early missing : Nat} {s : State} (h : s.memWf = true) : (countStream t late early missing s).memWf = true := by
  unfold countStream
  extract_lets x s1
  have hs1 : s1.memWf = true := State.setStm_memWf h
  exact h

theorem placeSample_memWf {t : Nat} {s : State} {p : Word × List Word24} (h : s.memWf = true) : (placeSample t s p).memWf = true := by
  unfold placeSample
  extract_lets x new
  split
  · exact countStream_memWf h
  · exact countStream_memWf h
  · exact State.setStm_memWf h

theorem arrivalPacket_memWf {t gap : Nat} {samples : List (List Word24)} {s : State} (h : s.memWf = true) : (arrivalPacket t gap samples s).memWf =
    true := by
  unfold arrivalPacket
  extract_lets x t0 ps s1 bad
  have hs1 : s1.memWf = true := by
    unfold s1
    exact foldl_memWf (fun _ _ ht => placeSample_memWf ht) _ h
  exact State.setStm_memWf hs1

theorem listenerTakes_memWf {t : Nat} {seq : Byte} {ts : Word} {samples : List (List Word24)} {s : State} (h : s.memWf = true) :
    (listenerTakes t seq ts samples s).memWf = true := by
  unfold listenerTakes
  extract_lets x gap s1 s2
  have hs1 : s1.memWf = true := State.setStm_memWf h
  have hs2 : s2.memWf = true := ite_memWf hs1 (countStream_memWf hs1)
  split
  · exact foldl_memWf (fun _ _ ht => placeSample_memWf ht) _ (State.setStm_memWf hs2)
  · exact arrivalPacket_memWf hs2

theorem execListenerPacket_memWf {t : Nat} {streamId format : BitVec 64} {seq : Byte} {ts : Word} {samples : List (List Word24)} {s : State}
    (h : s.memWf = true) {t1 : State} (ht : execListenerPacket t streamId format seq ts samples s = .next t1) : t1.memWf = true := by
  unfold execListenerPacket at ht
  replace ht := next_of_withUnit ht
  cases ht
  extract_lets x
  exact ite_memWf (listenerTakes_memWf h) h

theorem execListenerReady_memWf {t : Nat} {s : State} (h : s.memWf = true) {t1 : State} (ht : execListenerReady t s = .next t1) : t1.memWf = true :=
    by
  unfold execListenerReady at ht
  replace ht := next_of_withUnit ht
  cases ht
  exact State.setStm_memWf h

theorem execReferenceLost_memWf {s : State} (h : s.memWf = true) {t : State} (ht : execReferenceLost s = .next t) : t.memWf = true := by
  unfold execReferenceLost at ht
  cases ht
  exact ite_memWf h (loseReference_memWf h)

theorem execReferenceReturn_memWf {s : State} (h : s.memWf = true) {t : State} (ht : execReferenceReturn s = .next t) : t.memWf = true := by
  unfold execReferenceReturn at ht
  cases ht
  exact h

theorem execBankRetention_memWf {b : Nat} {s : State} (h : s.memWf = true) {t : State} (ht : execBankRetention b s = .next t) : t.memWf = true := by
  unfold execBankRetention at ht
  replace ht := next_of_withUnit ht
  cases ht
  exact ite_memWf (State.setBank_memWf h) h

theorem execBankWake_memWf {b : Nat} {s : State} (h : s.memWf = true) {t : State} (ht : execBankWake b s = .next t) : t.memWf = true := by
  unfold execBankWake at ht
  replace ht := next_of_withUnit ht
  cases ht
  exact wakeBank_memWf h

theorem execZeroiseDone_memWf {b : Nat} {s : State} (h : s.memWf = true) {t : State} (ht : execZeroiseDone b s = .next t) : t.memWf = true := by
  unfold execZeroiseDone at ht
  replace ht := next_of_withUnit ht
  cases ht
  exact ite_memWf (State.setBank_memWf h) h

theorem execCvWriteEffect_memWf {s : State} (h : s.memWf = true) {t : State} (ht : execCvWriteEffect s = .next t) : t.memWf = true := by
  unfold execCvWriteEffect at ht
  cases ht
  split
  · exact ite_memWf (popCv_memWf h) h
  · exact h

theorem execDacShort_memWf {d : Nat} {s : State} (h : s.memWf = true) {t : State} (ht : execDacShort d s = .next t) : t.memWf = true := by
  unfold execDacShort at ht
  replace ht := next_of_withUnit ht
  cases ht
  split
  · exact h
  · extract_lets s1
    have hs1 : s1.memWf = true := State.onDac_memWf h
    exact h

theorem condPost_memWf {producer : Nat} {arg : Word} {s : State} (h : s.memWf = true) : (condPost producer arg s).memWf = true :=
    hwPost_memWf (State.fresh_memWf h)

theorem faultDac_memWf {cause : Nat} {s : State} {d : Nat} (h : s.memWf = true) : (faultDac cause s d).memWf = true := by
  unfold faultDac
  split
  · exact h
  · extract_lets s1
    have hs1 : s1.memWf = true := State.onDac_memWf h
    exact condPost_memWf h

theorem execShortToFault_memWf {d : Nat} {s : State} (h : s.memWf = true) {t : State} (ht : execShortToFault d s = .next t) : t.memWf = true := by
  unfold execShortToFault at ht
  replace ht := next_of_withUnit ht
  cases ht
  exact ite_memWf (faultDac_memWf h) h

theorem execVddaDacLow_memWf {s : State} (h : s.memWf = true) {t : State} (ht : execVddaDacLow s = .next t) : t.memWf = true := by
  unfold execVddaDacLow at ht
  cases ht
  split
  · exact h
  · exact foldl_memWf (fun _ _ ht => faultDac_memWf ht) _ h

theorem execDacClockAbsent_memWf {s : State} (h : s.memWf = true) {t : State} (ht : execDacClockAbsent s = .next t) : t.memWf = true := by
  unfold execDacClockAbsent at ht
  cases ht
  split
  · exact foldl_memWf (fun _ _ ht => faultDac_memWf ht) _ h
  · exact h

theorem execRampComplete_memWf {d : Nat} {s : State} (h : s.memWf = true) {t : State} (ht : execRampComplete d s = .next t) : t.memWf = true := by
  unfold execRampComplete at ht
  replace ht := next_of_withUnit ht
  cases ht
  exact State.onDac_memWf h

theorem execSettleEnd_memWf {d : Nat} {s : State} (h : s.memWf = true) {t : State} (ht : execSettleEnd d s = .next t) : t.memWf = true := by
  unfold execSettleEnd at ht
  replace ht := next_of_withUnit ht
  cases ht
  exact State.onDac_memWf h

theorem execRecalibrationPass_memWf {d : Nat} {s : State} (h : s.memWf = true) {t : State} (ht : execRecalibrationPass d s = .next t) : t.memWf = true
    := by
  unfold execRecalibrationPass at ht
  replace ht := next_of_withUnit ht
  cases ht
  exact startRecal_memWf h

theorem timerEvent_memWf {n : Nat} {s : State} (h : s.memWf = true) : (timerEvent n s).memWf = true := State.send_memWf (State.setTimer_memWf h)

theorem execPeriodEvent_memWf {t : Nat} {s : State} (h : s.memWf = true) {t1 : State} (ht : execPeriodEvent t s = .next t1) : t1.memWf = true := by
  unfold execPeriodEvent at ht
  replace ht := next_of_withUnit ht
  cases ht
  exact ite_memWf (timerEvent_memWf h) h

theorem captureEdge_memWf {n : Nat} {rising : Bool} {s : State} (h : s.memWf = true) : (captureEdge n rising s).memWf = true := by
  unfold captureEdge
  extract_lets t sel
  exact ite_memWf h (ite_memWf (State.setTimer_memWf h) (State.setTimer_memWf h))

theorem execCapture_memWf {t : Nat} {rising : Bool} {s : State} (h : s.memWf = true) {t1 : State} (ht : execCapture t rising s = .next t1) : t1.memWf
    = true := by
  unfold execCapture at ht
  replace ht := next_of_withUnit ht
  cases ht
  exact captureEdge_memWf h

theorem measureCourse_memWf {r : HealthReading} {vdd : List Nat} {ring : Bool} {s : State} {c : Nat} (h : s.memWf = true) :
    (measureCourse r vdd ring s c).memWf = true := by
  unfold measureCourse
  extract_lets x v
  exact State.setCourse_memWf h

theorem measureAll_memWf {r : HealthReading} {vdd : List Nat} {s : State} (h : s.memWf = true) : (measureAll r vdd s).memWf = true := by
  have hcourses : ((List.range 8).foldl (measureCourse r vdd (ringDue s)) s).memWf = true := foldl_memWf (fun _ _ ht => measureCourse_memWf ht) _ h
  unfold measureAll
  extract_lets ring s1
  have hs1 : s1.memWf = true := hcourses
  clear_value s1
  exact hs1

theorem writeSetpoint_memWf {v : Nat} {ack : Bool} {s0 : State} (h : s0.memWf = true) : (writeSetpoint v ack s0).memWf = true := by
  unfold writeSetpoint
  extract_lets h_1 s s1 s1_1
  have hs : s.memWf = true := State.send_memWf h
  have hs1 : s1.memWf = true := hs
  have hs1_1 : s1_1.memWf = true := hs
  exact ite_memWf (ite_memWf (hwPostNew_memWf hs1) hs1) (ite_memWf hs1_1 (hwPostNew_memWf hs1_1))

theorem supplyDev_memWf {off25 : List Bool} {s : State} (h : s.memWf = true) : (supplyDev off25 s).memWf = true := by
  unfold supplyDev
  extract_lets d
  exact ite_memWf h (hwPostNew_memWf h)

theorem slackCore_memWf {vmax : Bool} {slacks : List ℤ} {s : State} {k : Nat} (h : s.memWf = true) : (slackCore vmax slacks s k).memWf = true := by
  unfold slackCore
  extract_lets x t s1
  have hs1 : s1.memWf = true := State.setCourse_memWf h
  exact ite_memWf (ite_memWf hs1 (dueRetire_memWf hs1)) (State.setCourse_memWf h)

theorem recalOnTemp_memWf {s : State} (h : s.memWf = true) : (recalOnTemp s).memWf = true :=
    foldl_memWf (fun _ _ ht => ite_memWf (startRecal_memWf ht) ht) _ h

theorem stepCourse_memWf {vmax : Bool} {s : State} {c : Nat} (h : s.memWf = true) : (stepCourse vmax s c).memWf = true := by
  unfold stepCourse
  extract_lets x now good
  exact ite_memWf (State.setCourse_memWf h) (ite_memWf (State.setCourse_memWf h) (ite_memWf (State.setCourse_memWf h) (State.setCourse_memWf h)))

theorem periodEnd_memWf {r : HealthReading} {vdd : List Nat} {off25 : List Bool} {ack : Bool} {s : State} (h : s.memWf = true) :
    (periodEnd r vdd off25 ack s).memWf = true := by
  unfold periodEnd
  extract_lets s1 vmax want s2 s3 s4 s5
  have hs1 : s1.memWf = true := measureAll_memWf h
  have hs2 : s2.memWf = true := by
    unfold s2
    clear_value s1
    split
    · exact hs1
    · exact writeSetpoint_memWf hs1
  have hs3 : s3.memWf = true := supplyDev_memWf hs2
  have hs4 : s4.memWf = true := foldl_memWf (fun _ _ ht => slackCore_memWf ht) _ hs3
  have hs5 : s5.memWf = true := recalOnTemp_memWf (foldl_memWf (fun _ _ ht => stepCourse_memWf ht) _ hs4)
  clear_value s5
  exact hs5

theorem execHealthPeriodEnd_memWf {r : HealthReading} {vdd : List Nat} {off25 : List Bool} {ack : Bool} {s : State} (h : s.memWf = true) {t : State}
    (ht : execHealthPeriodEnd r vdd off25 ack s = .next t) : t.memWf = true :=
  (Host.Outcome.next.inj ht) ▸ periodEnd_memWf h

theorem execPmbusRetry_memWf {ack : Bool} {s : State} (h : s.memWf = true) {t : State} (ht : execPmbusRetry ack s = .next t) : t.memWf = true := by
  unfold execPmbusRetry at ht
  cases ht
  exact ite_memWf (writeSetpoint_memWf h) h

theorem courseEvent_memWf {c : Nat} {s : State} (h : s.memWf = true) : (courseEvent c s).memWf = true := by
  unfold courseEvent
  extract_lets b
  exact reportEvent_memWf h

theorem execCourseClockAlarm_memWf {alarm : ClockAlarm} {s : State} (h : s.memWf = true) {t : State} (ht : execCourseClockAlarm alarm s = .next t) :
    t.memWf = true := by
  have hevent : ∀ s1 : State, s1.memWf = true → (courseEvent alarm.course s1).memWf = true := fun _ hs1 => courseEvent_memWf hs1
  exact (Host.Outcome.next.inj (next_of_withUnit ht)) ▸ periodEnd_memWf (hevent _ h)

theorem execCourseSupplyAlarm_memWf {course : Nat} {s : State} (h : s.memWf = true) {t : State} (ht : execCourseSupplyAlarm course s = .next t) :
    t.memWf = true := by
  unfold execCourseSupplyAlarm at ht
  replace ht := next_of_withUnit ht
  cases ht
  exact courseEvent_memWf h

theorem countHour_memWf {s : State} {c : Nat} (h : s.memWf = true) : (countHour s c).memWf = true := by
  unfold countHour
  extract_lets x b
  exact State.setCourse_memWf h

theorem hourlyLedger_memWf {s : State} (h : s.memWf = true) : (hourlyLedger s).memWf = true := by
  unfold hourlyLedger
  refine writeLedger_memWf ?_
  exact foldl_memWf (fun _ _ ht => countHour_memWf ht) _ h

theorem execLedgerWrite_memWf {s : State} (h : s.memWf = true) {t : State} (ht : execLedgerWrite s = .next t) : t.memWf = true := by
  unfold execLedgerWrite at ht
  cases ht
  exact hourlyLedger_memWf h

theorem laneTests_memWf {c : Nat} {on : Bool} {s : State} (h : s.memWf = true) : (laneTests c on s).memWf = true := by
  unfold laneTests
  refine foldl_memWf (fun t x ht => ?_) _ h
  extract_lets s_1 _ rest
  have hs_1 : s_1.memWf = true := ite_memWf (rewriteSlot_memWf ht) ht
  refine setCore_memWf hs_1 ?_
  exact core_memWf hs_1 _

theorem residueEvents_memWf {c : Nat} {failed : List Nat} {s : State} (h : s.memWf = true) : (residueEvents c failed s).memWf = true := by
  unfold residueEvents
  extract_lets b
  exact foldl_memWf (fun _ _ ht => reportEvent_memWf ht) _ h

theorem putMargin_memWf {c : Nat} {s : State} {p : Nat × Nat} (h : s.memWf = true) : (putMargin c s p).memWf = true := by
  unfold putMargin
  extract_lets _ s1
  have hs1 : s1.memWf = true := State.setCourse_memWf h
  exact ite_memWf (dueRetire_memWf hs1) hs1

theorem failKat_memWf {c : Nat} {s : State} {i : Nat} (h : s.memWf = true) : (failKat c s i).memWf = true := by
  unfold failKat
  extract_lets x n s1
  have hs1 : s1.memWf = true := State.setCourse_memWf h
  exact ite_memWf (dueRetire_memWf hs1) hs1

theorem putBankMargin_memWf {c b mv : Nat} {s : State} (h : s.memWf = true) : (putBankMargin c b mv s).memWf = true := by
  unfold putBankMargin
  extract_lets s0 _ s1 s2
  have hs0 : s0.memWf = true := restoreGroup_memWf h
  have hs1 : s1.memWf = true := State.setCourse_memWf hs0
  have hs2 : s2.memWf = true := by
    unfold s2
    exact foldl_memWf (fun _ _ ht => State.setCourse_memWf ht) _ hs1
  exact ite_memWf (State.setBank_memWf hs2) hs2

theorem borrowGroup_memWf {c b window group : Nat} {s : State} (h : s.memWf = true) : (borrowGroup c b window group s).memWf = true := by
  unfold borrowGroup
  split
  · extract_lets s1 _ x s2
    have hs1 : s1.memWf = true := ite_memWf (restoreGroup_memWf h) h
    have hs2 : s2.memWf = true := State.setBank_memWf hs1
    exact State.setCourse_memWf hs2
  · exact h

theorem serviceStep_memWf {c : Nat} {res : ServiceResult} {s : State} (h : s.memWf = true) : (serviceStep c res s).memWf = true := by
  unfold serviceStep
  extract_lets x
  split
  · exact ite_memWf (laneTests_memWf (State.setCourse_memWf h)) h
  · exact ite_memWf (laneTests_memWf (residueEvents_memWf (State.setCourse_memWf h))) h
  · split
    · refine foldl_memWf (fun _ _ ht => putMargin_memWf ht) _ ?_
      exact foldl_memWf (fun _ _ ht => failKat_memWf ht) _ (State.setCourse_memWf h)
    · exact h
  · exact ite_memWf (putBankMargin_memWf h) h
  · exact ite_memWf (borrowGroup_memWf h) h
  · exact ite_memWf (State.setCourse_memWf h) h

theorem execServiceCycle_memWf {course : Nat} {res : ServiceResult} {s : State} (h : s.memWf = true) {t : State}
    (ht : execServiceCycle course res s = .next t) : t.memWf = true := by
  unfold execServiceCycle at ht
  replace ht := next_of_withUnit ht
  cases ht
  exact ite_memWf (serviceStep_memWf h) h

theorem execStale_memWf {course : Nat} {s : State} (h : s.memWf = true) {t : State} (ht : execStale course s = .next t) : t.memWf = true := by
  unfold execStale at ht
  replace ht := next_of_withUnit ht
  cases ht
  exact ite_memWf (State.setCourse_memWf h) h

theorem execVmaxStep_memWf {s : State} (h : s.memWf = true) {t : State} (ht : execVmaxStep s = .next t) : t.memWf = true := by
  unfold execVmaxStep at ht
  cases ht
  exact ite_memWf (writeSetpoint_memWf (State.fresh_memWf h)) h

theorem logAlarm_memWf {mainPower : Bool} {t : BitVec 64} {s : State} {i : Nat} (h : s.memWf = true) : (logAlarm mainPower t s i).memWf = true := by
  unfold logAlarm
  extract_lets x
  exact h

theorem zeroiseSecure_memWf {s : State} (h : s.memWf = true) : (zeroiseSecure s).memWf = true :=
    foldl_memWf (fun _ _ ht => ite_memWf (zeroise_memWf ht) ht) _ h

theorem wipeVault_memWf {s : State} (h : s.memWf = true) : (wipeVault s).memWf = true := by
  unfold wipeVault
  extract_lets s1 prot s2
  have hs2 : s2.memWf = true := removePackages_memWf (zeroiseSecure_memWf h)
  clear_value s2
  obtain ⟨hstore, hwin, _, hsc, hcores⟩ := State.memWf_iff.1 hs2
  exact State.memWf_iff.2 ⟨hstore, hwin, rfl, hsc, hcores⟩

theorem raiseLevel_memWf {mainPower : Bool} {level : Nat} {s : State} (h : s.memWf = true) : (raiseLevel mainPower level s).memWf = true := by
  unfold raiseLevel
  extract_lets v s1 cut _ s2
  have hs1 : s1.memWf = true := h
  have hs2 : s2.memWf = true := by
    obtain ⟨hstore, hwin, _, hsc, hcores⟩ := State.memWf_iff.1 hs1
    exact ite_memWf (wipeVault_memWf hs1) (State.memWf_iff.2 ⟨hstore, hwin, rfl, hsc, hcores⟩)
  clear_value s2
  split
  · exact hs1
  · split
    · split
      · exact hs1
      · exact hs1
    · exact hs2

theorem raiseSources_memWf {sources : BitVec 6} {tin : List (Bool × Bool)} {mainPower : Bool} {t : BitVec 64} {s : State} (h : s.memWf = true) :
    (raiseSources sources tin mainPower t s).memWf = true := by
  unfold raiseSources
  extract_lets new m _ s1 s2 s3
  have hs1 : s1.memWf = true := h
  have hs2 : s2.memWf = true := by
    unfold s2
    exact foldl_memWf (fun _ _ ht => logAlarm_memWf ht) _ hs1
  have hs3 : s3.memWf = true := raiseLevel_memWf hs2
  split
  · exact h
  · split
    · exact foldl_memWf (fun _ _ ht => hwPostNew_memWf ht) _ hs3
    · exact hs3

theorem execTamperRaised_memWf {seen : TamperSeen} {mainPower : Bool} {time : BitVec 64} {s : State} (h : s.memWf = true) {t : State}
    (ht : execTamperRaised seen mainPower time s = .next t) : t.memWf = true := by
  unfold execTamperRaised at ht
  cases ht
  exact raiseSources_memWf h

end Sys2Proof.Machine
end

section
/-! PROOFS. The canonical form of the memories: resets, start-up and stepped commands. -/

namespace Sys2Proof.Machine

theorem holdPor_memWf {b : Bool} {s : State} (h : s.memWf = true) : (holdPor b s).memWf = true := h

theorem execPowerOnReset_memWf {s : State} (h : s.memWf = true) {t : State} (ht : execPowerOnReset s = .next t) : t.memWf = true := by
  unfold execPowerOnReset at ht
  cases ht
  exact holdPor_memWf (resetBy_memWf h)

theorem execPorN_memWf {low : Bool} {s : State} (h : s.memWf = true) {t : State} (ht : execPorN low s = .next t) : t.memWf = true := by
  unfold execPorN at ht
  cases ht
  exact ite_memWf (holdPor_memWf (resetBy_memWf h)) (holdPor_memWf h)

theorem holdWrst_memWf {b : Bool} {s : State} (h : s.memWf = true) : (holdWrst b s).memWf = true := h

theorem execWrstN_memWf {low : Bool} {s : State} (h : s.memWf = true) {t : State} (ht : execWrstN low s = .next t) : t.memWf = true := by
  unfold execWrstN at ht
  cases ht
  exact ite_memWf (holdWrst_memWf (resetBy_memWf h)) (holdWrst_memWf h)

theorem execDeviceWatchdog_memWf {s : State} (h : s.memWf = true) {t : State} (ht : execDeviceWatchdog s = .next t) : t.memWf = true := by
  unfold execDeviceWatchdog at ht
  cases ht
  exact ite_memWf (resetBy_memWf h) h

theorem execPcieHotReset_memWf {s : State} (h : s.memWf = true) {t : State} (ht : execPcieHotReset s = .next t) : t.memWf = true := by
  unfold execPcieHotReset at ht
  cases ht
  exact h

theorem bootHalt_memWf {err : Byte} {s : State} (h : s.memWf = true) : (bootHalt err s).memWf = true := h

theorem bootStraps_memWf {host : BitVec 2} {f : Fuses} {s : State} (h : s.memWf = true) : (bootStraps host f s).memWf = true := by
  unfold bootStraps
  extract_lets _ s1 _ s2
  have hs1 : s1.memWf = true := ite_memWf h h
  have hs2 : s2.memWf = true := ite_memWf hs1 hs1
  exact ite_memWf (bootHalt_memWf hs2) (bootTo_memWf hs2)

theorem bootHeader_memWf {copy0 copy1 : List Word} {s : State} (h : s.memWf = true) : (bootHeader copy0 copy1 s).memWf = true := by
  unfold bootHeader
  extract_lets f
  split
  · extract_lets ws slot
    exact bootTo_memWf h
  · exact bootTo_memWf h

theorem bootImage_memWf {chosen0 other0 : List Word} {aOk bOk : Bool} {s : State} (h : s.memWf = true) : (bootImage chosen0 other0 aOk bOk s).memWf =
    true := by
  unfold bootImage
  extract_lets chosen other _ s1
  have hs1 : s1.memWf = true := h
  exact ite_memWf (bootHalt_memWf hs1) (ite_memWf (bootTo_memWf hs1) (ite_memWf (bootTo_memWf h) h))

theorem bootTrained_memWf {s : State} (h : s.memWf = true) : (bootTrained s).memWf = true := bootTo_memWf h

theorem putKernel_memWf {k : Nat} {c : VCore} (h : c.memWf = true) : (putKernel k c).memWf = true := by
  obtain ⟨hx, hy, hprog⟩ := VCore.memWf_iff.1 h
  have hwords : ∀ ps ys : List Nat, VCore.memWf
      { c with prog := ps.foldl (fun m i => Mem.write m i (Config.kernelProgram k i)) c.prog,
               y := ys.foldl (fun m i => Mem.write m (0x3000 + i) (Config.kernelData k i)) c.y } = true :=
    fun ps ys => VCore.memWf_iff.2 ⟨hx, Mem.writes_wf _ _ ys hy, Mem.writes_wf _ _ ps hprog⟩
  exact hwords (List.range 0x100) (List.range 0x800)

theorem loadKernels_memWf {s : State} (h : s.memWf = true) : (loadKernels s).memWf = true :=
    foldl_memWf (fun _ _ ht => setCore_memWf ht (putKernel_memWf (core_memWf ht _))) _ h

theorem restoreBattery_memWf {vbat : Bool} {s : State} (h : s.memWf = true) : (restoreBattery vbat s).memWf = true := by
  unfold restoreBattery
  split
  · exact h
  · extract_lets v s1
    have hs1 : s1.memWf = true := h
    exact raiseSources_memWf hs1

theorem restoreJournal_memWf {vbat : Bool} {s : State} (h : s.memWf = true) : (restoreJournal vbat s).memWf = true := by
  unfold restoreJournal
  split
  · extract_lets ended s1
    have hs1 : s1.memWf = true := foldr_memWf (fun _ _ ht => State.setChan_memWf ht) _ h
    exact hs1
  · exact h

theorem applySetpoint_memWf {vout : Byte} {s : State} (h : s.memWf = true) : (applySetpoint vout s).memWf = true := State.send_memWf h

theorem bootFirmware_memWf {vbat : Bool} {vout : Byte} {s : State} (h : s.memWf = true) : (bootFirmware vbat vout s).memWf = true := by
  unfold bootFirmware
  extract_lets s1
  have hs1 : s1.memWf = true := loadKernels_memWf (restoreBattery_memWf (restoreJournal_memWf (applySetpoint_memWf h)))
  clear_value s1
  exact bootTo_memWf (show s1.memWf = true from hs1)

theorem bootSelfTest_memWf {failed : List Nat} {s : State} (h : s.memWf = true) : (bootSelfTest failed s).memWf = true := by
  unfold bootSelfTest
  extract_lets s1 s2
  have hs1 : s1.memWf = true := by
    refine foldl_memWf (fun t k ht => ?_) _ h
    refine setCore_memWf ht ?_
    exact core_memWf ht k
  have hs2 : s2.memWf = true := buildBanks_memWf hs1
  clear_value s2
  exact hs2

theorem bootEvent_memWf {ev : BootEvent} {s : State} (h : s.memWf = true) : (bootEvent ev s).memWf = true := by
  unfold bootEvent
  split
  · exact h
  · split
    · exact bootStraps_memWf h
    · exact bootTo_memWf h
    · exact bootHeader_memWf h
    · exact bootHalt_memWf h
    · exact ite_memWf h (bootImage_memWf h)
    · exact ite_memWf h (bootHalt_memWf h)
    · exact ite_memWf (bootTrained_memWf h) (bootHalt_memWf h)
    · exact bootFirmware_memWf h
    · exact bootSelfTest_memWf h
    · exact h

theorem execBootPhase_memWf {ev : BootEvent} {s : State} (h : s.memWf = true) {t : State} (ht : execBootPhase ev s = .next t) : t.memWf = true := by
  unfold execBootPhase at ht
  cases ht
  exact bootEvent_memWf h

theorem advertise_memWf {s : State} (h : s.memWf = true) : (advertise s).memWf = true := foldl_memWf (fun _ _ ht => State.send_memWf ht) _ h

theorem becomeReady_memWf {s : State} (h : s.memWf = true) : (becomeReady s).memWf = true := ite_memWf (serveAll_memWf (advertise_memWf h)) h

theorem execReady_memWf {s : State} (h : s.memWf = true) {t : State} (ht : execReady s = .next t) : t.memWf = true := by
  unfold execReady at ht
  cases ht
  exact becomeReady_memWf h

theorem wakeTimer_memWf {n : Nat} {s : State} {k : Nat} (h : s.memWf = true) : (wakeTimer n s k).memWf = true := by
  unfold wakeTimer
  extract_lets _ t sum p t1 events
  exact ite_memWf (State.setTimer_memWf h) (ite_memWf (State.setTimer_memWf h) (State.send_memWf (State.setTimer_memWf h)))

theorem wakeTimers_memWf {n : Nat} {s : State} (h : s.memWf = true) : (wakeTimers n s).memWf = true :=
    foldl_memWf (fun _ _ ht => wakeTimer_memWf ht) _ h

theorem putTime_memWf {s : State} {x : Time} (h : s.memWf = true) : State.memWf { s with time := x } = true := h

theorem wakeUp_memWf {sources : Byte} {n : Nat} {s0 : State} (h : s0.memWf = true) : (wakeUp sources n s0).memWf = true := by
  have htick : ∀ x, (tickPhase { s0 with time := x }).memWf = true := fun _ => tickPhase_memWf (putTime_memWf h)
  unfold wakeUp
  extract_lets total dt _ s st
  have hs : s.memWf = true := htick _
  clear_value s st dt total
  refine wakeTimers_memWf ?_
  obtain ⟨hstore, hwin, hwork, hsc, hcores⟩ := State.memWf_iff.1 hs
  exact State.memWf_iff.2 ⟨hstore, hwin, hwork, hsc, hcores⟩

theorem execWake_memWf {sources : Byte} {n : Nat} {s : State} (h : s.memWf = true) {t : State} (ht : execWake sources n s = .next t) : t.memWf = true
    := by
  unfold execWake at ht
  cases ht
  exact ite_memWf (wakeUp_memWf h) h

theorem vprogStep_memWf {st : Stepped} {k : Nat} {s : State} (h : s.memWf = true) {t : State} {y : List Word} (ht : vprogStep st k s = .ok (t, y)) :
    t.memWf = true := by
  unfold vprogStep at ht
  extract_lets b ws _ im bound _ s1 s2 at ht
  have hs1 : s1.memWf = true := State.setBay_memWf h
  have hs2 : s2.memWf = true := by
    refine foldl_memWf (fun t c ht => setCore_memWf ht ?_) _ hs1
    exact core_memWf ht c
  clear_value s2
  split at ht
  · split at ht
    · cases ht
      exact h
    · cases ht
  · split at ht
    · cases ht
      exact copyProgram_memWf h
    · cases ht
      exact hs2

theorem evacuateBay_memWf {e : Entry} {b : Nat} {s : State} (h : s.memWf = true) {t : State} {y : Nat} (ht : evacuateBay e b s = some (t, y)) :
    t.memWf = true := by
  unfold evacuateBay at ht
  dsimp only at ht
  exact settle_memWf h ht

theorem evacuate_memWf {e : Entry} {bs : List Nat} {r : State × Nat} (h : r.1.memWf = true) {t : State} {y : Nat} (ht : evacuate e bs r = some (t, y))
    :
    t.memWf = true := by
  induction bs generalizing r with
  | nil =>
    cases ht
    exact h
  | cons b bs ih =>
    unfold evacuate at ht
    split at ht
    · cases ht
    next hc => exact ih (evacuateBay_memWf h hc) ht

theorem bankGiveStep_memWf {st : Stepped} {s : State} (h : s.memWf = true) {t : State} {y : List Word} (ht : bankGiveStep st s = .ok (t, y)) :
    t.memWf = true := by
  unfold bankGiveStep at ht
  split at ht
  · cases ht
  next hc =>
    cases ht
    exact evacuate_memWf (show s.memWf = true from h) hc

theorem pkgVerify_memWf {s : State} (h : s.memWf = true) {t : State} {y : List Word} (ht : pkgVerify s = .ok (t, y)) : t.memWf = true := by
  unfold pkgVerify at ht
  dsimp only at ht
  split at ht
  · split at ht
    · cases ht
    · split at ht
      · cases ht
      · cases ht
        exact h
  · split at ht
    · cases ht
    · split at ht
      · cases ht
      · split at ht
        · cases ht
        · split at ht
          · cases ht
          · split at ht
            · cases ht
            · split at ht
              · cases ht
              · cases ht
                exact h

theorem pkgInstall_memWf {s : State} (h : s.memWf = true) {t : State} {y : List Word} (ht : pkgInstall s = .ok (t, y)) : t.memWf = true := by
  unfold pkgInstall at ht
  dsimp only at ht
  split at ht
  · cases ht
  · cases ht
    exact h

theorem lifeStep_memWf {st : Stepped} {k : Nat} {s : State} (h : s.memWf = true) {t : State} {y : List Word} (ht : lifeStep st k s = .ok (t, y)) :
    t.memWf = true := by
  unfold lifeStep at ht
  split at ht
  · exact (Prod.mk.inj (Except.ok.inj ht)).1 ▸ wipeVault_memWf h
  · exact (Prod.mk.inj (Except.ok.inj ht)).1 ▸ h

theorem stopTests_memWf {b : Nat} {s : State} (h : s.memWf = true) : (stopTests b s).memWf = true := by
  unfold stopTests
  extract_lets s1
  have hs1 : s1.memWf = true := by
    unfold s1
    exact foldl_memWf (fun _ _ ht => laneTests_memWf (State.setCourse_memWf ht)) _ h
  exact foldl_memWf (fun _ _ ht => ite_memWf (restoreGroup_memWf ht) ht) _ hs1

theorem discardBay_memWf {b : Nat} {s : State} (h : s.memWf = true) : (discardBay b s).memWf = true := by
  unfold discardBay
  extract_lets mine all gone keep _ s1
  have hs1 : s1.memWf = true := h
  refine foldl_memWf (fun t x ht => ?_) _ hs1
  extract_lets s2
  have hs2 : s2.memWf = true := dropItem_memWf ht
  split
  · exact countOverflow_memWf hs2
  · exact hs2

theorem startDrain_memWf {b : Nat} {s : State} (h : s.memWf = true) : (startDrain b s).memWf = true := by
  unfold startDrain
  extract_lets is t
  refine State.onBay_memWf ?_
  exact foldl_memWf (fun _ _ ht => endVoice_memWf ht) _ h

theorem endPair_memWf {h : Nat} {s : State} (hs : s.memWf = true) : (endPair h s).memWf = true := by
  unfold endPair
  extract_lets m
  exact State.onBay_memWf (State.onBay_memWf (clearTasks_memWf hs))

theorem prepareMode_memWf {st : Stepped} {s : State} (h : s.memWf = true) {t : State} (ht : prepareMode st s = .ok t) : t.memWf = true := by
  unfold prepareMode at ht
  dsimp only at ht
  split at ht
  · cases ht
    refine gainCoefArea_memWf ?_
    exact foldl_memWf (fun _ _ ht => wakeBank_memWf ht) _ (stopTests_memWf h)
  · split at ht
    · cases ht
      exact h
    · cases ht
  · cases ht
    exact discardBay_memWf (startDrain_memWf (ite_memWf (endPair_memWf h) h))
  · cases ht
    exact startDrain_memWf (ite_memWf (endPair_memWf h) h)
  · cases ht
    exact foldl_memWf (fun _ _ ht => wakeBank_memWf ht) _ (stopTests_memWf h)
  · split at ht
    · cases ht
      refine startResync_memWf ?_
      refine State.onBay_memWf ?_
      refine State.onBay_memWf ?_
      exact foldl_memWf (fun _ _ ht => wakeBank_memWf ht) _ (stopTests_memWf h)
    · cases ht
  · cases ht
    exact State.onBay_memWf (State.onBay_memWf (clearTasks_memWf h))

theorem bayModeStep_memWf {st : Stepped} {k : Nat} {s : State} (h : s.memWf = true) {t : State} {y : List Word}
    (ht : bayModeStep st k s = some (.ok (t, y))) : t.memWf = true := by
  unfold bayModeStep at ht
  split at ht
  · replace ht := Option.some.inj ht
    split at ht
    next hc1 =>
      cases ht
      exact prepareMode_memWf h hc1
    · cases ht
  · split at ht
    · cases ht
      exact h
    · cases ht

theorem fwStep_memWf {st : Stepped} {k : Nat} {data : List Word} {s : State} (h : s.memWf = true) {t : State} {y : List Word}
    (ht : fwStep st k data s = some (.ok (t, y))) : t.memWf = true := by
  unfold fwStep at ht
  dsimp only at ht
  split at ht
  · replace ht := Option.some.inj ht
    split at ht
    · cases ht
      exact standbyRestarts_memWf h
    · cases ht
  · split at ht
    · cases ht
      exact h
    · split at ht
      · split at ht
        · cases ht
          exact standbyRestarts_memWf h
        · cases ht
      · cases ht
        exact h

theorem stepEffects_memWf {st : Stepped} {k : Nat} {data : List Word} {s : State} (h : s.memWf = true) {t : State} {y : List Word}
    (ht : stepEffects st k data s = some (.ok (t, y))) : t.memWf = true := by
  unfold stepEffects at ht
  split at ht
  · replace ht := Option.some.inj ht
    exact vprogStep_memWf h ht
  · split at ht
    · replace ht := Option.some.inj ht
      exact bankGiveStep_memWf h ht
    · cases ht
  · replace ht := Option.some.inj ht
    split at ht
    · exact pkgVerify_memWf h ht
    · exact pkgInstall_memWf h ht
  · replace ht := Option.some.inj ht
    exact lifeStep_memWf h ht
  · exact bayModeStep_memWf h ht
  · exact fwStep_memWf h ht
  · cases ht

theorem failStep_memWf {st : Stepped} {k : Nat} {err : Status} {s : State} (h : s.memWf = true) : (failStep st k err s).memWf = true :=
    endStepped_memWf h

theorem endProbation_memWf {st : Stepped} {s : State} (h : s.memWf = true) : (endProbation st s).memWf = true := by
  unfold endProbation
  split
  · refine standbyRestarts_memWf ?_
    extract_lets _ s1
    have hs1 : s1.memWf = true := h
    exact ite_memWf (switchOver_memWf hs1) hs1
  · exact h

theorem stepComplete_memWf {j : Word} {err : BitVec 16} {data : List Word} {s : State} (h : s.memWf = true) : (stepComplete j err data s).memWf = true
    := by
  unfold stepComplete
  split
  · exact h
  · extract_lets k
    split
    · exact h
    next hc1 =>
      split
      · exact failStep_memWf (endProbation_memWf h)
      · split
        · exact failStep_memWf h
        · extract_lets u
          have hu : u.memWf = true := by
            unfold u
            refine recordStep_memWf ?_
            refine onRunning_memWf ?_
            exact stepEffects_memWf h hc1
          exact ite_memWf (endStepped_memWf hu) hu

theorem execStepEffectsComplete_memWf {j : Word} {err : BitVec 16} {data : List Word} {s : State} (h : s.memWf = true) {t : State}
    (ht : execStepEffectsComplete j err data s = .next t) : t.memWf = true := by
  unfold execStepEffectsComplete at ht
  cases ht
  exact ite_memWf h (stepComplete_memWf h)

theorem standbyComplete_memWf {s : State} (h : s.memWf = true) : (standbyComplete s).memWf = true := h

theorem execStandbyReady_memWf {s : State} (h : s.memWf = true) {t : State} (ht : execStandbyReady s = .next t) : t.memWf = true := by
  unfold execStandbyReady at ht
  cases ht
  exact ite_memWf (standbyComplete_memWf h) h

theorem restartDone_memWf {s : State} (h : s.memWf = true) : (restartDone s).memWf = true := by
  unfold restartDone
  split
  · extract_lets s1
    have hs1 : s1.memWf = true := reconcile_memWf (setDbRsp_memWf h)
    exact takeBuffers_memWf hs1
  · exact h

theorem execRestartAloneDone_memWf {s : State} (h : s.memWf = true) {t : State} (ht : execRestartAloneDone s = .next t) : t.memWf = true := by
  unfold execRestartAloneDone at ht
  cases ht
  exact ite_memWf (serveAll_memWf (restartDone_memWf h)) h

theorem execPlannedSwitchTimeout_memWf {s : State} (h : s.memWf = true) {t : State} (ht : execPlannedSwitchTimeout s = .next t) : t.memWf = true := by
  unfold execPlannedSwitchTimeout at ht
  cases ht
  split
  · exact ite_memWf h (completeJob_memWf (dropJob_memWf h))
  · exact h

theorem execAudioPllLock_memWf {s : State} (h : s.memWf = true) {t : State} (ht : execAudioPllLock s = .next t) : t.memWf = true := by
  unfold execAudioPllLock at ht
  cases ht
  exact ite_memWf h h

theorem execStartBit_memWf {u : Nat} {s : State} (h : s.memWf = true) {t : State} (ht : execStartBit u s = .next t) : t.memWf = true := by
  unfold execStartBit at ht
  replace ht := next_of_withUnit ht
  cases ht
  extract_lets x
  exact ite_memWf (State.setUart_memWf h) h

theorem execReceiverReturnsToIdle_memWf {u : Nat} {s : State} (h : s.memWf = true) {t : State} (ht : execReceiverReturnsToIdle u s = .next t) :
    t.memWf = true := by
  unfold execReceiverReturnsToIdle at ht
  replace ht := next_of_withUnit ht
  cases ht
  exact State.onUart_memWf h

theorem execLineIdleTenBitTimes_memWf {u : Nat} {s : State} (h : s.memWf = true) {t : State} (ht : execLineIdleTenBitTimes u s = .next t) : t.memWf =
    true := by
  unfold execLineIdleTenBitTimes at ht
  replace ht := next_of_withUnit ht
  cases ht
  exact State.onUart_memWf h

theorem execUartCharacterSent_memWf {u : Nat} {s : State} (h : s.memWf = true) {t : State} (ht : execUartCharacterSent u s = .next t) : t.memWf = true
    := by
  unfold execUartCharacterSent at ht
  replace ht := next_of_withUnit ht
  cases ht
  exact State.onUart_memWf h

theorem execDacShortEnd_memWf {d : Nat} {s : State} (h : s.memWf = true) {t : State} (ht : execDacShortEnd d s = .next t) : t.memWf = true := by
  unfold execDacShortEnd at ht
  replace ht := next_of_withUnit ht
  cases ht
  exact State.onDac_memWf h

theorem execTamperSourceInactive_memWf {source : Nat} {s : State} (h : s.memWf = true) {t : State} (ht : execTamperSourceInactive source s = .next t)
    : t.memWf = true := by
  unfold execTamperSourceInactive at ht
  replace ht := next_of_withUnit ht
  cases ht
  exact h

theorem execListenerReadyWithdrawn_memWf {t : Nat} {s : State} (h : s.memWf = true) {t1 : State} (ht : execListenerReadyWithdrawn t s = .next t1) :
    t1.memWf = true := by
  unfold execListenerReadyWithdrawn at ht
  replace ht := next_of_withUnit ht
  cases ht
  exact State.setStm_memWf h

theorem execPeerDelayInterval_memWf {dom : Nat} {s : State} (h : s.memWf = true) {t : State} (ht : execPeerDelayInterval dom s = .next t) : t.memWf =
    true := by
  unfold execPeerDelayInterval at ht
  exact withDom_memWf (sendEvent_memWf (State.setDom_memWf h)) ht

end Sys2Proof.Machine
end

section
/-! PROOFS. The canonical form of the memories: every command of the queue, and every step. -/

namespace Sys2Proof.Machine

/-- What every command of the queue does keeps the memories in canonical form. -/
theorem exec_memWf {i : Instr} {s : State} (h : s.memWf = true) {t : State} (ht : exec i s = .next t) : t.memWf = true := by
  cases i with
  | timeGet => exact execTimeGet_memWf h ht
  | timeRateSet => exact execTimeRateSet_memWf h ht
  | rateChangeComplete => exact execRateChangeComplete_memWf h ht
  | timeClockSelect => exact execTimeClockSelect_memWf h ht
  | timeDomainSet => exact execTimeDomainSet_memWf h ht
  | sysNop => exact execSysNop_memWf h ht
  | configCommit => exact execConfigCommit_memWf h ht
  | configDiscard => exact execConfigDiscard_memWf h ht
  | configEpoch => exact execConfigEpoch_memWf h ht
  | journalQuery => exact execJournalQuery_memWf h ht
  | commandDesync => exact execCommandDesync_memWf h ht
  | responseReleased => exact execResponseReleased_memWf h ht
  | voiceStart => exact execVoiceStart_memWf h ht
  | voiceRelease => exact execVoiceRelease_memWf h ht
  | voiceEnd => exact execVoiceEnd_memWf h ht
  | voiceQuery => exact execVoiceQuery_memWf h ht
  | partCounters => exact execPartCounters_memWf h ht
  | placeLoad => exact execPlaceLoad_memWf h ht
  | decimSet => exact execDecimSet_memWf h ht
  | decimStatus => exact execDecimStatus_memWf h ht
  | paramSet => exact execParamSet_memWf h ht
  | paramGet => exact execParamGet_memWf h ht
  | envWrite => exact execEnvWrite_memWf h ht
  | coefLoad => exact execCoefLoad_memWf h ht
  | coefSwap => exact execCoefSwap_memWf h ht
  | coefStatus => exact execCoefStatus_memWf h ht
  | swapScarfEnd => exact execSwapScarfEnd_memWf h ht
  | vprogLoad => exact execVprogLoad_memWf h ht
  | dispatchSet => exact execDispatchSet_memWf h ht
  | dispatchStatus => exact execDispatchStatus_memWf h ht
  | traceSet => exact execTraceSet_memWf h ht
  | traceStatus => exact execTraceStatus_memWf h ht
  | bayForm => exact execBayForm_memWf h ht
  | bayMode => exact execBayMode_memWf h ht
  | bayModeDrainEnd => exact execBayModeDrainEnd_memWf h ht
  | bayStatus => exact execBayStatus_memWf h ht
  | bayRecover => exact execBayRecover_memWf h ht
  | condSwitch => exact execCondSwitch_memWf h ht
  | plannedSwitch => exact execPlannedSwitch_memWf h ht
  | fwUpdate => exact execFwUpdate_memWf h ht
  | sessionList => exact execSessionList_memWf h ht
  | sessionQuery => exact execSessionQuery_memWf h ht
  | sessionSet => exact execSessionSet_memWf h ht
  | sessionClose => exact execSessionClose_memWf h ht
  | eventSend => exact execEventSend_memWf h ht
  | bankGive => exact execBankGive_memWf h ht
  | bankStatus => exact execBankStatus_memWf h ht
  | hwRegionSet => exact execHwRegionSet_memWf h ht
  | contentPin => exact execContentPin_memWf h ht
  | routeSet => exact execRouteSet_memWf h ht
  | tdmSet => exact execTdmSet_memWf h ht
  | audioClockSet => exact execAudioClockSet_memWf h ht
  | streamSet => exact execStreamSet_memWf h ht
  | renderSet => exact execRenderSet_memWf h ht
  | audioStatus => exact execAudioStatus_memWf h ht
  | dacSet => exact execDacSet_memWf h ht
  | dacWrite => exact execDacWrite_memWf h ht
  | dacStatus => exact execDacStatus_memWf h ht
  | uartSet => exact execUartSet_memWf h ht
  | uartSend => exact execUartSend_memWf h ht
  | uartRecv => exact execUartRecv_memWf h ht
  | timerSet => exact execTimerSet_memWf h ht
  | timerRead => exact execTimerRead_memWf h ht
  | pkgWrite => exact execPkgWrite_memWf h ht
  | pkgCommit => exact execPkgCommit_memWf h ht
  | pkgDrop => exact execPkgDrop_memWf h ht
  | vaultStatus => exact execVaultStatus_memWf h ht
  | vaultKeyWrap => exact execVaultKeyWrap_memWf h ht
  | vaultKeyLoad => exact execVaultKeyLoad_memWf h ht
  | tamperSet => exact execTamperSet_memWf h ht
  | tamperClear => exact execTamperClear_memWf h ht
  | lifeAdvance => exact execLifeAdvance_memWf h ht
  | healthStatus => exact execHealthStatus_memWf h ht
  | healthLedger => exact execHealthLedger_memWf h ht
  | healthSet => exact execHealthSet_memWf h ht
  | sysReset => exact execSysReset_memWf h ht
  | sysPower => exact execSysPower_memWf h ht
  | registerWrite => exact execRegisterWrite_memWf h ht
  | hwDbCmd => exact execHwDbCmd_memWf h ht
  | hwMbxReset => exact execHwMbxReset_memWf h ht
  | tmDtimeLo => exact execTmDtimeLo_memWf h ht
  | setAliasWrite => exact execSetAliasWrite_memWf h ht
  | clearAliasWrite => exact execClearAliasWrite_memWf h ht
  | soundStoreAccess => exact execSoundStoreAccess_memWf h ht
  | hostWindowAccess => exact execHostWindowAccess_memWf h ht
  | lowerHalfRead => exact execLowerHalfRead_memWf h ht
  | upperHalfRead => exact execUpperHalfRead_memWf h ht
  | lowerHalfWrite => exact execLowerHalfWrite_memWf h ht
  | upperHalfWrite => exact execUpperHalfWrite_memWf h ht
  | qspiRead => exact execQspiRead_memWf h ht
  | qspiWrite => exact execQspiWrite_memWf h ht
  | qspiUnknownCommand => exact execQspiUnknownCommand_memWf h ht
  | uartHold => exact execUartHold_memWf h ht
  | tmrCapq => exact execTmrCapq_memWf h ht
  | dspAsk => exact execDspAsk_memWf h ht
  | dspPostGo => exact execDspPostGo_memWf h ht
  | stallTimeout => exact execStallTimeout_memWf h ht
  | dspFlag => exact execDspFlag_memWf h ht
  | sysBootCtl => exact execSysBootCtl_memWf h ht
  | hold => exact execHold_memWf h ht
  | add => exact execAdd_memWf h ht
  | sub => exact execSub_memWf h ht
  | cmp => exact execCmp_memWf h ht
  | neg => exact execNeg_memWf h ht
  | abs => exact execAbs_memWf h ht
  | clr => exact execClr_memWf h ht
  | copy => exact execCopy_memWf h ht
  | andW => exact execAndW_memWf h ht
  | orW => exact execOrW_memWf h ht
  | xorW => exact execXorW_memWf h ht
  | shl1 => exact execShl1_memWf h ht
  | shr1 => exact execShr1_memWf h ht
  | rndf => exact execRndf_memWf h ht
  | satf => exact execSatf_memWf h ht
  | mac => exact execMac_memWf h ht
  | mul => exact execMul_memWf h ht
  | qmac => exact execQmac_memWf h ht
  | qmacx => exact execQmacx_memWf h ht
  | xmac => exact execXmac_memWf h ht
  | min => exact execMin_memWf h ht
  | max => exact execMax_memWf h ht
  | minuw => exact execMinuw_memWf h ht
  | maxuw => exact execMaxuw_memWf h ht
  | addc => exact execAddc_memWf h ht
  | subc => exact execSubc_memWf h ht
  | mulsu => exact execMulsu_memWf h ht
  | muluu => exact execMuluu_memWf h ht
  | move => exact execMove_memWf h ht
  | ldk => exact execLdk_memWf h ht
  | movm => exact execMovm_memWf h ht
  | nop => exact execNop_memWf h ht
  | endTask => exact execEndTask_memWf h ht
  | fwait => exact execFwait_memWf h ht
  | jmp => exact execJmp_memWf h ht
  | call => exact execCall_memWf h ht
  | ret => exact execRet_memWf h ht
  | brCc => exact execBrCc_memWf h ht
  | loop => exact execLoop_memWf h ht
  | loopv => exact execLoopv_memWf h ht
  | leave => exact execLeave_memWf h ht
  | rpt => exact execRpt_memWf h ht
  | fetch => exact execFetch_memWf h ht
  | fetchComplete => exact execFetchComplete_memWf h ht
  | fifthFetchStart => exact execFifthFetchStart_memWf h ht
  | padd => exact execPadd_memWf h ht
  | sra => exact execSra_memWf h ht
  | sla => exact execSla_memWf h ht
  | srl => exact execSrl_memWf h ht
  | cls => exact execCls_memWf h ht
  | dstep => exact execDstep_memWf h ht
  | clrcnt => exact execClrcnt_memWf h ht
  | reservedEncoding => exact execReservedEncoding_memWf h ht
  | taskDispatch => exact execTaskDispatch_memWf h ht
  | preemption => exact execPreemption_memWf h ht
  | localMemoryError => exact execLocalMemoryError_memWf h ht
  | frameTick => exact execFrameTick_memWf h ht
  | watchdogTakeover => exact execWatchdogTakeover_memWf h ht
  | conductorFailover => exact execConductorFailover_memWf h ht
  | conductorRestart => exact execConductorRestart_memWf h ht
  | takeControlBack => exact execTakeControlBack_memWf h ht
  | oscillatorBlockFlag => exact execOscillatorBlockFlag_memWf h ht
  | decimatedBlockFlag => exact execDecimatedBlockFlag_memWf h ht
  | inputBufferCopy => exact execInputBufferCopy_memWf h ht
  | onset => exact execOnset_memWf h ht
  | envelopeSegmentEnd => exact execEnvelopeSegmentEnd_memWf h ht
  | scarfEnd => exact execScarfEnd_memWf h ht
  | quarantineEnd => exact execQuarantineEnd_memWf h ht
  | groupRelease => exact execGroupRelease_memWf h ht
  | templateResident => exact execTemplateResident_memWf h ht
  | contentResident => exact execContentResident_memWf h ht
  | promotion => exact execPromotion_memWf h ht
  | kerfStart => exact execKerfStart_memWf h ht
  | frameCheck => exact execFrameCheck_memWf h ht
  | frameCheckDecision => exact execFrameCheckDecision_memWf h ht
  | outputPathFault => exact execOutputPathFault_memWf h ht
  | residueCheckFailure => exact execResidueCheckFailure_memWf h ht
  | resynchronisationEnd => exact execResynchronisationEnd_memWf h ht
  | selfTestEnd => exact execSelfTestEnd_memWf h ht
  | returnHome => exact execReturnHome_memWf h ht
  | renderFrameStart => exact execRenderFrameStart_memWf h ht
  | renderFrameEnd => exact execRenderFrameEnd_memWf h ht
  | networkMidiPacket => exact execNetworkMidiPacket_memWf h ht
  | invitation => exact execInvitation_memWf h ht
  | bye => exact execBye_memWf h ht
  | jrClock => exact execJrClock_memWf h ht
  | endpointDiscovery => exact execEndpointDiscovery_memWf h ht
  | streamConfigurationRequest => exact execStreamConfigurationRequest_memWf h ht
  | functionBlockDiscovery => exact execFunctionBlockDiscovery_memWf h ht
  | ping => exact execPing_memWf h ht
  | keepaliveTimeout => exact execKeepaliveTimeout_memWf h ht
  | intakeFifoExit => exact execIntakeFifoExit_memWf h ht
  | uartCharacterComplete => exact execUartCharacterComplete_memWf h ht
  | rawCharacterTaken => exact execRawCharacterTaken_memWf h ht
  | uartStampedSend => exact execUartStampedSend_memWf h ht
  | gptpEventMessage => exact execGptpEventMessage_memWf h ht
  | domainLock => exact execDomainLock_memWf h ht
  | domainUnlock => exact execDomainUnlock_memWf h ht
  | rampEnd => exact execRampEnd_memWf h ht
  | frameLaunch => exact execFrameLaunch_memWf h ht
  | listenerPacket => exact execListenerPacket_memWf h ht
  | acmpConnect => exact execAcmpConnect_memWf h ht
  | acmpDisconnect => exact execAcmpDisconnect_memWf h ht
  | entityAvailable => exact execEntityAvailable_memWf h ht
  | readDescriptor => exact execReadDescriptor_memWf h ht
  | acquireEntity => exact execAcquireEntity_memWf h ht
  | lockEntity => exact execLockEntity_memWf h ht
  | getStreamFormat => exact execGetStreamFormat_memWf h ht
  | setStreamFormat => exact execSetStreamFormat_memWf h ht
  | getStreamInfo => exact execGetStreamInfo_memWf h ht
  | getCounters => exact execGetCounters_memWf h ht
  | listenerReady => exact execListenerReady_memWf h ht
  | referenceLost => exact execReferenceLost_memWf h ht
  | referenceReturn => exact execReferenceReturn_memWf h ht
  | bankRetention => exact execBankRetention_memWf h ht
  | bankWake => exact execBankWake_memWf h ht
  | zeroiseDone => exact execZeroiseDone_memWf h ht
  | cvWriteEffect => exact execCvWriteEffect_memWf h ht
  | dacShort => exact execDacShort_memWf h ht
  | shortToFault => exact execShortToFault_memWf h ht
  | vddaDacLow => exact execVddaDacLow_memWf h ht
  | dacClockAbsent => exact execDacClockAbsent_memWf h ht
  | rampComplete => exact execRampComplete_memWf h ht
  | settleEnd => exact execSettleEnd_memWf h ht
  | recalibrationPass => exact execRecalibrationPass_memWf h ht
  | periodEvent => exact execPeriodEvent_memWf h ht
  | capture => exact execCapture_memWf h ht
  | healthPeriodEnd => exact execHealthPeriodEnd_memWf h ht
  | pmbusRetry => exact execPmbusRetry_memWf h ht
  | courseClockAlarm => exact execCourseClockAlarm_memWf h ht
  | courseSupplyAlarm => exact execCourseSupplyAlarm_memWf h ht
  | ledgerWrite => exact execLedgerWrite_memWf h ht
  | serviceCycle => exact execServiceCycle_memWf h ht
  | stale => exact execStale_memWf h ht
  | vmaxStep => exact execVmaxStep_memWf h ht
  | tamperRaised => exact execTamperRaised_memWf h ht
  | powerOnReset => exact execPowerOnReset_memWf h ht
  | porN => exact execPorN_memWf h ht
  | wrstN => exact execWrstN_memWf h ht
  | deviceWatchdog => exact execDeviceWatchdog_memWf h ht
  | pcieHotReset => exact execPcieHotReset_memWf h ht
  | bootPhase => exact execBootPhase_memWf h ht
  | ready => exact execReady_memWf h ht
  | wake => exact execWake_memWf h ht
  | stepEffectsComplete => exact execStepEffectsComplete_memWf h ht
  | standbyReady => exact execStandbyReady_memWf h ht
  | restartAloneDone => exact execRestartAloneDone_memWf h ht
  | plannedSwitchTimeout => exact execPlannedSwitchTimeout_memWf h ht
  | audioPllLock => exact execAudioPllLock_memWf h ht
  | startBit => exact execStartBit_memWf h ht
  | receiverReturnsToIdle => exact execReceiverReturnsToIdle_memWf h ht
  | lineIdleTenBitTimes => exact execLineIdleTenBitTimes_memWf h ht
  | uartCharacterSent => exact execUartCharacterSent_memWf h ht
  | dacShortEnd => exact execDacShortEnd_memWf h ht
  | tamperSourceInactive => exact execTamperSourceInactive_memWf h ht
  | listenerReadyWithdrawn => exact execListenerReadyWithdrawn_memWf h ht
  | acmpGetState => exact execAcmpGetState_memWf h ht
  | adpDiscover => exact execAdpDiscover_memWf h ht
  | announce => exact execAnnounce_memWf h ht
  | followUp => exact execFollowUp_memWf h ht
  | pdelayRespFollowUp => exact execPdelayRespFollowUp_memWf h ht
  | signaling => exact execSignaling_memWf h ht
  | peerDelayInterval => exact execPeerDelayInterval_memWf h ht

theorem dueReset_memWf {s : State} (h : s.memWf = true) : (dueReset s).memWf = true := ite_memWf (sysResetNow_memWf h) h

theorem strobeEnd_memWf {s : State} (h : s.memWf = true) : (strobeEnd s).memWf = true := h

theorem timerTick_memWf {n : Nat} {s : State} (h : s.memWf = true) : (timerTick n s).memWf = true := by
  unfold timerTick
  extract_lets t
  exact ite_memWf (timerEvent_memWf h) (State.setTimer_memWf h)

theorem timerClk_memWf {s : State} {n : Nat} (h : s.memWf = true) : (timerClk s n).memWf = true := by
  unfold timerClk
  extract_lets t
  exact ite_memWf h (ite_memWf (timerEvent_memWf h) (ite_memWf (State.setTimer_memWf h) (timerTick_memWf (State.setTimer_memWf h))))

theorem tickSlow_work (v : Vault) : (tickSlow v).work = v.work := by
  unfold tickSlow
  split
  · rfl
  · rfl

theorem clkPass_memWf {s : State} (h : s.memWf = true) : (clkPass s).memWf = true := by
  unfold clkPass
  extract_lets _ s1
  obtain ⟨hstore, hwin, hwork, hsc, hcores⟩ := State.memWf_iff.1 h
  have hs1 : s1.memWf = true := State.memWf_iff.2 ⟨hstore, hwin, (congrArg Mem.wf (tickSlow_work s.vault)).trans hwork,
    Tab.mapVals_all (fun x : ServiceCore => Mem.wf x.priv) hsc
      (show ∀ (_ : Nat) (c : ServiceCore), Mem.wf c.priv = true → Mem.wf (tickSvc c).priv = true from fun _ _ hc => hc), hcores⟩
  split
  · exact h
  · exact foldl_memWf (fun _ _ ht => timerClk_memWf ht) _ hs1

theorem idle_memWf {s : State} (h : s.memWf = true) : (idle s).memWf = true := dueReset_memWf (strobeEnd_memWf (clkPass_memWf h))

theorem step_memWf {s : State} (h : s.memWf = true) {t : State} (ht : step s = .next t) : t.memWf = true := by
  unfold step at ht
  split at ht
  · exact Host.Outcome.next.inj ht ▸ idle_memWf h
  next c r _ => exact exec_memWf (show State.memWf { s with pending := r } = true from h) ht

/-- Settles O7: every command of the queue keeps the form of every memory, and so does a clk of an empty queue. -/
theorem everyStepKeepsTheMemoryForm : Obligations.EveryStepKeepsTheMemoryForm := by
  unfold Obligations.EveryStepKeepsTheMemoryForm
  intro s t h ht
  exact step_memWf h ht

/-- Settles O8: each access is a command of the queue. -/
theorem memoriesKeepTheirForm : Obligations.MemoriesKeepTheirForm := by
  unfold Obligations.MemoriesKeepTheirForm
  intro s t h
  exact ⟨fun _ _ _ _ _ ht => exec_memWf h ht, fun _ _ _ _ _ ht => exec_memWf h ht, fun _ _ ht => exec_memWf h ht, fun _ _ _ ht => exec_memWf h ht,
    fun _ _ ht => exec_memWf h ht, fun _ _ ht => exec_memWf h ht, fun _ _ _ _ ht => exec_memWf h ht, fun _ _ _ ht => exec_memWf h ht,
    fun _ _ _ _ ht => exec_memWf h ht, fun _ _ _ _ _ ht => exec_memWf h ht, fun _ _ ht => exec_memWf h ht, fun _ _ ht => exec_memWf h ht⟩

end Sys2Proof.Machine
end


section
/-! PROOFS. Both readings of the opaque descriptor table (log entry 22) under O16: `parameterAndCoefficientCommands_of_effectParam` gives the
statement where no entry of the table is HALTED; here an entry that is HALTED refutes it. Neither fact about the table follows from the model. -/

namespace Sys2Proof.Machine

/-- The descriptor that an entry of an effect program's table gives its endpoint (R185, R186). -/
def effectDesc (d : Config.EffectParam) : Desc := { typ := d.typ, cls := d.cls, lo := d.lo, hi := d.hi, reset := d.reset, smooth := d.smooth }

theorem descOf_effect {a : Nat} (hq : a / 65536 = 3) (hp : 0x40 ≤ a % 256) :
    descOf a = (Config.effectParam (a / 256 % 256) (a % 256)).map effectDesc := by
  simp only [descOf, hq, scope3Desc, if_pos hp]
  rfl

/-- An endpoint of an effect program is HALTED as soon as its table says so. -/
theorem haltedEndpoint_of_effectParam {a v : Word} {d : Config.EffectParam} (hq : a.toNat / 65536 = 3) (hp : 0x40 ≤ a.toNat % 256)
    (hd : Config.effectParam (a.toNat / 256 % 256) (a.toNat % 256) = some d) (hc : d.cls = 2) (hv : (effectDesc d).inRange v = true) :
    HaltedEndpoint a v := by
  have desc : descOf a.toNat = some (effectDesc d) := by
    rw [descOf_effect hq hp, hd]
    rfl
  refine ⟨?_, ?_⟩
  · simp only [writeOk, desc, hv]
    rfl
  · simp only [classAt, desc]
    exact hc

/-- The statement fails under a descriptor table with an entry of the class HALTED that admits a value. -/
theorem not_parameterAndCoefficientCommands_of_effectParam {a v : Word} {d : Config.EffectParam} (hq : a.toNat / 65536 = 3)
    (hp : 0x40 ≤ a.toNat % 256) (hd : Config.effectParam (a.toNat / 256 % 256) (a.toNat % 256) = some d) (hc : d.cls = 2)
    (hv : (effectDesc d).inRange v = true) : ¬ Obligations.ParameterAndCoefficientCommands :=
  not_parameterAndCoefficientCommands_of_halted (haltedEndpoint_of_effectParam hq hp hd hc hv)

end Sys2Proof.Machine
end
